-- ==== Sys2Proof/Word.lean ====
section
/-! DEFINITION. The word types of the module: bytes and 32-bit bus words. -/

namespace Sys2Proof.Machine

/-- A byte. -/
abbrev Byte := BitVec 8

/-- A 32-bit bus word: register words, signal-image value and tag words. -/
abbrev Word := BitVec 32

end Sys2Proof.Machine
end

