-- ==== Sys2Proof/Syntax.lean ====
section
/-! DEFINITION. The commands of the block: one constructor per row of the opcode table, with the operands of the row. An operand `ago`
tells how many nanoseconds before the command the instant lies that a stamp is taken of (R79). -/

namespace Sys2Proof

/-- The bus masters, as PG_ERR_ADDR.MASTER codes them (R35). -/
inductive Master
  /-- Core `h` of the safe pairs in machine mode, 0 to 7; pair `p` unsplit is core `2 * p`. -/
  | core (h : Fin 8)
  /-- The same core in user mode (R30, R235, R250). -/
  | user (h : Fin 8)
  /-- The debug port. -/
  | dbg
  /-- The queue manager. -/
  | qmg
  /-- Every other master. -/
  | other
deriving DecidableEq, Repr

/-- A timer descriptor of a program image (R99): type 1 TON, 2 TOF, 3 TP; PT in ms, or the slot it is read from. -/
structure TimerDesc where
  ty : Nat
  pt : Nat
  slot : Option Nat
deriving DecidableEq, Repr

/-- A counter descriptor of a program image (R102): PV, or the slot it is read from. -/
structure CounterDesc where
  pv : BitVec 32
  slot : Option Nat
deriving DecidableEq, Repr

/-- A retention entry of a program image (R119): class 0 timer, 1 counter, 2 edge detector; old and new index. -/
structure RetainEntry where
  cls : Nat
  old : Nat
  new : Nat
deriving DecidableEq, Repr

/-- The body of a program image (R121), decoded: the manual names its parts and gives no byte layout. -/
structure ImageBody where
  /-- The counts at 0x0B0 are consistent with LENGTH, and every list, descriptor and FB table entry lies within its
  section (check 4 of R117). -/
  consistent : Bool
  code : List (BitVec 32)
  inputs : List (List Nat)
  outputs : List (List Nat)
  timers : List TimerDesc
  counters : List CounterDesc
  edges : Nat
  fbs : List Nat
  initial : List (Nat × BitVec 32)
  retain : List RetainEntry
deriving DecidableEq, Repr

/-- One entry of the result list of a CAL (R104). -/
inductive CalResult
  /-- A whole Q slot word. -/
  | q (slot : BitVec 13) (v : BitVec 32)
  /-- An aligned 32-bit word of M. -/
  | m (word : BitVec 11) (v : BitVec 32)
deriving DecidableEq, Repr

/-- The measured current of an analogue channel at a tick boundary, own and total, in nA. -/
structure FieldSample where
  ch : Fin 256
  own : BitVec 25
  total : BitVec 25
deriving DecidableEq, Repr

/-- A frame across a bank's barrier as it arrives (R202): its sequence number, and whether its CRC-32 is right. -/
structure BankFrame where
  seq : BitVec 16
  crcOk : Bool
deriving DecidableEq, Repr

/-- What is wrong with a HART response (R230). -/
inductive HartErr
  | none
  /-- A parity, framing or check-byte error. -/
  | frame
  /-- The carrier was lost. -/
  | carrier
deriving DecidableEq, Repr

/-- How STARTUP_TEST ends (R277, R389): passed, failed by the Gauntlet's own test, or by another. -/
inductive StartupTest
  | pass
  | gauntlet
  | other
deriving DecidableEq, Repr

/-- What one scan of the Gauntlet's oscillator logic yields (R325): the result of the signature test on input p, the
pass with no fault, or the wrong answer. -/
inductive GntTest
  | vector (p : Nat)
  | passDone
  | wrong
deriving DecidableEq, Repr

/-- A memory with check bits (R251): a TCM of a core, or memory `m` of MEM_ECC (R256): 0 shared SRAM, 1 DRAM, 2 MRAM, 3 signal
image, 4 LPE memory, 5 CAS memory. -/
inductive EccMem
  | tcm (core : Fin 8) (dtcm : Bool)
  | mem (m : Fin 6)
deriving DecidableEq, Repr

/-- The master of an access that meets a double-bit error (R252): a core, or the block of a register page. -/
inductive EccMaster
  | core (h : Fin 8)
  | block (page : Fin 256)
deriving DecidableEq, Repr

/-- What one copy of a compared pair drives at a comparison (R237): the bus address, the control signals (access type, byte enables,
privilege, CSR writes with outside effects, WFI and sleep requests), the write data, and the program counter and write-back value of the
instructions retired since the last signature. -/
structure CopyOut where
  addr : BitVec 32
  ctrl : BitVec 32
  data : BitVec 32
  retired : List (BitVec 32 × BitVec 32)
deriving DecidableEq, Repr

/-- What the comparator reports in the two clock cycles of its test (R240): the bit lanes and the summary output, for a vector pair that
differs in every bit and for an equal pair. -/
structure LaneTest where
  lanes1 : List Bool
  sum1 : Bool
  lanes2 : List Bool
  sum2 : Bool
deriving DecidableEq, Repr

/-- What makes an agreement point (R243): a multiple of PERIOD, a read of the time or timeh CSR, a WFI. -/
inductive AgreeKind
  | period
  | time
  | timeh
  | wfi
deriving DecidableEq, Repr

/-- An agreement point (R243): what makes it, and the count of retired instructions. -/
structure AgreePoint where
  kind : AgreeKind
  n : BitVec 32
deriving DecidableEq, Repr

/-- A frame that a HART modem heard (R229): how many ns ago the start bit of its delimiter came, and its bytes. -/
structure HartHeard where
  ago : Nat
  bytes : List (BitVec 8)
deriving DecidableEq, Repr

/-- How many ns ago a sent frame passed the reference point at its port and, for a pair, at the odd port (R76, R77). -/
structure EgressAgo where
  ago : BitVec 32
  ago2 : BitVec 32
deriving DecidableEq, Repr

/-- What a scrubber finds in a word (R253). -/
inductive ScrubFind
  | clean
  | single
  | double
deriving DecidableEq, Repr

/-- The commands: one constructor per row of the opcode table. -/
inductive Instr
  /-- TICK_BOUNDARY (R15): At each 100 µs tick boundary every bank applies its staged outputs and takes its input samples. -/
  | tickBoundary (field : List FieldSample)
  /-- SNAPSHOT_INSTANT (R15): At 25 µs into the tick, loops read measurements, tasks freeze inputs and Cascade solves start. -/
  | snapshotInstant
  /-- STAGE_CUTOFF (R15): At 90 µs into the tick each bank copies the bound signal-image values into its output stage. -/
  | stageCutoff
  /-- LOOP_RELEASE (R127): At the release instant the engine commits the staged estimate and posts the loop outputs as one group. -/
  | loopRelease (c : Fin 128) (done : Bool)
  /-- DOMAIN_WAKE (R11): The wake controller starts a compute domain so that its clock is locked 2 µs before scheduled work. -/
  | domainWake (d : Fin 10)
  /-- CLOCK_LOCKED (R10): A woken compute domain's fast clock locks, warm or cold. -/
  | clockLocked (d : Fin 11)
  /-- DOMAIN_SLEEP (R13): A compute domain with no pending work and no scheduled work within 50 µs enters sleep. -/
  | domainSleep (d : Fin 10)
  /-- FCLK_LOCK_TIMEOUT (R14): A clock not locked 40 µs after its wake sets FCLK_FAULT and the domain's work overruns. -/
  | fclkLockTimeout (d : Fin 10)
  /-- FCLK_LOCK_1MS_TIMEOUT (R440): A clock still not locked 1 ms after its wake sends the module to SAFE_HOLD with cause 0x09. -/
  | fclkLock1msTimeout (d : Fin 10)
  /-- FCLK_MONITOR_WINDOW (R63): At the end of each 100 µs window each monitored clock is judged against ±5 % of the TCXO. -/
  | fclkMonitorWindow (dev : List (Fin 11 × Int))
  /-- TCXO_CHECK_WINDOW (R62): At the end of each 1 s window the TCXO is compared with the crystal and TCXO_DEV is set or cleared. -/
  | tcxoCheckWindow (ppb : Int)
  /-- UNMAPPED_ACCESS (R29): An access outside the address map or to an unassigned page is refused with an error response. -/
  | unmappedAccess (m : Master) (addr : BitVec 32) (size : Nat) (wr : Bool)
  /-- REGISTER_WRITE (R40): A write to a register without a row of its own is judged field by field by type, state and range. -/
  | registerWrite (m : Master) (addr : BitVec 32) (size : Nat) (v : BitVec 64)
  /-- LOW_WORD_READ (R42): Reading the low word of a multi-word value latches the high and fraction words into the reader's shadow. -/
  | lowWordRead (m : Master) (addr : BitVec 32) (size : Nat)
  /-- HIGH_WORD_WRITE (R43): Writing the high or fraction word places it in the writing master's write shadow. -/
  | highWordWrite (m : Master) (addr : BitVec 32) (v : BitVec 32)
  /-- LOW_WORD_WRITE (R43): Writing the low word commits it with the write shadow in one cycle and empties the shadow. -/
  | lowWordWrite (m : Master) (addr : BitVec 32) (v : BitVec 32)
  /-- SIGIMG_TAG_WRITE (R20): A core writes a slot's tag word into its write shadow as the first half of a post. -/
  | sigimgTagWrite (m : Master) (slot : Fin 8192) (v : BitVec 32)
  /-- SIGIMG_VALUE_WRITE (R20): A core writes a slot's value word, committing value and tag as one post, or the value alone with an empty shadow. -/
  | sigimgValueWrite (m : Master) (slot : Fin 8192) (v : BitVec 32)
  /-- ERR_CNT_WRITE (R36): A write to PG_ERR_CNT loads each counter except where the written byte is 0xFF. -/
  | errCntWrite (m : Master) (page : Fin 256) (v : BitVec 32)
  /-- ENABLE_CLEAR (R39): Clearing PG_CTRL.ENABLE aborts the block's work with reason 0xFE and holds it idle. -/
  | enableClear (m : Master) (page : Fin 256) (v : BitVec 32)
  /-- SOFT_RESET (R39): Writing SOFT_RESET while ENABLE is 0 returns the page's block registers and tables to reset. -/
  | softReset (m : Master) (page : Fin 256) (v : BitVec 32)
  /-- ABORT (R51): Writing 0xAB00_00xx to PG_ABORT aborts the current work of the selected unit. -/
  | abort (m : Master) (page : Fin 256) (v : BitVec 32)
  /-- ABORT_COMPLETE (R53): An aborted unit reaches IDLE, IN_PROGRESS clears and ABORTED is set. -/
  | abortComplete (page : Fin 256) (unit : Fin 128)
  /-- ABORT_OVER_BOUND (R54): An abort that exceeds its bound sets OVER_BOUND and the block's FAULT. -/
  | abortOverBound (page : Fin 256) (unit : Fin 128)
  /-- LOOP_ABORT_FALLBACK (R149): An aborted context enters FALLBACK with cause 9 no later than the second tick boundary after the abort. -/
  | loopAbortFallback (c : Fin 128)
  /-- GUARDED_VALUE_WRITE (R45): A write to the guarded value window opens a guarded write awaiting its complement. -/
  | guardedValueWrite (m : Master) (page : Fin 256) (off : BitVec 12) (v : BitVec 32)
  /-- GUARD_TIMEOUT (R45): A guarded write whose complement has not arrived within 256 page-clock cycles lapses and counts GUARD with cause 6. -/
  | guardTimeout (page : Fin 256)
  /-- FEAT_COMMIT (R55): The guarded commit sets FEAT_ACTIVE to DEV_FEAT AND DRV_FEAT and sets FEAT_COMMITTED or MAND_MISSING. -/
  | featCommit (m : Master) (v : BitVec 32)
  /-- STATE_REQ_RUN (R59): The guarded RUN request in CONFIG moves the module to STARTUP_TEST. -/
  | stateReqRun (m : Master)
  /-- STATE_REQ_RESTART (R59): The guarded RESTART request restarts the module, after a planned handover when a ready standby exists. -/
  | stateReqRestart (m : Master)
  /-- IMG_UPD_START (R61): The guarded start copies a new image into the unused NAND image and verifies it. -/
  | imgUpdStart (m : Master) (v : BitVec 32)
  /-- IMAGE_UPDATE_DONE (R61): An image update completes and its IMG_STAT is set to valid or signature failure. -/
  | imageUpdateDone
  /-- BOOT_SELECT (R61): The guarded BOOT_SELECT write chooses in MRAM the image tried first at every boot. -/
  | bootSelect (m : Master) (v : BitVec 32)
  /-- SERVO_OFFSET_WRITE (R67): The low-word write of SERVO_OFFSET commits an offset and starts one servo update or a pending step. -/
  | servoOffsetWrite (m : Master) (v : BitVec 32)
  /-- ADDEND_FRAC_WRITE (R69): With the servo off, a write to ADDEND_FRAC commits a software addend, refusing ADDEND_INT 0. -/
  | addendFracWrite (m : Master) (v : BitVec 32)
  /-- INTEG_CLR (R69): Writing INTEG_CLR loads the servo integral with 0 at once. -/
  | integClr (m : Master)
  /-- HOLDOVER_TIMEOUT (R70): No accepted offset for HOLDOVER_TIME sets HOLDOVER and fixes the addend from the integral term. -/
  | holdoverTimeout
  /-- STEP_PERMIT (R71): The guarded STEP_PERMIT write permits steps, and clearing it cancels a pending step. -/
  | stepPermit (m : Master) (v : BitVec 32)
  /-- STEP_APPLY (R72): At the next tick boundary a pending step moves the counter by −o and records STEP_SEQ, STEP_LAST and STEP_AT. -/
  | stepApply
  /-- CYCLE_BOUNDARY (R87): A cycle of a logic task begins at a tick boundary on its grid. -/
  | cycleBoundary (q : Fin 4) (t : Fin 8)
  /-- NOP (R98): The sequencer executes no operation. -/
  | nop (q : Fin 4) (o : BitVec 24)
  /-- LD (R98): ACC takes the bit operand. -/
  | ld (q : Fin 4) (o : BitVec 24)
  /-- LDN (R98): ACC takes the complement of the bit operand. -/
  | ldn (q : Fin 4) (o : BitVec 24)
  /-- ST (R98): The Q or M bit operand takes ACC. -/
  | st (q : Fin 4) (o : BitVec 24)
  /-- STN (R98): The Q or M bit operand takes the complement of ACC. -/
  | stn (q : Fin 4) (o : BitVec 24)
  /-- S (R98): If ACC is 1 the Q or M bit operand is set. -/
  | setOp (q : Fin 4) (o : BitVec 24)
  /-- R (R98): If ACC is 1 the Q or M bit operand is cleared. -/
  | resetOp (q : Fin 4) (o : BitVec 24)
  /-- AND (R98): ACC takes ACC AND the operand. -/
  | andOp (q : Fin 4) (o : BitVec 24)
  /-- ANDN (R98): ACC takes ACC AND the complement of the operand. -/
  | andn (q : Fin 4) (o : BitVec 24)
  /-- OR (R98): ACC takes ACC OR the operand. -/
  | orOp (q : Fin 4) (o : BitVec 24)
  /-- ORN (R98): ACC takes ACC OR the complement of the operand. -/
  | orn (q : Fin 4) (o : BitVec 24)
  /-- XOR (R98): ACC takes ACC XOR the operand. -/
  | xorOp (q : Fin 4) (o : BitVec 24)
  /-- XORN (R98): ACC takes ACC XOR the complement of the operand. -/
  | xorn (q : Fin 4) (o : BitVec 24)
  /-- NOT (R98): ACC is inverted. -/
  | notOp (q : Fin 4) (o : BitVec 24)
  /-- AND_PAREN (R98): AND( pushes ACC with kind AND and loads the operand. -/
  | andParen (q : Fin 4) (o : BitVec 24)
  /-- ANDN_PAREN (R98): ANDN( pushes ACC with kind AND and loads the complement of the operand. -/
  | andnParen (q : Fin 4) (o : BitVec 24)
  /-- OR_PAREN (R98): OR( pushes ACC with kind OR and loads the operand. -/
  | orParen (q : Fin 4) (o : BitVec 24)
  /-- ORN_PAREN (R98): ORN( pushes ACC with kind OR and loads the complement of the operand. -/
  | ornParen (q : Fin 4) (o : BitVec 24)
  /-- XOR_PAREN (R98): XOR( pushes ACC with kind XOR and loads the operand. -/
  | xorParen (q : Fin 4) (o : BitVec 24)
  /-- XORN_PAREN (R98): XORN( pushes ACC with kind XOR and loads the complement of the operand. -/
  | xornParen (q : Fin 4) (o : BitVec 24)
  /-- CLOSE_PAREN (R98): ) pops an entry and combines it with ACC by its kind. -/
  | closeParen (q : Fin 4) (o : BitVec 24)
  /-- MPS (R98): MPS pushes ACC with kind –. -/
  | mps (q : Fin 4) (o : BitVec 24)
  /-- MRD (R98): MRD loads ACC from the top entry of kind – without popping. -/
  | mrd (q : Fin 4) (o : BitVec 24)
  /-- MPP (R98): MPP pops an entry of kind – into ACC. -/
  | mpp (q : Fin 4) (o : BitVec 24)
  /-- EDGR (R98): The edge detector reports a rising edge of ACC and stores ACC. -/
  | edgr (q : Fin 4) (o : BitVec 24)
  /-- EDGF (R98): The edge detector reports a falling edge of ACC and stores ACC. -/
  | edgf (q : Fin 4) (o : BitVec 24)
  /-- TON (R99): An on-delay timer is evaluated against t_c with input ACC and returns Q. -/
  | ton (q : Fin 4) (o : BitVec 24)
  /-- TOF (R99): An off-delay timer is evaluated against t_c with input ACC and returns Q. -/
  | tof (q : Fin 4) (o : BitVec 24)
  /-- TP (R99): A pulse timer is evaluated against t_c with input ACC and returns Q. -/
  | tp (q : Fin 4) (o : BitVec 24)
  /-- CTU (R102): The counter counts up on a rising CU and stores QU and QD. -/
  | ctu (q : Fin 4) (o : BitVec 24)
  /-- CTD (R102): The counter counts down on a rising CD and stores QU and QD. -/
  | ctd (q : Fin 4) (o : BitVec 24)
  /-- CRES (R102): If ACC is 1 the counter's CV is set to 0. -/
  | cres (q : Fin 4) (o : BitVec 24)
  /-- CLOAD (R102): If ACC is 1 the counter's CV is loaded with PV. -/
  | cload (q : Fin 4) (o : BitVec 24)
  /-- JMP (R98): Execution jumps forward to the target. -/
  | jmp (q : Fin 4) (o : BitVec 24)
  /-- JMPC (R98): If ACC is 1 execution jumps forward to the target. -/
  | jmpc (q : Fin 4) (o : BitVec 24)
  /-- JMPCN (R98): If ACC is 0 execution jumps forward to the target. -/
  | jmpcn (q : Fin 4) (o : BitVec 24)
  /-- CAL (R104): The task calls a function block on its pair's cores and enters CAL_WAIT. -/
  | cal (q : Fin 4) (o : BitVec 24)
  /-- CALC (R104): If ACC is 1 the task calls a function block. -/
  | calc (q : Fin 4) (o : BitVec 24)
  /-- CALCN (R104): If ACC is 0 the task calls a function block. -/
  | calcn (q : Fin 4) (o : BitVec 24)
  /-- END (R88): Execution ends and the task's output list is posted as one group. -/
  | endOp (q : Fin 4) (o : BitVec 24)
  /-- UNDEFINED_INSTRUCTION (R94): An undefined opcode or non-zero reserved bits put the task in FAULT. -/
  | undefinedInstruction (q : Fin 4) (w : BitVec 32)
  /-- CAL_RETURN (R104): A function block result returns within budget and is applied in order, ACC taking ENO. -/
  | calReturn (q : Fin 4) (t : Fin 10) (eno : Bool) (res : List CalResult)
  /-- CAL_TIMEOUT (R105): A CAL not back within its budget fails with ACC 0 and CAL_FAIL set. -/
  | calTimeout (q : Fin 4) (t : Fin 10)
  /-- TASK_RESUME (R95): The guarded resume returns a faulted or aborted cyclic task to its next cycle boundary. -/
  | taskResume (m : Master) (q : Fin 4) (v : BitVec 32)
  /-- STARTUP_TASK_TIMEOUT (R106): A start-up task not at END within 1 s goes to FAULT and no cyclic task starts. -/
  | startupTaskTimeout (q : Fin 4)
  /-- RIX_EXCHANGE_INTERVAL (R109): At each exchange interval the module sends an output frame, or a probe to a lost station. -/
  | rixExchangeInterval (st : Fin 64)
  /-- RIX_INPUT_FRAME (R109): A station's input frame is checked for sequence and posted as one group. -/
  | rixInputFrame (st : Fin 64) (frame : List (BitVec 8)) (ago : BitVec 32)
  /-- RIX_LATE_TIMEOUT (R110): No valid input frame within one interval plus 1 ms puts the station in LATE. -/
  | rixLateTimeout (st : Fin 64)
  /-- RIX_LOSS_TIMEOUT (R110): No valid input frame for LOSS_MS puts the station in LOST and triggers the error task. -/
  | rixLossTimeout (st : Fin 64)
  /-- RIX_SUBST_POST (R111): At the next tick boundary after loss the station's input slots are posted by SUBST_MODE. -/
  | rixSubstPost (st : Fin 64)
  /-- FORCE_SET (R114): FORCE_CMD 1 activates the selected force entry unless one of the refusals applies. -/
  | forceSet (m : Master)
  /-- FORCE_REMOVE (R114): FORCE_CMD 2 removes the selected force. -/
  | forceRemove (m : Master)
  /-- FORCE_REMOVE_ALL (R114): FORCE_CMD 3 removes all forces. -/
  | forceRemoveAll (m : Master)
  /-- FORCE_AUTH_SUBMIT (R115): The submission checks FORCE_RESP against the challenge and opens or closes FORCE_AUTH. -/
  | forceAuthSubmit (m : Master)
  /-- FORCE_AUTH_TIMEOUT (R115): FORCE_AUTH closes 900 s after it opened. -/
  | forceAuthTimeout
  /-- CHALLENGE_RENEWAL (R284): Every 60 s each credential challenge is renewed. -/
  | challengeRenewal (set : Fin 5)
  /-- PROG_LOAD (R117): The guarded load copies a program image into the inactive bank and checks it. -/
  | progLoad (m : Master) (q : Fin 4)
  /-- PROG_LOAD_DONE (R117): A program load ends with the inactive bank valid or failed with LOAD_ERR. -/
  | progLoadDone (q : Fin 4) (body : ImageBody)
  /-- ACTIVATE (R118): The guarded activation arms a bank switch at the first quiet tick within 2 s. -/
  | activate (m : Master) (q : Fin 4)
  /-- ACTIVATION_TICK (R118): At a quiet tick the sequencer switches banks and carries state over by the retention map. -/
  | activationTick (q : Fin 4)
  /-- ACTIVATION_TIMEOUT (R118): An activation without a quiet tick within 2 s lapses with ACT_RESULT 2. -/
  | activationTimeout (q : Fin 4)
  /-- CTX_CMD_CLOSE (R138): The guarded CLOSE command latches entry into PRIMING. -/
  | ctxCmdClose (m : Master)
  /-- CTX_CMD_OPEN (R138): The guarded OPEN command latches entry into OPEN. -/
  | ctxCmdOpen (m : Master)
  /-- CTX_CMD_FALLBACK (R138): The guarded FALLBACK command latches entry into FALLBACK. -/
  | ctxCmdFallback (m : Master)
  /-- CTX_ENABLE (R134): Setting CTX_CFG.EN runs admission and on success enables the context in OPEN. -/
  | ctxEnable (m : Master) (v : BitVec 32)
  /-- CTX_DISABLE (R152): Clearing CTX_CFG.EN of an OPEN context frees its output slots. -/
  | ctxDisable (m : Master) (v : BitVec 32)
  /-- LPE_QUERY (R135): Writing QUERY.FREQ_MHZ starts an admission evaluation at that frequency. -/
  | lpeQuery (m : Master) (v : BitVec 32)
  /-- LPE_QUERY_DONE (R135): The loop-engine query completes and sets DONE, FITS, RATE_OK and DENS_OK. -/
  | lpeQueryDone
  /-- LPE_APERTURE_WRITE (R131): A write to a context's coefficient or state block is accepted only while the context is OPEN. -/
  | lpeApertureWrite (m : Master) (addr : BitVec 32) (v : BitVec 32)
  /-- CAS_LOAD (R163): SLOT_CMD LOAD copies a structure descriptor into the slot's region and checks it. -/
  | casLoad (m : Master)
  /-- CAS_LOAD_DONE (R163): A slot load completes in LOADED or LOAD_FAILED. -/
  | casLoadDone (k : Fin 16)
  /-- CAS_UNLOAD (R163): SLOT_CMD UNLOAD returns the slot to EMPTY and frees its region. -/
  | casUnload (m : Master)
  /-- CAS_REFRESH (R177): SLOT_CMD REFRESH requests a preconditioner refresh. -/
  | casRefresh (m : Master)
  /-- CAS_COLD (R180): SLOT_CMD COLD makes the next solve start from the prior. -/
  | casCold (m : Master)
  /-- CAS_SLOT_ENABLE (R174): Setting SLOT_CFG.EN runs Cascade admission and on success puts the slot in WAITING. -/
  | casSlotEnable (m : Master) (v : BitVec 32)
  /-- CAS_SLOT_DISABLE (R183): Clearing SLOT_CFG.EN lets a solve in hand post, then frees the posted slots. -/
  | casSlotDisable (m : Master) (v : BitVec 32)
  /-- CAS_DISPATCH (R176): When the lanes are free Cascade dispatches the next unit of the slot with the earliest deadline. -/
  | casDispatch (ns : Nat)
  /-- CAS_LIN_COMMIT (R169): A linearisation commit from the cores is applied and the slot leaves LIN_WAIT. -/
  | casLinCommit (k : Fin 16)
  /-- CAS_LIN_TIMEOUT (R169): A linearisation not committed within LIN_BUDGET ends the solve with LIN_TIMEOUT. -/
  | casLinTimeout (k : Fin 16)
  /-- CAS_REFRESH_START (R177): A requested refresh starts when no slot has work. -/
  | casRefreshStart (k : Fin 16)
  /-- CAS_REFRESH_DONE (R178): A refresh completes or fails, and a good factor becomes active at the next start instant. -/
  | casRefreshDone (k : Fin 16)
  /-- CAS_QUERY (R175): Writing CAS QUERY.FREQ_MHZ starts an admission evaluation at that frequency. -/
  | casQuery (m : Master) (v : BitVec 32)
  /-- CAS_QUERY_DONE (R175): The Cascade query completes and sets its result fields. -/
  | casQueryDone
  /-- CAS_MEMORY_WRITE (R161): A write into a non-EMPTY slot's region is discarded and counted. -/
  | casMemoryWrite (m : Master) (addr : BitVec 32) (size : Nat) (v : BitVec 64)
  /-- BANK_OUTPUT_FRAME (R202): A bank receives the tick's output frame with its drive mode, or treats it as missing. -/
  | bankOutputFrame (b : Fin 16) (f : BankFrame)
  /-- BANK_INPUT_FRAME (R203): The logic side receives a bank's input frame and posts its channel values. -/
  | bankInputFrame (b : Fin 16) (f : BankFrame)
  /-- LOGIC_SILENCE (R204): SILENCE_MS without a valid output frame makes the bank logic silent. -/
  | logicSilence (b : Fin 16)
  /-- INPUT_LOST (R203): SILENCE_MS without a valid input frame posts the bank's inputs with VALID 0. -/
  | inputLost (b : Fin 16)
  /-- RELEASE_HOLD_EXPIRY (R206): RELEASE_MS after the last valid DRIVE frame the bank releases its outputs. -/
  | releaseHoldExpiry (b : Fin 16)
  /-- TIMED_SAFE_TIMEOUT (R205): TS_TIMEOUT_MS after entering output hold the channel applies TS_VALUE. -/
  | timedSafeTimeout (ch : Fin 256)
  /-- FV_FAULT (R188): FV outside its range switches off outputs and invalidates inputs. -/
  | fvFault (b : Fin 16) (mv : Int) (ma : BitVec 16)
  /-- FV_RECOVERY (R188): After FV has been in range for 10 ms the outputs resume at the next tick boundary. -/
  | fvRecovery (b : Fin 16) (mv : BitVec 16) (ma : BitVec 16)
  /-- BANK_SUPPLY_LOSS (R189): A bank losing its logic-side supply de-energises all its outputs. -/
  | bankSupplyLoss (b : Fin 16)
  /-- DI_SAMPLE (R195): At each sample instant the DI filter counter counts up or down and may change the filtered state. -/
  | diSample (ch : Fin 256) (raw : Bool)
  /-- FOLD_BACK (R192): A DO in current limit for 2 ms switches off and sets SHORT. -/
  | foldBack (ch : Fin 256)
  /-- FOLDBACK_RETRY (R192): Every 100 ms a folded-back DO commanded on retries for 2 ms. -/
  | foldbackRetry (ch : Fin 256) (limited : Bool)
  /-- READBACK_ERR (R193): A DO terminal that disagrees with the command for 1 ms sets READBACK_ERR. -/
  | readbackErr (ch : Fin 256) (term : Bool) (bad : Bool)
  /-- OPEN_LOAD (R193): A DO on below its open-load current for 100 ms sets OPEN_LOAD. -/
  | openLoad (ch : Fin 256) (low : Bool)
  /-- LINE_FAULT (R197): A NAMUR sensor current outside 0.15 to 6.0 mA sets LINE_FAULT. -/
  | lineFault (ch : Fin 256) (ua : BitVec 16)
  /-- TEST_PULSE_START (R198): An energised tested element opens for its off-pulse at its pulse instant. -/
  | testPulseStart (ch : Fin 256)
  /-- PULSE_VERDICT (R199): At W − 20 µs the terminal readback decides pass or PULSE_FAIL. -/
  | pulseVerdict (ch : Fin 256) (high : Bool) (raws : BitVec 16)
  /-- TEST_PULSE_END (R199): At the end of the pulse the element re-energises unless a de-energise arrived. -/
  | testPulseEnd (ch : Fin 256)
  /-- SAFETY_POLL (R207): A bank answers a Gauntlet poll with the filtered states and validity of its safety inputs. -/
  | safetyPoll (b : Fin 16)
  /-- TRIP_WORD (R207): A bank receives a trip word and opens the trip element of each output whose bit is 0. -/
  | tripWord (b : Fin 16) (w : BitVec 16) (c : BitVec 16) (seq : BitVec 8)
  /-- TRIP_WORD_TIMEOUT (R207): No valid trip word for 1 ms opens every trip element and clears TRIP_LINK_OK. -/
  | tripWordTimeout (b : Fin 16)
  /-- AI_RANGE_TIMER (R217): An out-of-range AI condition lasting 10 ms sets RANGE_LO, RANGE_HI or OPEN_LOOP. -/
  | aiRangeTimer (ch : Fin 256)
  /-- SUPPLY_LIMIT (R218): A loop supply in its current limit for 10 ms sets SUPPLY_LIMIT. -/
  | supplyLimit (ch : Fin 256) (limited : Bool)
  /-- COMPLIANCE (R221): An AO short of its command at its voltage limit sets COMPLIANCE within 1 ms. -/
  | compliance (ch : Fin 256) (short : Bool) (mv : BitVec 16)
  /-- COMPL_FAULT (R221): COMPLIANCE held for 9 ms sets COMPL_FAULT or OPEN_LOOP. -/
  | complFault (ch : Fin 256)
  /-- JOIN_TO_SOLE (R224): A JOIN channel whose peer share stays below 0.1 mA for 1 ms enters SOLE. -/
  | joinToSole (ch : Fin 256)
  /-- SOLE_TO_JOIN (R224): A SOLE channel whose total exceeds its own current by 0.2 mA for 1 ms re-enters JOIN. -/
  | soleToJoin (ch : Fin 256)
  /-- HART_REQUEST (R229): A bank takes a HART request from TX_RING into a channel's request slots. -/
  | hartRequest (b : Fin 16)
  /-- HART_TRANSMIT (R228): After two character times without carrier the modem transmits the request. -/
  | hartTransmit (ch : Fin 256)
  /-- HART_RESPONSE (R230): A HART response is checked and delivered on RX_RING with its result. -/
  | hartResponse (ch : Fin 256) (err : HartErr) (frame : HartHeard)
  /-- HART_TIMEOUT (R230): No response delimiter within 28 character times fails the attempt and may retry. -/
  | hartTimeout (ch : Fin 256)
  /-- HART_BURST (R226): A received burst frame is delivered while BURST_RX is set, otherwise discarded. -/
  | hartBurst (ch : Fin 256) (frame : HartHeard)
  /-- COMPARATOR_MISMATCH (R239): A mismatch between the copies halts the pair and sends the module to SAFE_HOLD 0x04. -/
  | comparatorMismatch (u : Fin 8) (lead : CopyOut) (trail : CopyOut) (pc : BitVec 32)
  /-- COMPARATOR_TEST (R240): Every 1 ms the comparator is tested by injection. -/
  | comparatorTest (u : Fin 8) (r : LaneTest) (pc : BitVec 32)
  /-- DELAY_PARITY_ERROR (R241): A parity error in a delay-register stage sends the module to SAFE_HOLD 0x05. -/
  | delayParityError (u : Fin 8) (pc : BitVec 32) (addr : BitVec 32)
  /-- AGREEMENT_POINT (R243): At an agreement point the Weir exchanges and agrees all asynchronous inputs of the pair. -/
  | agreementPoint (p : Fin 4) (point : AgreePoint) (pc : BitVec 32) (d0 : BitVec 64) (d1 : Bool) (d3 : Bool) (d4 : Bool) (dt : Nat) (ext : Bool) (tim : Bool)
  /-- IRQ_ASSERT (R247): A page interrupt output asserts the mapped bit of a pair's pending vector. -/
  | irqAssert (page : Fin 256)
  /-- MTIMECMP_REACHED (R248): Vessel time reaching MTIMECMP makes the machine timer interrupt pending. -/
  | mtimecmpReached (p : Fin 4) (second : Bool)
  /-- ECC_SINGLE_BIT (R251): A single-bit error is corrected on access, written back and counted. -/
  | eccSingleBit (mem : EccMem) (addr : BitVec 32)
  /-- ECC_DOUBLE_BIT (R252): A double-bit error on access halts an unsplit pair or faults the master. -/
  | eccDoubleBit (mem : EccMem) (addr : BitVec 32) (who : EccMaster) (pc : BitVec 32)
  /-- SCRUB_WORD (R253): A scrubber reads, corrects and writes back a word of memory. -/
  | scrubWord (mem : EccMem) (addr : BitVec 32) (found : ScrubFind)
  /-- DMI_READ (R258): DMI_OP 1 starts a Debug Module read. -/
  | dmiRead (m : Master)
  /-- DMI_WRITE (R258): DMI_OP 2 starts a Debug Module write. -/
  | dmiWrite (m : Master)
  /-- DMI_DONE (R258): A DMI access completes and BUSY clears. -/
  | dmiDone (failed : Bool) (rdata : BitVec 32)
  /-- DBG_AUTH_SUBMIT (R254): The submission checks DBG_RESP and opens debug access on success. -/
  | dbgAuthSubmit (m : Master)
  /-- DBG_AUTH_TIMEOUT (R254): DBG_AUTH closes 900 s after it opened. -/
  | dbgAuthTimeout
  /-- GAUNTLET_SCAN (R268): Every 1 840 oscillator cycles the Gauntlet polls the banks, votes and sends trip words. -/
  | gauntletScan (t : GntTest)
  /-- DISCREPANCY_TIMEOUT (R270): A discrepancy lasting DISC_MS sets DISC and trips a 2oo2 group. -/
  | discrepancyTimeout (j : Fin 64) (g : Fin 4)
  /-- RESET_ARM (R276): A reset input valid and 0 for 1 s becomes ARMED. -/
  | resetArm (i : Fin 128)
  /-- RESET_PRESS_TIMEOUT (R276): A reset press reaching 5 s sets RESET_FAULT. -/
  | resetPressTimeout (i : Fin 128)
  /-- PARAM_CHECK (R277): Every 1 s the Gauntlet recomputes the signature of its loaded tables. -/
  | paramCheck (ok : Bool)
  /-- GNT_OSC_WINDOW (R277): Each 5 ms window judges the Gauntlet oscillator against ±4 %. -/
  | gntOscWindow (khz : BitVec 16)
  /-- GNT_SUPPLY_FAULT (R277): A Gauntlet supply fault stops the Gauntlet and sends the module to SAFE_HOLD 0x08. -/
  | gntSupplyFault
  /-- VOTE_REPEAT (R264): Every 1 ms the vote producer repeats the last vector. -/
  | voteRepeat
  /-- VOTE_LOSS (R273): No accepted vote frame for 2 ms starts holding the last vector. -/
  | voteLoss
  /-- VOTE_GRACE_EXPIRY (R273): VOTE_GRACE after the last frame PV becomes all zeros and EXPIRED is set. -/
  | voteGraceExpiry
  /-- PSET_LOAD (R281): The guarded load copies a safety parameter set into MRAM and checks it. -/
  | psetLoad (m : Master) (v : BitVec 32)
  /-- PSET_LOAD_DONE (R281): A parameter set load completes as the stored set or fails with LOAD_ERR. -/
  | psetLoadDone
  /-- COMMISSION (R285): The guarded COMMISSION writes the confirmed signature to MRAM if the proof is correct. -/
  | commission (m : Master) (v : BitVec 32)
  /-- CRED_CHANGE (R284): The guarded CRED_CHANGE replaces a credential when its change proof is correct. -/
  | credChange (m : Master) (v : BitVec 32)
  /-- CRED_LOCKOUT_EXPIRY (R284): A locked credential purpose unlocks 300 s after the lockout. -/
  | credLockoutExpiry (p : Fin 32)
  /-- SEAL_SWITCH_CHANGE (R287): A change of the live switch positions sets SEAL_CHANGED. -/
  | sealSwitchChange (addr : BitVec 8) (compat : Bool) (lock : Bool)
  /-- SSC_REPEAT (R300): A producer entry sends after REPEAT without a send. -/
  | sscRepeat (e : Fin 64)
  /-- SSC_FRAME (R302): A consumer entry checks an arriving frame and accepts, discards or fails it. -/
  | sscFrame (e : Fin 64) (frame : List (BitVec 8)) (ago : BitVec 32)
  /-- SSC_WATCHDOG (R304): WDOG without an accepted frame puts the consumer in SAFE with cause 4. -/
  | sscWatchdog (e : Fin 64)
  /-- SESS_ACK (R305): The guarded acknowledgement lets an acknowledged-restart session leave SAFE. -/
  | sessAck (m : Master) (v : BitVec 32)
  /-- SESS_ENABLE (R306): Enabling a session starts a producer or puts a consumer in SAFE with cause 0. -/
  | sessEnable (m : Master) (v : BitVec 32)
  /-- SESS_DISABLE (R308): Clearing SESS_CFG.EN frees a consumer's slots. -/
  | sessDisable (m : Master) (v : BitVec 32)
  /-- RING_PROD_WRITE (R312): Software advances PROD_IDX of a ring it produces into. -/
  | ringProdWrite (m : Master) (v : BitVec 32)
  /-- RING_CONS_WRITE (R312): Software advances CONS_IDX of a ring it consumes from. -/
  | ringConsWrite (m : Master) (v : BitVec 32)
  /-- RING_ENABLE (R327): Setting RING_CFG.EN checks the endpoints, base and buffer and enables the ring. -/
  | ringEnable (m : Master) (v : BitVec 32)
  /-- RING_DISABLE (R327): Clearing RING_CFG.EN aborts the ring and stops it. -/
  | ringDisable (m : Master) (v : BitVec 32)
  /-- RING_HOLDOFF (R316): An entry waiting HOLDOFF_US sets SW_WORK for a software consumer. -/
  | ringHoldoff (r : Fin 64)
  /-- ETH_RX_FRAME (R321): A port takes a received frame through its filter steps and delivers or drops it. -/
  | ethRxFrame (p : Fin 12) (frame : List (BitVec 8)) (fcsOk : Bool) (ago : BitVec 32)
  /-- ETH_TRANSMIT (R319): A port starts its next frame in priority order from the SSE, the RDC or a ring. -/
  | ethTransmit (p : Fin 12)
  /-- ETH_TX_DONE (R320): A transmitted frame completes its descriptor with status and egress stamp. -/
  | ethTxDone (p : Fin 12) (sent : EgressAgo)
  /-- LINK_DOWN (R320): A port's link goes down, and descriptors are discarded with status 2. -/
  | linkDown (p : Fin 12)
  /-- LINK_UP (R318): A port's link comes up. -/
  | linkUp (p : Fin 12) (speed : BitVec 2)
  /-- PORT_SPEED_WRITE (R327): A write to PORT_CFG.SPEED restarts the link. -/
  | portSpeedWrite (m : Master) (p : Fin 12) (v : BitVec 32)
  /-- PRP_SUPERVISION (R322): Every 2 s a PRP pair sends supervision frames. -/
  | prpSupervision (p : Fin 12)
  /-- SER_TRANSMIT (R324): A serial port sends the record of its next transmit descriptor. -/
  | serTransmit (n : Fin 32)
  /-- SER_RECORD_CLOSE (R325): A received serial record closes by its framing and is delivered with status. -/
  | serRecordClose (n : Fin 32) (bytes : List (BitVec 8)) (parity : Bool) (framing : Bool) (brk : Bool) (ago : BitVec 32)
  /-- SER_GAP_TIMEOUT (R325): In raw mode a record closes after GAP_CHAR idle character times. -/
  | serGapTimeout (n : Fin 32) (bytes : List (BitVec 8)) (parity : Bool) (framing : Bool) (brk : Bool) (ago : BitVec 32)
  /-- MODBUS_FRAME_END (R326): t3.5 of idle closes a Modbus frame, whose CRC is checked. -/
  | modbusFrameEnd (n : Fin 32) (bytes : List (BitVec 8)) (parity : Bool) (framing : Bool) (brk : Bool) (gap : Bool) (ago : BitVec 32)
  /-- MODBUS_REQUEST (R326): A Modbus master sends a request when the bus has been idle for t3.5. -/
  | modbusRequest (n : Fin 32)
  /-- MODBUS_RESP_TIMEOUT (R326): No response within RESP_TIMEOUT_MS posts a TIMEOUT record. -/
  | modbusRespTimeout (n : Fin 32)
  /-- MODBUS_TURNAROUND (R326): After a broadcast the master waits TURNAROUND_MS before the next request. -/
  | modbusTurnaround (n : Fin 32)
  /-- SER_MODE_OFF (R327): Writing MODE 0 ends the record in hand with ABORTED. -/
  | serModeOff (m : Master) (n : Fin 32) (v : BitVec 32)
  /-- CAN_FETCH (R333): A free transmit buffer fetches the next descriptor of TX_RING. -/
  | canFetch (n : Fin 20)
  /-- CAN_SOF (R333): At a possible start-of-frame the controller offers its highest-priority eligible buffer. -/
  | canSof (n : Fin 20)
  /-- CAN_TX_END (R334): A frame ends for good and its descriptor is completed with status and stamp. -/
  | canTxEnd (n : Fin 20)
  /-- CAN_ARB_LOST (R334): A frame that loses arbitration is retried, or ends for ONE_SHOT or a cancel. -/
  | canArbLost (n : Fin 20)
  /-- CAN_BUS_ERROR (R339): A detected bus error is counted and may lead to error passive or bus-off. -/
  | canBusError (n : Fin 20) (cls : Fin 8) (tec : BitVec 16) (rec : BitVec 8) (tx : Bool)
  /-- CAN_RECOVER (R339): CAN_CMD.RECOVER starts bus-off recovery. -/
  | canRecover (m : Master) (n : Fin 20)
  /-- CAN_RECOVERED (R339): 128 occurrences of 11 recessive bits complete bus-off recovery. -/
  | canRecovered (n : Fin 20)
  /-- CAN_LAUNCH_TIME (R336): An AT frame becomes eligible at its launch time. -/
  | canLaunchTime (n : Fin 20) (b : Fin 8)
  /-- CAN_AT_WINDOW_EXPIRY (R336): An AT frame not started within AT_WINDOW_US ends LATE. -/
  | canAtWindowExpiry (n : Fin 20) (b : Fin 8)
  /-- CAN_RX_FRAME (R335): An error-free received frame goes to the SSE, a receive ring or nowhere. -/
  | canRxFrame (n : Fin 20) (w0 : BitVec 32) (w1 : BitVec 32) (bytes : List (BitVec 8)) (ago : BitVec 32)
  /-- CAN_MODE_WRITE (R343): A MODE write takes effect at the next bus idle and leaving normal mode cancels the buffers. -/
  | canModeWrite (m : Master) (n : Fin 20) (v : BitVec 32)
  /-- NBT_WRITE (R337): An NBT write sets the nominal timing and recomputes FRAME_TIME_US. -/
  | nbtWrite (m : Master) (n : Fin 20) (v : BitVec 32)
  /-- CAN_DET_DWELL (R342): DWELL_MS without a frame moves bit-rate detection to the next candidate. -/
  | canDetDwell (n : Fin 20)
  /-- HEARTBEAT_SEND (R348): Every 1 ms a member sends a HEARTBEAT to its peer and witness. -/
  | heartbeatSend
  /-- HEARTBEAT (R348): A received heartbeat updates the peer or member state and link status. -/
  | heartbeat (path : Fin 13) (rec : List (BitVec 8)) (ago : BitVec 32)
  /-- HB_LINK_TIMEOUT (R348): 3 ms without a valid record on a link marks it down. -/
  | hbLinkTimeout (path : Fin 15)
  /-- LEASE_REQ (R350): A witness judges a lease request and grants, defers or refuses it. -/
  | leaseReq (path : Fin 13) (rec : List (BitVec 8)) (ago : BitVec 32)
  /-- LEASE_GRANT (R349): A member receiving a grant computes its lease expiry and may become ACTIVE. -/
  | leaseGrant (path : Fin 13) (rec : List (BitVec 8)) (ago : BitVec 32)
  /-- LEASE_REFUSE (R350): A member receives a refusal of its lease request. -/
  | leaseRefuse (path : Fin 13) (rec : List (BitVec 8)) (ago : BitVec 32)
  /-- PEER_REQ (R351): A standby judges a peer lease request and co-signs it when permitted. -/
  | peerReq (path : Fin 13) (rec : List (BitVec 8)) (ago : BitVec 32)
  /-- PEER_GRANT (R349): An active member receives a peer lease grant. -/
  | peerGrant (path : Fin 13) (rec : List (BitVec 8)) (ago : BitVec 32)
  /-- RELINQUISH (R368): A received RELINQUISH ends the sender's leases at once. -/
  | relinquish (path : Fin 13) (rec : List (BitVec 8)) (ago : BitVec 32)
  /-- HANDOVER (R368): A peer receives a HANDOVER record naming the handover tick. -/
  | handover (path : Fin 13) (rec : List (BitVec 8)) (ago : BitVec 32)
  /-- TIME_REQ (R358): The active module answers a TIME_REQ with TIME_RESP and TIME_FUP. -/
  | timeReq (path : Fin 13) (rec : List (BitVec 8)) (ago : BitVec 32) (dep : BitVec 32)
  /-- TIME_RESP (R358): The standby records the ingress stamp of a TIME_RESP. -/
  | timeResp (path : Fin 13) (rec : List (BitVec 8)) (ago : BitVec 32)
  /-- TIME_FUP (R358): The standby computes the offset and commits it to the servo. -/
  | timeFup (path : Fin 13) (rec : List (BitVec 8)) (ago : BitVec 32)
  /-- TIME_EXCHANGE_START (R358): Every servo interval the standby sends TIME_REQ on one sync link. -/
  | timeExchangeStart (t1 : BitVec 32)
  /-- TIME_EXCHANGE_TIMEOUT (R358): An exchange without TIME_RESP or TIME_FUP within 10 ms is discarded. -/
  | timeExchangeTimeout
  /-- LEASE_RENEW (R349): Every 5 ms an active member sends LEASE_REQ and PEER_REQ. -/
  | leaseRenew
  /-- STANDBY_LEASE_REQ (R354): Every 1 ms a permitted standby repeats its lease request. -/
  | standbyLeaseReq
  /-- LEASE_EXPIRY (R352): The lease of an active member expires and it becomes lapsed. -/
  | leaseExpiry
  /-- PEER_LEASE_EXPIRY (R351): 2 ms after a signed peer lease expires SIGNED clears. -/
  | peerLeaseExpiry
  /-- WITNESS_GUARD_END (R350): 2 ms after a lease ends the witness grants a pending request. -/
  | witnessGuardEnd (station : Fin 256)
  /-- WITNESS_STARTUP_HOLD (R350): 22 ms after its witness duty starts the witness may grant leases. -/
  | witnessStartupHold
  /-- COLD_START_WAIT (R354): 2 s without a request from the preferred member lets the witness grant the other. -/
  | coldStartWait (station : Fin 256)
  /-- RESTORE_DONE (R365): The restore completes and the schedule starts. -/
  | restoreDone
  /-- FULL_CHECKPOINT_START (R360): After each whole second the Sluice starts a full checkpoint. -/
  | fullCheckpointStart
  /-- SLUICE_RECORD (R361): The standby applies a Sluice record in SEQ order and advances its consistent state. -/
  | sluiceRecord (rec : List (BitVec 8))
  /-- HANDOVER_REQ (R369): The guarded request starts a planned handover. -/
  | handoverReq (m : Master)
  /-- HANDOVER_TICK (R368): At tick H the active module sends its last DRIVE, relinquishes and enters STANDBY. -/
  | handoverTick
  /-- HANDOVER_TIMEOUT (R368): A peer not DRIVING within 50 ms + T_fast of H fails the handover. -/
  | handoverTimeout
  /-- REVERT_HOLDOFF (R370): A preferred standby READY for HOLDOFF_MIN sets REVERT_WANTED. -/
  | revertHoldoff
  /-- REVERT_START (R370): The active member starts a handover once all revert conditions hold. -/
  | revertStart
  /-- REVERT_INHIBIT_SET (R371): REVERT_INHIBIT value 1 with a valid proof sets the inhibit. -/
  | revertInhibitSet (m : Master)
  /-- REVERT_INHIBIT_CLEAR (R371): REVERT_INHIBIT value 2 with a valid proof clears the inhibit. -/
  | revertInhibitClear (m : Master)
  /-- WM_ENABLE (R373): Setting WM_CFG.EN adds a witness member entry. -/
  | wmEnable (m : Master) (w : Fin 8) (v : BitVec 32)
  /-- WM_DISABLE (R373): Clearing WM_CFG.EN treats the member's lease as relinquished. -/
  | wmDisable (m : Master) (w : Fin 8) (v : BitVec 32)
  /-- MAINS_LOSS (R378): The mains feed is lost and its counter increments. -/
  | mainsLoss (vrms : BitVec 16) (freq : BitVec 16)
  /-- MAINS_RETURN (R378): The mains feed returns and its converter starts. -/
  | mainsReturn (vrms : BitVec 16) (freq : BitVec 16)
  /-- AUX_LOSS (R378): The auxiliary feed is lost and its counter increments. -/
  | auxLoss (mv : BitVec 16) (ma : BitVec 16)
  /-- AUX_RETURN (R378): The auxiliary feed returns and its converter starts. -/
  | auxReturn (mv : BitVec 16) (ma : BitVec 16)
  /-- PFW (R380): The power-fail warning saves counters, interrupts the pairs, flushes the Cistern and refuses commands. -/
  | pfw (bulk : BitVec 16)
  /-- PFW_CLEAR (R381): The bulk rising above PF_THRESH + 20 V clears the warning. -/
  | pfwClear (bulk : BitVec 16)
  /-- BROWN_OUT (R382): At 220 V the logic rails go and the module returns to POWER_ON. -/
  | brownOut
  /-- RAIL_FAULT (R383): A logic rail outside its window sends the module to SAFE_HOLD 0x08 or POWER_ON. -/
  | railFault (rail : Fin 7) (below : Bool)
  /-- SUPPLIES_GOOD (R389): Supplies good restores counters, resets the banks and enters BOOT. -/
  | suppliesGood (bulk : BitVec 16)
  /-- BOOT_DONE (R390): The boot loader verifies and loads an image and enters CONFIG, or enters HALT. -/
  | bootDone (apps : List (Fin 8192 × Fin 8))
  /-- STARTUP_TEST_DONE (R389): The self-tests end, the Gauntlet loads its tables and the module enters RUN or HALT. -/
  | startupTestDone (r : StartupTest)
  /-- BUTTON_PRESS (R386): The front button is pressed and its press is timed. -/
  | buttonPress
  /-- BUTTON_RELEASE (R386): At release the button acts by press duration and situation. -/
  | buttonRelease (ms : Nat)
  /-- BUTTON_STUCK (R387): A press reaching 10 s sets STUCK and the button is ignored. -/
  | buttonStuck
  /-- BUTTON_REARM (R387): The button seen released for 2 s clears STUCK. -/
  | buttonRearm
  /-- AUTO_RESTART (R388): DELAY_S after entering SAFE_HOLD the module restarts itself within the hourly limit. -/
  | autoRestart
  /-- HOUR_CLOSE (R399): OP_SECONDS reaching a multiple of 3 600 closes every track's HOUR epoch. -/
  | hourClose
  /-- DAY_CLOSE (R399): OP_SECONDS reaching a multiple of 86 400 closes every track's DAY epoch. -/
  | dayClose
  /-- CIS_FLUSH (R400): CIS_CMD FLUSH copies every open accumulator into the MRAM checkpoint. -/
  | cisFlush (m : Master)
  /-- CIS_FLUSH_DONE (R400): A Cistern flush completes. -/
  | cisFlushDone
  /-- CIS_CLEAR (R408): CIS_CMD CLEAR with a valid proof logs and erases the chosen records. -/
  | cisClear (m : Master)
  /-- TRACK_ENABLE (R402): Enabling a track opens new HOUR and DAY epochs and continues or renews LIFE. -/
  | trackEnable (m : Master) (v : BitVec 32)
  /-- TRACK_DISABLE (R402): Clearing a track's EN closes its epochs as PARTIAL and flushes LIFE. -/
  | trackDisable (m : Master) (v : BitVec 32)
  /-- CIS_EXPORT (R406): A written record is copied into the export ring when it has credit. -/
  | cisExport
  /-- MONITOR_MEASURE (R412): An ageing monitor is measured on its schedule and judged against its limit.
  `v` is the quantity measured (for monitors 73 to 76 the temperature of the sensor in 0.1 °C), `refs` the three references of a trio. -/
  | monitorMeasure (k : Fin 77) (v : Int) (refs : List Int)
  /-- MPL_REPLAN (R416): MPL_CMD REPLAN evaluates every compute domain. -/
  | mplReplan (m : Master)
  /-- MPL_MEASURE_CAP (R418): MPL_CMD MEASURE_CAP starts a bulk capacitance measurement. -/
  | mplMeasureCap (m : Master)
  /-- CAP_MEASURE_DONE (R418): A capacitance measurement ends and PF_THRESH is recomputed. -/
  | capMeasureDone (c : BitVec 16)
  /-- GRADE_APPLY (R417): In a gap of at least 12 µs the wake controller applies a pending lower grade. -/
  | gradeApply (d : Fin 10)
  /-- GRADE_RETRY (R417): Each second without a gap the change is retried, and after 60 s BLOCKED is set. -/
  | gradeRetry (d : Fin 10)
  /-- LEARNING_END (R414): After 72 h of learning the learned baselines are written to MRAM. -/
  | learningEnd
  /-- RECALIBRATION (R419): At its interval a bank's analogue channels are recalibrated against the reference median. -/
  | recalibration (b : Fin 16) (med : Int)
  /-- PANEL_UPDATE_START (R425): The PNL starts an update when the image differs and holdoff and budget allow. -/
  | panelUpdateStart (temp : Int)
  /-- BAND_WAVEFORM_DONE (R426): The UNTRUSTED band waveform completes and the image waveform starts. -/
  | bandWaveformDone (temp : Int)
  /-- IMAGE_WAVEFORM_DONE (R426): The image waveform completes, the flag clears and IMG_CRC is set. -/
  | imageWaveformDone (temp : Int)
  /-- CLEARING_WAVEFORM_DONE (R426): A clearing waveform completes with the new image shown. -/
  | clearingWaveformDone (temp : Int)
  /-- BLINK_TOGGLE (R431): Every BLINK_S the PNL inverts the marker while a fault or NOW demand is shown. -/
  | blinkToggle
  /-- CRACK_CHECK (R433): Every 1 s the edge loop resistance is measured for CRACK or LOOP_LOST. -/
  | crackCheck (ohm : BitVec 16)
  /-- FRAME_CRC_CHECK (R434): The frame memory CRC is compared with IMG_CRC and a mismatch queues a cleanup. -/
  | frameCrcCheck (ok : Bool)
  /-- PNL_REFRESH (R435): PNL_CMD REFRESH queues a full update with a clearing waveform. -/
  | pnlRefresh (m : Master)
  /-- LAMP_TEST (R435): PNL_CMD LAMP_TEST lights every LED red then green for 1 s each. -/
  | lampTest (m : Master)
  /-- LAMP_TEST_DONE (R424): The lamp test ends and the LEDs return to their status indications. -/
  | lampTestDone
  /-- CHECKPOINT_AGE_LIMIT (R357): The standby's checkpoint age passes 100 ms, so it sets NR_AGE, stops being READY and DEGRADED is set. -/
  | checkpointAgeLimit
  /-- FULL_CHECKPOINT_END (R360): The Sluice sends FULL_END, which ends a full checkpoint, clears FULL_BUSY and records its duration and size. -/
  | fullCheckpointEnd
  /-- SER_TX_END (R326): At the end of the last stop bit a serial port releases its RS-485 driver stage, completes the transmit record and, as a Modbus master, starts RESP_TIMEOUT_MS. -/
  | serTxEnd (n : Fin 32)
  /-- SFP_MODULE_INSERTION (R453): An SFP+ transceiver is inserted into or removed from a SYN cage while powered, changing PORT_STAT.MOD_PRESENT and the link. -/
  | sfpModuleInsertion (k : Fin 2) (present : Bool) (sr : Bool)
deriving DecidableEq, Repr

end Sys2Proof
end

