-- ==== Sys2Proof/Decode.lean ====
section
/-! DEFINITION. The commands of this block are events and accesses, not encoded words: no row of the opcode table gives
bits. -/

namespace Sys2Proof

/-- The command that a word spells: none, since the table gives no row any bits. -/
def decodeTableWord (_nbits _w : Nat) : Option Instr := none

end Sys2Proof
end

