-- ==== Sys2Proof/Config.lean ====
section
/-! DEFINITION. What an implementation fixes and what the manual leaves open: uninterpreted constants without a body.
Each free value is applied to the state's counter of free values (or to the operands it depends on), so that no
statement can rest on a number. The assumption log names the entry of each. -/

namespace Sys2Proof.Config

/-- A value that the manual leaves open, fresh at every use: argument, the state's counter of free values. -/
opaque freeWord : Nat → BitVec 64

/-- Whether an ECDSA P-384 signature over the given bytes verifies against the keys in OTP (R61, R117, R390). The
algorithm is named by the manual and not given by it. -/
opaque ecdsaP384 : List (BitVec 8) → Bool

/-- The version in the header of a module image (R60); the manual gives no layout of that header. -/
opaque imageVersion : List (BitVec 8) → BitVec 32

/-- BOOT_CFG.SPLIT in the header of a module image (R60). -/
opaque imageSplit : List (BitVec 8) → BitVec 4

/-- Whether a quotient that the manual shows without giving its rounding is rounded up: numerator, denominator. -/
opaque roundUp : Nat → Nat → Bool

/-- The exponent of the scale to which Cascade aligns the products of a dot product (R158): of the column exponents eg. The
manual gives no scale for a scalar. -/
opaque casDotExp : List Int → Int

/-- The exponent of the scale to which Cascade aligns the terms of the weighted norm (R158, R172): of the exponents of its
terms. -/
opaque casNormExp : List Int → Int

/-- The result of a division by zero in Cascade (a zero diagonal element or factor mantissa): of the numerator. -/
opaque casDivZero : Int → Int

/-- An entry of a factor refreshed while J or W changed (R178): the counter of free values, the entry's index. -/
opaque casMixed : Nat → Nat → BitVec 16

/-- Whether member B is the preferred one of a station that a witness serves (R354): of the station number. No record and no
register tells a witness. -/
opaque witnessPrefB : Nat → Bool

/-- The factory baseline of a monitor of the margin planner, held in OTP (R414): by monitor. The manual gives no values. -/
opaque factoryBase : Nat → BitVec 32

/-- The efficiency, in 0.1 %, at which the rated load of a bank would draw more than 2.6 W (R412): by bank. The manual gives no
rated load. -/
opaque effLimit : Nat → BitVec 32

/-- The weight of an hour at a temperature other than 55 °C in a temperature exposure, in millionths (R412): of the temperature in
0.1 °C. The manual gives the activation energy of its Arrhenius factor and no constants. -/
opaque arrhenius : Int → Nat

/-- The CRC-32 of the pixels of a composed panel image (R426, R434): of the numbers the regions are composed from. The manual gives
no font and no layout. -/
opaque imageCrc : List Nat → BitVec 32

/-- FRAME_TIME_US under an NBT whose longest frame lasts more µs than the register holds (R337): of the bound in µs. -/
opaque frameTimeOver : Nat → BitVec 16

/-- What the line of an analogue channel shows at an elapsed time and no command reports (R233): bit 16 whether a HART carrier is
detected, bits [15:0] the voltage across the terminals of an input in mV. By channel and elapsed time. -/
opaque anLine : Nat → Nat → BitVec 17

/-- The value from which a retirement signature starts (R237). The manual gives none. -/
opaque sigInit : BitVec 32

end Sys2Proof.Config
end

