-- ==== Sys2Proof/Machine/Map.lean ====
section
/-! DEFINITION. Sparse maps: lists of (key, value) pairs in one canonical form (keys strictly rising, no entry
equal to what an unlisted key reads as), with their read, write and canonical-form check. -/

namespace Sys2Proof.Machine

/-- The value at key `k`; an unlisted key reads as `d k`. -/
def mapGet {α : Type} (d : Nat → α) : List (Nat × α) → Nat → α
  | [], k => d k
  | (a, v) :: t, k => if k = a then v else mapGet d t k

/-- The map with every entry of key `k` removed. -/
def mapDel {α : Type} (m : List (Nat × α)) (k : Nat) : List (Nat × α) :=
  m.filter (fun e => e.1 != k)

/-- The map with `(k, v)` put in front of the first entry of a larger key. -/
def mapIns {α : Type} (k : Nat) (v : α) : List (Nat × α) → List (Nat × α)
  | [] => [(k, v)]
  | (a, x) :: t => if k < a then (k, v) :: (a, x) :: t else (a, x) :: mapIns k v t

/-- The map with key `k` set to `v`; writing what an unlisted key reads as removes the entry. -/
def mapSet {α : Type} [DecidableEq α] (d : Nat → α) (m : List (Nat × α)) (k : Nat) (v : α) : List (Nat × α) :=
  if v = d k then mapDel m k else mapIns k v (mapDel m k)

/-- The canonical form: keys strictly rising, no entry at its default. -/
def mapWf {α : Type} [DecidableEq α] (d : Nat → α) : List (Nat × α) → Bool
  | [] => true
  | (a, v) :: t => decide (v ≠ d a) && t.all (fun e => decide (a < e.1)) && mapWf d t

/-- The map with `f` applied to every listed value; entries that come to their default are dropped. -/
def mapMap {α : Type} [DecidableEq α] (d : Nat → α) (f : Nat → α → α) : List (Nat × α) → List (Nat × α)
  | [] => []
  | (a, v) :: t => if f a v = d a then mapMap d f t else (a, f a v) :: mapMap d f t

end Sys2Proof.Machine
end

