-- ==== Sys2Proof/Machine/RegNames.lean ====
section
/-! DEFINITION. Register addresses: every field of every register page under its own name
(register and field joined by an underscore), with the page, the selected unit of a windowed
register, the offset and the bit range that the page tables of the manual give it. -/

namespace Sys2Proof.Machine

/-- The key of a register word in the register store: page (R32), selected unit (0 where the register
is not windowed) and page offset. -/
def rkey (page unit off : Nat) : Nat := (page * 4096 + unit) * 4096 + off

/-- A register field: the key of its word, its lowest bit and its width. -/
structure Fld where
  key : Nat
  lo : Nat
  w : Nat
deriving DecidableEq, Repr


-- HDR: R35
def HDR.PG_ID_TYPE (pg : Nat) : Fld := ⟨rkey pg 0 (0x000), 16, 16⟩
def HDR.PG_ID_INSTANCE (pg : Nat) : Fld := ⟨rkey pg 0 (0x000), 8, 8⟩
def HDR.PG_ID_LAYOUT (pg : Nat) : Fld := ⟨rkey pg 0 (0x000), 0, 8⟩
def HDR.PG_VER_MAJOR (pg : Nat) : Fld := ⟨rkey pg 0 (0x004), 24, 8⟩
def HDR.PG_VER_MINOR (pg : Nat) : Fld := ⟨rkey pg 0 (0x004), 16, 8⟩
def HDR.PG_VER_BUILD (pg : Nat) : Fld := ⟨rkey pg 0 (0x004), 0, 16⟩
def HDR.PG_PARAM_PARAM (pg : Nat) : Fld := ⟨rkey pg 0 (0x008), 0, 32⟩
def HDR.PG_CTRL_ENABLE (pg : Nat) : Fld := ⟨rkey pg 0 (0x00C), 0, 1⟩
def HDR.PG_CTRL_SOFT_RESET (pg : Nat) : Fld := ⟨rkey pg 0 (0x00C), 1, 1⟩
def HDR.PG_STAT_READY (pg : Nat) : Fld := ⟨rkey pg 0 (0x010), 0, 1⟩
def HDR.PG_STAT_BUSY (pg : Nat) : Fld := ⟨rkey pg 0 (0x010), 1, 1⟩
def HDR.PG_STAT_FAULT (pg : Nat) : Fld := ⟨rkey pg 0 (0x010), 2, 1⟩
def HDR.PG_STAT_ABORTED (pg : Nat) : Fld := ⟨rkey pg 0 (0x010), 3, 1⟩
def HDR.PG_STAT_WRITE_LOST (pg : Nat) : Fld := ⟨rkey pg 0 (0x010), 4, 1⟩
def HDR.PG_STAT_ACCESS_ERR (pg : Nat) : Fld := ⟨rkey pg 0 (0x010), 5, 1⟩
def HDR.PG_STAT_GUARD_ERR (pg : Nat) : Fld := ⟨rkey pg 0 (0x010), 6, 1⟩
def HDR.PG_STAT_BLK_STAT (pg : Nat) : Fld := ⟨rkey pg 0 (0x010), 16, 16⟩
def HDR.PG_ABORT_ABORT (pg : Nat) : Fld := ⟨rkey pg 0 (0x014), 0, 32⟩
def HDR.PG_ABORT_STAT_IN_PROGRESS (pg : Nat) : Fld := ⟨rkey pg 0 (0x018), 31, 1⟩
def HDR.PG_ABORT_STAT_OVER_BOUND (pg : Nat) : Fld := ⟨rkey pg 0 (0x018), 30, 1⟩
def HDR.PG_ABORT_STAT_REASON (pg : Nat) : Fld := ⟨rkey pg 0 (0x018), 16, 8⟩
def HDR.PG_ABORT_STAT_DURATION (pg : Nat) : Fld := ⟨rkey pg 0 (0x018), 0, 16⟩
def HDR.PG_IRQ_EN_EN (pg : Nat) : Fld := ⟨rkey pg 0 (0x01C), 0, 32⟩
def HDR.PG_IRQ_STAT_HDR (pg : Nat) : Fld := ⟨rkey pg 0 (0x020), 3, 4⟩
def HDR.PG_IRQ_STAT_BLK (pg : Nat) : Fld := ⟨rkey pg 0 (0x020), 16, 16⟩
def HDR.PG_ERR_ADDR_OFFSET (pg : Nat) : Fld := ⟨rkey pg 0 (0x024), 0, 12⟩
def HDR.PG_ERR_ADDR_CAUSE (pg : Nat) : Fld := ⟨rkey pg 0 (0x024), 12, 4⟩
def HDR.PG_ERR_ADDR_MASTER (pg : Nat) : Fld := ⟨rkey pg 0 (0x024), 16, 5⟩
def HDR.PG_ERR_CNT_LOST (pg : Nat) : Fld := ⟨rkey pg 0 (0x028), 24, 8⟩
def HDR.PG_ERR_CNT_ACCESS (pg : Nat) : Fld := ⟨rkey pg 0 (0x028), 16, 8⟩
def HDR.PG_ERR_CNT_GUARD (pg : Nat) : Fld := ⟨rkey pg 0 (0x028), 8, 8⟩

-- SYS: R60
def SYS.SERIAL_LO : Fld := ⟨rkey 0x00 0 (0x040), 0, 32⟩
def SYS.SERIAL_HI : Fld := ⟨rkey 0x00 0 (0x044), 0, 32⟩
def SYS.MODULE_STATE_STATE : Fld := ⟨rkey 0x00 0 (0x048), 0, 3⟩
def SYS.MODULE_STATE_SAFETY_UNCOMMISSIONED : Fld := ⟨rkey 0x00 0 (0x048), 8, 1⟩
def SYS.MODULE_STATE_FEAT_COMMITTED : Fld := ⟨rkey 0x00 0 (0x048), 9, 1⟩
def SYS.MODULE_STATE_MAND_MISSING : Fld := ⟨rkey 0x00 0 (0x048), 10, 1⟩
def SYS.STATE_CAUSE_CAUSE : Fld := ⟨rkey 0x00 0 (0x04C), 0, 8⟩
def SYS.BOOT_CFG_IMAGE : Fld := ⟨rkey 0x00 0 (0x050), 0, 1⟩
def SYS.BOOT_CFG_FALLBACK : Fld := ⟨rkey 0x00 0 (0x050), 1, 1⟩
def SYS.BOOT_CFG_SPLIT : Fld := ⟨rkey 0x00 0 (0x050), 4, 4⟩
def SYS.SEAL_SW_SAFETY_ADDR : Fld := ⟨rkey 0x00 0 (0x054), 0, 8⟩
def SYS.SEAL_SW_MODE : Fld := ⟨rkey 0x00 0 (0x054), 8, 2⟩
def SYS.REQ_STAT_HANDOVER_PENDING : Fld := ⟨rkey 0x00 0 (0x058), 0, 1⟩
def SYS.REQ_STAT_RESTART_FAILED : Fld := ⟨rkey 0x00 0 (0x058), 1, 1⟩
def SYS.SIGIMG_ERR_CNT_COUNT : Fld := ⟨rkey 0x00 0 (0x060), 0, 16⟩
def SYS.SIGIMG_ERR_SLOT_SLOT : Fld := ⟨rkey 0x00 0 (0x064), 0, 13⟩
def SYS.SIGIMG_ERR_SLOT_SRC_ID : Fld := ⟨rkey 0x00 0 (0x064), 16, 8⟩
def SYS.SIGIMG_ERR_SLOT_SRC_CLASS : Fld := ⟨rkey 0x00 0 (0x064), 24, 3⟩
def SYS.DEV_FEAT (i : Nat) : Fld := ⟨rkey 0x00 0 (0x070 + 4*i), 0, 32⟩
def SYS.FEAT_MAND (i : Nat) : Fld := ⟨rkey 0x00 0 (0x090 + 4*i), 0, 32⟩
def SYS.DRV_FEAT (i : Nat) : Fld := ⟨rkey 0x00 0 (0x0B0 + 4*i), 0, 32⟩
def SYS.FEAT_ACTIVE (i : Nat) : Fld := ⟨rkey 0x00 0 (0x0D0 + 4*i), 0, 32⟩
def SYS.IMG_STAT_A : Fld := ⟨rkey 0x00 0 (0x100), 0, 2⟩
def SYS.IMG_STAT_B : Fld := ⟨rkey 0x00 0 (0x100), 2, 2⟩
def SYS.IMG_STAT_UPD_BUSY : Fld := ⟨rkey 0x00 0 (0x100), 4, 1⟩
def SYS.IMG_STAT_UPD_FAIL : Fld := ⟨rkey 0x00 0 (0x100), 5, 1⟩
def SYS.IMG_A_VER : Fld := ⟨rkey 0x00 0 (0x104), 0, 32⟩
def SYS.IMG_B_VER : Fld := ⟨rkey 0x00 0 (0x108), 0, 32⟩
def SYS.IMG_UPD_SRC : Fld := ⟨rkey 0x00 0 (0x110), 0, 32⟩
def SYS.IMG_UPD_LEN : Fld := ⟨rkey 0x00 0 (0x114), 0, 32⟩
def SYS.FEAT_COMMIT : Fld := ⟨rkey 0x00 0 (0x400), 0, 32⟩
def SYS.STATE_REQ : Fld := ⟨rkey 0x00 0 (0x404), 0, 32⟩
def SYS.IMG_UPD_START : Fld := ⟨rkey 0x00 0 (0x408), 0, 32⟩
def SYS.BOOT_SELECT_IMAGE : Fld := ⟨rkey 0x00 0 (0x40C), 0, 1⟩

-- CLO: R82
def CLO.REF_STAT_TCXO_OK : Fld := ⟨rkey 0x01 0 (0x040), 0, 1⟩
def CLO.REF_STAT_XTAL_OK : Fld := ⟨rkey 0x01 0 (0x040), 1, 1⟩
def CLO.REF_STAT_TCXO_DEV : Fld := ⟨rkey 0x01 0 (0x040), 2, 1⟩
def CLO.OP_SECONDS : Fld := ⟨rkey 0x01 0 (0x044), 0, 32⟩
def CLO.POWER_CYCLES : Fld := ⟨rkey 0x01 0 (0x048), 0, 32⟩
def CLO.WAKE_HOLD : Fld := ⟨rkey 0x01 0 (0x04C), 0, 11⟩
def CLO.AWAKE : Fld := ⟨rkey 0x01 0 (0x050), 0, 11⟩
def CLO.LOCKED : Fld := ⟨rkey 0x01 0 (0x054), 0, 11⟩
def CLO.FCLK_FAULT : Fld := ⟨rkey 0x01 0 (0x058), 0, 11⟩
def CLO.BUTTON_PRESSED : Fld := ⟨rkey 0x01 0 (0x060), 0, 1⟩
def CLO.BUTTON_STUCK : Fld := ⟨rkey 0x01 0 (0x060), 1, 1⟩
def CLO.BUTTON_PRESS_MS : Fld := ⟨rkey 0x01 0 (0x060), 16, 16⟩
def CLO.DOM_STAT_AWAKE (d : Nat) : Fld := ⟨rkey 0x01 0 (0x800 + 8*d), 0, 1⟩
def CLO.DOM_STAT_LOCKED (d : Nat) : Fld := ⟨rkey 0x01 0 (0x800 + 8*d), 1, 1⟩
def CLO.DOM_STAT_BIAS (d : Nat) : Fld := ⟨rkey 0x01 0 (0x800 + 8*d), 2, 1⟩
def CLO.DOM_STAT_FAULT (d : Nat) : Fld := ⟨rkey 0x01 0 (0x800 + 8*d), 3, 1⟩
def CLO.DOM_STAT_GRADE (d : Nat) : Fld := ⟨rkey 0x01 0 (0x800 + 8*d), 4, 4⟩
def CLO.DOM_STAT_FREQ_MHZ (d : Nat) : Fld := ⟨rkey 0x01 0 (0x800 + 8*d), 16, 16⟩
def CLO.DOM_CNT_LATE_LOCK (d : Nat) : Fld := ⟨rkey 0x01 0 (0x804 + 8*d), 0, 8⟩
def CLO.DOM_CNT_DEVIATION (d : Nat) : Fld := ⟨rkey 0x01 0 (0x804 + 8*d), 8, 8⟩

-- TKU: R83
def TKU.TIME_LO : Fld := ⟨rkey 0x04 0 (0x040), 0, 32⟩
def TKU.TIME_HI : Fld := ⟨rkey 0x04 0 (0x044), 0, 32⟩
def TKU.TIME_FRAC : Fld := ⟨rkey 0x04 0 (0x048), 0, 32⟩
def TKU.ADDEND_FRAC : Fld := ⟨rkey 0x04 0 (0x050), 0, 32⟩
def TKU.ADDEND_INT : Fld := ⟨rkey 0x04 0 (0x054), 0, 8⟩
def TKU.SERVO_CTRL_SERVO_EN : Fld := ⟨rkey 0x04 0 (0x058), 0, 1⟩
def TKU.SERVO_CTRL_HOLD_I : Fld := ⟨rkey 0x04 0 (0x058), 1, 1⟩
def TKU.SERVO_CTRL_INTEG_CLR : Fld := ⟨rkey 0x04 0 (0x058), 2, 1⟩
def TKU.SERVO_GAIN_KP : Fld := ⟨rkey 0x04 0 (0x05C), 0, 16⟩
def TKU.SERVO_GAIN_KI : Fld := ⟨rkey 0x04 0 (0x05C), 16, 16⟩
def TKU.SERVO_OFFSET_LO : Fld := ⟨rkey 0x04 0 (0x060), 0, 32⟩
def TKU.SERVO_OFFSET_HI : Fld := ⟨rkey 0x04 0 (0x064), 0, 32⟩
def TKU.SERVO_INTERVAL_LOG_INTERVAL : Fld := ⟨rkey 0x04 0 (0x068), 0, 8⟩
def TKU.STEP_THRESH : Fld := ⟨rkey 0x04 0 (0x06C), 0, 32⟩
def TKU.SYNC_BAND : Fld := ⟨rkey 0x04 0 (0x070), 0, 32⟩
def TKU.HOLDOVER_TIME : Fld := ⟨rkey 0x04 0 (0x074), 0, 16⟩
def TKU.SYNC_STAT_TIME_VALID : Fld := ⟨rkey 0x04 0 (0x078), 0, 1⟩
def TKU.SYNC_STAT_IN_BAND : Fld := ⟨rkey 0x04 0 (0x078), 1, 1⟩
def TKU.SYNC_STAT_HOLDOVER : Fld := ⟨rkey 0x04 0 (0x078), 2, 1⟩
def TKU.SYNC_STAT_SLEW_CLAMP : Fld := ⟨rkey 0x04 0 (0x078), 3, 1⟩
def TKU.SYNC_STAT_STEP_PENDING : Fld := ⟨rkey 0x04 0 (0x078), 4, 1⟩
def TKU.SYNC_STAT_TS_COARSE : Fld := ⟨rkey 0x04 0 (0x078), 5, 1⟩
def TKU.SYNC_STAT_STEP_DENIED : Fld := ⟨rkey 0x04 0 (0x078), 6, 1⟩
def TKU.FREQ_ADJ : Fld := ⟨rkey 0x04 0 (0x07C), 0, 32⟩
def TKU.OFFSET_LAST_LO : Fld := ⟨rkey 0x04 0 (0x080), 0, 32⟩
def TKU.OFFSET_LAST_HI : Fld := ⟨rkey 0x04 0 (0x084), 0, 32⟩
def TKU.INTEG : Fld := ⟨rkey 0x04 0 (0x088), 0, 32⟩
def TKU.STEP_LAST_LO : Fld := ⟨rkey 0x04 0 (0x090), 0, 32⟩
def TKU.STEP_LAST_HI : Fld := ⟨rkey 0x04 0 (0x094), 0, 32⟩
def TKU.STEP_AT_LO : Fld := ⟨rkey 0x04 0 (0x098), 0, 32⟩
def TKU.STEP_AT_HI : Fld := ⟨rkey 0x04 0 (0x09C), 0, 32⟩
def TKU.STEP_SEQ : Fld := ⟨rkey 0x04 0 (0x0A0), 0, 16⟩
def TKU.STEP_DENIED_CNT : Fld := ⟨rkey 0x04 0 (0x0A4), 0, 16⟩
def TKU.UTC_OFFSET : Fld := ⟨rkey 0x04 0 (0x0A8), 0, 16⟩
def TKU.TICK_PHASE : Fld := ⟨rkey 0x04 0 (0x0AC), 0, 18⟩
def TKU.STEP_PERMIT : Fld := ⟨rkey 0x04 0 (0x400), 0, 1⟩

-- LSQ: R122
def LSQ.SEQ_STAT_SCHED_RUN (q : Nat) : Fld := ⟨rkey (0x14+q) 0 (0x040), 0, 1⟩
def LSQ.SEQ_STAT_PAIR_SPLIT (q : Nat) : Fld := ⟨rkey (0x14+q) 0 (0x040), 1, 1⟩
def LSQ.SEQ_STAT_ACT_BANK (q : Nat) : Fld := ⟨rkey (0x14+q) 0 (0x040), 2, 1⟩
def LSQ.SEQ_STAT_ACT_PENDING (q : Nat) : Fld := ⟨rkey (0x14+q) 0 (0x040), 3, 1⟩
def LSQ.SEQ_STAT_RUNNING (q : Nat) : Fld := ⟨rkey (0x14+q) 0 (0x040), 8, 4⟩
def LSQ.UTIL_UTIL (q : Nat) : Fld := ⟨rkey (0x14+q) 0 (0x044), 0, 16⟩
def LSQ.UTIL_LIMIT (q : Nat) : Fld := ⟨rkey (0x14+q) 0 (0x044), 16, 16⟩
def LSQ.TASK_SEL_TASK (q : Nat) : Fld := ⟨rkey (0x14+q) 0 (0x048), 0, 4⟩
def LSQ.TASK_CFG_CYCLE_MS (q t : Nat) : Fld := ⟨rkey (0x14+q) t (0x04C), 0, 14⟩
def LSQ.TASK_CFG_PRESENT (q t : Nat) : Fld := ⟨rkey (0x14+q) t (0x04C), 15, 1⟩
def LSQ.TASK_CFG_PRIORITY (q t : Nat) : Fld := ⟨rkey (0x14+q) t (0x04C), 16, 3⟩
def LSQ.TASK_CFG_SAFETY (q t : Nat) : Fld := ⟨rkey (0x14+q) t (0x04C), 19, 1⟩
def LSQ.TASK_PHASE (q t : Nat) : Fld := ⟨rkey (0x14+q) t (0x050), 0, 17⟩
def LSQ.TASK_WCET (q t : Nat) : Fld := ⟨rkey (0x14+q) t (0x054), 0, 32⟩
def LSQ.TASK_STAT_STATE (q t : Nat) : Fld := ⟨rkey (0x14+q) t (0x058), 0, 3⟩
def LSQ.TASK_STAT_OVERRAN_LAST (q t : Nat) : Fld := ⟨rkey (0x14+q) t (0x058), 3, 1⟩
def LSQ.TASK_STAT_FAULT_CAUSE (q t : Nat) : Fld := ⟨rkey (0x14+q) t (0x058), 8, 4⟩
def LSQ.TASK_CYCLES (q t : Nat) : Fld := ⟨rkey (0x14+q) t (0x05C), 0, 32⟩
def LSQ.TASK_ERR_OVERRUN_CNT (q t : Nat) : Fld := ⟨rkey (0x14+q) t (0x060), 0, 8⟩
def LSQ.TASK_ERR_CAL_FAIL_CNT (q t : Nat) : Fld := ⟨rkey (0x14+q) t (0x060), 8, 8⟩
def LSQ.TASK_ERR_FAULT_CNT (q t : Nat) : Fld := ⟨rkey (0x14+q) t (0x060), 16, 8⟩
def LSQ.TASK_EXEC_LAST_US (q t : Nat) : Fld := ⟨rkey (0x14+q) t (0x064), 0, 16⟩
def LSQ.TASK_EXEC_MAX_US (q t : Nat) : Fld := ⟨rkey (0x14+q) t (0x064), 16, 16⟩
def LSQ.TASK_POST_LO (q t : Nat) : Fld := ⟨rkey (0x14+q) t (0x068), 0, 32⟩
def LSQ.TASK_POST_HI (q t : Nat) : Fld := ⟨rkey (0x14+q) t (0x06C), 0, 32⟩
def LSQ.ERR_CAUSE_STN_LOST (q : Nat) : Fld := ⟨rkey (0x14+q) 0 (0x070), 0, 1⟩
def LSQ.ERR_CAUSE_STN_BACK (q : Nat) : Fld := ⟨rkey (0x14+q) 0 (0x070), 1, 1⟩
def LSQ.ERR_CAUSE_OVERRUN (q : Nat) : Fld := ⟨rkey (0x14+q) 0 (0x070), 2, 1⟩
def LSQ.ERR_CAUSE_CAL_FAIL (q : Nat) : Fld := ⟨rkey (0x14+q) 0 (0x070), 3, 1⟩
def LSQ.ERR_CAUSE_TASK_FAULT (q : Nat) : Fld := ⟨rkey (0x14+q) 0 (0x070), 4, 1⟩
def LSQ.ERR_CAUSE_FORCE_CANCEL (q : Nat) : Fld := ⟨rkey (0x14+q) 0 (0x070), 5, 1⟩
def LSQ.ERR_CAUSE_TAKEOVER (q : Nat) : Fld := ⟨rkey (0x14+q) 0 (0x070), 6, 1⟩
def LSQ.ERR_CAUSE_TASK (q : Nat) : Fld := ⟨rkey (0x14+q) 0 (0x070), 8, 4⟩
def LSQ.ERR_CAUSE_STATION (q : Nat) : Fld := ⟨rkey (0x14+q) 0 (0x070), 16, 6⟩
def LSQ.PROG_SRC (q : Nat) : Fld := ⟨rkey (0x14+q) 0 (0x080), 0, 32⟩
def LSQ.PROG_LEN (q : Nat) : Fld := ⟨rkey (0x14+q) 0 (0x084), 0, 32⟩
def LSQ.PROG_STAT_INACTIVE (q : Nat) : Fld := ⟨rkey (0x14+q) 0 (0x088), 0, 2⟩
def LSQ.PROG_STAT_LOAD_ERR (q : Nat) : Fld := ⟨rkey (0x14+q) 0 (0x088), 4, 4⟩
def LSQ.PROG_STAT_ACT_RESULT (q : Nat) : Fld := ⟨rkey (0x14+q) 0 (0x088), 8, 4⟩
def LSQ.PROG_ID_ACTIVE (q : Nat) : Fld := ⟨rkey (0x14+q) 0 (0x08C), 0, 32⟩
def LSQ.PROG_ID_INACTIVE (q : Nat) : Fld := ⟨rkey (0x14+q) 0 (0x090), 0, 32⟩
def LSQ.ACT_TIME_LO (q : Nat) : Fld := ⟨rkey (0x14+q) 0 (0x094), 0, 32⟩
def LSQ.ACT_TIME_HI (q : Nat) : Fld := ⟨rkey (0x14+q) 0 (0x098), 0, 32⟩
def LSQ.OBJ_SEL_INDEX (q : Nat) : Fld := ⟨rkey (0x14+q) 0 (0x0A0), 0, 13⟩
def LSQ.OBJ_SEL_CLASS (q : Nat) : Fld := ⟨rkey (0x14+q) 0 (0x0A0), 16, 2⟩
def LSQ.OBJ_W0 (q : Nat) : Fld := ⟨rkey (0x14+q) 0 (0x0A4), 0, 32⟩
def LSQ.OBJ_W1 (q : Nat) : Fld := ⟨rkey (0x14+q) 0 (0x0A8), 0, 32⟩
def LSQ.OBJ_W2_LO (q : Nat) : Fld := ⟨rkey (0x14+q) 0 (0x0AC), 0, 32⟩
def LSQ.OBJ_W2_HI (q : Nat) : Fld := ⟨rkey (0x14+q) 0 (0x0B0), 0, 32⟩
def LSQ.SUBST_SEL_STATION (q : Nat) : Fld := ⟨rkey (0x14+q) 0 (0x0C0), 0, 4⟩
def LSQ.SUBST_SEL_OFFSET (q : Nat) : Fld := ⟨rkey (0x14+q) 0 (0x0C0), 8, 8⟩
def LSQ.SUBST_VAL (q u : Nat) : Fld := ⟨rkey (0x14+q) u (0x0C4), 0, 32⟩
def LSQ.FORCE_SEL (q : Nat) : Fld := ⟨rkey (0x14+q) 0 (0x100), 0, 8⟩
def LSQ.FORCE_TGT_TARGET (q f : Nat) : Fld := ⟨rkey (0x14+q) f (0x104), 0, 13⟩
def LSQ.FORCE_TGT_KIND (q f : Nat) : Fld := ⟨rkey (0x14+q) f (0x104), 16, 1⟩
def LSQ.FORCE_VAL (q f : Nat) : Fld := ⟨rkey (0x14+q) f (0x108), 0, 32⟩
def LSQ.FORCE_STAT_ACTIVE (q f : Nat) : Fld := ⟨rkey (0x14+q) f (0x10C), 0, 1⟩
def LSQ.FORCE_STAT_CANCELLED (q f : Nat) : Fld := ⟨rkey (0x14+q) f (0x10C), 1, 1⟩
def LSQ.FORCE_STAT_REFUSED (q f : Nat) : Fld := ⟨rkey (0x14+q) f (0x10C), 2, 1⟩
def LSQ.FORCE_SUM_COUNT (q : Nat) : Fld := ⟨rkey (0x14+q) 0 (0x110), 0, 9⟩
def LSQ.FORCE_AUTH_OPEN (q : Nat) : Fld := ⟨rkey (0x14+q) 0 (0x114), 0, 1⟩
def LSQ.FORCE_AUTH_REMAINING_S (q : Nat) : Fld := ⟨rkey (0x14+q) 0 (0x114), 16, 16⟩
def LSQ.FORCE_CANCEL_CNT (q : Nat) : Fld := ⟨rkey (0x14+q) 0 (0x118), 0, 16⟩
def LSQ.FORCE_CHAL (q i : Nat) : Fld := ⟨rkey (0x14+q) 0 (0x120 + 4*i), 0, 32⟩
def LSQ.FORCE_RESP (q i : Nat) : Fld := ⟨rkey (0x14+q) 0 (0x140 + 4*i), 0, 32⟩
def LSQ.PROG_LOAD (q : Nat) : Fld := ⟨rkey (0x14+q) 0 (0x400), 0, 32⟩
def LSQ.ACTIVATE (q : Nat) : Fld := ⟨rkey (0x14+q) 0 (0x404), 0, 32⟩
def LSQ.TASK_RESUME (q : Nat) : Fld := ⟨rkey (0x14+q) 0 (0x408), 0, 8⟩
def LSQ.FORCE_CMD (q : Nat) : Fld := ⟨rkey (0x14+q) 0 (0x410), 0, 32⟩
def LSQ.FORCE_AUTH_SUBMIT (q : Nat) : Fld := ⟨rkey (0x14+q) 0 (0x414), 0, 32⟩
def LSQ.STN_CFG_EN (q s : Nat) : Fld := ⟨rkey (0x14+q) 0 (0x800 + 32*s), 0, 1⟩
def LSQ.STN_CFG_PORT (q s : Nat) : Fld := ⟨rkey (0x14+q) 0 (0x800 + 32*s), 1, 3⟩
def LSQ.STN_CFG_PRP (q s : Nat) : Fld := ⟨rkey (0x14+q) 0 (0x800 + 32*s), 4, 1⟩
def LSQ.STN_CFG_INTERVAL_MS (q s : Nat) : Fld := ⟨rkey (0x14+q) 0 (0x800 + 32*s), 16, 10⟩
def LSQ.STN_ADDR (q s : Nat) : Fld := ⟨rkey (0x14+q) 0 (0x804 + 32*s), 0, 32⟩
def LSQ.STN_IN_BASE (q s : Nat) : Fld := ⟨rkey (0x14+q) 0 (0x808 + 32*s), 0, 13⟩
def LSQ.STN_IN_COUNT (q s : Nat) : Fld := ⟨rkey (0x14+q) 0 (0x808 + 32*s), 16, 9⟩
def LSQ.STN_OUT_BASE (q s : Nat) : Fld := ⟨rkey (0x14+q) 0 (0x80C + 32*s), 0, 13⟩
def LSQ.STN_OUT_COUNT (q s : Nat) : Fld := ⟨rkey (0x14+q) 0 (0x80C + 32*s), 16, 9⟩
def LSQ.STN_TIMING_LOSS_MS (q s : Nat) : Fld := ⟨rkey (0x14+q) 0 (0x810 + 32*s), 0, 16⟩
def LSQ.STN_TIMING_REJOIN (q s : Nat) : Fld := ⟨rkey (0x14+q) 0 (0x810 + 32*s), 16, 8⟩
def LSQ.STN_TIMING_SUBST_MODE (q s : Nat) : Fld := ⟨rkey (0x14+q) 0 (0x810 + 32*s), 24, 2⟩
def LSQ.STN_STAT_STATE (q s : Nat) : Fld := ⟨rkey (0x14+q) 0 (0x814 + 32*s), 0, 2⟩
def LSQ.STN_STAT_MISSES (q s : Nat) : Fld := ⟨rkey (0x14+q) 0 (0x814 + 32*s), 8, 8⟩
def LSQ.STN_STAT_LAST_AGE (q s : Nat) : Fld := ⟨rkey (0x14+q) 0 (0x814 + 32*s), 16, 16⟩
def LSQ.STN_CNT_LATE_CNT (q s : Nat) : Fld := ⟨rkey (0x14+q) 0 (0x818 + 32*s), 0, 16⟩
def LSQ.STN_CNT_LOST_CNT (q s : Nat) : Fld := ⟨rkey (0x14+q) 0 (0x818 + 32*s), 16, 16⟩
def LSQ.STN_SEQ (q s : Nat) : Fld := ⟨rkey (0x14+q) 0 (0x81C + 32*s), 0, 32⟩

-- LPE: R153
def LPE.CAP_LANES : Fld := ⟨rkey 0x18 0 (0x040), 0, 8⟩
def LPE.CAP_FREQ_MHZ : Fld := ⟨rkey 0x18 0 (0x040), 16, 16⟩
def LPE.RATE_DEMAND : Fld := ⟨rkey 0x18 0 (0x044), 0, 32⟩
def LPE.RATE_LIMIT : Fld := ⟨rkey 0x18 0 (0x048), 0, 32⟩
def LPE.DENS_DEMAND : Fld := ⟨rkey 0x18 0 (0x04C), 0, 32⟩
def LPE.DENS_LIMIT : Fld := ⟨rkey 0x18 0 (0x050), 0, 32⟩
def LPE.ADM_STAT_ADMITTED : Fld := ⟨rkey 0x18 0 (0x054), 0, 8⟩
def LPE.ADM_STAT_LAST_REASON : Fld := ⟨rkey 0x18 0 (0x054), 8, 3⟩
def LPE.ADM_STAT_LAST_CTX : Fld := ⟨rkey 0x18 0 (0x054), 16, 7⟩
def LPE.ADM_REFUSED_CNT : Fld := ⟨rkey 0x18 0 (0x058), 0, 8⟩
def LPE.QUERY_FREQ_MHZ : Fld := ⟨rkey 0x18 0 (0x05C), 0, 16⟩
def LPE.QUERY_DONE : Fld := ⟨rkey 0x18 0 (0x05C), 16, 1⟩
def LPE.QUERY_FITS : Fld := ⟨rkey 0x18 0 (0x05C), 17, 1⟩
def LPE.QUERY_RATE_OK : Fld := ⟨rkey 0x18 0 (0x05C), 18, 1⟩
def LPE.QUERY_DENS_OK : Fld := ⟨rkey 0x18 0 (0x05C), 19, 1⟩
def LPE.STATE_SUM0_OPEN : Fld := ⟨rkey 0x18 0 (0x060), 0, 8⟩
def LPE.STATE_SUM0_PRIMING : Fld := ⟨rkey 0x18 0 (0x060), 8, 8⟩
def LPE.STATE_SUM0_CLOSED : Fld := ⟨rkey 0x18 0 (0x060), 16, 8⟩
def LPE.STATE_SUM0_COASTING : Fld := ⟨rkey 0x18 0 (0x060), 24, 8⟩
def LPE.STATE_SUM1_FALLBACK : Fld := ⟨rkey 0x18 0 (0x064), 0, 8⟩
def LPE.LOAD_LAST : Fld := ⟨rkey 0x18 0 (0x068), 0, 16⟩
def LPE.LOAD_MAX : Fld := ⟨rkey 0x18 0 (0x068), 16, 16⟩
def LPE.EVT_TOTAL_OVERRUN_TOTAL : Fld := ⟨rkey 0x18 0 (0x06C), 0, 16⟩
def LPE.EVT_TOTAL_BREACH_TOTAL : Fld := ⟨rkey 0x18 0 (0x06C), 16, 16⟩
def LPE.COEF_LOCK_TOTAL : Fld := ⟨rkey 0x18 0 (0x070), 0, 16⟩
def LPE.COEF_ERR_OFFSET : Fld := ⟨rkey 0x18 0 (0x074), 0, 22⟩
def LPE.CTX_SUM_STATE (c : Nat) : Fld := ⟨rkey 0x18 0 (0x800 + 4*c), 0, 3⟩
def LPE.CTX_SUM_EN (c : Nat) : Fld := ⟨rkey 0x18 0 (0x800 + 4*c), 3, 1⟩
def LPE.CTX_SUM_LAST_CAUSE (c : Nat) : Fld := ⟨rkey 0x18 0 (0x800 + 4*c), 4, 4⟩

-- CTX: R154
def CTX.CTX_SEL : Fld := ⟨rkey 0x19 0 (0x040), 0, 7⟩
def CTX.CTX_CFG_EN (c : Nat) : Fld := ⟨rkey 0x19 c (0x044), 0, 1⟩
def CTX.CTX_CFG_FB_ACT (c : Nat) : Fld := ⟨rkey 0x19 c (0x044), 1, 2⟩
def CTX.CTX_CFG_OPEN_ACT (c : Nat) : Fld := ⟨rkey 0x19 c (0x044), 3, 1⟩
def CTX.CTX_CFG_INIT_SRC (c : Nat) : Fld := ⟨rkey 0x19 c (0x044), 4, 2⟩
def CTX.CTX_CFG_BREACH_FB (c : Nat) : Fld := ⟨rkey 0x19 c (0x044), 6, 1⟩
def CTX.CTX_DIM_N_STATES (c : Nat) : Fld := ⟨rkey 0x19 c (0x048), 0, 6⟩
def CTX.CTX_DIM_N_MEAS (c : Nat) : Fld := ⟨rkey 0x19 c (0x048), 8, 5⟩
def CTX.CTX_DIM_N_OUT (c : Nat) : Fld := ⟨rkey 0x19 c (0x048), 16, 5⟩
def CTX.CTX_DIM_N_REF (c : Nat) : Fld := ⟨rkey 0x19 c (0x048), 24, 5⟩
def CTX.CTX_PERIOD_PERIOD (c : Nat) : Fld := ⟨rkey 0x19 c (0x04C), 0, 14⟩
def CTX.CTX_PERIOD_PHASE (c : Nat) : Fld := ⟨rkey 0x19 c (0x04C), 16, 14⟩
def CTX.CTX_TIMING_COAST_TIME (c : Nat) : Fld := ⟨rkey 0x19 c (0x050), 0, 16⟩
def CTX.CTX_TIMING_RECOVER_N (c : Nat) : Fld := ⟨rkey 0x19 c (0x050), 16, 8⟩
def CTX.CTX_TIMING_INNOV_N (c : Nat) : Fld := ⟨rkey 0x19 c (0x050), 24, 4⟩
def CTX.CTX_PRIME_PRIME_MAX (c : Nat) : Fld := ⟨rkey 0x19 c (0x054), 0, 16⟩
def CTX.CTX_PRIME_PRIME_MIN (c : Nat) : Fld := ⟨rkey 0x19 c (0x054), 16, 8⟩
def CTX.CTX_AGE_AGE_MAX (c : Nat) : Fld := ⟨rkey 0x19 c (0x058), 0, 16⟩
def CTX.CTX_X0_X0_SLOT (c : Nat) : Fld := ⟨rkey 0x19 c (0x05C), 0, 13⟩
def CTX.CTX_MODE_STATE (c : Nat) : Fld := ⟨rkey 0x19 c (0x060), 0, 3⟩
def CTX.CTX_MODE_CMD_PENDING (c : Nat) : Fld := ⟨rkey 0x19 c (0x060), 3, 1⟩
def CTX.CTX_MODE_LAST_CAUSE (c : Nat) : Fld := ⟨rkey 0x19 c (0x060), 4, 4⟩
def CTX.CTX_MODE_REF_HELD (c : Nat) : Fld := ⟨rkey 0x19 c (0x060), 8, 1⟩
def CTX.CTX_MODE_RB_INVALID (c : Nat) : Fld := ⟨rkey 0x19 c (0x060), 9, 1⟩
def CTX.CTX_MODE_X0_MISSING (c : Nat) : Fld := ⟨rkey 0x19 c (0x060), 10, 1⟩
def CTX.CTX_MODE_FB_DONE (c : Nat) : Fld := ⟨rkey 0x19 c (0x060), 11, 1⟩
def CTX.CTX_MODE_OVR_CONSEC (c : Nat) : Fld := ⟨rkey 0x19 c (0x060), 16, 2⟩
def CTX.CTX_MEAS_STAT_INVALID (c : Nat) : Fld := ⟨rkey 0x19 c (0x064), 0, 16⟩
def CTX.CTX_MEAS_STAT_FROZEN (c : Nat) : Fld := ⟨rkey 0x19 c (0x064), 16, 16⟩
def CTX.CTX_INNOV_STAT_OVER_BOUND (c : Nat) : Fld := ⟨rkey 0x19 c (0x068), 0, 16⟩
def CTX.CTX_CNT0_OVERRUN_CNT (c : Nat) : Fld := ⟨rkey 0x19 c (0x06C), 0, 8⟩
def CTX.CTX_CNT0_STATE_SAT_CNT (c : Nat) : Fld := ⟨rkey 0x19 c (0x06C), 8, 8⟩
def CTX.CTX_CNT0_INNOV_SAT_CNT (c : Nat) : Fld := ⟨rkey 0x19 c (0x06C), 16, 8⟩
def CTX.CTX_CNT0_CTRL_SAT_CNT (c : Nat) : Fld := ⟨rkey 0x19 c (0x06C), 24, 8⟩
def CTX.CTX_CNT1_LIMIT_CNT (c : Nat) : Fld := ⟨rkey 0x19 c (0x070), 0, 16⟩
def CTX.CTX_CNT1_REF_HELD_CNT (c : Nat) : Fld := ⟨rkey 0x19 c (0x070), 16, 8⟩
def CTX.CTX_CNT1_COEF_LOCK_CNT (c : Nat) : Fld := ⟨rkey 0x19 c (0x070), 24, 8⟩
def CTX.CTX_PERIODS (c : Nat) : Fld := ⟨rkey 0x19 c (0x074), 0, 32⟩
def CTX.CTX_PROG_COAST_LEFT (c : Nat) : Fld := ⟨rkey 0x19 c (0x078), 0, 16⟩
def CTX.CTX_PROG_PRIME_GOOD (c : Nat) : Fld := ⟨rkey 0x19 c (0x078), 16, 8⟩
def CTX.CTX_COST (c : Nat) : Fld := ⟨rkey 0x19 c (0x07C), 0, 16⟩
def CTX.CTX_EXEC_LAST (c : Nat) : Fld := ⟨rkey 0x19 c (0x080), 0, 16⟩
def CTX.CTX_EXEC_MAX (c : Nat) : Fld := ⟨rkey 0x19 c (0x080), 16, 16⟩
def CTX.CTX_CMD : Fld := ⟨rkey 0x19 0 (0x400), 0, 32⟩
def CTX.MEAS_SLOT (c i : Nat) : Fld := ⟨rkey 0x19 c (0x800 + 16*i), 0, 13⟩
def CTX.MEAS_FRZ_N (c i : Nat) : Fld := ⟨rkey 0x19 c (0x800 + 16*i), 16, 16⟩
def CTX.MEAS_FRZ_LSB (c i : Nat) : Fld := ⟨rkey 0x19 c (0x804 + 16*i), 0, 32⟩
def CTX.OUT_SLOT (c j : Nat) : Fld := ⟨rkey 0x19 c (0x900 + 16*j), 0, 13⟩
def CTX.OUT_RB_SLOT (c j : Nat) : Fld := ⟨rkey 0x19 c (0x900 + 16*j), 16, 13⟩
def CTX.OUT_RB_MODE (c j : Nat) : Fld := ⟨rkey 0x19 c (0x900 + 16*j), 29, 2⟩
def CTX.OUT_MAN_SLOT (c j : Nat) : Fld := ⟨rkey 0x19 c (0x904 + 16*j), 0, 13⟩
def CTX.OUT_MAN_EN (c j : Nat) : Fld := ⟨rkey 0x19 c (0x904 + 16*j), 13, 1⟩
def CTX.REF_SLOT (c i : Nat) : Fld := ⟨rkey 0x19 c (0xA00 + 4*i), 0, 13⟩

-- CAS: R184
def CAS.CAP_LANES : Fld := ⟨rkey 0x1A 0 (0x040), 0, 8⟩
def CAS.CAP_FREQ_MHZ : Fld := ⟨rkey 0x1A 0 (0x040), 16, 16⟩
def CAS.MEM_USED_KB : Fld := ⟨rkey 0x1A 0 (0x044), 0, 16⟩
def CAS.MEM_TOTAL_KB : Fld := ⟨rkey 0x1A 0 (0x044), 16, 16⟩
def CAS.RATE_UTIL_UTIL : Fld := ⟨rkey 0x1A 0 (0x048), 0, 16⟩
def CAS.RATE_UTIL_LIMIT : Fld := ⟨rkey 0x1A 0 (0x048), 16, 16⟩
def CAS.DENS_UTIL_UTIL : Fld := ⟨rkey 0x1A 0 (0x04C), 0, 16⟩
def CAS.DENS_UTIL_LIMIT : Fld := ⟨rkey 0x1A 0 (0x04C), 16, 16⟩
def CAS.BLOCKING_NS : Fld := ⟨rkey 0x1A 0 (0x050), 0, 32⟩
def CAS.ADM_STAT_ENABLED : Fld := ⟨rkey 0x1A 0 (0x054), 0, 5⟩
def CAS.ADM_STAT_LAST_REASON : Fld := ⟨rkey 0x1A 0 (0x054), 8, 3⟩
def CAS.ADM_STAT_LAST_SLOT : Fld := ⟨rkey 0x1A 0 (0x054), 16, 4⟩
def CAS.ADM_REFUSED_CNT : Fld := ⟨rkey 0x1A 0 (0x058), 0, 8⟩
def CAS.QUERY_FREQ_MHZ : Fld := ⟨rkey 0x1A 0 (0x05C), 0, 16⟩
def CAS.QUERY_DONE : Fld := ⟨rkey 0x1A 0 (0x05C), 16, 1⟩
def CAS.QUERY_FITS : Fld := ⟨rkey 0x1A 0 (0x05C), 17, 1⟩
def CAS.QUERY_RATE_OK : Fld := ⟨rkey 0x1A 0 (0x05C), 18, 1⟩
def CAS.QUERY_DENS_OK : Fld := ⟨rkey 0x1A 0 (0x05C), 19, 1⟩
def CAS.QUERY_OWN_OK : Fld := ⟨rkey 0x1A 0 (0x05C), 20, 1⟩
def CAS.EVT_TOTAL_TRUNC_TOTAL : Fld := ⟨rkey 0x1A 0 (0x060), 0, 16⟩
def CAS.EVT_TOTAL_BREACH_TOTAL : Fld := ⟨rkey 0x1A 0 (0x060), 16, 16⟩
def CAS.LOCK_TOTAL : Fld := ⟨rkey 0x1A 0 (0x064), 0, 16⟩
def CAS.LOCK_ERR_OFFSET : Fld := ⟨rkey 0x1A 0 (0x068), 0, 25⟩
def CAS.LOAD_LAST : Fld := ⟨rkey 0x1A 0 (0x06C), 0, 16⟩
def CAS.LOAD_MAX : Fld := ⟨rkey 0x1A 0 (0x06C), 16, 16⟩
def CAS.SLOT_SUM_STATE (s : Nat) : Fld := ⟨rkey 0x1A 0 (0x800 + 4*s), 0, 3⟩
def CAS.SLOT_SUM_EN (s : Nat) : Fld := ⟨rkey 0x1A 0 (0x800 + 4*s), 3, 1⟩
def CAS.SLOT_SUM_LAST_CODE (s : Nat) : Fld := ⟨rkey 0x1A 0 (0x800 + 4*s), 4, 4⟩
def CAS.SLOT_SUM_FACT_VALID (s : Nat) : Fld := ⟨rkey 0x1A 0 (0x800 + 4*s), 8, 1⟩
def CAS.SLOT_SUM_LIN_REQ (s : Nat) : Fld := ⟨rkey 0x1A 0 (0x800 + 4*s), 9, 1⟩

-- SLOT: R185
def SLOT.SLOT_SEL : Fld := ⟨rkey 0x1B 0 (0x040), 0, 4⟩
def SLOT.SLOT_CFG_EN (k : Nat) : Fld := ⟨rkey 0x1B k (0x044), 0, 1⟩
def SLOT.SLOT_CFG_KIND (k : Nat) : Fld := ⟨rkey 0x1B k (0x044), 1, 2⟩
def SLOT.SLOT_CFG_TRUNC_ACT (k : Nat) : Fld := ⟨rkey 0x1B k (0x044), 3, 1⟩
def SLOT.SLOT_CFG_BREACH_ACT (k : Nat) : Fld := ⟨rkey 0x1B k (0x044), 4, 1⟩
def SLOT.SLOT_CFG_WARM_EN (k : Nat) : Fld := ⟨rkey 0x1B k (0x044), 5, 1⟩
def SLOT.SLOT_CFG_WARM_OTHER (k : Nat) : Fld := ⟨rkey 0x1B k (0x044), 6, 1⟩
def SLOT.SLOT_CFG_WARM_SRC (k : Nat) : Fld := ⟨rkey 0x1B k (0x044), 7, 4⟩
def SLOT.SLOT_CFG_REFRESH_MODE (k : Nat) : Fld := ⟨rkey 0x1B k (0x044), 11, 2⟩
def SLOT.SLOT_ITER_G (k : Nat) : Fld := ⟨rkey 0x1B k (0x048), 0, 4⟩
def SLOT.SLOT_ITER_K (k : Nat) : Fld := ⟨rkey 0x1B k (0x048), 8, 7⟩
def SLOT.SLOT_PERIOD_PERIOD (k : Nat) : Fld := ⟨rkey 0x1B k (0x04C), 0, 14⟩
def SLOT.SLOT_PERIOD_PHASE (k : Nat) : Fld := ⟨rkey 0x1B k (0x04C), 16, 14⟩
def SLOT.SLOT_DEADLINE (k : Nat) : Fld := ⟨rkey 0x1B k (0x050), 0, 20⟩
def SLOT.SLOT_DELTA_RING (k : Nat) : Fld := ⟨rkey 0x1B k (0x054), 0, 6⟩
def SLOT.SLOT_DELTA_DELTA_MAX (k : Nat) : Fld := ⟨rkey 0x1B k (0x054), 16, 16⟩
def SLOT.SLOT_LIN_LIN_BUDGET (k : Nat) : Fld := ⟨rkey 0x1B k (0x058), 0, 20⟩
def SLOT.SLOT_LIN_LIN_OUTER (k : Nat) : Fld := ⟨rkey 0x1B k (0x058), 20, 4⟩
def SLOT.SLOT_REFRESH_EVERY (k : Nat) : Fld := ⟨rkey 0x1B k (0x05C), 0, 16⟩
def SLOT.SLOT_REFRESH_EST_US (k : Nat) : Fld := ⟨rkey 0x1B k (0x05C), 16, 16⟩
def SLOT.SLOT_OUT_STATUS_SLOT (k : Nat) : Fld := ⟨rkey 0x1B k (0x060), 0, 13⟩
def SLOT.SLOT_OUT_RESNORM_SLOT (k : Nat) : Fld := ⟨rkey 0x1B k (0x060), 16, 13⟩
def SLOT.SLOT_BASE (k : Nat) : Fld := ⟨rkey 0x1B k (0x064), 0, 25⟩
def SLOT.LOAD_SRC (k : Nat) : Fld := ⟨rkey 0x1B k (0x068), 0, 32⟩
def SLOT.LOAD_LEN (k : Nat) : Fld := ⟨rkey 0x1B k (0x06C), 0, 25⟩
def SLOT.SLOT_STAT_STATE (k : Nat) : Fld := ⟨rkey 0x1B k (0x070), 0, 3⟩
def SLOT.SLOT_STAT_FACT_VALID (k : Nat) : Fld := ⟨rkey 0x1B k (0x070), 3, 1⟩
def SLOT.SLOT_STAT_FACT_BUSY (k : Nat) : Fld := ⟨rkey 0x1B k (0x070), 4, 1⟩
def SLOT.SLOT_STAT_FACT_ACTIVE (k : Nat) : Fld := ⟨rkey 0x1B k (0x070), 5, 1⟩
def SLOT.SLOT_STAT_FACT_STALE (k : Nat) : Fld := ⟨rkey 0x1B k (0x070), 6, 1⟩
def SLOT.SLOT_STAT_COLD_PENDING (k : Nat) : Fld := ⟨rkey 0x1B k (0x070), 7, 1⟩
def SLOT.SLOT_STAT_LOAD_ERR (k : Nat) : Fld := ⟨rkey 0x1B k (0x070), 8, 4⟩
def SLOT.SLOT_STAT_LAST_CODE (k : Nat) : Fld := ⟨rkey 0x1B k (0x070), 12, 4⟩
def SLOT.SLOT_STAT_LAST_OUTER (k : Nat) : Fld := ⟨rkey 0x1B k (0x070), 16, 4⟩
def SLOT.SLOT_STAT_LAST_INNER (k : Nat) : Fld := ⟨rkey 0x1B k (0x070), 20, 7⟩
def SLOT.SLOT_SIZE_KB (k : Nat) : Fld := ⟨rkey 0x1B k (0x074), 0, 16⟩
def SLOT.SLOT_WCIT (k : Nat) : Fld := ⟨rkey 0x1B k (0x078), 0, 32⟩
def SLOT.SLOT_COST (k : Nat) : Fld := ⟨rkey 0x1B k (0x07C), 0, 32⟩
def SLOT.SLOT_SIG_LO (k : Nat) : Fld := ⟨rkey 0x1B k (0x080), 0, 32⟩
def SLOT.SLOT_SIG_HI (k : Nat) : Fld := ⟨rkey 0x1B k (0x084), 0, 32⟩
def SLOT.SLOT_LAST_STATUS (k : Nat) : Fld := ⟨rkey 0x1B k (0x088), 0, 32⟩
def SLOT.SLOT_LAST_RESNORM (k : Nat) : Fld := ⟨rkey 0x1B k (0x08C), 0, 32⟩
def SLOT.SLOT_EXEC_LAST (k : Nat) : Fld := ⟨rkey 0x1B k (0x090), 0, 16⟩
def SLOT.SLOT_EXEC_MAX (k : Nat) : Fld := ⟨rkey 0x1B k (0x090), 16, 16⟩
def SLOT.SLOT_SOLVES (k : Nat) : Fld := ⟨rkey 0x1B k (0x094), 0, 32⟩
def SLOT.SLOT_DELTA_SEQ (k : Nat) : Fld := ⟨rkey 0x1B k (0x098), 0, 32⟩
def SLOT.SLOT_CNT0_TRUNC_CNT (k : Nat) : Fld := ⟨rkey 0x1B k (0x09C), 0, 8⟩
def SLOT.SLOT_CNT0_LIN_TIMEOUT_CNT (k : Nat) : Fld := ⟨rkey 0x1B k (0x09C), 8, 8⟩
def SLOT.SLOT_CNT0_WARM_MISMATCH_CNT (k : Nat) : Fld := ⟨rkey 0x1B k (0x09C), 16, 8⟩
def SLOT.SLOT_CNT0_NONPOS_CNT (k : Nat) : Fld := ⟨rkey 0x1B k (0x09C), 24, 8⟩
def SLOT.SLOT_CNT1_RES_SAT_CNT (k : Nat) : Fld := ⟨rkey 0x1B k (0x0A0), 0, 8⟩
def SLOT.SLOT_CNT1_GRAD_SAT_CNT (k : Nat) : Fld := ⟨rkey 0x1B k (0x0A0), 8, 8⟩
def SLOT.SLOT_CNT1_VEC_SAT_CNT (k : Nat) : Fld := ⟨rkey 0x1B k (0x0A0), 16, 8⟩
def SLOT.SLOT_CNT1_FACT_SAT_CNT (k : Nat) : Fld := ⟨rkey 0x1B k (0x0A0), 24, 8⟩
def SLOT.SLOT_CNT2_DELTA_REJ_CNT (k : Nat) : Fld := ⟨rkey 0x1B k (0x0A4), 0, 8⟩
def SLOT.SLOT_CNT2_DELTA_DEFER_CNT (k : Nat) : Fld := ⟨rkey 0x1B k (0x0A4), 8, 8⟩
def SLOT.SLOT_CNT2_DELTA_OVERSIZE_CNT (k : Nat) : Fld := ⟨rkey 0x1B k (0x0A4), 16, 8⟩
def SLOT.SLOT_CNT2_FACT_FAIL_CNT (k : Nat) : Fld := ⟨rkey 0x1B k (0x0A4), 24, 8⟩
def SLOT.SLOT_CNT3_LOCK_CNT (k : Nat) : Fld := ⟨rkey 0x1B k (0x0A8), 0, 8⟩
def SLOT.SLOT_BREACH_CLASS (k : Nat) : Fld := ⟨rkey 0x1B k (0x0AC), 0, 2⟩
def SLOT.SLOT_BREACH_INDEX (k : Nat) : Fld := ⟨rkey 0x1B k (0x0AC), 16, 15⟩
def SLOT.SLOT_REFRESH_LAST (k : Nat) : Fld := ⟨rkey 0x1B k (0x0B0), 0, 16⟩
def SLOT.SLOT_WORK_OFF (k : Nat) : Fld := ⟨rkey 0x1B k (0x0C0), 0, 25⟩
def SLOT.SLOT_FACT0_OFF (k : Nat) : Fld := ⟨rkey 0x1B k (0x0C4), 0, 25⟩
def SLOT.SLOT_FACT1_OFF (k : Nat) : Fld := ⟨rkey 0x1B k (0x0C8), 0, 25⟩
def SLOT.SLOT_CMD : Fld := ⟨rkey 0x1B 0 (0x400), 0, 32⟩

-- FB: R212, R213, R233, R234
def FB.BANK_CFG_STATION (b : Nat) : Fld := ⟨rkey (0x20+b) 0 (0x040), 0, 1⟩
def FB.BANK_CFG_SILENCE_MS (b : Nat) : Fld := ⟨rkey (0x20+b) 0 (0x040), 8, 6⟩
def FB.BANK_CFG_RELEASE_MS (b : Nat) : Fld := ⟨rkey (0x20+b) 0 (0x040), 16, 14⟩
def FB.BANK_STAT_EX (b : Nat) : Fld := ⟨rkey (0x20+b) 0 (0x044), 0, 1⟩
def FB.BANK_STAT_LINK_OK (b : Nat) : Fld := ⟨rkey (0x20+b) 0 (0x044), 1, 1⟩
def FB.BANK_STAT_LOGIC_SILENT (b : Nat) : Fld := ⟨rkey (0x20+b) 0 (0x044), 2, 1⟩
def FB.BANK_STAT_INPUT_LOST (b : Nat) : Fld := ⟨rkey (0x20+b) 0 (0x044), 3, 1⟩
def FB.BANK_STAT_DRIVE_MODE (b : Nat) : Fld := ⟨rkey (0x20+b) 0 (0x044), 4, 2⟩
def FB.BANK_STAT_RELEASED (b : Nat) : Fld := ⟨rkey (0x20+b) 0 (0x044), 6, 1⟩
def FB.BANK_STAT_FV_OK (b : Nat) : Fld := ⟨rkey (0x20+b) 0 (0x044), 7, 1⟩
def FB.BANK_STAT_FV_LOW (b : Nat) : Fld := ⟨rkey (0x20+b) 0 (0x044), 8, 1⟩
def FB.BANK_STAT_FV_HIGH (b : Nat) : Fld := ⟨rkey (0x20+b) 0 (0x044), 9, 1⟩
def FB.BANK_STAT_TRIP_LINK_OK (b : Nat) : Fld := ⟨rkey (0x20+b) 0 (0x044), 10, 1⟩
def FB.FV_MEAS_FV_MV (b : Nat) : Fld := ⟨rkey (0x20+b) 0 (0x048), 0, 16⟩
def FB.FV_MEAS_FV_MA (b : Nat) : Fld := ⟨rkey (0x20+b) 0 (0x048), 16, 16⟩
def FB.BANK_POWER_LOGIC_MW (b : Nat) : Fld := ⟨rkey (0x20+b) 0 (0x04C), 0, 16⟩
def FB.BANK_POWER_TEMP (b : Nat) : Fld := ⟨rkey (0x20+b) 0 (0x04C), 16, 16⟩
def FB.FRAME_CNT_CRC_ERR_CNT (b : Nat) : Fld := ⟨rkey (0x20+b) 0 (0x050), 0, 8⟩
def FB.FRAME_CNT_SEQ_ERR_CNT (b : Nat) : Fld := ⟨rkey (0x20+b) 0 (0x050), 8, 8⟩
def FB.FRAME_CNT_SILENCE_CNT (b : Nat) : Fld := ⟨rkey (0x20+b) 0 (0x050), 16, 8⟩
def FB.FRAME_CNT_INPUT_LOST_CNT (b : Nat) : Fld := ⟨rkey (0x20+b) 0 (0x050), 24, 8⟩
def FB.TRIP_STAT_TRIP_WORD (b : Nat) : Fld := ⟨rkey (0x20+b) 0 (0x054), 0, 16⟩
def FB.TRIP_STAT_TRIP_ERR_CNT (b : Nat) : Fld := ⟨rkey (0x20+b) 0 (0x054), 16, 8⟩
def FB.FV_CNT_FV_FAULT_CNT (b : Nat) : Fld := ⟨rkey (0x20+b) 0 (0x058), 0, 8⟩
def FB.TRIP_SLOT_SLOT (b : Nat) : Fld := ⟨rkey (0x20+b) 0 (0x05C), 0, 13⟩
def FB.TRIP_SLOT_EN (b : Nat) : Fld := ⟨rkey (0x20+b) 0 (0x05C), 15, 1⟩
def FB.LAST_DRIVE_LO (b : Nat) : Fld := ⟨rkey (0x20+b) 0 (0x060), 0, 32⟩
def FB.LAST_DRIVE_HI (b : Nat) : Fld := ⟨rkey (0x20+b) 0 (0x064), 0, 32⟩
def FB.MAPS_FAULT (b : Nat) : Fld := ⟨rkey (0x20+b) 0 (0x068), 0, 16⟩
def FB.MAPS_TS_SAFE (b : Nat) : Fld := ⟨rkey (0x20+b) 0 (0x068), 16, 16⟩
def FB.CH_CFG_EN (b i : Nat) : Fld := ⟨rkey (0x20+b) 0 (0x800 + 32*i), 0, 1⟩
def FB.CH_CFG_TYPE (b i : Nat) : Fld := ⟨rkey (0x20+b) 0 (0x800 + 32*i), 1, 4⟩
def FB.CH_CFG_SAFETY (b i : Nat) : Fld := ⟨rkey (0x20+b) 0 (0x800 + 32*i), 5, 1⟩
def FB.CH_CFG_TIMED_SAFE (b i : Nat) : Fld := ⟨rkey (0x20+b) 0 (0x800 + 32*i), 6, 1⟩
def FB.CH_CFG_PULSE_EN (b i : Nat) : Fld := ⟨rkey (0x20+b) 0 (0x800 + 32*i), 7, 1⟩
def FB.CH_CFG_XCHK_EN (b i : Nat) : Fld := ⟨rkey (0x20+b) 0 (0x800 + 32*i), 8, 1⟩
def FB.CH_CFG_SRC_CH (b i : Nat) : Fld := ⟨rkey (0x20+b) 0 (0x800 + 32*i), 9, 4⟩
def FB.CH_CFG_OPEN_LOAD_EN (b i : Nat) : Fld := ⟨rkey (0x20+b) 0 (0x800 + 32*i), 13, 1⟩
def FB.CH_SLOT_SLOT (b i : Nat) : Fld := ⟨rkey (0x20+b) 0 (0x804 + 32*i), 0, 13⟩
def FB.CH_FILT_N (b i : Nat) : Fld := ⟨rkey (0x20+b) 0 (0x808 + 32*i), 0, 8⟩
def FB.CH_FILT_SAMPLE (b i : Nat) : Fld := ⟨rkey (0x20+b) 0 (0x808 + 32*i), 8, 7⟩
def FB.CH_PULSE_WIDTH_US (b i : Nat) : Fld := ⟨rkey (0x20+b) 0 (0x80C + 32*i), 0, 10⟩
def FB.CH_PULSE_INT (b i : Nat) : Fld := ⟨rkey (0x20+b) 0 (0x80C + 32*i), 16, 7⟩
def FB.CH_TS_TS_TIMEOUT_MS (b i : Nat) : Fld := ⟨rkey (0x20+b) 0 (0x810 + 32*i), 0, 14⟩
def FB.CH_TS_TS_VALUE (b i : Nat) : Fld := ⟨rkey (0x20+b) 0 (0x810 + 32*i), 16, 16⟩
def FB.CH_STAT_VALUE (b i : Nat) : Fld := ⟨rkey (0x20+b) 0 (0x814 + 32*i), 0, 1⟩
def FB.CH_STAT_RAW (b i : Nat) : Fld := ⟨rkey (0x20+b) 0 (0x814 + 32*i), 1, 1⟩
def FB.CH_STAT_SRC_INVALID (b i : Nat) : Fld := ⟨rkey (0x20+b) 0 (0x814 + 32*i), 2, 1⟩
def FB.CH_STAT_FORCED (b i : Nat) : Fld := ⟨rkey (0x20+b) 0 (0x814 + 32*i), 3, 1⟩
def FB.CH_STAT_OUT_STATE (b i : Nat) : Fld := ⟨rkey (0x20+b) 0 (0x814 + 32*i), 4, 2⟩
def FB.CH_STAT_SHORT (b i : Nat) : Fld := ⟨rkey (0x20+b) 0 (0x814 + 32*i), 6, 1⟩
def FB.CH_STAT_OPEN_LOAD (b i : Nat) : Fld := ⟨rkey (0x20+b) 0 (0x814 + 32*i), 7, 1⟩
def FB.CH_STAT_READBACK_ERR (b i : Nat) : Fld := ⟨rkey (0x20+b) 0 (0x814 + 32*i), 8, 1⟩
def FB.CH_STAT_PULSE_FAIL (b i : Nat) : Fld := ⟨rkey (0x20+b) 0 (0x814 + 32*i), 9, 1⟩
def FB.CH_STAT_XSHORT (b i : Nat) : Fld := ⟨rkey (0x20+b) 0 (0x814 + 32*i), 10, 1⟩
def FB.CH_STAT_LINE_FAULT (b i : Nat) : Fld := ⟨rkey (0x20+b) 0 (0x814 + 32*i), 11, 1⟩
def FB.CH_STAT_TRIP (b i : Nat) : Fld := ⟨rkey (0x20+b) 0 (0x814 + 32*i), 12, 1⟩
def FB.CH_STAT_EVT_DIR (b i : Nat) : Fld := ⟨rkey (0x20+b) 0 (0x814 + 32*i), 13, 1⟩
def FB.CH_STAT_EVT_STEP_PAR (b i : Nat) : Fld := ⟨rkey (0x20+b) 0 (0x814 + 32*i), 14, 1⟩
def FB.CH_STAT_FAULT (b i : Nat) : Fld := ⟨rkey (0x20+b) 0 (0x814 + 32*i), 15, 1⟩
def FB.CH_STAT_FILT_CNT (b i : Nat) : Fld := ⟨rkey (0x20+b) 0 (0x814 + 32*i), 16, 8⟩
def FB.CH_EVT_TIME (b i : Nat) : Fld := ⟨rkey (0x20+b) 0 (0x818 + 32*i), 0, 32⟩
def FB.CH_CNT_EDGE_CNT (b i : Nat) : Fld := ⟨rkey (0x20+b) 0 (0x81C + 32*i), 0, 8⟩
def FB.CH_CNT_PULSE_FAIL_CNT (b i : Nat) : Fld := ⟨rkey (0x20+b) 0 (0x81C + 32*i), 8, 8⟩
def FB.CH_CNT_XSHORT_CNT (b i : Nat) : Fld := ⟨rkey (0x20+b) 0 (0x81C + 32*i), 16, 8⟩
def FB.CH_CNT_SHORT_CNT (b i : Nat) : Fld := ⟨rkey (0x20+b) 0 (0x81C + 32*i), 24, 8⟩
def FB.AN_CFG_FMT (b i : Nat) : Fld := ⟨rkey (0x20+b) 0 (0xA00 + 32*i), 0, 2⟩
def FB.AN_CFG_LOOP_PWR (b i : Nat) : Fld := ⟨rkey (0x20+b) 0 (0xA00 + 32*i), 2, 1⟩
def FB.AN_CFG_BW (b i : Nat) : Fld := ⟨rkey (0x20+b) 0 (0xA00 + 32*i), 3, 1⟩
def FB.AN_CFG_HART_MODE (b i : Nat) : Fld := ⟨rkey (0x20+b) 0 (0xA00 + 32*i), 4, 2⟩
def FB.AN_CFG_RED (b i : Nat) : Fld := ⟨rkey (0x20+b) 0 (0xA00 + 32*i), 6, 1⟩
def FB.AN_CFG_RB_EN (b i : Nat) : Fld := ⟨rkey (0x20+b) 0 (0xA00 + 32*i), 7, 1⟩
def FB.AN_INT_INT (b i : Nat) : Fld := ⟨rkey (0x20+b) 0 (0xA04 + 32*i), 0, 14⟩
def FB.AN_LIM_LIM_LO (b i : Nat) : Fld := ⟨rkey (0x20+b) 0 (0xA08 + 32*i), 0, 16⟩
def FB.AN_LIM_LIM_HI (b i : Nat) : Fld := ⟨rkey (0x20+b) 0 (0xA08 + 32*i), 16, 16⟩
def FB.AN_RB_RB_SLOT (b i : Nat) : Fld := ⟨rkey (0x20+b) 0 (0xA0C + 32*i), 0, 13⟩
def FB.AN_MEAS_OWN_UA (b i : Nat) : Fld := ⟨rkey (0x20+b) 0 (0xA10 + 32*i), 0, 16⟩
def FB.AN_MEAS_TOTAL_UA (b i : Nat) : Fld := ⟨rkey (0x20+b) 0 (0xA10 + 32*i), 16, 16⟩
def FB.AN_STAT_COMPLIANCE (b i : Nat) : Fld := ⟨rkey (0x20+b) 0 (0xA14 + 32*i), 0, 1⟩
def FB.AN_STAT_COMPL_FAULT (b i : Nat) : Fld := ⟨rkey (0x20+b) 0 (0xA14 + 32*i), 1, 1⟩
def FB.AN_STAT_OPEN_LOOP (b i : Nat) : Fld := ⟨rkey (0x20+b) 0 (0xA14 + 32*i), 2, 1⟩
def FB.AN_STAT_RANGE_LO (b i : Nat) : Fld := ⟨rkey (0x20+b) 0 (0xA14 + 32*i), 3, 1⟩
def FB.AN_STAT_RANGE_HI (b i : Nat) : Fld := ⟨rkey (0x20+b) 0 (0xA14 + 32*i), 4, 1⟩
def FB.AN_STAT_SUPPLY_LIMIT (b i : Nat) : Fld := ⟨rkey (0x20+b) 0 (0xA14 + 32*i), 5, 1⟩
def FB.AN_STAT_CLAMPED (b i : Nat) : Fld := ⟨rkey (0x20+b) 0 (0xA14 + 32*i), 6, 1⟩
def FB.AN_STAT_JOIN (b i : Nat) : Fld := ⟨rkey (0x20+b) 0 (0xA14 + 32*i), 7, 2⟩
def FB.AN_STAT_HART_CD (b i : Nat) : Fld := ⟨rkey (0x20+b) 0 (0xA14 + 32*i), 9, 1⟩
def FB.AN_STAT_HART_BUSY (b i : Nat) : Fld := ⟨rkey (0x20+b) 0 (0xA14 + 32*i), 10, 1⟩
def FB.AN_STAT_TERM_MV (b i : Nat) : Fld := ⟨rkey (0x20+b) 0 (0xA14 + 32*i), 16, 16⟩
def FB.AN_CNT_COMPL_CNT (b i : Nat) : Fld := ⟨rkey (0x20+b) 0 (0xA18 + 32*i), 0, 8⟩
def FB.AN_CNT_OPEN_CNT (b i : Nat) : Fld := ⟨rkey (0x20+b) 0 (0xA18 + 32*i), 8, 8⟩
def FB.AN_CNT_HART_ERR_CNT (b i : Nat) : Fld := ⟨rkey (0x20+b) 0 (0xA18 + 32*i), 16, 8⟩
def FB.AN_CNT_HART_RETRY_CNT (b i : Nat) : Fld := ⟨rkey (0x20+b) 0 (0xA18 + 32*i), 24, 8⟩
def FB.HART_CFG_TX_RING (b : Nat) : Fld := ⟨rkey (0x20+b) 0 (0xC00), 0, 6⟩
def FB.HART_CFG_RX_RING (b : Nat) : Fld := ⟨rkey (0x20+b) 0 (0xC00), 8, 6⟩
def FB.HART_CFG_PREAMBLE (b : Nat) : Fld := ⟨rkey (0x20+b) 0 (0xC00), 16, 5⟩
def FB.HART_CFG_RETRIES (b : Nat) : Fld := ⟨rkey (0x20+b) 0 (0xC00), 24, 3⟩
def FB.HART_CFG_BURST_RX (b : Nat) : Fld := ⟨rkey (0x20+b) 0 (0xC00), 27, 1⟩
def FB.HART_STAT_BUSY (b : Nat) : Fld := ⟨rkey (0x20+b) 0 (0xC04), 0, 16⟩
def FB.HART_STAT_CD (b : Nat) : Fld := ⟨rkey (0x20+b) 0 (0xC04), 16, 16⟩
def FB.HART_CNT_TXN_CNT (b : Nat) : Fld := ⟨rkey (0x20+b) 0 (0xC08), 0, 16⟩
def FB.HART_CNT_BURST_CNT (b : Nat) : Fld := ⟨rkey (0x20+b) 0 (0xC08), 16, 16⟩

-- SCP: R256
def SCP.PAIR_STAT_LOCKSTEP (p : Nat) : Fld := ⟨rkey (0x10+p) 0 (0x040), 0, 1⟩
def SCP.PAIR_STAT_SPLIT (p : Nat) : Fld := ⟨rkey (0x10+p) 0 (0x040), 1, 1⟩
def SCP.PAIR_STAT_LOCK_BROKEN (p : Nat) : Fld := ⟨rkey (0x10+p) 0 (0x040), 2, 1⟩
def SCP.PAIR_STAT_SAFETY (p : Nat) : Fld := ⟨rkey (0x10+p) 0 (0x040), 3, 1⟩
def SCP.PAIR_STAT_HALTED (p : Nat) : Fld := ⟨rkey (0x10+p) 0 (0x040), 4, 1⟩
def SCP.PAIR_STAT_SELFTEST_OK (p : Nat) : Fld := ⟨rkey (0x10+p) 0 (0x040), 5, 1⟩
def SCP.PAIR_FAULT_KIND (p : Nat) : Fld := ⟨rkey (0x10+p) 0 (0x044), 0, 4⟩
def SCP.PAIR_FAULT_INPUT (p : Nat) : Fld := ⟨rkey (0x10+p) 0 (0x044), 8, 3⟩
def SCP.FAULT_PC (p : Nat) : Fld := ⟨rkey (0x10+p) 0 (0x048), 0, 32⟩
def SCP.FAULT_ADDR (p : Nat) : Fld := ⟨rkey (0x10+p) 0 (0x04C), 0, 32⟩
def SCP.FAULT_TIME_LO (p : Nat) : Fld := ⟨rkey (0x10+p) 0 (0x050), 0, 32⟩
def SCP.FAULT_TIME_HI (p : Nat) : Fld := ⟨rkey (0x10+p) 0 (0x054), 0, 32⟩
def SCP.RETIRED_LO (p : Nat) : Fld := ⟨rkey (0x10+p) 0 (0x058), 0, 32⟩
def SCP.RETIRED_HI (p : Nat) : Fld := ⟨rkey (0x10+p) 0 (0x05C), 0, 32⟩
def SCP.SELFTEST_CNT (p : Nat) : Fld := ⟨rkey (0x10+p) 0 (0x060), 0, 32⟩
def SCP.TCM_ECC_CE_CNT (p : Nat) : Fld := ⟨rkey (0x10+p) 0 (0x064), 0, 16⟩
def SCP.TCM_ECC_UE_CNT (p : Nat) : Fld := ⟨rkey (0x10+p) 0 (0x064), 16, 8⟩
def SCP.TCM_ECC_ADDR_OFFSET (p : Nat) : Fld := ⟨rkey (0x10+p) 0 (0x068), 0, 18⟩
def SCP.TCM_ECC_ADDR_DTCM (p : Nat) : Fld := ⟨rkey (0x10+p) 0 (0x068), 18, 1⟩
def SCP.TCM_ECC_ADDR_CORE (p : Nat) : Fld := ⟨rkey (0x10+p) 0 (0x068), 19, 1⟩
def SCP.TCM_ECC_ADDR_UE (p : Nat) : Fld := ⟨rkey (0x10+p) 0 (0x068), 20, 1⟩
def SCP.TCM_SCRUB_PASSES (p : Nat) : Fld := ⟨rkey (0x10+p) 0 (0x06C), 0, 16⟩
def SCP.IRQ_PEND0 (p : Nat) : Fld := ⟨rkey (0x10+p) 0 (0x070), 0, 32⟩
def SCP.IRQ_PEND1 (p : Nat) : Fld := ⟨rkey (0x10+p) 0 (0x074), 0, 32⟩
def SCP.MTIMECMP_LO (p : Nat) : Fld := ⟨rkey (0x10+p) 0 (0x078), 0, 32⟩
def SCP.MTIMECMP_HI (p : Nat) : Fld := ⟨rkey (0x10+p) 0 (0x07C), 0, 32⟩
def SCP.MTIMECMP1_LO (p : Nat) : Fld := ⟨rkey (0x10+p) 0 (0x080), 0, 32⟩
def SCP.MTIMECMP1_HI (p : Nat) : Fld := ⟨rkey (0x10+p) 0 (0x084), 0, 32⟩
def SCP.MEM_ECC_CE_CNT (p m : Nat) : Fld := ⟨rkey (0x10+p) 0 (0x100 + 16*m), 0, 16⟩
def SCP.MEM_ECC_UE_CNT (p m : Nat) : Fld := ⟨rkey (0x10+p) 0 (0x100 + 16*m), 16, 8⟩
def SCP.MEM_ECC_ADDR (p m : Nat) : Fld := ⟨rkey (0x10+p) 0 (0x104 + 16*m), 0, 32⟩
def SCP.MEM_SCRUB_PASSES (p m : Nat) : Fld := ⟨rkey (0x10+p) 0 (0x108 + 16*m), 0, 16⟩
def SCP.MEM_SCRUB_PROGRESS (p m : Nat) : Fld := ⟨rkey (0x10+p) 0 (0x108 + 16*m), 16, 10⟩
def SCP.MEM_ECC_FLAG_LAST_UE (p m : Nat) : Fld := ⟨rkey (0x10+p) 0 (0x10C + 16*m), 0, 1⟩
def SCP.IRQ_MAP_PAGE (p k : Nat) : Fld := ⟨rkey (0x10+p) 0 (0x800 + 4*k), 0, 8⟩
def SCP.IRQ_MAP_EN (p k : Nat) : Fld := ⟨rkey (0x10+p) 0 (0x800 + 4*k), 8, 1⟩
def SCP.IRQ_MAP_TARGET (p k : Nat) : Fld := ⟨rkey (0x10+p) 0 (0x800 + 4*k), 9, 1⟩

-- WEIR: R257
def WEIR.WEIR_CFG_PERIOD : Fld := ⟨rkey 0x0B 0 (0x040), 0, 11⟩
def WEIR.WEIR_CFG_RETRY : Fld := ⟨rkey 0x0B 0 (0x040), 16, 4⟩
def WEIR.WEIR_CFG_TOL : Fld := ⟨rkey 0x0B 0 (0x040), 24, 8⟩
def WEIR.WEIR_STAT_ACTIVE (p : Nat) : Fld := ⟨rkey 0x0B 0 (0x800 + 32*p), 0, 1⟩
def WEIR.WEIR_STAT_LAST_INPUT (p : Nat) : Fld := ⟨rkey 0x0B 0 (0x800 + 32*p), 1, 3⟩
def WEIR.WEIR_CNT_DEFER_CNT (p : Nat) : Fld := ⟨rkey 0x0B 0 (0x804 + 32*p), 0, 16⟩
def WEIR.WEIR_CNT_TOL_MISS (p : Nat) : Fld := ⟨rkey 0x0B 0 (0x804 + 32*p), 16, 16⟩
def WEIR.WEIR_LAT_LAST_NS (p : Nat) : Fld := ⟨rkey 0x0B 0 (0x808 + 32*p), 0, 16⟩
def WEIR.WEIR_LAT_MAX_NS (p : Nat) : Fld := ⟨rkey 0x0B 0 (0x808 + 32*p), 16, 16⟩
def WEIR.WEIR_POINTS (p : Nat) : Fld := ⟨rkey 0x0B 0 (0x80C + 32*p), 0, 32⟩

-- DBG: R258
def DBG.DBG_STAT_AUTH_OPEN : Fld := ⟨rkey 0x90 0 (0x040), 0, 1⟩
def DBG.DBG_STAT_SESSION : Fld := ⟨rkey 0x90 0 (0x040), 1, 1⟩
def DBG.DBG_STAT_LAST_REFUSED : Fld := ⟨rkey 0x90 0 (0x040), 2, 1⟩
def DBG.DBG_STAT_HALTED : Fld := ⟨rkey 0x90 0 (0x040), 8, 8⟩
def DBG.DBG_STAT_LOCK_BROKEN : Fld := ⟨rkey 0x90 0 (0x040), 16, 4⟩
def DBG.DBG_AUTH_REMAINING_S : Fld := ⟨rkey 0x90 0 (0x044), 0, 16⟩
def DBG.DMI_ADDR : Fld := ⟨rkey 0x90 0 (0x050), 0, 7⟩
def DBG.DMI_WDATA : Fld := ⟨rkey 0x90 0 (0x054), 0, 32⟩
def DBG.DMI_OP : Fld := ⟨rkey 0x90 0 (0x058), 0, 2⟩
def DBG.DMI_RDATA : Fld := ⟨rkey 0x90 0 (0x05C), 0, 32⟩
def DBG.DMI_STAT_BUSY : Fld := ⟨rkey 0x90 0 (0x060), 0, 1⟩
def DBG.DMI_STAT_FAILED : Fld := ⟨rkey 0x90 0 (0x060), 1, 1⟩
def DBG.DBG_CHAL (i : Nat) : Fld := ⟨rkey 0x90 0 (0x100 + 4*i), 0, 32⟩
def DBG.DBG_RESP (i : Nat) : Fld := ⟨rkey 0x90 0 (0x120 + 4*i), 0, 32⟩
def DBG.DBG_AUTH_SUBMIT : Fld := ⟨rkey 0x90 0 (0x400), 0, 32⟩

-- GNT: R293, R294
def GNT.GNT_STAT_SCANNING : Fld := ⟨rkey 0x07 0 (0x040), 0, 1⟩
def GNT.GNT_STAT_FAULT : Fld := ⟨rkey 0x07 0 (0x040), 1, 1⟩
def GNT.GNT_STAT_FAULT_CAUSE : Fld := ⟨rkey 0x07 0 (0x040), 2, 3⟩
def GNT.GNT_STAT_PSET_VALID : Fld := ⟨rkey 0x07 0 (0x040), 5, 1⟩
def GNT.GNT_STAT_COMMISSIONED : Fld := ⟨rkey 0x07 0 (0x040), 6, 1⟩
def GNT.GNT_STAT_SEAL_MISMATCH : Fld := ⟨rkey 0x07 0 (0x040), 7, 1⟩
def GNT.GNT_STAT_SEAL_CHANGED : Fld := ⟨rkey 0x07 0 (0x040), 8, 1⟩
def GNT.GNT_STAT_STEST_PENDING : Fld := ⟨rkey 0x07 0 (0x040), 9, 1⟩
def GNT.SCAN_CNT : Fld := ⟨rkey 0x07 0 (0x044), 0, 32⟩
def GNT.OSC_KHZ : Fld := ⟨rkey 0x07 0 (0x048), 0, 16⟩
def GNT.SELFTEST_PASSES : Fld := ⟨rkey 0x07 0 (0x04C), 0, 16⟩
def GNT.SELFTEST_PROGRESS : Fld := ⟨rkey 0x07 0 (0x04C), 16, 10⟩
def GNT.PSET_SRC : Fld := ⟨rkey 0x07 0 (0x050), 0, 32⟩
def GNT.PSET_LEN : Fld := ⟨rkey 0x07 0 (0x054), 0, 16⟩
def GNT.PSET_STAT_STATE : Fld := ⟨rkey 0x07 0 (0x058), 0, 2⟩
def GNT.PSET_STAT_LOAD_ERR : Fld := ⟨rkey 0x07 0 (0x058), 4, 4⟩
def GNT.PSET_SIG : Fld := ⟨rkey 0x07 0 (0x05C), 0, 32⟩
def GNT.COMM_SIG : Fld := ⟨rkey 0x07 0 (0x060), 0, 32⟩
def GNT.COMM_TIME_LO : Fld := ⟨rkey 0x07 0 (0x064), 0, 32⟩
def GNT.COMM_TIME_HI : Fld := ⟨rkey 0x07 0 (0x068), 0, 32⟩
def GNT.SAFETY_CFG_SAFETY_ADDR : Fld := ⟨rkey 0x07 0 (0x06C), 0, 8⟩
def GNT.SAFETY_CFG_SAFETY_SEQ : Fld := ⟨rkey 0x07 0 (0x06C), 8, 2⟩
def GNT.SAFETY_CFG_VOTE_SESS_A : Fld := ⟨rkey 0x07 0 (0x06C), 16, 6⟩
def GNT.SAFETY_CFG_VOTE_SESS_B : Fld := ⟨rkey 0x07 0 (0x06C), 24, 6⟩
def GNT.VOTE_CFG_GRACE_MS : Fld := ⟨rkey 0x07 0 (0x070), 0, 7⟩
def GNT.VOTE_STAT_A_OK : Fld := ⟨rkey 0x07 0 (0x074), 0, 1⟩
def GNT.VOTE_STAT_B_OK : Fld := ⟨rkey 0x07 0 (0x074), 1, 1⟩
def GNT.VOTE_STAT_A_ACTIVE : Fld := ⟨rkey 0x07 0 (0x074), 2, 1⟩
def GNT.VOTE_STAT_B_ACTIVE : Fld := ⟨rkey 0x07 0 (0x074), 3, 1⟩
def GNT.VOTE_STAT_HOLDING : Fld := ⟨rkey 0x07 0 (0x074), 4, 1⟩
def GNT.VOTE_STAT_EXPIRED : Fld := ⟨rkey 0x07 0 (0x074), 5, 1⟩
def GNT.VOTE_STAT_GRACE_LEFT_MS : Fld := ⟨rkey 0x07 0 (0x074), 16, 7⟩
def GNT.SEAL_LIVE_SAFETY_ADDR : Fld := ⟨rkey 0x07 0 (0x078), 0, 8⟩
def GNT.SEAL_LIVE_MODE : Fld := ⟨rkey 0x07 0 (0x078), 8, 2⟩
def GNT.PV_LO : Fld := ⟨rkey 0x07 0 (0x080), 0, 32⟩
def GNT.PV_HI : Fld := ⟨rkey 0x07 0 (0x084), 0, 32⟩
def GNT.GP_LO : Fld := ⟨rkey 0x07 0 (0x088), 0, 32⟩
def GNT.GP_HI : Fld := ⟨rkey 0x07 0 (0x08C), 0, 32⟩
def GNT.TW_LO : Fld := ⟨rkey 0x07 0 (0x090), 0, 32⟩
def GNT.TW_HI : Fld := ⟨rkey 0x07 0 (0x094), 0, 32⟩
def GNT.LATCH_LO : Fld := ⟨rkey 0x07 0 (0x098), 0, 32⟩
def GNT.LATCH_HI : Fld := ⟨rkey 0x07 0 (0x09C), 0, 32⟩
def GNT.STEST_PEND (i : Nat) : Fld := ⟨rkey 0x07 0 (0x0A0 + 4*i), 0, 32⟩
def GNT.GNT_CNT0_VOTE_LOSS_CNT : Fld := ⟨rkey 0x07 0 (0x0B0), 0, 8⟩
def GNT.GNT_CNT0_GRACE_EXP_CNT : Fld := ⟨rkey 0x07 0 (0x0B0), 8, 8⟩
def GNT.GNT_CNT0_RESET_FAULT_CNT : Fld := ⟨rkey 0x07 0 (0x0B0), 16, 8⟩
def GNT.GNT_CNT0_DISC_CNT : Fld := ⟨rkey 0x07 0 (0x0B0), 24, 8⟩
def GNT.GNT_CNT1_RESET_ACCEPT_CNT : Fld := ⟨rkey 0x07 0 (0x0B4), 0, 16⟩
def GNT.GNT_CNT1_LINK_MISS_CNT : Fld := ⟨rkey 0x07 0 (0x0B4), 16, 8⟩
def GNT.MATRIX_SEL : Fld := ⟨rkey 0x07 0 (0x0C0), 0, 7⟩
def GNT.CRED_CHAL (i : Nat) : Fld := ⟨rkey 0x07 0 (0x100 + 4*i), 0, 32⟩
def GNT.CRED_RESP (i : Nat) : Fld := ⟨rkey 0x07 0 (0x120 + 4*i), 0, 32⟩
def GNT.CRED_NEW (i : Nat) : Fld := ⟨rkey 0x07 0 (0x140 + 4*i), 0, 32⟩
def GNT.CRED_STAT_LAST_PURPOSE : Fld := ⟨rkey 0x07 0 (0x160), 0, 5⟩
def GNT.CRED_STAT_LAST_FAIL : Fld := ⟨rkey 0x07 0 (0x160), 5, 1⟩
def GNT.CRED_STAT_LOCKED : Fld := ⟨rkey 0x07 0 (0x160), 8, 5⟩
def GNT.CRED_STAT_CHG_LOCKED : Fld := ⟨rkey 0x07 0 (0x160), 16, 5⟩
def GNT.PSET_LOAD : Fld := ⟨rkey 0x07 0 (0x400), 0, 32⟩
def GNT.COMMISSION : Fld := ⟨rkey 0x07 0 (0x404), 0, 32⟩
def GNT.CRED_CHANGE : Fld := ⟨rkey 0x07 0 (0x408), 0, 32⟩
def GNT.IN_CHANNEL (i : Nat) : Fld := ⟨rkey 0x07 0 (0x800 + 4*i), 0, 8⟩
def GNT.IN_FLAGS (i : Nat) : Fld := ⟨rkey 0x07 0 (0x800 + 4*i), 8, 8⟩
def GNT.IN_DEMAND (i : Nat) : Fld := ⟨rkey 0x07 0 (0x800 + 4*i), 16, 1⟩
def GNT.IN_INVALID (i : Nat) : Fld := ⟨rkey 0x07 0 (0x800 + 4*i), 17, 1⟩
def GNT.IN_STEST_PEND (i : Nat) : Fld := ⟨rkey 0x07 0 (0x800 + 4*i), 18, 1⟩
def GNT.IN_RESET_ARMED (i : Nat) : Fld := ⟨rkey 0x07 0 (0x800 + 4*i), 19, 1⟩
def GNT.IN_RESET_FAULT (i : Nat) : Fld := ⟨rkey 0x07 0 (0x800 + 4*i), 20, 1⟩
def GNT.OUT_CHANNEL (j : Nat) : Fld := ⟨rkey 0x07 0 (0xA00 + 8*j), 0, 8⟩
def GNT.OUT_LATCH_EN (j : Nat) : Fld := ⟨rkey 0x07 0 (0xA00 + 8*j), 8, 1⟩
def GNT.OUT_RESET_IN (j : Nat) : Fld := ⟨rkey 0x07 0 (0xA00 + 8*j), 16, 8⟩
def GNT.OUT_DEMAND (j : Nat) : Fld := ⟨rkey 0x07 0 (0xA00 + 8*j), 24, 1⟩
def GNT.OUT_LATCHED (j : Nat) : Fld := ⟨rkey 0x07 0 (0xA00 + 8*j), 25, 1⟩
def GNT.OUT_STEST_BLOCK (j : Nat) : Fld := ⟨rkey 0x07 0 (0xA00 + 8*j), 26, 1⟩
def GNT.OUT_GP (j : Nat) : Fld := ⟨rkey 0x07 0 (0xA00 + 8*j), 27, 1⟩
def GNT.OUT_PV (j : Nat) : Fld := ⟨rkey 0x07 0 (0xA00 + 8*j), 28, 1⟩
def GNT.OUT_TW (j : Nat) : Fld := ⟨rkey 0x07 0 (0xA00 + 8*j), 29, 1⟩
def GNT.OUT_DISC (j : Nat) : Fld := ⟨rkey 0x07 0 (0xA00 + 8*j), 30, 1⟩
def GNT.OUT_GROUPS (j : Nat) : Fld := ⟨rkey 0x07 0 (0xA04 + 8*j), 0, 16⟩
def GNT.OUT_DISC_MS (j : Nat) : Fld := ⟨rkey 0x07 0 (0xA04 + 8*j), 16, 16⟩
def GNT.MATRIX_ROW (k : Nat) : Fld := ⟨rkey 0x07 0 (0xC00 + 4*k), 0, 32⟩

-- SSE: R309
def SSE.SAFE_MAP0 : Fld := ⟨rkey 0x06 0 (0x040), 0, 32⟩
def SSE.SAFE_MAP1 : Fld := ⟨rkey 0x06 0 (0x044), 0, 32⟩
def SSE.UNKNOWN_CNT : Fld := ⟨rkey 0x06 0 (0x048), 0, 16⟩
def SSE.SESS_SEL : Fld := ⟨rkey 0x06 0 (0x080), 0, 6⟩
def SSE.SESS_CFG_EN (e : Nat) : Fld := ⟨rkey 0x06 e (0x084), 0, 1⟩
def SSE.SESS_CFG_DIR (e : Nat) : Fld := ⟨rkey 0x06 e (0x084), 1, 1⟩
def SSE.SESS_CFG_KIND (e : Nat) : Fld := ⟨rkey 0x06 e (0x084), 2, 1⟩
def SSE.SESS_CFG_LOOPBACK (e : Nat) : Fld := ⟨rkey 0x06 e (0x084), 3, 1⟩
def SSE.SESS_CFG_RESTART_MODE (e : Nat) : Fld := ⟨rkey 0x06 e (0x084), 4, 1⟩
def SSE.SESS_CFG_IDENT_B_EN (e : Nat) : Fld := ⟨rkey 0x06 e (0x084), 5, 1⟩
def SSE.SESS_CFG_TRANSPORT (e : Nat) : Fld := ⟨rkey 0x06 e (0x084), 8, 5⟩
def SSE.SESS_CFG_RESTART_N (e : Nat) : Fld := ⟨rkey 0x06 e (0x084), 16, 8⟩
def SSE.SESS_LEN_PAYLOAD_LEN (e : Nat) : Fld := ⟨rkey 0x06 e (0x088), 0, 7⟩
def SSE.SESS_TIMING_MAX_AGE (e : Nat) : Fld := ⟨rkey 0x06 e (0x08C), 0, 14⟩
def SSE.SESS_TIMING_WDOG_MS (e : Nat) : Fld := ⟨rkey 0x06 e (0x08C), 16, 16⟩
def SSE.SESS_REPEAT_MS (e : Nat) : Fld := ⟨rkey 0x06 e (0x090), 0, 10⟩
def SSE.SESS_SLOT_SLOT_BASE (e : Nat) : Fld := ⟨rkey 0x06 e (0x094), 0, 13⟩
def SSE.SESS_ADDR (e : Nat) : Fld := ⟨rkey 0x06 e (0x098), 0, 32⟩
def SSE.SESS_CANID_ID (e : Nat) : Fld := ⟨rkey 0x06 e (0x09C), 0, 29⟩
def SSE.SESS_CANID_EXT (e : Nat) : Fld := ⟨rkey 0x06 e (0x09C), 29, 1⟩
def SSE.PEER_A_LO (e : Nat) : Fld := ⟨rkey 0x06 e (0x0A0), 0, 32⟩
def SSE.PEER_A_HI (e : Nat) : Fld := ⟨rkey 0x06 e (0x0A4), 0, 32⟩
def SSE.PEER_B_LO (e : Nat) : Fld := ⟨rkey 0x06 e (0x0A8), 0, 32⟩
def SSE.PEER_B_HI (e : Nat) : Fld := ⟨rkey 0x06 e (0x0AC), 0, 32⟩
def SSE.SESS_PSIG (e : Nat) : Fld := ⟨rkey 0x06 e (0x0B0), 0, 32⟩
def SSE.SESS_STAT_STATE (e : Nat) : Fld := ⟨rkey 0x06 e (0x0B4), 0, 2⟩
def SSE.SESS_STAT_LAST_CAUSE (e : Nat) : Fld := ⟨rkey 0x06 e (0x0B4), 2, 3⟩
def SSE.SESS_STAT_IDENT_B (e : Nat) : Fld := ⟨rkey 0x06 e (0x0B4), 5, 1⟩
def SSE.SESS_STAT_PEER_SAFE (e : Nat) : Fld := ⟨rkey 0x06 e (0x0B4), 6, 1⟩
def SSE.SESS_STAT_PEER_FORCED (e : Nat) : Fld := ⟨rkey 0x06 e (0x0B4), 7, 1⟩
def SSE.SESS_STAT_PEER_ROLE (e : Nat) : Fld := ⟨rkey 0x06 e (0x0B4), 8, 2⟩
def SSE.SESS_STAT_GOOD_RUN (e : Nat) : Fld := ⟨rkey 0x06 e (0x0B4), 16, 8⟩
def SSE.SESS_SEQ (e : Nat) : Fld := ⟨rkey 0x06 e (0x0B8), 0, 32⟩
def SSE.SESS_AGE_LAST_US (e : Nat) : Fld := ⟨rkey 0x06 e (0x0BC), 0, 16⟩
def SSE.SESS_AGE_WDOG_LEFT_MS (e : Nat) : Fld := ⟨rkey 0x06 e (0x0BC), 16, 16⟩
def SSE.SESS_CNT0_CHECK_ERR_CNT (e : Nat) : Fld := ⟨rkey 0x06 e (0x0C0), 0, 8⟩
def SSE.SESS_CNT0_SEQ_ERR_CNT (e : Nat) : Fld := ⟨rkey 0x06 e (0x0C0), 8, 8⟩
def SSE.SESS_CNT0_AGE_ERR_CNT (e : Nat) : Fld := ⟨rkey 0x06 e (0x0C0), 16, 8⟩
def SSE.SESS_CNT0_FORMAT_ERR_CNT (e : Nat) : Fld := ⟨rkey 0x06 e (0x0C0), 24, 8⟩
def SSE.SESS_CNT1_WDOG_CNT (e : Nat) : Fld := ⟨rkey 0x06 e (0x0C4), 0, 8⟩
def SSE.SESS_CNT1_SAFE_CNT (e : Nat) : Fld := ⟨rkey 0x06 e (0x0C4), 8, 8⟩
def SSE.SESS_CNT1_SWITCH_CNT (e : Nat) : Fld := ⟨rkey 0x06 e (0x0C4), 16, 8⟩
def SSE.SESS_CNT1_ROLE_DISC_CNT (e : Nat) : Fld := ⟨rkey 0x06 e (0x0C4), 24, 8⟩
def SSE.SESS_CNT2_DUP_CNT (e : Nat) : Fld := ⟨rkey 0x06 e (0x0C8), 0, 16⟩
def SSE.SESS_ACK : Fld := ⟨rkey 0x06 0 (0x400), 0, 32⟩
def SSE.FAILSAFE (e i : Nat) : Fld := ⟨rkey 0x06 e (0x800 + 4*i), 0, 32⟩

-- QMG: R328
def QMG.WORK_MAP0 : Fld := ⟨rkey 0x0A 0 (0x040), 0, 32⟩
def QMG.WORK_MAP1 : Fld := ⟨rkey 0x0A 0 (0x044), 0, 32⟩
def QMG.RING_SEL : Fld := ⟨rkey 0x0A 0 (0x048), 0, 6⟩
def QMG.RING_CFG_EN (r : Nat) : Fld := ⟨rkey 0x0A r (0x050), 0, 1⟩
def QMG.RING_CFG_PRIO (r : Nat) : Fld := ⟨rkey 0x0A r (0x050), 1, 1⟩
def QMG.RING_CFG_SIZE_LOG2 (r : Nat) : Fld := ⟨rkey 0x0A r (0x050), 2, 4⟩
def QMG.RING_CFG_MASTER (r : Nat) : Fld := ⟨rkey 0x0A r (0x050), 6, 5⟩
def QMG.RING_EP_PROD_CLASS (r : Nat) : Fld := ⟨rkey 0x0A r (0x054), 0, 4⟩
def QMG.RING_EP_PROD_INST (r : Nat) : Fld := ⟨rkey 0x0A r (0x054), 4, 8⟩
def QMG.RING_EP_CONS_CLASS (r : Nat) : Fld := ⟨rkey 0x0A r (0x054), 16, 4⟩
def QMG.RING_EP_CONS_INST (r : Nat) : Fld := ⟨rkey 0x0A r (0x054), 20, 8⟩
def QMG.RING_BASE (r : Nat) : Fld := ⟨rkey 0x0A r (0x058), 0, 32⟩
def QMG.RING_BUF_BASE (r : Nat) : Fld := ⟨rkey 0x0A r (0x05C), 0, 32⟩
def QMG.RING_PROD_PROD_IDX (r : Nat) : Fld := ⟨rkey 0x0A r (0x060), 0, 16⟩
def QMG.RING_CONS_CONS_IDX (r : Nat) : Fld := ⟨rkey 0x0A r (0x064), 0, 16⟩
def QMG.RING_IRQ_WATERMARK (r : Nat) : Fld := ⟨rkey 0x0A r (0x068), 0, 13⟩
def QMG.RING_IRQ_HOLDOFF_US (r : Nat) : Fld := ⟨rkey 0x0A r (0x068), 16, 16⟩
def QMG.RING_STAT_FILL (r : Nat) : Fld := ⟨rkey 0x0A r (0x06C), 0, 13⟩
def QMG.RING_STAT_FULL (r : Nat) : Fld := ⟨rkey 0x0A r (0x06C), 13, 1⟩
def QMG.RING_STAT_SW_WORK (r : Nat) : Fld := ⟨rkey 0x0A r (0x06C), 14, 1⟩
def QMG.RING_STAT_ABORT_IDX (r : Nat) : Fld := ⟨rkey 0x0A r (0x06C), 16, 16⟩
def QMG.RING_CNT_NO_CREDIT_CNT (r : Nat) : Fld := ⟨rkey 0x0A r (0x070), 0, 16⟩
def QMG.RING_CNT_DESC_ERR_CNT (r : Nat) : Fld := ⟨rkey 0x0A r (0x070), 16, 8⟩
def QMG.RING_SUM_EN (r : Nat) : Fld := ⟨rkey 0x0A 0 (0x800 + 4*r), 0, 1⟩
def QMG.RING_SUM_FULL (r : Nat) : Fld := ⟨rkey 0x0A 0 (0x800 + 4*r), 1, 1⟩
def QMG.RING_SUM_FILL (r : Nat) : Fld := ⟨rkey 0x0A 0 (0x800 + 4*r), 16, 13⟩

-- ETH: R329
def ETH.PORT_CFG_SPEED (e : Nat) : Fld := ⟨rkey (0x40+e) 0 (0x040), 0, 2⟩
def ETH.PORT_CFG_PTP_EN (e : Nat) : Fld := ⟨rkey (0x40+e) 0 (0x040), 2, 1⟩
def ETH.PORT_CFG_PTP_PEER (e : Nat) : Fld := ⟨rkey (0x40+e) 0 (0x040), 3, 1⟩
def ETH.PORT_CFG_ONE_STEP (e : Nat) : Fld := ⟨rkey (0x40+e) 0 (0x040), 4, 1⟩
def ETH.PORT_CFG_PRP_EN (e : Nat) : Fld := ⟨rkey (0x40+e) 0 (0x040), 5, 1⟩
def ETH.PORT_CFG_ACCEPT_BCAST (e : Nat) : Fld := ⟨rkey (0x40+e) 0 (0x040), 6, 1⟩
def ETH.PORT_STAT_LINK (e : Nat) : Fld := ⟨rkey (0x40+e) 0 (0x044), 0, 1⟩
def ETH.PORT_STAT_SPEED_ACT (e : Nat) : Fld := ⟨rkey (0x40+e) 0 (0x044), 1, 2⟩
def ETH.PORT_STAT_MOD_PRESENT (e : Nat) : Fld := ⟨rkey (0x40+e) 0 (0x044), 3, 1⟩
def ETH.PORT_STAT_PRP_PEER_SEEN (e : Nat) : Fld := ⟨rkey (0x40+e) 0 (0x044), 4, 1⟩
def ETH.PORT_STAT_SQI (e : Nat) : Fld := ⟨rkey (0x40+e) 0 (0x044), 24, 8⟩
def ETH.MAC_LO (e : Nat) : Fld := ⟨rkey (0x40+e) 0 (0x048), 0, 32⟩
def ETH.MAC_HI (e : Nat) : Fld := ⟨rkey (0x40+e) 0 (0x04C), 0, 16⟩
def ETH.IP_ADDR (e : Nat) : Fld := ⟨rkey (0x40+e) 0 (0x050), 0, 32⟩
def ETH.RX_RING_DEFAULT_RING (e : Nat) : Fld := ⟨rkey (0x40+e) 0 (0x054), 0, 6⟩
def ETH.RX_RING_PTP_RING (e : Nat) : Fld := ⟨rkey (0x40+e) 0 (0x054), 8, 6⟩
def ETH.RX_RING_PROTO_RING (e : Nat) : Fld := ⟨rkey (0x40+e) 0 (0x054), 16, 6⟩
def ETH.RX_FRAMES (e : Nat) : Fld := ⟨rkey (0x40+e) 0 (0x058), 0, 32⟩
def ETH.TX_FRAMES (e : Nat) : Fld := ⟨rkey (0x40+e) 0 (0x05C), 0, 32⟩
def ETH.RX_CNT_RX_ERR_CNT (e : Nat) : Fld := ⟨rkey (0x40+e) 0 (0x060), 0, 8⟩
def ETH.RX_CNT_RX_FILT_CNT (e : Nat) : Fld := ⟨rkey (0x40+e) 0 (0x060), 8, 8⟩
def ETH.RX_CNT_RX_NORING_CNT (e : Nat) : Fld := ⟨rkey (0x40+e) 0 (0x060), 16, 8⟩
def ETH.RX_CNT_LINK_DOWN_CNT (e : Nat) : Fld := ⟨rkey (0x40+e) 0 (0x060), 24, 8⟩
def ETH.PRP_CNT_DUP_CNT (e : Nat) : Fld := ⟨rkey (0x40+e) 0 (0x064), 0, 16⟩
def ETH.PRP_CNT_WRONG_LAN_CNT (e : Nat) : Fld := ⟨rkey (0x40+e) 0 (0x064), 16, 8⟩
def ETH.FILT_GROUP (e k : Nat) : Fld := ⟨rkey (0x40+e) 0 (0x800 + 8*k), 0, 32⟩
def ETH.FILT_UDP_PORT (e k : Nat) : Fld := ⟨rkey (0x40+e) 0 (0x804 + 8*k), 0, 16⟩
def ETH.FILT_RING (e k : Nat) : Fld := ⟨rkey (0x40+e) 0 (0x804 + 8*k), 16, 6⟩
def ETH.FILT_TOKEN (e k : Nat) : Fld := ⟨rkey (0x40+e) 0 (0x804 + 8*k), 22, 3⟩
def ETH.FILT_EN (e k : Nat) : Fld := ⟨rkey (0x40+e) 0 (0x804 + 8*k), 31, 1⟩

-- SER: R330
def SER.SER_CFG_MODE (n : Nat) : Fld := ⟨rkey (0x64+n) 0 (0x040), 0, 3⟩
def SER.SER_CFG_RS422 (n : Nat) : Fld := ⟨rkey (0x64+n) 0 (0x040), 3, 1⟩
def SER.SER_CFG_TERM (n : Nat) : Fld := ⟨rkey (0x64+n) 0 (0x040), 4, 1⟩
def SER.SER_CFG_BIAS (n : Nat) : Fld := ⟨rkey (0x64+n) 0 (0x040), 5, 1⟩
def SER.SER_CFG_PARITY (n : Nat) : Fld := ⟨rkey (0x64+n) 0 (0x040), 6, 2⟩
def SER.SER_CFG_STOP2 (n : Nat) : Fld := ⟨rkey (0x64+n) 0 (0x040), 8, 1⟩
def SER.SER_CFG_DATA7 (n : Nat) : Fld := ⟨rkey (0x64+n) 0 (0x040), 9, 1⟩
def SER.SER_CFG_CHK_REQ (n : Nat) : Fld := ⟨rkey (0x64+n) 0 (0x040), 10, 1⟩
def SER.SER_BAUD (n : Nat) : Fld := ⟨rkey (0x64+n) 0 (0x044), 0, 20⟩
def SER.SER_RING_TX_RING (n : Nat) : Fld := ⟨rkey (0x64+n) 0 (0x048), 0, 6⟩
def SER.SER_RING_RX_RING (n : Nat) : Fld := ⟨rkey (0x64+n) 0 (0x048), 8, 6⟩
def SER.SER_TIMING_GAP_CHAR (n : Nat) : Fld := ⟨rkey (0x64+n) 0 (0x04C), 0, 8⟩
def SER.SER_TIMING_TURNAROUND_MS (n : Nat) : Fld := ⟨rkey (0x64+n) 0 (0x04C), 8, 8⟩
def SER.SER_TIMING_RESP_TIMEOUT_MS (n : Nat) : Fld := ⟨rkey (0x64+n) 0 (0x04C), 16, 16⟩
def SER.SER_MB_SLAVE_ADDR (n : Nat) : Fld := ⟨rkey (0x64+n) 0 (0x050), 0, 8⟩
def SER.SER_STAT_TX_BUSY (n : Nat) : Fld := ⟨rkey (0x64+n) 0 (0x054), 0, 1⟩
def SER.SER_STAT_RX_ACTIVE (n : Nat) : Fld := ⟨rkey (0x64+n) 0 (0x054), 1, 1⟩
def SER.SER_CNT0_PARITY_CNT (n : Nat) : Fld := ⟨rkey (0x64+n) 0 (0x058), 0, 8⟩
def SER.SER_CNT0_FRAMING_CNT (n : Nat) : Fld := ⟨rkey (0x64+n) 0 (0x058), 8, 8⟩
def SER.SER_CNT0_CHECK_CNT (n : Nat) : Fld := ⟨rkey (0x64+n) 0 (0x058), 16, 8⟩
def SER.SER_CNT0_LENGTH_CNT (n : Nat) : Fld := ⟨rkey (0x64+n) 0 (0x058), 24, 8⟩
def SER.SER_CNT1_TIMEOUT_CNT (n : Nat) : Fld := ⟨rkey (0x64+n) 0 (0x05C), 0, 8⟩
def SER.SER_CNT1_ADDR_DISC_CNT (n : Nat) : Fld := ⟨rkey (0x64+n) 0 (0x05C), 8, 8⟩
def SER.SER_CNT1_BREAK_CNT (n : Nat) : Fld := ⟨rkey (0x64+n) 0 (0x05C), 16, 8⟩
def SER.SER_RECORDS (n : Nat) : Fld := ⟨rkey (0x64+n) 0 (0x060), 0, 32⟩

-- CAN: R344
def CAN.CAN_CFG_MODE (n : Nat) : Fld := ⟨rkey (0x50+n) 0 (0x040), 0, 3⟩
def CAN.CAN_CFG_BUSOFF_FLUSH (n : Nat) : Fld := ⟨rkey (0x50+n) 0 (0x040), 3, 1⟩
def CAN.CAN_CFG_AUTO_RECOVER (n : Nat) : Fld := ⟨rkey (0x50+n) 0 (0x040), 4, 1⟩
def CAN.CAN_CFG_TDC_EN (n : Nat) : Fld := ⟨rkey (0x50+n) 0 (0x040), 5, 1⟩
def CAN.NBT_BRP (n : Nat) : Fld := ⟨rkey (0x50+n) 0 (0x044), 0, 8⟩
def CAN.NBT_TSEG1 (n : Nat) : Fld := ⟨rkey (0x50+n) 0 (0x044), 8, 8⟩
def CAN.NBT_TSEG2 (n : Nat) : Fld := ⟨rkey (0x50+n) 0 (0x044), 16, 7⟩
def CAN.NBT_SJW (n : Nat) : Fld := ⟨rkey (0x50+n) 0 (0x044), 24, 7⟩
def CAN.DBT_BRP (n : Nat) : Fld := ⟨rkey (0x50+n) 0 (0x048), 0, 5⟩
def CAN.DBT_TSEG1 (n : Nat) : Fld := ⟨rkey (0x50+n) 0 (0x048), 8, 5⟩
def CAN.DBT_TSEG2 (n : Nat) : Fld := ⟨rkey (0x50+n) 0 (0x048), 16, 4⟩
def CAN.DBT_SJW (n : Nat) : Fld := ⟨rkey (0x50+n) 0 (0x048), 24, 4⟩
def CAN.TDC_OFFSET (n : Nat) : Fld := ⟨rkey (0x50+n) 0 (0x04C), 0, 7⟩
def CAN.TDC_MEAS (n : Nat) : Fld := ⟨rkey (0x50+n) 0 (0x04C), 8, 7⟩
def CAN.AT_WINDOW_US (n : Nat) : Fld := ⟨rkey (0x50+n) 0 (0x050), 0, 16⟩
def CAN.CAN_RING_TX_RING (n : Nat) : Fld := ⟨rkey (0x50+n) 0 (0x054), 0, 6⟩
def CAN.CAN_RING_RX_RING0 (n : Nat) : Fld := ⟨rkey (0x50+n) 0 (0x054), 8, 6⟩
def CAN.CAN_RING_RX_RING1 (n : Nat) : Fld := ⟨rkey (0x50+n) 0 (0x054), 16, 6⟩
def CAN.CAN_STAT_ERR_STATE (n : Nat) : Fld := ⟨rkey (0x50+n) 0 (0x058), 0, 2⟩
def CAN.CAN_STAT_BUS_IDLE (n : Nat) : Fld := ⟨rkey (0x50+n) 0 (0x058), 2, 1⟩
def CAN.CAN_STAT_SYNCED (n : Nat) : Fld := ⟨rkey (0x50+n) 0 (0x058), 3, 1⟩
def CAN.CAN_STAT_LISTEN (n : Nat) : Fld := ⟨rkey (0x50+n) 0 (0x058), 4, 1⟩
def CAN.CAN_STAT_LEC (n : Nat) : Fld := ⟨rkey (0x50+n) 0 (0x058), 5, 3⟩
def CAN.CAN_STAT_TEC (n : Nat) : Fld := ⟨rkey (0x50+n) 0 (0x058), 8, 8⟩
def CAN.CAN_STAT_REC (n : Nat) : Fld := ⟨rkey (0x50+n) 0 (0x058), 16, 8⟩
def CAN.FRAME_TIME_US (n : Nat) : Fld := ⟨rkey (0x50+n) 0 (0x05C), 0, 16⟩
def CAN.TXB_SEL (n : Nat) : Fld := ⟨rkey (0x50+n) 0 (0x060), 0, 3⟩
def CAN.TXB_STAT_STATE (n x : Nat) : Fld := ⟨rkey (0x50+n) x (0x064), 0, 3⟩
def CAN.TXB_STAT_AT (n x : Nat) : Fld := ⟨rkey (0x50+n) x (0x064), 3, 1⟩
def CAN.TXB_STAT_TAG (n x : Nat) : Fld := ⟨rkey (0x50+n) x (0x064), 16, 16⟩
def CAN.TXB_MAP (n : Nat) : Fld := ⟨rkey (0x50+n) 0 (0x068), 0, 9⟩
def CAN.ERR_CNT0_BIT_ERR_CNT (n : Nat) : Fld := ⟨rkey (0x50+n) 0 (0x06C), 0, 8⟩
def CAN.ERR_CNT0_STUFF_ERR_CNT (n : Nat) : Fld := ⟨rkey (0x50+n) 0 (0x06C), 8, 8⟩
def CAN.ERR_CNT0_FORM_ERR_CNT (n : Nat) : Fld := ⟨rkey (0x50+n) 0 (0x06C), 16, 8⟩
def CAN.ERR_CNT0_CRC_ERR_CNT (n : Nat) : Fld := ⟨rkey (0x50+n) 0 (0x06C), 24, 8⟩
def CAN.ERR_CNT1_ACK_ERR_CNT (n : Nat) : Fld := ⟨rkey (0x50+n) 0 (0x070), 0, 8⟩
def CAN.ERR_CNT1_PASSIVE_CNT (n : Nat) : Fld := ⟨rkey (0x50+n) 0 (0x070), 8, 8⟩
def CAN.ERR_CNT1_BUSOFF_CNT (n : Nat) : Fld := ⟨rkey (0x50+n) 0 (0x070), 16, 8⟩
def CAN.ERR_CNT1_PEX_CNT (n : Nat) : Fld := ⟨rkey (0x50+n) 0 (0x070), 24, 8⟩
def CAN.TX_CNT_RX_OVF_CNT (n : Nat) : Fld := ⟨rkey (0x50+n) 0 (0x074), 0, 8⟩
def CAN.TX_CNT_LATE_CNT (n : Nat) : Fld := ⟨rkey (0x50+n) 0 (0x074), 8, 8⟩
def CAN.TX_CNT_CANCEL_LATE_CNT (n : Nat) : Fld := ⟨rkey (0x50+n) 0 (0x074), 16, 8⟩
def CAN.TX_CNT_RETRY_CNT (n : Nat) : Fld := ⟨rkey (0x50+n) 0 (0x074), 24, 8⟩
def CAN.RX_FRAMES (n : Nat) : Fld := ⟨rkey (0x50+n) 0 (0x078), 0, 32⟩
def CAN.TX_FRAMES (n : Nat) : Fld := ⟨rkey (0x50+n) 0 (0x07C), 0, 32⟩
def CAN.DET_CFG_DWELL_MS (n : Nat) : Fld := ⟨rkey (0x50+n) 0 (0x080), 0, 8⟩
def CAN.DET_CFG_CONFIRM_N (n : Nat) : Fld := ⟨rkey (0x50+n) 0 (0x080), 8, 4⟩
def CAN.DET_STAT_RESULT (n : Nat) : Fld := ⟨rkey (0x50+n) 0 (0x084), 0, 4⟩
def CAN.DET_STAT_DONE (n : Nat) : Fld := ⟨rkey (0x50+n) 0 (0x084), 4, 1⟩
def CAN.DET_STAT_DATA_UNVERIFIED (n : Nat) : Fld := ⟨rkey (0x50+n) 0 (0x084), 5, 1⟩
def CAN.DET_STAT_SEARCHING (n : Nat) : Fld := ⟨rkey (0x50+n) 0 (0x084), 6, 1⟩
def CAN.DET_STAT_PASSES (n : Nat) : Fld := ⟨rkey (0x50+n) 0 (0x084), 8, 8⟩
def CAN.DET_STAT_CURRENT (n : Nat) : Fld := ⟨rkey (0x50+n) 0 (0x084), 16, 4⟩
def CAN.CAN_CMD_RECOVER (n : Nat) : Fld := ⟨rkey (0x50+n) 0 (0x088), 0, 1⟩
def CAN.CAND_NBT_VALUE (n k : Nat) : Fld := ⟨rkey (0x50+n) 0 (0x800 + 8*k), 0, 31⟩
def CAN.CAND_NBT_EN (n k : Nat) : Fld := ⟨rkey (0x50+n) 0 (0x800 + 8*k), 31, 1⟩
def CAN.CAND_DBT_VALUE (n k : Nat) : Fld := ⟨rkey (0x50+n) 0 (0x804 + 8*k), 0, 28⟩
def CAN.CAND_DBT_FD (n k : Nat) : Fld := ⟨rkey (0x50+n) 0 (0x804 + 8*k), 31, 1⟩
def CAN.FILT_ID_ID (n k : Nat) : Fld := ⟨rkey (0x50+n) 0 (0x880 + 8*k), 0, 29⟩
def CAN.FILT_ID_IDE (n k : Nat) : Fld := ⟨rkey (0x50+n) 0 (0x880 + 8*k), 29, 1⟩
def CAN.FILT_ID_EN (n k : Nat) : Fld := ⟨rkey (0x50+n) 0 (0x880 + 8*k), 31, 1⟩
def CAN.FILT_MASK_MASK (n k : Nat) : Fld := ⟨rkey (0x50+n) 0 (0x884 + 8*k), 0, 29⟩
def CAN.FILT_MASK_RING (n k : Nat) : Fld := ⟨rkey (0x50+n) 0 (0x884 + 8*k), 29, 1⟩

-- RDC: R374, R375
def RDC.ROLE_ROLE : Fld := ⟨rkey 0x05 0 (0x040), 0, 2⟩
def RDC.ROLE_WITNESS : Fld := ⟨rkey 0x05 0 (0x040), 2, 1⟩
def RDC.ROLE_PREFERRED : Fld := ⟨rkey 0x05 0 (0x040), 3, 1⟩
def RDC.ROLE_LEASE_VALID : Fld := ⟨rkey 0x05 0 (0x040), 4, 1⟩
def RDC.ROLE_DRIVING : Fld := ⟨rkey 0x05 0 (0x040), 5, 1⟩
def RDC.ROLE_LAPSED : Fld := ⟨rkey 0x05 0 (0x040), 6, 1⟩
def RDC.ROLE_DEGRADED : Fld := ⟨rkey 0x05 0 (0x040), 7, 1⟩
def RDC.STN_CFG_REDUNDANT : Fld := ⟨rkey 0x05 0 (0x044), 0, 1⟩
def RDC.STN_CFG_MEMBER : Fld := ⟨rkey 0x05 0 (0x044), 1, 1⟩
def RDC.STN_CFG_PREF_B : Fld := ⟨rkey 0x05 0 (0x044), 2, 1⟩
def RDC.STN_CFG_WIT_PATH : Fld := ⟨rkey 0x05 0 (0x044), 3, 1⟩
def RDC.STN_CFG_STATION : Fld := ⟨rkey 0x05 0 (0x044), 8, 8⟩
def RDC.STN_CFG_WIT_TX_SESS : Fld := ⟨rkey 0x05 0 (0x044), 16, 6⟩
def RDC.STN_CFG_WIT_RX_SESS : Fld := ⟨rkey 0x05 0 (0x044), 24, 6⟩
def RDC.PEER_SER_LO : Fld := ⟨rkey 0x05 0 (0x048), 0, 32⟩
def RDC.PEER_SER_HI : Fld := ⟨rkey 0x05 0 (0x04C), 0, 32⟩
def RDC.WIT_SER_LO : Fld := ⟨rkey 0x05 0 (0x050), 0, 32⟩
def RDC.WIT_SER_HI : Fld := ⟨rkey 0x05 0 (0x054), 0, 32⟩
def RDC.LEASE_STAT_WIT_LEASE : Fld := ⟨rkey 0x05 0 (0x058), 0, 1⟩
def RDC.LEASE_STAT_PEER_LEASE : Fld := ⟨rkey 0x05 0 (0x058), 1, 1⟩
def RDC.LEASE_STAT_SIGNED : Fld := ⟨rkey 0x05 0 (0x058), 2, 1⟩
def RDC.LEASE_STAT_PENDING : Fld := ⟨rkey 0x05 0 (0x058), 3, 1⟩
def RDC.LEASE_STAT_LEFT : Fld := ⟨rkey 0x05 0 (0x058), 16, 16⟩
def RDC.LINK_STAT_HB_OK : Fld := ⟨rkey 0x05 0 (0x05C), 0, 4⟩
def RDC.LINK_STAT_PEER_SEEN : Fld := ⟨rkey 0x05 0 (0x05C), 4, 1⟩
def RDC.LINK_STAT_WITNESS_SEEN : Fld := ⟨rkey 0x05 0 (0x05C), 5, 1⟩
def RDC.PEER_STAT_ROLE : Fld := ⟨rkey 0x05 0 (0x060), 0, 2⟩
def RDC.PEER_STAT_READY : Fld := ⟨rkey 0x05 0 (0x060), 2, 1⟩
def RDC.PEER_STAT_DRIVING : Fld := ⟨rkey 0x05 0 (0x060), 3, 1⟩
def RDC.PEER_STAT_SAFE_HOLD : Fld := ⟨rkey 0x05 0 (0x060), 4, 1⟩
def RDC.PEER_STAT_EXCLUDED : Fld := ⟨rkey 0x05 0 (0x060), 5, 1⟩
def RDC.PEER_STAT_HB_AGE_MS : Fld := ⟨rkey 0x05 0 (0x060), 16, 16⟩
def RDC.READY_STAT_READY : Fld := ⟨rkey 0x05 0 (0x064), 0, 1⟩
def RDC.READY_STAT_NR_AGE : Fld := ⟨rkey 0x05 0 (0x064), 1, 1⟩
def RDC.READY_STAT_NR_IMAGE : Fld := ⟨rkey 0x05 0 (0x064), 2, 1⟩
def RDC.READY_STAT_NR_PSET : Fld := ⟨rkey 0x05 0 (0x064), 3, 1⟩
def RDC.READY_STAT_NR_TIME : Fld := ⟨rkey 0x05 0 (0x064), 4, 1⟩
def RDC.READY_STAT_NR_CONFIG : Fld := ⟨rkey 0x05 0 (0x064), 5, 1⟩
def RDC.READY_STAT_CKPT_AGE_MS : Fld := ⟨rkey 0x05 0 (0x064), 16, 16⟩
def RDC.REVERT_CFG_HOLDOFF_MIN : Fld := ⟨rkey 0x05 0 (0x068), 0, 6⟩
def RDC.REVERT_CFG_REVERT_EN : Fld := ⟨rkey 0x05 0 (0x068), 8, 1⟩
def RDC.REVERT_STAT_INHIBITED : Fld := ⟨rkey 0x05 0 (0x06C), 0, 1⟩
def RDC.REVERT_STAT_WANTED : Fld := ⟨rkey 0x05 0 (0x06C), 1, 1⟩
def RDC.REVERT_STAT_HOLDOFF_LEFT_S : Fld := ⟨rkey 0x05 0 (0x06C), 16, 16⟩
def RDC.LAST_TO_CAUSE : Fld := ⟨rkey 0x05 0 (0x070), 0, 4⟩
def RDC.LAST_TO_DURATION_MS : Fld := ⟨rkey 0x05 0 (0x070), 16, 16⟩
def RDC.LAST_TO_TIME_LO : Fld := ⟨rkey 0x05 0 (0x074), 0, 32⟩
def RDC.LAST_TO_TIME_HI : Fld := ⟨rkey 0x05 0 (0x078), 0, 32⟩
def RDC.RDC_CNT0_TAKEOVER_CNT : Fld := ⟨rkey 0x05 0 (0x080), 0, 8⟩
def RDC.RDC_CNT0_HANDOVER_CNT : Fld := ⟨rkey 0x05 0 (0x080), 8, 8⟩
def RDC.RDC_CNT0_LAPSE_CNT : Fld := ⟨rkey 0x05 0 (0x080), 16, 8⟩
def RDC.RDC_CNT0_HB_MISS_CNT : Fld := ⟨rkey 0x05 0 (0x080), 24, 8⟩
def RDC.RDC_CNT1_REFUSED_CNT : Fld := ⟨rkey 0x05 0 (0x084), 0, 8⟩
def RDC.RDC_CNT1_FRAME_ERR_CNT : Fld := ⟨rkey 0x05 0 (0x084), 8, 8⟩
def RDC.RDC_CNT1_REVERT_CNT : Fld := ⟨rkey 0x05 0 (0x084), 16, 8⟩
def RDC.REV_CHAL (i : Nat) : Fld := ⟨rkey 0x05 0 (0x100 + 4*i), 0, 32⟩
def RDC.REV_RESP (i : Nat) : Fld := ⟨rkey 0x05 0 (0x120 + 4*i), 0, 32⟩
def RDC.HANDOVER_REQ : Fld := ⟨rkey 0x05 0 (0x400), 0, 32⟩
def RDC.REVERT_INHIBIT : Fld := ⟨rkey 0x05 0 (0x404), 0, 32⟩
def RDC.WM_CFG_EN (w : Nat) : Fld := ⟨rkey 0x05 0 (0x800 + 32*w), 0, 1⟩
def RDC.WM_CFG_MEMBER (w : Nat) : Fld := ⟨rkey 0x05 0 (0x800 + 32*w), 1, 1⟩
def RDC.WM_CFG_PATH (w : Nat) : Fld := ⟨rkey 0x05 0 (0x800 + 32*w), 2, 1⟩
def RDC.WM_CFG_STATION (w : Nat) : Fld := ⟨rkey 0x05 0 (0x800 + 32*w), 8, 8⟩
def RDC.WM_CFG_TX_SESS (w : Nat) : Fld := ⟨rkey 0x05 0 (0x800 + 32*w), 16, 6⟩
def RDC.WM_CFG_RX_SESS (w : Nat) : Fld := ⟨rkey 0x05 0 (0x800 + 32*w), 24, 6⟩
def RDC.WM_SER_LO (w : Nat) : Fld := ⟨rkey 0x05 0 (0x804 + 32*w), 0, 32⟩
def RDC.WM_SER_HI (w : Nat) : Fld := ⟨rkey 0x05 0 (0x808 + 32*w), 0, 32⟩
def RDC.WM_STAT_SEEN (w : Nat) : Fld := ⟨rkey 0x05 0 (0x80C + 32*w), 0, 1⟩
def RDC.WM_STAT_HOLDER (w : Nat) : Fld := ⟨rkey 0x05 0 (0x80C + 32*w), 1, 1⟩
def RDC.WM_STAT_READY (w : Nat) : Fld := ⟨rkey 0x05 0 (0x80C + 32*w), 2, 1⟩
def RDC.WM_STAT_PENDING (w : Nat) : Fld := ⟨rkey 0x05 0 (0x80C + 32*w), 3, 1⟩
def RDC.WM_STAT_LEFT (w : Nat) : Fld := ⟨rkey 0x05 0 (0x80C + 32*w), 16, 16⟩
def RDC.WM_CNT_GRANT_NEW_CNT (w : Nat) : Fld := ⟨rkey 0x05 0 (0x810 + 32*w), 0, 8⟩
def RDC.WM_CNT_REFUSE_CNT (w : Nat) : Fld := ⟨rkey 0x05 0 (0x810 + 32*w), 8, 8⟩
def RDC.WM_CNT_HB_MISS_CNT (w : Nat) : Fld := ⟨rkey 0x05 0 (0x810 + 32*w), 16, 8⟩

-- SLC: R376
def SLC.SLC_RING_TX0 : Fld := ⟨rkey 0x0C 0 (0x040), 0, 6⟩
def SLC.SLC_RING_TX1 : Fld := ⟨rkey 0x0C 0 (0x040), 8, 6⟩
def SLC.SLC_RING_RX0 : Fld := ⟨rkey 0x0C 0 (0x040), 16, 6⟩
def SLC.SLC_RING_RX1 : Fld := ⟨rkey 0x0C 0 (0x040), 24, 6⟩
def SLC.SLC_STAT_DIR : Fld := ⟨rkey 0x0C 0 (0x044), 0, 2⟩
def SLC.SLC_STAT_CONSISTENT : Fld := ⟨rkey 0x0C 0 (0x044), 2, 1⟩
def SLC.SLC_STAT_FULL_BUSY : Fld := ⟨rkey 0x0C 0 (0x044), 3, 1⟩
def SLC.SLC_STAT_RESTORING : Fld := ⟨rkey 0x0C 0 (0x044), 4, 1⟩
def SLC.SLC_STAT_CKPT_AGE_MS : Fld := ⟨rkey 0x0C 0 (0x044), 16, 16⟩
def SLC.SLC_SEQ : Fld := ⟨rkey 0x0C 0 (0x048), 0, 32⟩
def SLC.SLC_FULL_SEQ : Fld := ⟨rkey 0x0C 0 (0x04C), 0, 32⟩
def SLC.SLC_FULL_DURATION_MS : Fld := ⟨rkey 0x0C 0 (0x050), 0, 16⟩
def SLC.SLC_FULL_SIZE_64K : Fld := ⟨rkey 0x0C 0 (0x050), 16, 16⟩
def SLC.SLC_CNT0_SKIP_CNT : Fld := ⟨rkey 0x0C 0 (0x054), 0, 16⟩
def SLC.SLC_CNT0_GAP_CNT : Fld := ⟨rkey 0x0C 0 (0x054), 16, 8⟩
def SLC.SLC_CNT0_CRC_ERR_CNT : Fld := ⟨rkey 0x0C 0 (0x054), 24, 8⟩
def SLC.SLC_CNT1_DUP_CNT : Fld := ⟨rkey 0x0C 0 (0x058), 0, 16⟩
def SLC.SLC_CNT1_FULL_CNT : Fld := ⟨rkey 0x0C 0 (0x058), 16, 16⟩
def SLC.SLC_RATE_KBS : Fld := ⟨rkey 0x0C 0 (0x05C), 0, 32⟩
def SLC.SLC_RESTORE_US_LAST : Fld := ⟨rkey 0x0C 0 (0x060), 0, 16⟩
def SLC.SLC_APP_TOTAL_KB : Fld := ⟨rkey 0x0C 0 (0x064), 0, 17⟩
def SLC.APP_BASE (r : Nat) : Fld := ⟨rkey 0x0C 0 (0x800 + 16*r), 0, 32⟩
def SLC.APP_SIZE (r : Nat) : Fld := ⟨rkey 0x0C 0 (0x804 + 16*r), 0, 27⟩
def SLC.APP_CFG_EN (r : Nat) : Fld := ⟨rkey 0x0C 0 (0x808 + 16*r), 0, 1⟩
def SLC.APP_DIRTY (r : Nat) : Fld := ⟨rkey 0x0C 0 (0x80C + 16*r), 0, 18⟩

-- PSU: R394
def PSU.FEED_STAT_MAINS_OK : Fld := ⟨rkey 0x03 0 (0x040), 0, 1⟩
def PSU.FEED_STAT_AUX_OK : Fld := ⟨rkey 0x03 0 (0x040), 1, 1⟩
def PSU.FEED_STAT_SINGLE_FEED : Fld := ⟨rkey 0x03 0 (0x040), 2, 1⟩
def PSU.FEED_STAT_PFW : Fld := ⟨rkey 0x03 0 (0x040), 3, 1⟩
def PSU.FEED_STAT_ON_AUX : Fld := ⟨rkey 0x03 0 (0x040), 4, 1⟩
def PSU.MAINS_MEAS_VRMS : Fld := ⟨rkey 0x03 0 (0x044), 0, 16⟩
def PSU.MAINS_MEAS_FREQ : Fld := ⟨rkey 0x03 0 (0x044), 16, 16⟩
def PSU.AUX_MEAS_MV : Fld := ⟨rkey 0x03 0 (0x048), 0, 16⟩
def PSU.AUX_MEAS_MA : Fld := ⟨rkey 0x03 0 (0x048), 16, 16⟩
def PSU.BULK_POWER : Fld := ⟨rkey 0x03 0 (0x04C), 0, 16⟩
def PSU.BULK_VOLT : Fld := ⟨rkey 0x03 0 (0x04C), 16, 16⟩
def PSU.PF_THRESH : Fld := ⟨rkey 0x03 0 (0x050), 0, 16⟩
def PSU.HOLDUP_CAP : Fld := ⟨rkey 0x03 0 (0x054), 0, 16⟩
def PSU.HOLDUP_T120 : Fld := ⟨rkey 0x03 0 (0x054), 16, 16⟩
def PSU.PSU_CNT_PFW_CNT : Fld := ⟨rkey 0x03 0 (0x058), 0, 8⟩
def PSU.PSU_CNT_PFW_RECOVER_CNT : Fld := ⟨rkey 0x03 0 (0x058), 8, 8⟩
def PSU.PSU_CNT_MAINS_LOSS_CNT : Fld := ⟨rkey 0x03 0 (0x058), 16, 8⟩
def PSU.PSU_CNT_AUX_LOSS_CNT : Fld := ⟨rkey 0x03 0 (0x058), 24, 8⟩
def PSU.RAIL_STAT_OK : Fld := ⟨rkey 0x03 0 (0x05C), 0, 7⟩
def PSU.RAIL_STAT_FAULTED : Fld := ⟨rkey 0x03 0 (0x05C), 8, 7⟩
def PSU.RST_CAUSE_CAUSE : Fld := ⟨rkey 0x03 0 (0x060), 0, 3⟩
def PSU.RST_CAUSE_BUTTON_ACTION : Fld := ⟨rkey 0x03 0 (0x060), 8, 3⟩
def PSU.BOOT_TIME_BOOT_MS : Fld := ⟨rkey 0x03 0 (0x064), 0, 16⟩
def PSU.BOOT_TIME_TO_RUN_MS : Fld := ⟨rkey 0x03 0 (0x064), 16, 16⟩
def PSU.AUTO_RESTART_DELAY_S : Fld := ⟨rkey 0x03 0 (0x068), 0, 8⟩
def PSU.AUTO_RESTART_LIMIT : Fld := ⟨rkey 0x03 0 (0x068), 8, 4⟩
def PSU.AUTO_RESTART_COUNT : Fld := ⟨rkey 0x03 0 (0x068), 16, 4⟩

-- CIS: R411
def CIS.CIS_STAT_SAMPLING : Fld := ⟨rkey 0x08 0 (0x040), 0, 1⟩
def CIS.CIS_STAT_FLUSH_BUSY : Fld := ⟨rkey 0x08 0 (0x040), 1, 1⟩
def CIS.CIS_STAT_CKPT_LOST : Fld := ⟨rkey 0x08 0 (0x040), 2, 1⟩
def CIS.CIS_STAT_LOG_FULL : Fld := ⟨rkey 0x08 0 (0x040), 3, 1⟩
def CIS.CIS_STAT_EXPORT_BEHIND : Fld := ⟨rkey 0x08 0 (0x040), 4, 1⟩
def CIS.CIS_SEQ : Fld := ⟨rkey 0x08 0 (0x044), 0, 32⟩
def CIS.EXPORT_SEQ : Fld := ⟨rkey 0x08 0 (0x048), 0, 32⟩
def CIS.CIS_CFG_EXPORT_RING : Fld := ⟨rkey 0x08 0 (0x04C), 0, 6⟩
def CIS.CKPT_OPS : Fld := ⟨rkey 0x08 0 (0x050), 0, 32⟩
def CIS.HOUR_HEAD : Fld := ⟨rkey 0x08 0 (0x054), 0, 21⟩
def CIS.DAY_HEAD : Fld := ⟨rkey 0x08 0 (0x058), 0, 21⟩
def CIS.LOG_COUNT : Fld := ⟨rkey 0x08 0 (0x05C), 0, 12⟩
def CIS.CIS_CNT_CKPT_ERR_CNT : Fld := ⟨rkey 0x08 0 (0x060), 0, 8⟩
def CIS.CIS_CNT_EXPORT_LOST_CNT : Fld := ⟨rkey 0x08 0 (0x060), 8, 8⟩
def CIS.CIS_CNT_CLEAR_REFUSED_CNT : Fld := ⟨rkey 0x08 0 (0x060), 16, 8⟩
def CIS.CLEAR_SCOPE_STORES : Fld := ⟨rkey 0x08 0 (0x064), 0, 3⟩
def CIS.CLEAR_TRK_LO : Fld := ⟨rkey 0x08 0 (0x068), 0, 32⟩
def CIS.CLEAR_TRK_HI : Fld := ⟨rkey 0x08 0 (0x06C), 0, 32⟩
def CIS.TRK_SEL : Fld := ⟨rkey 0x08 0 (0x070), 0, 6⟩
def CIS.TRK_CFG_EN (t : Nat) : Fld := ⟨rkey 0x08 t (0x074), 0, 1⟩
def CIS.TRK_CFG_SRC (t : Nat) : Fld := ⟨rkey 0x08 t (0x074), 1, 1⟩
def CIS.TRK_CFG_FLOAT (t : Nat) : Fld := ⟨rkey 0x08 t (0x074), 2, 1⟩
def CIS.TRK_CFG_NBINS (t : Nat) : Fld := ⟨rkey 0x08 t (0x074), 8, 6⟩
def CIS.TRK_CFG_INTERVAL (t : Nat) : Fld := ⟨rkey 0x08 t (0x074), 16, 16⟩
def CIS.TRK_SRC_INDEX (t : Nat) : Fld := ⟨rkey 0x08 t (0x078), 0, 16⟩
def CIS.TRK_SRC_METRIC (t : Nat) : Fld := ⟨rkey 0x08 t (0x078), 16, 8⟩
def CIS.TRK_SCALE_SCALE_EXP (t : Nat) : Fld := ⟨rkey 0x08 t (0x07C), 0, 8⟩
def CIS.TRK_LO (t : Nat) : Fld := ⟨rkey 0x08 t (0x080), 0, 32⟩
def CIS.TRK_WIDTH (t : Nat) : Fld := ⟨rkey 0x08 t (0x084), 0, 32⟩
def CIS.TRK_DEF_CRC (t : Nat) : Fld := ⟨rkey 0x08 t (0x088), 0, 32⟩
def CIS.CIS_CHAL (i : Nat) : Fld := ⟨rkey 0x08 0 (0x100 + 4*i), 0, 32⟩
def CIS.CIS_RESP (i : Nat) : Fld := ⟨rkey 0x08 0 (0x120 + 4*i), 0, 32⟩
def CIS.CIS_CMD : Fld := ⟨rkey 0x08 0 (0x400), 0, 32⟩
def CIS.TRK_SUM_EN (t : Nat) : Fld := ⟨rkey 0x08 0 (0x800 + 4*t), 0, 1⟩
def CIS.TRK_SUM_LIFE_NEW (t : Nat) : Fld := ⟨rkey 0x08 0 (0x800 + 4*t), 1, 1⟩
def CIS.TRK_SUM_SAT (t : Nat) : Fld := ⟨rkey 0x08 0 (0x800 + 4*t), 2, 1⟩

-- MPL: R422
def MPL.MPL_STAT_LEARNING : Fld := ⟨rkey 0x02 0 (0x040), 0, 1⟩
def MPL.MPL_STAT_BASELINE_OK : Fld := ⟨rkey 0x02 0 (0x040), 1, 1⟩
def MPL.MPL_STAT_CAP_BUSY : Fld := ⟨rkey 0x02 0 (0x040), 2, 1⟩
def MPL.MPL_STAT_LEARN_LEFT_H : Fld := ⟨rkey 0x02 0 (0x040), 16, 16⟩
def MPL.MD_SUM_ADVISE : Fld := ⟨rkey 0x02 0 (0x044), 0, 8⟩
def MPL.MD_SUM_DUE : Fld := ⟨rkey 0x02 0 (0x044), 8, 8⟩
def MPL.MD_SUM_NOW : Fld := ⟨rkey 0x02 0 (0x044), 16, 8⟩
def MPL.MPL_CFG_LEAD_DAYS : Fld := ⟨rkey 0x02 0 (0x048), 0, 10⟩
def MPL.GRADE_FLOOR : Fld := ⟨rkey 0x02 0 (0x04C), 0, 32⟩
def MPL.GRADE_STAT_PENDING : Fld := ⟨rkey 0x02 0 (0x050), 0, 10⟩
def MPL.GRADE_STAT_BLOCKED : Fld := ⟨rkey 0x02 0 (0x050), 16, 10⟩
def MPL.LAST_REPLAN_DOMAIN : Fld := ⟨rkey 0x02 0 (0x054), 0, 4⟩
def MPL.LAST_REPLAN_FROM : Fld := ⟨rkey 0x02 0 (0x054), 4, 4⟩
def MPL.LAST_REPLAN_TO : Fld := ⟨rkey 0x02 0 (0x054), 8, 4⟩
def MPL.LAST_REPLAN_RESULT : Fld := ⟨rkey 0x02 0 (0x054), 12, 4⟩
def MPL.MPL_CNT_GRADE_CNT : Fld := ⟨rkey 0x02 0 (0x058), 0, 8⟩
def MPL.MPL_CNT_REFUSE_CNT : Fld := ⟨rkey 0x02 0 (0x058), 8, 8⟩
def MPL.MPL_CNT_CAP_ABORT_CNT : Fld := ⟨rkey 0x02 0 (0x058), 16, 8⟩
def MPL.MPL_CMD : Fld := ⟨rkey 0x02 0 (0x400), 0, 32⟩
def MPL.MON_VAL (m : Nat) : Fld := ⟨rkey 0x02 0 (0x800 + 16*m), 0, 32⟩
def MPL.MON_BASE (m : Nat) : Fld := ⟨rkey 0x02 0 (0x804 + 16*m), 0, 32⟩
def MPL.MON_LIMIT (m : Nat) : Fld := ⟨rkey 0x02 0 (0x808 + 16*m), 0, 32⟩
def MPL.MON_STAT_DEMAND (m : Nat) : Fld := ⟨rkey 0x02 0 (0x80C + 16*m), 0, 2⟩
def MPL.MON_STAT_VALID (m : Nat) : Fld := ⟨rkey 0x02 0 (0x80C + 16*m), 2, 1⟩
def MPL.MON_STAT_BASE_FACTORY (m : Nat) : Fld := ⟨rkey 0x02 0 (0x80C + 16*m), 3, 1⟩
def MPL.MON_STAT_PRED_DAYS (m : Nat) : Fld := ⟨rkey 0x02 0 (0x80C + 16*m), 16, 16⟩
def MPL.RECAL_INTERVAL_MIN (b : Nat) : Fld := ⟨rkey 0x02 0 (0xE00 + 4*b), 0, 16⟩
def MPL.RECAL_EXCLUDED (b : Nat) : Fld := ⟨rkey 0x02 0 (0xE00 + 4*b), 16, 2⟩
def MPL.RECAL_TRIO_FAIL (b : Nat) : Fld := ⟨rkey 0x02 0 (0xE00 + 4*b), 18, 1⟩

-- PNL: R436
def PNL.PNL_STAT_UPDATING : Fld := ⟨rkey 0x09 0 (0x040), 0, 1⟩
def PNL.PNL_STAT_HELD : Fld := ⟨rkey 0x09 0 (0x040), 1, 1⟩
def PNL.PNL_STAT_UPD_OPEN : Fld := ⟨rkey 0x09 0 (0x040), 2, 1⟩
def PNL.PNL_STAT_CLEANUP_PENDING : Fld := ⟨rkey 0x09 0 (0x040), 3, 1⟩
def PNL.PNL_STAT_BUDGET_OUT : Fld := ⟨rkey 0x09 0 (0x040), 4, 1⟩
def PNL.PNL_STAT_BLINKING : Fld := ⟨rkey 0x09 0 (0x040), 5, 1⟩
def PNL.PNL_STAT_CRACK : Fld := ⟨rkey 0x09 0 (0x040), 6, 1⟩
def PNL.PNL_STAT_LOOP_LOST : Fld := ⟨rkey 0x09 0 (0x040), 7, 1⟩
def PNL.PNL_STAT_FRAME_ERR : Fld := ⟨rkey 0x09 0 (0x040), 8, 1⟩
def PNL.PNL_STAT_STEP : Fld := ⟨rkey 0x09 0 (0x040), 9, 3⟩
def PNL.PNL_TEMP_TEMP : Fld := ⟨rkey 0x09 0 (0x044), 0, 16⟩
def PNL.PNL_TEMP_BAND : Fld := ⟨rkey 0x09 0 (0x044), 16, 4⟩
def PNL.PNL_TEMP_LATCHED : Fld := ⟨rkey 0x09 0 (0x044), 20, 4⟩
def PNL.PNL_CFG_HOLDOFF_MS : Fld := ⟨rkey 0x09 0 (0x048), 0, 16⟩
def PNL.PNL_CFG_BLINK_S : Fld := ⟨rkey 0x09 0 (0x048), 16, 6⟩
def PNL.PNL_CFG_DAY_BUDGET : Fld := ⟨rkey 0x09 0 (0x048), 22, 10⟩
def PNL.CRACK_OHM : Fld := ⟨rkey 0x09 0 (0x04C), 0, 16⟩
def PNL.WAVEFORMS : Fld := ⟨rkey 0x09 0 (0x050), 0, 32⟩
def PNL.PNL_CNT_ABORT_CNT : Fld := ⟨rkey 0x09 0 (0x054), 0, 8⟩
def PNL.PNL_CNT_CLEANUP_CNT : Fld := ⟨rkey 0x09 0 (0x054), 8, 8⟩
def PNL.PNL_CNT_FRAME_ERR_CNT : Fld := ⟨rkey 0x09 0 (0x054), 16, 8⟩
def PNL.PNL_CNT_INTERRUPTED_CNT : Fld := ⟨rkey 0x09 0 (0x054), 24, 8⟩
def PNL.DAY_USED_UPDATES : Fld := ⟨rkey 0x09 0 (0x058), 0, 16⟩
def PNL.DAY_USED_TOGGLES : Fld := ⟨rkey 0x09 0 (0x058), 16, 16⟩
def PNL.LED_STAT : Fld := ⟨rkey 0x09 0 (0x05C), 0, 20⟩
def PNL.IMG_CRC : Fld := ⟨rkey 0x09 0 (0x060), 0, 32⟩
def PNL.TEXT (i : Nat) : Fld := ⟨rkey 0x09 0 (0x100 + 4*i), 0, 32⟩
def PNL.PNL_CMD : Fld := ⟨rkey 0x09 0 (0x400), 0, 32⟩

end Sys2Proof.Machine
end

