-- ==== Sys2Proof/Machine/RegTable.lean ====
section
/-! DEFINITION. The page tables of the manual as data: for each kind of page, each field with its
offsets, bits, type (R40), reset value, whether an entry into BOOT keeps it (R466), the state in which a
write to it is refused (R41 and the class tables of the block chapters) and its range. -/

namespace Sys2Proof.Machine

/-- Field types (R40); a bit range in no row is RSV. -/
inductive FTy | rw | ro | rwh | cnt | grd | lat | wo
deriving DecidableEq, Repr

/-- The state in which a configuration write to the field is refused (R41). -/
inductive Lock | canMode | cfg | chCfgEn | chEn | chSafety | chSlot | ctxEn | dbgClosed | forceActive | free | hartOn | progLoading | psetLoading | ringEn | roleNotNone | serMode | serModeSet | sessEn | slotEn | slotLoading | slotNotEmpty | stnEn | trkEn | wmEn
deriving DecidableEq, Repr

/-- The range of a field: a value outside it is refused as ACCESS with cause 7 (R465). -/
inductive Check
  | any
  | range (lo hi : Nat)
  | aligned (n : Nat)
  | sjw (lo w hi : Nat)
  | anCfg
  | anLim
  | appEn
  | belowPeriod
  | casDeadline
  | blinkS
  | chType
  | filtSample
  | gradeFloor
  | irqPage
  | logInterval
  | lossMs
  | objIndex
  | scaleExp
  | tripSlot
  | tsValue
deriving DecidableEq, Repr

/-- One field of a page table: offsets base, base + stride, … (count of them), bits, type, reset. -/
structure Row where
  base : Nat
  stride : Nat
  count : Nat
  lo : Nat
  w : Nat
  ty : FTy
  reset : Nat
  keep : Bool
  lock : Lock
  check : Check
deriving DecidableEq, Repr

/-- Page table of HDR. -/
def rowsHDR : List Row :=
  [⟨0x000, 0, 1, 16, 16, .ro, 0x0, false, .free, .any⟩,
   ⟨0x000, 0, 1, 8, 8, .ro, 0x0, false, .free, .any⟩,
   ⟨0x000, 0, 1, 0, 8, .ro, 0x1, false, .free, .any⟩,
   ⟨0x004, 0, 1, 24, 8, .ro, 0x0, false, .free, .any⟩,
   ⟨0x004, 0, 1, 16, 8, .ro, 0x0, false, .free, .any⟩,
   ⟨0x004, 0, 1, 0, 16, .ro, 0x0, false, .free, .any⟩,
   ⟨0x008, 0, 1, 0, 32, .ro, 0x0, false, .free, .any⟩,
   ⟨0x00C, 0, 1, 0, 1, .rw, 0x0, false, .free, .any⟩,
   ⟨0x00C, 0, 1, 1, 1, .wo, 0x0, false, .free, .any⟩,
   ⟨0x010, 0, 1, 0, 1, .ro, 0x0, false, .free, .any⟩,
   ⟨0x010, 0, 1, 1, 1, .ro, 0x0, false, .free, .any⟩,
   ⟨0x010, 0, 1, 2, 1, .ro, 0x0, false, .free, .any⟩,
   ⟨0x010, 0, 1, 3, 1, .ro, 0x0, false, .free, .any⟩,
   ⟨0x010, 0, 1, 4, 1, .ro, 0x0, false, .free, .any⟩,
   ⟨0x010, 0, 1, 5, 1, .ro, 0x0, false, .free, .any⟩,
   ⟨0x010, 0, 1, 6, 1, .ro, 0x0, false, .free, .any⟩,
   ⟨0x010, 0, 1, 16, 16, .ro, 0x0, false, .free, .any⟩,
   ⟨0x014, 0, 1, 0, 32, .wo, 0x0, false, .free, .any⟩,
   ⟨0x018, 0, 1, 31, 1, .ro, 0x0, false, .free, .any⟩,
   ⟨0x018, 0, 1, 30, 1, .ro, 0x0, false, .free, .any⟩,
   ⟨0x018, 0, 1, 16, 8, .ro, 0x0, false, .free, .any⟩,
   ⟨0x018, 0, 1, 0, 16, .ro, 0x0, false, .free, .any⟩,
   ⟨0x01C, 0, 1, 0, 32, .rw, 0x0, false, .free, .any⟩,
   ⟨0x020, 0, 1, 3, 4, .ro, 0x0, false, .free, .any⟩,
   ⟨0x020, 0, 1, 16, 16, .ro, 0x0, false, .free, .any⟩,
   ⟨0x024, 0, 1, 0, 12, .ro, 0x0, false, .free, .any⟩,
   ⟨0x024, 0, 1, 12, 4, .ro, 0x0, false, .free, .any⟩,
   ⟨0x024, 0, 1, 16, 5, .ro, 0x0, false, .free, .any⟩,
   ⟨0x028, 0, 1, 24, 8, .cnt, 0x0, false, .free, .any⟩,
   ⟨0x028, 0, 1, 16, 8, .cnt, 0x0, false, .free, .any⟩,
   ⟨0x028, 0, 1, 8, 8, .cnt, 0x0, false, .free, .any⟩]

/-- Page table of SYS. -/
def rowsSYS : List Row :=
  [⟨0x040, 0, 1, 0, 32, .ro, 0x9601, true, .free, .any⟩,
   ⟨0x044, 0, 1, 0, 32, .lat, 0x42, true, .free, .any⟩,
   ⟨0x048, 0, 1, 0, 3, .ro, 0x0, false, .free, .any⟩,
   ⟨0x048, 0, 1, 8, 1, .ro, 0x1, false, .free, .any⟩,
   ⟨0x048, 0, 1, 9, 1, .ro, 0x0, false, .free, .any⟩,
   ⟨0x048, 0, 1, 10, 1, .ro, 0x0, false, .free, .any⟩,
   ⟨0x04C, 0, 1, 0, 8, .ro, 0x1, false, .free, .any⟩,
   ⟨0x050, 0, 1, 0, 1, .ro, 0x0, false, .free, .any⟩,
   ⟨0x050, 0, 1, 1, 1, .ro, 0x0, false, .free, .any⟩,
   ⟨0x050, 0, 1, 4, 4, .ro, 0x0, false, .free, .any⟩,
   ⟨0x054, 0, 1, 0, 8, .ro, 0x0, true, .free, .any⟩,
   ⟨0x054, 0, 1, 8, 2, .ro, 0x0, true, .free, .any⟩,
   ⟨0x058, 0, 1, 0, 1, .ro, 0x0, false, .free, .any⟩,
   ⟨0x058, 0, 1, 1, 1, .ro, 0x0, false, .free, .any⟩,
   ⟨0x060, 0, 1, 0, 16, .cnt, 0x0, false, .free, .any⟩,
   ⟨0x064, 0, 1, 0, 13, .ro, 0x0, false, .free, .any⟩,
   ⟨0x064, 0, 1, 16, 8, .ro, 0x0, false, .free, .any⟩,
   ⟨0x064, 0, 1, 24, 3, .ro, 0x0, false, .free, .any⟩,
   ⟨0x070, 0, 1, 0, 32, .ro, 0xff, false, .free, .any⟩,
   ⟨0x074, 4, 7, 0, 32, .ro, 0x0, false, .free, .any⟩,
   ⟨0x090, 0, 1, 0, 32, .ro, 0x7, false, .free, .any⟩,
   ⟨0x094, 4, 7, 0, 32, .ro, 0x0, false, .free, .any⟩,
   ⟨0x0B0, 4, 8, 0, 32, .rw, 0x0, false, .cfg, .any⟩,
   ⟨0x0D0, 4, 8, 0, 32, .ro, 0x0, false, .free, .any⟩,
   ⟨0x100, 0, 1, 0, 2, .ro, 0x0, false, .free, .any⟩,
   ⟨0x100, 0, 1, 2, 2, .ro, 0x0, false, .free, .any⟩,
   ⟨0x100, 0, 1, 4, 1, .ro, 0x0, false, .free, .any⟩,
   ⟨0x100, 0, 1, 5, 1, .ro, 0x0, false, .free, .any⟩,
   ⟨0x104, 0, 1, 0, 32, .ro, 0x0, false, .free, .any⟩,
   ⟨0x108, 0, 1, 0, 32, .ro, 0x0, false, .free, .any⟩,
   ⟨0x110, 0, 1, 0, 32, .rw, 0x0, false, .free, .any⟩,
   ⟨0x114, 0, 1, 0, 32, .rw, 0x0, false, .free, .any⟩,
   ⟨0x400, 0, 1, 0, 32, .grd, 0x0, false, .free, .any⟩,
   ⟨0x404, 0, 1, 0, 32, .grd, 0x0, false, .free, .any⟩,
   ⟨0x408, 0, 1, 0, 32, .grd, 0x0, false, .free, .any⟩,
   ⟨0x40C, 0, 1, 0, 1, .grd, 0x0, true, .free, .any⟩]

/-- Page table of CLO. -/
def rowsCLO : List Row :=
  [⟨0x040, 0, 1, 0, 1, .ro, 0x0, false, .free, .any⟩,
   ⟨0x040, 0, 1, 1, 1, .ro, 0x0, false, .free, .any⟩,
   ⟨0x040, 0, 1, 2, 1, .ro, 0x0, false, .free, .any⟩,
   ⟨0x044, 0, 1, 0, 32, .ro, 0x0, true, .free, .any⟩,
   ⟨0x048, 0, 1, 0, 32, .ro, 0x0, true, .free, .any⟩,
   ⟨0x04C, 0, 1, 0, 11, .rw, 0x0, false, .free, .any⟩,
   ⟨0x050, 0, 1, 0, 11, .ro, 0x0, false, .free, .any⟩,
   ⟨0x054, 0, 1, 0, 11, .ro, 0x0, false, .free, .any⟩,
   ⟨0x058, 0, 1, 0, 11, .ro, 0x0, false, .free, .any⟩,
   ⟨0x060, 0, 1, 0, 1, .ro, 0x0, false, .free, .any⟩,
   ⟨0x060, 0, 1, 1, 1, .ro, 0x0, false, .free, .any⟩,
   ⟨0x060, 0, 1, 16, 16, .ro, 0x0, false, .free, .any⟩,
   ⟨0x800, 8, 11, 0, 1, .ro, 0x0, false, .free, .any⟩,
   ⟨0x800, 8, 11, 1, 1, .ro, 0x0, false, .free, .any⟩,
   ⟨0x800, 8, 11, 2, 1, .ro, 0x0, false, .free, .any⟩,
   ⟨0x800, 8, 11, 3, 1, .ro, 0x0, false, .free, .any⟩,
   ⟨0x800, 8, 11, 4, 4, .ro, 0x0, false, .free, .any⟩,
   ⟨0x800, 8, 11, 16, 16, .ro, 0x0, false, .free, .any⟩,
   ⟨0x804, 8, 11, 0, 8, .cnt, 0x0, false, .free, .any⟩,
   ⟨0x804, 8, 11, 8, 8, .cnt, 0x0, false, .free, .any⟩]

/-- Page table of TKU. -/
def rowsTKU : List Row :=
  [⟨0x040, 0, 1, 0, 32, .ro, 0x0, false, .free, .any⟩,
   ⟨0x044, 0, 1, 0, 32, .lat, 0x0, false, .free, .any⟩,
   ⟨0x048, 0, 1, 0, 32, .lat, 0x0, false, .free, .any⟩,
   ⟨0x050, 0, 1, 0, 32, .rwh, 0x0, false, .free, .any⟩,
   ⟨0x054, 0, 1, 0, 8, .lat, 0x28, false, .free, .any⟩,
   ⟨0x058, 0, 1, 0, 1, .rw, 0x1, false, .free, .any⟩,
   ⟨0x058, 0, 1, 1, 1, .rw, 0x0, false, .free, .any⟩,
   ⟨0x058, 0, 1, 2, 1, .wo, 0x0, false, .free, .any⟩,
   ⟨0x05C, 0, 1, 0, 16, .rw, 0x2ccd, false, .free, .any⟩,
   ⟨0x05C, 0, 1, 16, 16, .rw, 0x1333, false, .free, .any⟩,
   ⟨0x060, 0, 1, 0, 32, .wo, 0x0, false, .free, .any⟩,
   ⟨0x064, 0, 1, 0, 32, .lat, 0x0, false, .free, .any⟩,
   ⟨0x068, 0, 1, 0, 8, .rw, 0xfd, false, .free, .logInterval⟩,
   ⟨0x06C, 0, 1, 0, 32, .rw, 0xf4240, false, .free, .any⟩,
   ⟨0x070, 0, 1, 0, 32, .rw, 0x3e8, false, .free, .any⟩,
   ⟨0x074, 0, 1, 0, 16, .rw, 0xbb8, false, .free, .any⟩,
   ⟨0x078, 0, 1, 0, 1, .ro, 0x0, false, .free, .any⟩,
   ⟨0x078, 0, 1, 1, 1, .ro, 0x0, false, .free, .any⟩,
   ⟨0x078, 0, 1, 2, 1, .ro, 0x0, false, .free, .any⟩,
   ⟨0x078, 0, 1, 3, 1, .ro, 0x0, false, .free, .any⟩,
   ⟨0x078, 0, 1, 4, 1, .ro, 0x0, false, .free, .any⟩,
   ⟨0x078, 0, 1, 5, 1, .ro, 0x0, false, .free, .any⟩,
   ⟨0x078, 0, 1, 6, 1, .ro, 0x0, false, .free, .any⟩,
   ⟨0x07C, 0, 1, 0, 32, .ro, 0x0, false, .free, .any⟩,
   ⟨0x080, 0, 1, 0, 32, .ro, 0x0, false, .free, .any⟩,
   ⟨0x084, 0, 1, 0, 32, .lat, 0x0, false, .free, .any⟩,
   ⟨0x088, 0, 1, 0, 32, .ro, 0x0, false, .free, .any⟩,
   ⟨0x090, 0, 1, 0, 32, .ro, 0x0, false, .free, .any⟩,
   ⟨0x094, 0, 1, 0, 32, .lat, 0x0, false, .free, .any⟩,
   ⟨0x098, 0, 1, 0, 32, .ro, 0x0, false, .free, .any⟩,
   ⟨0x09C, 0, 1, 0, 32, .lat, 0x0, false, .free, .any⟩,
   ⟨0x0A0, 0, 1, 0, 16, .ro, 0x0, false, .free, .any⟩,
   ⟨0x0A4, 0, 1, 0, 16, .cnt, 0x0, false, .free, .any⟩,
   ⟨0x0A8, 0, 1, 0, 16, .rw, 0x25, false, .free, .any⟩,
   ⟨0x0AC, 0, 1, 0, 18, .ro, 0x0, false, .free, .any⟩,
   ⟨0x400, 0, 1, 0, 1, .grd, 0x0, false, .free, .any⟩]

/-- Page table of LSQ, part 1. -/
def rowsLSQ0 : List Row :=
  [⟨0x040, 0, 1, 0, 1, .ro, 0x0, false, .free, .any⟩,
   ⟨0x040, 0, 1, 1, 1, .ro, 0x0, false, .free, .any⟩,
   ⟨0x040, 0, 1, 2, 1, .ro, 0x0, false, .free, .any⟩,
   ⟨0x040, 0, 1, 3, 1, .ro, 0x0, false, .free, .any⟩,
   ⟨0x040, 0, 1, 8, 4, .ro, 0xf, false, .free, .any⟩,
   ⟨0x044, 0, 1, 0, 16, .ro, 0x0, false, .free, .any⟩,
   ⟨0x044, 0, 1, 16, 16, .ro, 0x1f40, false, .free, .any⟩,
   ⟨0x048, 0, 1, 0, 4, .rw, 0x0, false, .free, (.range 0 9)⟩,
   ⟨0x04C, 0, 1, 0, 14, .ro, 0x0, false, .free, .any⟩,
   ⟨0x04C, 0, 1, 15, 1, .ro, 0x0, false, .free, .any⟩,
   ⟨0x04C, 0, 1, 16, 3, .ro, 0x0, false, .free, .any⟩,
   ⟨0x04C, 0, 1, 19, 1, .ro, 0x0, false, .free, .any⟩,
   ⟨0x050, 0, 1, 0, 17, .ro, 0x0, false, .free, .any⟩,
   ⟨0x054, 0, 1, 0, 32, .ro, 0x0, false, .free, .any⟩,
   ⟨0x058, 0, 1, 0, 3, .ro, 0x0, false, .free, .any⟩,
   ⟨0x058, 0, 1, 3, 1, .ro, 0x0, false, .free, .any⟩,
   ⟨0x058, 0, 1, 8, 4, .ro, 0x0, false, .free, .any⟩,
   ⟨0x05C, 0, 1, 0, 32, .ro, 0x0, false, .free, .any⟩,
   ⟨0x060, 0, 1, 0, 8, .cnt, 0x0, false, .free, .any⟩,
   ⟨0x060, 0, 1, 8, 8, .cnt, 0x0, false, .free, .any⟩,
   ⟨0x060, 0, 1, 16, 8, .cnt, 0x0, false, .free, .any⟩,
   ⟨0x064, 0, 1, 0, 16, .ro, 0x0, false, .free, .any⟩,
   ⟨0x064, 0, 1, 16, 16, .rwh, 0x0, false, .free, .any⟩,
   ⟨0x068, 0, 1, 0, 32, .ro, 0x0, false, .free, .any⟩,
   ⟨0x06C, 0, 1, 0, 32, .lat, 0x0, false, .free, .any⟩,
   ⟨0x070, 0, 1, 0, 1, .ro, 0x0, false, .free, .any⟩,
   ⟨0x070, 0, 1, 1, 1, .ro, 0x0, false, .free, .any⟩,
   ⟨0x070, 0, 1, 2, 1, .ro, 0x0, false, .free, .any⟩,
   ⟨0x070, 0, 1, 3, 1, .ro, 0x0, false, .free, .any⟩,
   ⟨0x070, 0, 1, 4, 1, .ro, 0x0, false, .free, .any⟩,
   ⟨0x070, 0, 1, 5, 1, .ro, 0x0, false, .free, .any⟩,
   ⟨0x070, 0, 1, 6, 1, .ro, 0x0, false, .free, .any⟩,
   ⟨0x070, 0, 1, 8, 4, .ro, 0x0, false, .free, .any⟩,
   ⟨0x070, 0, 1, 16, 6, .ro, 0x0, false, .free, .any⟩,
   ⟨0x080, 0, 1, 0, 32, .rw, 0x0, false, .progLoading, .any⟩,
   ⟨0x084, 0, 1, 0, 32, .rw, 0x0, false, .progLoading, .any⟩,
   ⟨0x088, 0, 1, 0, 2, .ro, 0x0, false, .free, .any⟩,
   ⟨0x088, 0, 1, 4, 4, .ro, 0x0, false, .free, .any⟩,
   ⟨0x088, 0, 1, 8, 4, .ro, 0x0, false, .free, .any⟩,
   ⟨0x08C, 0, 1, 0, 32, .ro, 0x0, false, .free, .any⟩]

/-- Page table of LSQ, part 2. -/
def rowsLSQ1 : List Row :=
  [⟨0x090, 0, 1, 0, 32, .ro, 0x0, false, .free, .any⟩,
   ⟨0x094, 0, 1, 0, 32, .ro, 0x0, false, .free, .any⟩,
   ⟨0x098, 0, 1, 0, 32, .lat, 0x0, false, .free, .any⟩,
   ⟨0x0A0, 0, 1, 0, 13, .rw, 0x0, false, .free, .objIndex⟩,
   ⟨0x0A0, 0, 1, 16, 2, .rw, 0x0, false, .free, .objIndex⟩,
   ⟨0x0A4, 0, 1, 0, 32, .ro, 0x0, false, .free, .any⟩,
   ⟨0x0A8, 0, 1, 0, 32, .ro, 0x0, false, .free, .any⟩,
   ⟨0x0AC, 0, 1, 0, 32, .ro, 0x0, false, .free, .any⟩,
   ⟨0x0B0, 0, 1, 0, 32, .lat, 0x0, false, .free, .any⟩,
   ⟨0x0C0, 0, 1, 0, 4, .rw, 0x0, false, .free, .any⟩,
   ⟨0x0C0, 0, 1, 8, 8, .rw, 0x0, false, .free, .any⟩,
   ⟨0x0C4, 0, 1, 0, 32, .rw, 0x0, false, .free, .any⟩,
   ⟨0x100, 0, 1, 0, 8, .rw, 0x0, false, .free, .any⟩,
   ⟨0x104, 0, 1, 0, 13, .rw, 0x0, false, .forceActive, .any⟩,
   ⟨0x104, 0, 1, 16, 1, .rw, 0x0, false, .forceActive, .any⟩,
   ⟨0x108, 0, 1, 0, 32, .rw, 0x0, false, .free, .any⟩,
   ⟨0x10C, 0, 1, 0, 1, .ro, 0x0, false, .free, .any⟩,
   ⟨0x10C, 0, 1, 1, 1, .ro, 0x0, false, .free, .any⟩,
   ⟨0x10C, 0, 1, 2, 1, .ro, 0x0, false, .free, .any⟩,
   ⟨0x110, 0, 1, 0, 9, .ro, 0x0, false, .free, .any⟩,
   ⟨0x114, 0, 1, 0, 1, .ro, 0x0, false, .free, .any⟩,
   ⟨0x114, 0, 1, 16, 16, .ro, 0x0, false, .free, .any⟩,
   ⟨0x118, 0, 1, 0, 16, .cnt, 0x0, false, .free, .any⟩,
   ⟨0x120, 4, 8, 0, 32, .ro, 0x0, false, .free, .any⟩,
   ⟨0x140, 4, 8, 0, 32, .rw, 0x0, false, .free, .any⟩,
   ⟨0x400, 0, 1, 0, 32, .grd, 0x0, false, .free, .any⟩,
   ⟨0x404, 0, 1, 0, 32, .grd, 0x0, false, .free, .any⟩,
   ⟨0x408, 0, 1, 0, 8, .grd, 0x0, false, .free, .any⟩,
   ⟨0x410, 0, 1, 0, 32, .grd, 0x0, false, .free, .any⟩,
   ⟨0x414, 0, 1, 0, 32, .grd, 0x0, false, .free, .any⟩,
   ⟨0x800, 32, 16, 0, 1, .rw, 0x0, false, .free, .any⟩,
   ⟨0x800, 32, 16, 1, 3, .rw, 0x0, false, .stnEn, .any⟩,
   ⟨0x800, 32, 16, 4, 1, .rw, 0x0, false, .stnEn, .any⟩,
   ⟨0x800, 32, 16, 16, 10, .rw, 0x0, false, .stnEn, (.range 1 1000)⟩,
   ⟨0x804, 32, 16, 0, 32, .rw, 0x0, false, .stnEn, .any⟩,
   ⟨0x808, 32, 16, 0, 13, .rw, 0x0, false, .stnEn, .any⟩,
   ⟨0x808, 32, 16, 16, 9, .rw, 0x0, false, .stnEn, (.range 0 256)⟩,
   ⟨0x80C, 32, 16, 0, 13, .rw, 0x0, false, .stnEn, .any⟩,
   ⟨0x80C, 32, 16, 16, 9, .rw, 0x0, false, .stnEn, (.range 0 256)⟩,
   ⟨0x810, 32, 16, 0, 16, .rw, 0x32, false, .free, .lossMs⟩]

/-- Page table of LSQ, part 3. -/
def rowsLSQ2 : List Row :=
  [⟨0x810, 32, 16, 16, 8, .rw, 0x3, false, .free, (.range 1 255)⟩,
   ⟨0x810, 32, 16, 24, 2, .rw, 0x0, false, .free, (.range 0 2)⟩,
   ⟨0x814, 32, 16, 0, 2, .ro, 0x0, false, .free, .any⟩,
   ⟨0x814, 32, 16, 8, 8, .ro, 0x0, false, .free, .any⟩,
   ⟨0x814, 32, 16, 16, 16, .ro, 0x0, false, .free, .any⟩,
   ⟨0x818, 32, 16, 0, 16, .cnt, 0x0, false, .free, .any⟩,
   ⟨0x818, 32, 16, 16, 16, .cnt, 0x0, false, .free, .any⟩,
   ⟨0x81C, 32, 16, 0, 32, .ro, 0x0, false, .free, .any⟩]

/-- Page table of LSQ. -/
def rowsLSQ : List Row := rowsLSQ0 ++ rowsLSQ1 ++ rowsLSQ2

/-- Page table of LPE. -/
def rowsLPE : List Row :=
  [⟨0x040, 0, 1, 0, 8, .ro, 0x20, false, .free, .any⟩,
   ⟨0x040, 0, 1, 16, 16, .ro, 0xfa, false, .free, .any⟩,
   ⟨0x044, 0, 1, 0, 32, .ro, 0x0, false, .free, .any⟩,
   ⟨0x048, 0, 1, 0, 32, .ro, 0x61a800, false, .free, .any⟩,
   ⟨0x04C, 0, 1, 0, 32, .ro, 0x0, false, .free, .any⟩,
   ⟨0x050, 0, 1, 0, 32, .ro, 0x6ddd00, false, .free, .any⟩,
   ⟨0x054, 0, 1, 0, 8, .ro, 0x0, false, .free, .any⟩,
   ⟨0x054, 0, 1, 8, 3, .ro, 0x0, false, .free, .any⟩,
   ⟨0x054, 0, 1, 16, 7, .ro, 0x0, false, .free, .any⟩,
   ⟨0x058, 0, 1, 0, 8, .cnt, 0x0, false, .free, .any⟩,
   ⟨0x05C, 0, 1, 0, 16, .rw, 0x0, false, .free, .any⟩,
   ⟨0x05C, 0, 1, 16, 1, .ro, 0x0, false, .free, .any⟩,
   ⟨0x05C, 0, 1, 17, 1, .ro, 0x0, false, .free, .any⟩,
   ⟨0x05C, 0, 1, 18, 1, .ro, 0x0, false, .free, .any⟩,
   ⟨0x05C, 0, 1, 19, 1, .ro, 0x0, false, .free, .any⟩,
   ⟨0x060, 0, 1, 0, 8, .ro, 0x0, false, .free, .any⟩,
   ⟨0x060, 0, 1, 8, 8, .ro, 0x0, false, .free, .any⟩,
   ⟨0x060, 0, 1, 16, 8, .ro, 0x0, false, .free, .any⟩,
   ⟨0x060, 0, 1, 24, 8, .ro, 0x0, false, .free, .any⟩,
   ⟨0x064, 0, 1, 0, 8, .ro, 0x0, false, .free, .any⟩,
   ⟨0x068, 0, 1, 0, 16, .ro, 0x0, false, .free, .any⟩,
   ⟨0x068, 0, 1, 16, 16, .rwh, 0x0, false, .free, .any⟩,
   ⟨0x06C, 0, 1, 0, 16, .cnt, 0x0, false, .free, .any⟩,
   ⟨0x06C, 0, 1, 16, 16, .cnt, 0x0, false, .free, .any⟩,
   ⟨0x070, 0, 1, 0, 16, .cnt, 0x0, false, .free, .any⟩,
   ⟨0x074, 0, 1, 0, 22, .ro, 0x0, false, .free, .any⟩,
   ⟨0x800, 4, 128, 0, 3, .ro, 0x0, false, .free, .any⟩,
   ⟨0x800, 4, 128, 3, 1, .ro, 0x0, false, .free, .any⟩,
   ⟨0x800, 4, 128, 4, 4, .ro, 0x0, false, .free, .any⟩]

/-- Page table of CTX, part 1. -/
def rowsCTX0 : List Row :=
  [⟨0x040, 0, 1, 0, 7, .rw, 0x0, false, .free, .any⟩,
   ⟨0x044, 0, 1, 0, 1, .rw, 0x0, false, .free, .any⟩,
   ⟨0x044, 0, 1, 1, 2, .rw, 0x0, false, .free, (.range 0 2)⟩,
   ⟨0x044, 0, 1, 3, 1, .rw, 0x0, false, .free, .any⟩,
   ⟨0x044, 0, 1, 4, 2, .rw, 0x0, false, .free, (.range 0 2)⟩,
   ⟨0x044, 0, 1, 6, 1, .rw, 0x1, false, .free, .any⟩,
   ⟨0x048, 0, 1, 0, 6, .rw, 0x0, false, .ctxEn, (.range 1 32)⟩,
   ⟨0x048, 0, 1, 8, 5, .rw, 0x0, false, .ctxEn, (.range 1 16)⟩,
   ⟨0x048, 0, 1, 16, 5, .rw, 0x0, false, .ctxEn, (.range 1 16)⟩,
   ⟨0x048, 0, 1, 24, 5, .rw, 0x0, false, .ctxEn, (.range 0 16)⟩,
   ⟨0x04C, 0, 1, 0, 14, .rw, 0x0, false, .ctxEn, (.range 1 10000)⟩,
   ⟨0x04C, 0, 1, 16, 14, .rw, 0x0, false, .ctxEn, .belowPeriod⟩,
   ⟨0x050, 0, 1, 0, 16, .rw, 0x0, false, .free, .any⟩,
   ⟨0x050, 0, 1, 16, 8, .rw, 0x3, false, .free, (.range 1 255)⟩,
   ⟨0x050, 0, 1, 24, 4, .rw, 0x2, false, .free, (.range 1 15)⟩,
   ⟨0x054, 0, 1, 0, 16, .rw, 0x3e8, false, .free, (.range 1 65535)⟩,
   ⟨0x054, 0, 1, 16, 8, .rw, 0x4, false, .free, (.range 1 255)⟩,
   ⟨0x058, 0, 1, 0, 16, .rw, 0x0, false, .free, .any⟩,
   ⟨0x05C, 0, 1, 0, 13, .rw, 0x0, false, .ctxEn, .any⟩,
   ⟨0x060, 0, 1, 0, 3, .ro, 0x0, false, .free, .any⟩,
   ⟨0x060, 0, 1, 3, 1, .ro, 0x0, false, .free, .any⟩,
   ⟨0x060, 0, 1, 4, 4, .ro, 0x0, false, .free, .any⟩,
   ⟨0x060, 0, 1, 8, 1, .ro, 0x0, false, .free, .any⟩,
   ⟨0x060, 0, 1, 9, 1, .ro, 0x0, false, .free, .any⟩,
   ⟨0x060, 0, 1, 10, 1, .ro, 0x0, false, .free, .any⟩,
   ⟨0x060, 0, 1, 11, 1, .ro, 0x0, false, .free, .any⟩,
   ⟨0x060, 0, 1, 16, 2, .ro, 0x0, false, .free, .any⟩,
   ⟨0x064, 0, 1, 0, 16, .ro, 0x0, false, .free, .any⟩,
   ⟨0x064, 0, 1, 16, 16, .ro, 0x0, false, .free, .any⟩,
   ⟨0x068, 0, 1, 0, 16, .ro, 0x0, false, .free, .any⟩,
   ⟨0x06C, 0, 1, 0, 8, .cnt, 0x0, false, .free, .any⟩,
   ⟨0x06C, 0, 1, 8, 8, .cnt, 0x0, false, .free, .any⟩,
   ⟨0x06C, 0, 1, 16, 8, .cnt, 0x0, false, .free, .any⟩,
   ⟨0x06C, 0, 1, 24, 8, .cnt, 0x0, false, .free, .any⟩,
   ⟨0x070, 0, 1, 0, 16, .cnt, 0x0, false, .free, .any⟩,
   ⟨0x070, 0, 1, 16, 8, .cnt, 0x0, false, .free, .any⟩,
   ⟨0x070, 0, 1, 24, 8, .cnt, 0x0, false, .free, .any⟩,
   ⟨0x074, 0, 1, 0, 32, .ro, 0x0, false, .free, .any⟩,
   ⟨0x078, 0, 1, 0, 16, .ro, 0x0, false, .free, .any⟩,
   ⟨0x078, 0, 1, 16, 8, .ro, 0x0, false, .free, .any⟩]

/-- Page table of CTX, part 2. -/
def rowsCTX1 : List Row :=
  [⟨0x07C, 0, 1, 0, 16, .ro, 0x0, false, .free, .any⟩,
   ⟨0x080, 0, 1, 0, 16, .ro, 0x0, false, .free, .any⟩,
   ⟨0x080, 0, 1, 16, 16, .rwh, 0x0, false, .free, .any⟩,
   ⟨0x400, 0, 1, 0, 32, .grd, 0x0, false, .free, .any⟩,
   ⟨0x800, 16, 16, 0, 13, .rw, 0x0, false, .ctxEn, .any⟩,
   ⟨0x800, 16, 16, 16, 16, .rw, 0x0, false, .ctxEn, .any⟩,
   ⟨0x804, 16, 16, 0, 32, .rw, 0x8000, false, .ctxEn, .any⟩,
   ⟨0x900, 16, 16, 0, 13, .rw, 0x0, false, .ctxEn, .any⟩,
   ⟨0x900, 16, 16, 16, 13, .rw, 0x0, false, .ctxEn, .any⟩,
   ⟨0x900, 16, 16, 29, 2, .rw, 0x0, false, .ctxEn, (.range 0 2)⟩,
   ⟨0x904, 16, 16, 0, 13, .rw, 0x0, false, .ctxEn, .any⟩,
   ⟨0x904, 16, 16, 13, 1, .rw, 0x0, false, .ctxEn, .any⟩,
   ⟨0xA00, 4, 16, 0, 13, .rw, 0x0, false, .ctxEn, .any⟩]

/-- Page table of CTX. -/
def rowsCTX : List Row := rowsCTX0 ++ rowsCTX1

/-- Page table of CAS. -/
def rowsCAS : List Row :=
  [⟨0x040, 0, 1, 0, 8, .ro, 0x40, false, .free, .any⟩,
   ⟨0x040, 0, 1, 16, 16, .ro, 0x190, false, .free, .any⟩,
   ⟨0x044, 0, 1, 0, 16, .ro, 0x0, false, .free, .any⟩,
   ⟨0x044, 0, 1, 16, 16, .ro, 0x6000, false, .free, .any⟩,
   ⟨0x048, 0, 1, 0, 16, .ro, 0x0, false, .free, .any⟩,
   ⟨0x048, 0, 1, 16, 16, .ro, 0x1f40, false, .free, .any⟩,
   ⟨0x04C, 0, 1, 0, 16, .ro, 0x0, false, .free, .any⟩,
   ⟨0x04C, 0, 1, 16, 16, .ro, 0x2328, false, .free, .any⟩,
   ⟨0x050, 0, 1, 0, 32, .ro, 0x4e20, false, .free, .any⟩,
   ⟨0x054, 0, 1, 0, 5, .ro, 0x0, false, .free, .any⟩,
   ⟨0x054, 0, 1, 8, 3, .ro, 0x0, false, .free, .any⟩,
   ⟨0x054, 0, 1, 16, 4, .ro, 0x0, false, .free, .any⟩,
   ⟨0x058, 0, 1, 0, 8, .cnt, 0x0, false, .free, .any⟩,
   ⟨0x05C, 0, 1, 0, 16, .rw, 0x0, false, .free, .any⟩,
   ⟨0x05C, 0, 1, 16, 1, .ro, 0x0, false, .free, .any⟩,
   ⟨0x05C, 0, 1, 17, 1, .ro, 0x0, false, .free, .any⟩,
   ⟨0x05C, 0, 1, 18, 1, .ro, 0x0, false, .free, .any⟩,
   ⟨0x05C, 0, 1, 19, 1, .ro, 0x0, false, .free, .any⟩,
   ⟨0x05C, 0, 1, 20, 1, .ro, 0x0, false, .free, .any⟩,
   ⟨0x060, 0, 1, 0, 16, .cnt, 0x0, false, .free, .any⟩,
   ⟨0x060, 0, 1, 16, 16, .cnt, 0x0, false, .free, .any⟩,
   ⟨0x064, 0, 1, 0, 16, .cnt, 0x0, false, .free, .any⟩,
   ⟨0x068, 0, 1, 0, 25, .ro, 0x0, false, .free, .any⟩,
   ⟨0x06C, 0, 1, 0, 16, .ro, 0x0, false, .free, .any⟩,
   ⟨0x06C, 0, 1, 16, 16, .rwh, 0x0, false, .free, .any⟩,
   ⟨0x800, 4, 16, 0, 3, .ro, 0x0, false, .free, .any⟩,
   ⟨0x800, 4, 16, 3, 1, .ro, 0x0, false, .free, .any⟩,
   ⟨0x800, 4, 16, 4, 4, .ro, 0x0, false, .free, .any⟩,
   ⟨0x800, 4, 16, 8, 1, .ro, 0x0, false, .free, .any⟩,
   ⟨0x800, 4, 16, 9, 1, .ro, 0x0, false, .free, .any⟩]

/-- Page table of SLOT, part 1. -/
def rowsSLOT0 : List Row :=
  [⟨0x040, 0, 1, 0, 4, .rw, 0x0, false, .free, .any⟩,
   ⟨0x044, 0, 1, 0, 1, .rw, 0x0, false, .free, .any⟩,
   ⟨0x044, 0, 1, 1, 2, .ro, 0x0, false, .free, .any⟩,
   ⟨0x044, 0, 1, 3, 1, .rw, 0x0, false, .free, .any⟩,
   ⟨0x044, 0, 1, 4, 1, .rw, 0x1, false, .free, .any⟩,
   ⟨0x044, 0, 1, 5, 1, .rw, 0x1, false, .free, .any⟩,
   ⟨0x044, 0, 1, 6, 1, .rw, 0x0, false, .free, .any⟩,
   ⟨0x044, 0, 1, 7, 4, .rw, 0x0, false, .free, .any⟩,
   ⟨0x044, 0, 1, 11, 2, .rw, 0x0, false, .free, (.range 0 2)⟩,
   ⟨0x048, 0, 1, 0, 4, .rw, 0x1, false, .slotEn, (.range 1 8)⟩,
   ⟨0x048, 0, 1, 8, 7, .rw, 0x1, false, .slotEn, (.range 1 64)⟩,
   ⟨0x04C, 0, 1, 0, 14, .rw, 0x0, false, .slotEn, (.range 1 10000)⟩,
   ⟨0x04C, 0, 1, 16, 14, .rw, 0x0, false, .slotEn, .belowPeriod⟩,
   ⟨0x050, 0, 1, 0, 20, .rw, 0x0, false, .slotEn, .casDeadline⟩,
   ⟨0x054, 0, 1, 0, 6, .rw, 0x0, false, .slotEn, .any⟩,
   ⟨0x054, 0, 1, 16, 16, .rw, 0x40, false, .slotEn, (.range 1 65535)⟩,
   ⟨0x058, 0, 1, 0, 20, .rw, 0x0, false, .slotEn, .any⟩,
   ⟨0x058, 0, 1, 20, 4, .ro, 0x0, false, .slotEn, .any⟩,
   ⟨0x05C, 0, 1, 0, 16, .rw, 0x64, false, .free, .any⟩,
   ⟨0x05C, 0, 1, 16, 16, .ro, 0x0, false, .free, .any⟩,
   ⟨0x060, 0, 1, 0, 13, .rw, 0x0, false, .slotEn, .any⟩,
   ⟨0x060, 0, 1, 16, 13, .rw, 0x0, false, .slotEn, .any⟩,
   ⟨0x064, 0, 1, 0, 25, .rw, 0x0, false, .slotNotEmpty, (.aligned 4096)⟩,
   ⟨0x068, 0, 1, 0, 32, .rw, 0x0, false, .slotLoading, (.aligned 4096)⟩,
   ⟨0x06C, 0, 1, 0, 25, .rw, 0x0, false, .slotLoading, .any⟩,
   ⟨0x070, 0, 1, 0, 3, .ro, 0x0, false, .free, .any⟩,
   ⟨0x070, 0, 1, 3, 1, .ro, 0x0, false, .free, .any⟩,
   ⟨0x070, 0, 1, 4, 1, .ro, 0x0, false, .free, .any⟩,
   ⟨0x070, 0, 1, 5, 1, .ro, 0x0, false, .free, .any⟩,
   ⟨0x070, 0, 1, 6, 1, .ro, 0x0, false, .free, .any⟩,
   ⟨0x070, 0, 1, 7, 1, .ro, 0x0, false, .free, .any⟩,
   ⟨0x070, 0, 1, 8, 4, .ro, 0x0, false, .free, .any⟩,
   ⟨0x070, 0, 1, 12, 4, .ro, 0x0, false, .free, .any⟩,
   ⟨0x070, 0, 1, 16, 4, .ro, 0x0, false, .free, .any⟩,
   ⟨0x070, 0, 1, 20, 7, .ro, 0x0, false, .free, .any⟩,
   ⟨0x074, 0, 1, 0, 16, .ro, 0x0, false, .free, .any⟩,
   ⟨0x078, 0, 1, 0, 32, .ro, 0x0, false, .free, .any⟩,
   ⟨0x07C, 0, 1, 0, 32, .ro, 0x0, false, .free, .any⟩,
   ⟨0x080, 0, 1, 0, 32, .ro, 0x0, false, .free, .any⟩,
   ⟨0x084, 0, 1, 0, 32, .lat, 0x0, false, .free, .any⟩]

/-- Page table of SLOT, part 2. -/
def rowsSLOT1 : List Row :=
  [⟨0x088, 0, 1, 0, 32, .ro, 0x0, false, .free, .any⟩,
   ⟨0x08C, 0, 1, 0, 32, .ro, 0x0, false, .free, .any⟩,
   ⟨0x090, 0, 1, 0, 16, .ro, 0x0, false, .free, .any⟩,
   ⟨0x090, 0, 1, 16, 16, .rwh, 0x0, false, .free, .any⟩,
   ⟨0x094, 0, 1, 0, 32, .ro, 0x0, false, .free, .any⟩,
   ⟨0x098, 0, 1, 0, 32, .ro, 0x0, false, .free, .any⟩,
   ⟨0x09C, 0, 1, 0, 8, .cnt, 0x0, false, .free, .any⟩,
   ⟨0x09C, 0, 1, 8, 8, .cnt, 0x0, false, .free, .any⟩,
   ⟨0x09C, 0, 1, 16, 8, .cnt, 0x0, false, .free, .any⟩,
   ⟨0x09C, 0, 1, 24, 8, .cnt, 0x0, false, .free, .any⟩,
   ⟨0x0A0, 0, 1, 0, 8, .cnt, 0x0, false, .free, .any⟩,
   ⟨0x0A0, 0, 1, 8, 8, .cnt, 0x0, false, .free, .any⟩,
   ⟨0x0A0, 0, 1, 16, 8, .cnt, 0x0, false, .free, .any⟩,
   ⟨0x0A0, 0, 1, 24, 8, .cnt, 0x0, false, .free, .any⟩,
   ⟨0x0A4, 0, 1, 0, 8, .cnt, 0x0, false, .free, .any⟩,
   ⟨0x0A4, 0, 1, 8, 8, .cnt, 0x0, false, .free, .any⟩,
   ⟨0x0A4, 0, 1, 16, 8, .cnt, 0x0, false, .free, .any⟩,
   ⟨0x0A4, 0, 1, 24, 8, .cnt, 0x0, false, .free, .any⟩,
   ⟨0x0A8, 0, 1, 0, 8, .cnt, 0x0, false, .free, .any⟩,
   ⟨0x0AC, 0, 1, 0, 2, .ro, 0x0, false, .free, .any⟩,
   ⟨0x0AC, 0, 1, 16, 15, .ro, 0x0, false, .free, .any⟩,
   ⟨0x0B0, 0, 1, 0, 16, .ro, 0x0, false, .free, .any⟩,
   ⟨0x0C0, 0, 1, 0, 25, .ro, 0x0, false, .free, .any⟩,
   ⟨0x0C4, 0, 1, 0, 25, .ro, 0x0, false, .free, .any⟩,
   ⟨0x0C8, 0, 1, 0, 25, .ro, 0x0, false, .free, .any⟩,
   ⟨0x400, 0, 1, 0, 32, .grd, 0x0, false, .free, .any⟩]

/-- Page table of SLOT. -/
def rowsSLOT : List Row := rowsSLOT0 ++ rowsSLOT1

/-- Page table of FB, part 1. -/
def rowsFB0 : List Row :=
  [⟨0x040, 0, 1, 0, 1, .rw, 0x0, false, .cfg, .any⟩,
   ⟨0x040, 0, 1, 8, 6, .rw, 0x5, false, .cfg, (.range 2 50)⟩,
   ⟨0x040, 0, 1, 16, 14, .rw, 0x64, false, .cfg, (.range 60 10000)⟩,
   ⟨0x044, 0, 1, 0, 1, .ro, 0x0, false, .free, .any⟩,
   ⟨0x044, 0, 1, 1, 1, .ro, 0x0, false, .free, .any⟩,
   ⟨0x044, 0, 1, 2, 1, .ro, 0x0, false, .free, .any⟩,
   ⟨0x044, 0, 1, 3, 1, .ro, 0x0, false, .free, .any⟩,
   ⟨0x044, 0, 1, 4, 2, .ro, 0x2, false, .free, .any⟩,
   ⟨0x044, 0, 1, 6, 1, .ro, 0x1, false, .free, .any⟩,
   ⟨0x044, 0, 1, 7, 1, .ro, 0x0, false, .free, .any⟩,
   ⟨0x044, 0, 1, 8, 1, .ro, 0x0, false, .free, .any⟩,
   ⟨0x044, 0, 1, 9, 1, .ro, 0x0, false, .free, .any⟩,
   ⟨0x044, 0, 1, 10, 1, .ro, 0x0, false, .free, .any⟩,
   ⟨0x048, 0, 1, 0, 16, .ro, 0x0, false, .free, .any⟩,
   ⟨0x048, 0, 1, 16, 16, .ro, 0x0, false, .free, .any⟩,
   ⟨0x04C, 0, 1, 0, 16, .ro, 0x0, false, .free, .any⟩,
   ⟨0x04C, 0, 1, 16, 16, .ro, 0x0, false, .free, .any⟩,
   ⟨0x050, 0, 1, 0, 8, .cnt, 0x0, false, .free, .any⟩,
   ⟨0x050, 0, 1, 8, 8, .cnt, 0x0, false, .free, .any⟩,
   ⟨0x050, 0, 1, 16, 8, .cnt, 0x0, false, .free, .any⟩,
   ⟨0x050, 0, 1, 24, 8, .cnt, 0x0, false, .free, .any⟩,
   ⟨0x054, 0, 1, 0, 16, .ro, 0x0, false, .free, .any⟩,
   ⟨0x054, 0, 1, 16, 8, .cnt, 0x0, false, .free, .any⟩,
   ⟨0x058, 0, 1, 0, 8, .cnt, 0x0, false, .free, .any⟩,
   ⟨0x05C, 0, 1, 0, 13, .rw, 0x0, false, .cfg, .tripSlot⟩,
   ⟨0x05C, 0, 1, 15, 1, .rw, 0x0, false, .cfg, .tripSlot⟩,
   ⟨0x060, 0, 1, 0, 32, .ro, 0x0, false, .free, .any⟩,
   ⟨0x064, 0, 1, 0, 32, .lat, 0x0, false, .free, .any⟩,
   ⟨0x068, 0, 1, 0, 16, .ro, 0x0, false, .free, .any⟩,
   ⟨0x068, 0, 1, 16, 16, .ro, 0x0, false, .free, .any⟩,
   ⟨0x800, 32, 16, 0, 1, .rw, 0x0, false, .chSafety, .any⟩,
   ⟨0x800, 32, 16, 1, 4, .rw, 0x0, false, .chCfgEn, .chType⟩,
   ⟨0x800, 32, 16, 5, 1, .ro, 0x0, false, .chSafety, .any⟩,
   ⟨0x800, 32, 16, 6, 1, .rw, 0x0, false, .chCfgEn, .any⟩,
   ⟨0x800, 32, 16, 7, 1, .rw, 0x0, false, .chSafety, .any⟩,
   ⟨0x800, 32, 16, 8, 1, .rw, 0x0, false, .chCfgEn, .any⟩,
   ⟨0x800, 32, 16, 9, 4, .rw, 0x0, false, .chCfgEn, .any⟩,
   ⟨0x800, 32, 16, 13, 1, .rw, 0x0, false, .chSafety, .any⟩,
   ⟨0x804, 32, 16, 0, 13, .rw, 0x0, false, .chSlot, .any⟩,
   ⟨0x808, 32, 16, 0, 8, .rw, 0x3, false, .chSafety, (.range 1 255)⟩]

/-- Page table of FB, part 2. -/
def rowsFB1 : List Row :=
  [⟨0x808, 32, 16, 8, 7, .rw, 0xa, false, .chSafety, .filtSample⟩,
   ⟨0x80C, 32, 16, 0, 10, .rw, 0x1f4, false, .free, (.range 200 800)⟩,
   ⟨0x80C, 32, 16, 16, 7, .rw, 0xa, false, .free, (.range 1 100)⟩,
   ⟨0x810, 32, 16, 0, 14, .rw, 0x3e8, false, .free, (.range 10 10000)⟩,
   ⟨0x810, 32, 16, 16, 16, .rw, 0x0, false, .free, .tsValue⟩,
   ⟨0x814, 32, 16, 0, 1, .ro, 0x0, false, .free, .any⟩,
   ⟨0x814, 32, 16, 1, 1, .ro, 0x0, false, .free, .any⟩,
   ⟨0x814, 32, 16, 2, 1, .ro, 0x0, false, .free, .any⟩,
   ⟨0x814, 32, 16, 3, 1, .ro, 0x0, false, .free, .any⟩,
   ⟨0x814, 32, 16, 4, 2, .ro, 0x3, false, .free, .any⟩,
   ⟨0x814, 32, 16, 6, 1, .ro, 0x0, false, .free, .any⟩,
   ⟨0x814, 32, 16, 7, 1, .ro, 0x0, false, .free, .any⟩,
   ⟨0x814, 32, 16, 8, 1, .ro, 0x0, false, .free, .any⟩,
   ⟨0x814, 32, 16, 9, 1, .ro, 0x0, false, .free, .any⟩,
   ⟨0x814, 32, 16, 10, 1, .ro, 0x0, false, .free, .any⟩,
   ⟨0x814, 32, 16, 11, 1, .ro, 0x0, false, .free, .any⟩,
   ⟨0x814, 32, 16, 12, 1, .ro, 0x0, false, .free, .any⟩,
   ⟨0x814, 32, 16, 13, 1, .ro, 0x0, false, .free, .any⟩,
   ⟨0x814, 32, 16, 14, 1, .ro, 0x0, false, .free, .any⟩,
   ⟨0x814, 32, 16, 15, 1, .ro, 0x0, false, .free, .any⟩,
   ⟨0x814, 32, 16, 16, 8, .ro, 0x0, false, .free, .any⟩,
   ⟨0x818, 32, 16, 0, 32, .ro, 0x0, false, .free, .any⟩,
   ⟨0x81C, 32, 16, 0, 8, .cnt, 0x0, false, .free, .any⟩,
   ⟨0x81C, 32, 16, 8, 8, .cnt, 0x0, false, .free, .any⟩,
   ⟨0x81C, 32, 16, 16, 8, .cnt, 0x0, false, .free, .any⟩,
   ⟨0x81C, 32, 16, 24, 8, .cnt, 0x0, false, .free, .any⟩,
   ⟨0xA00, 32, 16, 0, 2, .rw, 0x0, false, .chEn, .anCfg⟩,
   ⟨0xA00, 32, 16, 2, 1, .rw, 0x0, false, .chEn, .any⟩,
   ⟨0xA00, 32, 16, 3, 1, .rw, 0x0, false, .chEn, .anCfg⟩,
   ⟨0xA00, 32, 16, 4, 2, .rw, 0x0, false, .chEn, .anCfg⟩,
   ⟨0xA00, 32, 16, 6, 1, .rw, 0x0, false, .chEn, .anCfg⟩,
   ⟨0xA00, 32, 16, 7, 1, .rw, 0x0, false, .chEn, .any⟩,
   ⟨0xA04, 32, 16, 0, 14, .rw, 0x1, false, .chEn, (.range 1 10000)⟩,
   ⟨0xA08, 32, 16, 0, 16, .rw, 0xe10, false, .free, .anLim⟩,
   ⟨0xA08, 32, 16, 16, 16, .rw, 0x5208, false, .free, .anLim⟩,
   ⟨0xA0C, 32, 16, 0, 13, .rw, 0x0, false, .chEn, .any⟩,
   ⟨0xA10, 32, 16, 0, 16, .ro, 0x0, false, .free, .any⟩,
   ⟨0xA10, 32, 16, 16, 16, .ro, 0x0, false, .free, .any⟩,
   ⟨0xA14, 32, 16, 0, 1, .ro, 0x0, false, .free, .any⟩,
   ⟨0xA14, 32, 16, 1, 1, .ro, 0x0, false, .free, .any⟩]

/-- Page table of FB, part 3. -/
def rowsFB2 : List Row :=
  [⟨0xA14, 32, 16, 2, 1, .ro, 0x0, false, .free, .any⟩,
   ⟨0xA14, 32, 16, 3, 1, .ro, 0x0, false, .free, .any⟩,
   ⟨0xA14, 32, 16, 4, 1, .ro, 0x0, false, .free, .any⟩,
   ⟨0xA14, 32, 16, 5, 1, .ro, 0x0, false, .free, .any⟩,
   ⟨0xA14, 32, 16, 6, 1, .ro, 0x0, false, .free, .any⟩,
   ⟨0xA14, 32, 16, 7, 2, .ro, 0x0, false, .free, .any⟩,
   ⟨0xA14, 32, 16, 9, 1, .ro, 0x0, false, .free, .any⟩,
   ⟨0xA14, 32, 16, 10, 1, .ro, 0x0, false, .free, .any⟩,
   ⟨0xA14, 32, 16, 16, 16, .ro, 0x0, false, .free, .any⟩,
   ⟨0xA18, 32, 16, 0, 8, .cnt, 0x0, false, .free, .any⟩,
   ⟨0xA18, 32, 16, 8, 8, .cnt, 0x0, false, .free, .any⟩,
   ⟨0xA18, 32, 16, 16, 8, .cnt, 0x0, false, .free, .any⟩,
   ⟨0xA18, 32, 16, 24, 8, .cnt, 0x0, false, .free, .any⟩,
   ⟨0xC00, 0, 1, 0, 6, .rw, 0x0, false, .hartOn, .any⟩,
   ⟨0xC00, 0, 1, 8, 6, .rw, 0x0, false, .hartOn, .any⟩,
   ⟨0xC00, 0, 1, 16, 5, .rw, 0x5, false, .free, (.range 5 20)⟩,
   ⟨0xC00, 0, 1, 24, 3, .rw, 0x2, false, .free, (.range 0 7)⟩,
   ⟨0xC00, 0, 1, 27, 1, .rw, 0x0, false, .free, .any⟩,
   ⟨0xC04, 0, 1, 0, 16, .ro, 0x0, false, .free, .any⟩,
   ⟨0xC04, 0, 1, 16, 16, .ro, 0x0, false, .free, .any⟩,
   ⟨0xC08, 0, 1, 0, 16, .cnt, 0x0, false, .free, .any⟩,
   ⟨0xC08, 0, 1, 16, 16, .cnt, 0x0, false, .free, .any⟩]

/-- Page table of FB. -/
def rowsFB : List Row := rowsFB0 ++ rowsFB1 ++ rowsFB2

/-- Page table of SCP. -/
def rowsSCP : List Row :=
  [⟨0x040, 0, 1, 0, 1, .ro, 0x0, false, .free, .any⟩,
   ⟨0x040, 0, 1, 1, 1, .ro, 0x0, false, .free, .any⟩,
   ⟨0x040, 0, 1, 2, 1, .ro, 0x0, false, .free, .any⟩,
   ⟨0x040, 0, 1, 3, 1, .ro, 0x0, false, .free, .any⟩,
   ⟨0x040, 0, 1, 4, 1, .ro, 0x0, false, .free, .any⟩,
   ⟨0x040, 0, 1, 5, 1, .ro, 0x0, false, .free, .any⟩,
   ⟨0x044, 0, 1, 0, 4, .ro, 0x0, false, .free, .any⟩,
   ⟨0x044, 0, 1, 8, 3, .ro, 0x0, false, .free, .any⟩,
   ⟨0x048, 0, 1, 0, 32, .ro, 0x0, false, .free, .any⟩,
   ⟨0x04C, 0, 1, 0, 32, .ro, 0x0, false, .free, .any⟩,
   ⟨0x050, 0, 1, 0, 32, .ro, 0x0, false, .free, .any⟩,
   ⟨0x054, 0, 1, 0, 32, .lat, 0x0, false, .free, .any⟩,
   ⟨0x058, 0, 1, 0, 32, .ro, 0x0, false, .free, .any⟩,
   ⟨0x05C, 0, 1, 0, 32, .lat, 0x0, false, .free, .any⟩,
   ⟨0x060, 0, 1, 0, 32, .ro, 0x0, false, .free, .any⟩,
   ⟨0x064, 0, 1, 0, 16, .cnt, 0x0, false, .free, .any⟩,
   ⟨0x064, 0, 1, 16, 8, .cnt, 0x0, false, .free, .any⟩,
   ⟨0x068, 0, 1, 0, 18, .ro, 0x0, false, .free, .any⟩,
   ⟨0x068, 0, 1, 18, 1, .ro, 0x0, false, .free, .any⟩,
   ⟨0x068, 0, 1, 19, 1, .ro, 0x0, false, .free, .any⟩,
   ⟨0x068, 0, 1, 20, 1, .ro, 0x0, false, .free, .any⟩,
   ⟨0x06C, 0, 1, 0, 16, .ro, 0x0, false, .free, .any⟩,
   ⟨0x070, 0, 1, 0, 32, .ro, 0x0, false, .free, .any⟩,
   ⟨0x074, 0, 1, 0, 32, .ro, 0x0, false, .free, .any⟩,
   ⟨0x078, 0, 1, 0, 32, .rw, 0xffffffff, false, .free, .any⟩,
   ⟨0x07C, 0, 1, 0, 32, .lat, 0xffffffff, false, .free, .any⟩,
   ⟨0x080, 0, 1, 0, 32, .rw, 0xffffffff, false, .free, .any⟩,
   ⟨0x084, 0, 1, 0, 32, .lat, 0xffffffff, false, .free, .any⟩,
   ⟨0x100, 16, 6, 0, 16, .cnt, 0x0, false, .free, .any⟩,
   ⟨0x100, 16, 6, 16, 8, .cnt, 0x0, false, .free, .any⟩,
   ⟨0x104, 16, 6, 0, 32, .ro, 0x0, false, .free, .any⟩,
   ⟨0x108, 16, 6, 0, 16, .ro, 0x0, false, .free, .any⟩,
   ⟨0x108, 16, 6, 16, 10, .ro, 0x0, false, .free, .any⟩,
   ⟨0x10C, 16, 6, 0, 1, .ro, 0x0, false, .free, .any⟩,
   ⟨0x800, 4, 64, 0, 8, .rw, 0x0, false, .free, .irqPage⟩,
   ⟨0x800, 4, 64, 8, 1, .rw, 0x0, false, .free, .any⟩,
   ⟨0x800, 4, 64, 9, 1, .rw, 0x0, false, .free, .any⟩]

/-- Page table of WEIR. -/
def rowsWEIR : List Row :=
  [⟨0x040, 0, 1, 0, 11, .rw, 0x40, false, .cfg, (.range 16 1024)⟩,
   ⟨0x040, 0, 1, 16, 4, .rw, 0x3, false, .cfg, (.range 1 15)⟩,
   ⟨0x040, 0, 1, 24, 8, .rw, 0x19, false, .cfg, (.range 1 255)⟩,
   ⟨0x800, 32, 4, 0, 1, .ro, 0x0, false, .free, .any⟩,
   ⟨0x800, 32, 4, 1, 3, .ro, 0x0, false, .free, .any⟩,
   ⟨0x804, 32, 4, 0, 16, .cnt, 0x0, false, .free, .any⟩,
   ⟨0x804, 32, 4, 16, 16, .cnt, 0x0, false, .free, .any⟩,
   ⟨0x808, 32, 4, 0, 16, .ro, 0x0, false, .free, .any⟩,
   ⟨0x808, 32, 4, 16, 16, .rwh, 0x0, false, .free, .any⟩,
   ⟨0x80C, 32, 4, 0, 32, .ro, 0x0, false, .free, .any⟩]

/-- Page table of DBG. -/
def rowsDBG : List Row :=
  [⟨0x040, 0, 1, 0, 1, .ro, 0x0, false, .free, .any⟩,
   ⟨0x040, 0, 1, 1, 1, .ro, 0x0, false, .free, .any⟩,
   ⟨0x040, 0, 1, 2, 1, .ro, 0x0, false, .free, .any⟩,
   ⟨0x040, 0, 1, 8, 8, .ro, 0x0, false, .free, .any⟩,
   ⟨0x040, 0, 1, 16, 4, .ro, 0x0, false, .free, .any⟩,
   ⟨0x044, 0, 1, 0, 16, .ro, 0x0, false, .free, .any⟩,
   ⟨0x050, 0, 1, 0, 7, .rw, 0x0, false, .dbgClosed, .any⟩,
   ⟨0x054, 0, 1, 0, 32, .rw, 0x0, false, .dbgClosed, .any⟩,
   ⟨0x058, 0, 1, 0, 2, .wo, 0x0, false, .dbgClosed, .any⟩,
   ⟨0x05C, 0, 1, 0, 32, .ro, 0x0, false, .free, .any⟩,
   ⟨0x060, 0, 1, 0, 1, .ro, 0x0, false, .free, .any⟩,
   ⟨0x060, 0, 1, 1, 1, .ro, 0x0, false, .free, .any⟩,
   ⟨0x100, 4, 8, 0, 32, .ro, 0x0, false, .free, .any⟩,
   ⟨0x120, 4, 8, 0, 32, .rw, 0x0, false, .free, .any⟩,
   ⟨0x400, 0, 1, 0, 32, .grd, 0x0, false, .free, .any⟩]

/-- Page table of GNT, part 1. -/
def rowsGNT0 : List Row :=
  [⟨0x040, 0, 1, 0, 1, .ro, 0x0, false, .free, .any⟩,
   ⟨0x040, 0, 1, 1, 1, .ro, 0x0, false, .free, .any⟩,
   ⟨0x040, 0, 1, 2, 3, .ro, 0x0, false, .free, .any⟩,
   ⟨0x040, 0, 1, 5, 1, .ro, 0x0, false, .free, .any⟩,
   ⟨0x040, 0, 1, 6, 1, .ro, 0x0, false, .free, .any⟩,
   ⟨0x040, 0, 1, 7, 1, .ro, 0x0, false, .free, .any⟩,
   ⟨0x040, 0, 1, 8, 1, .ro, 0x0, false, .free, .any⟩,
   ⟨0x040, 0, 1, 9, 1, .ro, 0x0, false, .free, .any⟩,
   ⟨0x044, 0, 1, 0, 32, .ro, 0x0, false, .free, .any⟩,
   ⟨0x048, 0, 1, 0, 16, .ro, 0x0, false, .free, .any⟩,
   ⟨0x04C, 0, 1, 0, 16, .ro, 0x0, false, .free, .any⟩,
   ⟨0x04C, 0, 1, 16, 10, .ro, 0x0, false, .free, .any⟩,
   ⟨0x050, 0, 1, 0, 32, .rw, 0x0, false, .psetLoading, .any⟩,
   ⟨0x054, 0, 1, 0, 16, .rw, 0x0, false, .psetLoading, .any⟩,
   ⟨0x058, 0, 1, 0, 2, .ro, 0x0, false, .free, .any⟩,
   ⟨0x058, 0, 1, 4, 4, .ro, 0x0, false, .free, .any⟩,
   ⟨0x05C, 0, 1, 0, 32, .ro, 0x0, true, .free, .any⟩,
   ⟨0x060, 0, 1, 0, 32, .ro, 0x0, true, .free, .any⟩,
   ⟨0x064, 0, 1, 0, 32, .ro, 0x0, true, .free, .any⟩,
   ⟨0x068, 0, 1, 0, 32, .lat, 0x0, true, .free, .any⟩,
   ⟨0x06C, 0, 1, 0, 8, .ro, 0x0, false, .free, .any⟩,
   ⟨0x06C, 0, 1, 8, 2, .ro, 0x0, false, .free, .any⟩,
   ⟨0x06C, 0, 1, 16, 6, .ro, 0x0, false, .free, .any⟩,
   ⟨0x06C, 0, 1, 24, 6, .ro, 0x0, false, .free, .any⟩,
   ⟨0x070, 0, 1, 0, 7, .ro, 0x0, false, .free, .any⟩,
   ⟨0x074, 0, 1, 0, 1, .ro, 0x0, false, .free, .any⟩,
   ⟨0x074, 0, 1, 1, 1, .ro, 0x0, false, .free, .any⟩,
   ⟨0x074, 0, 1, 2, 1, .ro, 0x0, false, .free, .any⟩,
   ⟨0x074, 0, 1, 3, 1, .ro, 0x0, false, .free, .any⟩,
   ⟨0x074, 0, 1, 4, 1, .ro, 0x0, false, .free, .any⟩,
   ⟨0x074, 0, 1, 5, 1, .ro, 0x0, false, .free, .any⟩,
   ⟨0x074, 0, 1, 16, 7, .ro, 0x0, false, .free, .any⟩,
   ⟨0x078, 0, 1, 0, 8, .ro, 0x0, true, .free, .any⟩,
   ⟨0x078, 0, 1, 8, 2, .ro, 0x0, true, .free, .any⟩,
   ⟨0x080, 0, 1, 0, 32, .ro, 0x0, false, .free, .any⟩,
   ⟨0x084, 0, 1, 0, 32, .lat, 0x0, false, .free, .any⟩,
   ⟨0x088, 0, 1, 0, 32, .ro, 0x0, false, .free, .any⟩,
   ⟨0x08C, 0, 1, 0, 32, .lat, 0x0, false, .free, .any⟩,
   ⟨0x090, 0, 1, 0, 32, .ro, 0x0, false, .free, .any⟩,
   ⟨0x094, 0, 1, 0, 32, .lat, 0x0, false, .free, .any⟩]

/-- Page table of GNT, part 2. -/
def rowsGNT1 : List Row :=
  [⟨0x098, 0, 1, 0, 32, .ro, 0x0, false, .free, .any⟩,
   ⟨0x09C, 0, 1, 0, 32, .lat, 0x0, false, .free, .any⟩,
   ⟨0x0A0, 4, 4, 0, 32, .ro, 0x0, false, .free, .any⟩,
   ⟨0x0B0, 0, 1, 0, 8, .cnt, 0x0, false, .free, .any⟩,
   ⟨0x0B0, 0, 1, 8, 8, .cnt, 0x0, false, .free, .any⟩,
   ⟨0x0B0, 0, 1, 16, 8, .cnt, 0x0, false, .free, .any⟩,
   ⟨0x0B0, 0, 1, 24, 8, .cnt, 0x0, false, .free, .any⟩,
   ⟨0x0B4, 0, 1, 0, 16, .cnt, 0x0, false, .free, .any⟩,
   ⟨0x0B4, 0, 1, 16, 8, .cnt, 0x0, false, .free, .any⟩,
   ⟨0x0C0, 0, 1, 0, 7, .rw, 0x0, false, .free, .any⟩,
   ⟨0x100, 4, 8, 0, 32, .ro, 0x0, false, .free, .any⟩,
   ⟨0x120, 4, 8, 0, 32, .rw, 0x0, false, .free, .any⟩,
   ⟨0x140, 4, 8, 0, 32, .wo, 0x0, false, .free, .any⟩,
   ⟨0x160, 0, 1, 0, 5, .ro, 0x0, false, .free, .any⟩,
   ⟨0x160, 0, 1, 5, 1, .ro, 0x0, false, .free, .any⟩,
   ⟨0x160, 0, 1, 8, 5, .ro, 0x0, false, .free, .any⟩,
   ⟨0x160, 0, 1, 16, 5, .ro, 0x0, false, .free, .any⟩,
   ⟨0x400, 0, 1, 0, 32, .grd, 0x0, false, .free, .any⟩,
   ⟨0x404, 0, 1, 0, 32, .grd, 0x0, false, .free, .any⟩,
   ⟨0x408, 0, 1, 0, 32, .grd, 0x0, false, .free, .any⟩,
   ⟨0x800, 4, 128, 0, 8, .ro, 0x0, false, .free, .any⟩,
   ⟨0x800, 4, 128, 8, 8, .ro, 0x0, false, .free, .any⟩,
   ⟨0x800, 4, 128, 16, 1, .ro, 0x0, false, .free, .any⟩,
   ⟨0x800, 4, 128, 17, 1, .ro, 0x0, false, .free, .any⟩,
   ⟨0x800, 4, 128, 18, 1, .ro, 0x0, false, .free, .any⟩,
   ⟨0x800, 4, 128, 19, 1, .ro, 0x0, false, .free, .any⟩,
   ⟨0x800, 4, 128, 20, 1, .ro, 0x0, false, .free, .any⟩,
   ⟨0xA00, 8, 64, 0, 8, .ro, 0x0, false, .free, .any⟩,
   ⟨0xA00, 8, 64, 8, 1, .ro, 0x0, false, .free, .any⟩,
   ⟨0xA00, 8, 64, 16, 8, .ro, 0x0, false, .free, .any⟩,
   ⟨0xA00, 8, 64, 24, 1, .ro, 0x0, false, .free, .any⟩,
   ⟨0xA00, 8, 64, 25, 1, .ro, 0x0, false, .free, .any⟩,
   ⟨0xA00, 8, 64, 26, 1, .ro, 0x0, false, .free, .any⟩,
   ⟨0xA00, 8, 64, 27, 1, .ro, 0x0, false, .free, .any⟩,
   ⟨0xA00, 8, 64, 28, 1, .ro, 0x0, false, .free, .any⟩,
   ⟨0xA00, 8, 64, 29, 1, .ro, 0x0, false, .free, .any⟩,
   ⟨0xA00, 8, 64, 30, 1, .ro, 0x0, false, .free, .any⟩,
   ⟨0xA04, 8, 64, 0, 16, .ro, 0x0, false, .free, .any⟩,
   ⟨0xA04, 8, 64, 16, 16, .ro, 0x0, false, .free, .any⟩,
   ⟨0xC00, 4, 8, 0, 32, .ro, 0x0, false, .free, .any⟩]

/-- Page table of GNT. -/
def rowsGNT : List Row := rowsGNT0 ++ rowsGNT1

/-- Page table of SSE, part 1. -/
def rowsSSE0 : List Row :=
  [⟨0x040, 0, 1, 0, 32, .ro, 0x0, false, .free, .any⟩,
   ⟨0x044, 0, 1, 0, 32, .ro, 0x0, false, .free, .any⟩,
   ⟨0x048, 0, 1, 0, 16, .cnt, 0x0, false, .free, .any⟩,
   ⟨0x080, 0, 1, 0, 6, .rw, 0x1, false, .free, (.range 1 63)⟩,
   ⟨0x084, 0, 1, 0, 1, .rw, 0x0, false, .free, .any⟩,
   ⟨0x084, 0, 1, 1, 1, .rw, 0x0, false, .sessEn, .any⟩,
   ⟨0x084, 0, 1, 2, 1, .rw, 0x0, false, .sessEn, .any⟩,
   ⟨0x084, 0, 1, 3, 1, .rw, 0x0, false, .sessEn, .any⟩,
   ⟨0x084, 0, 1, 4, 1, .rw, 0x0, false, .sessEn, .any⟩,
   ⟨0x084, 0, 1, 5, 1, .rw, 0x0, false, .sessEn, .any⟩,
   ⟨0x084, 0, 1, 8, 5, .rw, 0x0, false, .sessEn, (.range 0 30)⟩,
   ⟨0x084, 0, 1, 16, 8, .rw, 0x3, false, .sessEn, (.range 1 255)⟩,
   ⟨0x088, 0, 1, 0, 7, .rw, 0x0, false, .sessEn, (.range 0 64)⟩,
   ⟨0x08C, 0, 1, 0, 14, .rw, 0xc8, false, .sessEn, (.range 5 10000)⟩,
   ⟨0x08C, 0, 1, 16, 16, .rw, 0x32, false, .sessEn, (.range 1 65535)⟩,
   ⟨0x090, 0, 1, 0, 10, .rw, 0xa, false, .sessEn, (.range 1 1000)⟩,
   ⟨0x094, 0, 1, 0, 13, .rw, 0x0, false, .sessEn, .any⟩,
   ⟨0x098, 0, 1, 0, 32, .rw, 0x0, false, .sessEn, .any⟩,
   ⟨0x09C, 0, 1, 0, 29, .rw, 0x0, false, .sessEn, .any⟩,
   ⟨0x09C, 0, 1, 29, 1, .rw, 0x0, false, .sessEn, .any⟩,
   ⟨0x0A0, 0, 1, 0, 32, .rw, 0x0, false, .sessEn, .any⟩,
   ⟨0x0A4, 0, 1, 0, 32, .lat, 0x0, false, .sessEn, .any⟩,
   ⟨0x0A8, 0, 1, 0, 32, .rw, 0x0, false, .sessEn, .any⟩,
   ⟨0x0AC, 0, 1, 0, 32, .lat, 0x0, false, .sessEn, .any⟩,
   ⟨0x0B0, 0, 1, 0, 32, .ro, 0x0, false, .free, .any⟩,
   ⟨0x0B4, 0, 1, 0, 2, .ro, 0x0, false, .free, .any⟩,
   ⟨0x0B4, 0, 1, 2, 3, .ro, 0x0, false, .free, .any⟩,
   ⟨0x0B4, 0, 1, 5, 1, .ro, 0x0, false, .free, .any⟩,
   ⟨0x0B4, 0, 1, 6, 1, .ro, 0x0, false, .free, .any⟩,
   ⟨0x0B4, 0, 1, 7, 1, .ro, 0x0, false, .free, .any⟩,
   ⟨0x0B4, 0, 1, 8, 2, .ro, 0x0, false, .free, .any⟩,
   ⟨0x0B4, 0, 1, 16, 8, .ro, 0x0, false, .free, .any⟩,
   ⟨0x0B8, 0, 1, 0, 32, .ro, 0x0, false, .free, .any⟩,
   ⟨0x0BC, 0, 1, 0, 16, .ro, 0x0, false, .free, .any⟩,
   ⟨0x0BC, 0, 1, 16, 16, .ro, 0x0, false, .free, .any⟩,
   ⟨0x0C0, 0, 1, 0, 8, .cnt, 0x0, false, .free, .any⟩,
   ⟨0x0C0, 0, 1, 8, 8, .cnt, 0x0, false, .free, .any⟩,
   ⟨0x0C0, 0, 1, 16, 8, .cnt, 0x0, false, .free, .any⟩,
   ⟨0x0C0, 0, 1, 24, 8, .cnt, 0x0, false, .free, .any⟩,
   ⟨0x0C4, 0, 1, 0, 8, .cnt, 0x0, false, .free, .any⟩]

/-- Page table of SSE, part 2. -/
def rowsSSE1 : List Row :=
  [⟨0x0C4, 0, 1, 8, 8, .cnt, 0x0, false, .free, .any⟩,
   ⟨0x0C4, 0, 1, 16, 8, .cnt, 0x0, false, .free, .any⟩,
   ⟨0x0C4, 0, 1, 24, 8, .cnt, 0x0, false, .free, .any⟩,
   ⟨0x0C8, 0, 1, 0, 16, .cnt, 0x0, false, .free, .any⟩,
   ⟨0x400, 0, 1, 0, 32, .grd, 0x0, false, .free, .any⟩,
   ⟨0x800, 4, 16, 0, 32, .rw, 0x0, false, .free, .any⟩]

/-- Page table of SSE. -/
def rowsSSE : List Row := rowsSSE0 ++ rowsSSE1

/-- Page table of QMG. -/
def rowsQMG : List Row :=
  [⟨0x040, 0, 1, 0, 32, .ro, 0x0, false, .free, .any⟩,
   ⟨0x044, 0, 1, 0, 32, .ro, 0x0, false, .free, .any⟩,
   ⟨0x048, 0, 1, 0, 6, .rw, 0x0, false, .free, .any⟩,
   ⟨0x050, 0, 1, 0, 1, .rw, 0x0, false, .free, .any⟩,
   ⟨0x050, 0, 1, 1, 1, .rw, 0x0, false, .ringEn, .any⟩,
   ⟨0x050, 0, 1, 2, 4, .rw, 0x4, false, .ringEn, (.range 4 12)⟩,
   ⟨0x050, 0, 1, 6, 5, .rw, 0x0, false, .ringEn, .any⟩,
   ⟨0x054, 0, 1, 0, 4, .rw, 0x0, false, .ringEn, .any⟩,
   ⟨0x054, 0, 1, 4, 8, .rw, 0x0, false, .ringEn, .any⟩,
   ⟨0x054, 0, 1, 16, 4, .rw, 0x0, false, .ringEn, .any⟩,
   ⟨0x054, 0, 1, 20, 8, .rw, 0x0, false, .ringEn, .any⟩,
   ⟨0x058, 0, 1, 0, 32, .rw, 0x0, false, .ringEn, .any⟩,
   ⟨0x05C, 0, 1, 0, 32, .rw, 0x0, false, .ringEn, .any⟩,
   ⟨0x060, 0, 1, 0, 16, .rw, 0x0, false, .free, .any⟩,
   ⟨0x064, 0, 1, 0, 16, .rw, 0x0, false, .free, .any⟩,
   ⟨0x068, 0, 1, 0, 13, .rw, 0x1, false, .free, .any⟩,
   ⟨0x068, 0, 1, 16, 16, .rw, 0x64, false, .free, .any⟩,
   ⟨0x06C, 0, 1, 0, 13, .ro, 0x0, false, .free, .any⟩,
   ⟨0x06C, 0, 1, 13, 1, .ro, 0x0, false, .free, .any⟩,
   ⟨0x06C, 0, 1, 14, 1, .ro, 0x0, false, .free, .any⟩,
   ⟨0x06C, 0, 1, 16, 16, .ro, 0x0, false, .free, .any⟩,
   ⟨0x070, 0, 1, 0, 16, .cnt, 0x0, false, .free, .any⟩,
   ⟨0x070, 0, 1, 16, 8, .cnt, 0x0, false, .free, .any⟩,
   ⟨0x800, 4, 64, 0, 1, .ro, 0x0, false, .free, .any⟩,
   ⟨0x800, 4, 64, 1, 1, .ro, 0x0, false, .free, .any⟩,
   ⟨0x800, 4, 64, 16, 13, .ro, 0x0, false, .free, .any⟩]

/-- Page table of ETH. -/
def rowsETH : List Row :=
  [⟨0x040, 0, 1, 0, 2, .rw, 0x0, false, .free, .any⟩,
   ⟨0x040, 0, 1, 2, 1, .rw, 0x0, false, .cfg, .any⟩,
   ⟨0x040, 0, 1, 3, 1, .rw, 0x0, false, .cfg, .any⟩,
   ⟨0x040, 0, 1, 4, 1, .rw, 0x0, false, .cfg, .any⟩,
   ⟨0x040, 0, 1, 5, 1, .rw, 0x0, false, .cfg, .any⟩,
   ⟨0x040, 0, 1, 6, 1, .rw, 0x1, false, .free, .any⟩,
   ⟨0x044, 0, 1, 0, 1, .ro, 0x0, false, .free, .any⟩,
   ⟨0x044, 0, 1, 1, 2, .ro, 0x0, false, .free, .any⟩,
   ⟨0x044, 0, 1, 3, 1, .ro, 0x0, false, .free, .any⟩,
   ⟨0x044, 0, 1, 4, 1, .ro, 0x0, false, .free, .any⟩,
   ⟨0x044, 0, 1, 24, 8, .ro, 0x0, false, .free, .any⟩,
   ⟨0x048, 0, 1, 0, 32, .ro, 0x0, true, .free, .any⟩,
   ⟨0x04C, 0, 1, 0, 16, .lat, 0x0, true, .free, .any⟩,
   ⟨0x050, 0, 1, 0, 32, .rw, 0x0, false, .free, .any⟩,
   ⟨0x054, 0, 1, 0, 6, .rw, 0x3f, false, .free, .any⟩,
   ⟨0x054, 0, 1, 8, 6, .rw, 0x3f, false, .free, .any⟩,
   ⟨0x054, 0, 1, 16, 6, .rw, 0x3f, false, .free, .any⟩,
   ⟨0x058, 0, 1, 0, 32, .ro, 0x0, false, .free, .any⟩,
   ⟨0x05C, 0, 1, 0, 32, .ro, 0x0, false, .free, .any⟩,
   ⟨0x060, 0, 1, 0, 8, .cnt, 0x0, false, .free, .any⟩,
   ⟨0x060, 0, 1, 8, 8, .cnt, 0x0, false, .free, .any⟩,
   ⟨0x060, 0, 1, 16, 8, .cnt, 0x0, false, .free, .any⟩,
   ⟨0x060, 0, 1, 24, 8, .cnt, 0x0, false, .free, .any⟩,
   ⟨0x064, 0, 1, 0, 16, .cnt, 0x0, false, .free, .any⟩,
   ⟨0x064, 0, 1, 16, 8, .cnt, 0x0, false, .free, .any⟩,
   ⟨0x800, 8, 32, 0, 32, .rw, 0x0, false, .free, .any⟩,
   ⟨0x804, 8, 32, 0, 16, .rw, 0x0, false, .free, .any⟩,
   ⟨0x804, 8, 32, 16, 6, .rw, 0x3f, false, .free, .any⟩,
   ⟨0x804, 8, 32, 22, 3, .rw, 0x0, false, .free, (.range 0 4)⟩,
   ⟨0x804, 8, 32, 31, 1, .rw, 0x0, false, .free, .any⟩]

/-- Page table of SER. -/
def rowsSER : List Row :=
  [⟨0x040, 0, 1, 0, 3, .rw, 0x0, false, .serModeSet, (.range 0 4)⟩,
   ⟨0x040, 0, 1, 3, 1, .rw, 0x0, false, .serMode, .any⟩,
   ⟨0x040, 0, 1, 4, 1, .rw, 0x0, false, .serMode, .any⟩,
   ⟨0x040, 0, 1, 5, 1, .rw, 0x0, false, .serMode, .any⟩,
   ⟨0x040, 0, 1, 6, 2, .rw, 0x0, false, .serMode, (.range 0 2)⟩,
   ⟨0x040, 0, 1, 8, 1, .rw, 0x0, false, .serMode, .any⟩,
   ⟨0x040, 0, 1, 9, 1, .rw, 0x0, false, .serMode, .any⟩,
   ⟨0x040, 0, 1, 10, 1, .rw, 0x0, false, .serMode, .any⟩,
   ⟨0x044, 0, 1, 0, 20, .rw, 0x12c0, false, .serMode, (.range 300 1000000)⟩,
   ⟨0x048, 0, 1, 0, 6, .rw, 0x0, false, .free, .any⟩,
   ⟨0x048, 0, 1, 8, 6, .rw, 0x0, false, .free, .any⟩,
   ⟨0x04C, 0, 1, 0, 8, .rw, 0x4, false, .serMode, (.range 1 255)⟩,
   ⟨0x04C, 0, 1, 8, 8, .rw, 0x64, false, .serMode, (.range 1 255)⟩,
   ⟨0x04C, 0, 1, 16, 16, .rw, 0x3e8, false, .serMode, (.range 1 65535)⟩,
   ⟨0x050, 0, 1, 0, 8, .rw, 0x1, false, .serMode, (.range 1 247)⟩,
   ⟨0x054, 0, 1, 0, 1, .ro, 0x0, false, .free, .any⟩,
   ⟨0x054, 0, 1, 1, 1, .ro, 0x0, false, .free, .any⟩,
   ⟨0x058, 0, 1, 0, 8, .cnt, 0x0, false, .free, .any⟩,
   ⟨0x058, 0, 1, 8, 8, .cnt, 0x0, false, .free, .any⟩,
   ⟨0x058, 0, 1, 16, 8, .cnt, 0x0, false, .free, .any⟩,
   ⟨0x058, 0, 1, 24, 8, .cnt, 0x0, false, .free, .any⟩,
   ⟨0x05C, 0, 1, 0, 8, .cnt, 0x0, false, .free, .any⟩,
   ⟨0x05C, 0, 1, 8, 8, .cnt, 0x0, false, .free, .any⟩,
   ⟨0x05C, 0, 1, 16, 8, .cnt, 0x0, false, .free, .any⟩,
   ⟨0x060, 0, 1, 0, 32, .ro, 0x0, false, .free, .any⟩]

/-- Page table of CAN, part 1. -/
def rowsCAN0 : List Row :=
  [⟨0x040, 0, 1, 0, 3, .rw, 0x0, false, .free, (.range 0 3)⟩,
   ⟨0x040, 0, 1, 3, 1, .rw, 0x1, false, .free, .any⟩,
   ⟨0x040, 0, 1, 4, 1, .rw, 0x0, false, .free, .any⟩,
   ⟨0x040, 0, 1, 5, 1, .rw, 0x1, false, .free, .any⟩,
   ⟨0x044, 0, 1, 0, 8, .rw, 0x1, false, .canMode, (.range 1 255)⟩,
   ⟨0x044, 0, 1, 8, 8, .rw, 0x7f, false, .canMode, (.range 2 255)⟩,
   ⟨0x044, 0, 1, 16, 7, .rw, 0x20, false, .canMode, (.range 1 127)⟩,
   ⟨0x044, 0, 1, 24, 7, .rw, 0x20, false, .canMode, (.sjw 16 7 127)⟩,
   ⟨0x048, 0, 1, 0, 5, .rw, 0x1, false, .canMode, (.range 1 31)⟩,
   ⟨0x048, 0, 1, 8, 5, .rw, 0x1d, false, .canMode, (.range 1 31)⟩,
   ⟨0x048, 0, 1, 16, 4, .rw, 0xa, false, .canMode, (.range 1 15)⟩,
   ⟨0x048, 0, 1, 24, 4, .rw, 0xa, false, .canMode, (.sjw 16 4 15)⟩,
   ⟨0x04C, 0, 1, 0, 7, .rw, 0xc, false, .canMode, .any⟩,
   ⟨0x04C, 0, 1, 8, 7, .ro, 0x0, false, .canMode, .any⟩,
   ⟨0x050, 0, 1, 0, 16, .rw, 0x3e8, false, .free, (.range 1 65535)⟩,
   ⟨0x054, 0, 1, 0, 6, .rw, 0x3f, false, .canMode, .any⟩,
   ⟨0x054, 0, 1, 8, 6, .rw, 0x3f, false, .canMode, .any⟩,
   ⟨0x054, 0, 1, 16, 6, .rw, 0x3f, false, .canMode, .any⟩,
   ⟨0x058, 0, 1, 0, 2, .ro, 0x0, false, .free, .any⟩,
   ⟨0x058, 0, 1, 2, 1, .ro, 0x0, false, .free, .any⟩,
   ⟨0x058, 0, 1, 3, 1, .ro, 0x0, false, .free, .any⟩,
   ⟨0x058, 0, 1, 4, 1, .ro, 0x0, false, .free, .any⟩,
   ⟨0x058, 0, 1, 5, 3, .ro, 0x0, false, .free, .any⟩,
   ⟨0x058, 0, 1, 8, 8, .ro, 0x0, false, .free, .any⟩,
   ⟨0x058, 0, 1, 16, 8, .ro, 0x0, false, .free, .any⟩,
   ⟨0x05C, 0, 1, 0, 16, .ro, 0x5c0, false, .free, .any⟩,
   ⟨0x060, 0, 1, 0, 3, .rw, 0x0, false, .free, .any⟩,
   ⟨0x064, 0, 1, 0, 3, .ro, 0x0, false, .free, .any⟩,
   ⟨0x064, 0, 1, 3, 1, .ro, 0x0, false, .free, .any⟩,
   ⟨0x064, 0, 1, 16, 16, .ro, 0x0, false, .free, .any⟩,
   ⟨0x068, 0, 1, 0, 9, .ro, 0x0, false, .free, .any⟩,
   ⟨0x06C, 0, 1, 0, 8, .cnt, 0x0, false, .free, .any⟩,
   ⟨0x06C, 0, 1, 8, 8, .cnt, 0x0, false, .free, .any⟩,
   ⟨0x06C, 0, 1, 16, 8, .cnt, 0x0, false, .free, .any⟩,
   ⟨0x06C, 0, 1, 24, 8, .cnt, 0x0, false, .free, .any⟩,
   ⟨0x070, 0, 1, 0, 8, .cnt, 0x0, false, .free, .any⟩,
   ⟨0x070, 0, 1, 8, 8, .cnt, 0x0, false, .free, .any⟩,
   ⟨0x070, 0, 1, 16, 8, .cnt, 0x0, false, .free, .any⟩,
   ⟨0x070, 0, 1, 24, 8, .cnt, 0x0, false, .free, .any⟩,
   ⟨0x074, 0, 1, 0, 8, .cnt, 0x0, false, .free, .any⟩]

/-- Page table of CAN, part 2. -/
def rowsCAN1 : List Row :=
  [⟨0x074, 0, 1, 8, 8, .cnt, 0x0, false, .free, .any⟩,
   ⟨0x074, 0, 1, 16, 8, .cnt, 0x0, false, .free, .any⟩,
   ⟨0x074, 0, 1, 24, 8, .cnt, 0x0, false, .free, .any⟩,
   ⟨0x078, 0, 1, 0, 32, .ro, 0x0, false, .free, .any⟩,
   ⟨0x07C, 0, 1, 0, 32, .ro, 0x0, false, .free, .any⟩,
   ⟨0x080, 0, 1, 0, 8, .rw, 0x64, false, .free, (.range 1 255)⟩,
   ⟨0x080, 0, 1, 8, 4, .rw, 0x2, false, .free, (.range 1 15)⟩,
   ⟨0x084, 0, 1, 0, 4, .ro, 0x0, false, .free, .any⟩,
   ⟨0x084, 0, 1, 4, 1, .ro, 0x0, false, .free, .any⟩,
   ⟨0x084, 0, 1, 5, 1, .ro, 0x0, false, .free, .any⟩,
   ⟨0x084, 0, 1, 6, 1, .ro, 0x0, false, .free, .any⟩,
   ⟨0x084, 0, 1, 8, 8, .ro, 0x0, false, .free, .any⟩,
   ⟨0x084, 0, 1, 16, 4, .ro, 0x0, false, .free, .any⟩,
   ⟨0x088, 0, 1, 0, 1, .wo, 0x0, false, .free, .any⟩,
   ⟨0x800, 8, 16, 0, 31, .rw, 0x0, false, .canMode, .any⟩,
   ⟨0x800, 8, 16, 31, 1, .rw, 0x0, false, .canMode, .any⟩,
   ⟨0x804, 8, 16, 0, 28, .rw, 0x0, false, .canMode, .any⟩,
   ⟨0x804, 8, 16, 31, 1, .rw, 0x0, false, .canMode, .any⟩,
   ⟨0x880, 8, 32, 0, 29, .rw, 0x0, false, .free, .any⟩,
   ⟨0x880, 8, 32, 29, 1, .rw, 0x0, false, .free, .any⟩,
   ⟨0x880, 8, 32, 31, 1, .rw, 0x0, false, .free, .any⟩,
   ⟨0x884, 8, 32, 0, 29, .rw, 0x0, false, .free, .any⟩,
   ⟨0x884, 8, 32, 29, 1, .rw, 0x0, false, .free, .any⟩]

/-- Page table of CAN. -/
def rowsCAN : List Row := rowsCAN0 ++ rowsCAN1

/-- Page table of RDC, part 1. -/
def rowsRDC0 : List Row :=
  [⟨0x040, 0, 1, 0, 2, .ro, 0x3, false, .free, .any⟩,
   ⟨0x040, 0, 1, 2, 1, .ro, 0x0, false, .free, .any⟩,
   ⟨0x040, 0, 1, 3, 1, .ro, 0x0, false, .free, .any⟩,
   ⟨0x040, 0, 1, 4, 1, .ro, 0x0, false, .free, .any⟩,
   ⟨0x040, 0, 1, 5, 1, .ro, 0x0, false, .free, .any⟩,
   ⟨0x040, 0, 1, 6, 1, .ro, 0x0, false, .free, .any⟩,
   ⟨0x040, 0, 1, 7, 1, .ro, 0x0, false, .free, .any⟩,
   ⟨0x044, 0, 1, 0, 1, .rw, 0x0, false, .cfg, .any⟩,
   ⟨0x044, 0, 1, 1, 1, .rw, 0x0, false, .cfg, .any⟩,
   ⟨0x044, 0, 1, 2, 1, .rw, 0x0, false, .cfg, .any⟩,
   ⟨0x044, 0, 1, 3, 1, .rw, 0x0, false, .cfg, .any⟩,
   ⟨0x044, 0, 1, 8, 8, .rw, 0x0, false, .cfg, .any⟩,
   ⟨0x044, 0, 1, 16, 6, .rw, 0x0, false, .cfg, .any⟩,
   ⟨0x044, 0, 1, 24, 6, .rw, 0x0, false, .cfg, .any⟩,
   ⟨0x048, 0, 1, 0, 32, .rw, 0x0, false, .cfg, .any⟩,
   ⟨0x04C, 0, 1, 0, 32, .lat, 0x0, false, .cfg, .any⟩,
   ⟨0x050, 0, 1, 0, 32, .rw, 0x0, false, .cfg, .any⟩,
   ⟨0x054, 0, 1, 0, 32, .lat, 0x0, false, .cfg, .any⟩,
   ⟨0x058, 0, 1, 0, 1, .ro, 0x0, false, .free, .any⟩,
   ⟨0x058, 0, 1, 1, 1, .ro, 0x0, false, .free, .any⟩,
   ⟨0x058, 0, 1, 2, 1, .ro, 0x0, false, .free, .any⟩,
   ⟨0x058, 0, 1, 3, 1, .ro, 0x0, false, .free, .any⟩,
   ⟨0x058, 0, 1, 16, 16, .ro, 0x0, false, .free, .any⟩,
   ⟨0x05C, 0, 1, 0, 4, .ro, 0x0, false, .free, .any⟩,
   ⟨0x05C, 0, 1, 4, 1, .ro, 0x0, false, .free, .any⟩,
   ⟨0x05C, 0, 1, 5, 1, .ro, 0x0, false, .free, .any⟩,
   ⟨0x060, 0, 1, 0, 2, .ro, 0x3, false, .free, .any⟩,
   ⟨0x060, 0, 1, 2, 1, .ro, 0x0, false, .free, .any⟩,
   ⟨0x060, 0, 1, 3, 1, .ro, 0x0, false, .free, .any⟩,
   ⟨0x060, 0, 1, 4, 1, .ro, 0x0, false, .free, .any⟩,
   ⟨0x060, 0, 1, 5, 1, .ro, 0x0, false, .free, .any⟩,
   ⟨0x060, 0, 1, 16, 16, .ro, 0xffff, false, .free, .any⟩,
   ⟨0x064, 0, 1, 0, 1, .ro, 0x0, false, .free, .any⟩,
   ⟨0x064, 0, 1, 1, 1, .ro, 0x0, false, .free, .any⟩,
   ⟨0x064, 0, 1, 2, 1, .ro, 0x0, false, .free, .any⟩,
   ⟨0x064, 0, 1, 3, 1, .ro, 0x0, false, .free, .any⟩,
   ⟨0x064, 0, 1, 4, 1, .ro, 0x0, false, .free, .any⟩,
   ⟨0x064, 0, 1, 5, 1, .ro, 0x0, false, .free, .any⟩,
   ⟨0x064, 0, 1, 16, 16, .ro, 0xffff, false, .free, .any⟩,
   ⟨0x068, 0, 1, 0, 6, .rw, 0xa, false, .free, (.range 1 60)⟩]

/-- Page table of RDC, part 2. -/
def rowsRDC1 : List Row :=
  [⟨0x068, 0, 1, 8, 1, .rw, 0x1, false, .free, .any⟩,
   ⟨0x06C, 0, 1, 0, 1, .ro, 0x0, true, .free, .any⟩,
   ⟨0x06C, 0, 1, 1, 1, .ro, 0x0, false, .free, .any⟩,
   ⟨0x06C, 0, 1, 16, 16, .ro, 0x0, false, .free, .any⟩,
   ⟨0x070, 0, 1, 0, 4, .ro, 0x0, false, .free, .any⟩,
   ⟨0x070, 0, 1, 16, 16, .ro, 0x0, false, .free, .any⟩,
   ⟨0x074, 0, 1, 0, 32, .ro, 0x0, false, .free, .any⟩,
   ⟨0x078, 0, 1, 0, 32, .lat, 0x0, false, .free, .any⟩,
   ⟨0x080, 0, 1, 0, 8, .cnt, 0x0, false, .free, .any⟩,
   ⟨0x080, 0, 1, 8, 8, .cnt, 0x0, false, .free, .any⟩,
   ⟨0x080, 0, 1, 16, 8, .cnt, 0x0, false, .free, .any⟩,
   ⟨0x080, 0, 1, 24, 8, .cnt, 0x0, false, .free, .any⟩,
   ⟨0x084, 0, 1, 0, 8, .cnt, 0x0, false, .free, .any⟩,
   ⟨0x084, 0, 1, 8, 8, .cnt, 0x0, false, .free, .any⟩,
   ⟨0x084, 0, 1, 16, 8, .cnt, 0x0, false, .free, .any⟩,
   ⟨0x100, 4, 8, 0, 32, .ro, 0x0, false, .free, .any⟩,
   ⟨0x120, 4, 8, 0, 32, .rw, 0x0, false, .free, .any⟩,
   ⟨0x400, 0, 1, 0, 32, .grd, 0x0, false, .free, .any⟩,
   ⟨0x404, 0, 1, 0, 32, .grd, 0x0, false, .free, .any⟩,
   ⟨0x800, 32, 8, 0, 1, .rw, 0x0, false, .free, .any⟩,
   ⟨0x800, 32, 8, 1, 1, .rw, 0x0, false, .wmEn, .any⟩,
   ⟨0x800, 32, 8, 2, 1, .rw, 0x0, false, .wmEn, .any⟩,
   ⟨0x800, 32, 8, 8, 8, .rw, 0x0, false, .wmEn, .any⟩,
   ⟨0x800, 32, 8, 16, 6, .rw, 0x0, false, .wmEn, .any⟩,
   ⟨0x800, 32, 8, 24, 6, .rw, 0x0, false, .wmEn, .any⟩,
   ⟨0x804, 32, 8, 0, 32, .rw, 0x0, false, .wmEn, .any⟩,
   ⟨0x808, 32, 8, 0, 32, .lat, 0x0, false, .wmEn, .any⟩,
   ⟨0x80C, 32, 8, 0, 1, .ro, 0x0, false, .free, .any⟩,
   ⟨0x80C, 32, 8, 1, 1, .ro, 0x0, false, .free, .any⟩,
   ⟨0x80C, 32, 8, 2, 1, .ro, 0x0, false, .free, .any⟩,
   ⟨0x80C, 32, 8, 3, 1, .ro, 0x0, false, .free, .any⟩,
   ⟨0x80C, 32, 8, 16, 16, .ro, 0x0, false, .free, .any⟩,
   ⟨0x810, 32, 8, 0, 8, .cnt, 0x0, false, .free, .any⟩,
   ⟨0x810, 32, 8, 8, 8, .cnt, 0x0, false, .free, .any⟩,
   ⟨0x810, 32, 8, 16, 8, .cnt, 0x0, false, .free, .any⟩]

/-- Page table of RDC. -/
def rowsRDC : List Row := rowsRDC0 ++ rowsRDC1

/-- Page table of SLC. -/
def rowsSLC : List Row :=
  [⟨0x040, 0, 1, 0, 6, .rw, 0x3f, false, .roleNotNone, .any⟩,
   ⟨0x040, 0, 1, 8, 6, .rw, 0x3f, false, .roleNotNone, .any⟩,
   ⟨0x040, 0, 1, 16, 6, .rw, 0x3f, false, .roleNotNone, .any⟩,
   ⟨0x040, 0, 1, 24, 6, .rw, 0x3f, false, .roleNotNone, .any⟩,
   ⟨0x044, 0, 1, 0, 2, .ro, 0x0, false, .free, .any⟩,
   ⟨0x044, 0, 1, 2, 1, .ro, 0x0, false, .free, .any⟩,
   ⟨0x044, 0, 1, 3, 1, .ro, 0x0, false, .free, .any⟩,
   ⟨0x044, 0, 1, 4, 1, .ro, 0x0, false, .free, .any⟩,
   ⟨0x044, 0, 1, 16, 16, .ro, 0xffff, false, .free, .any⟩,
   ⟨0x048, 0, 1, 0, 32, .ro, 0x0, false, .free, .any⟩,
   ⟨0x04C, 0, 1, 0, 32, .ro, 0x0, false, .free, .any⟩,
   ⟨0x050, 0, 1, 0, 16, .ro, 0x0, false, .free, .any⟩,
   ⟨0x050, 0, 1, 16, 16, .ro, 0x0, false, .free, .any⟩,
   ⟨0x054, 0, 1, 0, 16, .cnt, 0x0, false, .free, .any⟩,
   ⟨0x054, 0, 1, 16, 8, .cnt, 0x0, false, .free, .any⟩,
   ⟨0x054, 0, 1, 24, 8, .cnt, 0x0, false, .free, .any⟩,
   ⟨0x058, 0, 1, 0, 16, .cnt, 0x0, false, .free, .any⟩,
   ⟨0x058, 0, 1, 16, 16, .ro, 0x0, false, .free, .any⟩,
   ⟨0x05C, 0, 1, 0, 32, .ro, 0x0, false, .free, .any⟩,
   ⟨0x060, 0, 1, 0, 16, .ro, 0x0, false, .free, .any⟩,
   ⟨0x064, 0, 1, 0, 17, .ro, 0x0, false, .free, .any⟩,
   ⟨0x800, 16, 8, 0, 32, .rw, 0x0, false, .roleNotNone, (.aligned 256)⟩,
   ⟨0x804, 16, 8, 0, 27, .rw, 0x0, false, .roleNotNone, (.aligned 256)⟩,
   ⟨0x808, 16, 8, 0, 1, .rw, 0x0, false, .roleNotNone, .appEn⟩,
   ⟨0x80C, 16, 8, 0, 18, .ro, 0x0, false, .free, .any⟩]

/-- Page table of PSU. -/
def rowsPSU : List Row :=
  [⟨0x040, 0, 1, 0, 1, .ro, 0x0, false, .free, .any⟩,
   ⟨0x040, 0, 1, 1, 1, .ro, 0x0, false, .free, .any⟩,
   ⟨0x040, 0, 1, 2, 1, .ro, 0x0, false, .free, .any⟩,
   ⟨0x040, 0, 1, 3, 1, .ro, 0x0, false, .free, .any⟩,
   ⟨0x040, 0, 1, 4, 1, .ro, 0x0, false, .free, .any⟩,
   ⟨0x044, 0, 1, 0, 16, .ro, 0x0, false, .free, .any⟩,
   ⟨0x044, 0, 1, 16, 16, .ro, 0x0, false, .free, .any⟩,
   ⟨0x048, 0, 1, 0, 16, .ro, 0x0, false, .free, .any⟩,
   ⟨0x048, 0, 1, 16, 16, .ro, 0x0, false, .free, .any⟩,
   ⟨0x04C, 0, 1, 0, 16, .ro, 0x0, false, .free, .any⟩,
   ⟨0x04C, 0, 1, 16, 16, .ro, 0x0, false, .free, .any⟩,
   ⟨0x050, 0, 1, 0, 16, .ro, 0xb22, false, .free, .any⟩,
   ⟨0x054, 0, 1, 0, 16, .ro, 0x0, false, .free, .any⟩,
   ⟨0x054, 0, 1, 16, 16, .ro, 0x0, false, .free, .any⟩,
   ⟨0x058, 0, 1, 0, 8, .cnt, 0x0, false, .free, .any⟩,
   ⟨0x058, 0, 1, 8, 8, .cnt, 0x0, false, .free, .any⟩,
   ⟨0x058, 0, 1, 16, 8, .cnt, 0x0, false, .free, .any⟩,
   ⟨0x058, 0, 1, 24, 8, .cnt, 0x0, false, .free, .any⟩,
   ⟨0x05C, 0, 1, 0, 7, .ro, 0x0, false, .free, .any⟩,
   ⟨0x05C, 0, 1, 8, 7, .ro, 0x0, false, .free, .any⟩,
   ⟨0x060, 0, 1, 0, 3, .ro, 0x1, false, .free, .any⟩,
   ⟨0x060, 0, 1, 8, 3, .ro, 0x0, false, .free, .any⟩,
   ⟨0x064, 0, 1, 0, 16, .ro, 0x0, false, .free, .any⟩,
   ⟨0x064, 0, 1, 16, 16, .ro, 0x0, false, .free, .any⟩,
   ⟨0x068, 0, 1, 0, 8, .rw, 0x0, false, .cfg, .any⟩,
   ⟨0x068, 0, 1, 8, 4, .rw, 0x3, false, .cfg, (.range 1 15)⟩,
   ⟨0x068, 0, 1, 16, 4, .ro, 0x0, false, .cfg, .any⟩]

/-- Page table of CIS. -/
def rowsCIS : List Row :=
  [⟨0x040, 0, 1, 0, 1, .ro, 0x0, false, .free, .any⟩,
   ⟨0x040, 0, 1, 1, 1, .ro, 0x0, false, .free, .any⟩,
   ⟨0x040, 0, 1, 2, 1, .ro, 0x0, false, .free, .any⟩,
   ⟨0x040, 0, 1, 3, 1, .ro, 0x0, true, .free, .any⟩,
   ⟨0x040, 0, 1, 4, 1, .ro, 0x0, false, .free, .any⟩,
   ⟨0x044, 0, 1, 0, 32, .ro, 0x0, true, .free, .any⟩,
   ⟨0x048, 0, 1, 0, 32, .ro, 0x0, true, .free, .any⟩,
   ⟨0x04C, 0, 1, 0, 6, .rw, 0x3f, false, .free, .any⟩,
   ⟨0x050, 0, 1, 0, 32, .ro, 0x0, true, .free, .any⟩,
   ⟨0x054, 0, 1, 0, 21, .ro, 0x0, true, .free, .any⟩,
   ⟨0x058, 0, 1, 0, 21, .ro, 0x0, true, .free, .any⟩,
   ⟨0x05C, 0, 1, 0, 12, .ro, 0x0, true, .free, .any⟩,
   ⟨0x060, 0, 1, 0, 8, .cnt, 0x0, false, .free, .any⟩,
   ⟨0x060, 0, 1, 8, 8, .cnt, 0x0, false, .free, .any⟩,
   ⟨0x060, 0, 1, 16, 8, .cnt, 0x0, false, .free, .any⟩,
   ⟨0x064, 0, 1, 0, 3, .rw, 0x0, false, .free, .any⟩,
   ⟨0x068, 0, 1, 0, 32, .rw, 0x0, false, .free, .any⟩,
   ⟨0x06C, 0, 1, 0, 32, .rw, 0x0, false, .free, .any⟩,
   ⟨0x070, 0, 1, 0, 6, .rw, 0x0, false, .free, .any⟩,
   ⟨0x074, 0, 1, 0, 1, .rw, 0x0, true, .free, .any⟩,
   ⟨0x074, 0, 1, 1, 1, .rw, 0x0, true, .trkEn, .any⟩,
   ⟨0x074, 0, 1, 2, 1, .rw, 0x0, true, .trkEn, .any⟩,
   ⟨0x074, 0, 1, 8, 6, .rw, 0x0, true, .trkEn, .any⟩,
   ⟨0x074, 0, 1, 16, 16, .rw, 0x0, true, .trkEn, .any⟩,
   ⟨0x078, 0, 1, 0, 16, .rw, 0x0, true, .trkEn, .any⟩,
   ⟨0x078, 0, 1, 16, 8, .rw, 0x0, true, .trkEn, .any⟩,
   ⟨0x07C, 0, 1, 0, 8, .rw, 0x0, true, .trkEn, .scaleExp⟩,
   ⟨0x080, 0, 1, 0, 32, .rw, 0x0, true, .trkEn, .any⟩,
   ⟨0x084, 0, 1, 0, 32, .rw, 0x0, true, .trkEn, .any⟩,
   ⟨0x088, 0, 1, 0, 32, .ro, 0x0, true, .free, .any⟩,
   ⟨0x100, 4, 8, 0, 32, .ro, 0x0, false, .free, .any⟩,
   ⟨0x120, 4, 8, 0, 32, .rw, 0x0, false, .free, .any⟩,
   ⟨0x400, 0, 1, 0, 32, .grd, 0x0, false, .free, .any⟩,
   ⟨0x800, 4, 64, 0, 1, .ro, 0x0, true, .free, .any⟩,
   ⟨0x800, 4, 64, 1, 1, .ro, 0x0, false, .free, .any⟩,
   ⟨0x800, 4, 64, 2, 1, .ro, 0x0, false, .free, .any⟩]

/-- Page table of MPL. -/
def rowsMPL : List Row :=
  [⟨0x040, 0, 1, 0, 1, .ro, 0x0, true, .free, .any⟩,
   ⟨0x040, 0, 1, 1, 1, .ro, 0x0, true, .free, .any⟩,
   ⟨0x040, 0, 1, 2, 1, .ro, 0x0, false, .free, .any⟩,
   ⟨0x040, 0, 1, 16, 16, .ro, 0x0, true, .free, .any⟩,
   ⟨0x044, 0, 1, 0, 8, .ro, 0x0, false, .free, .any⟩,
   ⟨0x044, 0, 1, 8, 8, .ro, 0x0, false, .free, .any⟩,
   ⟨0x044, 0, 1, 16, 8, .ro, 0x0, false, .free, .any⟩,
   ⟨0x048, 0, 1, 0, 10, .rw, 0xb4, false, .free, (.range 30 730)⟩,
   ⟨0x04C, 0, 1, 0, 32, .rw, 0x0, false, .cfg, .gradeFloor⟩,
   ⟨0x050, 0, 1, 0, 10, .ro, 0x0, false, .free, .any⟩,
   ⟨0x050, 0, 1, 16, 10, .ro, 0x0, false, .free, .any⟩,
   ⟨0x054, 0, 1, 0, 4, .ro, 0x0, false, .free, .any⟩,
   ⟨0x054, 0, 1, 4, 4, .ro, 0x0, false, .free, .any⟩,
   ⟨0x054, 0, 1, 8, 4, .ro, 0x0, false, .free, .any⟩,
   ⟨0x054, 0, 1, 12, 4, .ro, 0x0, false, .free, .any⟩,
   ⟨0x058, 0, 1, 0, 8, .cnt, 0x0, false, .free, .any⟩,
   ⟨0x058, 0, 1, 8, 8, .cnt, 0x0, false, .free, .any⟩,
   ⟨0x058, 0, 1, 16, 8, .cnt, 0x0, false, .free, .any⟩,
   ⟨0x400, 0, 1, 0, 32, .grd, 0x0, false, .free, .any⟩,
   ⟨0x800, 16, 77, 0, 32, .ro, 0x0, false, .free, .any⟩,
   ⟨0x804, 16, 77, 0, 32, .ro, 0x0, true, .free, .any⟩,
   ⟨0x808, 16, 77, 0, 32, .ro, 0x0, false, .free, .any⟩,
   ⟨0x80C, 16, 77, 0, 2, .ro, 0x0, false, .free, .any⟩,
   ⟨0x80C, 16, 77, 2, 1, .ro, 0x0, false, .free, .any⟩,
   ⟨0x80C, 16, 77, 3, 1, .ro, 0x1, false, .free, .any⟩,
   ⟨0x80C, 16, 77, 16, 16, .ro, 0xffff, false, .free, .any⟩,
   ⟨0xE00, 4, 16, 0, 16, .ro, 0x5a0, false, .free, .any⟩,
   ⟨0xE00, 4, 16, 16, 2, .ro, 0x0, false, .free, .any⟩,
   ⟨0xE00, 4, 16, 18, 1, .ro, 0x0, false, .free, .any⟩]

/-- Page table of PNL. -/
def rowsPNL : List Row :=
  [⟨0x040, 0, 1, 0, 1, .ro, 0x0, false, .free, .any⟩,
   ⟨0x040, 0, 1, 1, 1, .ro, 0x0, false, .free, .any⟩,
   ⟨0x040, 0, 1, 2, 1, .ro, 0x0, true, .free, .any⟩,
   ⟨0x040, 0, 1, 3, 1, .ro, 0x0, false, .free, .any⟩,
   ⟨0x040, 0, 1, 4, 1, .ro, 0x0, false, .free, .any⟩,
   ⟨0x040, 0, 1, 5, 1, .ro, 0x0, false, .free, .any⟩,
   ⟨0x040, 0, 1, 6, 1, .ro, 0x0, false, .free, .any⟩,
   ⟨0x040, 0, 1, 7, 1, .ro, 0x0, false, .free, .any⟩,
   ⟨0x040, 0, 1, 8, 1, .ro, 0x0, false, .free, .any⟩,
   ⟨0x040, 0, 1, 9, 3, .ro, 0x0, false, .free, .any⟩,
   ⟨0x044, 0, 1, 0, 16, .ro, 0x0, false, .free, .any⟩,
   ⟨0x044, 0, 1, 16, 4, .ro, 0x0, false, .free, .any⟩,
   ⟨0x044, 0, 1, 20, 4, .ro, 0x0, false, .free, .any⟩,
   ⟨0x048, 0, 1, 0, 16, .rw, 0x7d0, false, .free, (.range 500 60000)⟩,
   ⟨0x048, 0, 1, 16, 6, .rw, 0xa, false, .free, .blinkS⟩,
   ⟨0x048, 0, 1, 22, 10, .rw, 0xfa, false, .free, (.range 50 1023)⟩,
   ⟨0x04C, 0, 1, 0, 16, .ro, 0x0, false, .free, .any⟩,
   ⟨0x050, 0, 1, 0, 32, .ro, 0x0, true, .free, .any⟩,
   ⟨0x054, 0, 1, 0, 8, .cnt, 0x0, false, .free, .any⟩,
   ⟨0x054, 0, 1, 8, 8, .cnt, 0x0, false, .free, .any⟩,
   ⟨0x054, 0, 1, 16, 8, .cnt, 0x0, false, .free, .any⟩,
   ⟨0x054, 0, 1, 24, 8, .cnt, 0x0, false, .free, .any⟩,
   ⟨0x058, 0, 1, 0, 16, .ro, 0x0, false, .free, .any⟩,
   ⟨0x058, 0, 1, 16, 16, .ro, 0x0, false, .free, .any⟩,
   ⟨0x05C, 0, 1, 0, 20, .ro, 0x0, false, .free, .any⟩,
   ⟨0x060, 0, 1, 0, 32, .ro, 0x0, false, .free, .any⟩,
   ⟨0x100, 4, 20, 0, 32, .rw, 0x20202020, false, .free, .any⟩,
   ⟨0x400, 0, 1, 0, 32, .grd, 0x0, false, .free, .any⟩]

end Sys2Proof.Machine
end

