-- ==== Sys2Proof/Machine/Regs.lean ====
section
/-! DEFINITION. The page map (R32), which table row lies at an offset of a page (R33), and the reset word of every
register: the sum of the reset values its page table gives, with the per-page values of the header (R35). -/

namespace Sys2Proof.Machine

/-- The kinds of register page (R32). -/
inductive Kind
  | sys | clo | mpl | psu | tku | rdc | sse | gnt | cis | pnl | qmg | weir | slc | scp | lsq | lpe | ctx | cas | slot
  | fb | eth | syn | wit | can | ser | dbg
deriving DecidableEq, Repr

/-- The kind of an assigned page (R32); none for a page that is not assigned. -/
def pageKind (p : Nat) : Option Kind :=
  if p = 0x00 then some .sys else if p = 0x01 then some .clo else if p = 0x02 then some .mpl
  else if p = 0x03 then some .psu else if p = 0x04 then some .tku else if p = 0x05 then some .rdc
  else if p = 0x06 then some .sse else if p = 0x07 then some .gnt else if p = 0x08 then some .cis
  else if p = 0x09 then some .pnl else if p = 0x0A then some .qmg else if p = 0x0B then some .weir
  else if p = 0x0C then some .slc else if p < 0x10 then none else if p < 0x14 then some .scp
  else if p < 0x18 then some .lsq else if p = 0x18 then some .lpe else if p = 0x19 then some .ctx
  else if p = 0x1A then some .cas else if p = 0x1B then some .slot else if p < 0x20 then none
  else if p < 0x30 then some .fb else if p < 0x40 then none else if p < 0x48 then some .eth
  else if p < 0x4A then some .syn else if p < 0x4C then some .wit else if p < 0x50 then none
  else if p < 0x64 then some .can else if p < 0x84 then some .ser else if p = 0x90 then some .dbg else none

/-- The block type code of a page (R32). -/
def Kind.code : Kind → Nat
  | .sys => 0x01 | .clo => 0x02 | .mpl => 0x03 | .psu => 0x04 | .tku => 0x05 | .rdc => 0x06 | .sse => 0x07
  | .gnt => 0x08 | .cis => 0x09 | .pnl => 0x0A | .qmg => 0x0B | .weir => 0x0C | .slc => 0x0D | .scp => 0x10
  | .lsq => 0x11 | .lpe => 0x12 | .ctx => 0x13 | .cas => 0x14 | .slot => 0x15 | .fb => 0x20 | .eth => 0x30
  | .syn => 0x31 | .wit => 0x32 | .can => 0x40 | .ser => 0x41 | .dbg => 0xF0

/-- The first page of a kind, from which instance numbers count. -/
def Kind.firstPage : Kind → Nat
  | .scp => 0x10 | .lsq => 0x14 | .fb => 0x20 | .eth => 0x40 | .syn => 0x48 | .wit => 0x4A | .can => 0x50
  | .ser => 0x64 | _ => 0

/-- The instance number of a page: 0 for a block that stands alone (R32). -/
def pageInst (k : Kind) (p : Nat) : Nat := if k.firstPage = 0 then 0 else p - k.firstPage

/-- PG_PARAM of each page, as its chapter packs it. -/
def Kind.param (k : Kind) (i : Nat) : Nat :=
  match k with
  | .sys => 0x40204410 | .clo => 0x0A0B | .mpl => 0x480A4D | .psu => 0x081402 | .tku => 0x0A0064 | .rdc => 0x1408
  | .sse => 0x403F | .gnt => 0x73044080 | .cis => 0x08002040 | .pnl => 0x012C0190 | .qmg => 0x4C40 | .weir => 0x0504
  | .slc => 0x6408 | .scp => 0x02404040 | .lsq => 0x48802040 | .lpe => 0x10102080 | .ctx => 0x08004000
  | .cas => 0x01804010 | .slot => 0x80002000 | .fb => 0x104010 + (if 12 ≤ i then 0x100 else 0) | .eth => 0x20
  | .syn => 0x100 | .wit => 0x200 | .can => 0x102008 | .ser => 0x5200 + i / 4 | .dbg => 0x0408

/-- The page table of each kind of page. -/
def Kind.rows : Kind → List Row
  | .sys => rowsSYS | .clo => rowsCLO | .mpl => rowsMPL | .psu => rowsPSU | .tku => rowsTKU | .rdc => rowsRDC
  | .sse => rowsSSE | .gnt => rowsGNT | .cis => rowsCIS | .pnl => rowsPNL | .qmg => rowsQMG | .weir => rowsWEIR
  | .slc => rowsSLC | .scp => rowsSCP | .lsq => rowsLSQ | .lpe => rowsLPE | .ctx => rowsCTX | .cas => rowsCAS
  | .slot => rowsSLOT | .fb => rowsFB | .eth => rowsETH | .syn => rowsETH | .wit => rowsETH | .can => rowsCAN
  | .ser => rowsSER | .dbg => rowsDBG

/-- Whether a row has an entry at offset `off`. -/
def Row.has (r : Row) (off : Nat) : Bool :=
  if r.stride = 0 then off == r.base
  else decide (r.base ≤ off) && (off - r.base) % r.stride == 0 && decide ((off - r.base) / r.stride < r.count)

/-- The table index of offset `off` in row `r`. -/
def Row.idx (r : Row) (off : Nat) : Nat := if r.stride = 0 then 0 else (off - r.base) / r.stride

/-- Rows that the layout of a kind of page shares with others but that are RSV on this page: the force registers of
LSQ1 to LSQ3 (R122), the MEM_ECC table of SCP1 to SCP3 (R256), TASK_PHASE and friends apart; PRP_EN, the PTP fields,
PROTO_RING, SPEED, ACCEPT_BCAST and the filter table of SYN and WIT pages (R329). -/
def rsvRow (k : Kind) (i : Nat) (r : Row) : Bool :=
  match k with
  | .lsq => i != 0 && (decide (0x100 ≤ r.base ∧ r.base ≤ 0x15C) || r.base == 0x410 || r.base == 0x414)
  | .scp => i != 0 && decide (0x100 ≤ r.base ∧ r.base ≤ 0x15C)
  | .eth => i % 2 == 1 && r.base == 0x40 && r.lo == 5
  | .syn => decide (0x800 ≤ r.base) || (r.base == 0x40 && (r.lo == 5 || r.lo == 6 || r.lo == 0))
  | .wit => decide (0x800 ≤ r.base) || r.base == 0x40 || (r.base == 0x54 && (r.lo == 8 || r.lo == 16))
  | _ => false

/-- The rows of page `p` at offset `off`, header included. -/
def rowsAt (p off : Nat) : List Row :=
  match pageKind p with
  | none => []
  | some k =>
    if off < 0x40 then rowsHDR.filter (fun r => r.has off)
    else k.rows.filter (fun r => r.has off && !rsvRow k (pageInst k p) r)

/-- Nominal frequency in MHz of clock `d` at the factory grade: pairs 600, sequencers 200 (scope chapter), loop engine
250 (R153), Cascade 400 (R184), TS125 125 (R63). -/
def nominalMHz (d : Nat) : Nat :=
  if d < 4 then 600 else if d < 8 then 200 else if d = 8 then 250 else if d = 9 then 400 else 125

/-- Values of a reset word that the page tables give per page, block, device or clock. -/
def resetExtra (k : Kind) (i off : Nat) : Nat :=
  if off = 0x000 then k.code * 2 ^ 16 + i * 2 ^ 8
  else if off = 0x008 then k.param i
  else if off = 0x00C then 1
  else match k with
    | .clo => if 0x800 ≤ off ∧ off ≤ 0x850 ∧ (off - 0x800) % 8 = 0 then nominalMHz ((off - 0x800) / 8) * 2 ^ 16 else 0
    | .fb => if off = 0x44 ∧ 12 ≤ i then 1 else 0
    | .syn => if off = 0x40 then 3 + 2 ^ 6 else if off = 0x48 then 0x9600_0100 + 8 + i else 0
    | .wit => if off = 0x40 then 2 + 2 ^ 6 else if off = 0x48 then 0x9600_0100 + 10 + i else 0
    | .eth => if off = 0x48 then 0x9600_0100 + i else 0
    | _ => 0

/-- The reset value that row `r` contributes to its word. -/
def Row.resetPart (r : Row) : Nat := r.reset * 2 ^ r.lo

/-- The reset word of the register with key `key`: what a register that nothing has changed reads as. -/
def resetWord (key : Nat) : Word :=
  let p := key / 4096 / 4096
  let off := key % 4096
  match pageKind p with
  | none => 0
  | some k =>
    BitVec.ofNat 32 (((if off < 0x40 then rowsHDR.filter (fun r => r.has off)
      else k.rows.filter (fun r => r.has off && !rsvRow k (pageInst k p) r)).map Row.resetPart).sum
        + resetExtra k (pageInst k p) off)

/-- Bits of the word with key `key` whose reset is given as MRAM, OTP or Switches: they survive every reset (R466). -/
def mramMask (key : Nat) : Word :=
  let p := key / 4096 / 4096
  BitVec.ofNat 32 (((rowsAt p (key % 4096)).filter (fun r => r.keep)).map (fun r => (2 ^ r.w - 1) * 2 ^ r.lo)).sum

/-- Bits of the word with key `key` that an entry into BOOT keeps: those of `mramMask`, and every register of the always-on
domain (R466). -/
def keepMask (key : Nat) : Word :=
  match pageKind (key / 4096 / 4096) with
  | some .clo => BitVec.allOnes 32
  | some .tku => BitVec.allOnes 32
  | some .psu => BitVec.allOnes 32
  | _ => mramMask key

end Sys2Proof.Machine
end

