-- ==== Sys2Proof/Machine/State.lean ====
section
/-! DEFINITION. The state of the module as plain data: the register store, memories, signal image, the internal state
of every block and the queue of waiting commands; the reasons to stop; the state after reset. -/

namespace Sys2Proof.Machine

/-- Why the module stops with a fault. No meaning raises one: the manual gives every command an effect. -/
inductive Fault
  /-- Raised by no meaning; kept so that the type is inhabited. Safe. -/
  | none
deriving DecidableEq, Repr

/-- Why a command is refused by the model. -/
inductive Refusal
  /-- The command has no meaning in this model yet (safe: no claim about it can be proved). -/
  | notModelled (mnemonic : String)
deriving DecidableEq, Repr

/-- What the last bus access answered. -/
inductive Resp
  | none
  | done
  | data (v : BitVec 64)
  | error
deriving DecidableEq, Repr

/-- A guarded write whose complement has not arrived (R45): offset in the value window, value, master, and the
elapsed time at which it was opened. -/
structure GuardOpen where
  off : Nat
  value : Word
  master : Nat
  since : Nat
deriving DecidableEq, Repr

/-- An abort under way (R53): reason code and the elapsed time at which it was written. -/
structure AbortRec where
  reason : Nat
  since : Nat
deriving DecidableEq, Repr

/-- A signal-image slot (R18): the producer's value and tag word. -/
structure SigSlot where
  value : Word
  tag : Word
deriving DecidableEq, Repr

/-- The slot that nothing has posted to: value 0 and the reset tag (R18). -/
def SigSlot.blank : SigSlot := ⟨0, 0x0000_FFFF⟩

/-- An active force (R113): slot or channel, its number and the forced value. -/
structure Force where
  channel : Bool
  target : Nat
deriving DecidableEq, Repr

/-- The time counter, the tick generator and the servo's hidden state (R62 to R74). `mono` counts TCXO nanoseconds
since POWER_ON and is never stepped. -/
structure Tku where
  ns : BitVec 64
  frac : BitVec 32
  mono : Nat
  opFrac : Nat
  /-- Vessel time of the present tick's boundary, from which the phases of R15 are measured. -/
  base : BitVec 64
  /-- The same boundary as the grids of R87, R124 and R165 see it: during a seam tick the old time of the step's boundary (R74). -/
  grid : BitVec 64
  /-- Counter value in the cycle of the last boundary (the old time T0 of R72). -/
  tickStart : BitVec 64
  /-- The next tick boundary. -/
  next : BitVec 64
  /-- Ticks since POWER_ON. -/
  ticks : Nat
  seam : Bool
  stepPend : Option (BitVec 64)
  stepArmed : Bool
  lastStep : Option Nat
  accepted : Bool
  holdSince : Option Nat
  clampNeg : Bool
  tcxoWin : Nat
  /-- The snapshot instant and the stage cutoff of the present tick have passed (R15). -/
  snapped : Bool
  cut : Bool
deriving DecidableEq, Repr

/-- A module image in NAND (R61, R390): whether its signature verifies, and its header's version and SPLIT. -/
structure NandImage where
  good : Bool
  version : Word
  split : BitVec 4
deriving DecidableEq, Repr

/-- Data held outside the register pages by the device itself: NAND images, the switch block, and bit k for a transceiver in SYN cage
k that does not report 10GBASE-SR (R453). -/
structure Dev where
  imgA : NandImage
  imgB : NandImage
  /-- Image update in progress: the bytes copied. -/
  upd : Option (List Byte)
  swAddr : BitVec 8
  swCompat : Bool
  swLock : Bool
  sfpBad : BitVec 2
deriving DecidableEq, Repr

/-- The front button and the restart bookkeeping (R386 to R388). -/
structure Pwr where
  pressedAt : Option Nat
  releasedAt : Nat
  bootAt : Nat
  goodAt : Nat
  holdAt : Nat
  autoTimes : List Nat
  /-- A restart waits for the end of a planned handover: 1 by request (R59), 2 by the button (R386). -/
  restartAfter : Nat
  /-- The module has been in POWER_ON since a brown-out, and not only since it was unpowered (R385). -/
  brownOut : Bool
  mramOps : Word
  mramCycles : Word
deriving DecidableEq, Repr

/-- The wake controller's record of each clock: elapsed time of the last wake (R10 to R14, R440). -/
structure Clo where
  wakeAt : List (Nat × Nat)
deriving DecidableEq, Repr

/-- Where the module sends a frame or record. -/
inductive Link
  | eth (port : Nat)
  | can (n : Nat)
  | ser (n : Nat)
  | loopback
  | bank (b : Nat)
  | hart (ch : Nat)
  | trip (b : Nat)
deriving DecidableEq, Repr

/-- The internal state of an SSE entry: when it started to send, its last send, its watchdog deadline (elapsed
times); whether a frame is in hand; and, for a producer with LOOPBACK, the state of its own consumer checks (R301). -/
structure Sess where
  startAt : Nat
  sending : Bool
  lastSend : Nat
  wdogAt : Nat
  lbSeq : Nat
  lbGood : Nat
  lbSafe : Bool
  lbWdog : Nat
deriving DecidableEq, Repr

/-- An SSE entry that has never been enabled. -/
def Sess.blank : Sess := ⟨0, false, 0, 0, 0, 0, true, 0⟩

/-- One task of a program image (R121). -/
structure ImgTask where
  present : Bool
  safety : Bool
  cycleMs : Nat
  prio : Nat
  phase : Nat
  entry : Nat
  wcet : Nat
  inputs : List Nat
  outputs : List Nat
deriving DecidableEq, Repr

/-- A task that the image does not hold. -/
def ImgTask.absent : ImgTask := ⟨false, false, 0, 0, 0, 0, 0, [], []⟩

/-- A program bank: what an accepted image holds (R89, R99, R102, R105, R119, R121). -/
structure SeqImage where
  progId : Word
  tasks : List ImgTask
  code : List Word
  timers : List TimerDesc
  counters : List CounterDesc
  edges : Nat
  fbs : List Nat
  initial : List (Nat × Word)
  retain : List RetainEntry
deriving DecidableEq, Repr

/-- A timer (R99): type 1 TON, 2 TOF, 3 TP; the PT of its last evaluation in ms, RUNNING, IN_PREV, Q, the deadline D in
vessel nanoseconds, and whether it has been evaluated since load (R103). -/
structure Tmr where
  pt : Nat
  running : Bool
  inPrev : Bool
  q : Bool
  d : BitVec 64
  seen : Bool
deriving DecidableEq, Repr

/-- A counter (R102): CV, the PV last read, the previous inputs, the stored outputs, and whether a CTU and a CTD have
been executed since load (R103). -/
structure Ctr where
  cv : Int
  pv : Int
  cuPrev : Bool
  cdPrev : Bool
  qu : Bool
  qd : Bool
  seenU : Bool
  seenD : Bool
deriving DecidableEq, Repr

/-- An edge detector: prev, and whether it has been evaluated since load (R103). -/
structure Edg where
  prev : Bool
  seen : Bool
deriving DecidableEq, Repr

/-- The kinds of a branch-stack entry (R98). -/
inductive SKind
  | dash | kand | kor | kxor
deriving DecidableEq, Repr

/-- A CAL handed to the cores of a pair (R86, R104): the function block instance, the task, the addresses of its input and output
images, and the cores that run it. -/
structure CalReq where
  fb : Nat
  task : Nat
  inAddr : Word
  outAddr : Word
  cores : List Nat
deriving DecidableEq, Repr

/-- A task at run time: accumulator, program counter, branch stack, reference time, frozen input list, the X bits as at
freeze, the function block it waits for, and the bookkeeping of its cycles (R88 to R96). -/
structure TaskRt where
  acc : Bool
  pc : Nat
  stack : List (Bool × SKind)
  tc : BitVec 64
  inImg : List (Nat × SigSlot)
  x : Word
  calFail : Bool
  calSince : Nat
  calBudget : Nat
  frozenAt : Nat
  /-- A cycle boundary has passed and the freeze is due at this tick's snapshot instant. -/
  due : Bool
  /-- Frozen and not yet posted. -/
  isOpen : Bool
  /-- Overruns at consecutive boundaries (R93). -/
  consec : Nat
  /-- The cycle in progress has overrun; becomes X.OVERRAN_LAST at the next freeze. -/
  overran : Bool
  first : Bool
  takeover : Bool
  /-- Stopped by an abort; IDLE until TASK_RESUME (R95, R96). -/
  stopped : Bool
  /-- The tick whose boundary was seen last, so that no boundary runs twice (R74). -/
  lastBoundary : Option Nat
  /-- The call that the pair's cores have in hand for this task (R104). -/
  cal : Option CalReq
deriving DecidableEq, Repr

/-- A task that has not run. -/
def TaskRt.blank : TaskRt :=
  ⟨false, 0, [], 0, [], 0, false, 0, 0, 0, false, false, 0, false, true, false, false, none, none⟩

/-- A logic sequencer: its two banks, flag memory, output image, objects, tasks, and the start-up, error-task and
activation bookkeeping (R85 to R119). -/
structure Seq where
  bank0 : Option SeqImage
  bank1 : Option SeqImage
  m : List (Nat × Word)
  out : List (Nat × Word)
  timers : List Tmr
  counters : List Ctr
  edges : List Edg
  tasks : List (Nat × TaskRt)
  /-- Elapsed time at which ACTIVATE was accepted, while pending. -/
  actSince : Option Nat
  /-- The start-up task has ended, or there is none: cyclic tasks may start (R106). -/
  cyclicOn : Bool
  startPend : Bool
  startSince : Option Nat
  /-- The start-up task has failed (R106): LSQ.PG_STAT.FAULT. -/
  startFailed : Bool
  /-- Pending causes of the error task, the tasks whose cycle must end first, the last task and station (R107). -/
  errPend : Word
  errBlock : List Nat
  errTask : Nat
  errStation : Nat
  errNext : Nat
  errDead : Bool
  /-- A core fault or comparator fault of the sequencer (R84). -/
  halted : Bool
deriving DecidableEq, Repr

/-- A sequencer without a program. -/
def Seq.blank : Seq :=
  ⟨none, none, [], [], [], [], [], [], none, false, false, none, false, 0, [], 15, 0, 0, false, false⟩

/-- A remote station over RIX (R109 to R112): elapsed times of the last valid input frame and of the last exchange,
whether a first frame has been accepted, the SAMPLE_TIME of the last frame, the run of valid frames, the sequence of the
module's output frames, the tick of the loss whose substitute post of R111 is due, and the tick boundary of the last post of outputs
(R108). -/
structure Rix where
  lastIn : Nat
  lastOut : Nat
  gotOne : Bool
  run : Nat
  outSeq : Nat
  substTick : Option Nat
  postedAt : Option Word
deriving DecidableEq, Repr

/-- A station entry that has not been enabled. -/
def Rix.blank : Rix := ⟨0, 0, false, 0, 0, none, none⟩

/-- What the Gauntlet keeps of a safety input (R267, R275, R276): missed answers in a row, whether it was valid and its
state at the last scan, whether its test has seen the demand, and since when it is 0 and pressed (elapsed times). -/
structure GIn where
  miss : Nat
  valid : Bool
  st : Bool
  sawDemand : Bool
  zeroSince : Option Nat
  pressSince : Option Nat
deriving DecidableEq, Repr

/-- A safety input that no scan has seen. -/
def GIn.blank : GIn := ⟨0, false, false, false, none, none⟩

/-- The last accepted vote frame of a session (R272): vector, arrival (elapsed time), and whether its role is ACTIVE or
SINGLE. -/
structure Vote where
  vec : BitVec 64
  arr : Option Nat
  src : Bool
deriving DecidableEq, Repr

/-- No vote frame accepted yet. -/
def Vote.blank : Vote := ⟨0, none, false⟩

/-- The Gauntlet (R259 to R294): stored and loaded parameter sets, per-input and per-group state, the vote producer's
last vector, the votes, and whether its supply has failed. -/
structure Gnt where
  stored : List Byte
  tab : List Byte
  ins : List (Nat × GIn)
  /-- Since when each group (4 j + g) disagrees. -/
  discSince : List (Nat × Nat)
  /-- Groups whose discrepancy has lasted DISC_MS. -/
  discOver : List Nat
  vec : BitVec 64
  /-- Safety tasks whose bits stay 0 until the next restart (R264). -/
  zeroTasks : List Nat
  voteA : Vote
  voteB : Vote
  lastVote : Option Nat
  /-- Elapsed time of the last frame of the vote producer. -/
  sentAt : Nat
  first : Bool
  stopped : Bool
  /-- The sequence number of the next trip words (R207). -/
  tripNo : BitVec 8
  /-- Elapsed time of the last scan (R266). -/
  scanAt : Nat
  /-- Elapsed time at which COMMISSION was last accepted: its MRAM record is whole 10 ms later at the latest (R285, R384). -/
  commAt : Option Nat
deriving DecidableEq, Repr

/-- The Gauntlet before its first start. -/
def Gnt.blank : Gnt := ⟨[], [], [], [], [], 0, [], Vote.blank, Vote.blank, none, 0, true, false, 0, 0, none⟩

/-- A test pulse under way (R198): the element it opens (true for the trip element), its start (elapsed time), its width in ns, and
whether a de-energise has arrived within it (R201). -/
structure Pulse where
  trip : Bool
  since : Nat
  width : Nat
  killed : Bool
deriving DecidableEq, Repr

/-- A HART transaction held by a channel (R229): its request, the attempts made, the elapsed time at which the attempt in progress
ended its request, and PREAMBLE and RETRIES as the transaction began with them (R231). -/
structure HartReq where
  noRetry : Bool
  tag : Nat
  frame : List Byte
  attempts : Nat
  sentAt : Option Nat
  pre : Nat
  retries : Nat
deriving DecidableEq, Repr

/-- The bank electronics' state of a channel beyond its registers. -/
structure Chan where
  /-- Value staged at the last cutoff, and whether its source was VALID (R16). -/
  staged : Option Word
  /-- The value last applied: DO state in bit 0, AO command in nA. -/
  applied : Int
  /-- Elapsed time of the entry into output hold (R205). -/
  holdSince : Option Nat
  /-- A first sample has been taken (R195). -/
  sampled : Bool
  /-- The filtered state as captured for the tick's input frame (R196). -/
  cap : Bool
  /-- Elapsed time of the last sample (R194). -/
  sampleAt : Nat
  /-- The state and validity sent to the Gauntlet at the last poll (R207, R25). -/
  pollSt : Bool
  pollOk : Bool
  pulse : Option Pulse
  /-- Elapsed time to which DIs of this test-pulse source are masked (R200). -/
  maskTo : Nat
  /-- Raw input at the last sample before the source's pulse (R200). -/
  rawBefore : Bool
  xFails : Nat
  xPasses : Nat
  /-- PULSE_FAIL of the main and of the trip element (R199). -/
  failMain : Bool
  failTrip : Bool
  /-- Measured own and total loop current in nA (R215, R222, R223). -/
  own : Nat
  total : Nat
  /-- A conversion waits to be posted: value, VALID, SAT (R216, R217). -/
  conv : Option (Word × Bool × Bool)
  /-- Since when the conditions of RANGE_LO, OPEN_LOOP and RANGE_HI differ from their flags (R217). -/
  loSince : Option Nat
  openSince : Option Nat
  hiSince : Option Nat
  complSince : Option Nat
  /-- Since when the supply current differs from SUPPLY_LIMIT (R218). -/
  supSince : Option Nat
  /-- Since when the condition that ends the present join state has lasted (R224). -/
  joinSince : Option Nat
  /-- LIM_LO and LIM_HI as of the last stage cutoff (R231), and whether the command lay outside them (R219). -/
  limLo : Nat
  limHi : Nat
  clip : Bool
  /-- The own current in nA that an AO regulates to (R219, R223), and a ramp to 0 mA: its start and the current there (R225). -/
  target : Int
  ramp : Option (Nat × Int)
  /-- Since when the switch of a DO is closed, the terminal disagrees with the command, the current is below the open-load level, and
  the last fold-back or retry (R192, R193). -/
  onSince : Option Nat
  rbSince : Option Nat
  olSince : Option Nat
  shortAt : Option Nat
  /-- Elapsed time at which the modem's line last fell quiet (R228). -/
  quiet : Nat
  hart : List HartReq
deriving DecidableEq, Repr

/-- A channel of a bank that has just been reset. -/
def Chan.blank : Chan := {
  staged := none, applied := 0, holdSince := none, sampled := false, cap := false, sampleAt := 0, pollSt := false, pollOk := false
  pulse := none, maskTo := 0, rawBefore := false, xFails := 0, xPasses := 0, failMain := false, failTrip := false, own := 0, total := 0
  conv := none, loSince := none, openSince := none, hiSince := none, complSince := none, supSince := none, joinSince := none
  limLo := 0, limHi := 0, clip := false, target := 0, ramp := none, onSince := none, rbSince := none, olSince := none, shortAt := none
  quiet := 0, hart := [] }

/-- A bank's state beyond its registers: its supply, the elapsed times of its reset and of its last valid frames, the
fault hold of R188, the trip-word link, and the answer to the last poll. -/
structure Bank where
  supply : Bool
  resetAt : Nat
  lastOut : Option Nat
  lastDrive : Option Nat
  lastIn : Option Nat
  /-- A valid input frame has arrived in this tick (R203). -/
  inOk : Bool
  /-- Outputs are off for a field-supply fault, until they resume (R188). -/
  fvHold : Bool
  /-- Elapsed time from which FV has been within range (R188). -/
  fvResume : Option Nat
  tripAt : Option Nat
  tripSeq : Option Nat
  /-- A poll answer waits for the next scan (R266). -/
  polled : Bool
  /-- The mode of the valid output frame received for the coming tick boundary (R202). -/
  frame : Option Nat
  /-- The sequence numbers that the next output frame and the next input frame must carry (R202). -/
  outSeq : BitVec 16
  inSeq : BitVec 16
deriving DecidableEq, Repr

/-- A bank that has just been reset. -/
def Bank.blank : Bank := ⟨true, 0, none, none, none, false, false, none, none, none, false, none, 0, 0⟩

/-- The staged result of a loop period (R126): committed at the release instant. -/
structure Job where
  xnext : List Int
  unew : List (Int × Bool)
  uApp : List Int
  y : List Int
  e : List Int
  r : List Int
  yRef : List Int
  uHold : List Int
  frz : List Nat
  inn : List Nat
  sat : Bool × Bool × Bool
  limited : Bool
  refHeld : Bool
  beyond : List Bool
  recover : Nat
  primeGood : Nat
  primePeriods : Nat
deriving DecidableEq, Repr

/-- What a context was before the snapshot instant of the period in hand, which an overrun brings back (R147): CTX_MODE, CTX_PROG, the
latched command, whether FALLBACK was entered by cause 7, the estimate, u_prev, u_hold and VALID of its output slots. -/
structure LoopSave where
  mode : Word
  prog : Word
  cmd : Nat
  from7 : Bool
  x : List Int
  u : List Int
  hold : List Int
  valid : List Bool
deriving DecidableEq, Repr

/-- A loop context beyond its registers and state block (R136 to R149): the latched command, an abort under way, the
per-measurement counters, the PRIMING and COASTING counters, the staged period, what to restore at an overrun, and the
bookkeeping of fallback. -/
structure LoopCtx where
  cmd : Nat
  aborting : Bool
  /-- The number of the tick of the abort write (R149). -/
  abTick : Nat
  frz : List Nat
  inn : List Nat
  /-- The measurements over their bound (R143). -/
  beyond : List Bool
  recover : Nat
  primePeriods : Nat
  job : Option Job
  /-- A period has begun and not been released. -/
  begun : Bool
  /-- What an overrun of the period restores. -/
  save : LoopSave
  /-- The number of the tick of the last release instant (R127). -/
  released : Option Nat
  /-- A second consecutive overrun waits for the next snapshot instant (R147). -/
  due7 : Bool
  /-- FALLBACK was entered by cause 7 (R137). -/
  from7 : Bool
  /-- The first fallback output after an abort is due at this tick's release instant (R149). -/
  soon : Bool
deriving DecidableEq, Repr

/-- A loop context that has not been enabled. -/
def LoopCtx.blank : LoopCtx := {
  cmd := 0, aborting := false, abTick := 0, frz := [], inn := [], beyond := [], recover := 0, primePeriods := 0, job := none, begun := false
  save := ⟨0, 0, 0, false, [], [], [], []⟩, released := none, due7 := false, from7 := false, soon := false }

/-- A Cascade slot beyond its registers and its region of CAS memory (R155 to R182). -/
structure CasSlot where
  /-- Bytes of its region; 0 while EMPTY (R160). -/
  size : Nat
  /-- The next unit of the solve in hand (R176): 0 none, 1 apply, 2 outer-iteration check, 3 waiting for the
  linearisation, 4 outer-iteration preamble, 5 inner iteration, 6 post. -/
  phase : Nat
  /-- Ticks at t_s, elapsed time at the start instant, and the deadline in vessel time (R165). -/
  tick0 : Nat
  startAt : Nat
  deadline : BitVec 64
  /-- Outer iteration in hand, those begun, inner iterations run in it, and CODE (R168, R172). -/
  g : Nat
  outer : Nat
  inner : Nat
  code : Nat
  warmMis : Bool
  cold : Bool
  diag : Bool
  deferred : Bool
  /-- Breach classes counted in this solve, by bit (R159). -/
  breach : Nat
  /-- Unknowns that saturated in this solve (R172). -/
  satX : List Nat
  /-- Free unknowns of the outer iteration (R168). -/
  mask : List Bool
  /-- The dot product rz carried between inner iterations (R168). -/
  rz : Int
  resnorm : Word
  linAt : Nat
  /-- x_post holds a posted solution, and the structure signature it was posted under (R180, R182). -/
  posted : Bool
  postSig : BitVec 64
  /-- Records taken from the descriptor at the ring's CONS_IDX (R167). -/
  ringPos : Nat
  /-- The delta records applied since the load, a later one in the place of an earlier one of the same entry, for the Sluice (R182). -/
  applied : List (Word × Word)
  /-- TRUNC_ACT and BREACH_ACT as the solve in hand began with them (R183). -/
  truncAct : Bool
  breachAct : Bool
  /-- Solves since the last refresh request of REFRESH_MODE 1 (R177). -/
  since : Nat
  req : Bool
  /-- J or W changed while the refresh in progress ran; the completed factor waiting for a start instant and whether J or
  W changed while it was built (R178). -/
  changed : Bool
  ready : Bool
  readyStale : Bool
deriving DecidableEq, Repr

/-- A Cascade slot that is EMPTY. -/
def CasSlot.blank : CasSlot :=
  ⟨0, 0, 0, 0, 0, 0, 0, 0, 0, false, false, false, false, 0, [], [], 0, 0, 0, false, 0, 0, [], false, false, 0, false, false, false, false⟩

/-- A CAN transmit buffer (R333 to R337): the index of its descriptor, its frame record, its absolute launch time, ONE_SHOT,
the descriptor's TAG and XINFO, its place in fetch order, its state (1 waiting for launch, 2 pending, 3 on bus, 4
cancelling), the stamp of its start-of-frame, the attempts made, and whether R338 cancelled it (ON_BUS). -/
structure TxBuf where
  idx : Nat
  w0 : Word
  w1 : Word
  data : List Byte
  launch : Option (BitVec 64)
  oneShot : Bool
  tag : Nat
  xinfo : Nat
  order : Nat
  st : Nat
  sof : Nat
  sofPar : Bool
  tries : Nat
  flushed : Bool
deriving DecidableEq, Repr

/-- A CAN controller beyond its registers (R331 to R343). -/
structure CanCtl where
  bufs : List (Nat × TxBuf)
  /-- Descriptors fetched and not yet passed by CONS_IDX, in ring order, and whether each is complete (R333). -/
  flight : List (Nat × Bool)
  order : Nat
  recovering : Bool
  /-- Frames of the SSE waiting for TXB8: frame word 0 and data. -/
  sseQ : List (Word × List Byte)
  /-- The mode in force; a MODE write waits while a frame of this controller is on the bus (R343). -/
  mode : Nat
  modePend : Option Nat
  /-- Consecutive good frames at the present candidate, whether one had BRS, and since when it is tried (R342). -/
  detGood : Nat
  detBrs : Bool
  detSince : Nat
  /-- The candidate confirmed last, kept in MRAM (R342). -/
  lastCand : Option Nat
deriving DecidableEq, Repr

/-- A CAN controller that is off. -/
def CanCtl.blank : CanCtl := ⟨[], [], 0, false, [], 0, none, 0, false, 0, none⟩

/-- An Ethernet port beyond its registers (R318 to R323): frames of the SSE and the redundancy controller waiting, the frame
in hand (none inside for one of those, else its ring), the rings served last at each priority, the duplicate table with
arrival times, the PRP sequence number, the last supervision frame received and sent. -/
structure EthPort where
  q : List (List Byte)
  hand : Option (Option Nat)
  last0 : Nat
  last1 : Nat
  dup : List (Nat × Nat)
  prpSeq : Nat
  supSeen : Option Nat
  supSent : Nat
deriving DecidableEq, Repr

/-- A port that has sent and received nothing. -/
def EthPort.blank : EthPort := ⟨[], none, 63, 63, [], 0, none, 0⟩

/-- A serial port beyond its registers (R324 to R326): the start-bit stamp of the transmit record in hand with its STEP_PAR; for a Modbus master the request awaiting
its response (TAG, end of the request) or the turnaround under way since. -/
structure SerPort where
  hand : Option (Nat × Bool)
  await : Option (Nat × Nat)
  turn : Option Nat
deriving DecidableEq, Repr

/-- A serial port with no work in hand. -/
def SerPort.blank : SerPort := ⟨none, none, none⟩

/-- What a witness keeps of a member entry (R350, R355): the last heartbeat's arrival (elapsed time) and FLAGS, a pending
request's SEQ, and the arrivals of the member's first cold-start request and last request. -/
structure WmRt where
  hbAt : Option Nat
  flags : Nat
  pend : Option Nat
  firstReq : Option Nat
  lastReq : Option Nat
deriving DecidableEq, Repr

/-- A member entry not heard of. -/
def WmRt.blank : WmRt := ⟨none, 0, none, none, none⟩

/-- The lease a witness keeps for a station (R350, R354): holder entry, expiry, end of the last lease (elapsed times), the
last holder, and the holder whose lease expired without RELINQUISH and has not since been seen to have stopped. -/
structure Lease where
  holder : Option Nat
  until_ : Nat
  ended : Option Nat
  last : Option Nat
  dirty : Option Nat
deriving DecidableEq, Repr

/-- A station that has had no lease. -/
def Lease.blank : Lease := ⟨none, 0, none, none, none⟩

/-- A time exchange under way on the standby (R358): SEQ of its TIME_REQ, send time (elapsed), t1, then t2, t4 and the SEQ of
the TIME_RESP. -/
structure TimeEx where
  seq : Nat
  sentAt : Nat
  t1 : BitVec 32
  resp : Option (BitVec 32 × BitVec 32 × Nat)
deriving DecidableEq, Repr

/-- The redundancy controller beyond its registers (R345 to R371). -/
structure Rdc where
  /-- SEQ of the last record sent; recent SEQs taken, by sender (0 peer, 1 witness, 2 + w member). -/
  seq : Nat
  taken : List (Nat × List Nat)
  /-- Elapsed time of the last valid record by path, while the path is up: 0 SYN0, 1 SYN1, 2 WIT0, 3 WIT1, 4 the witness
  session; 5 + w the heartbeats of member w; 13, 14 the witness's records on WIT0, WIT1. -/
  linkAt : List (Nat × Nat)
  /-- The peer's last heartbeat: arrival and FLAGS. -/
  hbAt : Option Nat
  hbFlags : Nat
  /-- Requests outstanding: SEQ and send time. -/
  reqs : List (Nat × Nat)
  peerReqs : List (Nat × Nat)
  lastReq : Nat
  lastHb : Nat
  /-- Expiry of the witness lease, of the peer lease and of the peer lease signed (elapsed times). -/
  witUntil : Option Nat
  peerUntil : Option Nat
  signUntil : Option Nat
  lapsedAt : Option Nat
  lastDrive : Option Nat
  /-- DRIVE frames have been sent since the entry into the role. -/
  drove : Bool
  /-- STANDBY has been READY without interruption since (R370). -/
  readySince : Option Nat
  /-- A checkpoint has been held since the entry into RUN (R354). -/
  everCkpt : Bool
  /-- A planned handover under way: its tick H and its cause for LAST_TO (R368). -/
  handover : Option (BitVec 64 × Nat)
  /-- The handover tick has passed and the peer is awaited since; the peer has sent DRIVING. -/
  awaitPeer : Option Nat
  /-- The peer has announced a handover (R368): cause 2, or 3 where this module wanted the return. -/
  peerHandover : Nat
  timeEx : Option TimeEx
  /-- Elapsed time of the last TIME_REQ (R358). -/
  exAt : Nat
  /-- Witness duty carried since (R350, R355). -/
  dutyAt : Option Nat
  leases : List (Nat × Lease)
  wm : List (Nat × WmRt)
  /-- The old lease ended (elapsed time), for LAST_TO; the cause of the change of role under way. -/
  toSince : Nat
  toCause : Nat
deriving DecidableEq, Repr

/-- A redundancy controller that has sent and received nothing. -/
def Rdc.blank : Rdc :=
  ⟨0, [], [], none, 0, [], [], 0, 0, none, none, none, none, none, false, none, false, none, none, 0, none, 0, none, [], [],
    0, 0⟩

/-- The Sluice beyond its registers (R359 to R365): images as last sent and blocks marked by writes, the full checkpoint in
progress (start, bytes); on a standby the SEQ taken last, the FULL_BEGIN without a gap since, whether FULL_END has followed
it, whether COMMITs advance the consistent state, the staging and consistent images, their copy in MRAM, and the time of
the last advance. Images are keyed by 65536 × SRC + SRC_ID. -/
structure Slu where
  sentImg : List (Nat × List Byte)
  marks : List Nat
  fullAt : Nat
  fullBytes : Nat
  fullSecond : Nat
  rxSeq : Option Nat
  fullFrom : Option Nat
  fullEnd : Bool
  adv : Bool
  stage : List (Nat × List Byte)
  cons : List (Nat × List Byte)
  mram : List (Nat × List Byte)
  ckptAt : Option Nat
  rate : Nat
  restoreAt : Nat
deriving DecidableEq, Repr

/-- A Sluice that has sent and received nothing. -/
def Slu.blank : Slu := ⟨[], [], 0, 0, 0, none, none, false, false, [], [], [], none, 0, 0⟩

/-- An accumulator of a Cistern track (R397 to R399): OP_SECONDS at its opening, the valid and invalid samples, the extremes with
their stamps, the bin counts, SAT and DEF_CHANGED. -/
structure CisAcc where
  openOps : Nat
  samples : Nat
  invalid : Nat
  mn : Int
  mnOps : Nat
  mnPc : Nat
  mx : Int
  mxOps : Nat
  mxPc : Nat
  bins : List Nat
  sat : Bool
  defChanged : Bool
deriving DecidableEq, Repr

/-- The HOUR, DAY and LIFE accumulators of an enabled track (R399). -/
structure CisTrk where
  hour : CisAcc
  day : CisAcc
  life : CisAcc
deriving DecidableEq, Repr

/-- A checkpoint copy (R400): its SEQ, OP_SECONDS at the flush, and every open accumulator. -/
structure CisCkpt where
  seq : Nat
  ops : Nat
  trks : List (Nat × CisTrk)
deriving DecidableEq, Repr

/-- Where a record that has not been overwritten stands: address, length, TYPE, TRACK and SEQ (R404, R405). -/
structure CisRec where
  addr : Nat
  len : Nat
  typ : Nat
  track : Nat
  seq : Nat
deriving DecidableEq, Repr

/-- The Cistern beyond its registers and the bytes of its area (R395 to R409): accumulators, the two checkpoint copies in
MRAM, the flush in progress, a clear that waits for it (STORES and track mask), the records that stand, the numbers of
the last HOUR and DAY close (OP_SECONDS divided by the epoch), and whether an epoch closed at the present tick boundary, so that
its flush takes the sample of the tick too (R403). -/
structure Cis where
  trks : List (Nat × CisTrk)
  ckA : Option CisCkpt
  ckB : Option CisCkpt
  flush : Option CisCkpt
  clear : Option (Nat × Nat)
  recs : List CisRec
  hours : Nat
  days : Nat
  closed : Bool
deriving DecidableEq, Repr

/-- A Cistern at the module's first start. -/
def Cis.blank : Cis := ⟨[], none, none, none, none, [], 0, 0, false⟩

/-- What the margin planner keeps of a monitor (R414, R420): the worst values of closed DAY epochs, newest first, that of the
present one, sum and count over the learning period, the learned baseline, the elapsed time of the last measurement on schedule, and
a temperature exposure in millionths of an hour (R412). -/
structure Mon where
  worst : List Int
  today : Option Int
  sum : Int
  cnt : Nat
  learned : Option Int
  measured : Option Nat
  exposure : Nat
deriving DecidableEq, Repr

/-- A monitor never measured. -/
def Mon.blank : Mon := ⟨[], none, 0, 0, none, none, 0⟩

/-- The margin planner beyond its registers (R412 to R420): monitors; OP_SECONDS at which learning began (none until the
first start); the monitors held at DUE (a domain's lowering failed with RESULT 2 to 5, or a
logic-side reference is excluded); for pending lowerings, when each was decided and last
tried (elapsed times); a threshold that waits for PFW to clear; for each bank, when it was last recalibrated (elapsed time)
and the median of its references then; the start of the capacitance measurement in hand (elapsed time); and LEAD_DAYS as of the last
prediction (R421). -/
structure Mpl where
  mons : List (Nat × Mon)
  learnFrom : Option Nat
  failed : List Nat
  pend : List (Nat × (Nat × Nat))
  pfNext : Option Nat
  recal : List (Nat × (Nat × Int))
  capAt : Nat
  lead : Nat
deriving DecidableEq, Repr

/-- A planner at the module's first start. -/
def Mpl.blank : Mpl := ⟨[], none, [], [], none, [], 0, 0x0B4⟩

/-- What the panel shows, by region (R423): the levels and numbers each region is composed from. -/
structure PnlImg where
  header : List Nat
  safety : List Nat
  forcing : List Nat
  faults : List Nat
  text : List Nat
deriving DecidableEq, Repr

/-- The panel driver beyond its registers (R423 to R434): the image last completed, the image in hand, whether the update in
hand is exempt, the end of the last update (elapsed time), a full update asked for by REFRESH, the clearing to the BOOT image
due since the start, the lamp test under way since, the marker's state and last toggle, the start of the waveform in hand,
a mismatch at the last check with no update since, and when the edge loop was last measured (R433). -/
structure Pnl where
  shown : Option PnlImg
  target : Option PnlImg
  exempt : Bool
  lastEnd : Option Nat
  refresh : Bool
  bootClear : Bool
  lamp : Option Nat
  marker : Bool
  lastToggle : Nat
  wfAt : Nat
  bad : Bool
  crackAt : Option Nat
deriving DecidableEq, Repr

/-- A panel driver that has shown nothing. -/
def Pnl.blank : Pnl := ⟨none, none, false, none, false, false, none, false, 0, 0, false, none⟩

/-- A safe core pair and its Weir beyond their registers (R240 to R246, R254). -/
structure Pair where
  /-- The agreed bits of the machine timer interrupt (1), the debug halt request (3) and the power-fail warning (4). -/
  agreed : Nat
  /-- Consecutive disagreements by input. -/
  diff : List (Nat × Nat)
  /-- Elapsed time at which each pending cause was first sampled, by input. -/
  seen : List (Nat × Nat)
  /-- The agreed high word held for the next timeh read, and what the last read of the time or timeh CSR returned. -/
  timeHi : Word
  csr : Word
  /-- The core that a debug halt request waits for. -/
  haltReq : Option Nat
  /-- The causes of the traps taken at the last agreement point, in order (R246). -/
  traps : List Nat
  /-- The last agreement point retired a WFI: the pair may sleep. -/
  wfi : Bool
  /-- Elapsed time of the comparator's last test (R240). -/
  testAt : Nat
deriving DecidableEq, Repr

/-- A pair that has just been reset. -/
def Pair.blank : Pair := ⟨0, [], [], 0, 0, none, [], false, 0⟩

/-- The Debug Module beyond the DBG page (R254, R258): its data registers, the triggers of each core (key 4 × core + trigger: control
and match value) and the trigger that each core has selected. -/
structure DebugMod where
  data0 : Word
  data1 : Word
  trigs : List (Nat × (Word × Word))
  tsel : List (Nat × Nat)
  /-- The core that hartsel selects. -/
  hart : Nat
deriving DecidableEq, Repr

/-- A Debug Module that has just been reset. -/
def DebugMod.blank : DebugMod := ⟨0, 0, [], [], 0⟩

/-- A scrubber (R253): the next word of its memory, and elapsed time of the start of its pass. -/
structure Scrub where
  pos : Nat
  since : Nat
deriving DecidableEq, Repr

/-- A scrubber at its first pass. -/
def Scrub.blank : Scrub := ⟨0, 0⟩


/-- The state of the module. -/
structure State where
  /-- Commands waiting, first in, first out. -/
  pending : List Instr
  /-- The register store: words that differ from their reset word, by rkey. -/
  regs : List (Nat × Word)
  /-- Memory bytes: TCMs, shared SRAM, DRAM, MRAM, LPE and CAS memory (R28). -/
  mem : List Host.Cell
  /-- The 8192 slots of the signal image (R18), as their producers left them. -/
  sig : List (Nat × SigSlot)
  /-- Read shadows (R42), by master and register word. -/
  rshadow : List (Nat × Word)
  /-- Write shadows (R43), by master and register word. -/
  wshadow : List (Nat × Option Word)
  /-- Open guarded writes, by page (R45). -/
  guards : List (Nat × GuardOpen)
  /-- Aborts under way, by page and unit (R53). -/
  aborts : List (Nat × AbortRec)
  /-- Active forces, by force entry (R113). -/
  forces : List (Nat × Force)
  /-- What the last bus access answered. -/
  resp : Resp
  /-- Cores with an access fault pending (R29). -/
  coreFaults : List Nat
  /-- The model's own counter of free values; no field of the manual. -/
  freshCtr : Nat
  /-- Time counter, tick generator and servo (R62 to R74). -/
  tku : Tku
  /-- NAND images, switch block and SFP+ cages. -/
  dev : Dev
  /-- Button and restart bookkeeping (R385 to R388). -/
  pwr : Pwr
  /-- The wake controller's record (R10 to R14). -/
  clo : Clo
  /-- Elapsed time at which each ring entry was posted (R316), by ring and index. -/
  ringPosted : List (Nat × Nat)
  /-- The model's own record of what the module put on its links, oldest first; no field of the manual. -/
  sent : List (Link × List Byte)
  /-- The slots posted by the command in hand, latest first; empty between commands. No field of the manual. -/
  posted : List Nat
  /-- The credential store in MRAM (R284), purposes 1 to 5. -/
  creds : List (Nat × BitVec 256)
  /-- Consecutive failed submissions, by purpose code (R284). -/
  credFails : List (Nat × Nat)
  /-- Elapsed time at which each lockout ends, by purpose code (R284). -/
  credLockTo : List (Nat × Nat)
  /-- Elapsed time of the last renewal of each challenge (R284). -/
  chalAt : List (Nat × Nat)
  /-- Elapsed time at which FORCE_AUTH closes, while open (R115). -/
  forceAuth : Option Nat
  /-- Elapsed time at which DBG_AUTH closes, while open (R254). -/
  dbgAuth : Option Nat
  /-- Internal state of the SSE entries, by entry number (R295 to R306). -/
  sess : List (Nat × Sess)
  /-- The logic sequencers, by number (R84 to R122). -/
  seqs : List (Nat × Seq)
  /-- The RIX stations, by station number 16 p + s (R109). -/
  rix : List (Nat × Rix)
  /-- The Gauntlet (R259 to R294). -/
  gnt : Gnt
  /-- The channels, by channel number (R190 to R230). -/
  chans : List (Nat × Chan)
  /-- The banks, by number (R186 to R207). -/
  banks : List (Nat × Bank)
  /-- The loop contexts, by number (R123 to R151). -/
  loops : List (Nat × LoopCtx)
  /-- FREQ_MHZ of the loop-engine query under way; 0 for none (R135). -/
  lpeQuery : Nat
  /-- The Cascade slots, by number (R155 to R185). -/
  cas : List (Nat × CasSlot)
  /-- FREQ_MHZ of the Cascade query under way; 0 for none (R175). -/
  casQuery : Nat
  /-- Lane time of the loop engine in the present second, in ns (LOAD of R153). -/
  lpeBusy : Nat
  /-- Lane time of Cascade in the present second, in ns (LOAD of R184). -/
  casBusy : Nat
  /-- The CAN controllers, by number (R331 to R344). -/
  cans : List (Nat × CanCtl)
  /-- The Ethernet ports, by instance (R318 to R323). -/
  eths : List (Nat × EthPort)
  /-- The serial ports, by number (R324 to R326). -/
  sers : List (Nat × SerPort)
  /-- The redundancy controller (R345 to R375). -/
  rdc : Rdc
  /-- The Sluice (R359 to R365, R376). -/
  slu : Slu
  /-- The Cistern (R395 to R409). -/
  cis : Cis
  /-- The margin planner (R412 to R420). -/
  mpl : Mpl
  /-- The panel driver (R423 to R434). -/
  pnl : Pnl
  /-- The safe core pairs and their Weirs, by number (R235 to R258). -/
  pairs : List (Nat × Pair)
  /-- The Debug Module access in progress (R258): write, address, data. -/
  dmi : Option (Bool × BitVec 7 × Word)
  /-- The Debug Module. -/
  dmod : DebugMod
  /-- The scrubbers by memory: 0 to 5 as MEM_ECC numbers them, 6 + p for the tightly coupled memories of pair `p` (R253). -/
  scrubs : List (Nat × Scrub)
  /-- Elapsed time of the last comparator test of each logic sequencer (R84, R240). -/
  lsqTest : List (Nat × Nat)
deriving DecidableEq, Repr

/-- The machine right after reset: POWER_ON, every register at its reset value, nothing listed in memory, no command
waiting. -/
def State.reset : State :=
  { pending := []
    regs := []
    mem := []
    sig := []
    rshadow := []
    wshadow := []
    guards := []
    aborts := []
    forces := []
    resp := .none
    coreFaults := []
    freshCtr := 0
    tku := ⟨0, 0, 0, 0, 0, 0, 0, 100000, 0, false, none, false, none, false, some 0, false, 0, false, false⟩
    dev := ⟨⟨true, 1, 0⟩, ⟨false, 0, 0⟩, none, 0, false, false, 0⟩
    pwr := ⟨none, 0, 0, 0, 0, [], 0, false, 0, 0⟩
    clo := ⟨[]⟩
    ringPosted := []
    sent := []
    posted := []
    creds := []
    credFails := []
    credLockTo := []
    chalAt := []
    forceAuth := none
    dbgAuth := none
    sess := []
    seqs := []
    rix := []
    gnt := Gnt.blank
    chans := []
    banks := []
    loops := []
    lpeQuery := 0
    cas := []
    casQuery := 0
    lpeBusy := 0
    casBusy := 0
    cans := []
    eths := []
    sers := []
    rdc := Rdc.blank
    slu := Slu.blank
    cis := Cis.blank
    mpl := Mpl.blank
    pnl := Pnl.blank
    pairs := []
    dmi := none
    dmod := DebugMod.blank
    scrubs := []
    lsqTest := [] }

end Sys2Proof.Machine
end

