-- ==== Sys2Proof/Machine/Ops.lean ====
section
/-! DEFINITION. The named operations over registers, time, memory and the signal image that every meaning uses. -/

namespace Sys2Proof.Machine

/-- The number of a master in PG_ERR_ADDR.MASTER (R35). -/
def masterCode (m : Master) : Nat :=
  match m with | .core h => h.val | .user h => h.val | .dbg => 8 | .qmg => 9 | .other => 31

/-- The master is a core in user mode (R30). -/
def isUser (m : Master) : Bool := match m with | .user _ => true | _ => false

/-- Nanoseconds of `n` microseconds, milliseconds and seconds. -/
def us (n : Nat) : Nat := n * 1000
/-- Nanoseconds of `n` milliseconds. -/
def ms (n : Nat) : Nat := n * 1000000
/-- Nanoseconds of `n` seconds. -/
def secs (n : Nat) : Nat := n * 1000000000

/-- 1 for true, 0 for false. -/
def b2n (b : Bool) : Nat := if b then 1 else 0

/-! ### The register store -/

/-- The register word with key `k`. -/
def State.rd (s : State) (k : Nat) : Word := mapGet resetWord s.regs k

/-- Write the register word with key `k`. -/
def State.wr (s : State) (k : Nat) (v : Word) : State := { s with regs := mapSet resetWord s.regs k v }

/-- Bits `lo` to `lo + w - 1` of a word, as a number. -/
def bits (v : Word) (lo w : Nat) : Nat := (v.extractLsb' lo w).toNat

/-- A word with bits `lo` to `lo + w - 1` replaced by `n` modulo `2 ^ w`. -/
def setBits (v : Word) (lo w n : Nat) : Word :=
  let mask : Word := BitVec.ofNat 32 ((2 ^ w - 1) * 2 ^ lo)
  (v &&& ~~~mask) ||| ((BitVec.ofNat 32 n <<< lo) &&& mask)

/-- The present value of a field. -/
def State.get (s : State) (f : Fld) : Nat := bits (s.rd f.key) f.lo f.w

/-- Set a field, leaving the rest of its word. -/
def State.put (s : State) (f : Fld) (n : Nat) : State := s.wr f.key (setBits (s.rd f.key) f.lo f.w n)

/-- A one-bit field is 1. -/
def State.on (s : State) (f : Fld) : Bool := s.get f != 0

/-- Set a one-bit field from a truth value. -/
def State.putB (s : State) (f : Fld) (b : Bool) : State := s.put f (b2n b)

/-- Count 1 in a field, saturating (a CNT field, R40). -/
def State.bump (s : State) (f : Fld) : State := s.put f (min (s.get f + 1) (2 ^ f.w - 1))

/-- Count `n` in a field, saturating. -/
def State.bumpBy (s : State) (f : Fld) (n : Nat) : State := s.put f (min (s.get f + n) (2 ^ f.w - 1))

/-- Count 1 in a field, wrapping. -/
def State.inc (s : State) (f : Fld) : State := s.put f (s.get f + 1)

/-- Set a field to `n`, saturating at its largest value. -/
def State.putSat (s : State) (f : Fld) (n : Nat) : State := s.put f (min n (2 ^ f.w - 1))

/-- A 64-bit value held in a low and a high word. -/
def State.get64 (s : State) (lo hi : Fld) : Nat := s.get lo + 2 ^ 32 * s.get hi

/-- Set a 64-bit value held in a low and a high word. -/
def State.put64 (s : State) (lo hi : Fld) (n : Nat) : State := (s.put lo n).put hi (n / 2 ^ 32)

/-- The signed value of a `w`-bit number. -/
def sx (w n : Nat) : Int := if n < 2 ^ (w - 1) then (n : Int) else (n : Int) - 2 ^ w

/-- The `w`-bit two's complement number of an integer. -/
def ux (w : Nat) (i : Int) : Nat := (i % (2 ^ w : Int)).toNat

/-- `i` held to `lo` and `hi`. -/
def clampI (lo hi i : Int) : Int := if i < lo then lo else if hi < i then hi else i

/-! ### The page header -/

/-- Record an access in PG_ERR_ADDR (R35). -/
def State.errAddr (s : State) (page off cause m : Nat) : State :=
  ((s.put (HDR.PG_ERR_ADDR_OFFSET page) off).put (HDR.PG_ERR_ADDR_CAUSE page) cause).put (HDR.PG_ERR_ADDR_MASTER page) m

/-- Count a refusal as LOST (causes 3 and 4). -/
def State.lost (s : State) (page off cause m : Nat) : State :=
  (s.errAddr page off cause m).bump (HDR.PG_ERR_CNT_LOST page)

/-- Count a refusal as ACCESS (causes 1, 2 and 7). -/
def State.badAccess (s : State) (page off cause m : Nat) : State :=
  (s.errAddr page off cause m).bump (HDR.PG_ERR_CNT_ACCESS page)

/-- Count a failed guarded write as GUARD (causes 5 and 6). -/
def State.badGuard (s : State) (page off cause m : Nat) : State :=
  (s.errAddr page off cause m).bump (HDR.PG_ERR_CNT_GUARD page)

/-- PG_CTRL.ENABLE of a page. -/
def State.enabled (s : State) (page : Nat) : Bool := s.on (HDR.PG_CTRL_ENABLE page)

/-! ### Module state and role -/

/-- The module states of R57, by their codes. -/
def stPOWER_ON : Nat := 0
/-- BOOT (R57). -/
def stBOOT : Nat := 1
/-- CONFIG (R57). -/
def stCONFIG : Nat := 2
/-- STARTUP_TEST (R57). -/
def stSTARTUP : Nat := 3
/-- RUN (R57). -/
def stRUN : Nat := 4
/-- SAFE_HOLD (R57). -/
def stSAFE : Nat := 5
/-- HALT (R57). -/
def stHALT : Nat := 6

/-- SYS.MODULE_STATE.STATE. -/
def State.mstate (s : State) : Nat := s.get SYS.MODULE_STATE_STATE

/-- Set SYS.MODULE_STATE.STATE. -/
def State.setMstate (s : State) (n : Nat) : State := s.put SYS.MODULE_STATE_STATE n

/-- The roles of RDC.ROLE (R346). -/
def roleSINGLE : Nat := 0
/-- ACTIVE (R346). -/
def roleACTIVE : Nat := 1
/-- STANDBY (R346). -/
def roleSTANDBY : Nat := 2
/-- NONE (R346). -/
def roleNONE : Nat := 3

/-- RDC.ROLE.ROLE. -/
def State.role (s : State) : Nat := s.get RDC.ROLE_ROLE

/-- Control runs: RUN in the SINGLE or ACTIVE role. -/
def State.running (s : State) : Bool :=
  s.mstate == stRUN && (s.role == roleSINGLE || s.role == roleACTIVE)

/-- The module is seen on its links as the active one: control runs and the lease has not lapsed. A lapsed member counts
as STANDBY for SSC, vote, HART, CAN and RIX (R353). -/
def State.sends (s : State) : Bool := s.running && !s.on RDC.ROLE_LAPSED

/-- Power-fail warning asserted (R379). -/
def State.pfw (s : State) : Bool := s.on PSU.FEED_STAT_PFW

/-- A feature bit is active (R56). -/
def State.feat (s : State) (b : Nat) : Bool := (s.get (SYS.FEAT_ACTIVE (b / 32))).testBit (b % 32)

/-! ### Free values -/

/-- A value that the manual leaves open, and the state with its counter advanced. -/
def State.free (s : State) : State × Nat := ({ s with freshCtr := s.freshCtr + 1 }, (Config.freeWord s.freshCtr).toNat)

/-! ### Time -/

/-- The counter as one fixed-point number in 2⁻³² ns. -/
def State.fixedTime (s : State) : Nat := s.tku.ns.toNat * 2 ^ 32 + s.tku.frac.toNat

/-- The addend in 2⁻³² ns per 25 MHz cycle (R65). -/
def State.addend (s : State) : Nat := s.get TKU.ADDEND_INT * 2 ^ 32 + s.get TKU.ADDEND_FRAC

/-- Vessel time in whole nanoseconds. -/
def State.now (s : State) : Nat := s.tku.ns.toNat

/-- TCXO nanoseconds since POWER_ON. -/
def State.mono (s : State) : Nat := s.tku.mono

/-- `n` cycles of the 25 MHz TCXO pass: the counter advances by the addend in each (R65), the elapsed time by 40 ns,
and the operating seconds with it (R64). -/
def State.runCycles (s : State) (n : Nat) : State :=
  let t := s.fixedTime + n * s.addend
  let f := s.tku.opFrac + 40 * n
  let s := { s with tku := { s.tku with ns := BitVec.ofNat 64 (t / 2 ^ 32), frac := BitVec.ofNat 32 t,
                                        mono := s.tku.mono + 40 * n, opFrac := f % 1000000000 } }
  if f / 1000000000 = 0 then s else s.put CLO.OP_SECONDS (s.get CLO.OP_SECONDS + f / 1000000000)

/-- Time passes until the elapsed time is at least `t`; none if it already is. -/
def State.untilMono (s : State) (t : Nat) : State := s.runCycles ((t - s.tku.mono + 39) / 40)

/-- Distance from the counter to vessel time `t`, 0 if `t` is past. -/
def State.dist (s : State) (t : BitVec 64) : Nat :=
  let d := (t - s.tku.ns).toNat
  if d < 2 ^ 63 then d else 0

/-- Time passes to the first 25 MHz cycle at which the counter has reached vessel time `t` (R15). -/
def State.untilTime (s : State) (t : BitVec 64) : State :=
  if s.dist t = 0 then s
  else s.runCycles ((s.dist t * 2 ^ 32 - s.tku.frac.toNat + (s.addend - 1)) / max s.addend 1)

/-- Nanoseconds since the last tick boundary (TKU.TICK_PHASE). -/
def State.phase (s : State) : Nat := (s.tku.ns - s.tku.base).toNat

/-! ### Memory -/

/-- What a memory byte that nothing has written reads as: 0 (DESIGN CHOICE, assumption 4: the manual gives no content). -/
def memDflt : Nat → Byte := fun _ => 0

/-- One byte of memory. -/
def State.byte (s : State) (a : Nat) : Byte := mapGet memDflt s.mem a

/-- Write one byte of memory. -/
def State.setByte (s : State) (a : Nat) (b : Byte) : State := { s with mem := mapSet memDflt s.mem a b }

/-- `n` bytes from address `a`. -/
def State.bytes (s : State) (a n : Nat) : List Byte := (List.range n).map (fun i => s.byte (a + i))

/-- Write a list of bytes from address `a` upwards. -/
def State.setBytes (s : State) (a : Nat) : List Byte → State
  | [] => s
  | b :: t => (s.setByte a b).setBytes (a + 1) t

/-- The number that a list of bytes spells, lowest byte first. -/
def leNat : List Byte → Nat
  | [] => 0
  | b :: t => b.toNat + 256 * leNat t

/-- The `n` bytes of a number, lowest byte first. -/
def natLE (n : Nat) (v : Nat) : List Byte :=
  match n with
  | 0 => []
  | k + 1 => BitVec.ofNat 8 v :: natLE k (v / 256)

/-- An `n`-byte little-endian number in memory. -/
def State.mem_le (s : State) (a n : Nat) : Nat := leNat (s.bytes a n)

/-- Write an `n`-byte little-endian number to memory. -/
def State.setLE (s : State) (a n v : Nat) : State := s.setBytes a (natLE n v)

/-- A 32-bit word in memory. -/
def State.mem32 (s : State) (a : Nat) : Nat := s.mem_le a 4

/-- The key of byte `off` of the ITCM (0) or DTCM (1) of core `c`, which that core alone sees (R28, R235). In an unsplit pair both
cores hold the same contents, kept under core 2p. -/
def tcmKey (c dtcm off : Nat) : Nat := 2 ^ 36 + c * 2 ^ 24 + dtcm * 2 ^ 20 + off

/-! ### The signal image -/

/-- A slot as its producer left it. -/
def State.slotRaw (s : State) (n : Nat) : SigSlot := mapGet (fun _ => SigSlot.blank) s.sig n

/-- Set a slot. -/
def State.setSlot (s : State) (n : Nat) (v : SigSlot) : State :=
  { s with sig := mapSet (fun _ => SigSlot.blank) s.sig n v }

/-- The tag fields of R18. -/
def tVALID (t : Word) : Bool := t.getLsbD 31
/-- LATE (R18). -/
def tLATE (t : Word) : Bool := t.getLsbD 30
/-- SUBST (R18). -/
def tSUBST (t : Word) : Bool := t.getLsbD 29
/-- FORCED (R18). -/
def tFORCED (t : Word) : Bool := t.getLsbD 28
/-- SAT (R18). -/
def tSAT (t : Word) : Bool := t.getLsbD 27
/-- SRC_CLASS (R18). -/
def tCLASS (t : Word) : Nat := bits t 24 3
/-- SRC_ID (R18). -/
def tID (t : Word) : Nat := bits t 16 8
/-- AGE (R18). -/
def tAGE (t : Word) : Nat := bits t 0 16

/-- A tag word from its fields; FORCED 0 (R18). -/
def mkTag (valid late subst sat : Bool) (cls id age : Nat) : Word :=
  setBits (setBits (setBits (setBits (setBits (setBits (setBits 0 31 1 (b2n valid)) 30 1 (b2n late)) 29 1 (b2n subst))
    27 1 (b2n sat)) 24 3 cls) 16 8 id) 0 16 age

/-- The active force on slot `n`, if one is set (R113): its entry number. -/
def State.slotForce (s : State) (n : Nat) : Option Nat :=
  (s.forces.find? (fun e => !e.2.channel && e.2.target == n)).map (·.1)

/-- The active force on channel `n` (R113). -/
def State.chanForce (s : State) (n : Nat) : Option Nat :=
  (s.forces.find? (fun e => e.2.channel && e.2.target == n)).map (·.1)

/-- The producer of a slot is class `cls`, instance `id` (R19). -/
def State.isProducer (s : State) (n cls id : Nat) : Bool :=
  let t := (s.slotRaw n).tag
  tCLASS t == cls && tID t == id && cls != 0

/-- The slot has another producer than class `cls`, instance `id` (R19). -/
def State.otherProducer (s : State) (n cls id : Nat) : Bool :=
  let t := (s.slotRaw n).tag
  tCLASS t != 0 && !(tCLASS t == cls && tID t == id)

/-- Make class `cls`, instance `id` the producer of a slot, its value and flags kept (R19). -/
def State.claim (s : State) (n cls id : Nat) : State :=
  let r := s.slotRaw n
  s.setSlot n { r with tag := setBits (setBits r.tag 24 3 cls) 16 8 id }

/-- Free a slot: SRC_CLASS 0 with VALID 0 (R152, R183, R211, R308). -/
def State.freeSlot (s : State) (n : Nat) : State :=
  let r := s.slotRaw n
  s.setSlot n { r with tag := setBits (setBits (setBits r.tag 24 3 0) 16 8 0) 31 1 0 }

/-- A write to slot `n` by class `cls`, instance `id`, is refused (R19): counted, with the slot and the writer. -/
def State.sigRefuse (s : State) (n cls id : Nat) : State :=
  (((s.bump SYS.SIGIMG_ERR_CNT_COUNT).put SYS.SIGIMG_ERR_SLOT_SLOT n).put SYS.SIGIMG_ERR_SLOT_SRC_ID id).put
    SYS.SIGIMG_ERR_SLOT_SRC_CLASS cls

/-- A hardware producer posts value and tag of a slot as one pair; a post to a slot of another producer is refused (R19,
R20). -/
def State.post (s : State) (n : Nat) (cls id : Nat) (v : Word) (valid late subst sat : Bool) (age : Nat) : State :=
  if s.isProducer n cls id then
    let s := s.setSlot n ⟨v, mkTag valid late subst sat cls id (min age 0xFFFF)⟩
    { s with posted := n :: s.posted }
  else s.sigRefuse n cls id

/-- Set VALID 0 on a slot, its value kept (R203, R244). -/
def State.invalidate (s : State) (n : Nat) : State :=
  let r := s.slotRaw n
  s.setSlot n { r with tag := setBits r.tag 31 1 0 }

/-- The tag word with AGE counted up by 1, saturating at 0xFFFF (R18). -/
def ageTag (t : Word) : Word := setBits t 0 16 (min (tAGE t + 1) 0xFFFF)

/-- AGE of every slot counts up by 1 (R18). -/
def State.ageAll (s : State) : State :=
  { s with sig := mapMap (fun _ => SigSlot.blank) (fun _ r => { r with tag := ageTag r.tag }) s.sig }

end Sys2Proof.Machine
end

