-- ==== Sys2Proof/Machine/TimeOps.lean ====
section
/-! DEFINITION. Compute domains and their clocks (R9 to R14, R440, R468), the servo, holdover and steps (R65 to R74):
the shared operations. -/

namespace Sys2Proof.Machine

/-- Bit `i` of a field. -/
def State.bit (s : State) (f : Fld) (i : Nat) : Bool := (s.get f).testBit i

/-- Set bit `i` of a field. -/
def State.putBit (s : State) (f : Fld) (i : Nat) (b : Bool) : State :=
  s.put { f with lo := f.lo + i, w := 1 } (b2n b)

/-! ### Compute domains -/

/-- The page of compute domain `d`: pairs 0 to 3, sequencers 4 to 7, loop engine 8, Cascade 9. -/
def domPage (d : Nat) : Nat :=
  if d < 4 then 0x10 + d else if d < 8 then 0x14 + (d - 4) else if d = 8 then 0x18 else 0x1A

/-- The domain is neither held in reset nor halted in the present module state (R468). A pair with ENABLE 0 is held in
reset (R255). -/
def State.domRuns (s : State) (d : Nat) : Bool :=
  let st := s.mstate
  if st == stBOOT then d == 0
  else if st == stCONFIG || st == stSTARTUP then (decide (4 ≤ d)) || s.enabled (domPage d)
  else if st == stRUN then s.role != roleSTANDBY && (decide (4 ≤ d) || s.enabled (domPage d))
  else false

/-- Elapsed time of the last wake of clock `d`. -/
def State.wakeTime (s : State) (d : Nat) : Nat := mapGet (fun _ => 0) s.clo.wakeAt d

/-- A pair that wakes leaves its WFI (R246). -/
def State.leaveWfi (s : State) (d : Nat) : State :=
  { s with pairs := mapSet (fun _ => Pair.blank) s.pairs d { mapGet (fun _ => Pair.blank) s.pairs d with wfi := false } }

/-- Start the clock of domain `d`, if it sleeps and may run (R10 to R12). -/
def State.wakeDomain (s : State) (d : Nat) : State :=
  if s.domRuns d && !s.bit CLO.AWAKE d then
    let s := (s.putBit CLO.AWAKE d true).putBit CLO.LOCKED d false
    let s := if d < 4 then s.leaveWfi d else s
    { s with clo := { s.clo with wakeAt := mapSet (fun _ => 0) s.clo.wakeAt d s.mono } }
  else s

/-- Stop the clock of domain `d`: AWAKE 0, LOCKED 0 (R10, R468). Whether its PLL bias is kept follows the schedule (R10,
`State.biased`). -/
def State.stopDomain (s : State) (d : Nat) : State := (s.putBit CLO.AWAKE d false).putBit CLO.LOCKED d false

/-- Stop the clocks of the domains in `l`. -/
def State.stopDomains (s : State) : List Nat → State
  | [] => s
  | d :: t => (s.stopDomain d).stopDomains t

/-- Wake the compute domains that WAKE_HOLD names (R12, R468). -/
def State.wakeHeld (s : State) : State :=
  (List.range 10).foldl (fun s d => if s.bit CLO.WAKE_HOLD d then s.wakeDomain d else s) s

/-- Every domain that may no longer run shows AWAKE 0 and LOCKED 0, and one that WAKE_HOLD names is awake
as soon as it may run (R468). -/
def State.applyR468 (s : State) : State := (s.stopDomains ((List.range 10).filter (fun d => !s.domRuns d))).wakeHeld

/-- Monitored clock `d` runs (R63): TS125, number 10, while TS_8NS is active, a compute domain's while it is awake. -/
def State.clkRuns (s : State) (d : Nat) : Bool := if d = 10 then s.feat 4 && s.mstate != stPOWER_ON else s.bit CLO.AWAKE d

/-- The clock of domain `d` runs and is locked. -/
def State.domReady (s : State) (d : Nat) : Bool := s.bit CLO.AWAKE d && s.bit CLO.LOCKED d

/-- Nanoseconds from now to the next snapshot instant at which work of the grid with period `p` and phase `ph` ticks begins (R15,
R87, R124, R165): that of the present tick while it has not passed, else one after a boundary to come. -/
def State.nextGrid (s : State) (p ph : Nat) : Nat :=
  let period := max p 1 * 100000
  if !s.tku.snapped && s.tku.grid.toNat % period == ph * 100000 % period then s.tku.base.toNat + 25000 - s.now
  else (s.tku.next - s.tku.ns).toNat + (ph * 100000 % period + period - s.tku.next.toNat % period) % period + 25000

/-! ### Clock grades (R415, R417) -/

/-- The clock in MHz of compute domain `d` at grade `g` (R415). -/
def gradeMHz (d g : Nat) : Nat :=
  if d < 4 then 600 - 50 * g else if d < 8 then 200 - 10 * g else if d = 8 then 250 - 10 * g else 400 - 20 * g

/-- The highest grade of compute domain `d` (R415). -/
def maxGrade (d : Nat) : Nat := if d < 4 then 6 else if d < 8 then 4 else if d = 8 then 5 else 4

/-- The present clock of domain `d` in MHz. -/
def State.clkMHz (s : State) (d : Nat) : Nat := s.get (CLO.DOM_STAT_FREQ_MHZ d)

/-- The clock at which new work of domain `d` is admitted: the lower of the present clock and a pending one (R417). -/
def State.admMHz (s : State) (d : Nat) : Nat :=
  if s.bit MPL.GRADE_STAT_PENDING d then min (s.clkMHz d) (gradeMHz d (s.get (CLO.DOM_STAT_GRADE d) + 1)) else s.clkMHz d

/-! ### The servo -/

/-- The servo interval in nanoseconds: 2 to the LOG_INTERVAL seconds (R67). -/
def State.servoT (s : State) : Nat :=
  (1000000000 * 2 ^ (sx 8 (s.get TKU.SERVO_INTERVAL_LOG_INTERVAL) + 7).toNat) / 128

/-- The servo integral. -/
def State.integ (s : State) : Int := sx 32 (s.get TKU.INTEG)

/-- A correction of `num / den` exceeds the slew limit of 200 ppm (R68). -/
def slewClamped (num : Int) (den : Nat) : Bool := decide (den < 5000 * num.natAbs)

/-- Load the addend and the rate shown for a correction of `num / den`, held to ±200 ppm (R68): the addend is
40 × (1 + num / den) ns, rounded to its 32 fraction bits in a direction the manual does not give (a free value). -/
def State.loadAddend (s : State) (num : Int) (den : Nat) : State :=
  let clamped := slewClamped num den
  let num' : Int := if clamped then (if num < 0 then -1 else 1) else num
  let den' : Nat := if clamped then 5000 else den
  let exact : Int := 40 * 2 ^ 32 * num'
  let q := exact / (den' : Int)
  let (s, r) := s.free
  let up : Int := if exact % (den' : Int) ≠ 0 ∧ r % 2 = 1 then 1 else 0
  let a := (40 * 2 ^ 32 + q + up).toNat
  let ppb : Int := let x := 1000000000 * num'.natAbs
    let m : Int := ((2 * x + den') / (2 * den') : Nat)
    if num' < 0 then -m else m
  ((s.put TKU.ADDEND_FRAC a).put TKU.ADDEND_INT (a / 2 ^ 32)).put TKU.FREQ_ADJ (ux 32 ppb)

/-- The servo update of R68 for an accepted offset. The integral is frozen while HOLD_I is set, and while the last
update was clamped toward the offset. DESIGN CHOICE (assumption 37): the sign of an offset of 0, which R68 leaves open, is taken as
positive. -/
def State.servoUpdate (s : State) (o : Int) : State :=
  let wasClamped := s.on TKU.SYNC_STAT_SLEW_CLAMP
  let frozen := s.on TKU.SERVO_CTRL_HOLD_I || (wasClamped && (decide (o < 0) == s.tku.clampNeg))
  let i := if frozen then s.integ else clampI (-(2 ^ 31)) (2 ^ 31 - 1) (s.integ + o)
  let s := s.put TKU.INTEG (ux 32 i)
  let num : Int := -((s.get TKU.SERVO_GAIN_KP : Int) * o + (s.get TKU.SERVO_GAIN_KI : Int) * i)
  let s := (s.loadAddend num (16384 * s.servoT)).putB TKU.SYNC_STAT_SLEW_CLAMP (slewClamped num (16384 * s.servoT))
  { s with tku := { s.tku with clampNeg := decide (o < 0) } }

/-- An accepted offset takes effect on OFFSET_LAST, HOLDOVER and the holdover timer (R70, R72). -/
def State.offsetAccepted (s : State) (o : Int) : State :=
  let s := s.put64 TKU.OFFSET_LAST_LO TKU.OFFSET_LAST_HI (ux 64 o)
  let s := s.put TKU.SYNC_STAT_HOLDOVER 0
  { s with tku := { s.tku with accepted := true, holdSince := some s.mono } }

/-- Steps are permitted now: STEP_PERMIT is 1 and the previous step is at least one wrap period past (R71). DESIGN CHOICE (assumption
37): the period is judged when the offset is committed, not at the boundary that would apply it. -/
def State.mayStep (s : State) : Bool :=
  s.on TKU.STEP_PERMIT && (match s.tku.lastStep with | none => true | some t => decide (t + 2 ^ 32 ≤ s.mono))

/-- Offsets are refused now (R67): the servo is off or a step is pending. -/
def State.offsetRefused (s : State) : Bool := !s.on TKU.SERVO_CTRL_SERVO_EN || s.on TKU.SYNC_STAT_STEP_PENDING

/-- An offset committed to SERVO_OFFSET (R67, R71): refused while the servo is off or a step is pending; else it leads
to a step, or updates the servo. `m` is the writing master. -/
def State.offsetCommit (s : State) (o : Int) (m : Nat) : State :=
  if s.offsetRefused then s.lost 0x04 0x060 4 m
  else
    let above := decide (s.get TKU.STEP_THRESH < o.natAbs)
    if (above || !s.on TKU.SYNC_STAT_TIME_VALID) && s.mayStep then
      let s := s.put TKU.SYNC_STAT_STEP_PENDING 1
      { s with tku := { s.tku with stepPend := some (BitVec.ofInt 64 o), stepArmed := false } }
    else
      let s := if above then s.bump TKU.STEP_DENIED_CNT else s.put TKU.SYNC_STAT_TIME_VALID 1
      (s.servoUpdate o).offsetAccepted o

/-- Enter holdover (R70): the addend is corrected by the integral term alone. -/
def State.enterHoldover (s : State) : State :=
  let s := s.put TKU.SYNC_STAT_HOLDOVER 1
  s.loadAddend (-((s.get TKU.SERVO_GAIN_KI : Int) * s.integ)) (16384 * s.servoT)

/-- IN_BAND (R62, R70): a level over the last accepted offset, the servo, holdover and TCXO_DEV. -/
def State.inBand (s : State) : Bool :=
  s.tku.accepted && decide ((sx 64 (s.get64 TKU.OFFSET_LAST_LO TKU.OFFSET_LAST_HI)).natAbs ≤ s.get TKU.SYNC_BAND)
    && s.on TKU.SERVO_CTRL_SERVO_EN && !s.on TKU.SYNC_STAT_HOLDOVER && !s.on CLO.REF_STAT_TCXO_DEV

/-- TS_COARSE (R77): TS_8NS is active and TS125 is not locked. -/
def State.tsCoarse (s : State) : Bool := s.feat 4 && !s.bit CLO.LOCKED 10

/-- A wrap stamp with its STEP_PAR (R79, R80). -/
abbrev Stamp := Nat × Bool

/-- The 32-bit wrap stamp of the present instant (R79). -/
def State.stamp (s : State) : Nat := s.now % 2 ^ 32

/-- The resolution of Ethernet stamps in ns (R77): 8, or 40 without TS_8NS or TS125. -/
def State.ethRes (s : State) : Nat := if s.feat 4 && s.bit CLO.LOCKED 10 then 8 else 40

/-- STEP_PAR of the present instant (R80). -/
def State.stepPar (s : State) : Bool := s.bit TKU.STEP_SEQ 0

/-- Vessel time and STEP_PAR at the instant `ago` ns before now, as a stamp of resolution `res` takes them (R77, R79, R80): in the old
timescale with the old STEP_PAR for an instant before the last step (R74). DESIGN CHOICE (assumption 42): a stamp is the time of the last
step of the resolution at or before the instant. -/
def State.timeAgo (s : State) (res ago : Nat) : Nat × Bool :=
  let d := (ago + res - 1) / res * res
  let before := match s.tku.lastStep with | none => false | some t => decide (s.mono < t + d)
  let now := if before then s.tku.ns - BitVec.ofNat 64 (s.get64 TKU.STEP_LAST_LO TKU.STEP_LAST_HI) else s.tku.ns
  ((now - BitVec.ofNat 64 d).toNat, s.stepPar != before)

/-- The stamp of the instant `ago` ns before now. -/
def State.stampAgo (s : State) (res ago : Nat) : Stamp := ((s.timeAgo res ago).1 % 2 ^ 32, (s.timeAgo res ago).2)

end Sys2Proof.Machine
end

