-- ==== Sys2Proof/Machine/Operands.lean ====
section
/-! DEFINITION. The operands of the block: a slot as its consumers read it, forces included (R113), and the bit operands
of the logic sequencers (R97). -/

namespace Sys2Proof.Machine

/-- The value of force entry `f`. -/
def State.forceVal (s : State) (f : Nat) : Word := BitVec.ofNat 32 (s.get (LSQ.FORCE_VAL 0 f))

/-- Channel `ch` is an enabled input channel: DI of any kind or AI. -/
def State.isInputChan (s : State) (ch : Nat) : Bool :=
  let t := s.get (FB.CH_CFG_TYPE (ch / 16) (ch % 16))
  s.on (FB.CH_CFG_EN (ch / 16) (ch % 16)) && (t == 1 || t == 2 || t == 3 || t == 5)

/-- The force that a consumer sees on slot `n`: the slot's own, else that of the input channel that produces it
(R113). -/
def State.visibleForce (s : State) (n : Nat) : Option Nat :=
  match s.slotForce n with
  | some f => some f
  | none =>
    let t := (s.slotRaw n).tag
    if tCLASS t = 1 && s.isInputChan (tID t) && s.get (FB.CH_SLOT_SLOT (tID t / 16) (tID t % 16)) == n then s.chanForce (tID t)
    else none

/-- The tag of a forced slot: VALID 1, LATE 0, SUBST 0, SAT 0, FORCED 1, AGE 0, producer unchanged (R113). -/
def forcedTag (t : Word) : Word := setBits (mkTag true false false false (tCLASS t) (tID t) 0) 28 1 1

/-- Slot `n` as a consumer reads it (R113). -/
def State.slotView (s : State) (n : Nat) : SigSlot :=
  match s.visibleForce n with
  | some f => ⟨s.forceVal f, forcedTag (s.slotRaw n).tag⟩
  | none => s.slotRaw n

/-- The module has an active force. -/
def State.anyForce (s : State) : Bool := !s.forces.isEmpty

/-! ### Sequencers and tasks -/

/-- Sequencer `q`. -/
def State.seqOf (s : State) (q : Nat) : Seq := mapGet (fun _ => Seq.blank) s.seqs q

/-- Set sequencer `q`. -/
def State.setSeq (s : State) (q : Nat) (v : Seq) : State := { s with seqs := mapSet (fun _ => Seq.blank) s.seqs q v }

/-- Task `t` of a sequencer. -/
def Seq.task (v : Seq) (t : Nat) : TaskRt := mapGet (fun _ => TaskRt.blank) v.tasks t

/-- Set task `t`. -/
def Seq.setTask (v : Seq) (t : Nat) (r : TaskRt) : Seq := { v with tasks := mapSet (fun _ => TaskRt.blank) v.tasks t r }

/-- Task `t` of sequencer `q` at run time. -/
def State.task (s : State) (q t : Nat) : TaskRt := (s.seqOf q).task t

/-- Set task `t` of sequencer `q`. -/
def State.setTask (s : State) (q t : Nat) (r : TaskRt) : State := s.setSeq q ((s.seqOf q).setTask t r)

/-- The active bank's image. -/
def State.image (s : State) (q : Nat) : Option SeqImage :=
  if s.on (LSQ.SEQ_STAT_ACT_BANK q) then (s.seqOf q).bank1 else (s.seqOf q).bank0

/-- The inactive bank's image. -/
def State.spare (s : State) (q : Nat) : Option SeqImage :=
  if s.on (LSQ.SEQ_STAT_ACT_BANK q) then (s.seqOf q).bank0 else (s.seqOf q).bank1

/-- Set the inactive bank. -/
def State.setSpare (s : State) (q : Nat) (i : Option SeqImage) : State :=
  let v := s.seqOf q
  s.setSeq q (if s.on (LSQ.SEQ_STAT_ACT_BANK q) then { v with bank0 := i } else { v with bank1 := i })

/-- Task `t` of an image. -/
def SeqImage.task (i : SeqImage) (t : Nat) : ImgTask := i.tasks.getD t ImgTask.absent

/-- Task `t` of the active image. -/
def State.imgTask (s : State) (q t : Nat) : ImgTask :=
  match s.image q with | none => ImgTask.absent | some i => i.task t

/-- The state of a task (TASK_STAT.STATE). -/
def State.taskSt (s : State) (q t : Nat) : Nat := s.get (LSQ.TASK_STAT_STATE q t)

/-- Set the state of a task. -/
def State.setTaskSt (s : State) (q t n : Nat) : State := s.put (LSQ.TASK_STAT_STATE q t) n

/-- IDLE (R122). -/
def tkIDLE : Nat := 0
/-- WAIT (R122). -/
def tkWAIT : Nat := 1
/-- READY (R122). -/
def tkREADY : Nat := 2
/-- RUNNING (R122). -/
def tkRUN : Nat := 3
/-- PREEMPTED (R122). -/
def tkPREEMPT : Nat := 4
/-- CAL_WAIT (R122). -/
def tkCAL : Nat := 5
/-- FAULT (R122). -/
def tkFAULT : Nat := 6

/-! ### The output image, flag memory and objects -/

/-- A word of the output image (R89). -/
def Seq.outWord (v : Seq) (n : Nat) : Word := mapGet (fun _ => (0 : Word)) v.out n

/-- Set a word of the output image. -/
def Seq.setOut (v : Seq) (n : Nat) (w : Word) : Seq := { v with out := mapSet (fun _ => (0 : Word)) v.out n w }

/-- Word `k` of flag memory: bits 32 k to 32 k + 31. -/
def Seq.mWord (v : Seq) (k : Nat) : Word := mapGet (fun _ => (0 : Word)) v.m k

/-- Set a word of flag memory. -/
def Seq.setM (v : Seq) (k : Nat) (w : Word) : Seq := { v with m := mapSet (fun _ => (0 : Word)) v.m k w }

/-- A word with bit `b` set to `x`. -/
def setBit (w : Word) (b : Nat) (x : Bool) : Word := setBits w b 1 (b2n x)

/-- Mark the slots in `l` LATE where class `cls`, instance `id` produces them: previous value, AGE counting (R92, R94, R203). -/
def State.lateSlots (s : State) (cls id : Nat) : List Nat → State
  | [] => s
  | n :: t =>
    let r := s.slotRaw n
    (if s.isProducer n cls id then s.setSlot n { r with tag := setBit r.tag 30 true } else s).lateSlots cls id t

/-! ### Bit operands (R97) -/

/-- AREA of an operand. -/
def opArea (o : BitVec 24) : Nat := o.toNat / 2 ^ 21
/-- Bits [20:18] of an operand, which must be 0. -/
def opRsv (o : BitVec 24) : Nat := o.toNat / 2 ^ 18 % 8
/-- ADDR of an operand. -/
def opAddr (o : BitVec 24) : Nat := o.toNat % 2 ^ 18

/-- A bit operand's value, or the fault cause of R94: reserved bits 1, range or list 2. DESIGN CHOICE (assumption 37): a bit of ADDR that
must be 0 in areas M and K gives cause 2. -/
def State.readBit (s : State) (q t : Nat) (o : BitVec 24) : Except Nat Bool :=
  let v := s.seqOf q
  let r := v.task t
  let a := opAddr o
  if opRsv o ≠ 0 then .error 1
  else match opArea o with
  | 0 => match r.inImg.find? (fun e => e.1 == a / 32) with
    | some e => .ok (e.2.value.getLsbD (a % 32)) | none => .error 2
  | 1 => match r.inImg.find? (fun e => e.1 == a / 32) with
    | some e => .ok (e.2.tag.getLsbD (a % 32)) | none => .error 2
  | 2 => if (s.imgTask q t).outputs.contains (a / 32) then .ok ((v.outWord (a / 32)).getLsbD (a % 32)) else .error 2
  | 3 => if a < 65536 then .ok ((v.mWord (a / 32)).getLsbD (a % 32)) else .error 2
  | 4 => match v.timers[a]? with | some x => .ok x.q | none => .error 2
  | 5 => if 2048 ≤ a then .error 2
    else match v.counters[a % 1024]? with
      | some c => .ok (if a / 1024 = 0 then c.qu else c.qd) | none => .error 2
  | 6 => if 32 ≤ a then .error 2
    else if a = 3 then .ok r.calFail
    else if a = 5 then .ok s.anyForce
    else .ok (r.x.getLsbD a)
  | _ => if 2 ≤ a then .error 2 else .ok (a == 1)

/-- Whether a bit operand may be written: areas Q and M only (R98); the fault cause otherwise. -/
def State.storeCause (s : State) (q t : Nat) (o : BitVec 24) : Nat :=
  if opRsv o ≠ 0 then 1
  else if opArea o = 2 then (if (s.imgTask q t).outputs.contains (opAddr o / 32) then 0 else 2)
  else if opArea o = 3 then (if opAddr o < 65536 then 0 else 2)
  else 2

/-- Write a bit operand of area Q or M. -/
def State.writeBit (s : State) (q : Nat) (o : BitVec 24) (x : Bool) : State :=
  let v := s.seqOf q
  let k := opAddr o / 32
  if opArea o = 2 then s.setSeq q (v.setOut k (setBit (v.outWord k) (opAddr o % 32) x))
  else s.setSeq q (v.setM k (setBit (v.mWord k) (opAddr o % 32) x))

end Sys2Proof.Machine
end

