-- ==== Sys2Proof/Machine/LoopOps.lean ====
section
/-! DEFINITION. The loop engine (R123 to R151): memory layout, number formats, admission, one period, transitions,
release, overrun, fallback, abort and disable. -/

namespace Sys2Proof.Machine

/-! ### Context data -/

/-- Loop context `c` beyond its registers. -/
def State.loop (s : State) (c : Nat) : LoopCtx := mapGet (fun _ => LoopCtx.blank) s.loops c

/-- Set loop context `c`. -/
def State.setLoop (s : State) (c : Nat) (v : LoopCtx) : State :=
  { s with loops := mapSet (fun _ => LoopCtx.blank) s.loops c v }

/-- OPEN (R136). -/
def lpOPEN : Nat := 0
/-- PRIMING (R136). -/
def lpPRIMING : Nat := 1
/-- CLOSED (R136). -/
def lpCLOSED : Nat := 2
/-- COASTING (R136). -/
def lpCOASTING : Nat := 3
/-- FALLBACK (R136). -/
def lpFALLBACK : Nat := 4

/-- CTX_MODE.STATE. -/
def State.loopSt (s : State) (c : Nat) : Nat := s.get (CTX.CTX_MODE_STATE c)
/-- CTX_CFG.EN. -/
def State.loopEn (s : State) (c : Nat) : Bool := s.on (CTX.CTX_CFG_EN c)
/-- PRIMING, CLOSED or COASTING. -/
def loopRuns (st : Nat) : Bool := st == lpPRIMING || st == lpCLOSED || st == lpCOASTING

/-- n of R123. -/
def State.lpN (s : State) (c : Nat) : Nat := s.get (CTX.CTX_DIM_N_STATES c)
/-- p of R123. -/
def State.lpP (s : State) (c : Nat) : Nat := s.get (CTX.CTX_DIM_N_MEAS c)
/-- m of R123. -/
def State.lpM (s : State) (c : Nat) : Nat := s.get (CTX.CTX_DIM_N_OUT c)
/-- q of R123. -/
def State.lpQ (s : State) (c : Nat) : Nat := s.get (CTX.CTX_DIM_N_REF c)
/-- P of R123 in ticks. -/
def State.lpPeriod (s : State) (c : Nat) : Nat := s.get (CTX.CTX_PERIOD_PERIOD c)

/-- Coefficient block of context `c` (R130). -/
def coefBase (c : Nat) : Nat := 0x50000000 + c * 0x4000
/-- State block of context `c` (R130). -/
def stateBase (c : Nat) : Nat := 0x50200000 + c * 0x800

/-- A signed 32-bit word of memory. -/
def State.memI (s : State) (a : Nat) : Int := sx 32 (s.mem32 a)

/-- `k` signed words from address `a`. -/
def State.memVec (s : State) (a k : Nat) : List Int := (List.range k).map (fun i => s.memI (a + 4 * i))

/-- Write signed words from address `a`. -/
def State.putVecI (s : State) (a : Nat) : List Int → State
  | [] => s
  | x :: t => (s.setLE a 4 (ux 32 x)).putVecI (a + 4) t

/-- Row `i` of a matrix with `cols` columns at `base`, its first `k` elements (R130). -/
def State.row (s : State) (base cols i k : Nat) : List Int := s.memVec (base + 4 * cols * i) k

/-- The sum of products. -/
def dot (a b : List Int) : Int := ((a.zip b).map (fun x => x.1 * x.2)).sum

/-! ### Number formats (R128, R129) -/

/-- Round a 2⁻⁵⁷ accumulator to Q1.30, to nearest with ties to even. -/
def roundQ (v : Int) : Int :=
  let q := v / 2 ^ 27
  let r := v % 2 ^ 27
  if 2 ^ 26 < r ∨ (r = 2 ^ 26 ∧ q % 2 = 1) then q + 1 else q

/-- A rounded value lies outside the Q1.30 range. -/
def outOfRange (q : Int) : Bool := decide (q < -(2 ^ 31) ∨ 2 ^ 31 - 1 < q)

/-- Saturate to the Q1.30 range. -/
def satQ (q : Int) : Int := clampI (-(2 ^ 31)) (2 ^ 31 - 1) q

/-- An accumulator value converted to Q1.30, and whether it saturated (R129). -/
def roundSat (v : Int) : Int × Bool := let q := roundQ v; (satQ q, outOfRange q)

/-! ### Admission (R132 to R135) -/

/-- The cost M of a context in lane-cycles (R132). -/
def State.loopCost (s : State) (c : Nat) : Nat :=
  let n := s.lpN c
  let p := s.lpP c
  let m := s.lpM c
  let q := s.lpQ c
  n * n + 2 * n * p + 2 * n * m + m * q + 2 * p + 2 * m + 8

/-- The sum of two fractions. -/
def fracAdd (a b : Nat × Nat) : Nat × Nat := (a.1 * b.2 + b.1 * a.2, a.2 * b.2)

/-- A fraction rounded up. -/
def fracCeil (a : Nat × Nat) : Nat := (a.1 + a.2 - 1) / max a.2 1

/-- The rate demand of the contexts in `l` in kMAC/s (R133). -/
def State.rateDemand (s : State) (l : List Nat) : Nat × Nat :=
  l.foldl (fun a c => fracAdd a (10 * s.loopCost c, max (s.lpPeriod c) 1)) (0, 1)

/-- The deadline demand of the contexts in `l` in kMAC/s (R133): D = (P − 1) × 100 µs + 63 µs. -/
def State.densDemand (s : State) (l : List Nat) : Nat × Nat :=
  l.foldl (fun a c => fracAdd a (1000000 * s.loopCost c, (s.lpPeriod c - 1) * 100000 + 63000)) (0, 1)

/-- The enabled contexts. -/
def State.loopsEn (s : State) : List Nat := (List.range 128).filter s.loopEn

/-- The rate condition at `f` MHz: 0.80 × 32 × F in kMAC/s. -/
def State.rateOk (s : State) (l : List Nat) (f : Nat) : Bool :=
  decide ((s.rateDemand l).1 ≤ 25600 * f * (s.rateDemand l).2)

/-- The deadline condition at `f` MHz: 0.90 × 32 × F in kMAC/s. -/
def State.densOk (s : State) (l : List Nat) (f : Nat) : Bool :=
  decide ((s.densDemand l).1 ≤ 28800 * f * (s.densDemand l).2)

/-- Show the demands of the enabled set. -/
def State.showDemand (s : State) : State :=
  let l := s.loopsEn
  ((s.putSat LPE.RATE_DEMAND (fracCeil (s.rateDemand l))).putSat LPE.DENS_DEMAND (fracCeil (s.densDemand l))).put
    LPE.ADM_STAT_ADMITTED l.length

/-- An output slot of context `c` has another producer (R134). -/
def State.loopSlotBad (s : State) (c : Nat) : Bool :=
  (List.range (s.lpM c)).any (fun j => s.otherProducer (s.get (CTX.OUT_SLOT c j)) 4 c)

/-- The first failure of R134 for context `c`; 0 for none. Dimensions, period and slots come before the load
conditions, which are computed from them. -/
def State.admission (s : State) (c : Nat) : Nat :=
  let n := s.lpN c
  let p := s.lpP c
  let m := s.lpM c
  let q := s.lpQ c
  let per := s.lpPeriod c
  let l := (s.loopsEn.filter (· != c)) ++ [c]
  if n = 0 ∨ 32 < n ∨ p = 0 ∨ 16 < p ∨ m = 0 ∨ 16 < m ∨ 16 < q then 3
  else if per = 0 ∨ 10000 < per ∨ per ≤ s.get (CTX.CTX_PERIOD_PHASE c) then 4
  else if s.loopSlotBad c then 5
  else if !s.rateOk l (s.admMHz 8) then 1
  else if !s.densOk l (s.admMHz 8) then 2
  else 0

/-- The output slots of context `c`. -/
def State.loopSlots (s : State) (c : Nat) : List Nat := (List.range (s.lpM c)).map (fun j => s.get (CTX.OUT_SLOT c j))

/-- Make class `cls`, instance `id` the producer of the slots in `l`. -/
def State.claimAll (s : State) (cls id : Nat) : List Nat → State
  | [] => s
  | n :: t => (s.claim n cls id).claimAll cls id t

/-- Free the slots in `l` that class `cls`, instance `id` produces. -/
def State.freeAll (s : State) (cls id : Nat) : List Nat → State
  | [] => s
  | n :: t => (if s.isProducer n cls id then s.freeSlot n else s).freeAll cls id t

/-- Admission succeeds: the context is enabled in OPEN (R134). -/
def State.loopEnable (s : State) (c : Nat) : State :=
  let s := (s.claimAll 4 c (s.loopSlots c)).put (CTX.CTX_CFG_EN c) 1
  let s := (s.setLoop c LoopCtx.blank).put (CTX.CTX_MODE_CMD_PENDING c) 0
  let s := ((s.put (CTX.CTX_MODE_STATE c) lpOPEN).put (CTX.CTX_MODE_LAST_CAUSE c) 0).put (CTX.CTX_PERIODS c) 0
  s.showDemand

/-- EN of an OPEN context is cleared (R152). DESIGN CHOICE (assumption 37): a command that waits is dropped with it, uncounted. -/
def State.loopDisable (s : State) (c : Nat) : State :=
  let s := (s.freeAll 4 c (s.loopSlots c)).put (CTX.CTX_CFG_EN c) 0
  ((s.setLoop c LoopCtx.blank).put (CTX.CTX_MODE_CMD_PENDING c) 0).showDemand

/-! ### Transitions (R137 to R140) -/

/-- Post the output slots of context `c` with VALID 0, values kept (R139, R150). -/
def State.loopInvalid (s : State) (c : Nat) : List Nat → State
  | [] => s
  | n :: t => (if s.isProducer n 4 c then s.invalidate n else s).loopInvalid c t

/-- Enter a state with a cause (R137); entry into OPEN with OPEN_ACT 0 posts the outputs once with VALID 0 (R139). -/
def State.loopEnter (s : State) (c st cause : Nat) : State :=
  let s := ((s.put (CTX.CTX_MODE_STATE c) st).put (CTX.CTX_MODE_LAST_CAUSE c) cause).put (CTX.CTX_MODE_FB_DONE c) 0
  let v := s.loop c
  let s := s.setLoop c { v with from7 := decide (st = lpFALLBACK ∧ cause = 7) }
  if st = lpOPEN ∧ ¬ s.on (CTX.CTX_CFG_OPEN_ACT c) then s.loopInvalid c (s.loopSlots c) else s

/-- A pending command is displaced (R137): discarded and counted as LOST with cause 4. -/
def State.loopDisplace (s : State) (c : Nat) : State :=
  let v := s.loop c
  if v.cmd = 0 then s
  else ((s.setLoop c { v with cmd := 0 }).put (CTX.CTX_MODE_CMD_PENDING c) 0).lost 0x19 0x400 4 31

/-- Word `k` of output `j`'s limits: 0 U_MIN, 1 U_MAX, 2 RATE_MAX, 3 FB_VALUE, 4 FB_RATE (R130). -/
def State.outLim (s : State) (c j k : Nat) : Int := s.memI (coefBase c + 0x3400 + 32 * j + 4 * k)

/-- The conditions under which CLOSE is refused (R138). -/
def State.closeBad (s : State) (c : Nat) : Bool :=
  !s.loopEn c || (List.range (s.lpM c)).any (fun j =>
    decide (s.outLim c j 1 < s.outLim c j 0) || decide (s.outLim c j 2 < 0) || decide (s.outLim c j 4 < 0) ||
    decide (s.outLim c j 3 < s.outLim c j 0) || decide (s.outLim c j 1 < s.outLim c j 3))

/-- A loop command is accepted in the present state (R138). -/
def State.cmdOk (s : State) (c v : Nat) : Bool :=
  let st := s.loopSt c
  if v = 1 then (st == lpOPEN || st == lpFALLBACK) && !s.closeBad c
  else if v = 2 then s.loopEn c && st != lpOPEN
  else if v = 3 then s.loopEn c && loopRuns st else false

/-- Latch a loop command (R138); one that an abort displaces is discarded (R149). -/
def State.loopCommand (s : State) (c v : Nat) : State :=
  let x := s.loop c
  if x.aborting then s.lost 0x19 0x400 4 31
  else (s.setLoop c { x with cmd := v }).put (CTX.CTX_MODE_CMD_PENDING c) 1

/-- The held output of output `j` on entering PRIMING (R140). -/
def State.heldOutput (s : State) (c j : Nat) : Int :=
  let rb := s.slotView (s.get (CTX.OUT_RB_SLOT c j))
  let own := s.slotView (s.get (CTX.OUT_SLOT c j))
  if s.get (CTX.OUT_RB_MODE c j) ≠ 0 ∧ tVALID rb.tag then rb.value.toInt
  else if tVALID own.tag then own.value.toInt
  else clampI (s.outLim c j 0) (s.outLim c j 1) 0

/-- AGE_MAX in force: 0 stands for P − 1 (R141). -/
def State.ageMax (s : State) (c : Nat) : Nat :=
  let a := s.get (CTX.CTX_AGE_AGE_MAX c)
  if a = 0 then s.lpPeriod c - 1 else a

/-- The initial-estimate slots as frozen, if all are VALID and young enough (R140). -/
def State.x0 (s : State) (c : Nat) : Option (List Int) :=
  let l := (List.range (s.lpN c)).map (fun i => s.slotView ((s.get (CTX.CTX_X0_X0_SLOT c) + i) % 8192))
  if l.all (fun r => tVALID r.tag && decide (tAGE r.tag ≤ s.ageMax c)) then some (l.map (fun r => r.value.toInt)) else none

/-- Initialise a loop on entering PRIMING (R140): held output, estimate, counters. `keep` keeps the estimate, as after a
takeover restore (R151). -/
def State.prime (s : State) (c cause : Nat) (keep : Bool) : State :=
  let m := s.lpM c
  let held := (List.range m).map (s.heldOutput c)
  let src := s.get (CTX.CTX_CFG_INIT_SRC c)
  let zero := List.replicate (s.lpN c) (0 : Int)
  let est : Option (List Int) := if keep ∨ src = 2 then none else if src = 1 then some ((s.x0 c).getD zero) else some zero
  let s := s.putB (CTX.CTX_MODE_X0_MISSING c) (!keep && src == 1 && (s.x0 c).isNone)
  let s := (s.putVecI (stateBase c + 0x200) held).putVecI (stateBase c + 0x080) held
  let s := match est with | none => s | some x => s.putVecI (stateBase c) x
  let s := (s.put (CTX.CTX_PROG_PRIME_GOOD c) 0).setLoop c { s.loop c with primePeriods := 0 }
  s.loopEnter c lpPRIMING cause

/-! ### One period (R126, R141 to R148) -/

/-- The tag checks of R141. -/
def State.tagOk (s : State) (c : Nat) (t : Word) : Bool :=
  tVALID t && !tLATE t && !tSUBST t && !tSAT t && decide (tAGE t ≤ s.ageMax c)

/-- What the freeze and the checks find for one measurement. -/
structure Meas where
  y : Int
  e : Int
  sat : Bool
  yRef : Int
  frz : Nat
  frozen : Bool
  inn : Nat
  overBound : Bool
  within : Bool
  ok : Bool

/-- Measurement `i` of context `c` with estimate `x` (R126, R141 to R143). -/
def State.meas (s : State) (c : Nat) (x : List Int) (i : Nat) : Meas :=
  let v := s.loop c
  let r := s.slotView (s.get (CTX.MEAS_SLOT c i))
  let y := r.value.toInt
  let (e, sat) := roundSat (y * 2 ^ 27 - dot (s.row (coefBase c + 0x2000) 32 i (s.lpN c)) x)
  let n := s.get (CTX.MEAS_FRZ_N c i)
  let ref := s.memI (stateBase c + 0x1C0 + 4 * i)
  let moved := decide (sx 32 (s.get (CTX.MEAS_FRZ_LSB c i)) < ((y - ref).natAbs : Int))
  let frz := if n = 0 then 0 else if moved then 0 else v.frz.getD i 0 + 1
  let frozen := n != 0 && decide (n ≤ frz)
  let b := s.memI (coefBase c + 0x3600 + 4 * i)
  let big := b != 0 && decide (b < (e.natAbs : Int))
  let inn := if big then min (v.inn.getD i 0 + 1) 15 else 0
  let ob := big && (v.beyond.getD i false || decide (0 < s.get (CTX.CTX_TIMING_INNOV_N c) ∧ s.get (CTX.CTX_TIMING_INNOV_N c) ≤ inn))
  ⟨y, e, sat, if n != 0 && moved then y else ref, frz, frozen, inn, ob, !big, s.tagOk c r.tag && !frozen && !ob⟩

/-- The applied input of output `j` (R148), and whether a readback that RB_MODE uses is not VALID. -/
def State.appliedInput (s : State) (c j : Nat) : Int × Bool :=
  let prev := s.memI (stateBase c + 0x080 + 4 * j)
  let mode := s.get (CTX.OUT_RB_MODE c j)
  let rb := s.slotView (s.get (CTX.OUT_RB_SLOT c j))
  if mode = 1 then (if tVALID rb.tag && tSAT rb.tag then rb.value.toInt else prev, !tVALID rb.tag)
  else if mode = 2 then (if tVALID rb.tag then rb.value.toInt else prev, !tVALID rb.tag)
  else (prev, false)

/-- Reference `i` as used (R146), and whether it is held. -/
def State.refIn (s : State) (c i : Nat) : Int × Bool :=
  let r := s.slotView (s.get (CTX.REF_SLOT c i))
  if tVALID r.tag && !tLATE r.tag && !tSUBST r.tag then (r.value.toInt, false)
  else (s.memI (stateBase c + 0x180 + 4 * i), true)

/-- The control output `j` (R126): value, SAT, whether the law left the range, whether a limit clamped it. -/
def State.control (s : State) (c : Nat) (x r : List Int) (j : Nat) : Int × Bool × Bool × Bool :=
  let v := dot (s.row (coefBase c + 0x3000) 16 j (s.lpQ c)) r - dot (s.row (coefBase c + 0x2800) 32 j (s.lpN c)) x
  let prev := s.memI (stateBase c + 0x080 + 4 * j)
  let rate := s.outLim c j 2
  let w1 := clampI (s.outLim c j 0 * 2 ^ 27) (s.outLim c j 1 * 2 ^ 27) v
  let w2 := if rate = 0 then w1 else clampI ((prev - rate) * 2 ^ 27) ((prev + rate) * 2 ^ 27) w1
  (satQ (roundQ w2), decide (w1 ≠ v ∧ w2 = w1), (roundSat v).2, decide (w1 ≠ v ∨ w2 ≠ w1))

/-- Bits set from a list of truth values, bit 0 first. -/
def bitsOf (l : List Bool) : Nat := ((l.zipIdx).map (fun x => b2n x.1 * 2 ^ x.2)).sum

/-- The next state of a running loop from its measurements (R137, precedence 6 and 7): state, cause, COAST_LEFT and the
recovery count. -/
def State.loopNext (s : State) (c : Nat) (allOk fresh : Bool) : Nat × Nat × Nat × Nat :=
  let st := s.loopSt c
  let v := s.loop c
  let left := s.get (CTX.CTX_PROG_COAST_LEFT c)
  let coast := s.get (CTX.CTX_TIMING_COAST_TIME c)
  if st = lpCOASTING then
    let rec' := if allOk then v.recover + 1 else 0
    if left - 1 = 0 then (lpFALLBACK, 6, 0, rec')
    else if s.get (CTX.CTX_TIMING_RECOVER_N c) ≤ rec' then (lpCLOSED, 5, left - 1, rec')
    else (st, 0, left - 1, rec')
  else if st = lpCLOSED ∧ ¬ allOk then (if coast = 0 then (lpFALLBACK, 4, left, 0) else (lpCOASTING, 4, coast, 0))
  else if st = lpPRIMING ∧ ¬ fresh then
    if s.get (CTX.CTX_PRIME_PRIME_MIN c) ≤ s.get (CTX.CTX_PROG_PRIME_GOOD c) then (lpCLOSED, 2, left, v.recover)
    else if s.get (CTX.CTX_PRIME_PRIME_MAX c) ≤ v.primePeriods then (lpOPEN, 3, left, v.recover)
    else (st, 0, left, v.recover)
  else (st, 0, left, v.recover)

/-- The counters that a period commits whether or not its outputs are used (R129, R142, R143). -/
def State.loopCounts (s : State) (c : Nat) (j : Job) : State :=
  let v := s.loop c
  let s := s.setLoop c { v with frz := j.frz, inn := j.inn, beyond := j.beyond, recover := j.recover, primePeriods := j.primePeriods }
  let s := s.putVecI (stateBase c + 0x1C0) j.yRef
  let s := s.putSat (CTX.CTX_PROG_PRIME_GOOD c) j.primeGood
  let s := if j.sat.1 then (s.bump (CTX.CTX_CNT0_INNOV_SAT_CNT c)).bump LPE.EVT_TOTAL_BREACH_TOTAL else s
  let s := if j.sat.2.1 then (s.bump (CTX.CTX_CNT0_STATE_SAT_CNT c)).bump LPE.EVT_TOTAL_BREACH_TOTAL else s
  if j.sat.2.2 then (s.bump (CTX.CTX_CNT0_CTRL_SAT_CNT c)).bump LPE.EVT_TOTAL_BREACH_TOTAL else s

/-- One period of a running loop (R126): computed at the snapshot instant and staged for the release. `fresh` marks the
period in which PRIMING was entered. The transition takes effect now, a range breach of any class before any other (R129, R137). -/
def State.loopCompute (s : State) (c : Nat) (fresh : Bool) : State :=
  let n := s.lpN c
  let m := s.lpM c
  let x := s.memVec (stateBase c) n
  let ms := (List.range (s.lpP c)).map (s.meas c x)
  let app := (List.range m).map (s.appliedInput c)
  let allOk := ms.all (·.ok)
  let iSat := ms.any (·.sat)
  let (st, cause, left, recv) := s.loopNext c allOk fresh
  let s := (s.put (CTX.CTX_MEAS_STAT_INVALID c) (bitsOf (ms.map (fun k => !k.ok)))).put (CTX.CTX_MEAS_STAT_FROZEN c)
    (bitsOf (ms.map (·.frozen)))
  let s := (s.put (CTX.CTX_INNOV_STAT_OVER_BOUND c) (bitsOf (ms.map (·.overBound)))).putB (CTX.CTX_MODE_RB_INVALID c)
    (app.any (·.2))
  let e := ms.map (fun k => if k.ok then k.e else 0)
  let xr := (List.range n).map (fun i => roundSat (dot (s.row (coefBase c) 32 i n) x
    + dot (s.row (coefBase c + 0x1000) 16 i m) (app.map (·.1)) + dot (s.row (coefBase c + 0x1800) 16 i (s.lpP c)) e))
  let refs := (List.range (s.lpQ c)).map (s.refIn c)
  let us := (List.range m).map (s.control c (xr.map (·.1)) (refs.map (·.1)))
  let hold := s.memVec (stateBase c + 0x200) m
  let law := st != lpPRIMING && st != lpOPEN
  let conv := allOk && ms.all (·.within)
  let j : Job := {
    xnext := xr.map (·.1), unew := if law then us.map (fun u => (u.1, u.2.1)) else hold.map (fun h => (h, false))
    uApp := app.map (·.1), y := ms.map (·.y), e := e, r := refs.map (·.1), yRef := ms.map (·.yRef), uHold := hold
    frz := ms.map (·.frz), inn := ms.map (·.inn), beyond := ms.map (·.overBound)
    sat := (iSat, xr.any (·.2), law && us.any (fun u => u.2.2.1))
    limited := law && us.any (fun u => u.2.2.2), refHeld := refs.any (·.2), recover := recv
    primeGood := if st = lpPRIMING then (if conv then (if fresh then 1 else min (s.get (CTX.CTX_PROG_PRIME_GOOD c) + 1) 255) else 0)
                 else s.get (CTX.CTX_PROG_PRIME_GOOD c)
    primePeriods := if st = lpPRIMING then (if fresh then 1 else (s.loop c).primePeriods + 1) else (s.loop c).primePeriods }
  let s := (s.putB (CTX.CTX_MODE_REF_HELD c) j.refHeld).putSat (CTX.CTX_PROG_COAST_LEFT c) left
  let breach := s.on (CTX.CTX_CFG_BREACH_FB c) && (j.sat.1 || j.sat.2.1 || j.sat.2.2)
  let s := if breach then s.loopEnter c lpFALLBACK 8 else if st ≠ s.loopSt c then s.loopEnter c st cause else s
  s.setLoop c { s.loop c with job := some j }

/-- VALID of the outputs of context `c`. -/
def State.loopValid (s : State) (c : Nat) : List Bool := (s.loopSlots c).map (fun n => tVALID (s.slotRaw n).tag)

/-- What an overrun of a period that begins now would restore (R147). -/
def State.loopSave (s : State) (c : Nat) : LoopSave := {
  mode := s.rd (CTX.CTX_MODE_STATE c).key, prog := s.rd (CTX.CTX_PROG_COAST_LEFT c).key, cmd := (s.loop c).cmd
  from7 := (s.loop c).from7, x := s.memVec (stateBase c) (s.lpN c), u := s.memVec (stateBase c + 0x080) (s.lpM c)
  hold := s.memVec (stateBase c + 0x200) (s.lpM c), valid := s.loopValid c }

/-- One engine cycle at `f` MHz in units of 1/10 626 ns, which is whole at every grade of R415 (R153). -/
def laneUnit (f : Nat) : Nat := 10626000 / max f 1

/-- The snapshot instant of a context whose period begins at this tick (R137): the first transition that is due, then
the period. -/
def State.loopPeriod (s : State) (c : Nat) : State :=
  let st := s.loopSt c
  let s := (s.inc (CTX.CTX_PERIODS c)).setLoop c { s.loop c with begun := true, job := none, save := s.loopSave c }
  let v := s.loop c
  if v.aborting then s.loopDisplace c
  else if v.due7 && loopRuns st then ((s.setLoop c { v with due7 := false }).loopDisplace c).loopEnter c lpFALLBACK 7
  else if v.cmd = 0 ∧ st = lpFALLBACK ∧ v.from7 ∧ s.on (CTX.CTX_MODE_FB_DONE c) then s.loopEnter c lpOPEN 12
  else
    let s := (s.setLoop c { v with cmd := 0, due7 := false }).put (CTX.CTX_MODE_CMD_PENDING c) 0
    if v.cmd = 2 ∧ st ≠ lpOPEN then s.loopEnter c lpOPEN 1
    else if v.cmd = 3 ∧ loopRuns st then s.loopEnter c lpFALLBACK 1
    else
      let opens := v.cmd = 1 ∧ (st = lpOPEN ∨ st = lpFALLBACK)
      let s := if opens then s.prime c 1 false else if v.cmd = 0 then s else s.lost 0x19 0x400 4 31
      if loopRuns (s.loopSt c) && s.domReady 8 then
        { s.loopCompute c opens with lpeBusy := s.lpeBusy + laneUnit (s.clkMHz 8) * ((s.loopCost c + 31) / 32) }
      else s

/-- A period of context `c` begins at the present tick (R124). -/
def State.loopGrid (s : State) (c : Nat) : Bool :=
  let p := s.lpPeriod c
  p != 0 && s.tku.grid.toNat / 100000 % p == s.get (CTX.CTX_PERIOD_PHASE c)

/-- The engine works: its page is enabled and its domain is neither held nor halted (R150, R468). -/
def State.lpeLive (s : State) : Bool := s.enabled 0x18 && s.running

/-- The snapshot instant on the contexts in `l`. -/
def State.loopSnapshots (s : State) : List Nat → State
  | [] => s
  | c :: t => (if s.loopEn c && s.loopGrid c then s.loopPeriod c else s).loopSnapshots t

/-- The snapshot instant of the loop engine. -/
def State.lpeSnapshot (s : State) : State := if s.lpeLive then s.loopSnapshots (List.range 128) else s

/-! ### The release instant (R127, R139, R145, R147) -/

/-- Post outputs with AGE P − 1 (R127). -/
def State.postOutputs (s : State) (c : Nat) : List (Nat × Int × Bool × Bool) → State
  | [] => s
  | (n, v, valid, sat) :: t =>
    (s.post n 4 c (BitVec.ofInt 32 v) valid false false sat (s.lpPeriod c - 1)).postOutputs c t

/-- Post u_prev again with LATE 1, AGE continuing, and VALID as given (R147). -/
def State.loopLate (s : State) (c : Nat) : List (Nat × Int × Bool) → State
  | [] => s
  | (n, v, ok) :: t =>
    (if s.isProducer n 4 c then
      s.setSlot n ⟨BitVec.ofInt 32 v, setBit (setBit (s.slotRaw n).tag 31 ok) 30 true⟩ else s).loopLate c t

/-- The outputs of context `c` with u_prev and the values of VALID given. -/
def State.loopPrev (s : State) (c : Nat) (valid : List Bool) : List (Nat × Int × Bool) :=
  (s.loopSlots c).zip ((s.memVec (stateBase c + 0x080) (s.lpM c)).zip valid)

/-- An overrun (R147): estimate, u_prev, state, cause and command are those before the period's snapshot instant, and none of its
counters advances. -/
def State.loopOverrun (s : State) (c : Nat) : State :=
  let v := s.loop c
  let b := v.save
  let s := (s.wr (CTX.CTX_MODE_STATE c).key b.mode).wr (CTX.CTX_PROG_COAST_LEFT c).key b.prog
  let s := ((s.putVecI (stateBase c) b.x).putVecI (stateBase c + 0x080) b.u).putVecI (stateBase c + 0x200) b.hold
  let k := min (s.get (CTX.CTX_MODE_OVR_CONSEC c) + 1) 3
  let cmd := if v.cmd = 0 then b.cmd else v.cmd
  let s := s.setLoop c { v with cmd := cmd, from7 := b.from7, due7 := decide (2 ≤ k), job := none, begun := false }
  let s := (s.putB (CTX.CTX_MODE_CMD_PENDING c) (cmd != 0)).put (CTX.CTX_MODE_OVR_CONSEC c) k
  ((s.bump (CTX.CTX_CNT0_OVERRUN_CNT c)).bump LPE.EVT_TOTAL_OVERRUN_TOTAL).loopLate c (s.loopPrev c b.valid)

/-- The fallback value of output `j` (R145). -/
def State.fbValue (s : State) (c act j : Nat) (prev : Int) : Int :=
  let v := s.outLim c j 3
  let r := s.outLim c j 4
  if act = 1 then v
  else if act = 2 then clampI (prev - r) (prev + r) v
  else prev

/-- The fallback action at a release instant (R145). -/
def State.loopFallback (s : State) (c : Nat) : State :=
  let act := s.get (CTX.CTX_CFG_FB_ACT c)
  let m := s.lpM c
  let vals := (List.range m).map (fun j => s.fbValue c act j (s.memI (stateBase c + 0x080 + 4 * j)))
  let s := s.putVecI (stateBase c + 0x080) vals
  let s := s.postOutputs c ((s.loopSlots c).zipWith (fun n v => (n, v, true, false)) vals)
  if act ≠ 2 ∨ (List.range m).all (fun j => vals.getD j 0 == s.outLim c j 3) then s.put (CTX.CTX_MODE_FB_DONE c) 1 else s

/-- The manual outputs of an OPEN loop with OPEN_ACT 1 (R139). -/
def State.loopManual (s : State) (c : Nat) : State :=
  s.postOutputs c ((List.range (s.lpM c)).map (fun j =>
    let r := s.slotView (s.get (CTX.OUT_MAN_SLOT c j))
    let ok := s.on (CTX.OUT_MAN_EN c j) && tVALID r.tag
    let n := s.get (CTX.OUT_SLOT c j)
    (n, if ok then clampI (s.outLim c j 0) (s.outLim c j 1) r.value.toInt else (s.slotRaw n).value.toInt, ok, false)))

/-- What a loop that does not run posts at a release instant (R139, R145). -/
def State.loopIdlePost (s : State) (c : Nat) : State :=
  if s.loopSt c = lpFALLBACK then s.loopFallback c
  else if s.loopSt c = lpOPEN ∧ s.on (CTX.CTX_CFG_OPEN_ACT c) then s.loopManual c else s

/-- Commit what a period staged for the control law and post its outputs (R127). -/
def State.loopPost (s : State) (c : Nat) (j : Job) : State :=
  let b := stateBase c
  let s := (((s.putVecI b j.xnext).putVecI (b + 0x080) (j.unew.map (·.1))).putVecI (b + 0x0C0) j.uApp).putVecI (b + 0x100) j.y
  let s := ((s.putVecI (b + 0x140) j.e).putVecI (b + 0x180) j.r).putVecI (b + 0x200) j.uHold
  let s := if j.refHeld then s.bump (CTX.CTX_CNT1_REF_HELD_CNT c) else s
  let s := if j.limited then s.bump (CTX.CTX_CNT1_LIMIT_CNT c) else s
  s.postOutputs c ((s.loopSlots c).zipWith (fun n u => (n, u.1, true, u.2)) j.unew)

/-- The release of a period that is complete (R127, R129, R147): its counters, then its outputs, or those of the state that the period
has entered. -/
def State.loopCommit (s : State) (c : Nat) (j : Job) : State :=
  let s := (s.loopCounts c j).put (CTX.CTX_MODE_OVR_CONSEC c) 0
  let (s, f) := s.free
  let s := s.put (CTX.CTX_EXEC_LAST c) f
  let s := s.put (CTX.CTX_EXEC_MAX c) (max (s.get (CTX.CTX_EXEC_MAX c)) (s.get (CTX.CTX_EXEC_LAST c)))
  if loopRuns (s.loopSt c) then s.loopPost c j else s.loopIdlePost c

/-- The release instant of context `c` (R127). `done` tells that the engine's work for the period is complete; it needs
the domain's clock (R14). -/
def State.loopRelease (s : State) (c : Nat) (done : Bool) : State :=
  let v := { s.loop c with released := some s.tku.ticks, soon := false }
  let s := s.setLoop c v
  let t := s.setLoop c { v with begun := false, job := none }
  if v.aborting then s.loopLate c (s.loopPrev c (s.loopValid c))
  else match v.job with
    | some j => if done && s.domReady 8 then t.loopCommit c j else s.loopOverrun c
    | none => if v.begun && loopRuns (s.loopSt c) then s.loopOverrun c else t.loopIdlePost c

/-- The present tick holds a release instant of context `c` that has not been carried out (R127): the tick ends at a boundary of the
loop's grid, or FALLBACK was entered in it after an abort (R149). -/
def State.loopRelDue (s : State) (c : Nat) : Bool :=
  s.loopEn c && s.lpeLive && (s.loop c).released != some s.tku.ticks &&
    ((s.loop c).soon || (s.lpPeriod c != 0 && s.tku.next.toNat / 100000 % s.lpPeriod c == s.get (CTX.CTX_PERIOD_PHASE c)))

/-- The instant of the releases in the present tick (R127): 12 µs before its end. -/
def State.loopRelAt (s : State) : BitVec 64 := s.tku.next - 12000

/-- The release instants of the present tick have passed. -/
def State.loopRelPast (s : State) : Bool := s.tku.cut || decide (s.loopRelAt.toNat < s.tku.ns.toNat)

/-! ### Abort, disable, aperture (R131, R149, R150) -/

/-- An abort of context `c` is written (R149). -/
def State.loopAbort (s : State) (c : Nat) : State :=
  if loopRuns (s.loopSt c) then
    let s := s.setLoop c { s.loop c with aborting := true, abTick := s.tku.ticks, job := none, begun := false }
    s.loopDisplace c
  else s

/-- The aborted context enters FALLBACK (R149). -/
def State.loopAborted (s : State) (c : Nat) : State :=
  if (s.loop c).aborting then (s.setLoop c { s.loop c with aborting := false, soon := true }).loopEnter c lpFALLBACK 9 else s

/-- The engine is disabled: every enabled context in `l` enters OPEN with cause 11 and posts its outputs with VALID 0; a command that
waits is displaced (R137, R149, R150). -/
def State.loopsOff (s : State) : List Nat → State
  | [] => s
  | c :: t =>
    (if s.loopEn c then
      (((s.loopDisplace c).setLoop c LoopCtx.blank).loopEnter c lpOPEN 11).loopInvalid c (s.loopSlots c)
     else s).loopsOff t

/-- EN of the contexts in `l` is cleared by SOFT_RESET (R150). -/
def State.loopsClear (s : State) : List Nat → State
  | [] => s
  | c :: t => (if s.loopEn c then s.loopDisable c else s).loopsClear t

/-- The context whose coefficient or state block holds address `a`, if `a` lies in the implemented aperture. -/
def apertureCtx (a : Nat) : Option Nat :=
  if 0x50000000 ≤ a ∧ a < 0x50200000 then some ((a - 0x50000000) / 0x4000)
  else if 0x50200000 ≤ a ∧ a < 0x50240000 then some ((a - 0x50200000) / 0x800) else none

/-- A reserved word of a context's blocks (R130), which reads 0: output words 5 to 7, the coefficient block from 0x3640,
the state block from 0x240. -/
def apertureRsv (a : Nat) : Bool :=
  if a < 0x50200000 then
    let o := (a - 0x50000000) % 0x4000
    decide (0x3640 ≤ o) || (decide (0x3400 ≤ o ∧ o < 0x3600) && decide (20 ≤ (o - 0x3400) % 32))
  else decide (0x240 ≤ (a - 0x50200000) % 0x800)

/-- A word write to the aperture (R131): accepted while the context is OPEN, else discarded and counted. -/
def State.apertureWrite (s : State) (a : Nat) (v : Word) (m : Nat) : State :=
  match apertureCtx a with
  | none => s
  | some c =>
    if s.loopSt c ≠ lpOPEN then
      let s := (s.bump (CTX.CTX_CNT1_COEF_LOCK_CNT c)).bump LPE.COEF_LOCK_TOTAL
      (s.put LPE.COEF_ERR_OFFSET (a - 0x50000000)).lost 0x19 ((a - 0x50000000) % 4096) 4 m
    else if apertureRsv a then s
    else s.setLE a 4 v.toNat

/-- The query of R135 completes. -/
def State.lpeQueryDone (s : State) : State :=
  let f := s.lpeQuery
  if f = 0 then s
  else
    let l := s.loopsEn
    let r := s.rateOk l f
    let d := s.densOk l f
    let s := ((s.put LPE.QUERY_DONE 1).putB LPE.QUERY_FITS (r && d)).putB LPE.QUERY_RATE_OK r
    { s.putB LPE.QUERY_DENS_OK d with lpeQuery := 0 }

end Sys2Proof.Machine
end

