-- ==== Sys2Proof/Machine/CasNum.lean ====
section
/-! DEFINITION. Cascade's numbers (R157 to R159): aligned products, 80-bit accumulators, rounding, the double-precision
scalars and the single-precision norm. -/

namespace Sys2Proof.Machine

/-- A quotient shown in a register whose rounding the manual does not give. -/
def quotShow (n d : Nat) : Nat := n / max d 1 + (if n % max d 1 ≠ 0 ∧ Config.roundUp n d = true then 1 else 0)

/-- `v` times 2 to the `e`, an arithmetic shift (R158). -/
def shiftI (v e : Int) : Int := if 0 ≤ e then v * 2 ^ e.toNat else v / 2 ^ (-e).toNat

/-- `n / d` rounded to nearest, ties to even; `d` positive. -/
def rneDiv (n : Int) (d : Nat) : Int :=
  let q := n / (d : Int)
  let r := n % (d : Int)
  if (d : Int) < 2 * r ∨ (2 * r = d ∧ q % 2 = 1) then q + 1 else q

/-- `num · 2^e / den` rounded to nearest, ties to even. -/
def divRne (num e den : Int) : Int :=
  if den = 0 then Config.casDivZero num
  else
    let n := if den < 0 then -num else num
    if 0 ≤ e then rneDiv (n * 2 ^ e.toNat) den.natAbs else rneDiv n (den.natAbs * 2 ^ (-e).toNat)

/-- An accumulator: its value in 2⁻⁶² of the target's scale, and whether a product or the sum reached ±2¹⁷ (R158, R159). -/
structure Acc where
  v : Int
  sat : Bool

/-- The empty accumulator. -/
def Acc.zero : Acc := ⟨0, false⟩

/-- The accumulator limit ±2¹⁷ in 2⁻⁶². -/
def accMax : Int := 2 ^ 79

/-- Add an aligned product. -/
def Acc.add (a : Acc) (p : Int) : Acc :=
  let p' := clampI (-accMax) (accMax - 1) p
  let v := a.v + p'
  ⟨clampI (-accMax) (accMax - 1) v, a.sat || decide (p ≤ -accMax ∨ accMax ≤ p ∨ v < -accMax ∨ accMax ≤ v)⟩

/-- The sum of aligned products. -/
def accSum (a : Acc) (l : List Int) : Acc := l.foldl Acc.add a

/-- A rounded result: its Q1.30 mantissa, whether the result saturated, whether an aligned product reached the limit. -/
structure Res where
  m : Int
  sat : Bool
  lim : Bool

/-- An accumulator rounded and saturated to Q1.30 (R158). -/
def Acc.q130 (a : Acc) : Res := let q := rneDiv a.v (2 ^ 32); ⟨satQ q, outOfRange q, a.sat⟩

/-- A quotient rounded and saturated to Q1.30. -/
def q130 (q : Int) (lim : Bool) : Res := ⟨satQ q, outOfRange q, lim⟩

/-- Position of the highest one bit. -/
def topBit (n : Nat) : Nat := Nat.log2 n

/-- The IEEE 754 double nearest to `n / d`, as mantissa and exponent (R158); ties to even. -/
def dblDiv (n : Int) (d : Nat) : Int × Int :=
  if n = 0 then (0, 0)
  else
    let e0 : Int := (topBit n.natAbs : Int) - (topBit d : Int) - 53
    let big := if 0 ≤ e0 then decide (2 ^ 53 * (d * 2 ^ e0.toNat) ≤ n.natAbs)
               else decide (2 ^ 53 * d ≤ n.natAbs * 2 ^ (-e0).toNat)
    let e := if big then e0 + 1 else e0
    let m := if 0 ≤ e then rneDiv n.natAbs (d * 2 ^ e.toNat) else rneDiv ((n.natAbs : Int) * 2 ^ (-e).toNat) d
    (if n < 0 then -m else m, e)

/-- The double quotient of two dot products: each is converted to a double, then divided (R158). -/
def dblRatio (a b : Int) : Int × Int :=
  let (ma, ea) := dblDiv a 1
  let (mb, eb) := dblDiv b 1
  let (m, e) := dblDiv (if mb < 0 then -ma else ma) mb.natAbs
  (m, e + ea - eb)

/-- The IEEE 754 single nearest to `m · 2^e`; `sticky` tells that the exact value lies a little above (R172). -/
def packSingle (m : Nat) (e : Int) (sticky : Bool) : Word :=
  if m = 0 then 0
  else
    let m2 := 4 * m + b2n sticky
    let e2 := e - 2
    let q : Int := max ((topBit m2 : Int) + e2 - 23) (-149)
    let k := if 0 ≤ e2 - q then (m2 : Int) * 2 ^ (e2 - q).toNat else rneDiv m2 (2 ^ (q - e2).toNat)
    let w := (k + (q + 149) * 2 ^ 23).toNat
    if 0x7F800000 ≤ w then 0x7F800000 else BitVec.ofNat 32 w

/-- The single nearest to the square root of `v · 2^e` (R172). -/
def sqrtSingle (v : Nat) (e : Int) : Word :=
  let v1 := if e % 2 = 0 then v else 2 * v
  let e1 := if e % 2 = 0 then e else e - 1
  let v2 := v1 * 2 ^ 64
  let s := Nat.sqrt v2
  packSingle s (e1 / 2 - 32) (decide (s * s ≠ v2))

end Sys2Proof.Machine
end

