-- ==== Sys2Proof/Machine/Crypto.lean ====
section
/-! DEFINITION. Check values and keyed hashes: the CRCs of the manual, and SHA-256 with HMAC, which the manual names
(R115, R283) and FIPS 180-4 and RFC 2104 define (PRESUMED, assumption log 13). -/

namespace Sys2Proof.Machine

/-- One bit of a reflected CRC: shift right, fold the reflected polynomial in when a 1 leaves. -/
def crcStep {w : Nat} (poly s : BitVec w) : BitVec w :=
  if s.getLsbD 0 then (s >>> 1) ^^^ poly else s >>> 1

/-- `n` bits of a reflected CRC. -/
def crcSteps {w : Nat} (poly : BitVec w) : Nat → BitVec w → BitVec w
  | 0, s => s
  | n + 1, s => crcSteps poly n (crcStep poly s)

/-- A reflected CRC over bytes, without final inversion. -/
def crcBytes {w : Nat} (poly : BitVec w) : BitVec w → List Byte → BitVec w
  | s, [] => s
  | s, b :: t => crcBytes poly (crcSteps poly 8 (s ^^^ b.setWidth w)) t

/-- The bits of a word in reversed order. -/
def reflect {w : Nat} (p : BitVec w) : BitVec w := p.reverse

/-- The CRC-32 of R298: polynomial 0x1EDC_6F41, reflected, initial value all ones, final inversion. -/
def crc32c (l : List Byte) : BitVec 32 := ~~~ crcBytes (reflect 0x1EDC6F41#32) 0xFFFFFFFF#32 l

/-- The CRC-32 with polynomial 0x04C1_1DB7, reflected, initial value all ones, final inversion. -/
def crc32 (l : List Byte) : BitVec 32 := ~~~ crcBytes (reflect 0x04C11DB7#32) 0xFFFFFFFF#32 l

/-- The CRC-16 of the Modbus specification: polynomial 0x8005, reflected, initial value all ones (PRESUMED, assumption 13: the manual
names the specification). -/
def crc16modbus (l : List Byte) : BitVec 16 := crcBytes (reflect 0x8005#16) 0xFFFF#16 l

/-- A CRC that shifts left, as a number of `w` bits. -/
def crcLeft {w : Nat} (poly : BitVec w) : BitVec w → List Byte → BitVec w
  | s, [] => s
  | s, b :: t =>
    let x := s ^^^ (b.setWidth w <<< (w - 8))
    let f := fun (s : BitVec w) => if s.getLsbD (w - 1) then (s <<< 1) ^^^ poly else s <<< 1
    crcLeft poly (f (f (f (f (f (f (f (f x)))))))) t

/-- The 64 round constants of SHA-256 as one number, the first one highest. -/
def shaKeys : Nat :=
  0x428A2F9871374491B5C0FBCFE9B5DBA53956C25B59F111F1923F82A4AB1C5ED5D807AA9812835B01243185BE550C7DC372BE5D7480DEB1FE9BDC06A7C19BF174E49B69C1EFBE47860FC19DC6240CA1CC2DE92C6F4A7484AA5CB0A9DC76F988DA983E5152A831C66DB00327C8BF597FC7C6E00BF3D5A7914706CA635114292967 * 2 ^ 1024 +
  0x27B70A852E1B21384D2C6DFC53380D13650A7354766A0ABB81C2C92E92722C85A2BFE8A1A81A664BC24B8B70C76C51A3D192E819D6990624F40E3585106AA07019A4C1161E376C082748774C34B0BCB5391C0CB34ED8AA4A5B9CCA4F682E6FF3748F82EE78A5636F84C878148CC7020890BEFFFAA4506CEBBEF9A3F7C67178F2

/-- Round constant `i`. -/
def shaKey (i : Nat) : BitVec 32 := BitVec.ofNat 32 (shaKeys >>> (32 * (63 - i)))

/-- The hash value before the first block, its first word highest. -/
def shaInit : BitVec 256 := 0x6A09E667BB67AE853C6EF372A54FF53A510E527F9B05688C1F83D9AB5BE0CD19#256

/-- Word `i` of a hash value or of the working variables, counted from the lowest: `h` is word 0 and `a` word 7. -/
def shaWord (v : BitVec 256) (i : Nat) : BitVec 32 := v.extractLsb' (32 * i) 32

/-- Three rotations of a word to the right, added bit by bit. -/
def turn3 (x : BitVec 32) (i j k : Nat) : BitVec 32 := x.rotateRight i ^^^ x.rotateRight j ^^^ x.rotateRight k

/-- Two rotations and a shift of a word to the right, added bit by bit. -/
def turn2 (x : BitVec 32) (i j k : Nat) : BitVec 32 := x.rotateRight i ^^^ x.rotateRight j ^^^ (x >>> k)

/-- One round: the working variables move down by a word, and the new `a` and `e` take in the key and the word of the message. -/
def shaRound (v : BitVec 256) (kw : BitVec 32) : BitVec 256 :=
  let x := shaWord v
  let pick := (x 3 &&& x 2) ||| (~~~(x 3) &&& x 1)
  let vote := (x 7 &&& (x 6 ||| x 5)) ||| (x 6 &&& x 5)
  let t := x 0 + turn3 (x 3) 6 11 25 + pick + kw
  (t + turn3 (x 7) 2 13 22 + vote) ++ v.extractLsb' 160 96 ++ (x 4 + t) ++ v.extractLsb' 32 96

/-- `n` rounds from round `i`, with a window of the next 16 words of the message schedule. -/
def shaRun (i : Nat) (win : List (BitVec 32)) (v : BitVec 256) : Nat → BitVec 256
  | 0 => v
  | n + 1 =>
    let fresh := win.getD 0 0 + turn2 (win.getD 1 0) 7 18 3 + win.getD 9 0 + turn2 (win.getD 14 0) 17 19 10
    shaRun (i + 1) (win.drop 1 ++ [fresh]) (shaRound v (shaKey i + win.getD 0 0)) n

/-- The wordwise sum of two hash values. -/
def shaAdd (u v : BitVec 256) : BitVec 256 :=
  BitVec.ofNat 256 (((List.range 8).map (fun i => (shaWord u i + shaWord v i).toNat * 2 ^ (32 * i))).sum)

/-- Big-endian words of a list of bytes. -/
def beWords : List Byte → List (BitVec 32)
  | a :: b :: c :: d :: t => (a ++ b ++ c ++ d : BitVec 32) :: beWords t
  | _ => []

/-- The bytes of a word, highest first. -/
def beBytes (w : BitVec 32) : List Byte :=
  [w.extractLsb' 24 8, w.extractLsb' 16 8, w.extractLsb' 8 8, w.extractLsb' 0 8]

/-- Fold `n` blocks of 16 words into the hash value. -/
def shaBlocks : Nat → List (BitVec 32) → BitVec 256 → BitVec 256
  | 0, _, h => h
  | n + 1, ws, h => shaBlocks n (ws.drop 16) (shaAdd h (shaRun 0 (ws.take 16) h 64))

/-- SHA-256 of a list of bytes. -/
def sha256 (l : List Byte) : List Byte :=
  let n := l.length
  let pad := (119 - n % 64) % 64
  let len : BitVec 64 := BitVec.ofNat 64 (8 * n)
  let m := l ++ [0x80#8] ++ List.replicate pad 0#8 ++ beBytes (len.extractLsb' 32 32) ++ beBytes (len.extractLsb' 0 32)
  let d := shaBlocks (m.length / 64) (beWords m) shaInit
  [7, 6, 5, 4, 3, 2, 1, 0].flatMap (fun i => beBytes (shaWord d i))

/-- HMAC-SHA-256 of a message under a key of at most 64 bytes. -/
def hmacSha256 (key msg : List Byte) : List Byte :=
  let k := key ++ List.replicate (64 - key.length) 0#8
  sha256 (k.map (· ^^^ 0x5C#8) ++ sha256 (k.map (· ^^^ 0x36#8) ++ msg))

end Sys2Proof.Machine
end

