-- ==== Sys2Proof/Machine/Rings.lean ====
section
/-! DEFINITION. The hardware rings of the queue manager (R310 to R317): indices, credit, descriptors, and what a
hardware producer or consumer does with one. -/

namespace Sys2Proof.Machine

/-- Endpoint classes of R310. -/
def epSoft : Nat := 0
/-- Ethernet port (R310). -/
def epEth : Nat := 1
/-- CAN controller (R310). -/
def epCan : Nat := 2
/-- Serial port (R310). -/
def epSer : Nat := 3
/-- Cascade slot delta feed (R310). -/
def epCas : Nat := 4
/-- Sluice (R310). -/
def epSlc : Nat := 5
/-- Cistern export (R310). -/
def epCis : Nat := 6
/-- Field-bank HART (R310). -/
def epHart : Nat := 7
/-- Logic sequencer, RIX (R310). -/
def epRix : Nat := 8

/-- The fill of ring `r` (R311). -/
def State.ringFill (s : State) (r : Nat) : Nat :=
  (s.get (QMG.RING_PROD_PROD_IDX r) + 65536 - s.get (QMG.RING_CONS_CONS_IDX r)) % 65536

/-- The number of descriptors of ring `r` (R311). -/
def State.ringSize (s : State) (r : Nat) : Nat := 2 ^ s.get (QMG.RING_CFG_SIZE_LOG2 r)

/-- The credit of ring `r` (R311). -/
def State.ringCredit (s : State) (r : Nat) : Nat := s.ringSize r - s.ringFill r

/-- Ring `r` is enabled, and its block with it. -/
def State.ringOn (s : State) (r : Nat) : Bool := s.on (QMG.RING_CFG_EN r) && s.enabled 0x0A

/-- The address of the descriptor of index `k` (R311). -/
def State.descAddr (s : State) (r k : Nat) : Nat := s.get (QMG.RING_BASE r) + 16 * (k % s.ringSize r)

/-- The slot buffer of index `k` on a ring with a hardware producer (R315). -/
def State.slotBuf (s : State) (r k : Nat) : Nat :=
  let v := s.get (QMG.RING_BUF_BASE r)
  v / 4096 * 4096 + (k % s.ringSize r) * 2 ^ (v % 16 + 6)

/-- The size of a slot buffer: 2 to the BUF_LOG2 (R315). -/
def State.bufSize (s : State) (r : Nat) : Nat := 2 ^ (s.get (QMG.RING_BUF_BASE r) % 16 + 6)

/-- A descriptor (R314). -/
structure Desc where
  buf : Nat
  len : Nat
  status : Nat
  stepPar : Bool
  stampValid : Bool
  tsReq : Bool
  descErr : Bool
  aborted : Bool
  stamp : Nat
  tag : Nat
  xinfo : Nat
deriving DecidableEq, Repr

/-- The descriptor of index `k` as memory holds it (R314). -/
def State.desc (s : State) (r k : Nat) : Desc :=
  let a := s.descAddr r k
  let w1 := s.mem32 (a + 4)
  let w3 := s.mem32 (a + 12)
  ⟨s.mem32 a, w1 % 65536, w1 / 2 ^ 16 % 256, w1.testBit 24, w1.testBit 25, w1.testBit 26, w1.testBit 27, w1.testBit 28,
    s.mem32 (a + 8), w3 % 65536, w3 / 65536⟩

/-- Word 1 of a descriptor (R314). -/
def Desc.word1 (d : Desc) : Nat :=
  d.len % 65536 + d.status % 256 * 2 ^ 16 + b2n d.stepPar * 2 ^ 24 + b2n d.stampValid * 2 ^ 25 + b2n d.tsReq * 2 ^ 26
    + b2n d.descErr * 2 ^ 27 + b2n d.aborted * 2 ^ 28

/-- Write a descriptor to memory. -/
def State.putDesc (s : State) (r k : Nat) (d : Desc) : State :=
  let a := s.descAddr r k
  (((s.setLE a 4 d.buf).setLE (a + 4) 4 d.word1).setLE (a + 8) 4 d.stamp).setLE (a + 12) 4 (d.tag + 65536 * d.xinfo)

/-- The key of an entry in the record of when entries were posted. -/
def postKey (r k : Nat) : Nat := r * 65536 + k % 65536

/-- A software-side master that is a core of a sleeping pair is woken for new work (R12). -/
def State.wakeFor (s : State) (master : Nat) : State := if master < 8 then s.wakeDomain (master / 2) else s

/-- A hardware producer posts an item into ring `r` (R311, R313, R314): without an enabled ring nothing happens, without
credit NO_CREDIT_CNT counts, an item larger than one buffer is dropped. The truth value tells whether it was posted. -/
def State.ringPost (s : State) (r : Nat) (item : List Byte) (status : Nat) (stamp : Option Stamp) (tag xinfo : Nat) :
    State × Bool :=
  if !s.ringOn r then (s, false)
  else if s.ringCredit r = 0 then (s.bump (QMG.RING_CNT_NO_CREDIT_CNT r), false)
  else if s.bufSize r < item.length then (s, false)
  else
    let k := s.get (QMG.RING_PROD_PROD_IDX r)
    let b := s.slotBuf r k
    let s := s.setBytes b item
    let s := s.putDesc r k ⟨b, item.length, status, (stamp.map (·.2)).getD false, stamp.isSome, false, false, false,
      (stamp.map (·.1)).getD 0, tag, xinfo⟩
    let s := s.inc (QMG.RING_PROD_PROD_IDX r)
    let s := { s with ringPosted := mapSet (fun _ => 0) s.ringPosted (postKey r k) s.mono }
    (if s.get (QMG.RING_EP_CONS_CLASS r) = epSoft then s.wakeFor (s.get (QMG.RING_CFG_MASTER r)) else s, true)

/-- The descriptor a hardware consumer of ring `r` would act on next, if there is one. -/
def State.ringHead (s : State) (r : Nat) : Option Desc :=
  if s.ringOn r && s.ringFill r != 0 then some (s.desc r (s.get (QMG.RING_CONS_CONS_IDX r))) else none

/-- A hardware consumer writes the descriptor of index `k` with its completion (R311): status, stamp, ABORTED. -/
def State.writeDone (s : State) (r k status : Nat) (stamp : Option Stamp) (aborted : Bool) : State :=
  let d := s.desc r k
  s.putDesc r k { d with status := status, aborted := aborted,
                         stepPar := (stamp.map (·.2)).getD d.stepPar,
                         stampValid := stamp.isSome, stamp := (stamp.map (·.1)).getD d.stamp }

/-- A software producer of ring `r` is woken when its ring is consumed (R12, R316). -/
def State.consumeOne (s : State) (r : Nat) : State := s.inc (QMG.RING_CONS_CONS_IDX r)

/-- A hardware consumer completes the descriptor at CONS_IDX and advances past it (R311). -/
def State.ringDone (s : State) (r status : Nat) (stamp : Option Stamp) : State :=
  (s.writeDone r (s.get (QMG.RING_CONS_CONS_IDX r)) status stamp false).consumeOne r

/-- A buffer lies inside shared SRAM or DRAM (R314). -/
def bufOk (a n : Nat) : Bool :=
  (decide (0x20000000 ≤ a) && decide (a + n ≤ 0x21000000)) || (decide (0x80000000 ≤ a) && decide (a + n ≤ 0x100000000))

/-- A consumer refuses the descriptor at CONS_IDX (R314): DESC_ERR set, DESC_ERR_CNT counts, the entry is passed. -/
def State.ringRefuse (s : State) (r : Nat) : State :=
  let k := s.get (QMG.RING_CONS_CONS_IDX r)
  ((s.putDesc r k { s.desc r k with descErr := true }).bump (QMG.RING_CNT_DESC_ERR_CNT r)).consumeOne r

/-- The abort of a ring (R317). A hardware consumer ends its descriptor in hand with ABORTED and sets CONS_IDX to
PROD_IDX; a hardware producer discards the item being received. A CAN controller has written its descriptors already (R338). -/
def State.ringAbort (s : State) (r : Nat) : State :=
  if s.get (QMG.RING_EP_CONS_CLASS r) = epSoft ∨ s.get (QMG.RING_EP_CONS_CLASS r) = epCan then s
  else
    let k := s.get (QMG.RING_CONS_CONS_IDX r)
    let s := s.put (QMG.RING_STAT_ABORT_IDX r) k
    let s := if s.ringOn r && s.ringFill r != 0 then s.writeDone r k (s.desc r k).status none true else s
    s.put (QMG.RING_CONS_CONS_IDX r) (s.get (QMG.RING_PROD_PROD_IDX r))

/-- SW_WORK of ring `r` (R316). -/
def State.swWork (s : State) (r : Nat) : Bool :=
  let wm := s.get (QMG.RING_IRQ_WATERMARK r)
  let ho := s.get (QMG.RING_IRQ_HOLDOFF_US r)
  if !s.ringOn r then false
  else if s.get (QMG.RING_EP_CONS_CLASS r) = epSoft then
    decide (wm ≤ s.ringFill r) ||
      (s.ringFill r != 0 && ho != 0 &&
        decide (mapGet (fun _ => 0) s.ringPosted (postKey r (s.get (QMG.RING_CONS_CONS_IDX r))) + us ho ≤ s.mono))
  else decide (wm ≤ s.ringCredit r)

/-- The instance numbers of an endpoint class (R310). -/
def instOk (cls inst : Nat) : Bool :=
  match cls with
  | 0 => true | 1 => decide (inst < 12) | 2 => decide (inst < 20) | 3 => decide (inst < 32) | 4 => decide (inst < 16)
  | 5 => inst == 0 | 6 => inst == 0 | 7 => decide (inst < 16) | 8 => decide (inst < 4) | _ => false

/-- The endpoint pairs that may be enabled (R310). -/
def pairOk (pc pi cc ci : Nat) : Bool :=
  instOk pc pi && instOk cc ci &&
  (match pc, cc with
   | 0, 1 => true | 0, 2 => true | 0, 3 => true | 0, 4 => true | 0, 7 => true
   | 1, 0 => true | 1, 8 => decide (pi < 8) | 1, 5 => pi == 8 || pi == 9
   | 2, 0 => true | 3, 0 => true | 5, 1 => ci == 8 || ci == 9 | 6, 0 => true | 7, 0 => true
   | 8, 1 => decide (ci < 8) | _, _ => false)

/-- The smallest BUF_LOG2 of a ring with a hardware producer of class `c` (R315). -/
def minBuf (c : Nat) : Nat := if c = 1 ∨ c = 5 ∨ c = 8 then 11 else if c = 7 then 9 else if c = 2 then 7 else 8

/-- The checks of R327 and R315 when RING_CFG.EN is set. -/
def State.ringEnOk (s : State) (r : Nat) : Bool :=
  let pc := s.get (QMG.RING_EP_PROD_CLASS r)
  let b := s.get (QMG.RING_BASE r)
  pairOk pc (s.get (QMG.RING_EP_PROD_INST r)) (s.get (QMG.RING_EP_CONS_CLASS r)) (s.get (QMG.RING_EP_CONS_INST r))
    && b % 64 == 0 && bufOk b (16 * s.ringSize r)
    && (pc == 0 || (decide (minBuf pc ≤ s.get (QMG.RING_BUF_BASE r) % 16 + 6) &&
                    decide (s.get (QMG.RING_BUF_BASE r) % 16 + 6 ≤ 12)))

end Sys2Proof.Machine
end

