-- ==== Sys2Proof/Machine/CasMem.lean ====
section
/-! DEFINITION. Cascade slots: regions of CAS memory, the structure descriptor and its checks, costs, admission, the delta
feed, abort and disable (R155 to R167, R173 to R175, R181, R183). -/

namespace Sys2Proof.Machine

/-- Slot `k` beyond its registers. -/
def State.casSlot (s : State) (k : Nat) : CasSlot := mapGet (fun _ => CasSlot.blank) s.cas k
/-- Set slot `k`. -/
def State.setCas (s : State) (k : Nat) (v : CasSlot) : State := { s with cas := mapSet (fun _ => CasSlot.blank) s.cas k v }

/-- EMPTY (R185). -/
def csEMPTY : Nat := 0
/-- LOADING (R185). -/
def csLOADING : Nat := 1
/-- LOADED (R185). -/
def csLOADED : Nat := 2
/-- WAITING (R185). -/
def csWAITING : Nat := 3
/-- SOLVING (R185). -/
def csSOLVING : Nat := 4
/-- LIN_WAIT (R185). -/
def csLIN : Nat := 5
/-- LOAD_FAILED (R185). -/
def csFAILED : Nat := 6

/-- SLOT_STAT.STATE. -/
def State.casSt (s : State) (k : Nat) : Nat := s.get (SLOT.SLOT_STAT_STATE k)
/-- Set SLOT_STAT.STATE. -/
def State.setCasSt (s : State) (k n : Nat) : State := s.put (SLOT.SLOT_STAT_STATE k) n
/-- SLOT_CFG.EN. -/
def State.casEn (s : State) (k : Nat) : Bool := s.on (SLOT.SLOT_CFG_EN k)

/-! ### Memory (R160, R161) -/

/-- Base of CAS memory. -/
def casMem : Nat := 0x60000000
/-- Bytes of CAS memory. -/
def casSize : Nat := 0x01800000
/-- Base address of slot `k`'s region. -/
def State.casBase (s : State) (k : Nat) : Nat := casMem + s.get (SLOT.SLOT_BASE k)
/-- A byte count rounded up to a multiple of 4 KB. -/
def up4k (n : Nat) : Nat := (n + 4095) / 4096 * 4096

/-- The slot, not EMPTY, whose region holds offset `o` of CAS memory (R161). -/
def State.casOwner (s : State) (o : Nat) : Option Nat :=
  (List.range 16).find? (fun k => s.casSt k != csEMPTY && decide (s.get (SLOT.SLOT_BASE k) ≤ o) &&
    decide (o < s.get (SLOT.SLOT_BASE k) + (s.casSlot k).size))

/-- A region of `n` bytes at offset `o` would overlap the region of a slot other than `k` that is not EMPTY (R160). -/
def State.casOverlap (s : State) (k o n : Nat) : Bool :=
  (List.range 16).any (fun j => j != k && s.casSt j != csEMPTY && decide (o < s.get (SLOT.SLOT_BASE j) + (s.casSlot j).size)
    && decide (s.get (SLOT.SLOT_BASE j) < o + n))

/-! ### The structure descriptor (R162), at address `b` -/

/-- KIND. -/
def State.dKind (s : State) (b : Nat) : Nat := s.mem_le (b + 6) 1
/-- n. -/
def State.dN (s : State) (b : Nat) : Nat := s.mem32 (b + 0x008)
/-- N_ROWS. -/
def State.dRows (s : State) (b : Nat) : Nat := s.mem32 (b + 0x00C)
/-- NNZ_J. -/
def State.dNnzJ (s : State) (b : Nat) : Nat := s.mem32 (b + 0x010)
/-- NNZ_L. -/
def State.dNnzL (s : State) (b : Nat) : Nat := s.mem32 (b + 0x014)
/-- N_SUPER. -/
def State.dSuper (s : State) (b : Nat) : Nat := s.mem32 (b + 0x018)
/-- LENGTH. -/
def State.dLen (s : State) (b : Nat) : Nat := s.mem32 (b + 0x01C)
/-- OUT_COUNT. -/
def State.dOut (s : State) (b : Nat) : Nat := s.mem_le (b + 0x02C) 2
/-- Address of section `k`. -/
def State.sec (s : State) (b k : Nat) : Nat := b + s.mem32 (b + 0x030 + 8 * k)
/-- SIZE of section `k`. -/
def State.secSize (s : State) (b k : Nat) : Nat := s.mem32 (b + 0x034 + 8 * k)
/-- A signed byte. -/
def State.memB (s : State) (a : Nat) : Int := sx 8 (s.mem_le a 1)
/-- Exponent er of row `i` (section 0). -/
def State.er (s : State) (b i : Nat) : Int := s.memB (s.sec b 0 + 2 * i)
/-- Exponent ew of row `i`. -/
def State.ew (s : State) (b i : Nat) : Int := s.memB (s.sec b 0 + 2 * i + 1)
/-- Exponent ec of column `j` (section 1). -/
def State.ec (s : State) (b j : Nat) : Int := s.memB (s.sec b 1 + 4 * j)
/-- Exponent eg of column `j`. -/
def State.eg (s : State) (b j : Nat) : Int := s.memB (s.sec b 1 + 4 * j + 1)
/-- Exponent ef of column `j`. -/
def State.ef (s : State) (b j : Nat) : Int := s.memB (s.sec b 1 + 4 * j + 2)
/-- J row pointer `i` (section 2). -/
def State.jPtr (s : State) (b i : Nat) : Nat := s.mem32 (s.sec b 2 + 4 * i)
/-- Column index of nonzero `e` (section 3). -/
def State.jCol (s : State) (b e : Nat) : Nat := s.mem_le (s.sec b 3 + 2 * e) 2
/-- Row `i` of J: column and value of each nonzero (sections 2 to 4). -/
def State.jRow (s : State) (b i : Nat) : List (Nat × Int) :=
  (List.range' (s.jPtr b i) (s.jPtr b (i + 1) - s.jPtr b i)).map (fun e => (s.jCol b e, s.memI (s.sec b 4 + 4 * e)))
/-- Weight mantissa of row `i` (section 5). -/
def State.wgt (s : State) (b i : Nat) : Int := s.memI (s.sec b 5 + 4 * i)
/-- Mantissa b of row `i` (section 6). -/
def State.bVal (s : State) (b i : Nat) : Int := s.memI (s.sec b 6 + 4 * i)
/-- The unknown eliminated `k`-th (section 7). -/
def State.perm (s : State) (b k : Nat) : Nat := s.mem_le (s.sec b 7 + 2 * k) 2
/-- FIRST, WIDTH and IDX_OFF of supernode `k` (section 8); IDX_OFF counts entries of section 9. -/
def State.super (s : State) (b k : Nat) : Nat × Nat × Nat :=
  let a := s.sec b 8 + 8 * k
  (s.mem_le a 2, s.mem_le (a + 2) 2, s.mem32 (a + 4))
/-- Prior of unknown `j` (section 10). -/
def State.prior (s : State) (b j : Nat) : Int := s.memI (s.sec b 10 + 4 * j)
/-- Lower bound of unknown `j` (section 11). -/
def State.loBnd (s : State) (b j : Nat) : Int := s.memI (s.sec b 11 + 8 * j)
/-- Upper bound of unknown `j`. -/
def State.hiBnd (s : State) (b j : Nat) : Int := s.memI (s.sec b 11 + 8 * j + 4)
/-- Entry `k` of the output map (section 12): unknown, slot, OUT_SHIFT. -/
def State.outMap (s : State) (b k : Nat) : Nat × Nat × Int :=
  let w := s.mem32 (s.sec b 12 + 4 * k)
  (w % 8192, w / 2 ^ 13 % 8192, sx 6 (w / 2 ^ 26))

/-- The rows of supernode `k` below its diagonal block (section 9). -/
def State.superRows (s : State) (b k : Nat) : List Nat :=
  let o := (s.super b k).2.2
  let e := if k + 1 < s.dSuper b then (s.super b (k + 1)).2.2 else s.secSize b 9 / 2
  (List.range' o (e - o)).map (fun i => s.mem_le (s.sec b 9 + 2 * i) 2)

/-- The row positions of each column of the factor, in storage order (R177): for the supernodes `k`, `k` + 1, …. -/
def State.factPattern (s : State) (b : Nat) : List (List Nat) :=
  (List.range (s.dSuper b)).flatMap (fun k =>
    let (f, w, _) := s.super b k
    let below := s.superRows b k
    (List.range w).map (fun c => (List.range' (f + c) (w - c)) ++ below))

/-- The CRC-64 of R164. -/
def crc64 (l : List Byte) : BitVec 64 := ~~~ crcLeft 0x42F0E1EBA9EA3693#64 0xFFFFFFFFFFFFFFFF#64 l

/-- The structure signature of the descriptor at `b` (R164). -/
def State.casSig (s : State) (b : Nat) : BitVec 64 :=
  crc64 (s.bytes (s.sec b 2) (s.secSize b 2) ++ s.bytes (s.sec b 3) (s.secSize b 3) ++ s.bytes (s.sec b 7) (s.secSize b 7))

/-- WORK_OFF, FACT0_OFF, FACT1_OFF and the size of a region (R160). -/
def State.casLayout (s : State) (b : Nat) : Nat × Nat × Nat × Nat :=
  let w := up4k (s.dLen b)
  let f0 := w + up4k (4 * (9 * s.dN b + 2 * s.dRows b))
  let f := up4k (2 * s.dNnzL b)
  (w, f0, f0 + f, f0 + 2 * f)

/-- The size each section must have for the descriptor's counts (R162); sections 9 and 11 are judged apart. -/
def State.secWant (s : State) (b k : Nat) : Nat :=
  let n := s.dN b
  let r := s.dRows b
  match k with
  | 0 => 2 * r | 1 => 4 * n | 2 => 4 * (r + 1) | 3 => 2 * s.dNnzJ b | 4 => 4 * s.dNnzJ b | 5 => 4 * r | 6 => 4 * r
  | 7 => 2 * n | 8 => 8 * s.dSuper b | 9 => s.secSize b 9 | 10 => 4 * n
  | 11 => if s.dKind b = 3 then 8 * n else 0 | 12 => 4 * s.dOut b | _ => 0

/-- Check 3: the sizes of R156, and the section table of R162 with them. -/
def State.sizesOk (s : State) (b : Nat) : Bool :=
  let n := s.dN b
  decide (1 ≤ n ∧ n ≤ 8192) && decide (1 ≤ s.dRows b ∧ s.dRows b ≤ 32768) &&
    decide (1 ≤ s.dNnzJ b ∧ s.dNnzJ b ≤ 1048576) && decide (n ≤ s.dNnzL b ∧ s.dNnzL b ≤ 4194304) &&
    decide (1 ≤ s.dSuper b ∧ s.dSuper b ≤ n) && decide (1 ≤ s.dOut b ∧ s.dOut b ≤ 512) &&
    (List.range 16).all (fun k => s.secSize b k == s.secWant b k &&
      (s.secSize b k == 0 || (s.mem32 (b + 0x030 + 8 * k) % 64 == 0 &&
        decide (s.mem32 (b + 0x030 + 8 * k) + s.secSize b k ≤ s.dLen b))))

/-- Check 5: the J pattern. -/
def State.jOk (s : State) (b : Nat) : Bool :=
  s.jPtr b 0 == 0 && s.jPtr b (s.dRows b) == s.dNnzJ b &&
    (List.range (s.dRows b)).all (fun i =>
      let a := s.jPtr b i
      let e := s.jPtr b (i + 1)
      decide (a ≤ e) && decide (e - a ≤ 1024) && decide (e ≤ s.dNnzJ b) &&
        (List.range' a (e - a)).all (fun x => decide (s.jCol b x < s.dN b) &&
          (x + 1 == e || decide (s.jCol b x < s.jCol b (x + 1)))))

/-- A strictly increasing list. -/
def rising : List Nat → Bool
  | a :: b :: t => decide (a < b) && rising (b :: t)
  | _ => true

/-- The supernodes from `k` on follow each other from column `f` and end at column `n`. -/
def State.superChain (s : State) (b n f : Nat) : List Nat → Bool
  | [] => f == n
  | k :: t =>
    let (f', w, _) := s.super b k
    f' == f && decide (1 ≤ w) && decide (f + w ≤ n) && rising (s.superRows b k) &&
      (s.superRows b k).all (fun r => decide (f + w ≤ r) && decide (r < n)) && s.superChain b n (f + w) t

/-- Check 6: ordering and supernode table. -/
def State.orderOk (s : State) (b : Nat) : Bool :=
  let n := s.dN b
  let o := (List.range n).map (s.perm b)
  (List.range n).all (fun j => o.contains j) && s.superChain b n 0 (List.range (s.dSuper b)) &&
    ((s.factPattern b).map List.length).sum == s.dNnzL b

/-- Check 8: the output map. -/
def State.outOk (s : State) (b : Nat) : Bool :=
  let l := (List.range (s.dOut b)).map (s.outMap b)
  l.all (fun e => decide (e.1 < s.dN b)) && (l.map (·.2.1)).Nodup

/-- An exponent within −60 and +60 (R157). -/
def expOk (e : Int) : Bool := decide (-60 ≤ e ∧ e ≤ 60)

/-- Check 9: exponents. -/
def State.expsOk (s : State) (b : Nat) : Bool :=
  (List.range (s.dRows b)).all (fun i => expOk (s.er b i) && expOk (s.ew b i)) &&
    (List.range (s.dN b)).all (fun j => expOk (s.ec b j) && expOk (s.eg b j) && expOk (s.ef b j))

/-- Check 10: weights and bounds. -/
def State.signsOk (s : State) (b : Nat) : Bool :=
  (List.range (s.dRows b)).all (fun i => decide (0 ≤ s.wgt b i)) &&
    (s.dKind b != 3 || (List.range (s.dN b)).all (fun j => decide (s.loBnd b j ≤ s.hiBnd b j)))

/-- The first failed check of R163 for the descriptor of `len` bytes at `b`, to be loaded into slot `k`; 0 for none. -/
def State.casLoadErr (s : State) (k b len : Nat) : Nat :=
  let o := s.get (SLOT.SLOT_BASE k)
  let total := (s.casLayout b).2.2.2
  let n := min (s.dLen b) len
  if (crc32 (s.bytes (b + 0x30) (n - 0x30))).toNat ≠ s.mem32 (b + 0x028) then 1
  else if s.mem32 b ≠ 0x43534144 ∨ s.mem_le (b + 4) 2 ≠ 1 ∨ s.dKind b = 0 ∨ 3 < s.dKind b ∨ s.dLen b ≠ len then 2
  else if !s.sizesOk b then 3
  else if o % 4096 ≠ 0 ∨ casSize < o + total ∨ s.casOverlap k o total then 4
  else if !s.jOk b then 5
  else if !s.orderOk b then 6
  else if (s.casSig b).toNat ≠ s.mem_le (b + 0x020) 8 then 7
  else if !s.outOk b then 8
  else if !s.expsOk b then 9
  else if !s.signsOk b then 10
  else 0

/-- Clear what the registers show of a slot's structure and its last results. -/
def State.casClear (s : State) (k : Nat) : State :=
  let s := (s.wr (SLOT.SLOT_STAT_STATE k).key 0).put (SLOT.SLOT_CFG_KIND k) 0
  let s := ((s.put (SLOT.SLOT_SIG_LO k) 0).put (SLOT.SLOT_SIG_HI k) 0).put (SLOT.SLOT_SIZE_KB k) 0
  let s := ((s.put (SLOT.SLOT_WORK_OFF k) 0).put (SLOT.SLOT_FACT0_OFF k) 0).put (SLOT.SLOT_FACT1_OFF k) 0
  (s.put (SLOT.SLOT_REFRESH_EST_US k) 0).setCas k CasSlot.blank

/-- LOAD is accepted (R163): the slot is LOADING over the bytes it copies. -/
def State.casLoad (s : State) (k : Nat) : State :=
  let s := s.casClear k
  let n := up4k (s.get (SLOT.LOAD_LEN k))
  let bad := decide (casSize < s.get (SLOT.SLOT_BASE k) + n) || s.casOverlap k (s.get (SLOT.SLOT_BASE k)) n
  (s.setCasSt k csLOADING).setCas k { CasSlot.blank with size := if bad then 0 else n }

/-- The load completes (R163): the bytes are copied and checked. -/
def State.casLoadDone (s : State) (k : Nat) : State :=
  let src := s.get (SLOT.LOAD_SRC k)
  let len := s.get (SLOT.LOAD_LEN k)
  let b := s.casBase k
  let err := s.casLoadErr k src len
  let (w, f0, f1, total) := s.casLayout src
  let sig := s.casSig src
  let kind := s.dKind src
  let s := if (s.casSlot k).size = 0 then s else s.setBytes b (s.bytes src len)
  if err ≠ 0 then (s.setCasSt k csFAILED).put (SLOT.SLOT_STAT_LOAD_ERR k) err
  else
    let s := (s.setCasSt k csLOADED).put (SLOT.SLOT_CFG_KIND k) kind
    let s := s.put64 (SLOT.SLOT_SIG_LO k) (SLOT.SLOT_SIG_HI k) sig.toNat
    let s := ((s.put (SLOT.SLOT_WORK_OFF k) w).put (SLOT.SLOT_FACT0_OFF k) f0).put (SLOT.SLOT_FACT1_OFF k) f1
    let s := s.put (SLOT.SLOT_SIZE_KB k) (total / 1024)
    let (s, f) := s.free
    let s := s.put (SLOT.SLOT_REFRESH_EST_US k) f
    s.setCas k { CasSlot.blank with size := total, req := true }

/-! ### Costs and admission (R173 to R175) -/

/-- A quotient rounded up. -/
def ceilDiv (a b : Nat) : Nat := (a + b - 1) / b

/-- WCIT in lane cycles. -/
def State.wcit (s : State) (k : Nat) : Nat :=
  let b := s.casBase k
  let c := if s.dKind b = 3 then 8 else 6
  ceilDiv (2 * s.dNnzJ b + s.dRows b) 64 + ceilDiv (2 * s.dNnzL b) 16 + ceilDiv (c * s.dN b) 64 + 4 * s.dSuper b + 200
/-- T_outer in lane cycles. -/
def State.tOuter (s : State) (k : Nat) : Nat :=
  let b := s.casBase k
  ceilDiv (2 * s.dNnzJ b + 2 * s.dRows b + 4 * s.dN b) 64 + 300
/-- T_apply in lane cycles. -/
def State.tApply (s : State) (k : Nat) : Nat := 4 * s.get (SLOT.SLOT_DELTA_DELTA_MAX k) + 100
/-- T_post in lane cycles. -/
def State.tPost (s : State) (k : Nat) : Nat := 4 * (s.dOut (s.casBase k) + 2) + 100
/-- C in lane cycles. -/
def State.casCost (s : State) (k : Nat) : Nat :=
  let g := s.get (SLOT.SLOT_ITER_G k)
  s.tApply k + g * s.tOuter k + g * s.get (SLOT.SLOT_ITER_K k) * s.wcit k + s.tPost k

/-- An abort of slot `k` is under way (R181). -/
def State.casAborting (s : State) (k : Nat) : Bool := s.aborts.any (fun e => e.1 == 0x1B * 4096 + k)

/-- The slot holds a checked structure. -/
def State.casHeld (s : State) (k : Nat) : Bool := let st := s.casSt k; st != csEMPTY && st != csLOADING && st != csFAILED
/-- The enabled slots. -/
def State.casEnabled (s : State) : List Nat := (List.range 16).filter s.casEn

/-- B of R174 as thousandths of a nanosecond times MHz, that is lane cycles × 1000: at `f` MHz the greatest of 20 µs and
of every unit of the slots in `l`. -/
def State.casB (s : State) (l : List Nat) (f : Nat) : Nat :=
  l.foldl (fun a k => max a (1000 * max (max (s.wcit k) (s.tOuter k)) (max (s.tApply k) (s.tPost k)))) (20000 * f)

/-- D_s in ns. -/
def State.casD (s : State) (k : Nat) : Nat := us (s.get (SLOT.SLOT_DEADLINE k)) - 25000
/-- L_s in ns. -/
def State.casL (s : State) (k : Nat) : Nat :=
  if s.dKind (s.casBase k) = 2 then s.get (SLOT.SLOT_ITER_G k) * us (s.get (SLOT.SLOT_LIN_LIN_BUDGET k)) else 0

/-- Every own-window condition at `f` MHz. -/
def State.casOwnOk (s : State) (l : List Nat) (f : Nat) : Bool :=
  l.all (fun k => decide (1000 * s.casCost k + f * s.casL k + s.casB l f ≤ f * s.casD k))

/-- The rate sum at `f` MHz, as a fraction. -/
def State.casRate (s : State) (l : List Nat) (f : Nat) : Nat × Nat :=
  l.foldl (fun a k => fracAdd a (1000 * s.casCost k, max (f * s.get (SLOT.SLOT_PERIOD_PERIOD k) * 100000) 1)) (0, 1)

/-- The density sum at `f` MHz, as a fraction; no slot, no blocking term. -/
def State.casDens (s : State) (l : List Nat) (f : Nat) : Nat × Nat :=
  let sum := l.foldl (fun a k => fracAdd a (1000 * s.casCost k, max (f * s.casD k) 1)) (0, 1)
  match (l.map s.casD).min? with
  | none => sum
  | some d => fracAdd sum (s.casB l f, max (f * d) 1)

/-- The rate condition. -/
def State.casRateOk (s : State) (l : List Nat) (f : Nat) : Bool := let r := s.casRate l f; decide (100 * r.1 ≤ 80 * r.2)
/-- The density condition. -/
def State.casDensOk (s : State) (l : List Nat) (f : Nat) : Bool := let r := s.casDens l f; decide (100 * r.1 ≤ 90 * r.2)

/-- The slots that slot `k` posts: output map, status, residual norm (R172). -/
def State.casOuts (s : State) (k : Nat) : List Nat :=
  let b := s.casBase k
  ((List.range (s.dOut b)).map (fun i => (s.outMap b i).2.1)) ++
    [s.get (SLOT.SLOT_OUT_STATUS_SLOT k), s.get (SLOT.SLOT_OUT_RESNORM_SLOT k)]

/-- The first failure of R174 for slot `k`; 0 for none. State, ranges, ring and producers come before the load conditions,
which are computed from them. -/
def State.casAdmission (s : State) (k : Nat) : Nat :=
  let p := s.get (SLOT.SLOT_PERIOD_PERIOD k)
  let d := s.get (SLOT.SLOT_DEADLINE k)
  let g := s.get (SLOT.SLOT_ITER_G k)
  let i := s.get (SLOT.SLOT_ITER_K k)
  let ring := s.get (SLOT.SLOT_DELTA_RING k)
  let l := (s.casEnabled.filter (· != k)) ++ [k]
  let f := s.admMHz 9
  if s.casSt k ≠ csLOADED then 5
  else if p = 0 ∨ 10000 < p ∨ p ≤ s.get (SLOT.SLOT_PERIOD_PHASE k) ∨ d < 26 ∨ 100 * p < d ∨ g = 0 ∨ 8 < g ∨ i = 0 ∨ 64 < i then 4
  else if !(s.get (QMG.RING_EP_CONS_CLASS ring) == epCas && s.get (QMG.RING_EP_CONS_INST ring) == k) then 6
  else if (s.casOuts k).any (fun n => s.otherProducer n 5 k) then 7
  else if !s.casRateOk l f then 1
  else if !s.casDensOk l f then 2
  else if !s.casOwnOk l f then 3
  else 0

/-- Admission succeeds (R174). -/
def State.casEnable (s : State) (k : Nat) : State :=
  let s := (s.claimAll 5 k (s.casOuts k)).put (SLOT.SLOT_CFG_EN k) 1
  (s.setCasSt k csWAITING).put (SLOT.SLOT_SOLVES k) 0

/-- The slot is free of its solve with EN 0: its posted slots lose their producer and it is LOADED (R183). A COLD command still waits
for the solve that it affects (R180). -/
def State.casFreed (s : State) (k : Nat) : State := (s.freeAll 5 k (s.casOuts k)).setCasSt k csLOADED

/-- EN is cleared (R183). -/
def State.casDisable (s : State) (k : Nat) : State :=
  let s := s.put (SLOT.SLOT_CFG_EN k) 0
  if s.casSt k = csWAITING then s.casFreed k else s

/-- The query of R175 completes. -/
def State.casQueryDone (s : State) : State :=
  let f := s.casQuery
  if f = 0 then s
  else
    let l := s.casEnabled
    let r := s.casRateOk l f
    let d := s.casDensOk l f
    let o := s.casOwnOk l f
    let s := ((s.put CAS.QUERY_DONE 1).putB CAS.QUERY_FITS (r && d && o)).putB CAS.QUERY_RATE_OK r
    { (s.putB CAS.QUERY_DENS_OK d).putB CAS.QUERY_OWN_OK o with casQuery := 0 }

/-! ### The delta feed (R165 to R167) -/

/-- An entry of a slot's feed: a record and whether it is its buffer's last, or a descriptor to be refused (R314). -/
inductive FeedEl
  | item (w0 w1 : Word) (last : Bool)
  | bad

/-- The records of the descriptor of index `k`. -/
def State.descRecs (s : State) (r k : Nat) : List FeedEl :=
  let d := s.desc r k
  if d.len % 8 ≠ 0 ∨ d.len = 0 ∨ ¬ bufOk d.buf d.len then [.bad]
  else (List.range (d.len / 8)).map (fun i => .item (BitVec.ofNat 32 (s.mem32 (d.buf + 8 * i)))
    (BitVec.ofNat 32 (s.mem32 (d.buf + 8 * i + 4))) (i + 1 == d.len / 8))

/-- The feed of slot `k` as its ring holds it. -/
def State.feed (s : State) (k : Nat) : List FeedEl :=
  let r := s.get (SLOT.SLOT_DELTA_RING k)
  if !s.ringOn r then []
  else ((List.range (s.ringFill r)).flatMap (fun i => s.descRecs r (s.get (QMG.RING_CONS_CONS_IDX r) + i))).drop
    (s.casSlot k).ringPos

/-- Take one entry of the feed off the ring. -/
def State.feedPop (s : State) (k : Nat) (e : FeedEl) : State :=
  let r := s.get (SLOT.SLOT_DELTA_RING k)
  let v := s.casSlot k
  match e with
  | .bad => (s.setCas k { v with ringPos := 0 }).ringRefuse r
  | .item _ _ true => (s.setCas k { v with ringPos := 0 }).ringDone r 0 none
  | .item _ _ false => s.setCas k { v with ringPos := v.ringPos + 1 }

/-- Take entries off the ring. -/
def State.feedPops (s : State) (k : Nat) : List FeedEl → State
  | [] => s
  | e :: t => (s.feedPop k e).feedPops k t

/-- TYPE of a record. -/
def recType (w : Word) : Nat := bits w 28 4
/-- ROW of a record. -/
def recRow (w : Word) : Nat := bits w 13 15
/-- COL of a record. -/
def recCol (w : Word) : Nat := bits w 0 13

/-- The first batch of a feed, up to and including its commit, with the commit's words, and what follows (R166). -/
def takeBatch : List FeedEl → Option (List FeedEl × Word × Word × List FeedEl)
  | [] => none
  | .bad :: t => (takeBatch t).map (fun x => (.bad :: x.1, x.2))
  | .item w v l :: t =>
    if recType w = 0xD ∨ recType w = 0xE then some ([.item w v l], w, v, t)
    else (takeBatch t).map (fun x => (.item w v l :: x.1, x.2))

/-- The place of the J entry at row `i`, column `j`, if the pattern has it. -/
def State.jPlace (s : State) (b i j : Nat) : Option Nat :=
  (List.range' (s.jPtr b i) (s.jPtr b (i + 1) - s.jPtr b i)).find? (fun e => s.jCol b e == j)

/-- Where a delta record with word 0 `w` writes in the structure at `b`, if it names a place there (R166, R167): address, and whether J or
W changes. -/
def State.recPlace (s : State) (b : Nat) (w : Word) : Option (Nat × Bool) :=
  let i := recRow w
  let j := recCol w
  if s.dRows b ≤ i ∨ s.dN b ≤ j then none
  else match recType w with
  | 1 => (s.jPlace b i j).map (fun e => (s.sec b 4 + 4 * e, true))
  | 2 => if j ≠ 0 then none else some (s.sec b 5 + 4 * i, true)
  | 3 => some (s.sec b 6 + 4 * i, false)
  | 4 => if s.dKind b ≠ 3 then none else some (s.sec b 11 + 8 * j, false)
  | 5 => if s.dKind b ≠ 3 then none else some (s.sec b 11 + 8 * j + 4, false)
  | _ => none

/-- The value `v` is not one that the record may give its place (R167): a negative W, or a bound that would leave lo > hi. -/
def State.recBad (s : State) (b : Nat) (w v : Word) : Bool :=
  match recType w with
  | 2 => decide (v.toInt < 0)
  | 4 => decide (s.hiBnd b (recCol w) < v.toInt)
  | 5 => decide (v.toInt < s.loBnd b (recCol w))
  | _ => false

/-- Where a delta record writes, or none if it is rejected (R167): address, and whether J or W changes. -/
def State.recTarget (s : State) (b : Nat) (w v : Word) : Option (Nat × Bool) := if s.recBad b w v then none else s.recPlace b w

/-- Note a record applied, in the place of an earlier one of the same entry (R182). -/
def noteRec (w v : Word) : List (Word × Word) → List (Word × Word)
  | [] => [(w, v)]
  | e :: t => if e.1 = w then (w, v) :: t else e :: noteRec w v t

/-- Apply one entry of a batch (R167). -/
def State.applyRec (s : State) (k : Nat) : FeedEl → State
  | .bad => s
  | .item w v _ =>
    let t := recType w
    if t = 0xD ∨ t = 0xE ∨ t = 0xF then s
    else match s.recTarget (s.casBase k) w v with
    | none => s.bump (SLOT.SLOT_CNT2_DELTA_REJ_CNT k)
    | some (a, jw) =>
      let s := s.setLE a 4 v.toNat
      let x := s.casSlot k
      s.setCas k { x with applied := noteRec w v x.applied, changed := x.changed || jw }

/-- Apply a batch and take it off the ring; SLOT_DELTA_SEQ takes its commit's sequence number (R167). -/
def State.applyBatch (s : State) (k : Nat) (l : List FeedEl) (seq : Word) : State :=
  ((l.foldl (fun s e => s.applyRec k e) s).feedPops k l).put (SLOT.SLOT_DELTA_SEQ k) seq.toNat

/-- A batch is discarded as oversize or deferred: DELTA_DEFERRED of the solve (R172). -/
def State.deferMark (s : State) (k : Nat) : State := s.setCas k { s.casSlot k with deferred := true }

/-- The batches taken at a start instant, or (with the awaited outer iteration) at a linearisation commit, from feed `l`
with `used` records already applied at it (R167, R169). DELTA_DEFERRED tells of the start instant alone (R172). The truth value tells
whether the awaited commit was applied. The number bounds the batches looked at. -/
def State.takeBatches (s : State) (k : Nat) (want : Option Nat) (used : Nat) : Nat → List FeedEl → State × Bool
  | 0, _ => (s, false)
  | fuel + 1, l =>
    match takeBatch l with
    | none => (s, false)
    | some (batch, w, v, rest) =>
      let m := s.get (SLOT.SLOT_DELTA_DELTA_MAX k)
      if m < batch.length then
        let s := (s.feedPops k batch).bump (SLOT.SLOT_CNT2_DELTA_OVERSIZE_CNT k)
        (if want = none then s.deferMark k else s).takeBatches k want used fuel rest
      else if recType w = 0xD ∧ want ≠ some (recRow w) then
        ((s.feedPops k batch).bump (SLOT.SLOT_CNT2_DELTA_REJ_CNT k)).takeBatches k want used fuel rest
      else if m < used + batch.length then
        let s := s.bump (SLOT.SLOT_CNT2_DELTA_DEFER_CNT k)
        (if want = none then s.deferMark k else s, false)
      else
        let s := s.applyBatch k batch v
        if recType w = 0xD then (s, true) else s.takeBatches k want (used + batch.length) fuel rest

/-- The awaited linearisation commit is on the ring. -/
def State.linArrived (s : State) (k : Nat) : Bool :=
  (s.feed k).any (fun e => match e with
    | .item w _ _ => recType w == 0xD && recRow w == (s.casSlot k).g | .bad => false)

/-! ### Abort, disable (R181) -/

/-- The slot's solve and refresh are abandoned (R181). -/
def State.casAbandon (s : State) (k : Nat) : State :=
  let v := s.casSlot k
  let s := s.setCas k { v with phase := 0, req := false, changed := false }
  let s := (s.put (SLOT.SLOT_STAT_FACT_BUSY k) 0).setCasSt k csWAITING
  if s.casEn k then s else s.casFreed k

/-- PG_ABORT of slot `k` (R181). -/
def State.casAbort (s : State) (k : Nat) : State :=
  let st := s.casSt k
  if st = csSOLVING ∨ st = csLIN then s.casAbandon k
  else if st = csLOADING then s.casClear k
  else s

/-- Abort of the slots in `l` (R181). -/
def State.casAborts (s : State) : List Nat → State
  | [] => s
  | k :: t => (s.casAbort k).casAborts t

/-- Clearing ENABLE aborts every slot; a refresh in progress stops with the lanes (R181). -/
def State.casOff (s : State) : State :=
  let s := s.casAborts (List.range 16)
  (List.range 16).foldl (fun s k =>
    if s.on (SLOT.SLOT_STAT_FACT_BUSY k) then
      (s.put (SLOT.SLOT_STAT_FACT_BUSY k) 0).setCas k { s.casSlot k with req := true } else s) s

/-- SOFT_RESET returns every slot in `l` to EMPTY, not enabled and its posted slots freed (R181). -/
def State.casEmpty (s : State) : List Nat → State
  | [] => s
  | k :: t => (((if s.casHeld k then s.freeAll 5 k (s.casOuts k) else s).put (SLOT.SLOT_CFG_EN k) 0).casClear k).casEmpty t

/-- A write of a byte of CAS memory (R161): `none` if it is accepted, else the slot that owns the byte. -/
def State.casRefused (s : State) (a : Nat) (m owner : Nat) : State :=
  let s := (s.bump (SLOT.SLOT_CNT3_LOCK_CNT owner)).bump CAS.LOCK_TOTAL
  (s.put CAS.LOCK_ERR_OFFSET (a - casMem)).lost 0x1A ((a - casMem) % 4096) 4 m

end Sys2Proof.Machine
end

