-- ==== Sys2Proof/Machine/CasSolve.lean ====
section
/-! DEFINITION. Cascade at work: the start of a solve, the units of R168 as the lanes run them, posting, the preconditioner
and its refresh (R165, R168 to R172, R176 to R180). -/

namespace Sys2Proof.Machine

/-! ### Working vectors (R160) -/

/-- Address of working vector `i` of slot `k`: 0 x, 1 x_post, 2 x_start, 3 d, 4 r, 5 z, 6 p, 7 q, 8 diag; 9 the row
residual. -/
def State.vecAt (s : State) (k i : Nat) : Nat :=
  let b := s.casBase k
  b + (s.casLayout b).1 + 4 * s.dN b * i
/-- Address of the weighted residual. -/
def State.wresAt (s : State) (k : Nat) : Nat := s.vecAt k 9 + 4 * s.dRows (s.casBase k)
/-- Working vector `i` of slot `k`. -/
def State.vec (s : State) (k i : Nat) : List Int := s.memVec (s.vecAt k i) (s.dN (s.casBase k))
/-- Set working vector `i` of slot `k`. -/
def State.putVec' (s : State) (k i : Nat) (l : List Int) : State := s.putVecI (s.vecAt k i) l

/-! ### Range breaches (R159) -/

/-- A breach of class `cls` (0 residual, 1 gradient, 2 unknown) at row or column `idx`: counted once per solve and
class. -/
def State.casBreach (s : State) (k cls idx : Nat) : State :=
  let v := s.casSlot k
  let s := (s.put (SLOT.SLOT_BREACH_CLASS k) cls).put (SLOT.SLOT_BREACH_INDEX k) idx
  if v.breach.testBit cls then s
  else
    let s := if v.breach = 0 then s.bump CAS.EVT_TOTAL_BREACH_TOTAL else s
    let s := s.bump (if cls = 0 then SLOT.SLOT_CNT1_RES_SAT_CNT k else if cls = 1 then SLOT.SLOT_CNT1_GRAD_SAT_CNT k
      else SLOT.SLOT_CNT1_VEC_SAT_CNT k)
    s.setCas k { v with breach := v.breach ||| 2 ^ cls }

/-- Count the breaches of a computed vector: its own class where an element saturated, residual where an aligned product
reached the accumulator limit. -/
def State.breaches (s : State) (k cls : Nat) (l : List Res) : State :=
  (l.zipIdx).foldl (fun s x =>
    let s := if x.1.lim then s.casBreach k 0 x.2 else s
    if x.1.sat then s.casBreach k cls x.2 else s) s

/-- The place of the last product with which a sum reaches the accumulator limit. -/
def accPlace (l : List Int) : Nat :=
  ((l.zipIdx).foldl (fun (a : Int × Nat) x => let b := Acc.add ⟨a.1, false⟩ x.1; (b.v, if b.sat then x.2 else a.2)) (0, 0)).2

/-- Count the breach of a sum of aligned products, one for each row or column, that reaches the accumulator limit. -/
def State.sumBreach (s : State) (k : Nat) (l : List Int) : State :=
  if (accSum Acc.zero l).sat then s.casBreach k 0 (accPlace l) else s

/-- Note the unknowns of a computed x or d that saturated (R172). -/
def State.noteSat (s : State) (k : Nat) (l : List Res) : State :=
  let v := s.casSlot k
  s.setCas k { v with satX := v.satX ++ ((l.zipIdx).filter (fun x => x.1.sat)).map (·.2) }

/-! ### The products of R168 -/

/-- Row `i` of J times a vector whose column scales exceed `ec` by `up`: the row's scale (R158). -/
def State.rowMul (s : State) (b : Nat) (x : List Int) (up : Nat → Int) (i : Nat) : List Int :=
  (s.jRow b i).map (fun e => shiftI (e.2 * x.getD e.1 0) (5 + up e.1))

/-- Residual of every row: b − J x (R168). -/
def State.residual (s : State) (b : Nat) (x : List Int) : List Res :=
  (List.range (s.dRows b)).map (fun i =>
    (accSum ⟨s.bVal b i * 2 ^ 32, false⟩ ((s.rowMul b x (fun _ => 0) i).map (fun p => -p))).q130)

/-- J times a vector at gradient scale, in row scale. -/
def State.jMul (s : State) (b : Nat) (p : List Int) : List Res :=
  (List.range (s.dRows b)).map (fun i => (accSum Acc.zero (s.rowMul b p (fun j => s.eg b j - s.ec b j) i)).q130)

/-- W times a row vector; the scale of row `i` rises by ew. -/
def State.wMul (s : State) (b : Nat) (l : List Int) : List Res :=
  (l.zipIdx).map (fun x => (Acc.zero.add (shiftI (s.wgt b x.2 * x.1) 2)).q130)

/-- The products of Jᵀ with a weighted row vector, by column, aligned to gradient scale. -/
def State.jtTerms (s : State) (b : Nat) (w : List Int) : List (Nat × Int) :=
  (List.range (s.dRows b)).flatMap (fun i =>
    (s.jRow b i).map (fun e => (e.1, shiftI (e.2 * w.getD i 0) (5 + (2 * s.er b i + s.ew b i - s.ec b e.1 - s.eg b e.1)))))

/-- Jᵀ times a weighted row vector, at gradient scale. -/
def State.jtMul (s : State) (b : Nat) (w : List Int) : List Res :=
  let t := s.jtTerms b w
  (List.range (s.dN b)).map (fun j => (accSum Acc.zero ((t.filter (fun x => x.1 == j)).map (·.2))).q130)

/-- The aligned products of a dot product of two gradient-scale vectors. -/
def State.dotTerms (s : State) (b : Nat) (x y : List Int) : List Int :=
  let eg := (List.range (s.dN b)).map (s.eg b)
  (x.zip (y.zip eg)).map (fun t => shiftI (t.1 * t.2.1) (2 + 2 * t.2.2 - Config.casDotExp eg))

/-- A dot product of two gradient-scale vectors. -/
def State.casDot (s : State) (b : Nat) (x y : List Int) : Acc := accSum Acc.zero (s.dotTerms b x y)

/-- The exponents of the terms of the weighted norm, by row. -/
def State.normExps (s : State) (b : Nat) : List Int := (List.range (s.dRows b)).map (fun i => s.ew b i + 2 * s.er b i)

/-- The aligned products of Σ W r². -/
def State.normSum (s : State) (b : Nat) (r : List Int) : List Int :=
  (r.zipIdx).map (fun x => shiftI (s.wgt b x.2 * x.1 * x.1) (-28 + (s.normExps b).getD x.2 0 - Config.casNormExp (s.normExps b)))

/-- The weighted norm √(Σ W r²) as a single (R172). -/
def State.casNorm (s : State) (b : Nat) (r : List Int) : Word :=
  sqrtSingle (accSum Acc.zero (s.normSum b r)).v.toNat (Config.casNormExp (s.normExps b) - 62)

/-- Masked elements become 0. -/
def maskVec (m : List Bool) (l : List Int) : List Int := (l.zip m).map (fun x => if x.2 then x.1 else 0)

/-- x + m · y, with `m` a double scalar and y's scale exceeding x's by `up` (R158). -/
def axpy (x y : List Int) (m : Int × Int) (up : Nat → Int) (neg : Bool) : List Res :=
  ((x.zip y).zipIdx).map (fun t =>
    let p := shiftI (m.1 * t.1.2) (32 + m.2 + up t.2)
    (Acc.add ⟨t.1.1 * 2 ^ 32, false⟩ (if neg then -p else p)).q130)

/-! ### The preconditioner (R177 to R179) -/

/-- Address of factor buffer `f` of slot `k`. -/
def State.factAt (s : State) (k f : Nat) : Nat :=
  let b := s.casBase k
  b + (if f = 0 then (s.casLayout b).2.1 else (s.casLayout b).2.2.1)

/-- The factor's columns with their mantissas, as a buffer holds them. -/
def State.factCols (s : State) (a : Nat) : List (List Nat) → List (List (Nat × Int))
  | [] => []
  | c :: t => ((c.zipIdx).map (fun x => (x.1, sx 16 (s.mem_le (a + 2 * x.2) 2)))) :: s.factCols (a + 2 * c.length) t

/-- Column `c` at row `i`; 0 outside the pattern. -/
def colAt (c : List (Nat × Int)) (i : Nat) : Int := (c.find? (fun e => e.1 == i)).elim 0 (·.2)

/-- The exponent of position `k`'s factor column, and the gradient exponent of its unknown. -/
def State.posExp (s : State) (b k : Nat) : Int × Int := (s.ef b (s.perm b k), s.eg b (s.perm b k))

/-- Forward substitution: the remaining columns, the positions done, and the accumulated results in place in z. -/
def State.fwd (s : State) (b : Nat) : Nat → List (List (Nat × Int)) → List Acc → List Int → List Res → List Res
  | _, [], _, _, out => out
  | k, c :: t, acc, y, out =>
    let a := acc.getD k Acc.zero
    let (ef, eg) := s.posExp b k
    let r := q130 (divRne a.v (-18 - ef) (colAt c k)) a.sat
    let acc' := (acc.zipIdx).map (fun x =>
      if k < x.2 then x.1.add (-(shiftI (colAt c x.2 * r.m) (18 + ef + eg - (s.posExp b x.2).2))) else x.1)
    State.fwd s b (k + 1) t acc' (y ++ [r.m]) (out ++ [r])

/-- Backward substitution, from the last column: position, columns last first, results so far by position. -/
def State.bwd (s : State) (b : Nat) : List (Nat × List (Nat × Int)) → List Int → List (Nat × Res) → List (Nat × Res)
  | [], _, out => out
  | (k, c) :: t, y, out =>
    let (ef, eg) := s.posExp b k
    let a := accSum ⟨y.getD k 0 * 2 ^ 32, false⟩ ((c.filter (fun e => decide (k < e.1))).map (fun e =>
      let z := (out.find? (fun o => o.1 == e.1)).elim 0 (fun o => o.2.m)
      0 - shiftI (e.2 * z) (18 + ef + (s.posExp b e.1).2 - eg)))
    s.bwd b t y (out ++ [(k, q130 (divRne a.v (-18 - ef) (colAt c k)) a.sat)])

/-- z = precond(r) with the active factor, in place at gradient scale (R177). -/
def State.precondFact (s : State) (k : Nat) (r : List Int) : List Res :=
  let b := s.casBase k
  let n := s.dN b
  let cols := s.factCols (s.factAt k (b2n (s.on (SLOT.SLOT_STAT_FACT_ACTIVE k)))) (s.factPattern b)
  let rp := (List.range n).map (fun i => (⟨r.getD (s.perm b i) 0 * 2 ^ 32, false⟩ : Acc))
  let y := s.fwd b 0 cols rp [] []
  let z := s.bwd b (((List.range n).zip cols).reverse) (y.map (·.m)) []
  (List.range n).map (fun j => match z.find? (fun o => s.perm b o.1 == j) with
    | some o => { o.2 with sat := o.2.sat || (y[o.1]?).elim false (fun t => t.sat), lim := o.2.lim || (y[o.1]?).elim false (fun t => t.lim) }
    | none => ⟨0, false, false⟩)

/-- The diagonal of JᵀWJ at gradient scale (R179). -/
def State.casDiag (s : State) (b : Nat) : List Res :=
  let t := (List.range (s.dRows b)).flatMap (fun i => (s.jRow b i).map (fun e =>
    (e.1, shiftI (e.2 * e.2 * s.wgt b i) (-22 + (2 * s.er b i + s.ew b i - 2 * s.ec b e.1 - s.eg b e.1)))))
  (List.range (s.dN b)).map (fun j => (accSum Acc.zero ((t.filter (fun x => x.1 == j)).map (·.2))).q130)

/-- z = precond(r) with the diagonal (R179). -/
def State.precondDiag (s : State) (k : Nat) (r : List Int) : List Res :=
  let b := s.casBase k
  ((r.zip (s.vec k 8)).zipIdx).map (fun x => q130 (divRne x.1.1 (30 - s.eg b x.2) x.1.2) false)

/-- z = mask(precond(r)), its breaches counted, and the new state. -/
def State.applyPrecond (s : State) (k : Nat) (r : List Int) : State × List Int :=
  let v := s.casSlot k
  let z := if v.diag then s.precondDiag k r else s.precondFact k r
  let s := s.breaches k 1 z
  let zm := maskVec v.mask (z.map (·.m))
  (s.putVec' k 5 zm, zm)

/-! ### Start of a solve (R165, R167, R180) -/

/-- A completed refresh becomes the active factor at the start instant (R178). -/
def State.activateFactor (s : State) (k : Nat) : State :=
  let v := s.casSlot k
  if v.ready then
    let s := s.putB (SLOT.SLOT_STAT_FACT_ACTIVE k) (!s.on (SLOT.SLOT_STAT_FACT_ACTIVE k))
    let s := (s.put (SLOT.SLOT_STAT_FACT_VALID k) 1).putB (SLOT.SLOT_STAT_FACT_STALE k) v.readyStale
    s.setCas k { v with ready := false, readyStale := false }
  else s

/-- The start iterate of R180: the vector, COLD and WARM_MISMATCH. -/
def State.startIterate (s : State) (k : Nat) : List Int × Bool × Bool :=
  let b := s.casBase k
  let n := s.dN b
  let prior := (List.range n).map (s.prior b)
  let own := s.get64 (SLOT.SLOT_SIG_LO k) (SLOT.SLOT_SIG_HI k)
  let src := if s.on (SLOT.SLOT_CFG_WARM_OTHER k) then s.get (SLOT.SLOT_CFG_WARM_SRC k) else k
  let v := s.casSlot src
  if s.on (SLOT.SLOT_STAT_COLD_PENDING k) || !s.on (SLOT.SLOT_CFG_WARM_EN k) then (prior, true, false)
  else if s.on (SLOT.SLOT_CFG_WARM_OTHER k) then
    (if v.posted && s.casHeld src && v.postSig.toNat == own then (s.memVec (s.vecAt src 1) n, false, false)
     else (prior, true, true))
  else if !v.posted then (prior, true, false)
  else if v.postSig.toNat ≠ own then (prior, true, true)
  else (s.vec k 1, false, false)

/-- Hold a vector to the box of a kind-3 slot (R168). -/
def State.toBox (s : State) (b : Nat) (x : List Int) : List Int :=
  if s.dKind b = 3 then (x.zipIdx).map (fun t => clampI (s.loBnd b t.2) (s.hiBnd b t.2) t.1) else x

/-- The start instant of slot `k` (R165): the factor that is ready becomes active, delta batches are applied, the start
iterate is chosen. -/
def State.casStart (s : State) (k : Nat) : State :=
  let s := s.activateFactor k
  let dl := s.tku.base + BitVec.ofNat 64 (us (s.get (SLOT.SLOT_DEADLINE k)))
  let v := s.casSlot k
  let s := s.setCas k { v with
    phase := 1, tick0 := s.tku.ticks, startAt := s.mono, deadline := dl, g := 0, outer := 0, inner := 0, code := 0
    warmMis := false, cold := false, diag := !s.on (SLOT.SLOT_STAT_FACT_VALID k), deferred := false, breach := 0
    satX := [], mask := [], rz := 0
    truncAct := s.on (SLOT.SLOT_CFG_TRUNC_ACT k), breachAct := s.on (SLOT.SLOT_CFG_BREACH_ACT k) }
  let s := (s.setCasSt k csSOLVING).takeBatches k none 0 (s.feed k).length (s.feed k) |>.1
  let (x0, cold, mis) := s.startIterate k
  let x := s.toBox (s.casBase k) x0
  let s := (s.putVec' k 0 x).putVec' k 2 x
  let s := s.put (SLOT.SLOT_STAT_COLD_PENDING k) 0
  let s := if mis then s.bump (SLOT.SLOT_CNT0_WARM_MISMATCH_CNT k) else s
  s.setCas k { s.casSlot k with cold := cold, warmMis := mis }

/-- A start instant of slot `k` falls in the present tick (R165). -/
def State.casGrid (s : State) (k : Nat) : Bool :=
  let p := s.get (SLOT.SLOT_PERIOD_PERIOD k)
  p != 0 && s.tku.grid.toNat / 100000 % p == s.get (SLOT.SLOT_PERIOD_PHASE k)

/-- Cascade works: its pages are enabled and its domain is neither held nor halted (R181, R468). -/
def State.casLive (s : State) : Bool := s.enabled 0x1A && s.domRuns 9

/-- The snapshot instant on the slots in `l`; a slot never has two solves in hand. -/
def State.casStarts (s : State) : List Nat → State
  | [] => s
  | k :: t => (if s.casEn k && s.casSt k == csWAITING && s.casGrid k then s.casStart k else s).casStarts t

/-- The snapshot instant of Cascade (R15, R165); it has no scheduled work outside RUN (R468). -/
def State.casSnapshot (s : State) : State := if s.casLive && s.running then s.casStarts (List.range 16) else s

/-! ### Units (R168 to R172, R176) -/

/-- Nanoseconds left to the deadline of slot `k`. -/
def State.casLeft (s : State) (k : Nat) : Int := ((s.casSlot k).deadline - s.tku.ns).toInt

/-- fits of R168: the present time plus `cyc` lane cycles plus T_post is at or before the deadline. -/
def State.fits (s : State) (k cyc : Nat) : Bool :=
  decide ((1000 * (cyc + s.tPost k) : Int) ≤ s.casLeft k * s.clkMHz 9)

/-- Set the next unit of slot `k`. -/
def State.setPhase (s : State) (k ph : Nat) : State := s.setCas k { s.casSlot k with phase := ph }

/-- The end of an outer iteration: x takes the increment and is projected; the next outer iteration or the post follows
(R168). -/
def State.endOuter (s : State) (k : Nat) : State :=
  let b := s.casBase k
  let x := ((s.vec k 0).zip (s.vec k 3)).map (fun t => (Acc.add ⟨t.1 * 2 ^ 32, false⟩ (t.2 * 2 ^ 32)).q130)
  let s := (s.breaches k 2 x).noteSat k x
  let s := s.putVec' k 0 (s.toBox b (x.map (·.m)))
  let v := s.casSlot k
  if v.code ≠ 0 ∨ s.get (SLOT.SLOT_ITER_G k) ≤ v.g + 1 then s.setPhase k 6
  else s.setCas k { v with g := v.g + 1, phase := 2 }

/-- A failed fits() check: the solve is truncated (R171). Outside an outer iteration there is no increment to add. -/
def State.truncate (s : State) (k : Nat) (partial' : Bool) : State :=
  let s := s.setCas k { s.casSlot k with code := 1 }
  if partial' then s.endOuter k else s.setPhase k 6

/-- The check before outer iteration g, and for kind 2 the request of its linearisation (R168, R169). -/
def State.outerCheck (s : State) (k : Nat) : State :=
  if !s.fits k (s.tOuter k + s.wcit k) then s.truncate k false
  else
    let v := s.casSlot k
    let s := s.setCas k { v with outer := v.g + 1, inner := 0 }
    if s.dKind (s.casBase k) = 2 then
      let s := (s.put (SLOT.SLOT_LIN_LIN_OUTER k) v.g).setCasSt k csLIN
      s.setCas k { s.casSlot k with phase := 3, linAt := s.mono }
    else s.setPhase k 4

/-- The free set of R168. -/
def State.freeSet (s : State) (b : Nat) (x r : List Int) : List Bool :=
  ((x.zip r).zipIdx).map (fun t =>
    s.dKind b != 3 || !(decide (t.1.1 ≤ s.loBnd b t.2 ∧ t.1.2 ≤ 0) || decide (s.hiBnd b t.2 ≤ t.1.1 ∧ 0 ≤ t.1.2)))

/-- The preamble of an outer iteration (R168): residual, norm, gradient, free set, first direction. -/
def State.preamble (s : State) (k : Nat) : State :=
  let b := s.casBase k
  let x := s.vec k 0
  let res := if s.dKind b = 2 then (List.range (s.dRows b)).map (fun i => (⟨s.bVal b i, false, false⟩ : Res))
             else s.residual b x
  let s := s.breaches k 0 res
  let wr := s.wMul b (res.map (·.m))
  let s := (s.breaches k 0 wr).putVecI (s.vecAt k 9) (res.map (·.m))
  let s := s.putVecI (s.wresAt k) (wr.map (·.m))
  let nrm := s.casNorm b (res.map (·.m))
  let s := s.sumBreach k (s.normSum b (res.map (·.m)))
  let r := s.jtMul b (wr.map (·.m))
  let s := s.breaches k 1 r
  let m := s.freeSet b x (r.map (·.m))
  let rm := maskVec m (r.map (·.m))
  let s := s.setCas k { s.casSlot k with mask := m, resnorm := nrm }
  let s := (s.putVec' k 4 rm).putVec' k 3 (List.replicate (s.dN b) 0)
  let dg := s.casDiag b
  let s := if (s.casSlot k).diag then (s.breaches k 1 dg).putVec' k 8 (dg.map (·.m)) else s
  let (s, z) := s.applyPrecond k rm
  let a := s.casDot b rm z
  let s := s.sumBreach k (s.dotTerms b rm z)
  (s.putVec' k 6 z).setCas k { s.casSlot k with rz := a.v, phase := 5 }

/-- One inner iteration (R168). -/
def State.innerStep (s : State) (k : Nat) : State :=
  let b := s.casBase k
  let v := s.casSlot k
  let p := s.vec k 6
  let jp := s.jMul b p
  let wjp := s.wMul b (jp.map (·.m))
  let qr := s.jtMul b (wjp.map (·.m))
  let s := ((s.breaches k 0 jp).breaches k 0 wjp).breaches k 1 qr
  let q := maskVec v.mask (qr.map (·.m))
  let s := s.putVec' k 7 q
  let pq := s.casDot b p q
  let s := s.sumBreach k (s.dotTerms b p q)
  if pq.v ≤ 0 then (if pq.v < 0 then s.bump (SLOT.SLOT_CNT0_NONPOS_CNT k) else s).endOuter k
  else
    let alpha := dblRatio v.rz pq.v
    let d := axpy (s.vec k 3) p alpha (fun j => s.eg b j - s.ec b j) false
    let r := axpy (s.vec k 4) q alpha (fun _ => 0) true
    let s := ((s.breaches k 2 d).noteSat k d).breaches k 1 r
    let s := (s.putVec' k 3 (d.map (·.m))).putVec' k 4 (r.map (·.m))
    let (s, z) := s.applyPrecond k (r.map (·.m))
    let rz := s.casDot b (r.map (·.m)) z
    let s := s.sumBreach k (s.dotTerms b (r.map (·.m)) z)
    let p' := axpy z p (if v.rz = 0 then (0, 0) else dblRatio rz.v v.rz) (fun _ => 0) false
    let s := (s.breaches k 1 p').putVec' k 6 (p'.map (·.m))
    let w := s.casSlot k
    let s := s.setCas k { w with rz := rz.v, inner := w.inner + 1 }
    if s.get (SLOT.SLOT_ITER_K k) ≤ w.inner + 1 then s.endOuter k else s

/-- The check before an inner iteration, then the iteration (R168, R171). -/
def State.innerUnit (s : State) (k : Nat) : State := if s.fits k (s.wcit k) then s.innerStep k else s.truncate k true

/-- A posted solution word: the mantissa shifted by OUT_SHIFT, rounded and saturated (R172). -/
def outShift (x sh : Int) : Res :=
  let q := if 0 ≤ sh then x * 2 ^ sh.toNat else rneDiv x (2 ^ (-sh).toNat)
  ⟨satQ q, outOfRange q, false⟩

/-- Post the solution slots of an output map. -/
def State.postSolution (s : State) (k age : Nat) (valid : Bool) : List (Nat × Word × Bool) → State
  | [] => s
  | (n, w, sat) :: t => (s.post n 5 k w valid false false sat age).postSolution k age valid t

/-- The status word of R172. -/
def CasSlot.status (v : CasSlot) : Word :=
  BitVec.ofNat 32 (v.code + 16 * v.outer + 256 * v.inner + b2n v.warmMis * 2 ^ 16 + b2n v.diag * 2 ^ 17 +
    b2n (v.breach != 0) * 2 ^ 18 + b2n v.deferred * 2 ^ 19 + b2n v.cold * 2 ^ 20)

/-- Count a code of R172. -/
def State.casCode (s : State) (k code : Nat) : State :=
  if code = 1 then (s.bump (SLOT.SLOT_CNT0_TRUNC_CNT k)).bump CAS.EVT_TOTAL_TRUNC_TOTAL
  else if code = 2 then (s.bump (SLOT.SLOT_CNT0_LIN_TIMEOUT_CNT k)).bump CAS.EVT_TOTAL_TRUNC_TOTAL else s

/-- A refresh is requested; a request while one is pending or in progress is merged into it (R177). -/
def State.casReq (s : State) (k : Nat) : State :=
  if s.on (SLOT.SLOT_STAT_FACT_BUSY k) then s else s.setCas k { s.casSlot k with req := true }

/-- The solve counts toward REFRESH_EVERY (R177). -/
def State.casEvery (s : State) (k : Nat) : State :=
  let v := s.casSlot k
  if s.get (SLOT.SLOT_CFG_REFRESH_MODE k) ≠ 1 then s.setCas k { v with since := 0 }
  else if s.get (SLOT.SLOT_REFRESH_EVERY k) ≤ v.since + 1 then (s.setCas k { v with since := 0 }).casReq k
  else s.setCas k { v with since := v.since + 1 }

/-- Posting (R172): the solution, status and residual-norm slots as one group; the slot waits for its next start
instant, or is freed if EN has been cleared (R183). -/
def State.casPost (s : State) (k : Nat) : State :=
  let b := s.casBase k
  let x := s.vec k 0
  let age := s.tku.ticks - (s.casSlot k).tick0
  let outs := (List.range (s.dOut b)).map (fun i => let e := s.outMap b i; (e, outShift (x.getD e.1 0) e.2.2))
  let s := outs.foldl (fun s o => if o.2.sat then s.casBreach k 2 o.1.1 else s) s
  let v := s.casSlot k
  let bad := (v.code != 0 && v.truncAct) || (v.breach != 0 && v.breachAct)
  let s := s.postSolution k age (!bad) (outs.map (fun o =>
    (o.1.2.1, BitVec.ofInt 32 o.2.m, o.2.sat || v.satX.contains o.1.1)))
  let s := s.post (s.get (SLOT.SLOT_OUT_STATUS_SLOT k)) 5 k v.status true false false false age
  let s := s.post (s.get (SLOT.SLOT_OUT_RESNORM_SLOT k)) 5 k v.resnorm true false false false age
  let s := (s.put (SLOT.SLOT_LAST_STATUS k) v.status.toNat).put (SLOT.SLOT_LAST_RESNORM k) v.resnorm.toNat
  let s := ((s.put (SLOT.SLOT_STAT_LAST_CODE k) v.code).put (SLOT.SLOT_STAT_LAST_OUTER k) v.outer).put
    (SLOT.SLOT_STAT_LAST_INNER k) v.inner
  let s := (s.casCode k v.code).inc (SLOT.SLOT_SOLVES k)
  let s := s.putSat (SLOT.SLOT_EXEC_LAST k) ((s.mono - v.startAt) / 1000)
  let s := s.put (SLOT.SLOT_EXEC_MAX k) (max (s.get (SLOT.SLOT_EXEC_MAX k)) (s.get (SLOT.SLOT_EXEC_LAST k)))
  let s := s.putVec' k 1 x
  let s := s.setCas k { v with phase := 0, posted := true,
                               postSig := BitVec.ofNat 64 (s.get64 (SLOT.SLOT_SIG_LO k) (SLOT.SLOT_SIG_HI k)) }
  let s := (s.setCasSt k csWAITING).casEvery k
  if s.casEn k then s else s.casFreed k

/-- Slot `k` has a unit for the lanes (R176); one whose abort is under way has none (R181). -/
def State.casHasWork (s : State) (k : Nat) : Bool :=
  let p := (s.casSlot k).phase
  p != 0 && p != 3 && (s.casSt k == csSOLVING) && !s.casAborting k

/-- The slot with the earliest deadline among those in `l` that have work; the lower number at equal deadlines. -/
def State.casNext (s : State) : List Nat → Option Nat
  | [] => none
  | k :: t =>
    match s.casHasWork k, s.casNext t with
    | false, r => r
    | true, none => some k
    | true, some j => if s.casLeft k ≤ s.casLeft j then some k else some j

/-- The lane cycles of the next unit of slot `k`. -/
def State.unitCost (s : State) (k : Nat) : Nat :=
  match (s.casSlot k).phase with
  | 1 => s.tApply k | 4 => s.tOuter k | 5 => s.wcit k | 6 => s.tPost k | _ => 0

/-- The lanes run the next unit of slot `k` (R176): its checks are made at dispatch, its effect stands when it ends, `ns`
nanoseconds later, at most its cost of R173. The check before an outer iteration goes with its preamble; a unit whose check
fails takes no lane time. The truth value tells whether the slot has posted. -/
def State.casUnit (s : State) (k ns : Nat) : State × Bool :=
  let s := if (s.casSlot k).phase = 2 then s.outerCheck k else s
  let ph := (s.casSlot k).phase
  if ph = 3 then (s, false)
  else if ph = 5 ∧ ¬ s.fits k (s.wcit k) then (s.truncate k true, false)
  else
    let t := min ns (ceilDiv (1000 * s.unitCost k) (max (s.clkMHz 9) 1))
    let run (s : State) := { s.untilMono (s.mono + t) with casBusy := s.casBusy + t }
    if ph = 1 then (run (s.setPhase k 2), false)
    else if ph = 4 then (run (s.preamble k), false)
    else if ph = 5 then (run (s.innerStep k), false)
    else if ph = 6 then ((run s).casPost k, true)
    else (s, false)

/-- Dispatch (R176): the slot whose unit ran, if it has posted. -/
def State.casDispatch (s : State) (ns : Nat) : State × Option Nat :=
  if s.casLive && s.domReady 9 then
    match s.casNext (List.range 16) with
    | none => (s, none)
    | some k => let (s, p) := s.casUnit k ns; (s, if p then some k else none)
  else (s, none)

/-- A linearisation commit of slot `k` is on the ring (R169). -/
def State.casLinCommit (s : State) (k : Nat) : State :=
  if s.casSt k = csLIN ∧ s.casAborting k = false then
    let (s, got) := s.takeBatches k (some (s.casSlot k).g) 0 (s.feed k).length (s.feed k)
    if got then (s.setCasSt k csSOLVING).setPhase k 4 else s
  else s

/-- The linearisation of slot `k` times out: at LIN_BUDGET after the request, or when fits() turns false, whichever comes
first (R169). -/
def State.casLinTimeout (s : State) (k : Nat) : State :=
  if s.casSt k = csLIN ∧ s.casAborting k = false then
    let v := s.casSlot k
    let budget := v.linAt + us (s.get (SLOT.SLOT_LIN_LIN_BUDGET k))
    let need := (1000 * (s.tOuter k + s.wcit k + s.tPost k)) / max (s.clkMHz 9) 1
    let late := s.mono + (s.casLeft k - need).toNat
    let s := s.untilMono (min budget late)
    (s.setCasSt k csSOLVING).setCas k { v with code := 2, phase := 6 }
  else s

/-! ### The refresh (R177, R178) -/

/-- The terms of entry (i, k) of JᵀWJ in permuted order, aligned to twice the exponent of column k. -/
def State.normalTerms (s : State) (b i k : Nat) : List Int :=
  let a := s.perm b i
  let c := s.perm b k
  (List.range (s.dRows b)).filterMap (fun r =>
    let row := s.jRow b r
    match row.find? (fun e => e.1 == a), row.find? (fun e => e.1 == c) with
    | some x, some y => some (shiftI (x.2 * y.2 * s.wgt b r)
        (-22 + (2 * s.er b r + s.ew b r - s.ec b a - s.ec b c - 2 * s.ef b c)))
    | _, _ => none)

/-- A factor mantissa, and whether it saturated: Q1.14 in 16 bits. -/
def q114 (q : Int) : Int × Bool := (clampI (-32768) 32767 q, decide (q < -32768 ∨ 32767 < q))

/-- The square root of an accumulator as a Q1.14 mantissa, to nearest. -/
def rootQ114 (v : Int) : Int :=
  let m := Nat.sqrt (v.toNat / 2 ^ 34)
  if (2 * m + 1) * (2 * m + 1) * 2 ^ 34 < 4 * v.toNat then m + 1 else m

/-- Factorise the columns of the pattern from position `k` on; the columns done so far. None if a pivot is not positive;
else the columns and the last column with a saturated mantissa. -/
def State.factor (s : State) (b : Nat) : Nat → List (List Nat) → List (List (Nat × Int)) → Option Nat →
    Option (List (List (Nat × Int)) × Option Nat)
  | _, [], done, br => some (done, br)
  | k, c :: t, done, br =>
    let ek := (s.posExp b k).1
    let entry (i : Nat) : Acc := accSum Acc.zero (s.normalTerms b i k ++ (done.zipIdx).map (fun d =>
      -(shiftI (colAt d.1 i * colAt d.1 k) (34 + 2 * (s.posExp b d.2).1 - 2 * ek))))
    let piv := entry k
    if piv.v ≤ 0 then none
    else
      let (l, s0) := q114 (rootQ114 piv.v)
      let col := c.map (fun i => if i = k then (i, l, s0) else
        let (m, st) := q114 (divRne (entry i).v (-34) l)
        (i, m, st))
      let br := if col.any (fun e => e.2.2) then some (s.perm b k) else br
      s.factor b (k + 1) t (done ++ [col.map (fun e => (e.1, e.2.1))]) br

/-- Store 16-bit words from address `a`. -/
def State.putHalves (s : State) (a : Nat) : List Int → State
  | [] => s
  | x :: t => (s.setLE a 2 (ux 16 x)).putHalves (a + 2) t

/-- A requested refresh of slot `k` starts when no slot has work (R176, R177). It waits while a completed factor has not
become active, since then neither buffer is free. -/
def State.casRefreshStart (s : State) (k : Nat) : State :=
  let v := s.casSlot k
  if s.casLive && s.domReady 9 && s.casHeld k && (v.req || s.get (SLOT.SLOT_CFG_REFRESH_MODE k) == 2) && !v.ready &&
      !s.on (SLOT.SLOT_STAT_FACT_BUSY k) && !s.casAborting k && (s.casNext (List.range 16)).isNone then
    (s.put (SLOT.SLOT_STAT_FACT_BUSY k) 1).setCas k { v with req := false, changed := false }
  else s

/-- A refresh fails (R178): the previous factor is kept. -/
def State.factFail (s : State) (k : Nat) : State := s.bump (SLOT.SLOT_CNT2_FACT_FAIL_CNT k)

/-- A mantissa of column `j` saturated: a factor breach, with which a refresh fails (R159, R178). -/
def State.factBreach (s : State) (k j : Nat) : State :=
  let s := (s.put (SLOT.SLOT_BREACH_CLASS k) 3).put (SLOT.SLOT_BREACH_INDEX k) j
  (s.bump (SLOT.SLOT_CNT1_FACT_SAT_CNT k)).factFail k

/-- The refresh of slot `k` ends (R178). Where J or W changed during it, the entries it computed are not determined, nor whether a pivot
was positive and every mantissa in its range. -/
def State.casRefreshDone (s : State) (k : Nat) : State :=
  if s.on (SLOT.SLOT_STAT_FACT_BUSY k) && s.casHeld k && !s.casAborting k then
    let b := s.casBase k
    let v := s.casSlot k
    let a := s.factAt k (1 - b2n (s.on (SLOT.SLOT_STAT_FACT_ACTIVE k)))
    let (s, t) := s.free
    let s := (s.put (SLOT.SLOT_STAT_FACT_BUSY k) 0).putSat (SLOT.SLOT_REFRESH_LAST k) t
    let s := { s with casBusy := s.casBusy + 1000 * s.get (SLOT.SLOT_REFRESH_LAST k) }
    let ok (s : State) := s.setCas k { s.casSlot k with ready := true, readyStale := v.changed, changed := false }
    if v.changed then
      let (s, good) := s.free
      let s := s.putHalves a ((List.range (s.dNnzL b)).map (fun i => (Config.casMixed s.freshCtr i).toInt))
      let (s, j) := s.free
      if good % 3 = 0 then ok s else if good % 3 = 1 then s.factFail k else s.factBreach k (j % s.dN b)
    else match s.factor b 0 (s.factPattern b) [] none with
      | none => s.factFail k
      | some (cols, none) => ok (s.putHalves a ((cols.flatMap id).map (·.2)))
      | some (_, some j) => s.factBreach k j
  else s

/-- A slot's deadline moved by a time step (R74). -/
def CasSlot.shift (v : CasSlot) (d : BitVec 64) : CasSlot :=
  if v.phase = 0 then v else { v with deadline := v.deadline + d }

/-- Cascade's deadlines move with a time step (R74). -/
def State.casShift (s : State) (d : BitVec 64) : State :=
  { s with cas := mapMap (fun _ => CasSlot.blank) (fun _ v => v.shift d) s.cas }

/-- Apply restored delta records to the structure of slot `k` (R182); one that its pattern cannot take has no effect. -/
def State.restoreRecs (s : State) (k : Nat) : List (Word × Word) → State
  | [] => s
  | e :: t => (match s.recPlace (s.casBase k) e.1 with
    | none => s
    | some (a, _) => s.setLE a 4 e.2.toNat).restoreRecs k t

/-- Restore of a slot after a takeover (R182): the delta records applied, DELTA_SEQ, the last posted solution of the former active module
and its signature; no factor is valid, and a refresh is requested. DESIGN CHOICE (assumption 37): values of another structure are not
written over the slot's own; its first solve then reports WARM_MISMATCH. -/
def State.casRestore (s : State) (k : Nat) (x : List Int) (sig : BitVec 64) (seq : Nat) (posted : Bool) (recs : List (Word × Word)) :
    State :=
  let s := (s.put (SLOT.SLOT_STAT_FACT_VALID k) 0).put (SLOT.SLOT_DELTA_SEQ k) seq
  let s := if s.get64 (SLOT.SLOT_SIG_LO k) (SLOT.SLOT_SIG_HI k) = sig.toNat then (s.putVec' k 1 x).restoreRecs k recs else s
  s.setCas k { s.casSlot k with phase := 0, posted := posted, postSig := sig, req := true, ready := false, applied := recs }

end Sys2Proof.Machine
end

