-- ==== Sys2Proof/Machine/Creds.lean ====
section
/-! DEFINITION. Credentials (R283, R284): challenges, the proof of an operation, the run of failures and the lockout. -/

namespace Sys2Proof.Machine

/-- The `k`-th challenge word of the register set that serves a purpose: 1 commissioning and changes (GNT), 2 forcing
(LSQ0), 3 debug (DBG), 4 Cistern clearing (CIS), 5 revert inhibit (RDC). -/
def chalFld (set k : Nat) : Fld :=
  if set = 2 then LSQ.FORCE_CHAL 0 k else if set = 3 then DBG.DBG_CHAL k else if set = 4 then CIS.CIS_CHAL k
  else if set = 5 then RDC.REV_CHAL k else GNT.CRED_CHAL k

/-- The `k`-th response word of that register set. -/
def respFld (set k : Nat) : Fld :=
  if set = 2 then LSQ.FORCE_RESP 0 k else if set = 3 then DBG.DBG_RESP k else if set = 4 then CIS.CIS_RESP k
  else if set = 5 then RDC.REV_RESP k else GNT.CRED_RESP k

/-- The register set of a purpose code of R283. -/
def purposeSet (p : Nat) : Nat := if p < 6 then p else 1

/-- Renew the challenge words `k` to 7 of a set with values that the manual leaves open. -/
def State.renewWords (s : State) (set : Nat) : List Nat → State
  | [] => s
  | k :: t => let (s, v) := s.free; (s.put (chalFld set k) v).renewWords set t

/-- Renew the challenge of a set (R284). -/
def State.renewChal (s : State) (set : Nat) : State :=
  let s := s.renewWords set (List.range 8)
  { s with chalAt := mapSet (fun _ => 0) s.chalAt set s.mono }

/-- Eight register words as 32 bytes, word 0 first, each little-endian (R283). -/
def State.words8 (s : State) (f : Nat → Fld) : List Byte := (List.range 8).flatMap (fun k => natLE 4 (s.get (f k)))

/-- The credential store in MRAM: credential `p`, 1 to 5 (R284). -/
def State.credential (s : State) (p : Nat) : List Byte := natLE 32 (mapGet (fun _ => (0 : BitVec 256)) s.creds p).toNat

/-- The message of R283 for purpose code `p`. -/
def State.credMessage (s : State) (p : Nat) (bound : List Byte) : List Byte :=
  s.words8 (chalFld (purposeSet p)) ++ [BitVec.ofNat 8 p] ++ natLE 4 (s.get SYS.SERIAL_LO) ++
    natLE 4 (s.get SYS.SERIAL_HI) ++ bound

/-- The response registers hold the proof of purpose `p` (R283). -/
def State.credProved (s : State) (p : Nat) (bound : List Byte) : Bool :=
  s.words8 (respFld (purposeSet p)) == hmacSha256 (s.credential (p % 16)) (s.credMessage p bound)

/-- Purpose `p` is locked (R284). -/
def State.credLocked (s : State) (p : Nat) : Bool := decide (s.mono < mapGet (fun _ => 0) s.credLockTo p)

/-- A submission for purpose `p`, seen on `page` at offset `off` (R284): refused unchecked while locked; a correct one
ends the run of failures; five failures in a row lock the purpose for 300 s. The challenge is renewed in every case.
The truth value tells whether the proof was accepted. -/
def State.credSubmit (s : State) (p : Nat) (bound : List Byte) (page off m : Nat) : State × Bool :=
  let s := s.put GNT.CRED_STAT_LAST_PURPOSE p
  if s.credLocked p then (((s.put GNT.CRED_STAT_LAST_FAIL 1).lost page off 4 m).renewChal (purposeSet p), false)
  else if s.credProved p bound then
    let s := { s with credFails := mapSet (fun _ => 0) s.credFails p 0 }
    ((s.put GNT.CRED_STAT_LAST_FAIL 0).renewChal (purposeSet p), true)
  else
    let n := mapGet (fun _ => 0) s.credFails p + 1
    let s := { s with credFails := mapSet (fun _ => 0) s.credFails p (if n = 5 then 0 else n),
                      credLockTo := if n = 5 then mapSet (fun _ => 0) s.credLockTo p (s.mono + secs 300)
                                    else s.credLockTo }
    (((s.put GNT.CRED_STAT_LAST_FAIL 1).lost page off 4 m).renewChal (purposeSet p), false)

/-- FORCE_AUTH is open (R115). -/
def State.forceAuthOpen (s : State) : Bool :=
  match s.forceAuth with | none => false | some t => decide (s.mono < t)

/-- DBG_AUTH is open (R254). -/
def State.dbgAuthOpen (s : State) : Bool :=
  match s.dbgAuth with | none => false | some t => decide (s.mono < t)

end Sys2Proof.Machine
end

