-- ==== Sys2Proof/Machine/Links.lean ====
section
/-! DEFINITION. Frames of the SSE and the redundancy controller on their way to an Ethernet port or a CAN controller (R319,
R333, R339, R340). -/

namespace Sys2Proof.Machine

/-- Ethernet port `p` beyond its registers. -/
def State.eth (s : State) (p : Nat) : EthPort := mapGet (fun _ => EthPort.blank) s.eths p
/-- Set Ethernet port `p`. -/
def State.setEth (s : State) (p : Nat) (v : EthPort) : State :=
  { s with eths := mapSet (fun _ => EthPort.blank) s.eths p v }

/-- Port `p` is the odd port of a PRP pair: its even port sends for both (R322). -/
def State.prpOdd (s : State) (p : Nat) : Bool := decide (p < 8) && p % 2 == 1 && s.on (ETH.PORT_CFG_PRP_EN (p - 1))

/-- A frame of the SSE or the redundancy controller waits for port `p` (R319). -/
def State.ethQueue (s : State) (p : Nat) (f : List Byte) : State :=
  if s.prpOdd p || !s.enabled (0x40 + p) then s else s.setEth p { s.eth p with q := (s.eth p).q ++ [f] }

/-- CAN controller `n` beyond its registers. -/
def State.can (s : State) (n : Nat) : CanCtl := mapGet (fun _ => CanCtl.blank) s.cans n
/-- Set CAN controller `n`. -/
def State.setCan (s : State) (n : Nat) (v : CanCtl) : State :=
  { s with cans := mapSet (fun _ => CanCtl.blank) s.cans n v }

/-- A controller in normal mode behaves as in listen-only mode (R340, R353). -/
def State.canSilent (s : State) : Bool :=
  let st := s.mstate
  st == stSAFE || st == stCONFIG || st == stSTARTUP || (st == stRUN && (s.role == roleSTANDBY || s.on RDC.ROLE_LAPSED))

/-- The controller may send: normal mode, not silent (R340), not in bus-off. -/
def State.canSends (s : State) (n : Nat) : Bool :=
  (s.can n).mode == 1 && !s.canSilent && s.get (CAN.CAN_STAT_ERR_STATE n) != 2 && s.enabled (0x50 + n)

/-- A frame of the SSE waits for TXB8; it is lost where the controller cannot send (R333, R339). -/
def State.canQueue (s : State) (n : Nat) (id : Word) (f : List Byte) : State :=
  if s.canSends n then s.setCan n { s.can n with sseQ := (s.can n).sseQ ++ [(id, f)] } else s

end Sys2Proof.Machine
end

