-- ==== Sys2Proof/Machine/SscOps.lean ====
section
/-! DEFINITION. The Soeratis Safe Channel: parameters, the frame and its check value, sending, and the consumer's
checks (R295 to R307). -/

namespace Sys2Proof.Machine

/-- The internal state of entry `e`. -/
def State.sessOf (s : State) (e : Nat) : Sess := mapGet (fun _ => Sess.blank) s.sess e

/-- Set the internal state of entry `e`. -/
def State.setSess (s : State) (e : Nat) (v : Sess) : State :=
  { s with sess := mapSet (fun _ => Sess.blank) s.sess e v }

/-- Entry `e` is a vote session (R301). -/
def State.isVote (s : State) (e : Nat) : Bool := s.on (SSE.SESS_CFG_KIND e)

/-- PAYLOAD_LEN in force; a vote session has 8 bytes (R301). -/
def State.sessLen (s : State) (e : Nat) : Nat := if s.isVote e then 8 else s.get (SSE.SESS_LEN_PAYLOAD_LEN e)
/-- MAX_AGE in force, in 0.1 ms; a vote session has 1.0 ms (R301). -/
def State.sessMaxAge (s : State) (e : Nat) : Nat := if s.isVote e then 10 else s.get (SSE.SESS_TIMING_MAX_AGE e)
/-- WDOG in force, in ms; a vote session has 5 ms (R301). -/
def State.sessWdog (s : State) (e : Nat) : Nat := if s.isVote e then 5 else s.get (SSE.SESS_TIMING_WDOG_MS e)
/-- RESTART_MODE in force; a vote session restarts automatically (R301). -/
def State.sessMode (s : State) (e : Nat) : Nat := if s.isVote e then 0 else s.get (SSE.SESS_CFG_RESTART_MODE e)
/-- RESTART_N in force; a vote session has 2 (R301). -/
def State.sessRestartN (s : State) (e : Nat) : Nat := if s.isVote e then 2 else s.get (SSE.SESS_CFG_RESTART_N e)
/-- REPEAT in force, in ms; a vote session has 1 ms (R301). -/
def State.sessRepeat (s : State) (e : Nat) : Nat := if s.isVote e then 1 else s.get (SSE.SESS_REPEAT_MS e)

/-- Number of payload words (R301). -/
def State.sessWords (s : State) (e : Nat) : Nat := (s.sessLen e + 3) / 4

/-- The session parameter signature SESS_PSIG (R298). -/
def State.psig (s : State) (e : Nat) : BitVec 32 :=
  crc32c ([BitVec.ofNat 8 e, 1#8, BitVec.ofNat 8 (s.sessLen e), BitVec.ofNat 8 (s.sessMode e),
    BitVec.ofNat 8 (s.sessRestartN e)] ++ natLE 2 (s.sessMaxAge e) ++ natLE 2 (s.sessWdog e) ++
    List.replicate 7 0#8)

/-- The check value of R298 under a producer serial. -/
def State.sscCheck (s : State) (e serLo serHi : Nat) (body : List Byte) : BitVec 32 :=
  crc32c (natLE 4 (serLo ^^^ serHi) ++ natLE 4 (s.psig e).toNat ++ body)

/-- An SSC frame of entry `e` (R297). -/
def State.sscFrame (s : State) (e seq : Nat) (safeData : Bool) (payload : List Byte) : List Byte :=
  let restarted := decide (s.mono ≤ (s.sessOf e).startAt + ms 100)
  let flags := b2n safeData + 2 * b2n (!s.forces.isEmpty) + 4 * (s.role % 4) + 16 * b2n restarted
  let body := [BitVec.ofNat 8 (e + 64), BitVec.ofNat 8 flags] ++ natLE 4 seq ++ natLE 4 s.stamp ++ payload
  body ++ natLE 4 (s.sscCheck e (s.get SYS.SERIAL_LO) (s.get SYS.SERIAL_HI) body).toNat

/-- The sequence number after `q`: 0 is never sent (R300). -/
def nextSeq (q : Nat) : Nat := if q = 0xFFFFFFFF then 1 else q + 1

/-- The data length of a CAN FD frame that holds `n` bytes. -/
def canFdLen (n : Nat) : Nat :=
  if n ≤ 8 then n else if n ≤ 12 then 12 else if n ≤ 16 then 16 else if n ≤ 20 then 20 else if n ≤ 24 then 24
  else if n ≤ 32 then 32 else if n ≤ 48 then 48 else 64

/-- The links that carry the frames of entry `e` (R299, R301). -/
def State.sessLinks (s : State) (e : Nat) : List Link :=
  if s.isVote e then
    (if s.get SYS.MODULE_STATE_STATE = stRUN ∧ s.role = roleSINGLE then [.loopback] else [.loopback, .eth 8, .eth 9])
  else
    let t := s.get (SSE.SESS_CFG_TRANSPORT e)
    if t = 0 then [.loopback]
    else if t ≤ 8 then
      let p := t - 1
      let ev := p - p % 2
      if s.on (ETH.PORT_CFG_PRP_EN ev) then [.eth ev, .eth (ev + 1)] else [.eth p]
    else if t = 9 then [.eth 8, .eth 9] else if t = 10 then [.eth 10, .eth 11] else [.can (t - 11)]

/-- Entry `e` is named as an RDC session: WIT_TX_SESS or a WM_CFG.TX_SESS (R300). -/
def State.isRdcSess (s : State) (e : Nat) : Bool :=
  s.get RDC.STN_CFG_WIT_TX_SESS == e || (List.range 8).any (fun w => s.on (RDC.WM_CFG_EN w) && s.get (RDC.WM_CFG_TX_SESS w) == e)

/-- Producer entry `e` may send in the present state (R300); a new active member starts at its first cycle boundary (R365). -/
def State.maySend (s : State) (e : Nat) : Bool :=
  s.on (SSE.SESS_CFG_EN e) && s.on (SSE.SESS_CFG_DIR e) && s.enabled 0x06 &&
    ((s.sends && (s.role != roleACTIVE || s.rdc.drove)) || (s.isRdcSess e && (s.mstate == stRUN || s.mstate == stSAFE)))

/-- The payload of a data session: the value words of its slots as consumers read them, the last cut to length, and
whether a source slot is not VALID (R301). -/
def State.sessPayload (s : State) (e : Nat) (view : Nat → SigSlot) : List Byte × Bool :=
  let base := s.get (SSE.SESS_SLOT_SLOT_BASE e)
  let l := (List.range (s.sessWords e)).map (fun i => view ((base + i) % 8192))
  ((l.flatMap (fun r => natLE 4 r.value.toNat)).take (s.sessLen e), l.any (fun r => !tVALID r.tag))

/-- Word 0 of the CAN frames of entry `e` (R299, R332). -/
def State.sscCanId (s : State) (e : Nat) : Word :=
  if s.on (SSE.SESS_CANID_EXT e) then BitVec.ofNat 32 (s.get (SSE.SESS_CANID_ID e) + 2 ^ 29)
  else BitVec.ofNat 32 (s.get (SSE.SESS_CANID_ID e) % 2048 * 2 ^ 18)

/-- Hand one frame to each link of a list; `id` is frame word 0 where the link is a CAN controller. -/
def State.emitAll (s : State) (f : List Byte) (id : Word) : List Link → State
  | [] => s
  | .eth p :: t => (s.ethQueue p f).emitAll f id t
  | .can n :: t => (s.canQueue n id (f ++ List.replicate (canFdLen f.length - f.length) 0#8)).emitAll f id t
  | l :: t => ({ s with sent := s.sent ++ [(l, f)] }).emitAll f id t

/-- Send one frame of entry `e` with the given payload (R300): SEQ counts from 1, each path carries the frame once. On
CAN the frame is padded to a CAN FD length (R299). -/
def State.sscSend (s : State) (e : Nat) (payload : List Byte) (safeData : Bool) : State :=
  if !s.maySend e then s
  else
    let se := s.sessOf e
    let fresh := !se.sending
    let s := if fresh then s.setSess e { se with sending := true, startAt := s.mono } else s
    let seq := if fresh then 1 else nextSeq (s.get (SSE.SESS_SEQ e))
    let f := s.sscFrame e seq safeData payload
    let s := (s.put (SSE.SESS_SEQ e) seq).put (SSE.SESS_STAT_STATE e) 1
    let s := s.setSess e { s.sessOf e with lastSend := s.mono }
    s.emitAll f (s.sscCanId e) (s.sessLinks e)

/-! ### Consuming -/

/-- The slots of consumer `e` become produced by class 3, instance `e`, and take the words `l` as one group. -/
def State.postWords (s : State) (n cls id : Nat) (valid subst : Bool) (age : Nat) : List Word → State
  | [] => s
  | w :: t => (s.post (n % 8192) cls id w valid false subst false age).postWords (n + 1) cls id valid subst age t

/-- Post the fail-safe values of consumer `e` with VALID 0 and SUBST 1 (R305). -/
def State.postFailSafe (s : State) (e : Nat) : State :=
  s.postWords (s.get (SSE.SESS_SLOT_SLOT_BASE e)) 3 e false true 0
    ((List.range (s.sessWords e)).map (fun i => BitVec.ofNat 32 (s.get (SSE.FAILSAFE e i))))

/-- The counter of a failure cause (R305). -/
def causeCnt (e cause : Nat) : Option Fld :=
  if cause = 1 then some (SSE.SESS_CNT0_CHECK_ERR_CNT e) else if cause = 2 then some (SSE.SESS_CNT0_SEQ_ERR_CNT e)
  else if cause = 3 then some (SSE.SESS_CNT0_AGE_ERR_CNT e) else if cause = 4 then some (SSE.SESS_CNT1_WDOG_CNT e)
  else if cause = 5 then some (SSE.SESS_CNT0_FORMAT_ERR_CNT e) else none

/-- A failure of consumer `e` (R305). In RUN it enters SAFE and posts its fail-safe values; in SAFE it sets GOOD_RUN to 0
and is counted. -/
def State.sscFail (s : State) (e cause : Nat) : State :=
  let s := match causeCnt e cause with | some f => s.bump f | none => s
  if s.get (SSE.SESS_STAT_STATE e) = 3 then s.put (SSE.SESS_STAT_GOOD_RUN e) 0
  else
    let s := ((s.put (SSE.SESS_STAT_STATE e) 3).put (SSE.SESS_STAT_LAST_CAUSE e) cause).put (SSE.SESS_STAT_GOOD_RUN e) 0
    (s.bump (SSE.SESS_CNT1_SAFE_CNT e)).postFailSafe e

/-- Little-endian words of a payload, the last filled with zeros. -/
def payloadWords (l : List Byte) : Nat → List Word
  | 0 => []
  | n + 1 => BitVec.ofNat 32 (leNat (l.take 4)) :: payloadWords (l.drop 4) n

/-- Deliver an accepted frame of consumer `e` (R303). -/
def State.sscDeliver (s : State) (e : Nat) (payload : List Byte) (safeData : Bool) (age : Int) : State :=
  if safeData then s.postFailSafe e
  else s.postWords (s.get (SSE.SESS_SLOT_SLOT_BASE e)) 3 e true false ((age.toNat + 99999) / 100000)
    (payloadWords payload (s.sessWords e))

/-- What the checks of R302 find for an arriving frame. -/
inductive SscVerdict
  | fail (cause : Nat)
  | duplicate
  | roleDiscard
  | pass (switch : Bool)
deriving DecidableEq, Repr

/-- The sequence number of a frame. -/
def frameSeq (f : List Byte) : Nat := leNat ((f.drop 2).take 4)

/-- The resolution of the stamps of the port that carries session `e` (R79). -/
def State.sessRes (s : State) (e : Nat) : Nat := if 11 ≤ s.get (SSE.SESS_CFG_TRANSPORT e) then 40 else s.ethRes

/-- The age of a frame at arrival stamp `at`, signed (R302). -/
def frameAge (f : List Byte) (arr : Nat) : Int := sx 32 ((arr + 2 ^ 32 - leNat ((f.drop 6).take 4)) % 2 ^ 32)

/-- The frame's age is within −100 µs and MAX_AGE (R302). -/
def State.ageOk (s : State) (e : Nat) (f : List Byte) (arr : Nat) : Bool :=
  decide (-100000 ≤ frameAge f arr) && decide (frameAge f arr ≤ (s.sessMaxAge e : Int) * 100000)

/-- `q` follows or repeats the last accepted sequence number `last`: the duplicate window is `last - 3` to `last`,
counted along the sequence, which skips 0 (R302). -/
def seqDup (last q : Nat) : Bool := decide ((last + 2 ^ 32 - 1 - q) % (2 ^ 32 - 1) ≤ 3)

/-- The format check, step 1 of R302. -/
def State.sscFormat (s : State) (e : Nat) (f : List Byte) : Bool :=
  let flags := ((f.drop 1).headD 0#8).toNat
  f.length == s.sessLen e + 14 && (f.headD 0#8).toNat / 64 == 1 && decide (flags < 32) && flags / 4 % 4 != 3

/-- The check value of a frame holds under identity A (false) or B (true) of entry `e` (R298). -/
def State.checkOk (s : State) (e : Nat) (b : Bool) (f : List Byte) : Bool :=
  let body := f.take (f.length - 4)
  let lo := if b then s.get (SSE.PEER_B_LO e) else s.get (SSE.PEER_A_LO e)
  let hi := if b then s.get (SSE.PEER_B_HI e) else s.get (SSE.PEER_A_HI e)
  leNat (f.drop (f.length - 4)) == (s.sscCheck e lo hi body).toNat

/-- Steps 1 to 4 of R302, in order. In SAFE step 3 is left out for the frame that resynchronises (R305). -/
def State.sscJudge (s : State) (e : Nat) (f : List Byte) (arr : Nat) : SscVerdict :=
  let inB := s.on (SSE.SESS_STAT_IDENT_B e)
  let flags := ((f.drop 1).headD 0#8).toNat
  let last := s.get (SSE.SESS_SEQ e)
  let resync := s.get (SSE.SESS_STAT_STATE e) == 3 && s.get (SSE.SESS_STAT_GOOD_RUN e) == 0
  if !s.sscFormat e f then .fail 5
  else if s.checkOk e inB f then
    if !resync && frameSeq f != nextSeq last then
      (if seqDup last (frameSeq f) then .duplicate else .fail 2)
    else if s.ageOk e f arr then .pass false else .fail 3
  else if (inB || s.on (SSE.SESS_CFG_IDENT_B_EN e)) && s.checkOk e (!inB) f then
    if flags / 4 % 4 == 1 && flags / 16 == 1 then (if s.ageOk e f arr then .pass true else .fail 3)
    else .roleDiscard
  else .fail 1

/-- A consumer takes an arriving frame (R302, R303, R305). The truth value tells whether its payload was delivered. -/
def State.sscReceive (s : State) (e : Nat) (f : List Byte) (arr : Nat) : State × Bool :=
  if !(s.on (SSE.SESS_CFG_EN e) && s.get (SSE.SESS_STAT_STATE e) ≥ 2) then (s.bump SSE.UNKNOWN_CNT, false)
  else
    let expired := decide ((s.sessOf e).wdogAt ≤ s.mono)
    let s := if s.get (SSE.SESS_STAT_STATE e) = 2 && expired then s.sscFail e 4 else s
    match s.sscJudge e f arr with
    | .fail c => (s.sscFail e c, false)
    | .duplicate => (s.bump (SSE.SESS_CNT2_DUP_CNT e), false)
    | .roleDiscard => (s.bump (SSE.SESS_CNT1_ROLE_DISC_CNT e), false)
    | .pass sw =>
      let flags := ((f.drop 1).headD 0#8).toNat
      let age := frameAge f arr
      let payload := (f.drop 10).take (s.sessLen e)
      let s := if sw then (s.putB (SSE.SESS_STAT_IDENT_B e) (!s.on (SSE.SESS_STAT_IDENT_B e))).bump
        (SSE.SESS_CNT1_SWITCH_CNT e) else s
      let s := s.put (SSE.SESS_SEQ e) (frameSeq f)
      let s := ((s.putB (SSE.SESS_STAT_PEER_SAFE e) (flags % 2 == 1)).putB (SSE.SESS_STAT_PEER_FORCED e)
        (flags / 2 % 2 == 1)).put (SSE.SESS_STAT_PEER_ROLE e) (flags / 4 % 4)
      let s := s.putSat (SSE.SESS_AGE_LAST_US e) (age.toNat / 1000)
      let s := s.setSess e { s.sessOf e with wdogAt := s.mono + ms (s.sessWdog e) }
      if s.get (SSE.SESS_STAT_STATE e) = 2 then (s.sscDeliver e payload (flags % 2 == 1) age, true)
      else
        let s := s.bump (SSE.SESS_STAT_GOOD_RUN e)
        if s.sessMode e = 0 && decide (s.sessRestartN e ≤ s.get (SSE.SESS_STAT_GOOD_RUN e)) then
          ((s.put (SSE.SESS_STAT_STATE e) 2).sscDeliver e payload (flags % 2 == 1) age, true)
        else (s, false)

/-- The entry an arriving frame names in its session byte. -/
def frameEntry (f : List Byte) : Nat := (f.headD 0#8).toNat % 64

/-- The abort of entry `e` (R307). -/
def State.sscAbort (s : State) (e : Nat) : State :=
  if s.get (SSE.SESS_STAT_STATE e) ≥ 2 then s.sscFail e 6 else s

end Sys2Proof.Machine
end

