-- ==== Sys2Proof/Machine/GntOps.lean ====
section
/-! DEFINITION. The Gauntlet's tables and parameter-set checks (R279 to R282), the processor permissive vector, the vote
producer and the votes in force (R262 to R264, R272, R273), and commissioning (R286, R287). -/

namespace Sys2Proof.Machine

/-! ### The tables -/

/-- Byte `k` of a parameter set. -/
def setByteAt (l : List Byte) (k : Nat) : Nat := (l.getD k 0#8).toNat

/-- An `n`-byte little-endian number at offset `k` of a parameter set. -/
def setLEAt (l : List Byte) (k n : Nat) : Nat := leNat ((l.drop k).take n)

/-- SAFETY_SEQ of a set. -/
def psSeq (l : List Byte) : Nat := setByteAt l 7 % 4
/-- CHANNEL of safety input `i`. -/
def psInCh (l : List Byte) (i : Nat) : Nat := setByteAt l (0x20 + 8 * i)
/-- FLAGS of safety input `i`. -/
def psInFlags (l : List Byte) (i : Nat) : Nat := setByteAt l (0x21 + 8 * i)
/-- Input `i` is used. -/
def psInUsed (l : List Byte) (i : Nat) : Bool := decide (i < 128) && decide (0x420 ≤ l.length) && psInCh l i != 0xFF
/-- STEST of input `i`. -/
def psStest (l : List Byte) (i : Nat) : Bool := (psInFlags l i).testBit 0
/-- RESET_IN of input `i`. -/
def psIsReset (l : List Byte) (i : Nat) : Bool := (psInFlags l i).testBit 1
/-- TYPE of input `i`. -/
def psInType (l : List Byte) (i : Nat) : Nat := psInFlags l i / 4 % 4
/-- XCHK_EN of input `i`. -/
def psXchk (l : List Byte) (i : Nat) : Bool := (psInFlags l i).testBit 4
/-- FILT_N of input `i`. -/
def psFiltN (l : List Byte) (i : Nat) : Nat := setByteAt l (0x22 + 8 * i)
/-- SAMPLE of input `i`. -/
def psSample (l : List Byte) (i : Nat) : Nat := setByteAt l (0x23 + 8 * i)
/-- SRC_CH of input `i`. -/
def psSrcCh (l : List Byte) (i : Nat) : Nat := setByteAt l (0x24 + 8 * i)
/-- CHANNEL of safety output `j`. -/
def psOutCh (l : List Byte) (j : Nat) : Nat := setByteAt l (0x420 + 16 * j)
/-- Output `j` is used. -/
def psOutUsed (l : List Byte) (j : Nat) : Bool := decide (j < 64) && decide (0x820 ≤ l.length) && psOutCh l j != 0xFF
/-- LATCH_EN of output `j`. -/
def psLatch (l : List Byte) (j : Nat) : Bool := (setByteAt l (0x421 + 16 * j)).testBit 0
/-- RESET_IN of output `j`. -/
def psResetIn (l : List Byte) (j : Nat) : Nat := setByteAt l (0x422 + 16 * j)
/-- PULSE_INT of output `j`. -/
def psPulseInt (l : List Byte) (j : Nat) : Nat := setByteAt l (0x423 + 16 * j)
/-- PULSE_W of output `j`. -/
def psPulseW (l : List Byte) (j : Nat) : Nat := setByteAt l (0x424 + 16 * j)
/-- GROUPS of output `j`. -/
def psGroups (l : List Byte) (j : Nat) : Nat := setLEAt l (0x426 + 16 * j) 2
/-- DISC_MS of output `j`. -/
def psDisc (l : List Byte) (j : Nat) : Nat := setLEAt l (0x428 + 16 * j) 2
/-- The mode of group `g` of output `j` (R269). -/
def psMode (l : List Byte) (j g : Nat) : Nat := psGroups l j / 2 ^ (4 * g) % 4
/-- Group `g` of output `j` is used. -/
def psGroupUsed (l : List Byte) (j g : Nat) : Bool := (psGroups l j).testBit (4 * g + 2)
/-- Cell (`i`, `j`) of the trip matrix. -/
def psCell (l : List Byte) (i j : Nat) : Nat :=
  let b := setByteAt l (0x820 + 32 * i + j / 2)
  if j % 2 = 0 then b % 16 else b / 16
/-- The members of group `g` of output `j`. -/
def psMembers (l : List Byte) (j g : Nat) : List Nat := (List.range 128).filter (fun i => psCell l i j == g + 1)

/-- The values of CH_FILT.SAMPLE that R194 permits, in 10 µs. -/
def sampleOk (n : Nat) : Bool := n == 1 || n == 2 || n == 5 || (n % 10 == 0 && decide (10 ≤ n ∧ n ≤ 100))

/-- The channels a set lists, unused entries left out. -/
def psChannels (l : List Byte) : List Nat :=
  (((List.range 128).map (psInCh l)) ++ ((List.range 64).map (psOutCh l))).filter (fun c => c != 0xFF)

/-- Check 3 of R281 for one used input. -/
def psInOk (l : List Byte) (i : Nat) : Bool :=
  let ex := decide (192 ≤ psInCh l i)
  let t := psInType l i
  t != 0 && !(t == 3 && !ex) && !(psXchk l i && ex) && psFiltN l i != 0 && sampleOk (psSample l i) &&
    (decide (psSrcCh l i < 16) || (psSrcCh l i == 0xFF && !psXchk l i))

/-- Check 3 of R281: the reserved fields are 0. -/
def psReservedOk (l : List Byte) : Bool :=
  ((List.range 17).all (fun k => setByteAt l (15 + k) == 0)) &&
  ((List.range 128).all (fun i => setLEAt l (0x25 + 8 * i) 3 == 0 && decide (psInFlags l i < 32))) &&
  ((List.range 64).all (fun j => setByteAt l (0x425 + 16 * j) == 0 && setLEAt l (0x42A + 16 * j) 6 == 0 &&
    decide (setByteAt l (0x421 + 16 * j) < 2) && (List.range 4).all (fun g => !(psGroups l j).testBit (4 * g + 3))))

/-- Check 3 of R281. -/
def psCheck3 (l : List Byte) : Bool :=
  (psChannels l).Nodup &&
  ((List.range 128).all (fun i => !psInUsed l i || psInOk l i)) &&
  ((List.range 64).all (fun j => !psOutUsed l j || (decide (1 ≤ psPulseInt l j ∧ psPulseInt l j ≤ 100) &&
    decide (20 ≤ psPulseW l j ∧ psPulseW l j ≤ 80)))) && psReservedOk l

/-- The member counts of R269. -/
def membersOk (mode n : Nat) : Bool :=
  if mode = 0 then decide (1 ≤ n ∧ n ≤ 128) else if mode = 3 then n == 3 else n == 2

/-- Check 4 of R281. -/
def psCheck4 (l : List Byte) : Bool :=
  (List.range 64).all (fun j =>
    (List.range 128).all (fun i => psCell l i j == 0 || (decide (psCell l i j ≤ 4) && psGroupUsed l j (psCell l i j - 1))) &&
    (List.range 4).all (fun g => !psGroupUsed l j g || membersOk (psMode l j g) (psMembers l j g).length))

/-- Check 5 of R281. -/
def psCheck5 (l : List Byte) : Bool :=
  (List.range 64).all (fun j => !psOutUsed l j || psResetIn l j == 0xFF ||
    (decide (psResetIn l j < 128) && psIsReset l (psResetIn l j))) &&
  (List.range 128).all (fun i => !psIsReset l i || (List.range 64).all (fun j => psCell l i j == 0))

/-- The signature of a set (R282). -/
def psSig (l : List Byte) : BitVec 32 := crc32c (l.take 0x1820)

/-- The first failed check of R281, in the order 2, 1, 3, 4, 5, 6; 0 for none. -/
def State.psetErr (s : State) (l : List Byte) : Nat :=
  let a := setByteAt l 12
  let b := setByteAt l 13
  let gr := setByteAt l 14
  if l.length ≠ 0x1824 ∨ setLEAt l 0 4 ≠ 0x53505331 ∨ setLEAt l 4 2 ≠ 1 ∨ setLEAt l 8 4 ≠ 0x1824 then 2
  else if setLEAt l 0x1820 4 ≠ (psSig l).toNat then 1
  else if !psCheck3 l then 3
  else if !psCheck4 l then 4
  else if !psCheck5 l then 5
  else if 3 < setByteAt l 7 ∨ (s.get SYS.BOOT_CFG_SPLIT).testBit (psSeq l) ∨ a = 0 ∨ 63 < a ∨ a = b ∨ 63 < b ∨
    gr = 0 ∨ 100 < gr then 6
  else 0

/-! ### The vote producer (R262 to R264) -/

/-- SAFETY_SEQ of the loaded tables. -/
def State.safetySeq (s : State) : Nat := s.get GNT.SAFETY_CFG_SAFETY_SEQ

/-- Bit `j` of the processor permissive vector (R262, R263); the tasks of a pair whose lock is broken vote 0 (R254). -/
def State.pvBit (s : State) (j : Nat) : Bool :=
  let l := s.gnt.tab
  let c := psOutCh l j
  let n := s.get (FB.CH_SLOT_SLOT (c / 16) (c % 16))
  let r := s.slotRaw n
  let q := s.safetySeq
  let t := tID r.tag % 16
  psOutUsed l j && tCLASS r.tag == 6 && tID r.tag / 16 == q && (s.imgTask q t).safety && tVALID r.tag &&
    r.value.getLsbD 0 && !s.gnt.zeroTasks.contains t && !s.on (SCP.PAIR_STAT_LOCK_BROKEN q)

/-- A 64-bit vector from its bits. -/
def vec64 (f : Nat → Bool) : BitVec 64 := BitVec.ofNat 64 (((List.range 64).map (fun j => b2n (f j) * 2 ^ j)).sum)

/-- The permissive vector (R263). -/
def State.permVec (s : State) : BitVec 64 := vec64 s.pvBit

/-- The role flag shown as a source: SINGLE or ACTIVE. -/
def roleIsSource (r : Nat) : Bool := r == roleSINGLE || r == roleACTIVE

/-- PV from the votes of the sources (R272): the only source's vector, or the AND of both. -/
def Gnt.sourceVec (g : Gnt) : Option (BitVec 64) :=
  if g.voteA.src && g.voteB.src then some (g.voteA.vec &&& g.voteB.vec)
  else if g.voteA.src then some g.voteA.vec else if g.voteB.src then some g.voteB.vec else none

/-- Set a 64-bit value held in a low and a high word from a vector. -/
def State.putVec (s : State) (lo hi : Fld) (v : BitVec 64) : State := s.put64 lo hi v.toNat

/-- An accepted vote frame of entry `e` (R272, R273): the session's last vector and role are kept, and PV follows if the
session is a source. -/
def State.voteAccept (s : State) (e : Nat) (v : BitVec 64) (role : Nat) : State :=
  let g := s.gnt
  let isA := decide (e ≠ 0) && e == s.get GNT.SAFETY_CFG_VOTE_SESS_A
  let isB := decide (e ≠ 0) && e == s.get GNT.SAFETY_CFG_VOTE_SESS_B
  if !(isA || isB) || g.stopped then s
  else
    let w : Vote := ⟨v, some s.mono, roleIsSource role⟩
    let g := if isA then { g with voteA := w } else { g with voteB := w }
    let s := { s with gnt := g }
    let s := if isA then (s.put GNT.VOTE_STAT_A_OK 1).putB GNT.VOTE_STAT_A_ACTIVE w.src
             else (s.put GNT.VOTE_STAT_B_OK 1).putB GNT.VOTE_STAT_B_ACTIVE w.src
    if w.src then
      match g.sourceVec with
      | none => s
      | some pv =>
        let s := (s.putVec GNT.PV_LO GNT.PV_HI pv).put GNT.VOTE_STAT_HOLDING 0
        { s.put GNT.VOTE_STAT_EXPIRED 0 with gnt := { g with lastVote := some s.mono } }
    else s

/-- A session whose last accepted vote frame is 2 ms old no longer delivers (R273): its OK bit clears. -/
def State.voteStale (s : State) : State :=
  let old (v : Vote) : Bool := match v.arr with | some t => decide (t + ms 2 ≤ s.mono) | none => true
  let s := if old s.gnt.voteA then s.put GNT.VOTE_STAT_A_OK 0 else s
  if old s.gnt.voteB then s.put GNT.VOTE_STAT_B_OK 0 else s

/-- The vote is lost (R273): PV keeps the last vector and HOLDING is set. -/
def State.voteHold (s : State) : State :=
  if s.on GNT.VOTE_STAT_HOLDING || s.on GNT.VOTE_STAT_EXPIRED || s.gnt.lastVote.isNone then s
  else ((s.put GNT.VOTE_STAT_HOLDING 1).bump GNT.GNT_CNT0_VOTE_LOSS_CNT).voteStale

/-- Entry `e` has entered SAFE: its votes no longer arrive (R273). -/
def State.voteSafe (s : State) (e : Nat) : State :=
  let isA := decide (e ≠ 0) && e == s.get GNT.SAFETY_CFG_VOTE_SESS_A
  let isB := decide (e ≠ 0) && e == s.get GNT.SAFETY_CFG_VOTE_SESS_B
  let s := if isA then s.put GNT.VOTE_STAT_A_OK 0 else s
  let s := if isB then s.put GNT.VOTE_STAT_B_OK 0 else s
  let g := s.gnt
  if (isA && g.voteA.src && !(g.voteB.src && s.on GNT.VOTE_STAT_B_OK)) ||
     (isB && g.voteB.src && !(g.voteA.src && s.on GNT.VOTE_STAT_A_OK)) then s.voteHold else s

/-- The loop-back of a vote frame of producer entry `e` to its own consumer checks (R301): started in SAFE, it leaves
SAFE at RESTART_N good frames, and its watchdog is that of a vote session. -/
def State.voteLoop (s : State) (e : Nat) (v : BitVec 64) : State :=
  if !s.on (SSE.SESS_CFG_LOOPBACK e) then s
  else
    let se := s.sessOf e
    let late := !se.lbSafe && decide (se.lbWdog ≤ s.mono)
    let se := if late then { se with lbSafe := true, lbGood := 0 } else se
    let se := { se with lbSeq := s.get (SSE.SESS_SEQ e), lbWdog := s.mono + ms (s.sessWdog e) }
    if se.lbSafe && decide (se.lbGood + 1 < s.sessRestartN e) then s.setSess e { se with lbGood := se.lbGood + 1 }
    else (s.setSess e { se with lbSafe := false }).voteAccept e v s.role

/-- Send the last vector on every vote producer entry in `l`. -/
def State.voteSendOn (s : State) (v : BitVec 64) : List Nat → State
  | [] => s
  | e :: t =>
    let sends := s.maySend e
    let s := s.sscSend e (natLE 8 v.toNat) false
    (if sends then s.voteLoop e v else s).voteSendOn v t

/-- The vote producer entries. -/
def State.voteEntries (s : State) : List Nat :=
  (List.range 64).filter (fun e => e != 0 && s.isVote e && s.on (SSE.SESS_CFG_DIR e) && s.on (SSE.SESS_CFG_EN e))

/-- The vote producer sends the vector as it stands (R264). -/
def State.voteSend (s : State) : State :=
  let v := s.permVec
  let s := s.voteSendOn v s.voteEntries
  { s with gnt := { s.gnt with vec := v, sentAt := s.mono } }

/-- The vote producer repeats the last vector (R264). -/
def State.voteRepeat (s : State) : State :=
  let s := s.voteSendOn s.gnt.vec s.voteEntries
  { s with gnt := { s.gnt with sentAt := s.mono } }

/-- A fault of safety task `t` of sequencer `q` (R264): its bits go to 0 until the next restart, and a frame is sent. -/
def State.voteFault (s : State) (q t : Nat) : State :=
  if q = s.safetySeq ∧ ¬ s.gnt.tab = [] then
    ({ s with gnt := { s.gnt with zeroTasks := if s.gnt.zeroTasks.contains t then s.gnt.zeroTasks
                                                else s.gnt.zeroTasks ++ [t] } }).voteSend
  else s

/-! ### Commissioning (R286, R287) -/

/-- COMPAT as latched at the entry into BOOT. -/
def State.compat (s : State) : Bool := s.bit SYS.SEAL_SW_MODE 0

/-- Evaluate SEAL_MISMATCH (R287). -/
def State.evalSeal (s : State) : State :=
  s.putB GNT.GNT_STAT_SEAL_MISMATCH (s.compat && s.on GNT.GNT_STAT_PSET_VALID &&
    s.get SYS.SEAL_SW_SAFETY_ADDR != setByteAt s.gnt.stored 6)

/-- Evaluate COMMISSIONED and SAFETY_UNCOMMISSIONED (R286); with no set stored the commissioned signature is absent (R60). -/
def State.evalCommissioned (s : State) : State :=
  let s := s.evalSeal
  let eq := s.get GNT.PSET_SIG == s.get GNT.COMM_SIG
  let s := s.putB GNT.GNT_STAT_COMMISSIONED eq
  s.putB SYS.MODULE_STATE_SAFETY_UNCOMMISSIONED
    (!(eq && !s.gnt.stored.isEmpty && !s.on GNT.GNT_STAT_SEAL_MISMATCH && !(s.compat && s.on GNT.GNT_STAT_SEAL_CHANGED)))

end Sys2Proof.Machine
end

