-- ==== Sys2Proof/Machine/BankOps.lean ====
section
/-! DEFINITION. The field banks and their digital channels (R186 to R213): staging, application, hold, release, timed-safe
values, supply faults, filters, test pulses, trip words and the posts of input frames. -/

namespace Sys2Proof.Machine

/-- Channel `ch` beyond its registers. -/
def State.chan (s : State) (ch : Nat) : Chan := mapGet (fun _ => Chan.blank) s.chans ch

/-- Set channel `ch`. -/
def State.setChan (s : State) (ch : Nat) (v : Chan) : State :=
  { s with chans := mapSet (fun _ => Chan.blank) s.chans ch v }

/-- Bank `b` beyond its registers. -/
def State.bank (s : State) (b : Nat) : Bank := mapGet (fun _ => Bank.blank) s.banks b

/-- Set bank `b`. -/
def State.setBank (s : State) (b : Nat) (v : Bank) : State :=
  { s with banks := mapSet (fun _ => Bank.blank) s.banks b v }

/-- Bank of a channel. -/
def bk (ch : Nat) : Nat := ch / 16
/-- Local index of a channel. -/
def li (ch : Nat) : Nat := ch % 16

/-- CH_CFG.EN. -/
def State.chEn (s : State) (ch : Nat) : Bool := s.on (FB.CH_CFG_EN (bk ch) (li ch))
/-- CH_CFG.TYPE. -/
def State.chType (s : State) (ch : Nat) : Nat := s.get (FB.CH_CFG_TYPE (bk ch) (li ch))
/-- CH_CFG.SAFETY. -/
def State.chSafety (s : State) (ch : Nat) : Bool := s.on (FB.CH_CFG_SAFETY (bk ch) (li ch))
/-- CH_SLOT. -/
def State.chSlot (s : State) (ch : Nat) : Nat := s.get (FB.CH_SLOT_SLOT (bk ch) (li ch))
/-- CH_STAT.OUT_STATE. -/
def State.outSt (s : State) (ch : Nat) : Nat := s.get (FB.CH_STAT_OUT_STATE (bk ch) (li ch))

/-- A digital input of any kind. -/
def isDI (t : Nat) : Bool := t == 1 || t == 2 || t == 3
/-- An analogue output. -/
def isAO (t : Nat) : Bool := t == 6 || t == 7
/-- An output channel with a bound slot. -/
def isOut (t : Nat) : Bool := t == 4 || t == 6 || t == 7

/-- The channels of bank `b`. -/
def bankChans (b : Nat) : List Nat := (List.range 16).map (fun i => 16 * b + i)

/-- The bank electronics work: the module is not in POWER_ON and the bank has its logic-side supply (R189). -/
def State.bankLive (s : State) (b : Nat) : Bool := s.mstate != stPOWER_ON && (s.bank b).supply

/-- A field-supply fault is present (R188). -/
def State.fvFault (s : State) (b : Nat) : Bool := s.on (FB.BANK_STAT_FV_LOW b) || s.on (FB.BANK_STAT_FV_HIGH b)

/-- Outputs of bank `b` may carry energy: supply, no fault hold, page enabled (R188, R189, R211). -/
def State.canDrive (s : State) (b : Nat) : Bool :=
  s.bankLive b && !(s.bank b).fvHold && !s.fvFault b && s.enabled (0x20 + b)

/-- The 4–20 mA value of a current in nA under FMT (R214): exact for FMT 1; for FMT 0 the quotient by 16 mA is not
always whole and the manual gives no rounding, so its last bit is then a free value. -/
def State.anValue (s : State) (fmt : Nat) (nA : Int) : State × Word :=
  if fmt = 1 then (s, BitVec.ofInt 32 nA)
  else
    let n := (nA - 4000000) * 2 ^ 30
    let d : Int := 16000000
    if n % d = 0 then (s, BitVec.ofInt 32 (n / d))
    else let (s, r) := s.free; (s, BitVec.ofInt 32 (n / d + (if r % 2 = 1 then 1 else 0)))

/-- The current in nA that a slot value commands under FMT (R214), rounded down to whole nA where it falls between. -/
def anCommand (fmt : Nat) (v : Word) : Int :=
  if fmt = 1 then v.toInt else 4000000 + v.toInt * 16000000 / 2 ^ 30

/-! ### Switching outputs -/

/-- CH_STAT.FAULT is the OR of bits [11:6] (R213). -/
def State.chFault (s : State) (ch : Nat) : State :=
  let w := s.rd (FB.CH_STAT_VALUE (bk ch) (li ch)).key
  s.putB (FB.CH_STAT_FAULT (bk ch) (li ch)) (bits w 6 6 != 0)

/-- A de-energise reaches channel `ch`: a pulse in progress is killed (R201). -/
def State.killPulse (s : State) (ch : Nat) : State :=
  let c := s.chan ch
  match c.pulse with
  | none => s
  | some p => s.setChan ch { c with pulse := some { p with killed := true } }

/-- The channel is energised: on, driven, held or timed-safe, not folded back, trip element closed, no pulse open. -/
def State.energised (s : State) (ch : Nat) : Bool :=
  s.canDrive (bk ch) && s.chEn ch &&
  (if s.chType ch = 8 then true
   else s.outSt ch != 3 && (s.chan ch).applied != 0 && !s.on (FB.CH_STAT_SHORT (bk ch) (li ch)) &&
     (!s.chSafety ch || !s.on (FB.CH_STAT_TRIP (bk ch) (li ch))))

/-- The switch of a DO is closed: energised, and no pulse open. -/
def State.closed (s : State) (ch : Nat) : Bool := s.energised ch && (s.chan ch).pulse.isNone

/-- The timers of a DO follow its switch (R192, R193): since when it is closed, and the checks of its terminal begin anew when it
opens or closes; OPEN_LOAD stands only while it is on with the check enabled. -/
def State.timeDO (s : State) (ch : Nat) : State :=
  let e := s.closed ch
  let c := s.chan ch
  let c := if e == c.onSince.isSome then c else { c with onSince := if e then some s.mono else none, rbSince := none }
  if s.energised ch && s.on (FB.CH_CFG_OPEN_LOAD_EN (bk ch) (li ch)) then s.setChan ch c
  else (s.setChan ch { c with olSince := none }).put (FB.CH_STAT_OPEN_LOAD (bk ch) (li ch)) 0

/-- Show the applied state of a DO: VALUE, and its terminal in RAW as the switching elements leave it. -/
def State.showDO (s : State) (ch : Nat) : State :=
  if s.chType ch = 4 then
    let s := s.timeDO ch
    let s := s.putB (FB.CH_STAT_VALUE (bk ch) (li ch)) (s.outSt ch != 3 && (s.chan ch).applied != 0)
    (s.putB (FB.CH_STAT_RAW (bk ch) (li ch)) (s.closed ch)).chFault ch
  else s

/-- CH_STAT of an analogue channel shows its conditions (R232). -/
def State.anMirror (s : State) (ch : Nat) : State :=
  let b := bk ch
  let i := li ch
  let s := s.putB (FB.CH_STAT_SHORT b i) (s.on (FB.AN_STAT_SUPPLY_LIMIT b i))
  let s := s.putB (FB.CH_STAT_OPEN_LOAD b i) (s.on (FB.AN_STAT_OPEN_LOOP b i))
  let s := s.putB (FB.CH_STAT_READBACK_ERR b i) (s.on (FB.AN_STAT_COMPL_FAULT b i))
  (s.putB (FB.CH_STAT_LINE_FAULT b i) (s.on (FB.AN_STAT_RANGE_LO b i) || s.on (FB.AN_STAT_RANGE_HI b i))).chFault ch

/-- The compliance of an AO ends, and its faults with it (R221). -/
def State.complEnds (s : State) (ch : Nat) : State :=
  let b := bk ch
  let i := li ch
  if isAO (s.chType ch) && (s.chan ch).complSince.isSome then
    let s := (s.put (FB.AN_STAT_COMPLIANCE b i) 0).put (FB.AN_STAT_COMPL_FAULT b i) 0
    ((s.put (FB.AN_STAT_OPEN_LOOP b i) 0).setChan ch { s.chan ch with complSince := none }).anMirror ch
  else s

/-- The conditions shown of channel `ch` begin anew: faults, and with `all` what its last type measured (R232). OUT_STATE, TRIP, the join
state and HART_BUSY are not of them. -/
def State.chClear (s : State) (ch : Nat) (all : Bool) : State :=
  let k := (FB.CH_STAT_VALUE (bk ch) (li ch)).key
  let a := (FB.AN_STAT_COMPLIANCE (bk ch) (li ch)).key
  let s := s.wr k (s.rd k &&& (if all then 0x00001030 else 0xFFFF703F))
  s.wr a (s.rd a &&& 0x00000580)

/-- Channel `ch` starts with nothing measured (R195, R232). -/
def State.chFresh (s : State) (ch : Nat) : State := s.chClear ch true

/-- The own current of AO `ch` in nA at present (R219, R223, R225). -/
def State.ownCurrent (s : State) (ch : Nat) : Int :=
  let c := s.chan ch
  match c.ramp with
  | some (t, i) => if t + ms 1 ≤ s.mono then 0 else i * ((t + ms 1 - s.mono : Nat) : Int) / (ms 1 : Nat)
  | none => c.target

/-- A driven AO regulates (R219, R223): in JOIN the total to the command, its own current being the command less the peer's share within
0 to 22 mA; else its own current. CLAMPED also shows a join share of 0 with the total above the command. -/
def State.regulate (s : State) (ch : Nat) : State :=
  if isAO (s.chType ch) && s.outSt ch == 0 then
    let c := s.chan ch
    let join := s.get (FB.AN_STAT_JOIN (bk ch) (li ch)) == 1
    let own := if join then clampI 0 22000000 (c.applied - (c.total - c.own : Int)) else c.applied
    (s.setChan ch { c with target := own, ramp := none }).putB (FB.AN_STAT_CLAMPED (bk ch) (li ch))
      (c.clip || (join && own == 0 && decide (c.applied < c.total)))
  else s

/-- A RED AO ramps its own current to 0 mA, with supply and FV in range (R225). -/
def State.ramps (s : State) (ch : Nat) : Bool :=
  isAO (s.chType ch) && s.on (FB.AN_CFG_RED (bk ch) (li ch)) && s.outSt ch != 3 && s.bankLive (bk ch) && !s.fvFault (bk ch) &&
    !(s.bank (bk ch)).fvHold

/-- Release output channel `ch` (R206): a DO is off, an AO carries no current; a RED AO ramps to it (R225). -/
def State.releaseCh (s : State) (ch : Nat) : State :=
  let ramp := if s.ramps ch then some (s.mono, s.ownCurrent ch) else none
  let s := s.setChan ch { s.chan ch with applied := 0, holdSince := none, joinSince := none, target := 0, ramp := ramp }
  let s := (s.put (FB.CH_STAT_OUT_STATE (bk ch) (li ch)) 3).put (FB.AN_STAT_JOIN (bk ch) (li ch)) 0
  ((s.killPulse ch).showDO ch).complEnds ch

/-- Enter output hold (R205); a RED AO keeps its own current from here on (R224). -/
def State.holdCh (s : State) (ch : Nat) : State :=
  if s.outSt ch = 0 then
    (s.setChan ch { s.chan ch with holdSince := some s.mono }).put (FB.CH_STAT_OUT_STATE (bk ch) (li ch)) 1
  else s

/-- The join state on being driven out of release (R224). -/
def State.joinEntry (s : State) (ch : Nat) : State :=
  let c := s.chan ch
  if isAO (s.chType ch) && s.on (FB.AN_CFG_RED (bk ch) (li ch)) && s.outSt ch = 3 then
    s.put (FB.AN_STAT_JOIN (bk ch) (li ch)) (if c.own + 1000000 ≤ c.total then 1 else 2)
  else s

/-- Apply a value to an output: DO from bit 0, AO clamped to the limits of the stage cutoff (R219, R231). -/
def State.applyValue (s : State) (ch : Nat) (v : Word) : State :=
  let c := s.chan ch
  if s.chType ch = 4 then
    let off := !v.getLsbD 0
    let s := s.setChan ch { c with applied := if off then 0 else 1, holdSince := none }
    if off then s.killPulse ch else s
  else
    let want := anCommand (s.get (FB.AN_CFG_FMT (bk ch) (li ch))) v
    let got := clampI (c.limLo * 1000) (c.limHi * 1000) want
    s.setChan ch { c with applied := got, holdSince := none, clip := got != want }

/-- Drive an output at a tick boundary from a VALID staged value (R16, R205). -/
def State.driveCh (s : State) (ch : Nat) (v : Word) : State :=
  let s := (s.joinEntry ch).applyValue ch v
  ((s.put (FB.CH_STAT_OUT_STATE (bk ch) (li ch)) 0).showDO ch).regulate ch

/-- Apply the timed-safe value (R205); a RED AO ramps to 0 mA (R225). -/
def State.timedSafe (s : State) (ch : Nat) : State :=
  let v := s.get (FB.CH_TS_TS_VALUE (bk ch) (li ch))
  let a : Int := if s.chType ch = 4 then (v % 2 : Nat) else (v * 1000 : Nat)
  let ramp := if a = 0 ∧ s.ramps ch = true then some (s.mono, s.ownCurrent ch) else none
  let s := s.setChan ch { s.chan ch with applied := a, holdSince := none, target := a, ramp := ramp }
  let s := s.put (FB.CH_STAT_OUT_STATE (bk ch) (li ch)) 2
  (if a = 0 then s.killPulse ch else s).showDO ch

/-- The timed-safe timeout of channel `ch` has passed (R205). -/
def State.timedSafeDue (s : State) (ch : Nat) : Bool :=
  s.on (FB.CH_CFG_TIMED_SAFE (bk ch) (li ch)) && s.outSt ch == 1 &&
  (match (s.chan ch).holdSince with
   | none => false
   | some t => decide (t + ms (s.get (FB.CH_TS_TS_TIMEOUT_MS (bk ch) (li ch))) ≤ s.mono))

/-- Every output in `l` is released. -/
def State.releaseAll (s : State) : List Nat → State
  | [] => s
  | ch :: t => (if isOut (s.chType ch) then s.releaseCh ch else s).releaseAll t

/-- The outputs of bank `b` are released. -/
def State.releaseBank (s : State) (b : Nat) : State := (s.releaseAll (bankChans b)).put (FB.BANK_STAT_RELEASED b) 1

/-- Release is due on a RELEASE frame (R202): RELEASE_MS after the last valid DRIVE frame, or at once without one. -/
def State.releaseDue (s : State) (b : Nat) : Bool :=
  match (s.bank b).lastDrive with
  | none => true
  | some t => decide (t + ms (s.get (FB.BANK_CFG_RELEASE_MS b)) ≤ s.mono)

/-- The mode the bank acts on (R202, R204): 0 DRIVE, 1 HOLD, 2 RELEASE. -/
def State.actMode (s : State) (b : Nat) : Nat :=
  if s.on (FB.BANK_STAT_LOGIC_SILENT b) then (if s.on (FB.BANK_CFG_STATION b) then 2 else 1)
  else s.get (FB.BANK_STAT_DRIVE_MODE b)

/-- One output channel at a tick boundary in mode `m` (R202, R205). -/
def State.tickOut (s : State) (m ch : Nat) : State :=
  let s := if m = 0 then
      (match (s.chan ch).staged with
       | some v => s.driveCh ch v
       | none => if s.outSt ch = 3 then s else s.holdCh ch)
    else if m = 1 then (if s.outSt ch = 3 then s else s.holdCh ch)
    else s
  if s.timedSafeDue ch then s.timedSafe ch else s

/-- The output channels in `l` at a tick boundary. -/
def State.tickOuts (s : State) (m : Nat) : List Nat → State
  | [] => s
  | ch :: t =>
    let s := if s.chEn ch && isOut (s.chType ch) then s.tickOut m ch
             else if s.outSt ch != 3 then s.releaseCh ch else s
    s.tickOuts m t

/-- The bank becomes logic silent (R204). -/
def State.silence (s : State) (b : Nat) : State :=
  if s.on (FB.BANK_STAT_LOGIC_SILENT b) || (s.bank b).lastOut.isNone then s
  else ((s.put (FB.BANK_STAT_LOGIC_SILENT b) 1).put (FB.BANK_STAT_LINK_OK b) 0).bump (FB.FRAME_CNT_SILENCE_CNT b)

/-- SILENCE_MS has passed since the last valid output frame (R204). -/
def State.silenceDue (s : State) (b : Nat) : Bool :=
  match (s.bank b).lastOut with
  | none => false
  | some t => decide (t + ms (s.get (FB.BANK_CFG_SILENCE_MS b)) ≤ s.mono)

/-- FV has been within range for 10 ms (R188). -/
def Bank.fvSettled (k : Bank) (now : Nat) : Bool :=
  match k.fvResume with | none => false | some t => decide (t + ms 10 ≤ now)

/-- Show the states of the channels in `l`. -/
def State.showAll (s : State) : List Nat → State
  | [] => s
  | ch :: t => (s.showDO ch).showAll t

/-- The mode of the present tick boundary (R202, R204): none where no valid frame has arrived and the bank is not logic
silent; it then keeps what it applies. -/
def State.tickMode (s : State) (b : Nat) : Option Nat :=
  if s.on (FB.BANK_STAT_LOGIC_SILENT b) then some (s.actMode b) else (s.bank b).frame

/-- A bank applies its staged outputs at a tick boundary (R16, R202 to R206). -/
def State.bankApply (s : State) (b : Nat) : State :=
  let s := if s.silenceDue b then s.silence b else s
  let k := s.bank b
  let s := if k.fvHold && k.fvSettled s.mono && !s.fvFault b then (s.setBank b { k with fvHold := false }).showAll (bankChans b) else s
  let m := s.tickMode b
  let s := if k.frame.isNone then s.put (FB.BANK_STAT_LINK_OK b) 0 else s.setBank b { s.bank b with frame := none }
  let s := if m = some 2 && s.releaseDue b && !s.on (FB.BANK_STAT_RELEASED b) then s.releaseBank b else s
  let s := s.tickOuts (m.getD 2) (bankChans b)
  if m = some 0 && (bankChans b).any (fun ch => s.chEn ch && isOut (s.chType ch) && s.outSt ch != 3) then
    s.put (FB.BANK_STAT_RELEASED b) 0
  else s

/-! ### Staging (R16, R113) -/

/-- Stage output channel `ch` from its bound slot, or from its channel force, with the limits in force (R16, R113, R231). -/
def State.stageCh (s : State) (ch : Nat) : State :=
  let r := s.slotView (s.chSlot ch)
  let f := s.chanForce ch
  let v : Option Word := match f with
    | some f => some (s.forceVal f)
    | none => if tVALID r.tag then some r.value else none
  let s := s.putB (FB.CH_STAT_SRC_INVALID (bk ch) (li ch)) (!tVALID r.tag)
  let s := s.putB (FB.CH_STAT_FORCED (bk ch) (li ch)) f.isSome
  s.setChan ch { s.chan ch with staged := v, limLo := s.get (FB.AN_LIM_LIM_LO (bk ch) (li ch)),
                                limHi := s.get (FB.AN_LIM_LIM_HI (bk ch) (li ch)) }

/-- Stage the enabled output channels in `l`. -/
def State.stageAll (s : State) : List Nat → State
  | [] => s
  | ch :: t => (if s.chEn ch && isOut (s.chType ch) then s.stageCh ch else s).stageAll t

/-- The stage cutoff of the banks in `l`. -/
def State.stageBanks (s : State) : List Nat → State
  | [] => s
  | b :: t => (if s.bankLive b && s.enabled (0x20 + b) then s.stageAll (bankChans b) else s).stageBanks t

/-! ### Digital inputs (R194 to R197) -/

/-- The sample interval of channel `ch` in ns. -/
def State.sampleNs (s : State) (ch : Nat) : Nat := s.get (FB.CH_FILT_SAMPLE (bk ch) (li ch)) * 10000

/-- The DI lies inside the cross-short window of its source (R200). -/
def State.masked (s : State) (ch : Nat) : Bool :=
  let src := 16 * bk ch + s.get (FB.CH_CFG_SRC_CH (bk ch) (li ch))
  s.on (FB.CH_CFG_XCHK_EN (bk ch) (li ch)) && s.chType src == 8 && s.chEn src && decide (s.mono ≤ (s.chan src).maskTo) &&
    (s.chan src).maskTo != 0

/-- A change of the filtered state (R196): stamp of the sample instant `at`, direction, STEP_PAR, count. -/
def State.filtered (s : State) (ch : Nat) (st : Bool) (stamp : Nat) : State :=
  let b := bk ch
  let i := li ch
  let s := (s.putB (FB.CH_STAT_VALUE b i) st).put (FB.CH_EVT_TIME b i) stamp
  ((s.putB (FB.CH_STAT_EVT_DIR b i) st).putB (FB.CH_STAT_EVT_STEP_PAR b i) s.stepPar).bump (FB.CH_CNT_EDGE_CNT b i)

/-- One sample of DI `ch` (R195). -/
def State.diSample (s : State) (ch : Nat) (raw : Bool) : State :=
  let b := bk ch
  let i := li ch
  let n := s.get (FB.CH_FILT_N b i)
  let t := max (s.sampleNs ch) 1
  let k := s.now / t
  let c := s.chan ch
  let s := (s.putB (FB.CH_STAT_RAW b i) raw).setChan ch { c with sampled := true, sampleAt := s.mono }
  let s :=
    if !c.sampled then (s.put (FB.CH_STAT_FILT_CNT b i) (if raw then n else 0)).putB (FB.CH_STAT_VALUE b i) raw
    else if s.masked ch then s
    else
      let cnt := s.get (FB.CH_STAT_FILT_CNT b i)
      let cnt := if raw then min (cnt + 1) n else cnt - 1
      let old := s.on (FB.CH_STAT_VALUE b i)
      let st := if cnt = n then true else if cnt = 0 then false else old
      let s := s.put (FB.CH_STAT_FILT_CNT b i) cnt
      if st != old then s.filtered ch st (k * t) else s
  -- a sample at or before the boundary belongs to the tick's input frame (R196)
  if k * t ≤ s.tku.base.toNat ∨ !c.sampled then s.setChan ch { s.chan ch with cap := s.on (FB.CH_STAT_VALUE b i) } else s

/-- A write to N or SAMPLE reloads the counter (R195). -/
def State.reloadFilt (s : State) (ch : Nat) : State :=
  s.put (FB.CH_STAT_FILT_CNT (bk ch) (li ch)) (if s.on (FB.CH_STAT_VALUE (bk ch) (li ch)) then s.get (FB.CH_FILT_N (bk ch) (li ch)) else 0)

/-- An input channel is invalid for its own reasons: XSHORT, LINE_FAULT and the field supply, from which the inputs of IEC types 1 and 3,
TYPE 1 and 2, are exempt (R188, R190, R197). -/
def State.chInvalid (s : State) (ch : Nat) : Bool :=
  s.on (FB.CH_STAT_XSHORT (bk ch) (li ch)) || s.on (FB.CH_STAT_LINE_FAULT (bk ch) (li ch)) ||
    (s.fvFault (bk ch) && s.chType ch != 1 && s.chType ch != 2)

/-- Capture the filtered states of the DIs in `l` for the tick's input frame (R196). -/
def State.captureAll (s : State) : List Nat → State
  | [] => s
  | ch :: t =>
    (if s.chEn ch && isDI (s.chType ch) then s.setChan ch { s.chan ch with cap := s.on (FB.CH_STAT_VALUE (bk ch) (li ch)) }
     else s).captureAll t

/-! ### Analogue inputs and outputs at a tick boundary (R216, R217, R221, R222) -/

/-- Start, keep or clear the timer of a condition that differs from its flag. -/
def condTimer (since : Option Nat) (differs : Bool) (now : Nat) : Option Nat :=
  if !differs then none else match since with | some t => some t | none => some now

/-- Take a measured current of channel `ch`. -/
def State.measure (s : State) (ch own total : Nat) : State :=
  let b := bk ch
  let i := li ch
  let c := s.chan ch
  let ai := s.chType ch == 5 && s.get (FB.AN_CFG_HART_MODE b i) != 2
  let lo := ai && decide (own < 3600000)
  let op := ai && decide (own < 500000)
  let hi := ai && decide (21000000 < own)
  let total := if s.on (FB.AN_CFG_RED b i) then total else own
  let j := s.get (FB.AN_STAT_JOIN b i)
  let s := s.setChan ch { c with
    own := own, total := total
    joinSince := condTimer c.joinSince (if j = 1 then decide (total < own + 100000) else j == 2 && decide (own + 200000 < total)) s.mono
    loSince := condTimer c.loSince (lo != s.on (FB.AN_STAT_RANGE_LO b i)) s.mono
    openSince := if s.chType ch = 5 then condTimer c.openSince (op != s.on (FB.AN_STAT_OPEN_LOOP b i)) s.mono else c.openSince
    hiSince := condTimer c.hiSince (hi != s.on (FB.AN_STAT_RANGE_HI b i)) s.mono }
  ((s.putSat (FB.AN_MEAS_OWN_UA b i) (own / 1000)).putSat (FB.AN_MEAS_TOTAL_UA b i) (total / 1000)).regulate ch

/-- Take the measured currents of a list. -/
def State.measureAll (s : State) : List FieldSample → State
  | [] => s
  | x :: t => (s.measure x.ch.val x.own.toNat x.total.toNat).measureAll t

/-- VALID and SAT of a conversion (R217). -/
def aiTag (own : Nat) : Bool × Bool :=
  if own < 3600000 ∨ 21000000 < own then (false, false)
  else if own < 3800000 ∨ 20500000 < own then (true, true) else (true, false)

/-- An AI converts if the boundary lies on its interval; a conversion not posted in its tick is lost (R216). -/
def State.convert (s : State) (ch : Nat) : State :=
  let b := bk ch
  let i := li ch
  let n := s.get (FB.AN_INT_INT b i)
  if n = 0 ∨ s.tku.base.toNat / 100000 % n ≠ 0 then s.setChan ch { s.chan ch with conv := none }
  else
    let c := s.chan ch
    let (s, v) := s.anValue (s.get (FB.AN_CFG_FMT b i)) c.own
    let (ok, sat) := aiTag c.own
    let ok := ok && !s.on (FB.AN_STAT_SUPPLY_LIMIT b i) && s.get (FB.AN_CFG_HART_MODE b i) != 2 && !s.fvFault b &&
      !s.on (MPL.RECAL_TRIO_FAIL b)
    let sat := sat && s.get (FB.AN_CFG_HART_MODE b i) != 2
    s.setChan ch { s.chan ch with conv := some (v, ok, sat) }

/-- The AI conversions of the channels in `l`. -/
def State.convertAll (s : State) : List Nat → State
  | [] => s
  | ch :: t => (if s.chEn ch && s.chType ch == 5 then s.convert ch else s).convertAll t

/-- A ramp to 0 mA over 1 ms has ended (R225). -/
def State.endRamps (s : State) : List Nat → State
  | [] => s
  | ch :: t =>
    let c := s.chan ch
    (match c.ramp with
     | some (x, _) => if x + ms 1 ≤ s.mono then s.setChan ch { c with ramp := none } else s
     | none => s).endRamps t

/-! ### Posts of input frames (R22, R196, R203, R222, R25) -/

/-- Post the readback of an AO (R222). -/
def State.postReadback (s : State) (ch : Nat) : State :=
  let b := bk ch
  let i := li ch
  let c := s.chan ch
  let n := s.get (FB.AN_RB_RB_SLOT b i)
  let (s, v) := s.anValue (s.get (FB.AN_CFG_FMT b i)) (if s.on (FB.AN_CFG_RED b i) then c.total else c.own)
  let off := s.outSt ch == 3 || s.fvFault b
  let bad := s.on (FB.AN_STAT_COMPL_FAULT b i) || s.on (FB.AN_STAT_OPEN_LOOP b i)
  s.post n 1 ch v (!off && !bad && !s.on (MPL.RECAL_TRIO_FAIL b)) false false (!off && (bad || s.on (FB.AN_STAT_COMPLIANCE b i))) 0

/-- Post one channel from a valid input frame. A safety input is posted from the trip-line link instead (R25). -/
def State.postCh (s : State) (ch : Nat) : State :=
  let t := s.chType ch
  let c := s.chan ch
  if !s.chEn ch then s
  else if isDI t then
    (if s.chSafety ch then s
     else s.post (s.chSlot ch) 1 ch (if c.cap then 1 else 0) (!s.chInvalid ch && c.sampled) false false false 0)
  else if t = 5 then
    match c.conv with
    | some (v, ok, sat) =>
      (s.post (s.chSlot ch) 1 ch v ok false false sat 0).setChan ch { c with conv := none }
    | none => if s.fvFault (bk ch) && s.isProducer (s.chSlot ch) 1 ch then s.invalidate (s.chSlot ch) else s
  else if isAO t && s.on (FB.AN_CFG_RB_EN (bk ch) (li ch)) then s.postReadback ch
  else s

/-- Post the channels in `l`. -/
def State.postChs (s : State) : List Nat → State
  | [] => s
  | ch :: t => (s.postCh ch).postChs t

/-- Post the diagnostic copy of a bank's trip-line state (R25). -/
def State.postTrip (s : State) (b : Nat) : State :=
  if s.on (FB.TRIP_SLOT_EN b) then
    s.post (s.get (FB.TRIP_SLOT_SLOT b)) 1 (16 * b) (BitVec.ofNat 32 (s.get (FB.TRIP_STAT_TRIP_WORD b)))
      (s.on (FB.BANK_STAT_TRIP_LINK_OK b)) false false false 0
  else s

/-- Post the diagnostic copies of the safety inputs in `l` (R25). DESIGN CHOICE (assumption 37): CH_SLOT 0, its reset value, names no slot
for a copy. -/
def State.postDiag (s : State) : List Nat → State
  | [] => s
  | ch :: t =>
    let c := s.chan ch
    (if s.chEn ch && s.chSafety ch && isDI (s.chType ch) && s.chSlot ch != 0 then
      s.post (s.chSlot ch) 1 ch (if c.pollSt then 1 else 0) c.pollOk false false false 0 else s).postDiag t

/-- The diagnostic copies of bank `b`, at every tick (R25). -/
def State.postCopies (s : State) (b : Nat) : State := (s.postDiag (bankChans b)).postTrip b

/-- The slots that bank `b` produces from its input frames: inputs and AO readbacks. -/
def State.bankSlots (s : State) (b : Nat) : List (Nat × Nat) :=
  (bankChans b).filterMap (fun ch =>
    let t := s.chType ch
    if !s.chEn ch then none
    else if (isDI t && !s.chSafety ch) || t == 5 then some (s.chSlot ch, ch)
    else if isAO t && s.on (FB.AN_CFG_RB_EN (bk ch) (li ch)) then some (s.get (FB.AN_RB_RB_SLOT (bk ch) (li ch)), ch)
    else none)

/-- Mark the slots in `l` LATE, values kept (R203). -/
def State.lateBank (s : State) : List (Nat × Nat) → State
  | [] => s
  | (n, ch) :: t => (s.lateSlots 1 ch [n]).lateBank t

/-- Post the slots in `l` with VALID 0, values kept (R203, R211); a readback also with SAT 0 (R222). -/
def State.invalidBank (s : State) : List (Nat × Nat) → State
  | [] => s
  | (n, ch) :: t =>
    (if s.isProducer n 1 ch then
      let s := s.invalidate n
      let r := s.slotRaw n
      if isAO (s.chType ch) then s.setSlot n { r with tag := setBits r.tag 27 1 0 } else s
     else s).invalidBank t

/-- The logic side has had no valid input frame for SILENCE_MS (R203). -/
def State.inputLost (s : State) (b : Nat) : State :=
  if s.on (FB.BANK_STAT_INPUT_LOST b) then s
  else (((s.put (FB.BANK_STAT_INPUT_LOST b) 1).bump (FB.FRAME_CNT_INPUT_LOST_CNT b))).invalidBank (s.bankSlots b)

/-- SILENCE_MS has passed since the last valid input frame, or since the bank's reset (R203). -/
def State.inputLostDue (s : State) (b : Nat) : Bool :=
  decide (((s.bank b).lastIn.getD (s.bank b).resetAt) + ms (s.get (FB.BANK_CFG_SILENCE_MS b)) ≤ s.mono)

/-- A bank at a tick boundary: a tick without a valid input frame leaves its slots LATE, or invalid once INPUT_LOST; the diagnostic copies;
outputs are applied, inputs captured and converted. -/
def State.bankTick (s : State) (b : Nat) : State :=
  if s.mstate = stPOWER_ON then s
  else
    let k := s.bank b
    let s := if k.inOk || !s.enabled (0x20 + b) then s
      else if s.inputLostDue b then (if s.on (FB.BANK_STAT_INPUT_LOST b) then s.invalidBank (s.bankSlots b) else s.inputLost b)
      else s.lateBank (s.bankSlots b)
    let s := (s.setBank b { s.bank b with inOk := false }).postCopies b
    if k.supply && s.enabled (0x20 + b) then
      (((s.bankApply b).captureAll (bankChans b)).convertAll (bankChans b)).endRamps (bankChans b)
    else s

/-- The banks in `l` at a tick boundary. -/
def State.bankTicks (s : State) : List Nat → State
  | [] => s
  | b :: t => (s.bankTick b).bankTicks t

/-! ### Supplies (R188, R189) -/

/-- Switch off the outputs of bank `b` for a field-supply fault: pulses in progress are killed (R188, R201). -/
def State.killAll (s : State) : List Nat → State
  | [] => s
  | ch :: t => ((((s.killPulse ch).setChan ch { (s.killPulse ch).chan ch with ramp := none }).showDO ch).complEnds ch).killAll t

/-- FV is outside its range (R188). -/
def State.fvBad (s : State) (b : Nat) (low : Bool) : State :=
  let was := if low then s.on (FB.BANK_STAT_FV_LOW b) else s.on (FB.BANK_STAT_FV_HIGH b)
  let s := if low then s.put (FB.BANK_STAT_FV_LOW b) 1 else s.put (FB.BANK_STAT_FV_HIGH b) 1
  let s := s.put (FB.BANK_STAT_FV_OK b) 0
  let s := if was then s else s.bump (FB.FV_CNT_FV_FAULT_CNT b)
  let s := if low then s.put (FB.BANK_STAT_FV_HIGH b) 0 else s.put (FB.BANK_STAT_FV_LOW b) 0
  (s.setBank b { s.bank b with fvHold := true, fvResume := none }).killAll (bankChans b)

/-- A bank loses its logic-side supply (R189, R469). -/
def State.bankOff (s : State) (b : Nat) : State :=
  let s := (s.setBank b { s.bank b with supply := false, lastOut := none, lastDrive := none, frame := none }).releaseBank b
  let s := (s.put (FB.BANK_STAT_LINK_OK b) 0).put (FB.BANK_STAT_LOGIC_SILENT b) 0
  ((s.put (FB.FV_MEAS_FV_MV b) 0).put (FB.FV_MEAS_FV_MA b) 0).wr (FB.BANK_POWER_TEMP b).key 0

/-! ### Test pulses (R198 to R201) -/

/-- The pulse interval of channel `ch` in ns. -/
def State.pulseNs (s : State) (ch : Nat) : Nat := s.get (FB.CH_PULSE_INT (bk ch) (li ch)) * 100000000

/-- The element whose pulse begins at the present tick boundary: some false the main, some true the trip element of a
safety DO, half an interval later (R198). -/
def State.pulseDue (s : State) (ch : Nat) : Option Bool :=
  let p := max (s.pulseNs ch) 1
  let x := s.tku.base.toNat % p
  let o := li ch * 1000000
  let tested := s.chEn ch && ((s.chType ch == 4 && (s.on (FB.CH_CFG_PULSE_EN (bk ch) (li ch)) || s.chSafety ch)) || s.chType ch == 8)
  if !tested then none
  else if x = o then some false
  else if s.chSafety ch ∧ s.chType ch = 4 ∧ x = (o + p / 2) % p then some true
  else none

/-- Remember the raw inputs of the DIs of source `src` before its pulse (R200). -/
def State.markRaw (s : State) (src : Nat) : List Nat → State
  | [] => s
  | ch :: t =>
    (if s.chEn ch && isDI (s.chType ch) && s.on (FB.CH_CFG_XCHK_EN (bk ch) (li ch)) &&
        s.get (FB.CH_CFG_SRC_CH (bk ch) (li ch)) == li src then
      s.setChan ch { s.chan ch with rawBefore := s.on (FB.CH_STAT_RAW (bk ch) (li ch)) } else s).markRaw src t

/-- The counter stands at the instant `t` of vessel time: this is the first 25 MHz cycle at which it has reached it (R15). -/
def State.atTime (s : State) (t : Nat) : Bool := decide (t ≤ s.now) && decide (s.now ≤ t + 40)

/-- A test pulse begins (R198): at its tick boundary the element opens, for the width then in force (R211). -/
def State.pulseStart (s : State) (ch : Nat) : State :=
  match s.pulseDue ch with
  | none => s
  | some trip =>
    if !s.energised ch || (s.chan ch).pulse.isSome || !s.atTime s.tku.base.toNat then s
    else
      let w := us (s.get (FB.CH_PULSE_WIDTH_US (bk ch) (li ch)))
      let s := if s.chType ch = 8 then s.markRaw ch (bankChans (bk ch)) else s
      (s.setChan ch { s.chan ch with pulse := some ⟨trip, s.mono, w, false⟩, maskTo := s.mono + w + us 50 }).timeDO ch

/-- The cross-short check of DI `ch` (R200). -/
def State.xcheck (s : State) (ch : Nat) (rawNow : Bool) : State :=
  let c := s.chan ch
  let b := bk ch
  let i := li ch
  if !c.rawBefore then s
  else if rawNow then
    let s := s.setChan ch { c with xFails := min (c.xFails + 1) 2, xPasses := 0 }
    if 2 ≤ c.xFails + 1 && !s.on (FB.CH_STAT_XSHORT b i) then
      ((s.put (FB.CH_STAT_XSHORT b i) 1).bump (FB.CH_CNT_XSHORT_CNT b i)).chFault ch
    else s
  else
    let s := s.setChan ch { c with xPasses := min (c.xPasses + 1) 2, xFails := 0 }
    if 2 ≤ c.xPasses + 1 then (s.put (FB.CH_STAT_XSHORT b i) 0).chFault ch else s

/-- The cross-short checks of the DIs in `l` against source `src`. -/
def State.xchecks (s : State) (src : Nat) (raws : BitVec 16) : List Nat → State
  | [] => s
  | ch :: t =>
    (if s.chEn ch && isDI (s.chType ch) && s.on (FB.CH_CFG_XCHK_EN (bk ch) (li ch)) &&
        s.get (FB.CH_CFG_SRC_CH (bk ch) (li ch)) == li src then s.xcheck ch (raws.getLsbD (li ch)) else s).xchecks src raws t

/-- The verdict of a pulse (R199): `high` tells that the terminal is not below 5 V. -/
def State.pulseVerdict (s : State) (ch : Nat) (high : Bool) (raws : BitVec 16) : State :=
  let c := s.chan ch
  match c.pulse with
  | none => s
  | some p =>
    if p.killed then s
    else
      let s := s.setChan ch (if p.trip then { c with failTrip := high } else { c with failMain := high })
      let c := s.chan ch
      let s := s.putB (FB.CH_STAT_PULSE_FAIL (bk ch) (li ch)) (c.failMain || c.failTrip)
      let s := if high then s.bump (FB.CH_CNT_PULSE_FAIL_CNT (bk ch) (li ch)) else s
      let s := (s.putB (FB.CH_STAT_RAW (bk ch) (li ch)) high).chFault ch
      if s.chType ch = 8 then s.xchecks ch raws (bankChans (bk ch)) else s

/-- The end of a pulse (R199, R201). -/
def State.pulseEnd (s : State) (ch : Nat) : State :=
  (s.setChan ch { s.chan ch with pulse := none }).showDO ch

/-! ### Trip words (R207) -/

/-- Open or close the trip elements of the safety outputs in `l` by a trip word. -/
def State.tripAll (s : State) (w : BitVec 16) : List Nat → State
  | [] => s
  | ch :: t =>
    (if s.chSafety ch && s.chType ch == 4 then
      let opens := !w.getLsbD (li ch)
      let s := s.putB (FB.CH_STAT_TRIP (bk ch) (li ch)) opens
      (if opens then s.killPulse ch else s).showDO ch
     else s).tripAll w t

/-- A trip word arrives at bank `b` (R207). -/
def State.tripWord (s : State) (b : Nat) (w c : BitVec 16) (seq : Nat) : State :=
  if !s.bankLive b then s
  else if c ≠ ~~~w ∨ (s.bank b).tripSeq = some seq then s.bump (FB.TRIP_STAT_TRIP_ERR_CNT b)
  else
    let s := s.setBank b { s.bank b with tripAt := some s.mono, tripSeq := some seq }
    let s := (s.put (FB.TRIP_STAT_TRIP_WORD b) w.toNat).put (FB.BANK_STAT_TRIP_LINK_OK b) 1
    s.tripAll w (bankChans b)

/-- No valid trip word for 1 ms (R207). -/
def State.tripLoss (s : State) (b : Nat) : State :=
  (s.put (FB.BANK_STAT_TRIP_LINK_OK b) 0).tripAll 0 (bankChans b)

/-- Record the filtered states and validity sent to the Gauntlet in answer to a poll (R207). -/
def State.pollAll (s : State) : List Nat → State
  | [] => s
  | ch :: t =>
    (if s.chSafety ch && isDI (s.chType ch) then
      let c := s.chan ch
      s.setChan ch { c with pollSt := s.on (FB.CH_STAT_VALUE (bk ch) (li ch)),
                            pollOk := c.sampled && !s.chInvalid ch && s.bankLive (bk ch) && s.enabled (0x20 + bk ch) }
     else s).pollAll t

end Sys2Proof.Machine
end

