-- ==== Sys2Proof/Machine/HartOps.lean ====
section
/-! DEFINITION. The HART modems of the banks (R226 to R230): requests, transmission, responses, time-outs and bursts. -/

namespace Sys2Proof.Machine

/-- The channel has a modem at work (R226, R227): types 5 to 7 point to point, type 5 also multi-drop, an AI with BW 0. -/
def State.hartModem (s : State) (ch : Nat) : Bool :=
  let b := bk ch
  let m := s.get (FB.AN_CFG_HART_MODE b (li ch))
  let t := s.chType ch
  (t == 5 && (m == 1 || m == 2) && !s.on (FB.AN_CFG_BW b (li ch))) || (isAO t && m == 1)

/-- The conditions of R228 for channel `ch`. -/
def State.hartOk (s : State) (ch : Nat) : Bool :=
  let b := bk ch
  s.sends && s.get (FB.BANK_STAT_DRIVE_MODE b) == 0 && s.on (FB.BANK_STAT_LINK_OK b) &&
    !s.on (FB.BANK_STAT_LOGIC_SILENT b) && s.chEn ch && s.hartModem ch && !(isAO (s.chType ch) && s.outSt ch == 3)

/-- The longitudinal check byte of a HART frame. -/
def hartCheck (l : List Byte) : Byte := l.foldl (fun a b => a ^^^ b) 0#8

/-- A response record (R229). Without a delimiter to stamp, the stamp is a free value. -/
def State.hartRecord (s : State) (ch result tag attempts : Nat) (burst : Bool) (at0 : Option Stamp) (frame : List Byte) :
    State × List Byte :=
  let (s, f) := s.free
  let st := at0.getD (f, s.stepPar)
  (s, [BitVec.ofNat 8 ch, BitVec.ofNat 8 result] ++ natLE 2 tag ++ natLE 2 frame.length ++
    [BitVec.ofNat 8 attempts, BitVec.ofNat 8 (b2n st.2 + 2 * b2n burst)] ++ natLE 4 st.1 ++ frame)

/-- Deliver a response record on HART_CFG.RX_RING, if that ring takes HART records of this bank (R229, R310). -/
def State.hartDeliver (s : State) (b ch result tag attempts : Nat) (burst : Bool) (at0 : Option Stamp) (frame : List Byte) : State :=
  let r := s.get (FB.HART_CFG_RX_RING b)
  let (s, item) := s.hartRecord ch result tag attempts burst at0 frame
  if s.get (QMG.RING_EP_PROD_CLASS r) = epHart ∧ s.get (QMG.RING_EP_PROD_INST r) = b then
    (s.ringPost r item 0 at0 0 0).1
  else s

/-- HART_BUSY follows the transactions a channel holds. -/
def State.hartBusy (s : State) (ch : Nat) : State :=
  let x := !(s.chan ch).hart.isEmpty
  (s.putB (FB.AN_STAT_HART_BUSY (bk ch) (li ch)) x).putBit (FB.HART_STAT_BUSY (bk ch)) (li ch) x

/-- The transaction in progress on `ch` ends with a result (R230); `at0` stamps the delimiter of a response. -/
def State.hartEnd (s : State) (ch result : Nat) (at0 : Option Stamp) (frame : List Byte) : State :=
  let c := s.chan ch
  match c.hart with
  | [] => s
  | r :: rest =>
    let s := s.setChan ch { c with hart := rest }
    let s := s.bump (FB.HART_CNT_TXN_CNT (bk ch))
    let s := if 1 ≤ result ∧ result ≤ 3 then s.bump (FB.AN_CNT_HART_ERR_CNT (bk ch) (li ch)) else s
    (s.hartDeliver (bk ch) (li ch) result r.tag r.attempts false at0 frame).hartBusy ch

/-- An attempt fails with `result` (R230): repeated up to RETRIES times unless NO_RETRY is set. -/
def State.hartFail (s : State) (ch result : Nat) (at0 : Option Stamp) : State :=
  let c := s.chan ch
  match c.hart with
  | [] => s
  | r :: rest =>
    if r.noRetry || decide (r.retries < r.attempts) then s.hartEnd ch result at0 []
    else (s.setChan ch { c with hart := { r with sentAt := none } :: rest }).bump (FB.AN_CNT_HART_RETRY_CNT (bk ch) (li ch))

/-- End every transaction of `ch` that is in hand with a result: `n` bounds their number. -/
def State.hartEndAll (s : State) (ch result : Nat) : Nat → State
  | 0 => s
  | n + 1 => (s.hartEnd ch result none []).hartEndAll ch result n

/-- End the transactions of the channels in `l` (R230: ABORTED, LINK). -/
def State.hartDrop (s : State) (result : Nat) : List Nat → State
  | [] => s
  | ch :: t => (s.hartEndAll ch result 2).hartDrop result t

/-- The transactions of the banks in `l` that have become logic silent or INPUT_LOST since `old` end with LINK (R230). -/
def State.hartLinks (s old : State) : List Nat → State
  | [] => s
  | b :: t =>
    (if (s.on (FB.BANK_STAT_LOGIC_SILENT b) && !old.on (FB.BANK_STAT_LOGIC_SILENT b)) ||
        (s.on (FB.BANK_STAT_INPUT_LOST b) && !old.on (FB.BANK_STAT_INPUT_LOST b)) then s.hartDrop 6 (bankChans b)
     else s).hartLinks old t

/-- A bank takes the request at the head of TX_RING (R229). -/
def State.hartTake (s : State) (b : Nat) : State :=
  let r := s.get (FB.HART_CFG_TX_RING b)
  if s.get (QMG.RING_EP_CONS_CLASS r) ≠ epHart ∨ s.get (QMG.RING_EP_CONS_INST r) ≠ b then s
  else match s.ringHead r with
  | none => s
  | some d =>
    if !bufOk d.buf d.len || decide (d.len < 8) then s.ringRefuse r
    else
      let l := s.bytes d.buf d.len
      let sel := setByteAt l 0
      let len := setLEAt l 4 2
      let tag := setLEAt l 2 2
      let ch := 16 * b + sel % 16
      if 16 ≤ sel ∨ len < 4 ∨ 263 < len ∨ d.len < 8 + len then
        ((s.ringDone r 0 none).bump (FB.HART_CNT_TXN_CNT b)).hartDeliver b sel 7 tag 0 false none []
      else if 2 ≤ (s.chan ch).hart.length then s
      else
        let q : HartReq := ⟨(setByteAt l 1) % 2 == 1, tag, (l.drop 8).take len, 0, none, 0, 0⟩
        let s := s.ringDone r 0 none
        (s.setChan ch { s.chan ch with hart := (s.chan ch).hart ++ [q] }).hartBusy ch

/-- Time of `n` characters of 11 bits at 1200 bit/s (R228). -/
def hartChars (n : Nat) : Nat := n * 11 * 1000000000 / 1200

/-- The modem of channel `ch` transmits the request in progress once no carrier has been on its line for two character times (R228, R229);
the transaction keeps the PREAMBLE and RETRIES it began with (R231). -/
def State.hartTransmit (s : State) (ch : Nat) : State :=
  match (s.chan ch).hart with
  | [] => s
  | r :: rest =>
    if r.sentAt.isSome then s
    else if r.attempts = 0 && !s.hartOk ch then s.hartEnd ch 4 none []
    else
      let s := s.untilMono ((s.chan ch).quiet + hartChars 2)
      let r := if r.attempts = 0 then { r with pre := s.get (FB.HART_CFG_PREAMBLE (bk ch)), retries := s.get (FB.HART_CFG_RETRIES (bk ch)) }
               else r
      let sent := s.mono + hartChars (r.pre + r.frame.length + 1)
      let s := s.setChan ch { s.chan ch with hart := { r with attempts := r.attempts + 1, sentAt := some sent } :: rest, quiet := sent }
      { s with sent := s.sent ++ [(.hart ch, List.replicate r.pre 0xFF#8 ++ r.frame ++ [hartCheck r.frame])] }

/-- Carrier has been on the line of channel `ch` until now (R228). -/
def State.hartHeard (s : State) (ch : Nat) : State := s.setChan ch { s.chan ch with quiet := s.mono }

/-- A response arrives whose delimiter began `ago` ns before now (R230). One that begins more than 28 character times after the end of the
request finds the attempt failed; a frame that began before that end is no response to it. -/
def State.hartResponse (s : State) (ch ago : Nat) (e : HartErr) (frame : List Byte) : State :=
  let st := s.stampAgo 10000 ago
  let t := s.hartHeard ch
  match (s.chan ch).hart with
  | [] => t
  | r :: _ =>
    match r.sentAt with
    | none => t
    | some x =>
      if s.mono < x + ago then t
      else if x + hartChars 28 + ago < s.mono then t.hartFail ch 1 none
      else match e with
        | .none => t.hartEnd ch 0 (some st) (frame.take 263)
        | .frame => t.hartFail ch 2 (some st)
        | .carrier => t.hartFail ch 3 (some st)

/-- A burst frame arrives whose delimiter began `ago` ns before now (R226). -/
def State.hartBurst (s : State) (ch ago : Nat) (frame : List Byte) : State :=
  let b := bk ch
  if !s.chEn ch || !s.hartModem ch then s
  else
    let st := s.stampAgo 10000 ago
    let s := (s.bump (FB.HART_CNT_BURST_CNT b)).hartHeard ch
    if s.on (FB.HART_CFG_BURST_RX b) then s.hartDeliver b (li ch) 0 0xFFFF 0 true (some st) (frame.take 263) else s

end Sys2Proof.Machine
end

