-- ==== Sys2Proof/Machine/CisOps.lean ====
section
/-! DEFINITION. The Cistern (R395 to R410): samples, epochs, records, flushes, restore, export and clear. -/

namespace Sys2Proof.Machine

/-! ### Samples (R395 to R398) -/

/-- Set the Cistern's state. -/
def State.setCis (s : State) (c : Cis) : State := { s with cis := c }

/-- Track `t` is enabled. -/
def State.trkEn (s : State) (t : Nat) : Bool := s.on (CIS.TRK_CFG_EN t)

/-- CLO.OP_SECONDS. -/
def State.ops (s : State) : Nat := s.get CLO.OP_SECONDS

/-- An accumulator that opens (R398, R399). -/
def CisAcc.opened (ops nb : Nat) (defChanged : Bool) : CisAcc :=
  ⟨ops, 0, 0, 0x7FFFFFFF, 0, 0, -0x80000000, 0, 0, List.replicate nb 0, false, defChanged⟩

/-- The bin of value `v` (R397). -/
def cisBin (lo : Int) (width nb : Nat) (v : Int) : Nat :=
  if v < lo then 0 else min ((v - lo) / (max width 1 : Int)).toNat (nb - 2) + 1

/-- Count 1 in element `k`, saturating at 32 bits; the truth value tells whether it saturated (R397). -/
def countBin (l : List Nat) (k : Nat) : List Nat × Bool :=
  (l.set k (min (l.getD k 0 + 1) 0xFFFFFFFF), l.getD k 0 == 0xFFFFFFFF)

/-- An accumulator takes a sample (R397, R398); none is an invalid one. -/
def CisAcc.take (a : CisAcc) (lo : Int) (width ops pc : Nat) (x : Option (Int × Bool)) : CisAcc :=
  match x with
  | none => { a with invalid := min (a.invalid + 1) 0xFFFFFFFF }
  | some (v, sat) =>
    let (bins, full) := countBin a.bins (cisBin lo width a.bins.length v)
    let first := a.samples == 0
    let a := { a with bins := bins, sat := a.sat || sat || full, samples := min (a.samples + 1) 0xFFFFFFFF }
    let a := if first || decide (v < a.mn) then { a with mn := v, mnOps := ops, mnPc := pc } else a
    if first || decide (a.mx < v) then { a with mx := v, mxOps := ops, mxPc := pc } else a

/-- The single-precision word `w` times 2 to the `e`, rounded to nearest with ties to even and held to 32 bits, and whether it
was held (R396); none for a NaN. -/
def floatScale (w : Word) (e : Int) : Option (Int × Bool) :=
  let x := bits w 23 8
  let f := bits w 0 23
  let neg := w.getLsbD 31
  if x = 255 then
    if f ≠ 0 then none else some (if neg then -0x80000000 else 0x7FFFFFFF, true)
  else
    let m : Int := if x = 0 then f else f + 2 ^ 23
    let k : Int := (max x 1 : Nat) - 150 + e
    let q := if 0 ≤ k then m * 2 ^ k.toNat else rneDiv m (2 ^ (-k).toNat)
    let q := if neg then -q else q
    some (satQ q, outOfRange q)

/-- The metric of R396 with code `k` and index `i`: its word while the object runs. A logic-side temperature has no register
and the magnitude of the most negative innovation no stated value: free values. -/
def State.cisMetric (s : State) (k i : Nat) : State × Option Word :=
  let fixed (ok : Bool) (n : Int) : State × Option Word := (s, if ok then some (BitVec.ofInt 32 n) else none)
  if k = 1 then fixed true (satQ (sx 64 (s.get64 TKU.OFFSET_LAST_LO TKU.OFFSET_LAST_HI)))
  else if k = 2 then fixed (s.imgTask (i / 16) (i % 16)).present (s.get (LSQ.TASK_EXEC_LAST_US (i / 16) (i % 16)))
  else if k = 3 then
    let e := s.memI (stateBase (i / 16) + 0x140 + 4 * (i % 16))
    if !s.loopEn (i / 16) then (s, none)
    else if e = -0x80000000 then let (s, v) := s.free; (s, some (BitVec.ofNat 32 v))
    else fixed true e.natAbs
  else if k = 4 then fixed (s.loopEn i) (s.get (CTX.CTX_EXEC_LAST i))
  else if k = 5 then fixed (s.on (SLOT.SLOT_CFG_EN i)) (s.get (SLOT.SLOT_LAST_RESNORM i))
  else if k = 6 then fixed (s.bankLive i) (sx 16 (s.get (FB.BANK_POWER_TEMP i)))
  else if k = 7 then fixed true (s.get PSU.BULK_POWER)
  else if k = 8 then fixed true (s.get PSU.BULK_VOLT)
  else if k = 9 then let (s, v) := s.free; (s, some (BitVec.ofNat 32 v))
  else if k = 10 then fixed (s.on (MPL.MON_STAT_VALID i)) (s.get (MPL.MON_VAL i))
  else (s, none)

/-- A metric and index that R396 defines. -/
def metricOk (k i : Nat) : Bool :=
  if k = 1 ∨ k = 7 ∨ k = 8 then i == 0
  else if k = 2 then decide (i < 64) && decide (i % 16 < 10)
  else if k = 3 then decide (i < 2048)
  else if k = 4 then decide (i < 128)
  else if k = 5 ∨ k = 6 then decide (i < 16)
  else if k = 9 then decide (i < 4)
  else if k = 10 then decide (i < 77)
  else false

/-- The sample of track `t` (R396). -/
def State.cisSource (s : State) (t : Nat) : State × Option (Int × Bool) :=
  let i := s.get (CIS.TRK_SRC_INDEX t)
  let (s, w) :=
    if s.on (CIS.TRK_CFG_SRC t) then s.cisMetric (s.get (CIS.TRK_SRC_METRIC t)) i
    else
      let r := s.slotRaw i
      (s, if tVALID r.tag && !tLATE r.tag then some (s.slotView i).value else none)
  (s, match w with
      | none => none
      | some w => if s.on (CIS.TRK_CFG_FLOAT t) then floatScale w (sx 8 (s.get (CIS.TRK_SCALE_SCALE_EXP t)))
                  else some (w.toInt, false))

/-- Track `t` samples, if it is due at this tick (R395); a boundary that applies a step counts at its old time (R74). -/
def State.cisSample (s : State) (t : Nat) : State :=
  let iv := s.get (CIS.TRK_CFG_INTERVAL t)
  match s.cis.trks.find? (fun e => e.1 == t) with
  | none => s
  | some (_, k) =>
    if !s.trkEn t || iv = 0 || (s.tku.grid.toNat / 100000) % iv ≠ 0 then s
    else
      let (s, x) := s.cisSource t
      let f (a : CisAcc) := a.take (sx 32 (s.get (CIS.TRK_LO t))) (s.get (CIS.TRK_WIDTH t)) s.ops
        (s.get CLO.POWER_CYCLES) x
      let k := ⟨f k.hour, f k.day, f k.life⟩
      s.setCis { s.cis with trks := s.cis.trks.map (fun e => if e.1 == t then (t, k) else e) }

/-- The samples of a tick, at its snapshot instant (R395). -/
def State.cisSamples (s : State) : State :=
  if s.on CIS.CIS_STAT_SAMPLING && s.enabled 0x08 then (List.range 64).foldl State.cisSample s else s

/-! ### Records and export (R404 to R406) -/

/-- DEF_CRC of track `t` (R404). -/
def State.defCrc (s : State) (t : Nat) : Nat :=
  (crc32c (natLE 4 (setBits (s.rd (CIS.TRK_CFG_EN t).key) 0 1 0).toNat ++ natLE 4 (s.rd (CIS.TRK_SRC_INDEX t).key).toNat ++
    natLE 4 (s.rd (CIS.TRK_SCALE_SCALE_EXP t).key).toNat ++ natLE 4 (s.get (CIS.TRK_LO t)) ++
    natLE 4 (s.get (CIS.TRK_WIDTH t)))).toNat

/-- The bytes of a history record (R404); flags: PARTIAL and RESTORED. -/
def cisBytes (typ t : Nat) (part rest : Bool) (seq closeOps pc crc : Nat) (a : CisAcc) : List Byte :=
  let nb := a.bins.length
  let body := natLE 2 0x4349 ++ [BitVec.ofNat 8 typ, BitVec.ofNat 8 t,
      BitVec.ofNat 8 (b2n part + 2 * b2n a.defChanged + 4 * b2n a.sat + 8 * b2n rest), BitVec.ofNat 8 nb] ++
    natLE 2 (64 + 4 * nb) ++ natLE 4 seq ++ natLE 4 a.openOps ++ natLE 4 closeOps ++ natLE 4 pc ++ natLE 4 crc ++
    natLE 4 a.samples ++ natLE 4 a.invalid ++ natLE 4 (ux 32 a.mn) ++ natLE 4 a.mnOps ++ natLE 4 a.mnPc ++
    natLE 4 (ux 32 a.mx) ++ natLE 4 a.mxOps ++ natLE 4 a.mxPc ++ a.bins.flatMap (natLE 4)
  body ++ natLE 4 (crc32c body).toNat

/-- The SEQ after `n`: never 0 (R404). -/
def nextSeq32 (n : Nat) : Nat := if n = 0xFFFFFFFF then 1 else n + 1

/-- The export ring, while records are exported (R406). -/
def State.cisRing (s : State) : Option Nat :=
  let r := s.get CIS.CIS_CFG_EXPORT_RING
  if s.feat 7 && r != 0x3F && s.ringOn r && s.get (QMG.RING_EP_PROD_CLASS r) == epCis then some r else none

/-- SEQ `n` comes after the last one exported. -/
def State.unexported (s : State) (n : Nat) : Bool :=
  let d := (n + 2 ^ 32 - s.get CIS.EXPORT_SEQ) % 2 ^ 32
  decide (0 < d ∧ d < 2 ^ 31)

/-- The oldest record that has not been exported. -/
def State.nextExport (s : State) : Option CisRec :=
  s.cis.recs.foldl (fun b r => if !s.unexported r.seq then b
    else match b with
      | none => some r
      | some q => if (r.seq + 2 ^ 32 - s.get CIS.EXPORT_SEQ) % 2 ^ 32 < (q.seq + 2 ^ 32 - s.get CIS.EXPORT_SEQ) % 2 ^ 32
                  then some r else b) none

/-- Copy the next record into the export ring, if it has credit (R406). -/
def State.cisExport (s : State) : State :=
  match s.cisRing, s.nextExport with
  | some r, some q =>
    if s.ringCredit r = 0 then
      let s := if s.on CIS.CIS_STAT_EXPORT_BEHIND then s else s.bump (QMG.RING_CNT_NO_CREDIT_CNT r)
      s.put CIS.CIS_STAT_EXPORT_BEHIND 1
    else
      let (s, _) := s.ringPost r (s.bytes q.addr q.len) 0 none 0 0
      let s := s.put CIS.EXPORT_SEQ q.seq
      if s.nextExport.isNone then s.put CIS.CIS_STAT_EXPORT_BEHIND 0 else s
  | _, _ => s

/-- Note a record written at `r`; the records it overwrote are gone, and those of them not yet exported are counted while
records are exported (R406). -/
def State.cisNote (s : State) (r : CisRec) : State :=
  let gone := s.cis.recs.filter (fun q => decide (q.addr < r.addr + r.len ∧ r.addr < q.addr + q.len))
  let kept := s.cis.recs.filter (fun q => !decide (q.addr < r.addr + r.len ∧ r.addr < q.addr + q.len))
  let lost := if s.cisRing.isSome then (gone.filter (fun q => s.unexported q.seq)).length else 0
  let s := s.bumpBy CIS.CIS_CNT_EXPORT_LOST_CNT lost
  (s.setCis { s.cis with recs := kept ++ [r] }).cisExport

/-- Write a history record into its store (R404, R405): type 1 into the hour store, types 2 and 3 into the day store. -/
def State.cisWrite (s : State) (typ t : Nat) (part rest : Bool) (closeOps crc : Nat) (a : CisAcc) : State :=
  let hour := typ == 1
  let base := if hour then 0x71200000 else 0x71060000
  let size := if hour then 0x200000 else 0x1A0000
  let head := if hour then CIS.HOUR_HEAD else CIS.DAY_HEAD
  let seq := nextSeq32 (s.get CIS.CIS_SEQ)
  let b := cisBytes typ t part rest seq closeOps (s.get CLO.POWER_CYCLES) crc a
  let off := if size < s.get head + b.length then 0 else s.get head
  let s := (s.setBytes (base + off) b).put CIS.CIS_SEQ seq
  (s.put head (if off + b.length = size then 0 else off + b.length)).cisNote ⟨base + off, b.length, typ, t, seq⟩

/-! ### Lifetime places (R402, R405) -/

/-- The address of the lifetime place of track `t`. -/
def lifePlace (t : Nat) : Nat := 0x71040000 + 256 * t

/-- Rewrite the lifetime place of track `t`: its record as it stands. DESIGN CHOICE (assumption 45): a rewritten place takes no SEQ of
its own and carries the one last given. -/
def State.putLife (s : State) (t : Nat) (a : CisAcc) : State :=
  s.setBytes (lifePlace t) (cisBytes 3 t false false (s.get CIS.CIS_SEQ) s.ops (s.get CLO.POWER_CYCLES) (s.defCrc t) a)

/-- The lifetime record of track `t`, if a valid one stands: its accumulator and its DEF_CRC. -/
def State.lifeRec (s : State) (t : Nat) : Option (CisAcc × Nat) :=
  let b := s.bytes (lifePlace t) 256
  let w (k : Nat) := leNat ((b.drop k).take 4)
  let nb := (b.getD 5 0).toNat
  let fl := b.getD 4 0
  if leNat (b.take 2) = 0x4349 ∧ b.getD 2 0 = 3#8 ∧ nb ≤ 32 ∧ w (60 + 4 * nb) = (crc32c (b.take (60 + 4 * nb))).toNat then
    some (⟨w 12, w 28, w 32, sx 32 (w 36), w 40, w 44, sx 32 (w 48), w 52, w 56, (List.range nb).map (fun k => w (60 + 4 * k)),
      fl.getLsbD 2, fl.getLsbD 1⟩, w 24)
  else none

/-! ### Flushes (R400) -/

/-- A flush starts: it takes every open accumulator as it stands. A trigger during a flush is merged into it. -/
def State.cisFlush (s : State) : State :=
  let sq (c : Option CisCkpt) : Nat := match c with | none => 0 | some k => k.seq
  let n := max (sq s.cis.ckA) (sq s.cis.ckB) + 1
  (s.setCis { s.cis with flush := some ⟨n, s.ops, s.cis.trks⟩ }).put CIS.CIS_STAT_FLUSH_BUSY 1

/-- Rewrite the lifetime places of the accumulators in `l`. -/
def State.putLives (s : State) : List (Nat × CisTrk) → State
  | [] => s
  | (t, k) :: r => (s.putLife t k.life).putLives r

/-- Erase the record at `r`. -/
def State.eraseRec (s : State) (r : CisRec) : State := s.setBytes r.addr (List.replicate r.len 0)

/-- Open a new LIFE epoch of track `t`, if it is enabled. -/
def State.renewLife (s : State) (t : Nat) (defChanged : Bool) : State :=
  let a := CisAcc.opened s.ops (s.get (CIS.TRK_CFG_NBINS t)) defChanged
  if s.trkEn t then
    (s.setCis { s.cis with trks := s.cis.trks.map (fun e => if e.1 == t then (t, { e.2 with life := a }) else e) }).put
      (CIS.TRK_SUM_LIFE_NEW t) 1
  else s

/-- Erase the lifetime places of the tracks in `l` (R408). -/
def State.eraseLives (s : State) : List Nat → State
  | [] => s
  | t :: r => ((s.setBytes (lifePlace t) (List.replicate 256 0)).renewLife t false).eraseLives r

/-- The clear of R408: the log entry of R409, then the chosen records. -/
def State.cisErase (s : State) (stores mask : Nat) : State :=
  let n := s.get CIS.LOG_COUNT
  let a := 0x71050000 + 32 * n
  let seq := nextSeq32 (s.get CIS.CIS_SEQ)
  let body := natLE 2 0x4349 ++ [4#8, BitVec.ofNat 8 stores] ++ natLE 8 mask ++ natLE 4 s.ops ++
    natLE 4 (s.get CLO.POWER_CYCLES) ++ natLE 4 (if s.on TKU.SYNC_STAT_TIME_VALID then s.now / 1000000000 else 0) ++ natLE 4 seq
  let s := (s.setBytes a (body ++ natLE 4 (crc32c body).toNat)).put CIS.CIS_SEQ seq
  let s := (s.put CIS.LOG_COUNT (n + 1)).putB CIS.CIS_STAT_LOG_FULL (decide (2048 ≤ n + 1))
  let s := s.cisNote ⟨a, 32, 4, 0, seq⟩
  let hit (r : CisRec) : Bool := mask.testBit r.track &&
    ((r.typ == 1 && stores.testBit 0) || ((r.typ == 2 || r.typ == 3) && stores.testBit 1))
  let s := (s.cis.recs.filter hit).foldl State.eraseRec s
  let s := s.setCis { s.cis with recs := s.cis.recs.filter (fun r => !hit r) }
  if stores.testBit 2 then s.eraseLives ((List.range 64).filter mask.testBit) else s

/-- The flush ends (R400): the older copy takes it, the lifetime places are rewritten, and a clear that waited acts (R403). -/
def State.cisFlushDone (s : State) : State :=
  match s.cis.flush with
  | none => s
  | some k =>
    let older : Bool := match s.cis.ckA, s.cis.ckB with
      | none, _ => true | _, none => false | some a, some b => decide (a.seq < b.seq)
    let c := { s.cis with flush := none, clear := none }
    let w := s.cis.clear
    let s := s.setCis (if older then { c with ckA := some k } else { c with ckB := some k })
    let s := ((s.put CIS.CKPT_OPS k.ops).putLives k.trks).put CIS.CIS_STAT_FLUSH_BUSY 0
    match w with | none => s | some (st, m) => s.cisErase st m

/-- A flush cut off by the loss of the rails leaves its copy torn (R400). -/
def State.cisTorn (s : State) : State :=
  match s.cis.flush with
  | none => s
  | some _ =>
    let older : Bool := match s.cis.ckA, s.cis.ckB with
      | none, _ => true | _, none => false | some a, some b => decide (a.seq < b.seq)
    s.setCis (if older then { s.cis with flush := none, clear := none, ckA := none }
              else { s.cis with flush := none, clear := none, ckB := none })

/-! ### Epochs (R399, R401, R402) -/

/-- Close the HOUR epoch of track `t`. -/
def State.closeHour (s : State) (part : Bool) (t : Nat) : State :=
  match s.cis.trks.find? (fun e => e.1 == t) with
  | none => s
  | some (_, k) =>
    let s := s.cisWrite 1 t part false s.ops (s.defCrc t) k.hour
    let a := CisAcc.opened s.ops k.hour.bins.length k.hour.defChanged
    s.setCis { s.cis with trks := s.cis.trks.map (fun e => if e.1 == t then (t, { e.2 with hour := a }) else e) }

/-- Close the DAY epoch of track `t`; `life`: LIFE is written into the day store too. -/
def State.closeDay (s : State) (part life : Bool) (t : Nat) : State :=
  match s.cis.trks.find? (fun e => e.1 == t) with
  | none => s
  | some (_, k) =>
    let s := s.cisWrite 2 t part false s.ops (s.defCrc t) k.day
    let s := if life then s.cisWrite 3 t false false s.ops (s.defCrc t) k.life else s
    let a := CisAcc.opened s.ops k.day.bins.length k.day.defChanged
    s.setCis { s.cis with trks := s.cis.trks.map (fun e => if e.1 == t then (t, { e.2 with day := a }) else e) }

/-- The tracks with open epochs. -/
def State.openTrks (s : State) : List Nat := s.cis.trks.map (·.1)

/-- The epoch closes that are due (R399), then the flush that follows them (R403); none while the page is disabled (R39). -/
def State.cisEpochs (s : State) : State :=
  let h := s.ops / 3600
  let d := s.ops / 86400
  let hour := decide (s.cis.hours < h)
  let day := decide (s.cis.days < d)
  let live := s.enabled 0x08
  let s := if hour && live then s.openTrks.foldl (State.closeHour · false) s else s
  let s := if day && live then s.openTrks.foldl (State.closeDay · false true) s else s
  let close := (hour || day) && live
  let s := s.setCis { s.cis with hours := max h s.cis.hours, days := max d s.cis.days, closed := close }
  if close then s.cisFlush else s

/-- The Cistern at the snapshot instant (R395, R403): the samples, and the flush of a close in this tick with them in it. -/
def State.cisSnapshot (s : State) : State :=
  let s := s.cisSamples
  if s.cis.closed then (s.setCis { s.cis with closed := false }).cisFlush else s

/-- Open the epochs of track `t` when it is enabled (R402): LIFE continues only under the same definition. DESIGN CHOICE (assumption 45):
with no lifetime record standing, LIFE opens new without DEF_CHANGED. -/
def State.trkOpen (s : State) (t : Nat) : State :=
  let nb := s.get (CIS.TRK_CFG_NBINS t)
  let a := CisAcc.opened s.ops nb false
  match s.lifeRec t with
  | some (l, crc) =>
    if crc = s.defCrc t then s.setCis { s.cis with trks := mapIns t ⟨a, a, l⟩ (mapDel s.cis.trks t) }
    else
      let s := s.cisWrite 3 t false false s.ops crc l
      let s := s.setCis { s.cis with trks := mapIns t ⟨a, a, { a with defChanged := true }⟩ (mapDel s.cis.trks t) }
      s.put (CIS.TRK_SUM_LIFE_NEW t) 1
  | none =>
    (s.setCis { s.cis with trks := mapIns t ⟨a, a, a⟩ (mapDel s.cis.trks t) }).put (CIS.TRK_SUM_LIFE_NEW t) 1

/-- The definition of track `t` may be enabled (R410). -/
def State.trkOk (s : State) (t : Nat) : Bool :=
  let nb := s.get (CIS.TRK_CFG_NBINS t)
  let k := s.get (CIS.TRK_SRC_METRIC t)
  let i := s.get (CIS.TRK_SRC_INDEX t)
  decide (2 ≤ nb ∧ nb ≤ 32) && s.get (CIS.TRK_WIDTH t) != 0 &&
    (if s.on (CIS.TRK_CFG_SRC t) then metricOk k i && !(k == 5 && !s.on (CIS.TRK_CFG_FLOAT t)) else decide (i < 8192))

/-- EN of track `t` is cleared (R402). -/
def State.trkClose (s : State) (t : Nat) : State :=
  match s.cis.trks.find? (fun e => e.1 == t) with
  | none => s
  | some (_, k) =>
    let s := ((s.closeHour true t).closeDay true false t).putLife t k.life
    (s.setCis { s.cis with trks := mapDel s.cis.trks t }).cisFlush

/-- Restore track `t` from checkpoint `k` at an entry into CONFIG (R401). -/
def State.cisRestoreTrk (s : State) (k : Option CisCkpt) (t : Nat) : State :=
  let nb := s.get (CIS.TRK_CFG_NBINS t)
  let a := CisAcc.opened s.ops nb false
  match k with
  | none => (s.setCis { s.cis with trks := mapIns t ⟨a, a, a⟩ s.cis.trks }).put (CIS.TRK_SUM_LIFE_NEW t) 1
  | some k =>
    match k.trks.find? (fun e => e.1 == t) with
    | none => s.trkOpen t
    | some (_, r) =>
      let s := s.cisWrite 1 t true true k.ops (s.defCrc t) r.hour
      let s := s.cisWrite 2 t true true k.ops (s.defCrc t) r.day
      s.setCis { s.cis with trks := mapIns t ⟨a, a, r.life⟩ s.cis.trks }

/-- The entry into CONFIG (R395, R401). -/
def State.cisRestore (s : State) : State :=
  let k : Option CisCkpt := match s.cis.ckA, s.cis.ckB with
    | none, b => b | a, none => a | some a, some b => if a.seq < b.seq then some b else some a
  let s := s.setCis { s.cis with trks := [], flush := none, clear := none, hours := s.ops / 3600, days := s.ops / 86400 }
  let s := if k.isNone then (s.put CIS.CIS_STAT_CKPT_LOST 1).bump CIS.CIS_CNT_CKPT_ERR_CNT else s.put CIS.CIS_STAT_CKPT_LOST 0
  let en := (List.range 64).filter s.trkEn
  let s := en.foldl (State.cisRestoreTrk · k) s
  let s := s.put CIS.CIS_STAT_SAMPLING 1
  let closed (t : Nat) : Bool := match k with | none => false | some k => k.trks.any (fun e => e.1 == t)
  if en.any closed then s.cisFlush else s

/-! ### Commands (R400, R408) -/

/-- CIS_CMD CLEAR (R408). DESIGN CHOICE (assumption 45): a proved clear while another waits for a flush is refused. -/
def State.cisClear (s : State) (m : Nat) : State :=
  let stores := s.get CIS.CLEAR_SCOPE_STORES
  let mask := s.get64 CIS.CLEAR_TRK_LO CIS.CLEAR_TRK_HI
  let (s, ok) := s.credSubmit 4 [] 0x08 0x400 m
  if !ok then s.bump CIS.CIS_CNT_CLEAR_REFUSED_CNT
  else if s.pfw || stores == 0 || mask == 0 || s.on CIS.CIS_STAT_LOG_FULL || s.cis.clear.isSome then
    (s.lost 0x08 0x400 4 m).bump CIS.CIS_CNT_CLEAR_REFUSED_CNT
  else if s.cis.flush.isSome then s.setCis { s.cis with clear := some (stores, mask) }
  else s.cisErase stores mask

/-- A committed CIS_CMD (R411): 1 FLUSH, 2 CLEAR; another value counts as ACCESS with cause 7 (R467). -/
def State.cisCmd (s : State) (v m : Nat) : State :=
  if v = 1 then s.cisFlush else if v = 2 then s.cisClear m else s.badAccess 0x08 0x400 7 m


end Sys2Proof.Machine
end

