-- ==== Sys2Proof/Machine/SeqOps.lean ====
section
/-! DEFINITION. The logic sequencers: task states, faults and aborts, freezes, scheduling, the instruction cycle, the
post at END, CALs, the start-up and error tasks, program banks and activation (R84 to R121). -/

namespace Sys2Proof.Machine

/-- The tasks of an image that are present. -/
def State.presentTasks (s : State) (q : Nat) : List Nat := (List.range 10).filter (fun t => (s.imgTask q t).present)

/-- The schedule of sequencer `q` runs (SEQ_STAT.SCHED_RUN). -/
def State.schedRun (s : State) (q : Nat) : Bool := s.on (LSQ.SEQ_STAT_SCHED_RUN q)

/-- The producer instance of a task's outputs: 16 × sequencer + task (R18). -/
def taskId (q t : Nat) : Nat := 16 * q + t

/-- The shortest cyclic cycle time of sequencer `q` in ms; 0 without a cyclic task. -/
def State.shortestMs (s : State) (q : Nat) : Nat :=
  (((List.range 8).filter (fun t => (s.imgTask q t).present)).map (fun t => (s.imgTask q t).cycleMs)).min?.getD 0

/-- The tasks of sequencer `q` whose cycle is open. -/
def State.openTasks (s : State) (q : Nat) : List Nat := (List.range 9).filter (fun t => (s.task q t).isOpen)

/-- Trigger the error task (R107): cause bit, its task and station; it waits for the end of the cycles of the tasks in `wait`. -/
def State.triggerErr (s : State) (q bit task : Nat) (station : Option Nat) (wait : List Nat) : State :=
  let v := s.seqOf q
  if v.errDead || !(s.imgTask q 9).present then s
  else s.setSeq q { v with
    errPend := setBit v.errPend bit true
    errTask := task
    errStation := station.getD v.errStation
    errBlock := v.errBlock ++ wait.filter (fun t => !v.errBlock.contains t) }

/-- The outputs of task `t` keep their values and carry LATE (R92). -/
def State.holdLate (s : State) (q t : Nat) : State := s.lateSlots 6 (taskId q t) (s.imgTask q t).outputs

/-! ### Scheduling (R90) -/

/-- The rank of a task: error task, start-up task, then cyclic priorities (R90, R470). -/
def State.rank (s : State) (q t : Nat) : Nat :=
  if t = 9 then 0 else if t = 8 then 1 else 2 + (s.imgTask q t).prio

/-- A task may execute. -/
def runnable (st : Nat) : Bool := st == tkREADY || st == tkRUN || st == tkPREEMPT

/-- The better ranked of two tasks. -/
def State.better (s : State) (q : Nat) (a : Option Nat) (t : Nat) : Option Nat :=
  match a with
  | none => some t
  | some b => if s.rank q t < s.rank q b then some t else some b

/-- The highest-ranked task that may execute. -/
def State.pick (s : State) (q : Nat) : Option Nat :=
  ((List.range 10).filter (fun t => runnable (s.taskSt q t))).foldl (s.better q) none

/-- Every executing task other than `keep` is preempted. -/
def State.preemptOthers (s : State) (q : Nat) (keep : Option Nat) : List Nat → State
  | [] => s
  | t :: l =>
    (if s.taskSt q t = tkRUN ∧ keep ≠ some t then s.setTaskSt q t tkPREEMPT else s).preemptOthers q keep l

/-- The highest-ranked ready task executes, preempting the others (R90). -/
def State.dispatch (s : State) (q : Nat) : State :=
  let p := s.pick q
  let s := s.preemptOthers q p (List.range 10)
  match p with
  | none => s.put (LSQ.SEQ_STAT_RUNNING q) 15
  | some t => (s.setTaskSt q t tkRUN).put (LSQ.SEQ_STAT_RUNNING q) t

/-! ### Faults and aborts (R94, R96) -/

/-- The end of a cycle of task `t` without a post, for any reason: nothing frozen, no CAL awaited. -/
def State.dropCycle (s : State) (q t : Nat) : State :=
  let v := s.seqOf q
  let r := v.task t
  s.setSeq q { v.setTask t { r with isOpen := false, due := false, stack := [], cal := none } with
    errBlock := v.errBlock.filter (· != t) }

/-- The start-up task has failed: no cyclic task starts, and PG_STAT.FAULT is set (R106). -/
def State.startFail (s : State) (q : Nat) : State :=
  s.setSeq q { s.seqOf q with startFailed := true, startSince := none, cyclicOn := false }

/-- A task goes to FAULT (R94). -/
def State.taskFault (s : State) (q t cause : Nat) : State :=
  let safety := (s.imgTask q t).safety
  let s := (s.setTaskSt q t tkFAULT).put (LSQ.TASK_STAT_FAULT_CAUSE q t) cause
  let s := (s.bump (LSQ.TASK_ERR_FAULT_CNT q t)).holdLate q t
  let s := s.dropCycle q t
  let s := if t = 9 then s.setSeq q { s.seqOf q with errDead := true } else s.triggerErr q 4 t none []
  let s := if t = 8 then s.startFail q else s
  let s := s.dispatch q
  if safety then s.voteFault q t else s

/-- A task is stopped by an abort (R96): no post, its CAL cancelled, IDLE until TASK_RESUME. A cycle in hand misses its update: LATE
(R18). -/
def State.taskAbort (s : State) (q t : Nat) : State :=
  if !(s.imgTask q t).present ∨ s.taskSt q t = tkFAULT then s
  else
    let s := (if (s.task q t).isOpen then s.holdLate q t else s).dropCycle q t
    let s := (s.setTaskSt q t tkIDLE).setTask q t { s.task q t with stopped := true }
    let s := if t = 8 ∧ ((s.seqOf q).startPend ∨ (s.seqOf q).startSince.isSome) then s.startFail q else s
    s.dispatch q

/-- Abort the tasks in `l`. -/
def State.abortTasks (s : State) (q : Nat) : List Nat → State
  | [] => s
  | t :: l => (s.taskAbort q t).abortTasks q l

/-! ### Cycles (R87, R88, R92, R93) -/

/-- A tick boundary at vessel time `b` begins a cycle of task `t` (R87). -/
def State.onGrid (s : State) (q t : Nat) (b : BitVec 64) : Bool :=
  let i := s.imgTask q t
  i.cycleMs != 0 && b.toNat % (i.cycleMs * 1000000) == i.phase * 100000 % (i.cycleMs * 1000000)

/-- A cycle boundary passes a frozen cycle (R92, R93): a second overrun of the same cycle, or one in the cycle after a cycle that
overran, is a fault. -/
def State.overrun (s : State) (q t : Nat) : State :=
  let r := s.task q t
  let s := s.setTask q t { r with consec := r.consec + 1, overran := true }
  let s := ((s.bump (LSQ.TASK_ERR_OVERRUN_CNT q t)).put (LSQ.TASK_STAT_OVERRAN_LAST q t) 1).holdLate q t
  let s := s.triggerErr q 2 t none [t]
  if 2 ≤ r.consec + 1 then s.taskFault q t 6 else s

/-- The boundary of the present tick begins a cycle of cyclic task `t`, if it lies on the task's grid and has not been
seen yet (R74, R87). -/
def State.cycleBoundary (s : State) (q t : Nat) : State :=
  let r := s.task q t
  let n := s.tku.ticks
  if !s.schedRun q || !(s.seqOf q).cyclicOn || !(s.imgTask q t).present || decide (8 ≤ t) || !s.onGrid q t s.tku.grid ||
    r.lastBoundary == some n then s
  else
    let s := s.setTask q t { r with lastBoundary := some n }
    if r.isOpen then s.overrun q t
    else if s.taskSt q t = tkWAIT then
      (s.put (LSQ.TASK_STAT_OVERRAN_LAST q t) 0).setTask q t
        { r with lastBoundary := some n, due := true, tc := s.tku.base, consec := if r.overran then r.consec else 0 }
    else s

/-- STATION_LOST bits of sequencer `q` (R97). -/
def State.lostBits (s : State) (q : Nat) : Nat :=
  ((List.range 16).map (fun i => b2n (s.get (LSQ.STN_STAT_STATE q i) == 3) * 2 ^ i)).sum

/-- The X word of a task as at freeze (R97). -/
def State.xWord (s : State) (q t : Nat) (r : TaskRt) : Word :=
  let lost := s.lostBits q
  BitVec.ofNat 32 (b2n (r.first && decide (t < 8)) + 2 * b2n r.takeover + 4 * b2n r.overran + 16 * b2n (lost != 0)
    + 64 * b2n (s.on TKU.SYNC_STAT_TIME_VALID) + 128 * b2n s.inBand + 65536 * lost)

/-- Freeze task `t` (R88, R470): the input list is copied, and the task becomes READY at its entry with an accumulator
that the manual leaves open. -/
def State.freeze (s : State) (q t : Nat) : State :=
  let i := s.imgTask q t
  let (s, a) := s.free
  let r := s.task q t
  let x := s.xWord q t r
  let s := s.setTask q t { r with
    acc := a % 2 == 1, pc := i.entry, stack := [], inImg := i.inputs.map (fun n => (n, s.slotView n)), x := x,
    calFail := false, frozenAt := s.mono, due := false, isOpen := true, overran := false, first := false,
    takeover := false }
  s.setTaskSt q t tkREADY

/-- Freeze the tasks in `l`, in order. -/
def State.freezeAll (s : State) (q : Nat) : List Nat → State
  | [] => s
  | t :: l => (s.freeze q t).freezeAll q l

/-- The error task runs at this snapshot instant (R107). -/
def State.errReady (s : State) (q : Nat) : Bool :=
  let v := s.seqOf q
  v.errPend != 0 && v.errBlock.isEmpty && !v.errDead && (s.imgTask q 9).present && !(v.task 9).isOpen &&
    s.taskSt q 9 == tkWAIT && decide (v.errNext ≤ s.mono)

/-- The error task takes its pending causes (R107). -/
def State.errTake (s : State) (q : Nat) : State :=
  let v := s.seqOf q
  let s := s.wr (LSQ.ERR_CAUSE_STN_LOST q).key
    (BitVec.ofNat 32 (v.errPend.toNat % 128 + v.errTask % 16 * 256 + v.errStation % 64 * 65536))
  let s := s.setSeq q { v with errPend := 0, errNext := s.mono + ms (s.shortestMs q) }
  s.setTask q 9 { s.task q 9 with tc := s.tku.base }

/-- The cyclic tasks whose freeze is due, by priority (R470). -/
def State.dueTasks (s : State) (q : Nat) : List Nat :=
  ((List.range 8).flatMap (fun p => (List.range 8).filter (fun t =>
    (s.imgTask q t).present && (s.imgTask q t).prio == p && (s.task q t).due)))

/-- The freezes of sequencer `q` at a snapshot instant (R470): error task, start-up task, then by priority; none runs
while the schedule does not. -/
def State.seqSnapshot (s : State) (q : Nat) : State :=
  if !s.schedRun q then s
  else
    let e := s.errReady q
    let s := if e then (s.errTake q).freeze q 9 else s
    let v := s.seqOf q
    let su := v.startPend && s.taskSt q 8 == tkWAIT
    let s := if su then (s.setSeq q { v with startPend := false, startSince := some s.mono }).setTask q 8
      { v.task 8 with tc := s.tku.base } else s
    let s := if su then s.freeze q 8 else s
    (s.freezeAll q (s.dueTasks q)).dispatch q

/-- The snapshot instant on the sequencers in `l`. -/
def State.seqSnapshots (s : State) : List Nat → State
  | [] => s
  | q :: t => (s.seqSnapshot q).seqSnapshots t

/-! ### The schedule (R106) -/

/-- Set the states of the tasks in `l`: present ones to WAIT, absent ones to IDLE. -/
def State.armTasks (s : State) (q : Nat) : List Nat → State
  | [] => s
  | t :: l =>
    let s := s.setTaskSt q t (if (s.imgTask q t).present then tkWAIT else tkIDLE)
    (((s.put (LSQ.TASK_STAT_FAULT_CAUSE q t) 0).put (LSQ.TASK_STAT_OVERRAN_LAST q t) 0).put
      (LSQ.TASK_CYCLES q t) 0).armTasks q l

/-- Reset the run-time state of the tasks in `l`. -/
def Seq.freshTasks (v : Seq) (takeover : Bool) : List Nat → Seq
  | [] => v
  | t :: l => (v.setTask t { TaskRt.blank with takeover := takeover, first := !takeover }).freshTasks takeover l

/-- The schedule of sequencer `q` starts (R106): with a start-up task the cyclic tasks wait for it, except after a
takeover restore. DESIGN CHOICE (assumption 37): the TAKEOVER cause of R107 arises at this start. -/
def State.schedStart (s : State) (q : Nat) (takeover : Bool) : State :=
  if (s.image q).isNone || !s.enabled (0x14 + q) || (s.seqOf q).halted then s
  else
    let su := (s.imgTask q 8).present && !takeover
    let v := (s.seqOf q).freshTasks takeover (List.range 10)
    let s := s.setSeq q { v with startPend := su, cyclicOn := !su, startSince := none, errPend := 0, errBlock := [] }
    let s := (s.put (LSQ.SEQ_STAT_SCHED_RUN q) 1).armTasks q (List.range 10)
    if takeover then s.triggerErr q 6 15 none (s.openTasks q) else s

/-- The schedule stops: every task is IDLE. -/
def State.schedStop (s : State) (q : Nat) : State :=
  if !s.schedRun q then s
  else
    let s := s.abortTasks q (List.range 10)
    (s.put (LSQ.SEQ_STAT_SCHED_RUN q) 0).put (LSQ.SEQ_STAT_RUNNING q) 15

/-- The schedules of the sequencers in `l` start. -/
def State.schedStarts (s : State) (takeover : Bool) : List Nat → State
  | [] => s
  | q :: l => (s.schedStart q takeover).schedStarts takeover l

/-- The schedules of the sequencers in `l` stop. -/
def State.schedStops (s : State) : List Nat → State
  | [] => s
  | q :: l => (s.schedStop q).schedStops l

/-! ### The instruction cycle (R98) -/

/-- The end of task `t`'s code: the next higher ENTRY of any present task, or the end of the code (R121). -/
def State.codeEnd (s : State) (q t : Nat) : Nat :=
  match s.image q with
  | none => 0
  | some i =>
    let e := (i.task t).entry
    (((List.range 10).filter (fun k => (i.task k).present && decide (e < (i.task k).entry))).map
      (fun k => (i.task k).entry)).min?.getD i.code.length

/-- What an instruction does to its task: go on with the next one, jump, wait for a function block, or fault. -/
inductive IlResult
  | next (s : State)
  | jump (s : State) (target : Nat)
  | fault (cause : Nat)

/-- An abort of task `t` of sequencer `q` is under way (R96). -/
def State.taskAborting (s : State) (q t : Nat) : Bool := s.aborts.any (fun e => e.1 == (0x14 + q) * 4096 + t)

/-- The task that sequencer `q` executes now; none while an abort of it is under way (R96). -/
def State.ilTask (s : State) (q : Nat) : Option Nat :=
  let t := s.get (LSQ.SEQ_STAT_RUNNING q)
  if 10 ≤ t ∨ (s.task q t).isOpen = false ∨ s.taskAborting q t = true then none else some t

/-- Execute one instruction on the running task of sequencer `q`: it advances to the next instruction, jumps forward
within its code, or faults (R94, R98); a task that waits for a function block goes past its code only on the return. Without a
running task nothing happens. -/
def State.il (s : State) (q : Nat) (f : State → Nat → IlResult) : State :=
  match s.ilTask q with
  | none => s
  | some t =>
    match f s t with
    | .fault c => s.taskFault q t c
    | .next s' =>
      let r := s'.task q t
      if r.pc + 1 < s'.codeEnd q t ∨ s'.taskSt q t = tkCAL then s'.setTask q t { r with pc := r.pc + 1 } else s'.taskFault q t 5
    | .jump s' n =>
      let r := s'.task q t
      if r.pc < n ∧ n < s'.codeEnd q t then s'.setTask q t { r with pc := n } else s'.taskFault q t 5

/-- Set the accumulator. -/
def State.setAcc (s : State) (q t : Nat) (x : Bool) : State := s.setTask q t { s.task q t with acc := x }

/-- An instruction that combines the accumulator with a bit operand. -/
def ilCombine (q : Nat) (o : BitVec 24) (g : Bool → Bool → Bool) (s : State) (t : Nat) : IlResult :=
  match s.readBit q t o with
  | .error c => .fault c
  | .ok x => .next (s.setAcc q t (g (s.task q t).acc x))

/-- An instruction that writes a bit operand: `g` of the accumulator gives the new bit, or none to leave it. -/
def ilStore (q : Nat) (o : BitVec 24) (g : Bool → Option Bool) (s : State) (t : Nat) : IlResult :=
  let c := s.storeCause q t o
  if c ≠ 0 then .fault c
  else match g (s.task q t).acc with
    | none => .next s
    | some x => .next (s.writeBit q o x)

/-- Push the accumulator with a kind; the 17th push faults (R94). -/
def State.push (s : State) (q t : Nat) (k : SKind) : Option State :=
  let r := s.task q t
  if 16 ≤ r.stack.length then none else some (s.setTask q t { r with stack := (r.acc, k) :: r.stack })

/-- An instruction that pushes the accumulator and loads an operand. -/
def ilParen (q : Nat) (o : BitVec 24) (k : SKind) (g : Bool → Bool) (s : State) (t : Nat) : IlResult :=
  match s.readBit q t o with
  | .error c => .fault c
  | .ok x => match s.push q t k with
    | none => .fault 3
    | some s => .next (s.setAcc q t (g x))

/-- The operation of a stack kind. -/
def SKind.op (k : SKind) (a b : Bool) : Bool :=
  match k with | .kand => a && b | .kor => a || b | .kxor => xor a b | .dash => b

/-- The instruction `)`. -/
def ilClose (q : Nat) (s : State) (t : Nat) : IlResult :=
  let r := s.task q t
  match r.stack with
  | [] => .fault 4
  | (_, .dash) :: _ => .fault 4
  | (a, k) :: rest => .next (s.setTask q t { r with acc := k.op a r.acc, stack := rest })

/-- MRD and MPP: the top entry, of kind –, gives the accumulator; `pop` drops it. -/
def ilTop (q : Nat) (pop : Bool) (s : State) (t : Nat) : IlResult :=
  let r := s.task q t
  match r.stack with
  | (a, .dash) :: rest => .next (s.setTask q t { r with acc := a, stack := if pop then rest else r.stack })
  | _ => .fault 4

/-- A word operand that must be 0 (NOP, NOT, `)`, MPS, MRD, MPP, END). -/
def ilNoOperand (o : BitVec 24) (f : State → Nat → IlResult) (s : State) (t : Nat) : IlResult :=
  if o ≠ 0 then .fault 1 else f s t

/-- An object index in [12:0], with [23:13] = 0 (R98). -/
def ilObject (o : BitVec 24) (f : Nat → State → Nat → IlResult) (s : State) (t : Nat) : IlResult :=
  if 8192 ≤ o.toNat then .fault 1 else f o.toNat s t

/-- A jump target in [17:0], with [23:18] = 0 (R98), taken if `g` of the accumulator holds. -/
def ilJump (q : Nat) (o : BitVec 24) (g : Bool → Bool) (s : State) (t : Nat) : IlResult :=
  if 2 ^ 18 ≤ o.toNat then .fault 1
  else if g (s.task q t).acc then .jump s o.toNat
  else if o.toNat ≤ (s.task q t).pc ∨ s.codeEnd q t ≤ o.toNat then .fault 5
  else .next s

/-! ### Edge detectors, timers and counters (R99 to R103) -/

/-- An edge detector: `fall` looks for a falling edge. The first evaluation reports none (R103). -/
def ilEdge (q : Nat) (fall : Bool) (n : Nat) (s : State) (t : Nat) : IlResult :=
  let v := s.seqOf q
  let r := v.task t
  match v.edges[n]? with
  | none => .fault 2
  | some e =>
    let p := if e.seen then e.prev else r.acc
    let x := if fall then !r.acc && p else r.acc && !p
    .next (s.setSeq q ({ v with edges := v.edges.set n ⟨r.acc, true⟩ }.setTask t { r with acc := x }))

/-- `t` has reached `d` on the vessel timescale. -/
def reached (t d : BitVec 64) : Bool := decide ((t - d).toNat < 2 ^ 63)

/-- One evaluation of a timer of type `ty` at reference time `tc`, preset `pt` ms, input `x` (R99, R100, R103). -/
def timerEval (ty : Nat) (tc : BitVec 64) (pt : Nat) (x : Bool) (m : Tmr) : Tmr :=
  let prev := if m.seen then m.inPrev else x
  let d := if m.running then m.d + BitVec.ofInt 64 (((pt : Int) - (m.pt : Int)) * 1000000) else m.d
  let due := reached tc d
  -- the End column
  let (run, q) :=
    if !m.running then (false, m.q)
    else if ty = 1 then (if x then (true, m.q) else (false, false))
    else if ty = 2 then (if x then (false, true) else if due then (false, false) else (true, true))
    else (if due then (false, false) else (true, true))
  -- the Start column
  let starts := !run && (if ty = 1 then x else if ty = 2 then prev && !x else !prev && x)
  let d := if starts then tc + BitVec.ofNat 64 (pt * 1000000) else d
  let run := run || starts
  let q :=
    if ty = 1 then (run && reached tc d)
    else if ty = 2 then (if x then true else if starts then true else q)
    else (if starts then true else q)
  ⟨pt, run, x, q, d, true⟩

/-- A timer instruction of type `ty` (R99). DESIGN CHOICE (assumption 37): an index within R85 that the image gives no descriptor is out of
range, cause 2 of R94; so for counters and edge detectors. -/
def ilTimer (q ty n : Nat) (s : State) (t : Nat) : IlResult :=
  let v := s.seqOf q
  let r := v.task t
  match v.timers[n]?, (s.image q).bind (fun i => i.timers[n]?) with
  | some m, some dsc =>
    if dsc.ty ≠ ty then .fault 7
    else
      match (match dsc.slot with
        | none => some dsc.pt
        | some n => (r.inImg.find? (fun e => e.1 == n)).map (fun e => e.2.value.toNat)) with
      | none => .fault 2
      | some pt =>
        let m' := timerEval ty r.tc pt r.acc m
        .next (s.setSeq q ({ v with timers := v.timers.set n m' }.setTask t { r with acc := m'.q }))
  | _, _ => .fault 2

/-- The counter instructions (R102): CTU, CTD, CRES, CLOAD. -/
inductive CtrOp
  | up | down | res | load
deriving DecidableEq, Repr

/-- What a counter instruction does before the outputs are stored (R102, R103). -/
def ctrAct (op : CtrOp) (x : Bool) (pv : Int) (c : Ctr) : Ctr :=
  match op with
  | .up => { c with cv := if c.seenU && x && !c.cuPrev then min (c.cv + 1) (2 ^ 31 - 1) else c.cv,
                    cuPrev := x, seenU := true }
  | .down => { c with cv := if c.seenD && x && !c.cdPrev then max (c.cv - 1) (-(2 ^ 31)) else c.cv,
                      cdPrev := x, seenD := true }
  | .res => { c with cv := if x then 0 else c.cv }
  | .load => { c with cv := if x then pv else c.cv }

/-- Store PV and the outputs QU and QD (R102). -/
def ctrStore (pv : Int) (c : Ctr) : Ctr := { c with pv := pv, qu := decide (pv ≤ c.cv), qd := decide (c.cv ≤ 0) }

/-- A counter instruction (R102). -/
def ilCounter (q : Nat) (op : CtrOp) (n : Nat) (s : State) (t : Nat) : IlResult :=
  let v := s.seqOf q
  let r := v.task t
  match v.counters[n]?, (s.image q).bind (fun i => i.counters[n]?) with
  | some c, some dsc =>
    match (match dsc.slot with
      | none => some dsc.pv.toInt
      | some n => (r.inImg.find? (fun e => e.1 == n)).map (fun e => e.2.value.toInt)) with
    | none => .fault 2
    | some pv =>
      let c' := ctrStore pv (ctrAct op r.acc pv c)
      let acc := match op with | .up => c'.qu | .down => c'.qd | _ => r.acc
      .next (s.setSeq q ({ v with counters := v.counters.set n c' }.setTask t { r with acc := acc }))
  | _, _ => .fault 2

/-! ### CAL (R104, R105) -/

/-- The cores that run the calls of sequencer `q`: both copies of its pair, or core `2 q` alone when that is split (R86) or its lock is
broken (R254). -/
def State.calCores (s : State) (q : Nat) : List Nat :=
  if s.on (SCP.PAIR_STAT_SPLIT q) || s.on (SCP.PAIR_STAT_LOCK_BROKEN q) then [2 * q] else [2 * q, 2 * q + 1]

/-- A call of function block `o`: the task enters CAL_WAIT, and the pair's cores receive the request. The addresses of the images are
free values: the address map gives them none. -/
def ilCal (q : Nat) (o : BitVec 24) (g : Bool → Bool) (s : State) (t : Nat) : IlResult :=
  if 65536 ≤ o.toNat then .fault 1
  else if !g (s.task q t).acc then .next s
  else match (s.image q).bind (fun i => i.fbs[o.toNat]?) with
    | none => .fault 2
    | some b =>
      let req : CalReq := ⟨o.toNat, t, Config.freeWord s.freshCtr |>.setWidth 32, Config.freeWord (s.freshCtr + 1) |>.setWidth 32,
        s.calCores q⟩
      let s := { s with freshCtr := s.freshCtr + 2 }
      .next (((s.setTask q t { s.task q t with calSince := s.mono, calBudget := b, cal := some req }).setTaskSt q t tkCAL).dispatch q)

/-- The task goes on after its call: past its code's last instruction it faults (R94). -/
def State.calGoesOn (s : State) (q t : Nat) : State :=
  if s.codeEnd q t ≤ (s.task q t).pc then s.taskFault q t 5 else s

/-- Apply a result list in order (R104); an entry outside the task's output list gives `none`. -/
def Seq.applyResults (v : Seq) (outs : List Nat) : List CalResult → Option Seq
  | [] => some v
  | .q n w :: l => if outs.contains n.toNat then (v.setOut n.toNat w).applyResults outs l else none
  | .m k w :: l => (v.setM k.toNat w).applyResults outs l

/-- A function block returns within its budget (R104). DESIGN CHOICE (assumption 37): a result list with a slot outside the task's output
list is not applied at all, and faults the task with cause 2 of R94. -/
def State.calReturn (s : State) (q t : Nat) (eno : Bool) (l : List CalResult) : State :=
  let v := s.seqOf q
  match v.applyResults (s.imgTask q t).outputs (l.take 64) with
  | none => s.taskFault q t 2
  | some v => (((s.setSeq q (v.setTask t { v.task t with acc := eno, cal := none })).setTaskSt q t tkREADY).dispatch q).calGoesOn q t

/-- A CAL fails (R105). -/
def State.calFailed (s : State) (q t : Nat) : State :=
  let r := s.task q t
  let s := (s.setTask q t { r with acc := false, calFail := true, cal := none }).bump (LSQ.TASK_ERR_CAL_FAIL_CNT q t)
  ((s.triggerErr q 3 t none [t]).setTaskSt q t tkREADY).dispatch q |>.calGoesOn q t

/-! ### The post at END (R88, R89, R112) -/

/-- The station entry of sequencer `q` that slot `n` is an output of, if it is enabled and LOST (R112). -/
def State.lostOutput (s : State) (n : Nat) : Bool :=
  (List.range 64).any (fun k =>
    let q := k / 16
    let i := k % 16
    s.on (LSQ.STN_CFG_EN q i) && s.get (LSQ.STN_STAT_STATE q i) == 3 &&
      decide (s.get (LSQ.STN_OUT_BASE q i) ≤ n ∧ n < s.get (LSQ.STN_OUT_BASE q i) + s.get (LSQ.STN_OUT_COUNT q i)))

/-- Post the output words of the slots in `l`: VALID 1, LATE 0, SAT 0, AGE 0. -/
def State.postOuts (s : State) (q t : Nat) : List Nat → State
  | [] => s
  | n :: l => (s.post n 6 (taskId q t) ((s.seqOf q).outWord n) true false false false 0).postOuts q t l

/-- The slots that task `t` posts: its output list without those bound to a lost station (R112). -/
def State.postedSlots (s : State) (q t : Nat) : List Nat := (s.imgTask q t).outputs.filter (fun n => !s.lostOutput n)

/-- END: the outputs are posted as one group and the task waits for its next boundary (R88); after the start-up task
the cyclic tasks may start (R106). -/
def State.taskEnd (s : State) (q t : Nat) : State :=
  let s := s.postOuts q t (s.postedSlots q t)
  let r := s.task q t
  let us := (s.mono - r.frozenAt) / 1000
  let s := s.putSat (LSQ.TASK_EXEC_LAST_US q t) us
  let s := s.put (LSQ.TASK_EXEC_MAX_US q t) (max (s.get (LSQ.TASK_EXEC_MAX_US q t)) (min us 0xFFFF))
  let s := (s.inc (LSQ.TASK_CYCLES q t)).put64 (LSQ.TASK_POST_LO q t) (LSQ.TASK_POST_HI q t) s.now
  let s := s.dropCycle q t
  let s := s.setTaskSt q t (if t = 8 then tkIDLE else tkWAIT)
  let s := if t = 8 then s.setSeq q { s.seqOf q with cyclicOn := true, startSince := none } else s
  s.dispatch q

/-! ### Program images (R91, R117, R121) -/

/-- Task table entry `t` of an image's bytes. -/
def imgEntry (l : List Byte) (body : ImageBody) (t : Nat) : ImgTask :=
  let o := 0x10 + 16 * t
  let f := setByteAt l (o + 2)
  { present := f.testBit 0, safety := f.testBit 1, cycleMs := setLEAt l o 2, prio := setByteAt l (o + 3)
    phase := setLEAt l (o + 4) 4, entry := setLEAt l (o + 8) 4, wcet := setLEAt l (o + 12) 4
    inputs := body.inputs.getD t [], outputs := body.outputs.getD t [] }

/-- The image that a program's bytes and body give. -/
def buildImage (l : List Byte) (body : ImageBody) : SeqImage :=
  ⟨BitVec.ofNat 32 (setLEAt l 0x0C 4), (List.range 10).map (imgEntry l body), body.code, body.timers, body.counters,
    body.edges, body.fbs, body.initial, body.retain⟩

/-- A cyclic task entry passes check 4 of R117. -/
def cyclicOk (i : SeqImage) (t : Nat) : Bool :=
  let e := i.task t
  decide (1 ≤ e.cycleMs ∧ e.cycleMs ≤ 10000) && decide (e.phase < 10 * e.cycleMs) && decide (e.prio ≤ 7) &&
    decide (e.entry < i.code.length) &&
    (List.range 8).all (fun k => k == t || !(i.task k).present || (i.task k).prio != e.prio)

/-- Check 4 of R117: format. -/
def imageFormatOk (l : List Byte) (body : ImageBody) : Bool :=
  let i := buildImage l body
  setLEAt l 6 2 == 0 && body.consistent &&
    (List.range 10).all (fun t => decide (setByteAt l (0x12 + 16 * t) < 4)) &&
    (List.range 8).all (fun t => !(i.task t).present || cyclicOk i t) &&
    [8, 9].all (fun t => !(i.task t).present || ((i.task t).cycleMs == 0 && (i.task t).phase == 0 && (i.task t).prio == 0)) &&
    (body.outputs.flatten).Nodup && body.initial.all (fun e => body.outputs.flatten.contains e.1)

/-- Check 5 of R117: sizes of R85. -/
def imageSizesOk (body : ImageBody) : Bool :=
  decide (body.code.length ≤ 262144) && decide (body.timers.length ≤ 2048) && decide (body.counters.length ≤ 1024) &&
    decide (body.edges ≤ 4096) && body.inputs.all (fun x => decide (x.length ≤ 1024)) &&
    body.outputs.all (fun x => decide (x.length ≤ 1024))

/-- The end of the code of task `t` of an image (R121). -/
def SeqImage.codeEnd (i : SeqImage) (t : Nat) : Nat :=
  (((List.range 10).filter (fun k => (i.task k).present && decide ((i.task t).entry < (i.task k).entry))).map
    (fun k => (i.task k).entry)).min?.getD i.code.length

/-- Check 6 of R117 for task `t`: every jump goes forward and stays within the task's code (R98). -/
def SeqImage.jumpOk (i : SeqImage) (t : Nat) : Bool :=
  let e := (i.task t).entry
  (List.range (i.codeEnd t - e)).all (fun k =>
    let w := (i.code.getD (e + k) 0).toNat
    let op := w / 2 ^ 26
    !(op == 0x30 || op == 0x31 || op == 0x32) ||
      (decide (e + k < w % 2 ^ 24) && decide (w % 2 ^ 24 < i.codeEnd t)))

/-- Utilisation U as a fraction `num / den` (R91): WCET is in clock cycles of 5 ns and C in ms; the error task counts
with the shortest cyclic cycle time. -/
def SeqImage.util (i : SeqImage) : Nat × Nat :=
  let cyc := ((List.range 8).filter (fun t => (i.task t).present)).map (fun t => i.task t)
  let short := (cyc.map (fun e => e.cycleMs)).min?.getD 0
  let terms := (cyc.map (fun e => (e.wcet, e.cycleMs))) ++ (if (i.task 9).present && short != 0 then [((i.task 9).wcet, short)] else [])
  let den := terms.foldl (fun d e => d * e.2) 1
  ((terms.map (fun e => e.1 * 5 * (den / e.2))).sum, den * 1000000)

/-- The first failed check of R117; 0 for none. The utilisation check takes the clock of R417; R91 counts cycles of 5 ns, the
clock at 200 MHz. -/
def State.imageErr (s : State) (q : Nat) (l : List Byte) (body : ImageBody) : Nat :=
  let n := l.length
  let i := buildImage l body
  if n < 0x0D0 + 96 ∨ setLEAt l 0 4 ≠ 0x4C535149 ∨ setLEAt l 4 2 ≠ 1 ∨ setLEAt l 8 4 ≠ n then 2
  else if !Config.ecdsaP384 l then 1
  else if setLEAt l 0x0C 4 ≠ (crc32 ((l.take (n - 96)).drop 0x10)).toNat then 7
  else if !imageFormatOk l body then 2
  else if !imageSizesOk body then 3
  else if !((List.range 10).all (fun t => !(i.task t).present || i.jumpOk t)) then 4
  else if s.on (LSQ.SEQ_STAT_PAIR_SPLIT q) && (List.range 10).any (fun t => (i.task t).present && (i.task t).safety) then 6
  else if decide (2000 * i.util.1 > 8 * s.admMHz (4 + q) * i.util.2) then 5
  else 0

/-- A program load ends (R117): the inactive bank is valid or failed. DESIGN CHOICE (assumption 37): UTIL, in 0.01 %, is rounded up. -/
def State.loadDone (s : State) (q : Nat) (l : List Byte) (body : ImageBody) : State :=
  let e := s.imageErr q l body
  let i := buildImage l body
  let s := (s.put (LSQ.PROG_STAT_LOAD_ERR q) e).put (LSQ.PROG_STAT_INACTIVE q) (if e = 0 then 1 else 2)
  if e = 0 then
    let s := s.put (LSQ.UTIL_UTIL q) (min ((10000 * i.util.1 + i.util.2 - 1) / max i.util.2 1) 0xFFFF)
    (s.put (LSQ.PROG_ID_INACTIVE q) i.progId.toNat).setSpare q (some i)
  else (s.put (LSQ.PROG_ID_INACTIVE q) 0).setSpare q none

/-! ### Activation (R118, R119) -/

/-- An instruction of `op`, operand `o`, uses object `n` of `cls`: 0 timer, 1 counter, 2 edge detector (R97, R98). -/
def usesObject (cls op o n : Nat) : Bool :=
  let bitOp := decide (1 ≤ op ∧ op ≤ 0x15) && op != 0x0E
  if cls = 0 then (decide (0x24 ≤ op ∧ op ≤ 0x26) && o == n) || (bitOp && o / 2 ^ 21 == 4 && o % 2 ^ 18 == n)
  else if cls = 1 then (decide (0x28 ≤ op ∧ op ≤ 0x2B) && o == n) || (bitOp && o / 2 ^ 21 == 5 && o % 1024 == n)
  else decide (0x20 ≤ op ∧ op ≤ 0x21) && o == n

/-- The code of task `t` of an image. -/
def SeqImage.codeOf (i : SeqImage) (t : Nat) : List Word := (i.code.take (i.codeEnd t)).drop (i.task t).entry

/-- The code `l` uses object `n` of class `cls`. -/
def codeUses (l : List Word) (cls n : Nat) : Bool := l.any (fun w => usesObject cls (w.toNat / 2 ^ 26) (w.toNat % 2 ^ 24) n)

/-- The objects that the code `l` uses are the same in two images. -/
def sameObjects (a b : SeqImage) (l : List Word) : Bool :=
  (List.range (max a.timers.length b.timers.length)).all (fun n => !codeUses l 0 n || a.timers[n]? == b.timers[n]?) &&
    (List.range (max a.counters.length b.counters.length)).all (fun n => !codeUses l 1 n || a.counters[n]? == b.counters[n]?) &&
    (List.range (max a.edges b.edges)).all (fun n => !codeUses l 2 n || decide (n < a.edges) == decide (n < b.edges))

/-- The safety tasks of two images have the same code, lists and objects (R118). -/
def sameSafety (a b : SeqImage) : Bool :=
  (List.range 10).all (fun t =>
    let x := a.task t
    let y := b.task t
    (!(x.present && x.safety) && !(y.present && y.safety)) ||
      (x.present == y.present && x.safety == y.safety && a.codeOf t == b.codeOf t && x.inputs == y.inputs && x.outputs == y.outputs &&
        sameObjects a b (a.codeOf t)))

/-- An output slot of image `i` has a producer that is not a task of sequencer `q` (R118). -/
def State.slotConflict (s : State) (q : Nat) (i : SeqImage) : Bool :=
  (List.range 10).any (fun t => (i.task t).present && (i.task t).outputs.any (fun n =>
    let r := (s.slotRaw n).tag
    tCLASS r != 0 && !(tCLASS r == 6 && tID r / 16 == q)))

/-- The blank timers, counters and edge detectors of an image. -/
def Tmr.blank : Tmr := ⟨0, false, false, false, 0, false⟩
/-- A new counter. -/
def Ctr.blank (pv : Int) : Ctr := ⟨0, pv, false, false, false, false, false, false⟩
/-- A new edge detector. -/
def Edg.blank : Edg := ⟨false, false⟩

/-- Carry the objects of the retention map over (R119). -/
def Seq.retain (old : Seq) : Seq → List RetainEntry → Seq
  | v, [] => v
  | v, e :: l =>
    old.retain (match e.cls with
      | 0 => match old.timers[e.old]? with | some x => { v with timers := v.timers.set e.new x } | none => v
      | 1 => match old.counters[e.old]? with | some x => { v with counters := v.counters.set e.new x } | none => v
      | _ => match old.edges[e.old]? with | some x => { v with edges := v.edges.set e.new x } | none => v) l

/-- The slots of the output lists of an image. -/
def SeqImage.outs (i : SeqImage) : List Nat :=
  (List.range 10).flatMap (fun t => if (i.task t).present then (i.task t).outputs else [])

/-- Make the tasks of image `i` the producers of their slots. -/
def State.claimOuts (s : State) (q : Nat) (i : SeqImage) : List Nat → State
  | [] => s
  | t :: l =>
    let outs := if (i.task t).present then (i.task t).outputs else []
    (outs.foldl (fun s n => s.claim n 6 (taskId q t)) s).claimOuts q i l

/-- Slots no longer in any output list become SRC_CLASS 0 (R119). -/
def State.freeSlots (s : State) : List Nat → State
  | [] => s
  | n :: l => (s.freeSlot n).freeSlots l

/-- Show the task table of the active image in the task registers (R122). -/
def State.showTasks (s : State) (q : Nat) (i : SeqImage) : List Nat → State
  | [] => s
  | t :: l =>
    let e := i.task t
    let p := e.present
    let s := (s.put (LSQ.TASK_CFG_CYCLE_MS q t) (if p then e.cycleMs else 0)).putB (LSQ.TASK_CFG_PRESENT q t) p
    let s := (s.put (LSQ.TASK_CFG_PRIORITY q t) (if p then e.prio else 0)).putB (LSQ.TASK_CFG_SAFETY q t) (p && e.safety)
    ((s.put (LSQ.TASK_PHASE q t) (if p then e.phase else 0)).put (LSQ.TASK_WCET q t) (if p then e.wcet else 0)).showTasks q i l

/-- The initial output words of the slots in `outs`; slots kept in an output list keep theirs (R89, R119). -/
def Seq.initOuts (v : Seq) (i : SeqImage) (kept : List Nat) : List Nat → Seq
  | [] => v
  | n :: l =>
    (if kept.contains n then v
     else v.setOut n (((i.initial.find? (fun e => e.1 == n)).map (·.2)).getD 0)).initOuts i kept l

/-- A task that waits, or that the new image adds, is ready for its next boundary. -/
def State.rearm (s : State) (q : Nat) (i : SeqImage) : List Nat → State
  | [] => s
  | t :: l =>
    let st := s.taskSt q t
    let s := if !(i.task t).present then (s.setTaskSt q t tkIDLE).setTask q t TaskRt.blank
      else if st = tkIDLE ∧ !(s.task q t).stopped ∧ t ≠ 8 then s.setTaskSt q t tkWAIT else s
    let s := s.setTask q t { s.task q t with first := false }
    s.rearm q i l

/-- Cancel the force of entry `f` by an on-line change (R120). -/
def State.cancelForce (s : State) (q f : Nat) : State :=
  let s := { s with forces := s.forces.filter (fun e => e.1 != f) }
  let s := ((s.put (LSQ.FORCE_STAT_ACTIVE 0 f) 0).put (LSQ.FORCE_STAT_CANCELLED 0 f) 1).bump (LSQ.FORCE_CANCEL_CNT 0)
  s.triggerErr q 5 15 none (s.openTasks q)

/-- Cancel the forces of the entries in `l`. -/
def State.cancelForces (s : State) (q : Nat) : List Nat → State
  | [] => s
  | f :: l => (s.cancelForce q f).cancelForces q l

/-- The forces that a change of the producers of slots cancels (R120): a slot force on a slot in `gone`, which is SRC_CLASS 0 from
the change on, and a force on an output channel whose bound slot is in `gone` (the channel is no longer configured to an output) or in
`moved` (it is reassigned to another task). -/
def State.forcesOn (s : State) (gone moved : List Nat) : List Nat :=
  (s.forces.filter (fun e =>
    if e.2.channel then isOut (s.chType e.2.target) &&
      (gone.contains (s.chSlot e.2.target) || moved.contains (s.chSlot e.2.target))
    else gone.contains e.2.target)).map (·.1)

/-- The task of an image whose output list holds slot `n`. -/
def SeqImage.taskOf (i : SeqImage) (n : Nat) : Option Nat :=
  (List.range 10).find? (fun t => (i.task t).present && (i.task t).outputs.contains n)

/-- Switch banks (R118 to R120): state carried over by the retention map, slots dropped by the change freed, forces on
them cancelled. `online` is false for an activation while the schedule does not run. -/
def State.activate (s : State) (q : Nat) (online : Bool) : State :=
  match s.spare q with
  | none => s
  | some i =>
    let old := s.seqOf q
    let oldOuts := match s.image q with | some o => o.outs | none => []
    let newOuts := i.outs
    let fresh : Seq := { old with
      timers := i.timers.map (fun _ => Tmr.blank), counters := i.counters.map (fun c => Ctr.blank c.pv.toInt),
      edges := List.replicate i.edges Edg.blank, actSince := none }
    let v := (old.retain fresh i.retain).initOuts i (oldOuts.filter newOuts.contains) newOuts
    let s := s.setSeq q v
    let s := s.putB (LSQ.SEQ_STAT_ACT_BANK q) (!s.on (LSQ.SEQ_STAT_ACT_BANK q))
    let gone := oldOuts.filter (fun n => !newOuts.contains n)
    let moved := match s.image q with
      | some o => oldOuts.filter (fun n => newOuts.contains n && o.taskOf n != i.taskOf n) | none => []
    let cancel := s.forcesOn gone moved
    let s := (s.freeSlots gone).claimOuts q i (List.range 10)
    let s := s.showTasks q i (List.range 10)
    let s := s.put (LSQ.PROG_ID_INACTIVE q) (s.get (LSQ.PROG_ID_ACTIVE q))
    let s := s.put (LSQ.PROG_ID_ACTIVE q) i.progId.toNat
    let s := s.put (LSQ.PROG_STAT_INACTIVE q) (if (s.spare q).isSome then 1 else 0)
    let s := (s.put (LSQ.SEQ_STAT_ACT_PENDING q) 0).put (LSQ.PROG_STAT_ACT_RESULT q) 1
    let s := s.put64 (LSQ.ACT_TIME_LO q) (LSQ.ACT_TIME_HI q) s.now
    let s := if online then s.rearm q i (List.range 10) else s
    s.cancelForces q cancel

/-- A quiet tick: no task of the sequencer is between freeze and post (R118). -/
def State.quiet (s : State) (q : Nat) : Bool := (List.range 10).all (fun t => !(s.task q t).isOpen)

/-! ### Steps (R74) and objects as shown (R122) -/

/-- The deadlines of running timers move by `d` at a time step, and with them the reference times of the cycles in progress, so that
elapsed time is measured unaltered (DEDUCED, assumption 39). -/
def Seq.shift (v : Seq) (d : BitVec 64) : Seq :=
  { v with timers := v.timers.map (fun m => if m.running then { m with d := m.d + d } else m)
           tasks := mapMap (fun _ => TaskRt.blank) (fun _ r => if r.isOpen || r.due then { r with tc := r.tc + d } else r) v.tasks }

/-- The deadlines of every sequencer move by `d`. -/
def State.shiftSeqs (s : State) (d : BitVec 64) : State :=
  { s with seqs := mapMap (fun _ => Seq.blank) (fun _ v => v.shift d) s.seqs }

/-- OBJ_W0 to OBJ_W2 of the object selected in OBJ_SEL (R122): words 0 and 1, and the 64-bit word 2. -/
def State.objWords (s : State) (q : Nat) : Nat × Nat × Nat :=
  let v := s.seqOf q
  let n := s.get (LSQ.OBJ_SEL_INDEX q)
  match s.get (LSQ.OBJ_SEL_CLASS q) with
  | 0 => match v.timers[n]? with
    | none => (0, 0, 0)
    | some m =>
      let dsc := ((s.image q).bind (fun i => i.timers[n]?)).getD ⟨0, 0, none⟩
      (b2n m.q + 2 * b2n m.running + 4 * b2n m.inPrev + 16 * dsc.ty,
       if m.seen || dsc.slot.isSome then m.pt else dsc.pt, m.d.toNat)
  | 1 => match v.counters[n]? with
    | none => (0, 0, 0)
    | some c => (b2n c.qu + 2 * b2n c.qd + 4 * b2n c.cuPrev + 8 * b2n c.cdPrev, ux 32 c.pv, ux 32 c.cv)
  | _ => match v.edges[n]? with
    | none => (0, 0, 0)
    | some e => (b2n e.prev + 2 * b2n e.seen, 0, 0)

end Sys2Proof.Machine
end

