-- ==== Sys2Proof/Machine/MplOps.lean ====
section
/-! DEFINITION. The margin planner (R412 to R421): monitors, learning, clock grades, the hold-up threshold, recalibration and
maintenance demands. -/

namespace Sys2Proof.Machine

/-! ### Monitors (R412) -/

/-- What the planner keeps of monitor `m`. -/
def State.mon (s : State) (m : Nat) : Mon := mapGet (fun _ => Mon.blank) s.mpl.mons m

/-- Set what the planner keeps of monitor `m`. -/
def State.setMon (s : State) (m : Nat) (v : Mon) : State :=
  { s with mpl := { s.mpl with mons := mapSet (fun _ => Mon.blank) s.mpl.mons m v } }

/-- Smaller values of monitor `m` are worse. -/
def lowWorse (m : Nat) : Bool := decide (m < 10) || m == 27 || (decide (44 ≤ m) && decide (m < 72))

/-- The limit of monitor `m` (R412), as a fraction. -/
def State.monLimit (s : State) (m : Nat) : Int × Nat :=
  if m < 10 then (10000, max (s.clkMHz m) 1)
  else if m < 27 then (500, 1)
  else if m = 27 then (521, 1)
  else if m < 40 then (1000, 1)
  else if m < 44 then (2 * (Config.factoryBase m).toInt, 1)
  else if m < 60 then ((Config.effLimit (m - 44)).toInt, 1)
  else if m < 72 then (64, 1)
  else if m = 72 then (1000, 1)
  else (219000, 1)

/-- MON_LIMIT as shown. -/
def State.monLimitShow (s : State) (m : Nat) : Nat :=
  let l := s.monLimit m
  if l.2 = 1 then ux 32 l.1 else quotShow l.1.toNat l.2

/-- The factory baseline of monitor `m` (R414), held in OTP. -/
def factoryOf (m : Nat) : Int := (Config.factoryBase m).toInt

/-- MON_BASE: the baseline in use (R414). -/
def State.monBase (s : State) (m : Nat) : Int := match (s.mon m).learned with | some v => v | none => factoryOf m

/-- The present value of monitor `m`. -/
def State.monVal (s : State) (m : Nat) : Int := sx 32 (s.get (MPL.MON_VAL m))

/-- The worse of two values of monitor `m`. -/
def worse (m : Nat) (a b : Int) : Int := if lowWorse m then min a b else max a b

/-- Value `v` has reached the limit of monitor `m`. -/
def State.atLimit (s : State) (m : Nat) (v : Int) : Bool :=
  let l := s.monLimit m
  if lowWorse m then decide (v * l.2 ≤ l.1) else decide (l.1 ≤ v * l.2)

/-! ### Demands (R420) -/

/-- The straight-line fit over the worst values `ys` of the last epochs, newest first: days to the limit as a fraction; none
with fewer than 7 epochs, or while the line does not approach the limit. The manual names a straight-line fit; least squares
is read into it. -/
def State.predict (s : State) (m : Nat) : Option (Nat × Nat) :=
  let ys := (s.mon m).worst
  let n : Int := ys.length
  if ys.length < 7 then none
  else
    let xs := (List.range ys.length).map (fun (k : Nat) => -(k : Int))
    let sx' := xs.sum
    let sxx := (xs.map (fun x => x * x)).sum
    let sy := ys.sum
    let sxy := ((xs.zip ys).map (fun p => p.1 * p.2)).sum
    let d := n * sxx - sx' * sx'
    let slope := n * sxy - sx' * sy
    let at0 := sy * sxx - sx' * sxy
    let l := s.monLimit m
    let gap := l.1 * d - at0 * l.2
    let slope := slope * l.2
    if lowWorse m then (if 0 ≤ gap then some (0, 1) else if slope < 0 then some (gap.natAbs, slope.natAbs) else none)
    else if gap ≤ 0 then some (0, 1) else if 0 < slope then some (gap.natAbs, slope.natAbs) else none

/-- The predicted time of monitor `m` is at most `days`. -/
def State.within (s : State) (m days : Nat) : Bool :=
  match s.predict m with | none => false | some (a, b) => decide (a ≤ days * b)

/-- PRED_DAYS (R420). -/
def State.predDays (s : State) (m : Nat) : Nat :=
  match s.predict m with | none => 0xFFFF | some (a, b) => min (quotShow a b) 0xFFFE

/-- The learned baseline of `m` lies more than half way from the factory baseline to the limit (R414). -/
def State.baseDue (s : State) (m : Nat) : Bool :=
  match (s.mon m).learned with
  | none => false
  | some v =>
    let l := s.monLimit m
    decide ((l.1 - factoryOf m * l.2).natAbs < 2 * (v - factoryOf m).natAbs * l.2)

/-- DEMAND of monitor `m` (R420). -/
def State.demand (s : State) (m : Nat) : Nat :=
  let bank := decide (10 ≤ m) && decide (m < 26)
  if (s.on (MPL.MON_STAT_VALID m) && s.atLimit m (s.monVal m)) || (bank && s.on (MPL.RECAL_TRIO_FAIL (m - 10))) then 3
  else if s.within m 30 || s.baseDue m || (decide (m < 10) && s.bit MPL.GRADE_STAT_BLOCKED m) ||
    (bank && s.get (MPL.RECAL_EXCLUDED (m - 10)) != 0) || s.mpl.failed.contains m then 2
  else if s.within m s.mpl.lead then 1 else 0

/-- The number of monitors at demand `d` (R422). -/
def State.demandCount (s : State) (d : Nat) : Nat := ((List.range 77).filter (fun m => s.demand m == d)).length

/-- Hold or release monitor `m` at DUE. -/
def State.setFailed (s : State) (m : Nat) (b : Bool) : State :=
  let l := s.mpl.failed.filter (· != m)
  { s with mpl := { s.mpl with failed := if b then l ++ [m] else l } }

/-! ### Clock grades (R415 to R417) -/

/-- The learned baseline is held: learning is complete. -/
def State.learnDone (s : State) : Bool := s.on MPL.MPL_STAT_BASELINE_OK

/-- Domain `d` qualifies for the next grade with the slack minimum `low` (R416). -/
def State.qualifies (s : State) (d : Nat) (low : Option Int) : Bool :=
  let g := s.get (CLO.DOM_STAT_GRADE d)
  let f : Int := s.clkMHz d
  let f' : Int := gradeMHz d (g + 1)
  match low with
  | none => false
  | some x => decide (g < maxGrade d) && !s.bit MPL.GRADE_STAT_PENDING d && decide (x * f < 50000) &&
      decide (50000 * f ≤ s.monVal d * f * f' + 1000000 * (f - f'))

/-- The first failed check of R416 for domain `d`; 0 for none. -/
def State.replanErr (s : State) (d : Nat) : Nat :=
  let g := s.get (CLO.DOM_STAT_GRADE d) + 1
  let f := gradeMHz d g
  if !(s.running && s.learnDone) then 7
  else if d < 8 && decide (s.get MPL.GRADE_FLOOR / 16 ^ d % 16 < g) then 5
  else if d = 8 && !(s.rateOk s.loopsEn f && s.densOk s.loopsEn f) then 2
  else if d = 9 && !(s.casRateOk s.casEnabled f && s.casDensOk s.casEnabled f && s.casOwnOk s.casEnabled f) then 3
  else if 4 ≤ d && d < 8 && (match s.image (d - 4) with
      | none => false | some i => decide (8 * f * i.util.2 < 2000 * i.util.1)) then 4
  else 0

/-- Evaluate domain `d` with the slack minimum `low` (R416): a lowering is pending, or the refusal is recorded. -/
def State.replan (s : State) (low : Option Int) (d : Nat) : State :=
  if !s.qualifies d low then s.setFailed d false
  else
    let g := s.get (CLO.DOM_STAT_GRADE d)
    let e := s.replanErr d
    let s := ((s.put MPL.LAST_REPLAN_DOMAIN d).put MPL.LAST_REPLAN_FROM g).put MPL.LAST_REPLAN_TO (g + 1)
    let s := (s.put MPL.LAST_REPLAN_RESULT e).setFailed d (decide (2 ≤ e ∧ e ≤ 5))
    if e ≠ 0 then s.bump MPL.MPL_CNT_REFUSE_CNT
    else
      let s := s.putBit MPL.GRADE_STAT_PENDING d true
      { s with mpl := { s.mpl with pend := mapIns d (s.mono, s.mono) (mapDel s.mpl.pend d) } }

/-- Evaluate every compute domain by the minimum of its last DAY epoch (R416). -/
def State.replanAll (s : State) : State :=
  (List.range 10).foldl (fun s d => s.replan (s.mon d).worst.head? d) s

/-- The wake controller applies the pending grade of domain `d` in a gap (R417). -/
def State.gradeApply (s : State) (d : Nat) : State :=
  if !s.bit MPL.GRADE_STAT_PENDING d then s
  else
    let g := s.get (CLO.DOM_STAT_GRADE d) + 1
    let s := (s.put (CLO.DOM_STAT_GRADE d) g).put (CLO.DOM_STAT_FREQ_MHZ d) (gradeMHz d g)
    let s := (s.putBit MPL.GRADE_STAT_PENDING d false).putBit MPL.GRADE_STAT_BLOCKED d false
    let s := if s.get MPL.LAST_REPLAN_DOMAIN = d then s.put MPL.LAST_REPLAN_RESULT 1 else s
    { s.bump MPL.MPL_CNT_GRADE_CNT with mpl := { s.mpl with pend := mapDel s.mpl.pend d } }

/-- A second without a gap for domain `d` (R417): the change is retried, and after 60 s BLOCKED is set. -/
def State.gradeRetry (s : State) (d : Nat) : State :=
  match s.mpl.pend.find? (fun e => e.1 == d) with
  | none => s
  | some (_, since, last) =>
    let s := s.untilMono (last + secs 1)
    let s := { s with mpl := { s.mpl with pend := mapIns d (since, s.mono) (mapDel s.mpl.pend d) } }
    if since + secs 60 ≤ s.mono then s.putBit MPL.GRADE_STAT_BLOCKED d true else s

/-! ### The hold-up threshold (R379, R418) -/

/-- The first of `n` steps from `k` on at which the capacitance `c` (not 0) holds the energy of R418. -/
def pfSearch (c : Nat) : Nat → Nat → Option Nat
  | 0, _ => none
  | n + 1, k => if c ≠ 0 ∧ 48400 * c + 21600000 ≤ 25 * k * k * c then some k else pfSearch c n (k + 1)

/-- PF_THRESH in 0.1 V for a capacitance of `c` in 0.1 µF: the smallest multiple of 5 V at or above √(220² + 2 × 120 W × 9 ms / C);
none where no multiple that the register holds is. -/
def pfThresh (c : Nat) : Option Nat := (pfSearch c 1311 0).map (50 * ·)

/-- The threshold of the capacitance `c`, or a free value where no threshold meets the rule. -/
def State.pfPick (s : State) (c : Nat) : State × Nat :=
  match pfThresh c with
  | some t => (s, t)
  | none => s.free

/-- A measured capacitance in 0.1 µF (R418): HOLDUP and PF_THRESH follow. T120 is C × (390² − 220²) / 240 W. -/
def State.capResult (s : State) (c : Nat) : State :=
  let s := (s.putSat PSU.HOLDUP_CAP c).putSat PSU.HOLDUP_T120 (quotShow (c * 1037) 2400)
  let (s, t) := s.pfPick c
  if s.pfw then { s with mpl := { s.mpl with pfNext := some t } } else s.put PSU.PF_THRESH t

/-- PFW has cleared: a threshold that waited takes effect (R418). -/
def State.capPfwClear (s : State) : State :=
  match s.mpl.pfNext with
  | none => s
  | some t => { s.put PSU.PF_THRESH t with mpl := { s.mpl with pfNext := none } }

/-- A feed loss or PFW abandons a measurement in progress (R418). -/
def State.capAbandon (s : State) : State :=
  if s.on MPL.MPL_STAT_CAP_BUSY then (s.put MPL.MPL_STAT_CAP_BUSY 0).bump MPL.MPL_CNT_CAP_ABORT_CNT else s

/-! ### Measurements (R412, R414, R419) -/

/-- Monitor `m` takes value `v`. A slack below its limit evaluates the domain at once (R416), by the lowest slack of the last DAY epoch
and of the present one (DESIGN CHOICE, assumption 45: the rule names the last epoch alone). -/
def State.monTake (s : State) (m : Nat) (v : Int) : State :=
  let k := s.mon m
  let w := match k.today with | none => v | some x => worse m x v
  let k := { k with today := some w }
  let k := if s.on MPL.MPL_STAT_LEARNING then { k with sum := k.sum + v, cnt := k.cnt + 1 } else k
  let s := ((s.setMon m k).put (MPL.MON_VAL m) (ux 32 v)).put (MPL.MON_STAT_VALID m) 1
  let l := s.monLimit m
  if m < 10 ∧ v * l.2 < l.1 then s.replan (some (match k.worst.head? with | none => w | some x => min x w)) m else s

/-- Two readings differ by more than TRIO_LIM, 500 ppm (R419). -/
def apart (a b : Int) : Bool := decide (500 < (a - b).natAbs)

/-- The references of a trio (R419): the spread of those in use, the excluded one (1 to 3, 0 none) and whether the remaining pair
differs too. `old` is the one excluded before. DESIGN CHOICE (assumption 45): of several that differ from both others the one farthest
from them is out, and an excluded one stays out until all three agree. -/
def trio (old : Nat) (a b c : Int) : Nat × Nat × Bool :=
  let dA := (a - b).natAbs + (a - c).natAbs
  let dB := (b - a).natAbs + (b - c).natAbs
  let dC := (c - a).natAbs + (c - b).natAbs
  let out := if !apart a b && !apart a c && !apart b c then 0
    else if old ≠ 0 then old
    else if apart a b && apart a c && decide (dB ≤ dA ∧ dC ≤ dA) then 1
    else if apart b a && apart b c && decide (dC ≤ dB) then 2
    else if apart c a && apart c b then 3 else 0
  let sp (x y : Int) : Nat := (x - y).natAbs
  if out = 1 then (sp b c, 1, apart b c) else if out = 2 then (sp a c, 2, apart a c) else if out = 3 then (sp a b, 3, apart a b)
  else (max (sp a b) (max (sp a c) (sp b c)), 0, false)

/-- A reference trio is measured (R419): monitors 10 to 25 for the banks, 26 for the logic-side monitors. -/
def State.trioTake (s : State) (m : Nat) (a b c : Int) : State :=
  if m < 26 then
    let (sp, out, bad) := trio (s.get (MPL.RECAL_EXCLUDED (m - 10))) a b c
    ((s.put (MPL.RECAL_EXCLUDED (m - 10)) out).putB (MPL.RECAL_TRIO_FAIL (m - 10)) bad).monTake m sp
  else
    let (sp, out, _) := trio 0 a b c
    (s.setFailed 26 (out != 0)).monTake 26 sp

/-- The interval of the measurements of monitor `m` in seconds (R412); 0 for those made at an event. -/
def monEvery (m : Nat) : Nat :=
  if m < 10 then 1 else if m < 27 then 600 else if m = 27 then 86400 else if m < 44 then 0 else if m < 60 then 600
  else if m < 72 then 1 else if m = 72 then 0 else 3600

/-- The weight in millionths of an hour of one hour at `t`, in 0.1 °C (R412). -/
def hourWeight (t : Int) : Nat := if t = 550 then 1000000 else Config.arrhenius t

/-- An hour at `t`, in 0.1 °C, is added to the temperature exposure of monitor `m` (R412). -/
def State.expose (s : State) (m : Nat) (t : Int) : State :=
  let k := { s.mon m with exposure := (s.mon m).exposure + hourWeight t }
  (s.setMon m k).monTake m ((k.exposure / 1000000 : Nat) : Int)

/-- Monitor `m` yields the reading `v` (R412): `refs` are the three references of a trio. Panel wear is WAVEFORMS in steps of
5 000 (R432). The capacitance is measured with PFW clear and no other measurement in hand (R418). -/
def State.readMon (s : State) (m : Nat) (v : Int) (refs : List Int) : State :=
  if 10 ≤ m ∧ m < 27 then s.trioTake m (refs.getD 0 0) (refs.getD 1 0) (refs.getD 2 0)
  else if m = 27 then (if s.pfw || s.on MPL.MPL_STAT_CAP_BUSY then s else (s.capResult v.toNat).monTake 27 v)
  else if 60 ≤ m ∧ m < 72 then (s.putSat (ETH.PORT_STAT_SQI (m - 60)) v.toNat).monTake m (min v 255)
  else if m = 72 then s.monTake 72 (s.get PNL.WAVEFORMS / 80000 : Nat)
  else if 73 ≤ m then s.expose m v
  else s.monTake m v

/-- Monitor `m` is measured on its schedule (R412): not before its interval since the last time. -/
def State.measureMon (s : State) (m : Nat) (v : Int) (refs : List Int) : State :=
  if !s.enabled 0x02 then s
  else
    let s := match (s.mon m).measured with | none => s | some t => s.untilMono (t + secs (monEvery m))
    (s.setMon m { s.mon m with measured := some s.mono }).readMon m v refs

/-- A capacitance measurement ends with `c` in 0.1 µF, 2 ms after its start (R418). -/
def State.capDone (s : State) (c : Nat) : State :=
  if s.on MPL.MPL_STAT_CAP_BUSY then
    (((s.untilMono (s.mpl.capAt + ms 2)).put MPL.MPL_STAT_CAP_BUSY 0).capResult c).monTake 27 c
  else s

/-- A bank is recalibrated against the median of its references, `med` in nA (R419). After learning the interval is the longest,
from 60 to 1 440 minutes, over which the measured drift rate stays below 2 µA. -/
def State.recalibrate (s : State) (b : Nat) (med : Int) : State :=
  let prev := s.mpl.recal.find? (fun e => e.1 == b)
  let s := match prev with
    | none => s
    | some (_, at', _) => s.untilMono (at' + s.get (MPL.RECAL_INTERVAL_MIN b) * secs 60)
  let iv := match prev with
    | none => 1440
    | some (_, at', old) =>
      let d := (med - old).natAbs
      let t := (s.mono - at') / secs 60
      if d = 0 ∨ !s.learnDone then 1440 else max 60 (min 1440 ((2000 * t + d - 1) / d - 1))
  let s := s.put (MPL.RECAL_INTERVAL_MIN b) iv
  { s with mpl := { s.mpl with recal := mapIns b (s.mono, med) (mapDel s.mpl.recal b) } }

/-! ### Learning and epochs (R414, R416, R420) -/

/-- An entry into CONFIG: learning starts where MRAM holds no learned baseline (R414). -/
def State.mplStart (s : State) : State :=
  if s.on MPL.MPL_STAT_BASELINE_OK || s.mpl.learnFrom.isSome then s
  else { s.put MPL.MPL_STAT_LEARNING 1 with mpl := { s.mpl with learnFrom := some (s.get CLO.OP_SECONDS) } }

/-- LEARN_LEFT_H (R422). -/
def State.learnLeft (s : State) : Nat :=
  match s.mpl.learnFrom with
  | none => 0
  | some t => if s.on MPL.MPL_STAT_LEARNING then (t + 259200 - s.get CLO.OP_SECONDS + 3599) / 3600 else 0

/-- The learned baselines of the monitors in `l`: the mean over the learning period. -/
def State.learnMeans (s : State) : List Nat → State
  | [] => s
  | m :: t =>
    let k := s.mon m
    let q : Int := k.sum / (max k.cnt 1 : Nat)
    let q := if k.sum % (max k.cnt 1 : Nat) ≠ 0 ∧ Config.roundUp k.sum.natAbs k.cnt = true then q + 1 else q
    (if k.cnt = 0 then s else (s.setMon m { k with learned := some q }).put (MPL.MON_STAT_BASE_FACTORY m) 0).learnMeans t

/-- Learning ends after 259 200 s of OP_SECONDS (R414). -/
def State.learnEnd (s : State) : State :=
  match s.mpl.learnFrom with
  | none => s
  | some t =>
    if !s.on MPL.MPL_STAT_LEARNING then s
    else
      let s := if t + 259200 ≤ s.get CLO.OP_SECONDS then s
        else s.untilMono (s.mono + secs (t + 259200 - s.get CLO.OP_SECONDS) - s.tku.opFrac)
      ((s.learnMeans (List.range 77)).put MPL.MPL_STAT_LEARNING 0).put MPL.MPL_STAT_BASELINE_OK 1

/-- The worst value of the DAY epoch is kept for the last 30 (R420). -/
def State.monDay (s : State) (m : Nat) : State :=
  let k := s.mon m
  match k.today with
  | none => s
  | some w => s.setMon m { k with worst := (w :: k.worst).take 30, today := none }

/-- The close of a DAY epoch (R416, R420): the prediction takes the LEAD_DAYS of now (R421). -/
def State.mplDay (s : State) : State :=
  let s := { s with mpl := { s.mpl with lead := s.get MPL.MPL_CFG_LEAD_DAYS } }
  ((List.range 77).foldl State.monDay s).replanAll

/-- A committed MPL_CMD (R421): 1 MEASURE_CAP, 2 REPLAN. -/
def State.mplCmd (s : State) (v m : Nat) : State :=
  if v = 1 then
    if s.on MPL.MPL_STAT_CAP_BUSY then s.lost 0x02 0x400 4 m
    else
      let s := { s.put MPL.MPL_STAT_CAP_BUSY 1 with mpl := { s.mpl with capAt := s.mono } }
      if s.pfw then s.capAbandon else s
  else if v = 2 then s.replanAll
  else s.badAccess 0x02 0x400 7 m

end Sys2Proof.Machine
end

