-- ==== Sys2Proof/Machine/CanOps.lean ====
section
/-! DEFINITION. The CAN FD controllers (R331 to R344): fetch, selection, completion, cancellation, errors, bus-off, bit-rate
detection and reception. -/

namespace Sys2Proof.Machine

/-- TX_RING of controller `n`. -/
def State.canTx (s : State) (n : Nat) : Nat := s.get (CAN.CAN_RING_TX_RING n)

/-- Transmit buffer `b` of controller `n`. -/
def CanCtl.buf (c : CanCtl) (b : Nat) : Option TxBuf := (c.bufs.find? (fun e => e.1 == b)).map (·.2)
/-- Set transmit buffer `b`. -/
def CanCtl.setBuf (c : CanCtl) (b : Nat) (t : TxBuf) : CanCtl :=
  { c with bufs := mapIns b t (mapDel c.bufs b) }
/-- Free transmit buffer `b`. -/
def CanCtl.freeBuf (c : CanCtl) (b : Nat) : CanCtl := { c with bufs := mapDel c.bufs b }
/-- The buffer whose frame is on the bus. -/
def CanCtl.onBus (c : CanCtl) : Option (Nat × TxBuf) := c.bufs.find? (fun e => e.2.st == 3 || e.2.st == 4)

/-- Data bytes that a DLC codes (R332). -/
def dlcLen (d : Nat) : Nat :=
  if d ≤ 8 then d else if d = 9 then 12 else if d = 10 then 16 else if d = 11 then 20 else if d = 12 then 24
  else if d = 13 then 32 else if d = 14 then 48 else 64

/-- Data bytes of a frame record: a classical frame carries at most 8, a remote frame none. -/
def recLen (w0 w1 : Word) : Nat :=
  if w0.getLsbD 30 then 0 else if w1.getLsbD 4 then dlcLen (bits w1 0 4) else min (dlcLen (bits w1 0 4)) 8

/-! ### Completion (R333) -/

/-- CONS_IDX advances over every leading complete descriptor (R333). -/
def State.canAdvance (s : State) (n : Nat) : List (Nat × Bool) → State
  | (_, true) :: t => (s.consumeOne (s.canTx n)).canAdvance n t
  | l => s.setCan n { s.can n with flight := l }

/-- A descriptor of TX_RING ends (R333, R334): STATUS, XINFO, the stamp of its start-of-frame if it has one. -/
def State.canDone (s : State) (n idx status xinfo : Nat) (sof : Option (Nat × Bool)) (aborted : Bool) : State :=
  let r := s.canTx n
  let d := s.desc r idx
  let s := s.putDesc r idx { d with status := status, xinfo := xinfo, aborted := aborted, stampValid := sof.isSome,
                                    stamp := match sof with | some x => x.1 | none => d.stamp,
                                    stepPar := match sof with | some x => x.2 | none => d.stepPar }
  s.canAdvance n ((s.can n).flight.map (fun e => if e.1 == idx then (idx, true) else e))

/-- A mode write that waited for the bus takes effect (R343). -/
def State.canApplyMode (s : State) (n : Nat) : State :=
  let c := s.can n
  match c.modePend with
  | some m => if c.onBus.isNone then s.setCan n { c with mode := m, modePend := none } else s
  | none => s

/-- The frame of buffer `b` ends with a status. TXB8 has no descriptor. -/
def State.bufDone (s : State) (n b status : Nat) (late aborted : Bool) : State :=
  match (s.can n).buf b with
  | none => s
  | some t =>
    let s := s.setCan n ((s.can n).freeBuf b)
    let s := if b = 8 then s
      else s.canDone n t.idx status (t.xinfo % 4 + 4 * b2n late + 8 * b2n t.flushed)
        (if t.tries = 0 then none else some (t.sof, t.sofPar)) aborted
    s.canApplyMode n

/-! ### Fetch (R333, R334, R336) -/

/-- A frame record that ends with FORMAT (R334). -/
def formatBad (len : Nat) (w0 w1 : Word) : Bool :=
  len != 8 + recLen w0 w1 || (w0.getLsbD 30 && w1.getLsbD 4) || (w1.getLsbD 5 && !w1.getLsbD 4) || w0.getLsbD 31 ||
    bits w1 7 25 != 0

/-- The lowest free buffer for TX_RING. -/
def CanCtl.freeTxb (c : CanCtl) : Option Nat := (List.range 8).find? (fun b => (c.buf b).isNone)

/-- The window of R336 in ns. -/
def State.atWindow (s : State) (n : Nat) : Nat := us (s.get (CAN.AT_WINDOW_US n))

/-- The status with which a fetched descriptor ends at once, if it does (R334, R336): MODE, FORMAT, LATE. -/
def State.fetchEnd (s : State) (n : Nat) (d : Desc) (w0 w1 : Word) (diff : Int) : Option Nat :=
  let c := s.can n
  let off := s.get (CAN.CAN_STAT_ERR_STATE n) == 2
  if c.mode != 1 || c.modePend.isSome || s.canSilent || (off && s.on (CAN.CAN_CFG_BUSOFF_FLUSH n)) then some 6
  else if formatBad d.len w0 w1 then some 1
  else if d.xinfo.testBit 0 && decide (diff < -(s.atWindow n : Int)) then some 2
  else none

/-- A free buffer takes the next descriptor of TX_RING (R333). -/
def State.canFetch (s : State) (n : Nat) : State :=
  let r := s.canTx n
  let c := s.can n
  let left := s.ringFill r - c.flight.length
  if r = 0x3F || !s.ringOn r || left = 0 || !s.enabled (0x50 + n) ||
     !(s.get (QMG.RING_EP_CONS_CLASS r) == epCan && s.get (QMG.RING_EP_CONS_INST r) == n) then s
  else match c.freeTxb with
  | none => s
  | some b =>
    let idx := (s.get (QMG.RING_CONS_CONS_IDX r) + c.flight.length) % 65536
    let d := s.desc r idx
    let s := s.setCan n { c with flight := c.flight ++ [(idx, false)] }
    if !bufOk d.buf d.len then
      let s := (s.putDesc r idx { d with descErr := true }).bump (QMG.RING_CNT_DESC_ERR_CNT r)
      s.canAdvance n ((s.can n).flight.map (fun e => if e.1 == idx then (idx, true) else e))
    else
      let w0 := BitVec.ofNat 32 (s.mem32 d.buf)
      let w1 := BitVec.ofNat 32 (s.mem32 (d.buf + 4))
      let diff := sx 32 ((d.stamp + 2 ^ 32 - s.stamp) % 2 ^ 32)
      match s.fetchEnd n d w0 w1 diff with
      | some st =>
        let s := if st = 2 then s.bump (CAN.TX_CNT_LATE_CNT n) else s
        s.canDone n idx st (d.xinfo % 4) none false
      | none =>
        let launch := if d.xinfo.testBit 0 then some (s.tku.ns + BitVec.ofInt 64 diff) else none
        let wait := d.xinfo.testBit 0 && decide (0 < diff)
        let c := s.can n
        s.setCan n ({ c with order := c.order + 1 }.setBuf b
          ⟨idx, w0, w1, s.bytes (d.buf + 8) (recLen w0 w1), launch, d.xinfo.testBit 1, d.tag, d.xinfo, c.order,
            if wait then 1 else 2, 0, false, 0, false⟩)

/-! ### Selection (R333, R336) -/

/-- The arbitration field as a number; the lower wins (R333). -/
def arbKey (w0 w1 : Word) : Nat :=
  let rtr := b2n (w0.getLsbD 30 && !w1.getLsbD 4)
  if w0.getLsbD 29 then bits w0 18 11 * 2 ^ 21 + 2 ^ 20 + 2 ^ 19 + bits w0 0 18 * 2 + rtr
  else bits w0 18 11 * 2 ^ 21 + rtr * 2 ^ 20

/-- The launch time of a buffer has been reached. -/
def State.launched (s : State) (t : TxBuf) : Bool :=
  match t.launch with | none => true | some l => s.dist l == 0

/-- The window of an AT frame has passed (R336). -/
def State.atPast (s : State) (n : Nat) (t : TxBuf) : Bool :=
  match t.launch with | none => false | some l => decide ((s.atWindow n : Int) < (s.tku.ns - l).toInt)

/-- Buffer `t` may be offered at a start-of-frame. -/
def State.eligible (s : State) (n : Nat) (t : TxBuf) : Bool :=
  (t.st == 1 || t.st == 2) && s.launched t && !s.atPast n t

/-- The better of two candidates: lower arbitration field, then earlier fetched. -/
def betterBuf (a : Option (Nat × TxBuf)) (e : Nat × TxBuf) : Option (Nat × TxBuf) :=
  match a with
  | none => some e
  | some x =>
    let kx := arbKey x.2.w0 x.2.w1
    let ke := arbKey e.2.w0 e.2.w1
    if ke < kx ∨ (ke = kx ∧ e.2.order < x.2.order) then some e else a

/-- The head of the SSE's queue takes TXB8 when it is free. -/
def State.loadSse (s : State) (n : Nat) : State :=
  let c := s.can n
  match c.buf 8, c.sseQ with
  | none, (id, f) :: t =>
    s.setCan n ({ c with sseQ := t, order := c.order + 1 }.setBuf 8
      ⟨0, id, BitVec.ofNat 32 (16 + (List.range 16).findIdx (fun d => dlcLen d == f.length)), f, none, false, 0, 0, c.order, 2, 0,
        false, 0, false⟩)
  | _, _ => s

/-- A possible start-of-frame (R333): the eligible buffer of highest priority starts its frame. -/
def State.canSof (s : State) (n : Nat) : State :=
  if !s.canSends n || (s.can n).onBus.isSome then s
  else
    let s := s.loadSse n
    let c := s.can n
    match (c.bufs.filter (fun e => s.eligible n e.2)).foldl betterBuf none with
    | none => s
    | some (b, t) =>
      let s := if t.tries = 0 then s else s.bump (CAN.TX_CNT_RETRY_CNT n)
      let s := s.setCan n (c.setBuf b { t with st := 3, sof := s.stamp, sofPar := s.stepPar, tries := t.tries + 1 })
      (s.put (CAN.CAN_STAT_BUS_IDLE n) 0).put (CAN.CAN_STAT_SYNCED n) 1

/-! ### Ends (R334, R337, R339) -/

/-- The error state follows the error counters, below bus-off (R331, R339). -/
def State.canState (s : State) (n : Nat) : State :=
  if s.get (CAN.CAN_STAT_ERR_STATE n) = 2 then s
  else
    let new := if 127 < s.get (CAN.CAN_STAT_TEC n) ∨ 127 < s.get (CAN.CAN_STAT_REC n) then 1 else 0
    let s := if new = 1 ∧ s.get (CAN.CAN_STAT_ERR_STATE n) = 0 then s.bump (CAN.ERR_CNT1_PASSIVE_CNT n) else s
    s.put (CAN.CAN_STAT_ERR_STATE n) new

/-- A frame received without error lowers the receive error counter (R331): by 1 up to 127, and from above to a value between 119 and 127
that ISO 11898-1 leaves open, a free value. -/
def State.recGood (s : State) (n : Nat) : State :=
  let r := s.get (CAN.CAN_STAT_REC n)
  if r ≤ 127 then s.put (CAN.CAN_STAT_REC n) (r - 1)
  else let (s, v) := s.free; (s.put (CAN.CAN_STAT_REC n) (119 + v % 9)).canState n

/-- The frame on the bus ends without error (R334, R337). -/
def State.canTxEnd (s : State) (n : Nat) : State :=
  match (s.can n).onBus with
  | none => s
  | some (b, t) =>
    let late := t.st == 4
    let s := (s.inc (CAN.TX_FRAMES n)).put (CAN.CAN_STAT_BUS_IDLE n) 1
    let s := (s.put (CAN.CAN_STAT_TEC n) (s.get (CAN.CAN_STAT_TEC n) - 1)).canState n
    let s := if late then s.bump (CAN.TX_CNT_CANCEL_LATE_CNT n) else s
    let s := if b = 8 then { s with sent := s.sent ++ [(.can n, t.data)] } else s
    s.bufDone n b 0 (late && s.feat 5) false

/-- The frame on the bus does not succeed: it is cancelled, ends for ONE_SHOT, or is kept for another attempt (R334,
R337). -/
def State.canFail (s : State) (n : Nat) : State :=
  match (s.can n).onBus with
  | none => s
  | some (b, t) =>
    if t.st = 4 then s.bufDone n b 3 false true
    else if t.oneShot then s.bufDone n b 5 false false
    else (s.setCan n ((s.can n).setBuf b { t with st := 2 })).canApplyMode n

/-- The frame on the bus loses arbitration (R334). -/
def State.canArbLost (s : State) (n : Nat) : State := s.canFail n

/-- A waiting or pending frame ends LATE once its window has passed (R336). -/
def State.canWindow (s : State) (n b : Nat) : State :=
  match (s.can n).buf b with
  | none => s
  | some t =>
    match t.launch with
    | none => s
    | some l =>
      if t.st = 1 ∨ t.st = 2 then
        let s := s.untilTime (l + BitVec.ofNat 64 (s.atWindow n + 1))
        (s.bump (CAN.TX_CNT_LATE_CNT n)).bufDone n b 2 false false
      else s

/-- The launch time of buffer `b` arrives (R336). -/
def State.canLaunch (s : State) (n b : Nat) : State :=
  match (s.can n).buf b with
  | none => s
  | some t =>
    match t.launch with
    | none => s
    | some l => if t.st = 1 then let s := s.untilTime l; s.setCan n ((s.can n).setBuf b { t with st := 2 }) else s

/-- A cancel of buffer `b` (R337); `flush` where R338 applies it. -/
def State.canCancel (s : State) (n b : Nat) (flush : Bool) : State :=
  match (s.can n).buf b with
  | none => s
  | some t =>
    if t.st = 1 ∨ t.st = 2 then s.bufDone n b 3 false true
    else s.setCan n ((s.can n).setBuf b { t with st := 4, flushed := t.flushed || flush })

/-- Complete the descriptors of TX_RING that no buffer has fetched, `k` of them. -/
def State.canFlushRing (s : State) (n status : Nat) (aborted : Bool) : Nat → State
  | 0 => s
  | k + 1 =>
    let r := s.canTx n
    let c := s.can n
    let idx := (s.get (QMG.RING_CONS_CONS_IDX r) + c.flight.length) % 65536
    let d := s.desc r idx
    let s := s.setCan n { c with flight := c.flight ++ [(idx, false)] }
    (s.canDone n idx status (d.xinfo % 4) none aborted).canFlushRing n status aborted k

/-- The cancellation of R338: every buffer of TX_RING, and the descriptors not fetched. -/
def State.canCancelAll (s : State) (n : Nat) : State :=
  let r := s.canTx n
  let s := (List.range 8).foldl (fun s b => s.canCancel n b true) s
  if r = 0x3F ∨ ¬ s.ringOn r then s else s.canFlushRing n 3 true (s.ringFill r - (s.can n).flight.length)

/-- Every buffer of TX_RING not on the bus ends with a status (R339, R340). -/
def State.canEndAll (s : State) (n status : Nat) : State :=
  (List.range 8).foldl (fun s b => match (s.can n).buf b with
    | some t => if t.st = 1 ∨ t.st = 2 then s.bufDone n b status false false else s
    | none => s) s

/-- The controllers in normal mode fall silent (R340): their buffers end with MODE and the SSE's frames are lost. -/
def State.canHush (s : State) : List Nat → State
  | [] => s
  | n :: t =>
    (if (s.can n).mode = 1 then
      let s := s.canEndAll n 6
      s.setCan n { (s.can n).freeBuf 8 with sseQ := [] }
     else s).canHush t

/-! ### Mode and bit-rate detection (R342, R343) -/

/-- The candidates of R342 that are enabled. -/
def State.candOn (s : State) (n k : Nat) : Bool := s.on (CAN.CAND_NBT_EN n k)

/-- The enabled candidates from `k` on, wrapping once. -/
def State.candFrom (s : State) (n k : Nat) : Option Nat :=
  ((List.range 16).map (fun i => (k + i) % 16)).find? (s.candOn n)

/-- Try candidate `k`. -/
def State.detTry (s : State) (n k : Nat) : State :=
  (s.put (CAN.DET_STAT_CURRENT n) k).setCan n { s.can n with detGood := 0, detBrs := false, detSince := s.mono }

/-- Detection starts (R342): at the candidate confirmed last, else at entry 0. -/
def State.detStart (s : State) (n : Nat) : State :=
  let k := match (s.can n).lastCand with | some k => k | none => 0
  let s := ((s.put (CAN.DET_STAT_SEARCHING n) 1).put (CAN.DET_STAT_DONE n) 0).put (CAN.DET_STAT_PASSES n) 0
  let s := s.put (CAN.DET_STAT_DATA_UNVERIFIED n) 0
  s.detTry n ((s.candFrom n k).getD 0)

/-- The search moves to the next enabled entry (R342); past the last one a pass is counted. -/
def State.detNext (s : State) (n : Nat) : State :=
  let k := s.get (CAN.DET_STAT_CURRENT n)
  match s.candFrom n (k + 1) with
  | none => s
  | some j => (if j ≤ k then s.bump (CAN.DET_STAT_PASSES n) else s).detTry n j

/-- FRAME_TIME_US under the present NBT (R337): 736 nominal bit times rounded up to whole µs; a free value where the register does
not hold them. -/
def State.frameTime (s : State) (n : Nat) : State :=
  let q := s.get (CAN.NBT_BRP n) * (1 + s.get (CAN.NBT_TSEG1 n) + s.get (CAN.NBT_TSEG2 n))
  let u := (736 * q * 25 + 1999) / 2000
  s.put (CAN.FRAME_TIME_US n) (if u < 65536 then u else (Config.frameTimeOver u).toNat)

/-- Searching for a bit rate. -/
def State.detecting (s : State) (n : Nat) : Bool := (s.can n).mode == 3 && s.on (CAN.DET_STAT_SEARCHING n)

/-- An error-free frame at the present candidate (R342). -/
def State.detFrame (s : State) (n : Nat) (brs : Bool) : State :=
  let c := s.can n
  let g := c.detGood + 1
  let b := c.detBrs || brs
  if g < s.get (CAN.DET_CFG_CONFIRM_N n) then s.setCan n { c with detGood := g, detBrs := b, detSince := s.mono }
  else
    let k := s.get (CAN.DET_STAT_CURRENT n)
    let s := s.wr (CAN.NBT_BRP n).key (BitVec.ofNat 32 (s.get (CAN.CAND_NBT_VALUE n k)))
    let s := s.wr (CAN.DBT_BRP n).key (BitVec.ofNat 32 (s.get (CAN.CAND_DBT_VALUE n k)))
    let s := (s.frameTime n).put (CAN.DET_STAT_RESULT n) k
    let s := (s.put (CAN.DET_STAT_DONE n) 1).put (CAN.DET_STAT_SEARCHING n) 0
    let s := s.putB (CAN.DET_STAT_DATA_UNVERIFIED n) (!b)
    s.setCan n { s.can n with lastCand := some k, detGood := g, detBrs := b }

/-- A MODE value is written (R343): leaving normal mode cancels the buffers, and the new mode holds once no frame of the
controller is on the bus. -/
def State.canSetMode (s : State) (n m : Nat) : State :=
  let c := s.can n
  let leave := c.mode == 1 && m != 1
  let s := if leave then (s.canCancelAll n).setCan n { ((s.canCancelAll n).can n) with sseQ := [] } else s
  let s := s.put (CAN.CAN_CFG_MODE n) m
  let s := s.setCan n { s.can n with modePend := some m }
  let s := if m = 3 then s.detStart n else s.put (CAN.DET_STAT_SEARCHING n) 0
  s.canApplyMode n

/-! ### Errors and bus-off (R339) -/

/-- The class counter of LEC code `c`. -/
def errCnt (n c : Nat) : Fld :=
  if c = 1 then CAN.ERR_CNT0_STUFF_ERR_CNT n else if c = 2 then CAN.ERR_CNT0_FORM_ERR_CNT n
  else if c = 3 then CAN.ERR_CNT1_ACK_ERR_CNT n else if c = 6 then CAN.ERR_CNT0_CRC_ERR_CNT n
  else CAN.ERR_CNT0_BIT_ERR_CNT n

/-- Entry into bus-off (R339). -/
def State.canBusOff (s : State) (n : Nat) : State :=
  let s := ((s.put (CAN.CAN_STAT_ERR_STATE n) 2).put (CAN.CAN_STAT_SYNCED n) 0).bump (CAN.ERR_CNT1_BUSOFF_CNT n)
  let s := if s.on (CAN.CAN_CFG_BUSOFF_FLUSH n) then s.canEndAll n 4 else s
  let c := s.can n
  let s := s.setCan n { c.freeBuf 8 with sseQ := [], recovering := s.on (CAN.CAN_CFG_AUTO_RECOVER n) }
  s.canApplyMode n

/-- The controller takes part in what happens on the bus: its page is enabled and its mode is not off, or a frame of it is still on the
bus (R338, R343); and it is not in bus-off. -/
def State.canOnline (s : State) (n : Nat) : Bool :=
  (((s.can n).mode != 0 && s.enabled (0x50 + n)) || (s.can n).onBus.isSome) && s.get (CAN.CAN_STAT_ERR_STATE n) != 2

/-- A protocol exception (R331): it counts, and the controller integrates to the bus again. -/
def State.canException (s : State) (n : Nat) : State :=
  if !s.canOnline n then s else ((s.bump (CAN.ERR_CNT1_PEX_CNT n)).put (CAN.CAN_STAT_SYNCED n) 0).put (CAN.CAN_STAT_BUS_IDLE n) 0

/-- A detected error of LEC code `c` leaves the error counters at `tec` and `rec'` (R331, R339). `tx` tells that it hit a
frame of this controller. -/
def State.canError (s : State) (n c tec rec' : Nat) (tx : Bool) : State :=
  if !s.canOnline n then s
  else
    let s := (s.bump (errCnt n c)).put (CAN.CAN_STAT_LEC n) c
    let s := if s.detecting n then s.detNext n else s
    let s := (s.put (CAN.CAN_STAT_TEC n) (min tec 255)).put (CAN.CAN_STAT_REC n) (min rec' 255)
    let s := if tx || decide (255 < tec) then s.canFail n else s
    if 255 < tec then s.canBusOff n else s.canState n

/-- CAN_CMD.RECOVER (R339). -/
def State.canRecover (s : State) (n : Nat) : State :=
  if s.get (CAN.CAN_STAT_ERR_STATE n) = 2 then s.setCan n { s.can n with recovering := true } else s

/-- Bus-off recovery completes (R339). -/
def State.canRecovered (s : State) (n : Nat) : State :=
  if s.get (CAN.CAN_STAT_ERR_STATE n) = 2 ∧ (s.can n).recovering then
    let s := ((s.put (CAN.CAN_STAT_ERR_STATE n) 0).put (CAN.CAN_STAT_TEC n) 0).put (CAN.CAN_STAT_REC n) 0
    (s.put (CAN.CAN_STAT_SYNCED n) 1).setCan n { s.can n with recovering := false }
  else s

/-! ### Reception (R335) -/

/-- The enabled SSC consumer whose identifier and format a frame matches: an FD data frame of its SESS_CANID (R299,
R335). -/
def State.canSess (s : State) (n : Nat) (w0 w1 : Word) : Option Nat :=
  (List.range' 1 63).find? (fun e => s.on (SSE.SESS_CFG_EN e) && !s.on (SSE.SESS_CFG_DIR e) && !s.isVote e &&
    s.get (SSE.SESS_CFG_TRANSPORT e) == 11 + n && w1.getLsbD 4 && !w0.getLsbD 30 &&
    s.sscCanId e == BitVec.ofNat 32 (bits w0 0 30))

/-- The lowest enabled filter entry that a frame matches (R335). -/
def State.canFilt (s : State) (n : Nat) (w0 : Word) : Option Nat :=
  (List.range 32).find? (fun k => s.on (CAN.FILT_ID_EN n k) && (s.on (CAN.FILT_ID_IDE n k) == w0.getLsbD 29) &&
    ((bits w0 0 29) ^^^ (s.get (CAN.FILT_ID_ID n k))) &&& (s.get (CAN.FILT_MASK_MASK n k)) == 0)

/-- Deliver a frame to a receive ring, an enabled one that this controller fills (R310, R335). -/
def State.canDeliver (s : State) (n ring k : Nat) (w0 w1 : Word) (data : List Byte) (stamp : Stamp) : State :=
  if ring = 0x3F ∨ ¬ (s.get (QMG.RING_EP_PROD_CLASS ring) = epCan ∧ s.get (QMG.RING_EP_PROD_INST ring) = n) then s
  else
    let item := natLE 4 w0.toNat ++ natLE 4 w1.toNat ++ data
    let full := s.ringOn ring && s.ringCredit ring == 0
    let (s, ok) := s.ringPost ring item 0 (some stamp) 0 k
    if ok then s.inc (CAN.RX_FRAMES n) else if full then s.bump (CAN.TX_CNT_RX_OVF_CNT n) else s

/-- Where a received frame goes (R335, R342). -/
inductive CanDest
  | sse (f : List Byte)
  | done
deriving DecidableEq, Repr

/-- An error-free frame is received (R335, R342). In detection it counts toward a confirmation; frames are delivered only
after it. -/
def State.canReceive (s : State) (n : Nat) (w0 w1 : Word) (data : List Byte) (stamp : Stamp) : State × CanDest :=
  if (s.can n).mode = 0 ∨ ¬ s.enabled (0x50 + n) ∨ s.get (CAN.CAN_STAT_ERR_STATE n) = 2 then (s, .done)
  else
    let s := ((s.put (CAN.CAN_STAT_SYNCED n) 1).put (CAN.CAN_STAT_BUS_IDLE n) 1).recGood n
    if s.detecting n then (s.detFrame n (w1.getLsbD 5), .done)
    else match s.canSess n w0 w1 with
    | some e => (s, .sse (data.take (s.sessLen e + 14)))
    | none => match s.canFilt n w0 with
      | none => (s, .done)
      | some k => (s.canDeliver n (if s.on (CAN.FILT_MASK_RING n k) then s.get (CAN.CAN_RING_RX_RING1 n)
          else s.get (CAN.CAN_RING_RX_RING0 n)) k w0 w1 data stamp, .done)

/-- Clearing ENABLE (R338, R39). -/
def State.canDisable (s : State) (n : Nat) : State :=
  let s := s.canCancelAll n
  s.setCan n { s.can n with sseQ := [] }

/-- Launch times move with a time step (R74). -/
def CanCtl.shift (c : CanCtl) (d : BitVec 64) : CanCtl :=
  { c with bufs := c.bufs.map (fun e => (e.1, { e.2 with launch := e.2.launch.map (· + d) })) }

/-- The launch times of every controller move by `d`. -/
def State.canShift (s : State) (d : BitVec 64) : State :=
  { s with cans := mapMap (fun _ => CanCtl.blank) (fun _ c => c.shift d) s.cans }

end Sys2Proof.Machine
end

