-- ==== Sys2Proof/Machine/StationOps.lean ====
section
/-! DEFINITION. The redundancy controller (R345 to R358, R368 to R371): records, heartbeats, leases at the member and at the
witness, readiness, the time exchange, and the changes of role. -/

namespace Sys2Proof.Machine

/-! ### Who the module is -/

/-- The module is a member of a redundant station (R345). -/
def State.redundant (s : State) : Bool := s.on RDC.STN_CFG_REDUNDANT

/-- In RUN or SAFE_HOLD (R348, R355). -/
def State.runOrSafe (s : State) : Bool := s.mstate == stRUN || s.mstate == stSAFE

/-- Witness duty (R355). -/
def State.duty (s : State) : Bool := s.runOrSafe && (List.range 8).any (fun w => s.on (RDC.WM_CFG_EN w))

/-- This module is the preferred member (R345). -/
def State.preferred (s : State) : Bool := s.redundant && s.on RDC.STN_CFG_MEMBER == s.on RDC.STN_CFG_PREF_B

/-! ### Readiness (R357) -/

/-- The image of the station events that the Sluice carries (R362); its byte layout is the model's. -/
def State.stationImage (s : State) : List Byte :=
  (List.range 4).flatMap (fun q => natLE 4 (s.get (LSQ.PROG_ID_ACTIVE q))) ++
  (List.range 16).flatMap (fun k => natLE 8 (if s.casHeld k then s.get64 (SLOT.SLOT_SIG_LO k) (SLOT.SLOT_SIG_HI k) else 0)) ++
  natLE 4 (s.get GNT.PSET_SIG) ++ natLE 4 (s.rd RDC.STN_CFG_REDUNDANT.key).toNat ++
  natLE 4 (s.get RDC.WIT_SER_LO) ++ natLE 4 (s.get RDC.WIT_SER_HI) ++
  (List.range 8).flatMap (fun r => natLE 4 (s.get (SLC.APP_BASE r)) ++ natLE 4 (s.get (SLC.APP_SIZE r)) ++
    natLE 4 (s.get (SLC.APP_CFG_EN r))) ++
  (List.range 4).flatMap (fun q => natLE 4 (s.get (LSQ.ACT_TIME_LO q)) ++ natLE 4 (s.get (LSQ.ACT_TIME_HI q)))

/-- The key of a source's image: SRC and SRC_ID (R359). -/
def srcKey (src id : Nat) : Nat := 65536 * src + id

/-- The active module's station events as the consistent state holds them. -/
def State.peerStation (s : State) : List Byte := mapGet (fun _ => []) s.slu.cons (srcKey 6 0)

/-- Checkpoint age in ms, saturating (R357). -/
def State.ckptAge (s : State) : Nat :=
  match s.slu.ckptAt with | none => 0xFFFF | some t => min ((s.mono - t) / 1000000) 0xFFFF

/-- NR_AGE: the checkpoint is older than 100 ms. -/
def State.nrAge (s : State) : Bool :=
  match s.slu.ckptAt with | none => true | some t => decide (t + ms 100 < s.mono)
/-- NR_IMAGE. -/
def State.nrImage (s : State) : Bool := s.peerStation.take 144 != s.stationImage.take 144
/-- NR_PSET. -/
def State.nrPset (s : State) : Bool :=
  (s.peerStation.drop 144).take 4 != (s.stationImage.drop 144).take 4 || !s.on GNT.GNT_STAT_COMMISSIONED
/-- NR_TIME. -/
def State.nrTime (s : State) : Bool := !s.inBand
/-- NR_CONFIG: REDUNDANT, PREF_B and STATION equal, the other letter, the same witness, the same regions. -/
def State.nrConfig (s : State) : Bool :=
  let p := s.peerStation
  let c := BitVec.ofNat 32 (leNat ((p.drop 148).take 4))
  !(bits c 0 1 == s.get RDC.STN_CFG_REDUNDANT && bits c 2 1 == s.get RDC.STN_CFG_PREF_B &&
    bits c 8 8 == s.get RDC.STN_CFG_STATION && bits c 1 1 != s.get RDC.STN_CFG_MEMBER &&
    (p.drop 152).take 104 == (s.stationImage.drop 152).take 104)

/-- READY (R357). -/
def State.ready (s : State) : Bool :=
  s.mstate == stRUN && s.role == roleSTANDBY && !s.nrAge && !s.nrImage && !s.nrPset && !s.nrTime && !s.nrConfig

/-- Keep the start of an uninterrupted READY; an interruption ends REVERT_WANTED (R370). -/
def State.trackReady (s : State) : State :=
  if !s.ready then { s.put RDC.REVERT_STAT_WANTED 0 with rdc := { s.rdc with readySince := none } }
  else if s.rdc.readySince.isSome then s else { s with rdc := { s.rdc with readySince := some s.mono } }

/-! ### Links and leases as they stand -/

/-- Path `k` is up: a valid record within the last 3 ms (R348). -/
def State.pathUp (s : State) (k : Nat) : Bool := s.rdc.linkAt.any (fun e => e.1 == k && decide (s.mono < e.2 + ms 3))

/-- PEER_SEEN (R348). -/
def State.peerSeen (s : State) : Bool := s.pathUp 0 || s.pathUp 1
/-- WITNESS_SEEN (R348). -/
def State.witnessSeen (s : State) : Bool := if s.on RDC.STN_CFG_WIT_PATH then s.pathUp 4 else s.pathUp 13 || s.pathUp 14

/-- The lease ending at `t` is unexpired. -/
def State.unexpired (s : State) (t : Option Nat) : Bool := match t with | none => false | some e => decide (s.mono < e)

/-- LEASE_VALID (R349). -/
def State.leaseValid (s : State) : Bool := s.unexpired s.rdc.witUntil || s.unexpired s.rdc.peerUntil

/-- SIGNED (R351): a signed peer lease is unexpired, or ended less than 2 ms ago. -/
def State.signed (s : State) : Bool := match s.rdc.signUntil with | none => false | some t => decide (s.mono < t + ms 2)

/-- A request is pending at the witness (R351): sent, not answered, and young enough that a lease from it would be
unexpired. -/
def State.reqPending (s : State) : Bool := s.rdc.reqs.any (fun e => decide (s.mono < e.2 + ms 20))

/-- The peer's ROLE, READY, DRIVING, SAFE_HOLD, DEMAND, REVERT_WANTED and LAPSED from its last heartbeat. -/
def State.peerFlag (s : State) (b : Nat) : Bool := s.rdc.hbAt.isSome && s.rdc.hbFlags.testBit b
/-- The peer's ROLE. -/
def State.peerRole (s : State) : Nat := if s.rdc.hbAt.isSome then s.rdc.hbFlags % 4 else roleNONE

/-- DEGRADED (R357, R372, R392). -/
def State.degraded (s : State) : Bool :=
  s.mstate == stRUN && s.redundant &&
    (!s.peerSeen || !s.witnessSeen || (if s.role = roleSTANDBY then !s.ready else !s.peerFlag 2))

/-- A ready standby (R369): ACTIVE with a valid lease, the peer READY, the witness seen. -/
def State.readyStandby (s : State) : Bool :=
  s.mstate == stRUN && s.role == roleACTIVE && s.leaseValid && !s.on RDC.ROLE_LAPSED && s.peerSeen && s.peerFlag 2 && s.witnessSeen

/-! ### Records (R347) -/

/-- The fold of a serial number. -/
def fold (lo hi : Nat) : Nat := lo ^^^ hi

/-- Own folded serial. -/
def State.ownFold (s : State) : Nat := fold (s.get SYS.SERIAL_LO) (s.get SYS.SERIAL_HI)

/-- Some OUT.DEMAND of the Gauntlet is 1. -/
def State.anyDemand (s : State) : Bool := (List.range 64).any (fun j => s.on (GNT.OUT_DEMAND j))

/-- REVERT_WANTED as sent: the hold-off has run, REVERT_EN is 1, no inhibit, the witness is seen (R370). -/
def State.revertFlag (s : State) : Bool :=
  s.ready && s.on RDC.REVERT_STAT_WANTED && s.on RDC.REVERT_CFG_REVERT_EN && !s.on RDC.REVERT_STAT_INHIBITED && s.witnessSeen

/-- FLAGS of a record. -/
def State.recFlags (s : State) : Nat :=
  s.role + 4 * b2n s.ready + 8 * b2n (s.on RDC.ROLE_DRIVING) + 16 * b2n (s.mstate == stSAFE) + 32 * b2n s.anyDemand +
    64 * b2n s.revertFlag + 128 * b2n (s.on RDC.ROLE_LAPSED)

/-- Whom a record goes to. -/
inductive RdcTo
  | peer
  /-- On one sync link only (R358). -/
  | peerOn (k : Nat)
  | witness
  | member (w : Nat)
deriving DecidableEq, Repr

/-- The receiver's folded serial. -/
def State.toFold (s : State) (t : RdcTo) : Nat :=
  match t with
  | .witness => fold (s.get RDC.WIT_SER_LO) (s.get RDC.WIT_SER_HI)
  | .member w => fold (s.get (RDC.WM_SER_LO w)) (s.get (RDC.WM_SER_HI w))
  | _ => fold (s.get RDC.PEER_SER_LO) (s.get RDC.PEER_SER_HI)

/-- The check value of a record (R347). -/
def recCheck (snd rcv : Nat) (body : List Byte) : Nat := (crc32c (natLE 4 snd ++ natLE 4 rcv ++ body)).toNat

/-- Hand a record to its links, or to its session (R347). -/
def State.rdcEmit (s : State) (t : RdcTo) (body : List Byte) : State :=
  let rec' := body ++ natLE 4 (recCheck s.ownFold (s.toFold t) body)
  match t with
  | .peer => (s.ethQueue 8 rec').ethQueue 9 rec'
  | .peerOn k => s.ethQueue (8 + k) rec'
  | .witness => if s.on RDC.STN_CFG_WIT_PATH then s.sscSend (s.get RDC.STN_CFG_WIT_TX_SESS) body false
      else (s.ethQueue 10 rec').ethQueue 11 rec'
  | .member w => if s.on (RDC.WM_CFG_PATH w) then s.sscSend (s.get (RDC.WM_CFG_TX_SESS w)) body false
      else (s.ethQueue 10 rec').ethQueue 11 rec'

/-- Send a record of the given type; SEQ is never 0 (R347). -/
def State.rdcSend (s : State) (t : RdcTo) (typ arg arg2 : Nat) : State :=
  let q := if s.rdc.seq = 0xFFFFFFFF then 1 else s.rdc.seq + 1
  let s := { s with rdc := { s.rdc with seq := q } }
  let (stn, snd) := match t with
    | .member w => (s.get (RDC.WM_CFG_STATION w), 2)
    | _ => (s.get RDC.STN_CFG_STATION, s.get RDC.STN_CFG_MEMBER)
  s.rdcEmit t ([BitVec.ofNat 8 typ, BitVec.ofNat 8 s.recFlags, BitVec.ofNat 8 stn, BitVec.ofNat 8 snd] ++ natLE 4 q ++
    natLE 4 arg ++ natLE 4 arg2)

/-- A received record (R347). -/
structure RdcRec where
  typ : Nat
  flags : Nat
  seq : Nat
  arg : Nat
  arg2 : Nat
deriving DecidableEq, Repr

/-- The fields of a record. -/
def recOf (l : List Byte) : RdcRec :=
  ⟨leNat (l.take 1), leNat ((l.drop 1).take 1), leNat ((l.drop 4).take 4), leNat ((l.drop 8).take 4), leNat ((l.drop 12).take 4)⟩

/-- Who sent a record that arrived on path `k` (R347): 0 the peer, 1 the witness, 2 + w member `w`; none where its check value
holds under no pair of serials of that path. A session's record was checked by the SSE. -/
def State.recSender (s : State) (k : Nat) (l : List Byte) : Option Nat :=
  let chk := leNat ((l.drop 16).take 4)
  let from' (f : Nat) : Bool := l.length == 20 && chk == recCheck f s.ownFold (l.take 16)
  if k < 2 then (if s.redundant && from' (s.toFold .peer) then some 0 else none)
  else if k < 4 then
    (if s.redundant && !s.on RDC.STN_CFG_WIT_PATH && from' (s.toFold .witness) then some 1
     else ((List.range 8).find? (fun w => s.on (RDC.WM_CFG_EN w) && !s.on (RDC.WM_CFG_PATH w) &&
       from' (s.toFold (.member w)))).map (· + 2))
  else if k = 4 then (if s.redundant && s.on RDC.STN_CFG_WIT_PATH then some 1 else none)
  else if k < 13 ∧ s.on (RDC.WM_CFG_EN (k - 5)) ∧ s.on (RDC.WM_CFG_PATH (k - 5)) then some (k - 3)
  else none

/-- A valid record of type `typ` from sender `from'` has arrived on path `k`: the link is up, and a member has been heard by its heartbeat
(R348, R350). -/
def State.noteLink (s : State) (k from' typ : Nat) : State :=
  let put (l : List (Nat × Nat)) (i : Nat) : List (Nat × Nat) := mapIns i s.mono (mapDel l i)
  let l := if k < 5 then put s.rdc.linkAt k else s.rdc.linkAt
  let l := if from' = 1 ∧ (k = 2 ∨ k = 3) then put l (k + 11) else if 2 ≤ from' ∧ typ = 1 then put l (from' + 3) else l
  { s with rdc := { s.rdc with linkAt := l } }

/-- The record's SEQ is the first copy from its sender (R347). -/
def State.firstCopy (s : State) (from' seq : Nat) : Bool :=
  seq != 0 && !((mapGet (fun _ => []) s.rdc.taken from').contains seq)

/-- Remember a SEQ; the last 1024 of each sender are kept. -/
def State.noteSeq (s : State) (from' seq : Nat) : State :=
  let l := seq :: (mapGet (fun _ => []) s.rdc.taken from').take 1023
  { s with rdc := { s.rdc with taken := mapSet (fun _ => []) s.rdc.taken from' l } }

/-! ### Changes of role (R346) -/

/-- Producers of the SSE other than RDC sessions stop sending (R300, R353). -/
def State.stopProducers (s : State) : List Nat → State
  | [] => s
  | e :: t =>
    (if s.on (SSE.SESS_CFG_EN e) && s.on (SSE.SESS_CFG_DIR e) && !s.isRdcSess e then
      s.setSess e { s.sessOf e with sending := false } else s).stopProducers t

/-- The links fall silent (R340, R353). -/
def State.quietLinks (s : State) : State := (s.stopProducers (List.range' 1 63)).canHush (List.range 20)

/-- Flag memory, output image and objects of sequencer `q` as after its load (R346). -/
def State.reloadSeq (s : State) (q : Nat) : State :=
  let v := s.seqOf q
  match s.image q with
  | none => s
  | some i =>
    let base : Seq := { v with m := [], out := [], timers := i.timers.map (fun _ => Tmr.blank),
                               counters := i.counters.map (fun c => Ctr.blank c.pv.toInt),
                               edges := List.replicate i.edges Edg.blank, tasks := [], cyclicOn := false,
                               startPend := false, startSince := none, errPend := 0, errBlock := [], errDead := false }
    s.setSeq q (base.initOuts i [] i.outs)

/-- Loop context `c` as loaded: OPEN, its state block 0 (R346). -/
def State.reloadLoop (s : State) (c : Nat) : State :=
  if s.loopEn c then s.setBytes (stateBase c) (List.replicate 0x240 0#8) else s

/-- Cascade slot `k` as loaded: no solution, no factor, a refresh requested (R346). -/
def State.reloadCas (s : State) (k : Nat) : State :=
  if !s.casHeld k then s
  else
    let s := (s.casAbort k).setCas k { CasSlot.blank with size := (s.casSlot k).size, req := true }
    let s := (s.put (SLOT.SLOT_STAT_FACT_VALID k) 0).put (SLOT.SLOT_STAT_FACT_BUSY k) 0
    s.put (SLOT.SLOT_DELTA_SEQ k) 0

/-- The compute domains are reset to their loaded configuration (R346). -/
def State.resetDomains (s : State) : State :=
  let s := s.schedStops (List.range 4)
  let s := (List.range 4).foldl State.reloadSeq s
  let s := (List.range 128).foldl State.reloadLoop (s.loopsOff (List.range 128))
  (List.range 16).foldl State.reloadCas s

/-- The module enters STANDBY from ACTIVE (R346, R353, R368): leases gone, links silent, domains reset and held (R468). -/
def State.becomeStandby (s : State) : State :=
  let s := s.quietLinks.resetDomains
  let s := ((s.put RDC.ROLE_ROLE roleSTANDBY).put RDC.ROLE_LAPSED 0).put RDC.ROLE_DRIVING 0
  let s := { s with
    rdc := { s.rdc with witUntil := none, peerUntil := none, reqs := [], peerReqs := [], drove := false, handover := none,
                        toCause := 0, readySince := none }
    slu := { Slu.blank with mram := s.slu.mram } }
  s.applyR468

/-- The module becomes ACTIVE by a witness grant (R346, R364, R392): a cold start runs the schedule from the loaded
configuration with its start-up tasks; otherwise the restore begins (R365). `since` is the end of the old lease. -/
def State.becomeActive (s : State) (since : Nat) : State :=
  let cold := !s.rdc.everCkpt
  let cause := if cold then 4 else if s.rdc.peerHandover != 0 then s.rdc.peerHandover else 1
  let s := ((s.put RDC.ROLE_ROLE roleACTIVE).put RDC.ROLE_LAPSED 0).put RDC.ROLE_DRIVING 0
  let s := { s with
    rdc := { s.rdc with drove := false, toCause := cause, toSince := since, peerHandover := 0, signUntil := none,
                        lapsedAt := none, readySince := none, awaitPeer := none }
    slu := { s.slu with restoreAt := s.mono } }
  let s := s.put RDC.REVERT_STAT_WANTED 0
  if cold then s.schedStarts false (List.range 4) else s.put SLC.SLC_STAT_RESTORING 1

/-- The lease of an ACTIVE member has expired: lapsed (R352, R353). -/
def State.lapse (s : State) : State :=
  let old := match s.rdc.hbAt with | none => true | some t => decide (t + ms 120 < s.mono)
  let s := s.quietLinks
  let s := ((s.put RDC.ROLE_LAPSED 1).put RDC.ROLE_DRIVING 0).bump RDC.RDC_CNT0_LAPSE_CNT
  let s := s.putB RDC.PEER_STAT_EXCLUDED (old || !s.peerFlag 2)
  { s with rdc := { s.rdc with lapsedAt := some s.mono } }

/-- A lapsed member is granted a lease again (R346). -/
def State.regain (s : State) : State :=
  let s := (s.put RDC.ROLE_LAPSED 0).put RDC.PEER_STAT_EXCLUDED 0
  { s with rdc := { s.rdc with toCause := 5, toSince := s.rdc.lapsedAt.getD s.mono, lapsedAt := none } }

/-! ### The member's side (R348 to R354) -/

/-- HEARTBEAT to the peer and the witness, and from a witness to its members (R348). -/
def State.heartbeatSend (s : State) : State :=
  if !s.runOrSafe then s
  else
    let s := s.untilMono (s.rdc.lastHb + ms 1)
    let s := { s with rdc := { s.rdc with lastHb := s.mono } }
    let s := s.trackReady
    let age := s.ckptAge
    let prog := s.get (LSQ.PROG_ID_ACTIVE 0)
    let s := if s.redundant then (s.rdcSend .peer 1 age prog).rdcSend .witness 1 age prog else s
    (List.range 8).foldl (fun s w => if s.on (RDC.WM_CFG_EN w) then s.rdcSend (.member w) 1 age prog else s) s

/-- Send LEASE_REQ to the witness and note its SEQ and send time. -/
def State.leaseReq (s : State) : State :=
  let s := s.rdcSend .witness 2 0 0
  { s with rdc := { s.rdc with reqs := (s.rdc.reqs ++ [(s.rdc.seq, s.mono)]).drop (s.rdc.reqs.length + 1 - 64),
                               lastReq := s.mono } }

/-- Every 5 ms an ACTIVE member asks for renewal (R349). -/
def State.leaseRenew (s : State) : State :=
  if !(s.mstate == stRUN && s.redundant && s.role == roleACTIVE) then s
  else
    let s := (s.untilMono (s.rdc.lastReq + ms 5)).leaseReq
    if s.peerSeen && s.peerRole == roleSTANDBY then
      let s := s.rdcSend .peer 5 0 0
      { s with rdc := { s.rdc with peerReqs := (s.rdc.peerReqs ++ [(s.rdc.seq, s.mono)]).drop (s.rdc.peerReqs.length + 1 - 64) } }
    else s

/-- A STANDBY may ask for a lease (R354). -/
def State.mayAsk (s : State) : Bool :=
  s.mstate == stRUN && s.redundant && s.role == roleSTANDBY && !s.signed &&
    (!s.peerSeen || s.peerFlag 4 || s.peerFlag 7 || s.peerRole != roleACTIVE) && (s.ready || !s.rdc.everCkpt)

/-- Every 1 ms a permitted STANDBY asks (R354). -/
def State.standbyReq (s : State) : State :=
  let s' := s.untilMono (s.rdc.lastReq + ms 1)
  if s'.mayAsk then s'.leaseReq else s

/-- When the grant of a lease became possible: the end of the peer lease that this member signed, a relinquish it received, or
the witness's guard before the grant. -/
def State.oldLeaseEnd (s : State) : Nat :=
  if s.rdc.peerHandover ≠ 0 ∧ s.rdc.toSince ≠ 0 then s.rdc.toSince
  else match s.rdc.signUntil with
    | some t => min t s.mono
    | none => if s.rdc.everCkpt then s.mono - ms 2 else s.mono

/-- LEASE_GRANT at a member (R349): the expiry counts from the send time of the request that was granted. -/
def State.leaseGrant (s : State) (seq : Nat) : State :=
  match s.rdc.reqs.find? (fun e => e.1 == seq) with
  | none => s
  | some (_, t) =>
    let s := { s with rdc := { s.rdc with reqs := [], witUntil := some (max (t + ms 20) (s.rdc.witUntil.getD 0)) } }
    if !(s.mstate == stRUN) || !s.unexpired s.rdc.witUntil then s
    else if s.role = roleSTANDBY then s.becomeActive s.oldLeaseEnd
    else if s.role = roleACTIVE ∧ s.on RDC.ROLE_LAPSED then s.regain
    else s

/-- LEASE_REFUSE at a member. -/
def State.leaseRefused (s : State) : State :=
  ({ s with rdc := { s.rdc with reqs := [] } }).bump RDC.RDC_CNT1_REFUSED_CNT

/-- PEER_REQ at a member (R351): co-signed by a STANDBY that holds no witness lease, has no request pending there and is not in
SAFE_HOLD. -/
def State.peerReq (s : State) (seq : Nat) : State :=
  if s.mstate == stRUN && s.role == roleSTANDBY && !s.unexpired s.rdc.witUntil && !s.reqPending then
    let s := s.rdcSend .peer 6 seq 0
    { s with rdc := { s.rdc with signUntil := some (s.mono + ms 20) } }
  else s

/-- PEER_GRANT at a member (R349). -/
def State.peerGrant (s : State) (seq : Nat) : State :=
  match s.rdc.peerReqs.find? (fun e => e.1 == seq) with
  | none => s
  | some (_, t) =>
    { s with rdc := { s.rdc with peerUntil := some (max (t + ms 20) (s.rdc.peerUntil.getD 0)),
                                 peerReqs := s.rdc.peerReqs.filter (fun e => decide (t < e.2)) } }

/-- The later of the leases held. -/
def State.leaseEnd (s : State) : Nat := max (s.rdc.witUntil.getD 0) (s.rdc.peerUntil.getD 0)

/-- The lease of an ACTIVE member expires (R352). -/
def State.leaseExpiry (s : State) : State :=
  if s.mstate == stRUN && s.redundant && s.role == roleACTIVE && !s.on RDC.ROLE_LAPSED then (s.untilMono s.leaseEnd).lapse
  else s

/-- 2 ms after a signed peer lease expires SIGNED clears (R351). -/
def State.signEnd (s : State) : State :=
  match s.rdc.signUntil with
  | none => s
  | some t => let s := s.untilMono (t + ms 2); { s with rdc := { s.rdc with signUntil := none } }

/-- 3 ms without a valid record on path `k`: the link is down (R348). A loss of a member's heartbeat counts at the witness. -/
def State.linkTimeout (s : State) (k : Nat) : State :=
  match s.rdc.linkAt.find? (fun e => e.1 == k) with
  | none => s
  | some (_, t) =>
    let s := s.untilMono (t + ms 3)
    let s := { s with rdc := { s.rdc with linkAt := mapDel s.rdc.linkAt k } }
    let s := if k < 5 then s.bump RDC.RDC_CNT0_HB_MISS_CNT else if k < 13 then s.bump (RDC.WM_CNT_HB_MISS_CNT (k - 5)) else s
    s.trackReady

/-- A heartbeat of the peer (R348, R353, R368): a lapsed member that sees the peer ACTIVE with a valid lease enters STANDBY;
the peer DRIVING ends a handover. -/
def State.peerHeartbeat (s : State) (flags : Nat) : State :=
  let s := { s with rdc := { s.rdc with hbAt := some s.mono, hbFlags := flags } }
  let s := if flags.testBit 3 then { s with rdc := { s.rdc with awaitPeer := none } } else s
  if s.mstate == stRUN && s.role == roleACTIVE && s.on RDC.ROLE_LAPSED && flags % 4 == roleACTIVE && !flags.testBit 7 then
    s.becomeStandby
  else s.trackReady

/-! ### The witness's side (R350, R354, R355) -/

/-- What the witness keeps of member `w`. -/
def State.wm (s : State) (w : Nat) : WmRt := mapGet (fun _ => WmRt.blank) s.rdc.wm w
/-- Set what the witness keeps of member `w`. -/
def State.setWm (s : State) (w : Nat) (v : WmRt) : State :=
  { s with rdc := { s.rdc with wm := mapSet (fun _ => WmRt.blank) s.rdc.wm w v } }
/-- The lease of a station. -/
def State.leaseOf (s : State) (stn : Nat) : Lease := mapGet (fun _ => Lease.blank) s.rdc.leases stn
/-- Set the lease of a station. -/
def State.setLease (s : State) (stn : Nat) (v : Lease) : State :=
  { s with rdc := { s.rdc with leases := mapSet (fun _ => Lease.blank) s.rdc.leases stn v } }

/-- Let a lease that has run out end: without RELINQUISH (R350, R354). -/
def State.lapseLease (s : State) (stn : Nat) : State :=
  let l := s.leaseOf stn
  match l.holder with
  | none => s
  | some w => if s.mono < l.until_ then s
      else s.setLease stn { l with holder := none, ended := some l.until_, last := some w, dirty := some w }

/-- The lease held by member `w` ends by RELINQUISH or by WM_CFG.EN (R350, R368, R373). -/
def State.relinquished (s : State) (w : Nat) : State :=
  let stn := s.get (RDC.WM_CFG_STATION w)
  let s := s.lapseLease stn
  let l := s.leaseOf stn
  if l.holder = some w then s.setLease stn { l with holder := none, ended := some s.mono, last := some w } else s

/-- The witness grants member `w` its request `seq` (R349, R350). -/
def State.grant (s : State) (w seq : Nat) : State :=
  let stn := s.get (RDC.WM_CFG_STATION w)
  let l := s.leaseOf stn
  let s := if l.holder = some w then s else s.bump (RDC.WM_CNT_GRANT_NEW_CNT w)
  let s := s.rdcSend (.member w) 3 seq 0
  let s := s.setLease stn { l with holder := some w, until_ := s.mono + ms 20, last := some w,
                                   dirty := if l.dirty = some w then none else l.dirty }
  s.setWm w { s.wm w with pend := none, firstReq := none }

/-- The witness refuses member `w`; the manual codes no refusal cause (a free value). -/
def State.refuse (s : State) (w : Nat) : State :=
  let (s, c) := s.free
  (s.rdcSend (.member w) 4 (c % 2 ^ 32) 0).bump (RDC.WM_CNT_REFUSE_CNT w)

/-- The other member of the same station at this witness. -/
def State.otherMember (s : State) (w : Nat) : Option Nat :=
  (List.range 8).find? (fun v => v != w && s.on (RDC.WM_CFG_EN v) &&
    s.get (RDC.WM_CFG_STATION v) == s.get (RDC.WM_CFG_STATION w))

/-- Member `w` is the preferred one of its station; what tells a witness is left open. -/
def State.wmPreferred (s : State) (w : Nat) : Bool :=
  s.on (RDC.WM_CFG_MEMBER w) == Config.witnessPrefB (s.get (RDC.WM_CFG_STATION w))

/-- A cold-start request of member `w` may be granted (R354). -/
def State.coldOk (s : State) (w : Nat) : Bool :=
  (s.leaseOf (s.get (RDC.WM_CFG_STATION w))).dirty.isNone &&
    (s.wmPreferred w || (match s.otherMember w, (s.wm w).firstReq with
      | none, some t => decide (t + secs 2 ≤ s.mono)
      | some v, some t => decide (t + secs 2 ≤ s.mono) &&
          (match (s.wm v).lastReq with | none => true | some r => decide (r < t))
      | _, none => false))

/-- The guard of R350: 2 ms since the end of another member's lease. -/
def State.guardOver (s : State) (w : Nat) : Bool :=
  let l := s.leaseOf (s.get (RDC.WM_CFG_STATION w))
  match l.ended with
  | none => true
  | some t => l.last == some w || decide (t + ms 2 ≤ s.mono)

/-- 22 ms of witness duty have passed (R350). -/
def State.dutyOld (s : State) : Bool := match s.rdc.dutyAt with | none => false | some t => decide (t + ms 22 ≤ s.mono)

/-- LEASE_REQ of member `w` at the witness (R350, R354). -/
def State.judgeReq (s : State) (w seq flags : Nat) : State :=
  let stn := s.get (RDC.WM_CFG_STATION w)
  let s := s.lapseLease stn
  let v := s.wm w
  let s := s.setWm w { v with flags := flags, firstReq := some (v.firstReq.getD s.mono), lastReq := some s.mono }
  let l := s.leaseOf stn
  let free := l.holder.isNone || l.holder == some w
  let renewing := l.holder == some w
  let regaining := flags.testBit 7 && (l.dirty == some w || l.last == some w)
  let cold := !flags.testBit 2 && !regaining && !renewing
  let heard := s.pathUp (5 + w)
  let lastOther := match s.otherMember w with
    | none => false
    | some o => l.last == some o && (s.wm o).pend.isSome && !renewing
  if !s.duty || !s.dutyOld || !free || !heard || lastOther || (cold && !s.coldOk w) then s.refuse w
  else if !s.guardOver w then s.setWm w { s.wm w with pend := some seq }
  else s.grant w seq

/-- A free station goes to a window master with a request waiting: the one that held it last, else the lowest. -/
def State.grantNext (s : State) (stn : Nat) (last : Option Nat) : State :=
  let c := (List.range 8).filter (fun w => s.on (RDC.WM_CFG_EN w) && s.get (RDC.WM_CFG_STATION w) == stn && (s.wm w).pend.isSome)
  match (c.find? (fun w => last == some w)).orElse (fun _ => c.head?) with
  | none => s
  | some w => s.grant w ((s.wm w).pend.getD 0)

/-- The guard of station `stn` ends (R350): a pending request is granted, that of the last holder first. -/
def State.guardEnd (s : State) (stn : Nat) : State :=
  let l := s.leaseOf stn
  match l.holder, l.ended with
  | none, some t => (s.untilMono (t + ms 2)).grantNext stn l.last
  | _, _ => s

/-- 22 ms after its duty starts the witness may grant (R350). -/
def State.dutyHold (s : State) : State := match s.rdc.dutyAt with | none => s | some t => s.untilMono (t + ms 22)

/-- 2 s without a request from the preferred member of station `stn` (R354): the other member's next request is granted. -/
def State.coldWait (s : State) (stn : Nat) : State :=
  match (List.range 8).find? (fun w => s.on (RDC.WM_CFG_EN w) && s.get (RDC.WM_CFG_STATION w) == stn && !s.wmPreferred w) with
  | none => s
  | some w => match (s.wm w).firstReq with
    | none => s
    | some t => s.untilMono (t + secs 2)

/-- A heartbeat of member `w` at the witness (R348, R354): a former holder seen stopped frees cold starts. -/
def State.memberHeartbeat (s : State) (w flags : Nat) : State :=
  let stn := s.get (RDC.WM_CFG_STATION w)
  let s := (s.lapseLease stn).setWm w { s.wm w with hbAt := some s.mono, flags := flags }
  let l := s.leaseOf stn
  let stopped := flags % 4 == roleNONE || flags % 4 == roleSTANDBY || flags.testBit 4
  if l.dirty = some w ∧ stopped then s.setLease stn { l with dirty := none } else s

/-- Witness duty starts or ends with the module state and the enabled entries (R355). -/
def State.trackDuty (s : State) : State :=
  if s.duty then (if s.rdc.dutyAt.isSome then s else { s with rdc := { s.rdc with dutyAt := some s.mono } })
  else { s with rdc := { s.rdc with dutyAt := none, leases := [], wm := [] } }

/-! ### The time exchange (R358) -/

/-- The sync link of the exchange. -/
def State.timeLink (s : State) : Nat := if s.pathUp 0 then 0 else 1

/-- A servo interval after its last TIME_REQ the standby sends the next, with egress stamp `t1`. -/
def State.timeStart (s : State) (t1 : BitVec 32) : State :=
  if s.mstate == stRUN && s.redundant && s.role == roleSTANDBY then
    let s := s.untilMono (s.rdc.exAt + s.servoT)
    let s := s.rdcSend (.peerOn s.timeLink) 9 0 0
    { s with rdc := { s.rdc with timeEx := some ⟨s.rdc.seq, s.mono, t1, none⟩, exAt := s.mono } }
  else s

/-- The active module answers TIME_REQ: ingress stamp `t2`, egress stamp of the answer `t3`. -/
def State.timeReq (s : State) (k seq t2 t3 : Nat) : State :=
  if s.runOrSafe && s.role != roleSTANDBY then
    let s := s.rdcSend (.peerOn (k % 2)) 10 seq t2
    s.rdcSend (.peerOn (k % 2)) 11 s.rdc.seq t3
  else s

/-- TIME_RESP at the standby with ingress stamp `t4`. -/
def State.timeResp (s : State) (seq arg arg2 : Nat) (t4 : BitVec 32) : State :=
  match s.rdc.timeEx with
  | some x => if x.seq = arg ∧ s.mono ≤ x.sentAt + ms 10 then
      { s with rdc := { s.rdc with timeEx := some { x with resp := some (BitVec.ofNat 32 arg2, t4, seq) } } } else s
  | none => s

/-- TIME_FUP at the standby: the offset, its half rounded in a direction that the manual does not give (a free value), goes to
the servo. A round trip above 1 ms discards the exchange. -/
def State.timeFup (s : State) (arg arg2 : Nat) : State :=
  match s.rdc.timeEx with
  | some x => match x.resp with
    | some (t2, t4, q) =>
      if q = arg ∧ s.mono ≤ x.sentAt + ms 10 then
        let s := { s with rdc := { s.rdc with timeEx := none } }
        let t3 := BitVec.ofNat 32 arg2
        let trip := (t4 - x.t1).toInt - (t3 - t2).toInt
        let d := (t4 - t3).toInt - (t2 - x.t1).toInt
        let (s, r) := s.free
        let o := d / 2 + (if d % 2 = 1 ∧ r % 2 = 1 then 1 else 0)
        if 1000000 < trip then s
        else if s.mstate == stRUN && s.role == roleSTANDBY then s.offsetCommit o 31 else s
      else s
    | none => s
  | none => s

/-- 10 ms after TIME_REQ the exchange is discarded. -/
def State.timeTimeout (s : State) : State :=
  match s.rdc.timeEx with
  | none => s
  | some x => let s := s.untilMono (x.sentAt + ms 10); { s with rdc := { s.rdc with timeEx := none } }

/-! ### Planned handover (R368 to R370) -/

/-- The fastest cyclic task of the scheduled sequencers: sequencer, task, cycle in ms. -/
def State.fastest (s : State) : Option (Nat × Nat × Nat) :=
  ((List.range 4).flatMap (fun q => (List.range 8).map (fun t => (q, t)))).foldl (fun a x =>
    let i := s.imgTask x.1 x.2
    if s.schedRun x.1 && i.present && i.cycleMs != 0 then
      match a with | none => some (x.1, x.2, i.cycleMs) | some y => if i.cycleMs < y.2.2 then some (x.1, x.2, i.cycleMs) else a
    else a) none

/-- T_fast in ns. -/
def State.tFast (s : State) : Nat := match s.fastest with | none => 0 | some x => ms x.2.2

/-- The first tick boundary at or after vessel time `t` that is a cycle boundary of the fastest task. -/
def State.nextFast (s : State) (t : Nat) : Nat :=
  match s.fastest with
  | none => (t + 99999) / 100000 * 100000
  | some (q, k, c) => let ph := (s.imgTask q k).phase * 100000 % ms c
    (t + ms c - ph - 1) / ms c * ms c + ph

/-- A planned handover starts for cause 2 (asked for) or 3 (revert): HANDOVER names the tick (R368). -/
def State.startHandover (s : State) (cause : Nat) : State :=
  let h := s.nextFast (s.now + ms 10)
  let s := s.rdcSend .peer 8 (h % 2 ^ 32) 0
  { s with rdc := { s.rdc with handover := some (BitVec.ofNat 64 h, cause) } }

/-- A handover is in progress (R369). -/
def State.handoverOn (s : State) : Bool := s.rdc.handover.isSome || s.rdc.awaitPeer.isSome

/-- HANDOVER_REQ (R369). -/
def State.handoverReq (s : State) (m : Nat) : State :=
  if s.readyStandby && !s.handoverOn then s.startHandover 2 else s.lost 0x05 0x400 4 m

/-- The handover tick (R368): a tick that is not quiet moves the handover to the next cycle boundary of the fastest task. -/
def State.handoverTick (s : State) : State :=
  match s.rdc.handover with
  | none => s
  | some (h, cause) =>
    if !(s.mstate == stRUN && s.role == roleACTIVE) then { s with rdc := { s.rdc with handover := none } }
    else
      let s := s.untilTime h
      if !(List.range 4).all s.quiet then
        let h' := s.nextFast (h.toNat + 100000)
        let s := s.rdcSend .peer 8 (h' % 2 ^ 32) 0
        { s with rdc := { s.rdc with handover := some (BitVec.ofNat 64 h', cause) } }
      else
        let s := (s.rdcSend .witness 7 0 0).rdcSend .peer 7 0 0
        let s := s.becomeStandby.bump RDC.RDC_CNT0_HANDOVER_CNT
        { s with rdc := { s.rdc with awaitPeer := some s.mono } }

/-- The limit of a handover: 50 ms + T_fast after its tick, T_fast from the images as loaded. -/
def State.handoverLimit (s : State) : Nat :=
  ms 50 + (((List.range 4).flatMap (fun q => (List.range 8).map (fun t => s.imgTask q t))).foldl (fun a i =>
    if i.present && i.cycleMs != 0 && (a == 0 || decide (ms i.cycleMs < a)) then ms i.cycleMs else a) 0)

/-- RELINQUISH from the peer ends the lease that this member signed; from member `w` its lease at the witness (R368). -/
def State.peerRelinquish (s : State) : State :=
  { s with rdc := { s.rdc with signUntil := s.rdc.signUntil.map (fun t => min t s.mono), toSince := s.mono } }

/-- HANDOVER from the peer: cause 3 where this member wanted the return (R368, R370). -/
def State.peerHandover (s : State) : State :=
  { s with rdc := { s.rdc with peerHandover := if s.revertFlag then 3 else 2 } }

/-- The preferred standby has been READY for HOLDOFF_MIN (R370). -/
def State.revertHoldoff (s : State) : State :=
  match s.rdc.readySince with
  | none => s
  | some t =>
    if s.preferred && s.ready then
      (s.untilMono (t + secs (60 * s.get RDC.REVERT_CFG_HOLDOFF_MIN))).put RDC.REVERT_STAT_WANTED 1
    else s

/-- The conditions for a return to the preferred member, at the active one (R370). The peer's own conditions come in its
REVERT_WANTED flag. -/
def State.revertOk (s : State) : Bool :=
  s.readyStandby && !s.preferred && s.peerFlag 6 && s.on RDC.REVERT_CFG_REVERT_EN && !s.on RDC.REVERT_STAT_INHIBITED &&
    !s.anyDemand && !s.peerFlag 5 && !s.handoverOn

/-- The active member starts the return (R370). -/
def State.revertStart (s : State) : State :=
  if s.revertOk then (s.startHandover 3).bump RDC.RDC_CNT1_REVERT_CNT else s

/-! ### Driving (R352, R364, R368, R392) -/

/-- The role drives from now on: LAST_TO and the counters of a change of role (R364, R374). -/
def State.startDriving (s : State) : State :=
  let c := s.rdc.toCause
  let s := s.put RDC.ROLE_DRIVING 1
  let s := if c = 0 then s
    else
      let s := (s.put RDC.LAST_TO_CAUSE c).putSat RDC.LAST_TO_DURATION_MS ((s.mono - s.rdc.toSince) / 1000000)
      let s := s.put64 RDC.LAST_TO_TIME_LO RDC.LAST_TO_TIME_HI s.now
      if c = 1 then s.bump RDC.RDC_CNT0_TAKEOVER_CNT
      else if c = 2 ∨ c = 3 then s.bump RDC.RDC_CNT0_HANDOVER_CNT else s
  { s with rdc := { s.rdc with drove := true, toCause := 0 } }

/-- Driving begins at this tick boundary (R352, R392): for a member that has driven in this role at once, else at the first
cycle boundary of the fastest cyclic task. -/
def State.driveStarts (s : State) : Bool :=
  s.running && !s.on RDC.ROLE_LAPSED && !s.on RDC.ROLE_DRIVING && (s.role == roleSINGLE || s.leaseValid) &&
    (s.rdc.drove || (!s.on SLC.SLC_STAT_RESTORING && (match s.fastest with
      | none => true
      | some (q, t, _) => s.onGrid q t s.tku.grid && (s.seqOf q).cyclicOn)))

/-- What the logic side sends bank `b` this tick (R202, R352, R368, R441): 0 DRIVE, 1 HOLD, 2 RELEASE, none. -/
def State.frameMode (s : State) (b : Nat) : Option Nat :=
  let st := s.mstate
  let recent := match s.rdc.lastDrive with
    | none => false | some t => decide (s.mono < t + ms (s.get (FB.BANK_CFG_RELEASE_MS b)))
  if st = stCONFIG ∨ st = stSTARTUP then some 2
  else if st = stRUN then
    (if s.on RDC.ROLE_DRIVING && (s.role == roleSINGLE || s.leaseValid) then some 0
     else if recent then some 1
     else if s.on RDC.ROLE_LAPSED && s.on RDC.PEER_STAT_EXCLUDED then some 1
     else some 2)
  else none

end Sys2Proof.Machine
end

