-- ==== Sys2Proof/Machine/PnlOps.lean ====
section
/-! DEFINITION. Block faults (R54, R106, R239, R252, R277, R383), and the front panel: what it shows, its LEDs, updates, temperature
bands, blink and integrity checks (R423 to R436). -/

namespace Sys2Proof.Machine

/-- PG_STAT.FAULT of a page: the stored fault of a block (R252), an abort beyond its bound (R54), and the block's own faults. -/
def State.pageFault (s : State) (p : Nat) : Bool :=
  s.on (HDR.PG_STAT_FAULT p) || s.on (HDR.PG_ABORT_STAT_OVER_BOUND p) ||
    (if p = 0x01 then (List.range 11).any (fun d => s.on (CLO.DOM_STAT_FAULT d))
     else if p = 0x03 then s.get PSU.RAIL_STAT_FAULTED != 0
     else if p = 0x07 then s.on GNT.GNT_STAT_FAULT
     else if 0x10 ≤ p ∧ p < 0x14 then s.on (SCP.PAIR_STAT_HALTED (p - 0x10))
     else if 0x14 ≤ p ∧ p < 0x18 then (s.seqOf (p - 0x14)).startFailed || (s.seqOf (p - 0x14)).halted
     else false)

/-- The assigned pages. -/
def allPages : List Nat := (List.range 0x91).filter (fun p => (pageKind p).isSome)

/-! ### What is shown (R423, R424) -/

/-- Up to `k` entries of a list, and how many more there are. -/
def shorten (k : Nat) (l : List Nat) : List Nat := l.take k ++ [l.length - k]

/-- The safety inputs whose start-up test is pending (R275). -/
def State.stestList (s : State) : List Nat :=
  (List.range 128).filter (fun i => s.bit (GNT.STEST_PEND (i / 32)) (i % 32))

/-- The characters of a word of the text area: a code outside 0x20 to 0x7E is shown as "?" (R423). -/
def textChars (w : Nat) : List Nat :=
  (List.range 4).map (fun k => let c := w / 256 ^ k % 256; if 0x20 ≤ c ∧ c ≤ 0x7E then c else 0x3F)

/-- The composed image (R423). -/
def State.compose (s : State) : PnlImg :=
  let faults := (allPages.filter s.pageFault).map (· + 0x10000)
  let demand (d : Nat) := ((List.range 77).filter (fun m => s.demand m == d)).map (· + 0x10000 * (d + 1))
  { header := [s.mstate, s.role, s.get RDC.ROLE_LAPSED, b2n s.degraded, s.get RDC.STN_CFG_STATION, s.get RDC.STN_CFG_MEMBER,
      s.get SYS.SERIAL_LO, s.get SYS.SERIAL_HI]
    safety := [s.get SYS.MODULE_STATE_SAFETY_UNCOMMISSIONED, s.get GNT.GNT_STAT_COMMISSIONED, s.get GNT.GNT_STAT_SEAL_MISMATCH,
      s.get GNT.GNT_STAT_SEAL_CHANGED, s.get GNT.PSET_SIG] ++ shorten 8 s.stestList
    forcing := shorten 8 (s.forces.map (fun e => e.2.target + (if e.2.channel then 0x10000 else 0))) ++
      [s.get (LSQ.FORCE_CANCEL_CNT 0)] ++ (List.range 4).map (fun p => s.get (SCP.PAIR_STAT_LOCK_BROKEN p))
    faults := s.get SYS.STATE_CAUSE_CAUSE :: shorten 3 (faults ++ demand 3 ++ demand 2)
    text := (List.range 20).flatMap (fun i => textChars (s.get (PNL.TEXT i))) }

/-- The numbers of an image, for its CRC. -/
def PnlImg.words (g : PnlImg) : List Nat := g.header ++ g.safety ++ g.forcing ++ g.faults ++ g.text

/-- The FAULT LED shows red (R424). -/
def State.faultRed (s : State) : Bool :=
  s.mstate == stSAFE || s.mstate == stHALT || allPages.any s.pageFault || s.on CLO.BUTTON_STUCK

/-- A nibble of LED_STAT: colour 0 off, 1 green, 2 amber, 3 red; rate 0 steady, 1 slow, 2 fast. -/
def led (colour rate : Nat) : Nat := colour + 4 * rate

/-- The RUN LED (R424). -/
def State.ledRun (s : State) : Nat :=
  let st := s.mstate
  if st = stRUN then led 1 0 else if st = stBOOT ∨ st = stCONFIG ∨ st = stSTARTUP then led 1 2
  else if st = stSAFE ∨ st = stHALT then led 3 0 else 0

/-- The ROLE LED (R424). -/
def State.ledRole (s : State) : Nat :=
  if s.role = roleSINGLE ∨ s.role = roleNONE then 0
  else if s.on RDC.ROLE_LAPSED then led 2 0
  else if s.role = roleACTIVE then led (if s.degraded then 2 else 1) 0
  else led (if s.ready then 1 else 2) 1

/-- The SAFE LED (R424). -/
def State.ledSafe (s : State) : Nat :=
  let set := s.on GNT.GNT_STAT_PSET_VALID
  if s.on GNT.GNT_STAT_FAULT || s.on GNT.VOTE_STAT_EXPIRED then led 3 0
  else if s.on SYS.MODULE_STATE_SAFETY_UNCOMMISSIONED && set then led 2 1
  else if s.on GNT.VOTE_STAT_HOLDING || !s.stestList.isEmpty then led 2 0
  else if s.on GNT.GNT_STAT_COMMISSIONED && s.on GNT.GNT_STAT_SCANNING then led 1 0 else 0

/-- The FORCE LED (R424). -/
def State.ledForce (s : State) : Nat :=
  if (List.range 4).any (fun p => s.on (SCP.PAIR_STAT_LOCK_BROKEN p)) then led 3 2
  else if !s.forces.isEmpty then led 2 0 else 0

/-- The FAULT LED (R424). -/
def State.ledFault (s : State) : Nat :=
  if s.mstate = stSAFE ∨ s.mstate = stHALT ∨ allPages.any s.pageFault = true then led 3 0
  else if s.on CLO.BUTTON_STUCK then led 3 2
  else if s.on PNL.PNL_STAT_CRACK || s.on PNL.PNL_STAT_LOOP_LOST || s.on PNL.PNL_STAT_FRAME_ERR ||
    (List.range 77).any (fun m => decide (2 ≤ s.demand m)) then led 2 0 else 0

/-- A lamp test runs: it lasts 2 s (R424). -/
def State.lampOn (s : State) : Bool := match s.pnl.lamp with | none => false | some t => decide (s.mono < t + secs 2)

/-- LED_STAT (R424, R436): in a lamp test every LED red for 1 s, then green for 1 s. -/
def State.ledStat (s : State) : Nat :=
  match s.pnl.lamp with
  | some t =>
    if s.mono < t + secs 1 then 0x33333 else if s.mono < t + secs 2 then 0x11111
    else s.ledRun + 16 * s.ledRole + 256 * s.ledSafe + 4096 * s.ledForce + 65536 * s.ledFault
  | none => s.ledRun + 16 * s.ledRole + 256 * s.ledSafe + 4096 * s.ledForce + 65536 * s.ledFault

/-! ### Temperature (R427, R428) -/

/-- The next band from `b` at `t` (0.1 °C): a boundary is crossed only 1 °C beyond it. -/
def bandStep (t : Int) (b : Nat) : Nat :=
  if b < 9 ∧ -200 + 100 * (b : Int) + 10 ≤ t then b + 1 else if 0 < b ∧ t ≤ -300 + 100 * (b : Int) - 10 then b - 1 else b

/-- The band at `t` from band `b` (R427). -/
def bandOf (t : Int) (b : Nat) : Nat := (List.range 9).foldl (fun b _ => bandStep t b) b

/-- Lengths in ms of the band and image waveforms of a band (R427). -/
def bandWave (b : Nat) : Nat := [0, 600, 400, 240, 150, 120, 100, 80, 80, 0].getD b 0
/-- The image waveform (R427). -/
def imageWave (b : Nat) : Nat := [0, 2400, 1600, 960, 600, 480, 400, 320, 320, 0].getD b 0

/-- The length in ms of a phase of a waveform in a band (R427). -/
def phaseMs (b : Nat) : Nat := [0, 60, 50, 40, 30, 20, 20, 20, 20, 0].getD b 0

/-- The panel's temperature is read. -/
def State.panelTemp (s : State) (t : Int) : State :=
  let b := bandOf t (s.get PNL.PNL_TEMP_BAND)
  ((s.put PNL.PNL_TEMP_TEMP (ux 16 t)).put PNL.PNL_TEMP_BAND b).putB PNL.PNL_STAT_HELD (b == 0 || b == 9)

/-- Set the panel driver's state. -/
def State.setPnl (s : State) (p : Pnl) : State := { s with pnl := p }

/-- After a waveform the bands are compared (R428). -/
def State.bandCompare (s : State) : State :=
  let a := s.get PNL.PNL_TEMP_BAND
  let b := s.get PNL.PNL_TEMP_LATCHED
  if a + 2 ≤ b ∨ b + 2 ≤ a then s.put PNL.PNL_STAT_CLEANUP_PENDING 1 else s

/-! ### Updates (R425, R426, R428 to R430) -/

/-- BUDGET_OUT: the day's updates are spent (R425). -/
def State.budgetOut (s : State) : Bool := decide (s.get PNL.PNL_CFG_DAY_BUDGET ≤ s.get PNL.DAY_USED_UPDATES)

/-- The header, safety or forcing region differs from the one shown (R425). -/
def State.exemptChange (s : State) : Bool :=
  let g := s.compose
  match s.pnl.shown with
  | none => true
  | some o => !(g.header == o.header && g.safety == o.safety && g.forcing == o.forcing)

/-- A waveform starts. -/
def State.waveStart (s : State) (step : Nat) : State :=
  let s := ((s.put PNL.PNL_STAT_STEP step).put PNL.PNL_STAT_UPDATING 1).put PNL.PNL_TEMP_LATCHED (s.get PNL.PNL_TEMP_BAND)
  s.setPnl { s.pnl with wfAt := s.mono }

/-- An update starts, if one is due and may start, with the panel at `t` (R425, R426). An update that waits for its holdoff
starts when that has passed. -/
def State.updateStart (s : State) (t : Int) : State :=
  if s.on PNL.PNL_STAT_UPDATING || s.on PNL.PNL_STAT_STEP || !s.enabled 0x09 then s
  else
    let s := s.panelTemp t
    let full := s.pnl.bootClear || s.pnl.refresh || s.on PNL.PNL_STAT_CLEANUP_PENDING
    let exempt := full || s.exemptChange
    let differs := s.pnl.shown != some s.compose
    if s.pfw || s.on PNL.PNL_STAT_HELD || !(full || differs) || (!exempt && s.budgetOut) then s
    else
      let s := match s.pnl.lastEnd with
        | some e => if exempt then s else s.untilMono (e + ms (s.get PNL.PNL_CFG_HOLDOFF_MS))
        | none => s
      let clear := full || s.on PNL.PNL_STAT_UPD_OPEN
      let s := if s.on PNL.PNL_STAT_CLEANUP_PENDING then s.bump PNL.PNL_CNT_CLEANUP_CNT else s
      let s := if exempt then s else s.put PNL.DAY_USED_UPDATES (s.get PNL.DAY_USED_UPDATES + 1)
      let s := (s.put PNL.PNL_STAT_CLEANUP_PENDING 0).put PNL.PNL_STAT_UPD_OPEN 1
      let s := s.setPnl { s.pnl with target := some s.compose, exempt := exempt, refresh := false, bootClear := false }
      s.waveStart (if clear then 3 else 1)

/-- Count `n` sixteenths of a waveform (R432). -/
def State.countWave (s : State) (n : Nat) : State := s.putSat PNL.WAVEFORMS (s.get PNL.WAVEFORMS + n)

/-- An update ends with its image shown (R426). -/
def State.updateDone (s : State) : State :=
  let crc := match s.pnl.target with | none => s.get PNL.IMG_CRC | some g => (Config.imageCrc g.words).toNat
  let s := (((s.put PNL.PNL_STAT_STEP 0).put PNL.PNL_STAT_UPDATING 0).put PNL.PNL_STAT_UPD_OPEN 0).put PNL.IMG_CRC crc
  s.setPnl { s.pnl with shown := s.pnl.target, target := none, lastEnd := some s.mono, bad := false }

/-- The band waveform ends (R426): the image waveform starts, unless the band now forbids it (R428). -/
def State.bandDone (s : State) (t : Int) : State :=
  if s.get PNL.PNL_STAT_STEP ≠ 1 then s
  else
    let s := s.untilMono (s.pnl.wfAt + ms (bandWave (s.get PNL.PNL_TEMP_LATCHED)))
    let s := ((s.countWave 16).panelTemp t).bandCompare
    if s.on PNL.PNL_STAT_HELD then (s.put PNL.PNL_STAT_STEP 0).put PNL.PNL_STAT_UPDATING 0 else s.waveStart 2

/-- The image waveform ends (R426). -/
def State.imageDone (s : State) (t : Int) : State :=
  if s.get PNL.PNL_STAT_STEP ≠ 2 then s
  else
    let s := s.untilMono (s.pnl.wfAt + ms (imageWave (s.get PNL.PNL_TEMP_LATCHED)))
    ((s.countWave 16).panelTemp t).bandCompare.updateDone

/-- A clearing waveform ends with the new image shown (R426, R429). -/
def State.clearDone (s : State) (t : Int) : State :=
  if s.get PNL.PNL_STAT_STEP ≠ 3 then s
  else
    let s := s.untilMono (s.pnl.wfAt + 2 * ms (imageWave (s.get PNL.PNL_TEMP_LATCHED)))
    ((s.countWave 32).panelTemp t).bandCompare.updateDone

/-- The abort of the panel driver (R430): the update stops and the flag stays set. -/
def State.pnlAbort (s : State) : State :=
  if s.on PNL.PNL_STAT_UPDATING then
    let s := ((s.put PNL.PNL_STAT_STEP 0).put PNL.PNL_STAT_UPDATING 0).bump PNL.PNL_CNT_ABORT_CNT
    s.setPnl { s.pnl with target := none }
  else s

/-- The start of the module (R429): an open update leads to a clearing waveform to the BOOT image. -/
def State.pnlStart (s : State) : State :=
  if s.on PNL.PNL_STAT_UPD_OPEN then (s.setPnl { s.pnl with bootClear := true }).bump PNL.PNL_CNT_INTERRUPTED_CNT else s

/-- PNL_CMD (R435): 1 REFRESH, 2 LAMP_TEST. -/
def State.pnlCmd (s : State) (v m : Nat) : State :=
  if v = 1 then if s.pfw then s.lost 0x09 0x400 4 m else s.setPnl { s.pnl with refresh := true }
  else if v = 2 then if s.lampOn then s.lost 0x09 0x400 4 m else s.setPnl { s.pnl with lamp := some s.mono }
  else s.badAccess 0x09 0x400 7 m

/-- The lamp test ends after 2 s (R424). -/
def State.lampDone (s : State) : State :=
  match s.pnl.lamp with
  | none => s
  | some t => let s := s.untilMono (t + secs 2); s.setPnl { s.pnl with lamp := none }

/-! ### Blink and integrity (R431 to R434) -/

/-- The marker blinks (R431). -/
def State.blinking (s : State) : Bool :=
  s.get PNL.PNL_CFG_BLINK_S != 0 && (s.faultRed || (List.range 77).any (fun m => s.demand m == 3)) &&
    !s.on PNL.PNL_STAT_HELD && !s.budgetOut && decide (s.get PNL.DAY_USED_TOGGLES < 1000) && s.enabled 0x09

/-- A blink toggle (R431): a partial waveform of two phases, which sets and clears the update-open flag like an update. DESIGN CHOICE
(assumption 45): none while an interrupted update has left the flag set, whose clearing it would lose. -/
def State.blinkToggle (s : State) : State :=
  if !s.blinking || s.on PNL.PNL_STAT_UPDATING || s.on PNL.PNL_STAT_UPD_OPEN then s
  else
    let s := s.untilMono (s.pnl.lastToggle + secs (s.get PNL.PNL_CFG_BLINK_S))
    let s := (s.countWave 1).put PNL.DAY_USED_TOGGLES (s.get PNL.DAY_USED_TOGGLES + 1)
    let s := s.put PNL.PNL_TEMP_LATCHED (s.get PNL.PNL_TEMP_BAND)
    let s := s.untilMono (s.mono + 2 * ms (phaseMs (s.get PNL.PNL_TEMP_LATCHED)))
    s.setPnl { s.pnl with marker := !s.pnl.marker, lastToggle := s.mono }

/-- The edge loop is measured every 1 s (R433). -/
def State.crackCheck (s : State) (ohm : Nat) : State :=
  let s := match s.pnl.crackAt with | none => s | some t => s.untilMono (t + secs 1)
  let s := s.setPnl { s.pnl with crackAt := some s.mono }
  ((s.putSat PNL.CRACK_OHM ohm).putB PNL.PNL_STAT_CRACK (decide (2000 < ohm))).putB PNL.PNL_STAT_LOOP_LOST (decide (ohm < 50))

/-- The frame memory is checked against IMG_CRC (R434). -/
def State.frameCheck (s : State) (match_ : Bool) : State :=
  if match_ then (s.put PNL.PNL_STAT_FRAME_ERR 0).setPnl { s.pnl with bad := false }
  else
    let s := (s.bump PNL.PNL_CNT_FRAME_ERR_CNT).put PNL.PNL_STAT_CLEANUP_PENDING 1
    let s := if s.pnl.bad then s.put PNL.PNL_STAT_FRAME_ERR 1 else s
    s.setPnl { s.pnl with bad := true }

/-- The close of a DAY epoch (R425, R431). -/
def State.pnlDay (s : State) : State := (s.put PNL.DAY_USED_UPDATES 0).put PNL.DAY_USED_TOGGLES 0

/-! ### Epochs of the three blocks that follow OP_SECONDS -/

/-- The epoch closes that are due at this tick (R399): the Cistern's, and at a DAY close the planner's (R416) and the panel's
(R425). -/
def State.epochs (s : State) : State :=
  if !s.on CIS.CIS_STAT_SAMPLING then s
  else
    let day := decide (s.cis.days < s.ops / 86400)
    let s := s.cisEpochs
    if day then (if s.enabled 0x02 then s.mplDay else s).pnlDay else s

end Sys2Proof.Machine
end

