-- ==== Sys2Proof/Machine/EthOps.lean ====
section
/-! DEFINITION. The Ethernet ports (R318 to R323): transmission in priority order, one-step PTP edits, PRP trailers and
duplicate discard, and the filter steps of a received frame. Field offsets of Ethernet, IPv4, UDP, PTP and PRP are those of
IEEE 802.3, RFC 791, RFC 768, IEEE 1588-2019 and IEC 62439-3, which the manual names (PRESUMED, assumption log 16). -/

namespace Sys2Proof.Machine

/-! ### Frames -/

/-- The number that a list of bytes spells, highest byte first. -/
def beNat (l : List Byte) : Nat := leNat l.reverse

/-- The `n` bytes of a number, highest byte first. -/
def natBE (n v : Nat) : List Byte := (natLE n v).reverse

/-- A big-endian number of `n` bytes at offset `k` of a frame. -/
def beAt (f : List Byte) (k n : Nat) : Nat := beNat ((f.drop k).take n)

/-- A frame with the bytes `b` written over it from offset `k`. -/
def overlay (f : List Byte) (k : Nat) (b : List Byte) : List Byte := f.take k ++ b ++ f.drop (k + b.length)

/-- The frame carries a VLAN tag. -/
def isVlan (f : List Byte) : Bool := beAt f 12 2 == 0x8100

/-- Offset of the Ethernet payload. -/
def ethPay (f : List Byte) : Nat := if isVlan f then 18 else 14

/-- The EtherType of a frame, behind a VLAN tag if there is one. -/
def etherType (f : List Byte) : Nat := beAt f (ethPay f - 2) 2

/-- The destination and source addresses. -/
def ethDst (f : List Byte) : Nat := beAt f 0 6
/-- The source address. -/
def ethSrc (f : List Byte) : Nat := beAt f 6 6

/-- Length of the IPv4 header. -/
def ipHdr (f : List Byte) : Nat := 4 * (beAt f (ethPay f) 1 % 16)

/-- An unfragmented IPv4 datagram that carries UDP. Fragments are never reassembled (R318). -/
def isUdp (f : List Byte) : Bool :=
  let o := ethPay f
  etherType f == 0x0800 && beAt f o 1 / 16 == 4 && decide (20 ≤ ipHdr f) && beAt f (o + 9) 1 == 17 &&
    beAt f (o + 6) 2 % 0x4000 == 0 && decide (o + ipHdr f + 8 ≤ f.length)

/-- Offset of the UDP header. -/
def udpAt (f : List Byte) : Nat := ethPay f + ipHdr f
/-- UDP destination port. -/
def udpPort (f : List Byte) : Nat := beAt f (udpAt f + 2) 2
/-- UDP source port. -/
def udpSrcPort (f : List Byte) : Nat := beAt f (udpAt f) 2
/-- The UDP payload. -/
def udpData (f : List Byte) : List Byte := (f.drop (udpAt f + 8)).take (beAt f (udpAt f + 4) 2 - 8)
/-- IPv4 source and destination address. -/
def ipSrc (f : List Byte) : Nat := beAt f (ethPay f + 12) 4
/-- IPv4 destination address. -/
def ipDst (f : List Byte) : Nat := beAt f (ethPay f + 16) 4

/-- Sum of the 16-bit big-endian words of a list, the last filled with a zero byte. -/
def sum16 : List Byte → Nat
  | [] => 0
  | [a] => 256 * a.toNat
  | a :: b :: t => 256 * a.toNat + b.toNat + sum16 t

/-- A ones'-complement sum is all ones. -/
def onesOk (n : Nat) : Bool := n != 0 && n % 65535 == 0

/-- The IPv4 header and UDP checksums hold (R321). RIX always uses the UDP checksum (R108); elsewhere 0 is none. -/
def sumsOk (f : List Byte) : Bool :=
  let o := ethPay f
  let u := udpAt f
  let len := beAt f (u + 4) 2
  onesOk (sum16 ((f.drop o).take (ipHdr f))) && decide (8 ≤ len) && decide (u + len ≤ f.length) &&
    (if beAt f (u + 6) 2 = 0 then udpPort f != 47900
     else onesOk (sum16 ((f.drop u).take len) + sum16 ((f.drop (o + 12)).take 8) + 17 + len))

/-- The offset of the PTP message in a frame, if it is PTP (R321, step 6). -/
def ptpAt (f : List Byte) : Option Nat :=
  if etherType f = 0x88F7 then some (ethPay f)
  else if isUdp f && (udpPort f == 319 || udpPort f == 320) then some (udpAt f + 8) else none

/-- The message type of a PTP event message (R76): 0 Sync, 1 Delay_Req, 2 Pdelay_Req, 3 Pdelay_Resp. -/
def ptpEvent (f : List Byte) : Option Nat :=
  match ptpAt f with
  | none => none
  | some m => let t := beAt f m 1 % 16; if t < 4 then some t else none

/-! ### A port's identity -/

/-- The page that configures and counts port `p`: the even one of a PRP pair (R322). -/
def State.ethPage (s : State) (p : Nat) : Nat := if s.prpOdd p then p - 1 else p

/-- Port `p` belongs to a PRP pair (R322). -/
def State.inPrp (s : State) (p : Nat) : Bool := decide (p < 8) && s.on (ETH.PORT_CFG_PRP_EN (p - p % 2))

/-- The MAC address of port `p` (R318, R322). -/
def State.ethMac (s : State) (p : Nat) : Nat :=
  let e := s.ethPage p
  s.get (ETH.MAC_LO e) + 2 ^ 32 * s.get (ETH.MAC_HI e)

/-- The ports work in CONFIG, STARTUP_TEST, RUN and SAFE_HOLD. -/
def State.linksLive (s : State) : Bool := decide (stCONFIG ≤ s.mstate) && decide (s.mstate ≤ stSAFE)

/-- Link of port `p` up. -/
def State.linkUp (s : State) (p : Nat) : Bool := s.on (ETH.PORT_STAT_LINK p)

/-- A link that carries a frame of port `p` is up; `sel` is PRP_SEL, and 0 on a pair names both ports (R322). -/
def State.txUp (s : State) (p sel : Nat) : Bool :=
  if s.inPrp p then (sel != 2 && s.linkUp p) || (sel != 1 && s.linkUp (p + 1)) else s.linkUp p

/-! ### Transmission (R319, R320) -/

/-- The enabled transmit rings of port `p` with priority `pr`. -/
def State.txRings (s : State) (p pr : Nat) : List Nat :=
  (List.range 64).filter (fun r => s.ringOn r && s.get (QMG.RING_EP_CONS_CLASS r) == epEth &&
    s.get (QMG.RING_EP_CONS_INST r) == p && s.get (QMG.RING_CFG_PRIO r) == pr)

/-- The next ring with work after ring `last`, in turn. -/
def State.nextRing (s : State) (l : List Nat) (last : Nat) : Option Nat :=
  let w := l.filter (fun r => s.ringFill r != 0)
  match w.find? (fun r => decide (last < r)) with
  | some r => some r
  | none => w.head?

/-- The ring that port `p` serves next (R319). -/
def State.pickRing (s : State) (p : Nat) : Option Nat :=
  match s.nextRing (s.txRings p 1) (s.eth p).last1 with
  | some r => some r
  | none => s.nextRing (s.txRings p 0) (s.eth p).last0

/-- PRP_SEL of a transmit descriptor is not permitted (R322). -/
def State.badPrpSel (s : State) (p : Nat) (d : Desc) : Bool :=
  let sel := d.xinfo % 4
  sel == 3 || (sel != 0 && !s.inPrp p)

/-- Every descriptor of the rings in `l` is discarded with status 2 (R320). -/
def State.discardRing (s : State) (r : Nat) : Nat → State
  | 0 => s
  | n + 1 => if s.ringFill r = 0 then s else (s.ringDone r 2 none).discardRing r n
/-- The rings of a dead link lose their descriptors (R320). -/
def State.discardRings (s : State) : List Nat → State
  | [] => s
  | r :: t => (s.discardRing r 65536).discardRings t

/-- Port `p` starts its next frame (R319): frames of the SSE and the redundancy controller, then rings of PRIO 1, then of PRIO
0. A descriptor that the port cannot send is completed at once: DESC_ERR for its buffer or LEN (with status 1), status 2
with the link down, status 3 for PRP_SEL (R314, R320). -/
def State.ethStart (s : State) (p : Nat) : State :=
  let e := s.eth p
  if !s.linksLive || !s.enabled (0x40 + p) || s.prpOdd p || e.hand.isSome then s
  else if !e.q.isEmpty then
    (if s.txUp p 0 then s.setEth p { e with hand := some none } else s.setEth p { e with q := [] })
  else match s.pickRing p with
  | none => s
  | some r =>
    let d := s.desc r (s.get (QMG.RING_CONS_CONS_IDX r))
    let s := s.setEth p (if s.on (QMG.RING_CFG_PRIO r) then { e with last1 := r } else { e with last0 := r })
    if d.len < 14 ∨ 1518 < d.len then
      (s.putDesc r (s.get (QMG.RING_CONS_CONS_IDX r)) { d with status := 1 }).ringRefuse r
    else if !bufOk d.buf d.len then s.ringRefuse r
    else if s.badPrpSel p d then s.ringDone r 3 none
    else if !s.txUp p (d.xinfo % 4) then s.ringDone r 2 none
    else s.setEth p { s.eth p with hand := some (some r) }

/-- Port `p` sends `f` as a one-step event message (R78). -/
def State.oneStep (s : State) (p : Nat) (f : List Byte) : Bool :=
  s.feat 3 && s.on (ETH.PORT_CFG_ONE_STEP p) && s.on (ETH.PORT_CFG_PTP_EN p) && decide (p < 10) && (ptpEvent f == some 0 || ptpEvent f == some 3)

/-- The edits of R78 on a departing one-step event message whose timestamp point lies at vessel time `t`; `ing` is the ingress stamp that
the driver placed in the descriptor. -/
def oneStepEdit (f : List Byte) (t ing : Nat) : List Byte :=
  match ptpAt f with
  | none => f
  | some m =>
    let f := if ptpEvent f = some 0 then
        overlay f (m + 34) (natBE 6 (t / 1000000000) ++ natBE 4 (t % 1000000000))
      else
        let c := sx 64 (beAt f (m + 8) 8) + ((t % 2 ^ 32 + 2 ^ 32 - ing) % 2 ^ 32 : Nat) * 65536
        overlay f (m + 8) (natBE 8 (ux 64 c))
    if etherType f = 0x88F7 then f else overlay f (udpAt f + 6) (natBE 2 0)

/-- The frame on the wire, without FCS (R320): own source address, padded to 60 bytes. -/
def State.wireFrame (s : State) (p : Nat) (f : List Byte) : List Byte :=
  let f := overlay f 6 (natBE 6 (s.ethMac p))
  f ++ List.replicate (60 - f.length) 0#8

/-- A frame with the redundancy control trailer of LAN `lan` (R322). -/
def withTrailer (f : List Byte) (seq lan : Nat) : List Byte :=
  f ++ natBE 2 seq ++ natBE 2 (lan * 4096 + (f.length - ethPay f + 6) % 4096) ++ natBE 2 0x88FB

/-- Frames with the ports they leave by; a port whose link is down carries none (R320). -/
def State.sentOn (s : State) (l : List (Nat × List Byte)) : State :=
  { s with sent := s.sent ++ (l.filter (fun e => s.linkUp e.1)).map (fun e => (Link.eth e.1, e.2)) }

/-- The frame `f` leaves port `p`, or both ports of a pair, the odd one with `g` (R322). -/
def State.emitEth (s : State) (p sel : Nat) (f g : List Byte) : State :=
  if s.inPrp p && sel == 0 then
    let n := (s.eth p).prpSeq
    let s := s.setEth p { s.eth p with prpSeq := (n + 1) % 65536 }
    s.sentOn [(p, withTrailer f n 0xA), (p + 1, withTrailer g n 0xB)]
  else s.sentOn [if s.inPrp p && sel == 2 then (p + 1, g) else (p, f)]

/-- The frame in hand of port `p` has left `ago` ns ago, and the odd port of a pair `ago2` ns ago: each port of a pair timestamps and edits
its own copy (R76). The descriptor gets status 0, and the stamp if TS_REQ is set or the frame is a PTP event message of a port with
PTP_EN; WIT ports take none (R76, R320). DESIGN CHOICE (assumption 42): a descriptor that both ports of a pair serve gets the stamp of the
even port. A frame of the SSE or the redundancy controller is recorded as it was handed over; on a PRP pair both ports carry it. -/
def State.ethDone (s : State) (p ago ago2 : Nat) : State :=
  let e := s.eth p
  match e.hand with
  | none => s
  | some none =>
    match e.q with
    | [] => s.setEth p { e with hand := none }
    | f :: t =>
      let s := (s.setEth p { e with hand := none, q := t }).inc (ETH.TX_FRAMES p)
      s.sentOn ((p, f) :: (if s.inPrp p then [(p + 1, f)] else []))
  | some (some r) =>
    let s := s.setEth p { e with hand := none }
    match s.ringHead r with
    | none => s
    | some d =>
      let f := s.wireFrame p (s.bytes d.buf d.len)
      let edit (a : Nat) : List Byte := if s.oneStep p f then oneStepEdit f (s.timeAgo s.ethRes a).1 d.stamp else f
      let st := s.stampAgo s.ethRes (if d.xinfo % 4 = 2 then ago2 else ago)
      let stamped := decide (p < 10) && (d.tsReq || ((ptpEvent f).isSome && s.on (ETH.PORT_CFG_PTP_EN p)))
      ((s.emitEth p (d.xinfo % 4) (edit ago) (edit ago2)).ringDone r 0 (if stamped then some st else none)).inc (ETH.TX_FRAMES p)

/-- The frame in hand of port `p` has no link left to carry it. -/
def State.handLost (s : State) (p : Nat) : Bool :=
  match (s.eth p).hand with
  | some (some r) => !s.txUp p ((s.desc r (s.get (QMG.RING_CONS_CONS_IDX r))).xinfo % 4)
  | _ => false

/-- The link of port `p` is lost or restarts, which counts (R320, R327, R329). Once no link of the port or its pair is up, waiting frames
are lost and descriptors are discarded with status 2; while one port of a pair still has its link, the pair sends on that one, and a
frame in hand that was for the other port alone is discarded. -/
def State.linkLost (s : State) (p : Nat) : State :=
  let s := if s.linkUp p then s.bump (ETH.RX_CNT_LINK_DOWN_CNT (s.ethPage p)) else s
  let s := (s.put (ETH.PORT_STAT_LINK p) 0).put (ETH.PORT_STAT_SPEED_ACT p) 0
  let e := s.ethPage p
  if !s.txUp e 0 then (s.setEth e { s.eth e with hand := none, q := [] }).discardRings (s.txRings e 1 ++ s.txRings e 0)
  else if s.handLost e then
    match (s.eth e).hand with
    | some (some r) => (s.setEth e { s.eth e with hand := none }).ringDone r 2 none
    | _ => s
  else s

/-- The supervision frame of a PRP pair (R322). -/
def State.supFrame (s : State) (p : Nat) : List Byte :=
  let e := s.eth p
  s.wireFrame p (natBE 6 0x01154E000100 ++ natBE 6 0 ++ natBE 2 0x88FB ++ natBE 2 1 ++ natBE 2 e.prpSeq ++ [20#8, 6#8] ++
    natBE 6 (s.ethMac p) ++ [0#8, 0#8])

/-- The pair of port `p` sends a supervision frame on both ports (R322). -/
def State.supSend (s : State) (p : Nat) : State :=
  if s.linksLive && s.inPrp p && p % 2 == 0 && s.enabled (0x40 + p) then
    let s := s.setEth p { s.eth p with supSent := s.mono }
    (s.emitEth p 0 (s.supFrame p) (s.supFrame p)).inc (ETH.TX_FRAMES p)
  else s

/-! ### Reception (R321) -/

/-- Where a received frame goes beyond the rings of software. -/
inductive EthDest
  | done
  /-- To the redundancy controller (step 4): the 20 bytes of the record. -/
  | rdc (rec' : List Byte)
  /-- To the SSE (steps 5 and 7): the frame and the IPv4 source, 0 on SYN and WIT. -/
  | ssc (f : List Byte) (src : Nat)
  /-- To a sequencer through its ring (step 8). -/
  | rix (q ring : Nat) (f : List Byte)
  /-- To the Sluice through its ring (step 8). -/
  | slc (ring : Nat) (f : List Byte)
deriving DecidableEq, Repr

/-- The frame ends with a redundancy control trailer (R322). -/
def hasTrailer (f : List Byte) : Bool :=
  decide (66 ≤ f.length) && beAt f (f.length - 2) 2 == 0x88FB &&
    beAt f (f.length - 4) 2 % 4096 == f.length - ethPay f && decide (10 ≤ beAt f (f.length - 4) 1 / 16) &&
    decide (beAt f (f.length - 4) 1 / 16 ≤ 11)

/-- The key of a frame in the duplicate table: source address and sequence number of the trailer. -/
def dupKey (f : List Byte) : Nat := ethSrc f * 65536 + beAt f (f.length - 6) 2

/-- The duplicate table with entries older than the forget time dropped (R322). -/
def EthPort.live (e : EthPort) (now : Nat) : List (Nat × Nat) := e.dup.filter (fun d => decide (now < d.2 + ms 400))

/-- Whether a frame on a PRP pair is a second copy, and the table after it: 1024 entries, oldest out first (R322). -/
def EthPort.dupCheck (e : EthPort) (k now : Nat) : Bool × List (Nat × Nat) :=
  let l := e.live now
  if l.any (fun d => d.1 == k) then (true, l.filter (fun d => d.1 != k))
  else (false, (l ++ [(k, now)]).drop (l.length + 1 - 1024))

/-- PTP multicast addresses (step 3 of R321). -/
def ptpMulti (d : Nat) : Bool :=
  d == 0x011B19000000 || d == 0x0180C200000E || d == 0x01005E000181 || d == 0x01005E00006B

/-- The multicast address of an IPv4 group. -/
def groupMac (g : Nat) : Nat := 0x01005E000000 + g % 2 ^ 23

/-- Step 3 of R321. -/
def State.dstOk (s : State) (p d : Nat) : Bool :=
  d == s.ethMac p || (d == 0xFFFFFFFFFFFF && (decide (8 ≤ p) || s.on (ETH.PORT_CFG_ACCEPT_BCAST p))) || ptpMulti d ||
    (decide (p < 8) && (List.range 32).any (fun k => s.on (ETH.FILT_EN p k) && d == groupMac (s.get (ETH.FILT_GROUP p k))))

/-- The token of a filter entry (R323). -/
def tokenOk (t : Nat) (l : List Byte) : Bool :=
  let h := l.take 6
  if t = 0 then true
  else if t = 1 then h == [0x55#8, 0x64#8, 0x50#8, 0x62#8, 0x43#8, 0#8]
  else if t = 2 then h == [0x52#8, 0x61#8, 0x55#8, 0x64#8, 0x50#8, 0#8]
  else if t = 3 then h == [0x52#8, 0x72#8, 0x55#8, 0x64#8, 0x50#8, 0#8]
  else h == [0x4E#8, 0x6B#8, 0x50#8, 0x67#8, 0x4E#8, 0#8]

/-- The lowest enabled filter entry that a UDP datagram matches (R323). -/
def State.ethFilt (s : State) (p : Nat) (f : List Byte) : Option Nat :=
  if 8 ≤ p ∨ isUdp f = false then none
  else (List.range 32).find? (fun k => s.on (ETH.FILT_EN p k) && ipDst f == s.get (ETH.FILT_GROUP p k) &&
    udpPort f == s.get (ETH.FILT_UDP_PORT p k) && tokenOk (s.get (ETH.FILT_TOKEN p k)) (udpData f))

/-- Ring `r` is an enabled receive ring of port `p`. -/
def State.isRxRing (s : State) (p r : Nat) : Bool :=
  s.ringOn r && s.get (QMG.RING_EP_PROD_CLASS r) == epEth && s.get (QMG.RING_EP_PROD_INST r) == p

/-- Post a frame into ring `r` (R313, R315, R321). The truth value tells whether it was posted. -/
def State.ethPost (s : State) (p r : Nat) (f : List Byte) (stamp : Option Stamp) (xinfo : Nat) : State × Bool :=
  if r = 0x3F ∨ s.isRxRing p r = false then (s.bump (ETH.RX_CNT_RX_NORING_CNT p), false)
  else if s.ringCredit r ≠ 0 ∧ s.bufSize r < f.length then (s.bump (ETH.RX_CNT_RX_ERR_CNT p), false)
  else
    let (s, ok) := s.ringPost r f 0 stamp 0 xinfo
    (if ok then s.inc (ETH.RX_FRAMES p) else s, ok)

/-- Step 8 of R321: into PROTO_RING, whose hardware consumer takes it at once. -/
def State.ethProto (s : State) (p : Nat) (f : List Byte) (stamp : Option Stamp) (xinfo : Nat) : State × EthDest :=
  let r := s.get (ETH.RX_RING_PROTO_RING p)
  let (s, ok) := s.ethPost p r f stamp xinfo
  if !ok then (s, .done)
  else if s.get (QMG.RING_EP_CONS_CLASS r) = epRix then (s, .rix (s.get (QMG.RING_EP_CONS_INST r)) r f)
  else if s.get (QMG.RING_EP_CONS_CLASS r) = epSlc then (s, .slc r f)
  else (s, .done)

/-- Steps 3 to 10 of R321 for port page `p`; `f` is without trailer. -/
def State.ethSteps (s : State) (p : Nat) (f : List Byte) (stamp : Option Stamp) (x : Nat) : State × EthDest :=
  let noFilt := x + 0x3F
  let checked (g : State → State × EthDest) : State × EthDest :=
    if isUdp f && !sumsOk f then (s.bump (ETH.RX_CNT_RX_ERR_CNT p), .done) else g s
  if !s.dstOk p (ethDst f) then (s.bump (ETH.RX_CNT_RX_FILT_CNT p), .done)
  else if 8 ≤ p ∧ etherType f = 0x88B5 then (s.inc (ETH.RX_FRAMES p), .rdc ((f.drop (ethPay f)).take 20))
  else if 8 ≤ p ∧ etherType f = 0x88B7 then (s.inc (ETH.RX_FRAMES p), .ssc (f.drop (ethPay f)) 0)
  else if p < 10 ∧ (ptpAt f).isSome then
    checked (fun s => ((s.ethPost p (s.get (ETH.RX_RING_PTP_RING p)) f stamp noFilt).1, .done))
  else if p < 8 ∧ isUdp f ∧ udpPort f = 47910 then
    checked (fun s => (s.inc (ETH.RX_FRAMES p), .ssc (udpData f) (ipSrc f)))
  else if (p < 8 ∧ isUdp f ∧ udpPort f = 47900) ∨ ((p = 8 ∨ p = 9) ∧ etherType f = 0x88B6) then
    checked (fun s => s.ethProto p f stamp noFilt)
  else match s.ethFilt p f with
  | some k => checked (fun s => ((s.ethPost p (s.get (ETH.FILT_RING p k)) f stamp (x + k)).1, .done))
  | none => ((s.ethPost p (s.get (ETH.RX_RING_DEFAULT_RING p)) f stamp noFilt).1, .done)

/-- Port `port` receives a frame, given without FCS, with its arrival stamp (R321, R322). -/
def State.ethRx (s : State) (port : Nat) (f : List Byte) (fcsOk : Bool) (arr : Stamp) : State × EthDest :=
  let p := s.ethPage port
  if !s.linksLive || !s.enabled (0x40 + p) || !s.linkUp port then (s, .done)
  else
    let trailer := s.inPrp port && hasTrailer f
    let limit := (if trailer then 1524 else 1518)
    if !fcsOk || decide (f.length < 60) || decide (limit < f.length) then (s.bump (ETH.RX_CNT_RX_ERR_CNT p), .done)
    else
      let lan := beAt f (f.length - 4) 1 / 16
      let s := if trailer && lan != (if port % 2 = 0 then 10 else 11) then s.bump (ETH.PRP_CNT_WRONG_LAN_CNT p) else s
      let stamp := if s.on (ETH.PORT_CFG_PTP_EN p) && decide (p < 10) then some arr else none
      let x := (if s.inPrp port && port % 2 = 1 then 64 else 0) + (if isVlan f then 128 else 0)
      let f' := if trailer then f.take (f.length - 6) else f
      let c := (s.eth p).dupCheck (dupKey f) s.mono
      let dup := trailer && (ptpEvent f').isNone && c.1
      let s := if trailer && (ptpEvent f').isNone then s.setEth p { s.eth p with dup := c.2 } else s
      if dup then (s.bump (ETH.PRP_CNT_DUP_CNT p), .done)
      else if s.inPrp port && etherType f' == 0x88FB then
        let s := s.setEth p { s.eth p with supSeen := some s.mono }
        ((s.ethPost p (s.get (ETH.RX_RING_DEFAULT_RING p)) f' stamp (x + 0x3F)).1, .done)
      else s.ethSteps p f' stamp x

end Sys2Proof.Machine
end

