-- ==== Sys2Proof/Machine/RixOps.lean ====
section
/-! DEFINITION. Remote stations over RIX (R108 to R112) and forcing (R113 to R116). -/

namespace Sys2Proof.Machine

/-- RIX station `st`, 16 q + i. -/
def State.rixOf (s : State) (st : Nat) : Rix := mapGet (fun _ => Rix.blank) s.rix st
/-- Set RIX station `st`. -/
def State.setRix (s : State) (st : Nat) (v : Rix) : State := { s with rix := mapSet (fun _ => Rix.blank) s.rix st v }

/-- Station entry enabled. -/
def State.stnOn (s : State) (st : Nat) : Bool := s.on (LSQ.STN_CFG_EN (st / 16) (st % 16))
/-- Station state: 0 disabled, 1 OK, 2 LATE, 3 LOST (R122). -/
def State.stnSt (s : State) (st : Nat) : Nat := s.get (LSQ.STN_STAT_STATE (st / 16) (st % 16))
/-- Nanoseconds of INTERVAL_MS. -/
def State.stnInterval (s : State) (st : Nat) : Nat := ms (s.get (LSQ.STN_CFG_INTERVAL_MS (st / 16) (st % 16)))
/-- The input slots of a station. -/
def State.stnIn (s : State) (st : Nat) : List Nat :=
  (List.range (s.get (LSQ.STN_IN_COUNT (st / 16) (st % 16)))).map
    (fun j => (s.get (LSQ.STN_IN_BASE (st / 16) (st % 16)) + j) % 8192)
/-- The output slots of a station. -/
def State.stnOut (s : State) (st : Nat) : List Nat :=
  (List.range (s.get (LSQ.STN_OUT_COUNT (st / 16) (st % 16)))).map
    (fun j => (s.get (LSQ.STN_OUT_BASE (st / 16) (st % 16)) + j) % 8192)

/-- The sequencer of the station exchanges frames: its schedule runs, and the module is seen as active (R353, R356). -/
def State.rixLive (s : State) (st : Nat) : Bool := s.stnOn st && s.sends && s.schedRun (st / 16) && !(s.seqOf (st / 16)).halted

/-! ### Output frames (R108, R112) -/

/-- A validity bitmap of a list of truth values, bit `j` for value `j`. -/
def bitmap (l : List Bool) : Nat → List Byte
  | 0 => []
  | n + 1 => BitVec.ofNat 8 ((((l.take 8).zipIdx).map (fun x => b2n x.1 * 2 ^ x.2)).sum) :: bitmap (l.drop 8) n

/-- The RIX output frame of station `st` (R108): with the output slots as last posted and the tick boundary of that post, or a probe
while it is LOST (R112). -/
def State.rixFrame (s : State) (st seq : Nat) : List Byte :=
  let probe := s.stnSt st == 3
  let out := if probe then [] else (s.stnOut st).map s.slotView
  [1#8, 1#8, BitVec.ofNat 8 st, BitVec.ofNat 8 (b2n (s.role == roleACTIVE) + 4 * b2n probe)] ++ natBE 4 seq ++
    natBE 4 (((s.rixOf st).postedAt.getD (s.tku.base.setWidth 32)).toNat) ++ natBE 2 out.length ++ natBE 2 0 ++ out.flatMap (fun r => natBE 4 r.value.toNat) ++
    bitmap (out.map (fun r => tVALID r.tag)) ((out.length + 7) / 8)

/-- The ones'-complement check of a sum. -/
def onesSum (n : Nat) : Nat := 0xFFFF - (if n = 0 then 0 else (n - 1) % 65535 + 1)

/-- The Ethernet frame around a RIX frame. The manual gives no address resolution and no values for the free fields of the
IPv4 header: destination address, TOS, identification and TTL are free values `a` and `b`. -/
def State.rixEthernet (s : State) (st : Nat) (d : List Byte) (a b : Nat) : List Byte :=
  let src := s.get (ETH.IP_ADDR (s.get (LSQ.STN_CFG_PORT (st / 16) (st % 16))))
  let dst := s.get (LSQ.STN_ADDR (st / 16) (st % 16))
  let ip0 := [0x45#8, BitVec.ofNat 8 b] ++ natBE 2 (28 + d.length) ++ natBE 2 (a / 2 ^ 48) ++ natBE 2 0 ++
    [BitVec.ofNat 8 (b / 256), 17#8]
  let addrs := natBE 4 src ++ natBE 4 dst
  let ip := ip0 ++ natBE 2 (onesSum (sum16 ip0 + sum16 addrs)) ++ addrs
  let udp0 := natBE 2 47900 ++ natBE 2 47900 ++ natBE 2 (8 + d.length)
  let c := onesSum (sum16 (udp0 ++ [0#8, 0#8] ++ d) + sum16 addrs + 17 + 8 + d.length)
  natBE 6 a ++ natBE 6 0 ++ natBE 2 0x0800 ++ ip ++ udp0 ++ natBE 2 (if c = 0 then 0xFFFF else c) ++ d

/-- The enabled ring from the station's sequencer to its port (R310). -/
def State.rixRing (s : State) (st : Nat) : Option Nat :=
  (List.range 64).find? (fun r => s.ringOn r && s.get (QMG.RING_EP_PROD_CLASS r) == epRix &&
    s.get (QMG.RING_EP_PROD_INST r) == st / 16 && s.get (QMG.RING_EP_CONS_CLASS r) == epEth &&
    s.get (QMG.RING_EP_CONS_INST r) == s.get (LSQ.STN_CFG_PORT (st / 16) (st % 16)))

/-- An exchange interval of station `st` (R109, R112): the output frame or probe is handed to the ring, skipped without credit
(R313); an interval without a valid frame counts in MISSES. PRP 0 on a PRP pair sends on the configured port only. -/
def State.rixExchange (s : State) (st : Nat) : State :=
  if !s.rixLive st then s
  else
    let s := s.untilMono ((s.rixOf st).lastOut + s.stnInterval st)
    let v := s.rixOf st
    let missed := v.outSeq != 0 && decide (v.lastIn < v.lastOut)
    let s := if missed then s.bump (LSQ.STN_STAT_MISSES (st / 16) (st % 16)) else s
    let s := s.setRix st { v with lastOut := s.mono, run := if missed then 0 else v.run, outSeq := (v.outSeq + 1) % 2 ^ 32 }
    let (s, a) := s.free
    let (s, b) := s.free
    match s.rixRing st with
    | none => s
    | some r =>
      let sel := if s.inPrp (s.get (LSQ.STN_CFG_PORT (st / 16) (st % 16))) && !s.on (LSQ.STN_CFG_PRP (st / 16) (st % 16))
        then 1 else 0
      (s.ringPost r (s.rixEthernet st (s.rixFrame st (s.rixOf st).outSeq) a b) 0 none 0 sel).1

/-! ### Input frames (R109, R110) -/

/-- A RIX payload is a well-formed input frame of station `st` with the configured number of values. -/
def State.rixValid (s : State) (st : Nat) (d : List Byte) : Bool :=
  let n := s.get (LSQ.STN_IN_COUNT (st / 16) (st % 16))
  beAt d 0 2 == 0x0102 && beAt d 2 1 == st && beAt d 3 1 / 4 == 0 && beAt d 12 2 == n && beAt d 14 2 == 0 &&
    d.length == 16 + 4 * n + (n + 7) / 8

/-- Post the values of an input frame as one group; `age` in ticks. -/
def State.rixPost (s : State) (st : Nat) (d : List Byte) (age : Nat) : List (Nat × Nat) → State
  | [] => s
  | (n, j) :: t =>
    let valid := (d.getD (16 + 4 * (s.get (LSQ.STN_IN_COUNT (st / 16) (st % 16))) + j / 8) 0#8).getLsbD (j % 8)
    (s.post n 2 st (BitVec.ofNat 32 (beAt d (16 + 4 * j) 4)) valid false false false age).rixPost st d age t

/-- A valid input frame arrives with stamp `arr` (R109, R110). A frame that is not newer than the last accepted one is
discarded. In OK it is posted; the REJOIN-th in a row brings LATE or LOST back to OK and is posted. -/
def State.rixInput (s : State) (st : Nat) (d : List Byte) (arr : Nat) : State :=
  let q := st / 16
  let i := st % 16
  let v := s.rixOf st
  if !s.rixLive st then s
  else if !s.rixValid st d then s.setRix st { v with run := 0 }
  else
    let seq := beAt d 4 4
    let newer := !v.gotOne || decide (0 < sx 32 ((seq + 2 ^ 32 - s.get (LSQ.STN_SEQ q i)) % 2 ^ 32))
    if !newer then s
    else
      let age := ((sx 32 ((arr + 2 ^ 32 - beAt d 8 4) % 2 ^ 32)).toNat + 99999) / 100000
      let s := s.setRix st { v with lastIn := s.mono, gotOne := true, run := v.run + 1 }
      let s := (s.put (LSQ.STN_SEQ q i) seq).put (LSQ.STN_STAT_MISSES q i) 0
      let ok := s.stnSt st == 1
      let back := !ok && decide (s.get (LSQ.STN_TIMING_REJOIN q i) ≤ v.run + 1)
      let wasLost := s.stnSt st == 3
      let s := if back then (s.put (LSQ.STN_STAT_STATE q i) 1).setRix st { s.rixOf st with substTick := none } else s
      let s := if back && wasLost then s.triggerErr q 1 15 (some st) (s.openTasks q) else s
      if ok || back then (s.putSat (LSQ.STN_STAT_LAST_AGE q i) age).rixPost st d age ((s.stnIn st).zipIdx) else s

/-- A RIX datagram taken from a port's ring by sequencer `q` (R321, R108, R109): from UDP port 47 900 and the address of the station it names. -/
def State.rixFromPort (s : State) (q ring : Nat) (f : List Byte) (arr : Nat) : State :=
  let d := udpData f
  let st := beAt d 2 1
  let s := if st / 16 = q ∧ udpSrcPort f = 47900 ∧ ipSrc f = s.get (LSQ.STN_ADDR q (st % 16)) then s.rixInput st d arr else s
  s.consumeOne ring

/-- No valid input frame within one exchange interval plus 1 ms after it was due (R110): the next frame is due one interval
after the last. -/
def State.rixLate (s : State) (st : Nat) : State :=
  let q := st / 16
  if !s.rixLive st || s.stnSt st != 1 then s
  else
    let s := s.untilMono ((s.rixOf st).lastIn + 2 * s.stnInterval st + ms 1)
    let s := (s.put (LSQ.STN_STAT_STATE q (st % 16)) 2).bump (LSQ.STN_CNT_LATE_CNT q (st % 16))
    (s.setRix st { s.rixOf st with run := 0 }).lateSlots 2 st (s.stnIn st)

/-- No valid input frame for LOSS_MS (R110, R111): LOST, the error task is triggered, the substitute post is due at the next
tick boundary. -/
def State.rixLoss (s : State) (st : Nat) : State :=
  let q := st / 16
  if !s.rixLive st || s.stnSt st == 0 || s.stnSt st == 3 then s
  else
    let s := s.untilMono ((s.rixOf st).lastIn + ms (s.get (LSQ.STN_TIMING_LOSS_MS q (st % 16))))
    let s := (s.put (LSQ.STN_STAT_STATE q (st % 16)) 3).bump (LSQ.STN_CNT_LOST_CNT q (st % 16))
    let s := s.setRix st { s.rixOf st with run := 0, substTick := some s.tku.ticks }
    s.triggerErr q 0 15 (some st) (s.openTasks q)

/-- Station `st` has had no valid input frame for LOSS_MS and is not marked lost. -/
def State.rixGone (s : State) (st : Nat) : Bool :=
  s.rixLive st && s.stnSt st != 0 && s.stnSt st != 3 &&
    decide ((s.rixOf st).lastIn + ms (s.get (LSQ.STN_TIMING_LOSS_MS (st / 16) (st % 16))) ≤ s.mono)

/-- An output of task `t` of sequencer `q` is bound to station `st`. -/
def State.boundTo (s : State) (q t st : Nat) : Bool := (s.imgTask q t).outputs.any (fun n => (s.stnOut st).contains n)

/-- The stations that the outputs of task `t` are bound to. -/
def State.boundStations (s : State) (q t : Nat) : List Nat := (List.range 64).filter (fun st => s.stnOn st && s.boundTo q t st)

/-- Station loss is judged at write time (R27, R112): a station that has dropped out is marked lost, and the posts to the others are
noted with their tick boundary (R108). -/
def State.judgeStations (s : State) : List Nat → State
  | [] => s
  | st :: l =>
    (if s.rixGone st then s.rixLoss st
     else if s.stnSt st == 3 then s
     else s.setRix st { s.rixOf st with postedAt := some (s.tku.base.setWidth 32) }).judgeStations l

/-- Post the substitutes of R111 over the input slots. -/
def State.substSlots (s : State) (st mode : Nat) : List (Nat × Nat) → State
  | [] => s
  | (n, j) :: t =>
    let r := s.slotRaw n
    let v := if mode = 0 then r.value
      else if mode = 1 then BitVec.ofNat 32 (s.get (LSQ.SUBST_VAL (st / 16) (256 * (st % 16) + j))) else 0
    let s := if s.isProducer n 2 st then
        s.setSlot n ⟨v, mkTag false (mode == 0) (mode != 0) false 2 st (if mode = 0 then tAGE r.tag else 0)⟩ else s
    s.substSlots st mode t

/-- The substitute post of R111, once a tick boundary has passed since the loss. -/
def State.rixSubst (s : State) (st : Nat) : State :=
  match (s.rixOf st).substTick with
  | none => s
  | some t =>
    if s.tku.ticks ≤ t then s
    else (s.setRix st { s.rixOf st with substTick := none }).substSlots st
      (s.get (LSQ.STN_TIMING_SUBST_MODE (st / 16) (st % 16))) ((s.stnIn st).zipIdx)

/-! ### Enabling and disabling (R122, R19) -/

/-- Class 2, station `st` becomes the producer of the slots in `l`. -/
def State.claims (s : State) (cls id : Nat) : List Nat → State
  | [] => s
  | n :: t => (s.claim n cls id).claims cls id t

/-- A slot of the station overlaps one with another producer (R122): an input slot with any other, an output slot with one
that is no task of the station's sequencer. -/
def State.stnOverlap (s : State) (st : Nat) : Bool :=
  (s.stnIn st).any (fun n => s.otherProducer n 2 st) ||
    (s.stnOut st).any (fun n => let t := (s.slotRaw n).tag; tCLASS t != 0 && !(tCLASS t == 6 && tID t / 16 == st / 16))

/-- Station entry `st` is enabled: it begins in LATE, without a valid frame yet. -/
def State.stnEnable (s : State) (st : Nat) : State :=
  let s := (s.claims 2 st (s.stnIn st)).setRix st { Rix.blank with lastIn := s.mono, lastOut := s.mono }
  (s.put (LSQ.STN_STAT_STATE (st / 16) (st % 16)) 2).lateSlots 2 st (s.stnIn st)

/-- Station entry `st` is disabled: its slots have no producer. -/
def State.stnDisable (s : State) (st : Nat) : State :=
  ((s.freeSlots (s.stnIn st)).setRix st Rix.blank).put (LSQ.STN_STAT_STATE (st / 16) (st % 16)) 0

/-! ### Forcing (R113 to R116) -/

/-- The input list of a safety task holds slot `n`. -/
def State.safetyInput (s : State) (n : Nat) : Bool :=
  (List.range 4).any (fun q =>
    (List.range 10).any (fun t => (s.imgTask q t).present && (s.imgTask q t).safety && (s.imgTask q t).inputs.contains n))

/-- Slot `n` is produced by a safety task or a safety channel. -/
def State.safetyProduced (s : State) (n : Nat) : Bool :=
  let t := (s.slotRaw n).tag
  (tCLASS t == 6 && (s.imgTask (tID t / 16) (tID t % 16)).safety) || (tCLASS t == 1 && s.chSafety (tID t))

/-- The set command of force entry `f` is refused (R114). -/
def State.forceRefused (s : State) (f : Nat) : Bool :=
  let chan := s.on (LSQ.FORCE_TGT_KIND 0 f)
  let n := s.get (LSQ.FORCE_TGT_TARGET 0 f)
  (if chan then (psChannels s.gnt.tab).contains n || s.chSafety n
   else s.safetyProduced n || s.safetyInput n || tCLASS (s.slotRaw n).tag == 0) ||
    !s.forceAuthOpen || !s.running ||
    s.forces.any (fun e => e.1 != f && e.2.channel == chan && e.2.target == n)

/-- Force entry `f` is set (R113, R114). -/
def State.forceSet (s : State) (f m : Nat) : State :=
  if s.forceRefused f then (s.put (LSQ.FORCE_STAT_REFUSED 0 f) 1).lost 0x14 0x410 4 m
  else
    let e : Force := ⟨s.on (LSQ.FORCE_TGT_KIND 0 f), s.get (LSQ.FORCE_TGT_TARGET 0 f)⟩
    let s := { s with forces := mapIns f e (mapDel s.forces f) }
    ((s.put (LSQ.FORCE_STAT_ACTIVE 0 f) 1).put (LSQ.FORCE_STAT_CANCELLED 0 f) 0).put (LSQ.FORCE_STAT_REFUSED 0 f) 0

/-- Force entry `f` is removed. -/
def State.forceRemove (s : State) (f : Nat) : State :=
  ({ s with forces := mapDel s.forces f }).put (LSQ.FORCE_STAT_ACTIVE 0 f) 0

/-- The forces of the entries in `l` are removed. -/
def State.forceRemoves (s : State) : List Nat → State
  | [] => s
  | f :: t => (s.forceRemove f).forceRemoves t

/-- FORCE_CMD (R114). -/
def State.forceCmd (s : State) (v m : Nat) : State :=
  let f := s.get (LSQ.FORCE_SEL 0)
  if v = 1 then s.forceSet f m else if v = 2 then s.forceRemove f else s.forceRemoves (s.forces.map (·.1))

/-- FORCE_AUTH_SUBMIT (R115): a failed submission closes FORCE_AUTH at once. -/
def State.forceAuthSubmit (s : State) (m : Nat) : State :=
  let (s, ok) := s.credSubmit 2 [] 0x14 0x414 m
  { s with forceAuth := if ok then some (s.mono + secs 900) else none }

/-- FORCE_AUTH closes 900 s after it opened (R115). -/
def State.forceAuthEnd (s : State) : State :=
  match s.forceAuth with
  | none => s
  | some t => { s.untilMono t with forceAuth := none }

end Sys2Proof.Machine
end

