-- ==== Sys2Proof/Machine/SerOps.lean ====
section
/-! DEFINITION. The serial ports (R324 to R326): transmission of one record per descriptor, the checks of a received record,
and the Modbus RTU master and slave. -/

namespace Sys2Proof.Machine

/-- Serial port `n` beyond its registers. -/
def State.ser (s : State) (n : Nat) : SerPort := mapGet (fun _ => SerPort.blank) s.sers n
/-- Set serial port `n`. -/
def State.setSer (s : State) (n : Nat) (v : SerPort) : State :=
  { s with sers := mapSet (fun _ => SerPort.blank) s.sers n v }

/-- SER_CFG.MODE. -/
def State.serMode (s : State) (n : Nat) : Nat := s.get (SER.SER_CFG_MODE n)
/-- SER_RING.TX_RING. -/
def State.serTx (s : State) (n : Nat) : Nat := s.get (SER.SER_RING_TX_RING n)
/-- SER_RING.RX_RING. -/
def State.serRx (s : State) (n : Nat) : Nat := s.get (SER.SER_RING_RX_RING n)

/-- Port `n` works: its page enabled, MODE not 0, in CONFIG, STARTUP_TEST, RUN or SAFE_HOLD. -/
def State.serLive (s : State) (n : Nat) : Bool :=
  s.enabled (0x64 + n) && s.serMode n != 0 && decide (stCONFIG ≤ s.mstate) && decide (s.mstate ≤ stSAFE)

/-- The next transmit descriptor of port `n`. -/
def State.serHead (s : State) (n : Nat) : Option Desc :=
  let r := s.serTx n
  if s.get (QMG.RING_EP_CONS_CLASS r) = epSer ∧ s.get (QMG.RING_EP_CONS_INST r) = n then s.ringHead r else none

/-- The bytes of a record on the line: with its CRC-16 in Modbus modes (R326). -/
def State.serLine (s : State) (n : Nat) (d : Desc) : List Byte :=
  let l := s.bytes d.buf d.len
  if 3 ≤ s.serMode n then l ++ natLE 2 (crc16modbus l).toNat else l

/-- Port `n` starts the record of its next transmit descriptor (R324). A descriptor whose buffer is outside memory is refused
(R314). -/
def State.serStart (s : State) (n : Nat) : State :=
  let v := s.ser n
  if !s.serLive n || v.hand.isSome || v.await.isSome || v.turn.isSome then s
  else match s.serHead n with
  | none => s
  | some d =>
    if !bufOk d.buf d.len then s.ringRefuse (s.serTx n)
    else
      let s := { s with sent := s.sent ++ [(Link.ser n, s.serLine n d)] }
      s.setSer n { v with hand := some (s.stamp, s.stepPar) }

/-- The record in hand has left (R326): a master then awaits the response, or waits out a broadcast. Its descriptor is written
now and passed when the exchange ends. -/
def State.serSent (s : State) (n : Nat) : State :=
  let v := s.ser n
  match v.hand, s.serHead n with
  | some st, some d =>
    let r := s.serTx n
    let stamp := if d.tsReq then some st else none
    if s.serMode n = 3 then
      let s := s.writeDone r (s.get (QMG.RING_CONS_CONS_IDX r)) 0 stamp false
      if beq0 (s.bytes d.buf 1) then s.setSer n ⟨none, none, some s.mono⟩ else s.setSer n ⟨none, some (d.tag, s.mono), none⟩
    else (s.setSer n { v with hand := none }).ringDone r 0 stamp
  | _, _ => s.setSer n { v with hand := none }
where
  /-- A record that begins with address 0. -/
  beq0 (l : List Byte) : Bool := l == [0#8]

/-- Ring `r` is an enabled receive ring of port `n`. -/
def State.isSerRx (s : State) (n r : Nat) : Bool :=
  s.ringOn r && s.get (QMG.RING_EP_PROD_CLASS r) == epSer && s.get (QMG.RING_EP_PROD_INST r) == n

/-- Count the conditions of a received record (R330). -/
def State.serCount (s : State) (n status : Nat) : State :=
  let f (b : Nat) (c : Fld) (s : State) : State := if status.testBit b then s.bump c else s
  f 7 (SER.SER_CNT1_BREAK_CNT n) (f 3 (SER.SER_CNT0_LENGTH_CNT n) (f 2 (SER.SER_CNT0_CHECK_CNT n)
    (f 1 (SER.SER_CNT0_FRAMING_CNT n) (f 0 (SER.SER_CNT0_PARITY_CNT n) s))))

/-- Deliver a record (R324); one that does not fit a buffer is dropped and counted as a length error (R315). -/
def State.serDeliver (s : State) (n : Nat) (l : List Byte) (status : Nat) (stamp : Option Stamp) (tag : Nat) : State :=
  let s := s.serCount n status
  let r := s.serRx n
  if !s.isSerRx n r then s
  else if s.ringCredit r ≠ 0 ∧ s.bufSize r < l.length then s.bump (SER.SER_CNT0_LENGTH_CNT n)
  else
    let (s, ok) := s.ringPost r l status stamp tag 0
    if ok then s.inc (SER.SER_RECORDS n) else s

/-- What the line showed during a record: parity and framing errors, a break. -/
def lineStatus (parity framing brk : Bool) : Nat := b2n parity + 2 * b2n framing + 128 * b2n brk

/-- The receiver hears the line: in RS-485 it ignores the port's own transmission (R324). -/
def State.serHears (s : State) (n : Nat) : Bool :=
  s.serLive n && (s.on (SER.SER_CFG_RS422 n) || (s.ser n).hand.isNone)

/-- A hexadecimal digit. -/
def hexDigit (b : Byte) : Option Nat :=
  let c := b.toNat
  if 48 ≤ c ∧ c ≤ 57 then some (c - 48) else if 65 ≤ c ∧ c ≤ 70 then some (c - 55)
  else if 97 ≤ c ∧ c ≤ 102 then some (c - 87) else none

/-- The checksum "*hh" of a sentence, if it has one (R325). -/
def sentenceSum (l : List Byte) : Option Nat :=
  match (l.dropWhile (fun b => b != 42#8)).drop 1 with
  | a :: b :: _ => match hexDigit a, hexDigit b with
    | some x, some y => some (16 * x + y)
    | _, _ => none
  | _ => none

/-- The XOR of the characters between the start character and "*" (R325). -/
def sentenceXor (l : List Byte) : Nat := (((l.drop 1).takeWhile (fun b => b != 42#8)).foldl (fun a b => a ^^^ b) 0#8).toNat

/-- A sentence record and its status (R325): from "$" or "!", at most 82 characters. -/
def State.sentence (s : State) (n : Nat) (l : List Byte) : Option (List Byte × Nat) :=
  let l := l.dropWhile (fun b => b != 36#8 && b != 33#8)
  if l.isEmpty then none
  else
    let long := decide (82 < l.length) || (l.length == 82 && l.drop 80 != [13#8, 10#8])
    let r := l.take 82
    let chk := match sentenceSum r with
      | some v => if v = sentenceXor r then 0 else 4
      | none => if s.on (SER.SER_CFG_CHK_REQ n) then 36 else 32
    some (r, chk + 8 * b2n long)

/-- A received record closes by its framing in modes 1 and 2 (R325). -/
def State.serRecord (s : State) (n : Nat) (l : List Byte) (line : Nat) (stamp : Stamp) : State :=
  if !s.serHears n then s
  else if s.serMode n = 1 then
    s.serDeliver n (if s.isSerRx n (s.serRx n) then l.take (s.bufSize (s.serRx n)) else l) line (some stamp) 0
  else if s.serMode n = 2 then
    match s.sentence n l with
    | none => s
    | some (r, st) => s.serDeliver n r (line + st) (some stamp) 0
  else s

/-- A Modbus frame and its CRC check (R326). -/
def modbusCheck (l : List Byte) : Bool :=
  decide (2 ≤ l.length) && leNat (l.drop (l.length - 2)) == (crc16modbus (l.take (l.length - 2))).toNat

/-- RESP_TIMEOUT_MS has passed since the end of the request (R326). -/
def State.modbusTimeout (s : State) (n : Nat) : State :=
  match (s.ser n).await with
  | none => s
  | some (tag, t) =>
    let s := s.untilMono (t + ms (s.get (SER.SER_TIMING_RESP_TIMEOUT_MS n)))
    let s := s.bump (SER.SER_CNT1_TIMEOUT_CNT n)
    ((s.serDeliver n [] 16 none tag).setSer n SerPort.blank).consumeOne (s.serTx n)

/-- The response that a master awaits is overdue (R326). -/
def State.modbusLate (s : State) (n : Nat) : Bool :=
  match (s.ser n).await with | none => false | some (_, t) => decide (t + ms (s.get (SER.SER_TIMING_RESP_TIMEOUT_MS n)) < s.mono)

/-- A Modbus frame closes after t3.5 of idle (R326): a slave discards frames for other addresses; a master's response carries
the TAG of the request and ends the exchange. -/
def State.modbusFrame (s : State) (n : Nat) (l : List Byte) (line : Nat) (gap : Bool) (stamp : Stamp) : State :=
  if !s.serHears n || l.isEmpty then s
  else
    let s := if s.modbusLate n then s.modbusTimeout n else s
    let status := line + 4 * b2n (!modbusCheck l) + 64 * b2n gap
    let body := l.take (l.length - 2)
    let a := (l.headD 0#8).toNat
    if s.serMode n = 4 then
      (if a = s.get (SER.SER_MB_SLAVE_ADDR n) ∨ a = 0 then s.serDeliver n body status (some stamp) 0
       else s.bump (SER.SER_CNT1_ADDR_DISC_CNT n))
    else if s.serMode n = 3 then
      match (s.ser n).await with
      | some (tag, _) =>
        ((s.serDeliver n body status (some stamp) tag).setSer n SerPort.blank).consumeOne (s.serTx n)
      | none => s.serDeliver n body status (some stamp) 0
    else s

/-- TURNAROUND_MS has passed since a broadcast (R326). -/
def State.modbusTurn (s : State) (n : Nat) : State :=
  match (s.ser n).turn with
  | none => s
  | some t =>
    let s := s.untilMono (t + ms (s.get (SER.SER_TIMING_TURNAROUND_MS n)))
    (s.setSer n SerPort.blank).consumeOne (s.serTx n)

/-- The record in hand ends and is completed with ABORTED (R327). -/
def State.serEnd (s : State) (n : Nat) : State :=
  let v := s.ser n
  let r := s.serTx n
  if v.hand.isSome || v.await.isSome || v.turn.isSome then
    let s := s.setSer n SerPort.blank
    if (s.serHead n).isSome then
      (s.writeDone r (s.get (QMG.RING_CONS_CONS_IDX r)) (s.desc r (s.get (QMG.RING_CONS_CONS_IDX r))).status none true).consumeOne r
    else s
  else s

end Sys2Proof.Machine
end

