-- ==== Sys2Proof/Machine/SluiceOps.lean ====
section
/-! DEFINITION. The Sluice (R359 to R365): checkpoint images, delta groups and full checkpoints on the active member, the
staging and consistent state on the standby, and the restore of a takeover. The manual lists what each image holds (R362) and
gives no byte layout: the layouts are the model's (assumption log 19). -/

namespace Sys2Proof.Machine

/-! ### Images (R362, R182, R116) -/

/-- Word `i` of an image. -/
def imgWord (l : List Byte) (i : Nat) : Nat := leNat ((l.drop (4 * i)).take 4)

/-- An image from its words. -/
def imgBytes (l : List Nat) : List Byte := l.flatMap (natLE 4)

/-- Task `t` of sequencer `q`: TASK_CYCLES, the station states, its output words. -/
def State.taskImage (s : State) (q t : Nat) : List Byte :=
  imgBytes ([s.get (LSQ.TASK_CYCLES q t),
    ((List.range 16).map (fun i => s.get (LSQ.STN_STAT_STATE q i) * 4 ^ i)).sum] ++
    (s.imgTask q t).outputs.map (fun n => ((s.seqOf q).outWord n).toNat))

/-- What the tasks of sequencer `q` share: timers, counters, edge detectors, flag memory. Carried as SRC_ID 16 q + 15. -/
def State.objImage (s : State) (q : Nat) : List Byte :=
  let v := s.seqOf q
  let types := match s.image q with | none => [] | some i => i.timers.map (fun d => d.ty)
  imgBytes (((v.timers.zip types).flatMap (fun (m, ty) =>
      [ty + 256 * (b2n m.inPrev + 2 * b2n m.running + 4 * b2n m.q + 8 * b2n m.seen), m.pt, m.d.toNat % 2 ^ 32, m.d.toNat / 2 ^ 32])) ++
    v.counters.flatMap (fun c => [ux 32 c.cv, ux 32 c.pv, b2n c.cuPrev + 2 * b2n c.cdPrev + 4 * b2n c.qu + 8 * b2n c.qd +
      16 * b2n c.seenU + 32 * b2n c.seenD]) ++
    v.edges.map (fun e => b2n e.prev + 2 * b2n e.seen) ++
    (List.range 2048).map (fun k => (v.mWord k).toNat))

/-- Loop context `c`: state code, LAST_CAUSE and overrun counter, COAST_LEFT and PRIME_GOOD, the per-measurement counters,
RECOVER and PRIMING counters, the state block up to 0x23F. -/
def State.loopImage (s : State) (c : Nat) : List Byte :=
  let v := s.loop c
  imgBytes ([(s.rd (CTX.CTX_MODE_STATE c).key).toNat, (s.rd (CTX.CTX_PROG_COAST_LEFT c).key).toNat, v.recover, v.primePeriods] ++
    (List.range 16).map (fun i => v.frz.getD i 0 + 65536 * (v.inn.getD i 0 + 16 * b2n (v.beyond.getD i false)))) ++ s.bytes (stateBase c) 0x240

/-- Cascade slot `k` (R182): DELTA_SEQ, whether a solution is posted, the signature of the solution or, with none posted, of the slot,
the length of the solution and the number of delta records applied, the solution, the records. -/
def State.casImage (s : State) (k : Nat) : List Byte :=
  let v := s.casSlot k
  let sig := if v.posted then v.postSig.toNat else s.get64 (SLOT.SLOT_SIG_LO k) (SLOT.SLOT_SIG_HI k)
  let x := s.vec k 1
  imgBytes [s.get (SLOT.SLOT_DELTA_SEQ k), b2n v.posted, sig % 2 ^ 32, sig / 2 ^ 32, x.length, v.applied.length] ++
    imgBytes (x.map (ux 32)) ++ imgBytes (v.applied.flatMap (fun e => [e.1.toNat, e.2.toNat]))

/-- Every active force. -/
def State.forceImage (s : State) : List Byte :=
  imgBytes ((List.range 256).flatMap (fun f => match s.forces.find? (fun e => e.1 == f) with
    | none => [0, 0]
    | some e => [1 + 2 * b2n e.2.channel + 65536 * e.2.target, s.get (LSQ.FORCE_VAL 0 f)]))

/-- The enabled application regions: region, base, size (R363). -/
def State.appRegions (s : State) : List (Nat × Nat × Nat) :=
  ((List.range 8).filter (fun r => s.on (SLC.APP_CFG_EN r))).map (fun r => (r, s.get (SLC.APP_BASE r), s.get (SLC.APP_SIZE r)))

/-- The groups of 64 blocks of a region: key, address, bytes. -/
def appGroups (x : Nat × Nat × Nat) : List (Nat × Nat × Nat) :=
  (List.range ((x.2.2 + 16383) / 16384)).map (fun g =>
    (srcKey 5 (4096 * x.1 + g), x.2.1 + 16384 * g, min 16384 (x.2.2 - 16384 * g)))

/-- Every source but the application regions, with its image. -/
def State.sources (s : State) : List (Nat × List Byte) :=
  (List.range 4).flatMap (fun q =>
    if (s.image q).isNone then []
    else ((s.presentTasks q).map (fun t => (srcKey 1 (16 * q + t), s.taskImage q t))) ++ [(srcKey 1 (16 * q + 15), s.objImage q)]) ++
  ((List.range 128).filter s.loopEn).map (fun c => (srcKey 2 c, s.loopImage c)) ++
  ((List.range 16).filter (fun k => s.casEn k && s.casHeld k)).map (fun k => (srcKey 3 k, s.casImage k)) ++
  [(srcKey 4 0, s.forceImage), (srcKey 6 0, s.stationImage)]

/-! ### Sending (R359, R360) -/

/-- The Sluice sends: RUN in the ACTIVE role, its page enabled (R376). -/
def State.slcSends (s : State) : Bool := s.enabled 0x0C && s.mstate == stRUN && s.role == roleACTIVE

/-- A record (R359). -/
def sluiceRec (typ key seq capture off : Nat) (payload : List Byte) : List Byte :=
  let h := natLE 2 0x534C ++ [BitVec.ofNat 8 typ, BitVec.ofNat 8 (key / 65536)] ++ natLE 2 key ++ natLE 2 payload.length ++
    natLE 4 seq ++ natLE 4 capture ++ natLE 4 off
  h ++ natLE 4 (crc32c (h ++ payload)).toNat ++ payload

/-- Send one record on both transmit rings; without credit on either it is skipped, its SEQ consumed (R313, R360). -/
def State.sluiceSend (s : State) (typ key off : Nat) (payload : List Byte) : State :=
  let q := if s.get SLC.SLC_SEQ = 0xFFFFFFFF then 1 else s.get SLC.SLC_SEQ + 1
  let r := sluiceRec typ key q s.stamp off payload
  let f := natBE 6 0xFFFFFFFFFFFF ++ natBE 6 0 ++ natBE 2 0x88B6 ++ r
  let s := s.put SLC.SLC_SEQ q
  let (s, a) := s.ringPost (s.get SLC.SLC_RING_TX0) f 0 none 0 0
  let (s, b) := s.ringPost (s.get SLC.SLC_RING_TX1) f 0 none 0 0
  if a || b then { s with slu := { s.slu with rate := s.slu.rate + payload.length, fullBytes := s.slu.fullBytes + payload.length } }
  else s.bump SLC.SLC_CNT0_SKIP_CNT

/-- The runs of changed words between two images of one source: offset and bytes, at most 1476 bytes each. -/
def changedRuns (old new : List Byte) : List (Nat × List Byte) :=
  let words := (List.range ((new.length + 3) / 4)).filter (fun i => (old.drop (4 * i)).take 4 != (new.drop (4 * i)).take 4)
  (words.foldl (fun (a : List (Nat × Nat)) i => match a with
    | (st, n) :: t => if st + n = i ∧ n < 369 then (st, n + 1) :: t else (i, 1) :: a
    | [] => [(i, 1)]) []).reverse.map (fun (st, n) => (4 * st, (new.drop (4 * st)).take (4 * n)))

/-- A whole image in pieces of at most 1476 bytes. -/
def pieces (l : List Byte) : List (Nat × List Byte) :=
  (List.range ((l.length + 1475) / 1476)).map (fun i => (1476 * i, (l.drop (1476 * i)).take 1476))

/-- Send DATA records of source `key`. -/
def State.sendData (s : State) (key : Nat) : List (Nat × List Byte) → State
  | [] => s
  | (o, b) :: t => (s.sluiceSend 2 key o b).sendData key t

/-- The image of a source as last sent. -/
def State.sentOf (s : State) (key : Nat) : List Byte := mapGet (fun _ => []) s.slu.sentImg key

/-- Note an image as sent. -/
def State.noteSent (s : State) (key : Nat) (l : List Byte) : State :=
  { s with slu := { s.slu with sentImg := mapSet (fun _ => []) s.slu.sentImg key l } }

/-- Send the changes of the sources in `l`. -/
def State.sendDeltas (s : State) : List (Nat × List Byte) → State
  | [] => s
  | (k, img) :: t => ((s.sendData k (changedRuns (s.sentOf k) img)).noteSent k img).sendDeltas t

/-- The marked blocks of an application group: written by a master, or not as last sent (R363). -/
def State.dirtyBlocks (s : State) (x : Nat × Nat × Nat) : List (Nat × List Byte) :=
  let old := s.sentOf x.1
  let new := s.bytes x.2.1 x.2.2
  ((List.range (x.2.2 / 256)).map (fun i => (256 * i, (new.drop (256 * i)).take 256))).filter
    (fun b => s.slu.marks.contains ((x.2.1 + b.1) / 256) || b.2 != (old.drop b.1).take 256)

/-- Send the marked blocks of the groups in `l` and clear their marks. -/
def State.sendBlocks (s : State) : List (Nat × Nat × Nat) → State
  | [] => s
  | x :: t => ((s.sendData x.1 (s.dirtyBlocks x)).noteSent x.1 (s.bytes x.2.1 x.2.2)).sendBlocks t

/-- The delta group of the sources `keys` after a post: their changed words, those of forces and station events, the marked
blocks, and a COMMIT (R360, R363). -/
def State.sluiceDelta (s : State) (keys : List Nat) : State :=
  if !s.slcSends then s
  else
    let want := keys ++ [srcKey 4 0, srcKey 6 0]
    let s := s.sendDeltas (s.sources.filter (fun x => want.contains x.1))
    let s := s.sendBlocks (s.appRegions.flatMap appGroups)
    ({ s with slu := { s.slu with marks := [] } }).sluiceSend 3 0 0 []

/-- A full checkpoint starts at the first tick boundary after a whole second, or when the last one has ended (R360). -/
def State.fullStart (s : State) : State :=
  let sec := s.tku.base.toNat / 1000000000
  if !s.slcSends || s.on SLC.SLC_STAT_FULL_BUSY || sec == s.slu.fullSecond then s
  else
    let s := s.put SLC.SLC_STAT_FULL_BUSY 1
    let s := { s with slu := { s.slu with fullAt := s.mono, fullBytes := 0, fullSecond := sec } }
    let s := s.sluiceSend 1 0 0 []
    let s := { s with slu := { s.slu with fullFrom := some (s.get SLC.SLC_SEQ) } }
    let app := (s.appRegions.flatMap appGroups).map (fun x => (x.1, s.bytes x.2.1 x.2.2))
    (s.sources ++ app).foldl (fun s x => (s.sendData x.1 (pieces x.2)).noteSent x.1 x.2) s

/-- FULL_END ends a full checkpoint (R360, R376). -/
def State.fullEnd (s : State) : State :=
  if !s.slcSends || !s.on SLC.SLC_STAT_FULL_BUSY then s
  else
    let s := (s.sluiceSend 4 0 0 []).put SLC.SLC_STAT_FULL_BUSY 0
    let s := s.putSat SLC.SLC_FULL_DURATION_MS ((s.mono - s.slu.fullAt) / 1000000)
    let s := s.putSat SLC.SLC_FULL_SIZE_64K (quotShow s.slu.fullBytes 65536)
    (s.put SLC.SLC_FULL_SEQ (s.slu.fullFrom.getD 0)).inc SLC.SLC_CNT1_FULL_CNT

/-- The payload rate of the last second (R376). -/
def State.sluiceSecond (s : State) : State :=
  if s.tku.base.toNat % 1000000000 < 100000 ∧ s.slu.rate ≠ (0 : Nat) ∨ s.get SLC.SLC_RATE_KBS ≠ 0 ∧ s.tku.base.toNat % 1000000000 < 100000
  then { (s.put SLC.SLC_RATE_KBS (s.slu.rate / 1024)) with slu := { s.slu with rate := 0 } }
  else s

/-- The abort of the SLC page: the record in hand is discarded, its SEQ consumed (R373). -/
def State.sluiceAbort (s : State) : State :=
  if s.slcSends then s.put SLC.SLC_SEQ (if s.get SLC.SLC_SEQ = 0xFFFFFFFF then 1 else s.get SLC.SLC_SEQ + 1) else s

/-! ### Receiving (R361) -/

/-- A record is well formed and its CRC holds (R359). -/
def sluiceOk (l : List Byte) : Bool :=
  let n := leNat ((l.drop 6).take 2)
  decide (24 ≤ l.length) && leNat (l.take 2) == 0x534C && decide (n ≤ 1476) && decide (24 + n ≤ l.length) &&
    leNat ((l.drop 20).take 4) == (crc32c (l.take 20 ++ (l.drop 24).take n)).toNat

/-- The staging image of a source with bytes written over it. -/
def stageWrite (old : List Byte) (o : Nat) (b : List Byte) : List Byte :=
  (old ++ List.replicate (o - old.length) 0#8).take o ++ b ++ old.drop (o + b.length)

/-- Sequencers whose active program the active module has switched and whose inactive bank holds it, switch with it (R118). -/
def State.followActivation (s : State) : List Nat → State
  | [] => s
  | q :: t =>
    let id := imgWord s.peerStation q
    (if id != s.get (LSQ.PROG_ID_ACTIVE q) && (match s.spare q with | some i => i.progId.toNat == id | none => false) then
      s.activate q false else s).followActivation t

/-- A COMMIT, FULL_BEGIN, FULL_END or DATA record in its turn (R361). -/
def State.sluiceApply (s : State) (typ key q off : Nat) (b : List Byte) : State :=
  let u := s.slu
  if typ = 1 then ({ s with slu := { u with fullFrom := some q, fullEnd := false } }).put SLC.SLC_STAT_FULL_BUSY 1
  else if typ = 2 then
    { s with slu := { u with stage := mapSet (fun _ => []) u.stage key (stageWrite (mapGet (fun _ => []) u.stage key) off b) } }
  else if typ = 4 then
    let s := s.put SLC.SLC_STAT_FULL_BUSY 0
    match u.fullFrom with
    | none => s
    | some f =>
      let s := { s with slu := { u with fullEnd := true, mram := if u.adv then u.stage else u.mram } }
      (s.put SLC.SLC_FULL_SEQ f).inc SLC.SLC_CNT1_FULL_CNT
  else if typ = 3 then
    if u.adv || u.fullEnd then
      let s := { s with slu := { u with adv := true, cons := u.stage, ckptAt := some s.mono }
                        rdc := { s.rdc with everCkpt := true } }
      ((s.put SLC.SLC_STAT_CONSISTENT 1).followActivation (List.range 4)).trackReady
    else s
  else s

/-- The standby takes a Sluice record (R361): bad CRC, duplicate, gap, or in SEQ order. -/
def State.sluiceTake (s : State) (l : List Byte) : State :=
  if !(s.enabled 0x0C && s.mstate == stRUN && s.role == roleSTANDBY) then s
  else if !sluiceOk l then s.bump SLC.SLC_CNT0_CRC_ERR_CNT
  else
    let q := leNat ((l.drop 8).take 4)
    let n := leNat ((l.drop 6).take 2)
    let old := match s.slu.rxSeq with | none => false | some p => decide (sx 32 ((q + 2 ^ 32 - p) % 2 ^ 32) ≤ 0)
    let gap := match s.slu.rxSeq with | none => false | some p => q != nextSeq p
    if old then s.bump SLC.SLC_CNT1_DUP_CNT
    else
      let s := if gap then
          (({ s with slu := { s.slu with adv := false, fullFrom := none, fullEnd := false } }).bump SLC.SLC_CNT0_GAP_CNT).put
            SLC.SLC_STAT_CONSISTENT 0
        else s
      let s := ({ s with slu := { s.slu with rxSeq := some q } }).put SLC.SLC_SEQ q
      s.sluiceApply (leNat ((l.drop 2).take 1)) (leNat ((l.drop 3).take 1) * 65536 + leNat ((l.drop 4).take 2)) q
        (leNat ((l.drop 16).take 4)) ((l.drop 24).take n)

/-- A Sluice frame taken from a SYN port's ring. -/
def State.sluiceFromPort (s : State) (ring : Nat) (f : List Byte) : State := (s.sluiceTake (f.drop (ethPay f))).consumeOne ring

/-- The checkpoint age passes 100 ms (R357). -/
def State.ckptLimit (s : State) : State :=
  match s.slu.ckptAt with
  | none => s.trackReady
  | some t => (s.untilMono (t + ms 100 + 40)).trackReady

/-! ### The restore (R365, R103, R151, R182) -/

/-- The consistent image of a source. -/
def State.consOf (s : State) (key : Nat) : List Byte := mapGet (fun _ => []) s.slu.cons key

/-- Restore task `t` of sequencer `q`. Its slots take their restored values, those of a safety task with VALID 0 until its first post
(R265, R365). -/
def State.restoreTask (s : State) (q t : Nat) : State :=
  let l := s.consOf (srcKey 1 (16 * q + t))
  if l.isEmpty then s
  else
    let s := s.put (LSQ.TASK_CYCLES q t) (imgWord l 0)
    let s := (List.range 16).foldl (fun s i =>
      if s.on (LSQ.STN_CFG_EN q i) then s.put (LSQ.STN_STAT_STATE q i) (imgWord l 1 / 4 ^ i % 4) else s) s
    let outs := (s.imgTask q t).outputs.zipIdx
    let s := s.setSeq q (outs.foldl (fun v x => v.setOut x.1 (BitVec.ofNat 32 (imgWord l (2 + x.2)))) (s.seqOf q))
    outs.foldl (fun s x => s.post x.1 6 (16 * q + t) (BitVec.ofNat 32 (imgWord l (2 + x.2))) (!(s.imgTask q t).safety) false false false 0) s

/-- A timer from its four words. -/
def tmrOf (l : List Byte) (i : Nat) : Tmr :=
  let f := imgWord l i / 256
  ⟨imgWord l (i + 1), f.testBit 1, f.testBit 0, f.testBit 2, BitVec.ofNat 64 (imgWord l (i + 2) + 2 ^ 32 * imgWord l (i + 3)),
    f.testBit 3⟩

/-- A counter from its three words. -/
def ctrOf (l : List Byte) (i : Nat) : Ctr :=
  let f := imgWord l (i + 2)
  ⟨sx 32 (imgWord l i), sx 32 (imgWord l (i + 1)), f.testBit 0, f.testBit 1, f.testBit 2, f.testBit 3, f.testBit 4, f.testBit 5⟩

/-- Restore the objects and flag memory of sequencer `q` (R103): previous inputs are kept. -/
def State.restoreObjs (s : State) (q : Nat) : State :=
  let l := s.consOf (srcKey 1 (16 * q + 15))
  if l.isEmpty then s
  else
    let v := s.seqOf q
    let nt := v.timers.length
    let nc := v.counters.length
    let ne := v.edges.length
    let v := { v with
      timers := (List.range nt).map (fun i => tmrOf l (4 * i))
      counters := (List.range nc).map (fun i => ctrOf l (4 * nt + 3 * i))
      edges := (List.range ne).map (fun i => let w := imgWord l (4 * nt + 3 * nc + i); ⟨w.testBit 0, w.testBit 1⟩)
      m := [] }
    s.setSeq q ((List.range 2048).foldl (fun v k => v.setM k (BitVec.ofNat 32 (imgWord l (4 * nt + 3 * nc + ne + k)))) v)

/-- Restore loop context `c` (R151). -/
def State.restoreLoop (s : State) (c : Nat) : State :=
  let l := s.consOf (srcKey 2 c)
  if !s.loopEn c || l.isEmpty then s
  else
    let s := (s.wr (CTX.CTX_MODE_STATE c).key (BitVec.ofNat 32 (imgWord l 0))).wr (CTX.CTX_PROG_COAST_LEFT c).key
      (BitVec.ofNat 32 (imgWord l 1))
    let w := (List.range 16).map (fun i => imgWord l (4 + i))
    let s := s.put (CTX.CTX_MODE_CMD_PENDING c) 0
    let s := s.setLoop c { LoopCtx.blank with recover := imgWord l 2, primePeriods := imgWord l 3,
                                               frz := w.map (· % 65536), inn := w.map (· / 65536 % 16), beyond := w.map (·.testBit 20),
                                               from7 := s.loopSt c == lpFALLBACK && s.get (CTX.CTX_MODE_LAST_CAUSE c) == 7 }
    let s := s.setBytes (stateBase c) ((l.drop 80).take 0x240)
    if loopRuns (s.loopSt c) then s.prime c 10 true else s

/-- Restore Cascade slot `k` (R182). -/
def State.restoreCas (s : State) (k : Nat) : State :=
  let l := s.consOf (srcKey 3 k)
  if !(s.casEn k && s.casHeld k) || l.isEmpty then s
  else
    let n := imgWord l 4
    let x := (List.range n).map (fun i => sx 32 (imgWord l (6 + i)))
    let recs := (List.range (imgWord l 5)).map (fun i =>
      (BitVec.ofNat 32 (imgWord l (6 + n + 2 * i)), BitVec.ofNat 32 (imgWord l (7 + n + 2 * i))))
    s.casRestore k x (BitVec.ofNat 64 (imgWord l 2 + 2 ^ 32 * imgWord l 3)) (imgWord l 0) (imgWord l 1 != 0) recs

/-- Restore the forces (R116). -/
def State.restoreForces (s : State) : List Nat → State
  | [] => s
  | f :: t =>
    let l := s.consOf (srcKey 4 0)
    let w := imgWord l (2 * f)
    (if w % 2 = 1 then
      let s := { s with forces := mapIns f ⟨w.testBit 1, w / 65536⟩ (mapDel s.forces f) }
      let s := (s.put (LSQ.FORCE_TGT_TARGET 0 f) (w / 65536)).putB (LSQ.FORCE_TGT_KIND 0 f) (w.testBit 1)
      (s.put (LSQ.FORCE_VAL 0 f) (imgWord l (2 * f + 1))).put (LSQ.FORCE_STAT_ACTIVE 0 f) 1
     else s).restoreForces t

/-- Restore the application regions. -/
def State.restoreApp (s : State) : List (Nat × Nat × Nat) → State
  | [] => s
  | x :: t => (s.setBytes x.2.1 ((s.consOf x.1).take x.2.2)).restoreApp t

/-- The restore completes and the schedule starts (R365). -/
def State.restoreDone (s : State) : State :=
  if !(s.on SLC.SLC_STAT_RESTORING && s.mstate == stRUN && s.role == roleACTIVE) then s
  else
    let s := (s.put SLC.SLC_STAT_RESTORING 0).putSat SLC.SLC_RESTORE_US_LAST ((s.mono - s.slu.restoreAt) / 1000)
    let s := (List.range 4).foldl (fun s q => (List.range 10).foldl (fun s t => s.restoreTask q t) (s.restoreObjs q)) s
    let s := (List.range 128).foldl State.restoreLoop s
    let s := (List.range 16).foldl State.restoreCas s
    let s := (s.restoreForces (List.range 256)).restoreApp (s.appRegions.flatMap appGroups)
    s.schedStarts true (List.range 4)

end Sys2Proof.Machine
end

