-- ==== Sys2Proof/Machine/AbortOps.lean ====
section
/-! DEFINITION. Aborts (R51 to R54), the entry into SAFE_HOLD and HALT (R57, R58, R239, R441), and the entries into POWER_ON and
BOOT with what they reset and keep (R382, R385, R466). -/

namespace Sys2Proof.Machine

/-! ### Aborts -/

/-- The pages with an abort function (R53). -/
def abortPage (p : Nat) : Bool :=
  p == 0x06 || p == 0x09 || p == 0x0A || p == 0x0C || (decide (0x14 ≤ p) && decide (p < 0x18)) || p == 0x19 || p == 0x1B ||
    (decide (0x50 ≤ p) && decide (p < 0x64))

/-- The number of units of a page with an abort function (R52). -/
def abortUnits (p : Nat) : Nat :=
  if p = 0x06 ∨ p = 0x0A then 64 else if 0x14 ≤ p ∧ p < 0x18 then 10 else if p = 0x19 then 128 else if p = 0x1B then 16
  else if 0x50 ≤ p then 8 else 1

/-- The unit selected on page `p` (R52). -/
def State.abortUnit (s : State) (p : Nat) : Nat :=
  if p = 0x06 then s.get SSE.SESS_SEL else if p = 0x0A then s.get QMG.RING_SEL else if p = 0x19 then s.get CTX.CTX_SEL
  else if p = 0x1B then s.get SLOT.SLOT_SEL else if 0x14 ≤ p ∧ p < 0x18 then s.get (LSQ.TASK_SEL_TASK (p - 0x14))
  else if 0x50 ≤ p ∧ p < 0x64 then s.get (CAN.TXB_SEL (p - 0x50)) else 0

/-- Unit `u` of page `p` has work in hand for an abort to end. -/
def State.workInHand (s : State) (p u : Nat) : Bool :=
  if p = 0x09 then s.on PNL.PNL_STAT_UPDATING
  else if p = 0x0A then s.ringOn u && s.get (QMG.RING_EP_CONS_CLASS u) != epSoft && s.ringFill u != 0
  else if p = 0x0C then s.on SLC.SLC_STAT_FULL_BUSY
  else if 0x14 ≤ p ∧ p < 0x18 then (s.task (p - 0x14) u).isOpen
  else if p = 0x19 then loopRuns (s.loopSt u)
  else if p = 0x1B then s.casSt u == csSOLVING || s.casSt u == csLIN || s.casSt u == csLOADING
  else if 0x50 ≤ p ∧ p < 0x64 then ((s.can (p - 0x50)).buf u).isSome
  else false

/-- The abort bound of page `p` in ns (R53). -/
def State.abortBound (s : State) (p : Nat) : Nat :=
  if p = 0x06 then us 5 else if p = 0x0A then us 10 else if p = 0x1B then us 50 else if p = 0x0C then us 100
  else if p = 0x19 then us 200 else if 0x14 ≤ p ∧ p < 0x18 then ms 1
  else if 0x50 ≤ p ∧ p < 0x64 then us (s.get (CAN.FRAME_TIME_US (p - 0x50))) else ms 60

/-- PG_STAT.ABORTED of unit `u` of page `p`. -/
def abortedFld (p u : Nat) : Fld := ⟨rkey p u 0x010, 3, 1⟩

/-- The key of an abort under way. -/
def abortKey (p u : Nat) : Nat := p * 4096 + u

/-- The abort under way of unit `u` of page `p`. -/
def State.abortOf (s : State) (p u : Nat) : Option AbortRec := (s.aborts.find? (fun e => e.1 == abortKey p u)).map (·.2)

/-- An abort of page `p` is under way. -/
def State.abortRuns (s : State) (p : Nat) : Bool := s.aborts.any (fun e => e.1 / 4096 == p)

/-- An Ethernet or serial port lets go of what it has in hand from ring `r` (R317). -/
def State.ringDrop (s : State) (r : Nat) : State :=
  let i := s.get (QMG.RING_EP_CONS_INST r)
  if s.get (QMG.RING_EP_CONS_CLASS r) = epEth ∧ (s.eth i).hand = some (some r) then s.setEth i { s.eth i with hand := none }
  else if s.get (QMG.RING_EP_CONS_CLASS r) = epSer ∧ s.serTx i = r then s.setSer i SerPort.blank
  else s

/-- What an abort does when unit `u` of page `p` reaches IDLE. -/
def State.abortEnds (s : State) (p u : Nat) : State :=
  if p = 0x06 then s.sscAbort u
  else if p = 0x09 then s.pnlAbort
  else if p = 0x0A then (s.ringDrop u).ringAbort u
  else if p = 0x0C then if s.workInHand p u then s.sluiceAbort else s
  else if 0x14 ≤ p ∧ p < 0x18 then s.taskAbort (p - 0x14) u
  else if p = 0x19 then s.loopAborted u
  else if p = 0x1B then s.casAbort u
  else s

/-- What an abort does at once. -/
def State.abortStarts (s : State) (p u : Nat) : State :=
  if p = 0x19 then s.loopAbort u
  else if 0x50 ≤ p ∧ p < 0x64 then s.canCancel (p - 0x50) u false
  else if p = 0x0A ∧ s.get (QMG.RING_EP_CONS_CLASS u) = epCan ∧ s.get (QMG.RING_EP_CONS_INST u) < 20 ∧ s.ringOn u then
    (s.put (QMG.RING_STAT_ABORT_IDX u) (s.get (QMG.RING_CONS_CONS_IDX u))).canCancelAll (s.get (QMG.RING_EP_CONS_INST u))
  else s

/-- An abort of unit `u` of page `p` that began at `since` completes (R53), past its bound with OVER_BOUND 1 (R54). -/
def State.abortDone (s : State) (p u since : Nat) : State :=
  let s := if since + s.abortBound p < s.mono then s.put (HDR.PG_ABORT_STAT_OVER_BOUND p) 1 else s
  let s := s.abortEnds p u
  let s := { s with aborts := mapDel s.aborts (abortKey p u) }
  let s := (s.put (HDR.PG_ABORT_STAT_DURATION p) (min ((s.mono - since) / 1000) 0xFFFF)).putB (HDR.PG_ABORT_STAT_IN_PROGRESS p)
    (s.abortRuns p)
  s.put (abortedFld p u) 1

/-- An abort of unit `u` of page `p` with reason `r` (R51, R54): absorbed while one is under way, complete at once without work in
hand. -/
def State.abort (s : State) (r p u : Nat) : State :=
  if abortUnits p ≤ u ∨ (s.abortOf p u).isSome then s
  else
    let s := ((s.put (HDR.PG_ABORT_STAT_REASON p) r).put (HDR.PG_ABORT_STAT_OVER_BOUND p) 0).put (HDR.PG_ABORT_STAT_DURATION p) 0
    let busy := s.workInHand p u
    let s := s.abortStarts p u
    let waits := if 0x50 ≤ p then s.workInHand p u else busy
    if waits then
      { s.put (HDR.PG_ABORT_STAT_IN_PROGRESS p) 1 with aborts := mapIns (abortKey p u) ⟨r, s.mono⟩ s.aborts }
    else s.abortDone p u s.mono

/-- Abort every unit of page `p`. -/
def State.abortAll (s : State) (r p : Nat) : State := (List.range (abortUnits p)).foldl (fun s u => s.abort r p u) s

/-- An abort under way completes: not before the frame of a CAN buffer has ended (R337), and in a loop context not after the release
instant of a tick, at which the first fallback output is posted (R149). -/
def State.abortComplete (s : State) (p u : Nat) : State :=
  match s.abortOf p u with
  | none => s
  | some a => if (0x50 ≤ p ∧ s.workInHand p u) ∨ (p = 0x19 ∧ s.loopRelPast = true) then s else s.abortDone p u a.since

/-- An abort exceeds its bound (R54). -/
def State.abortLate (s : State) (p u : Nat) : State :=
  match s.abortOf p u with
  | none => s
  | some a => (s.untilMono (a.since + s.abortBound p)).put (HDR.PG_ABORT_STAT_OVER_BOUND p) 1

/-- A number that changes when unit `u` of page `p` accepts new work. -/
def State.workMark (s : State) (p u : Nat) : Nat :=
  if p = 0x06 then s.get (SSE.SESS_SEQ u)
  else if p = 0x0A then s.get (QMG.RING_PROD_PROD_IDX u)
  else if p = 0x0C then s.get SLC.SLC_SEQ
  else if p = 0x19 then b2n (s.loop u).job.isSome + 2 * (s.loop u).cmd
  else b2n (s.workInHand p u)

/-- Unit `u` of page `p` has accepted new work since `old` (R35). A counter of accepted work may wrap to 0; a unit reset to 0 is disabled. -/
def State.newWork (s old : State) (p u : Nat) : Bool :=
  s.workMark p u != old.workMark p u &&
    (s.workMark p u != 0 || (p == 0x0A && old.ringOn u && s.ringOn u) ||
      (p == 0x06 && old.on (SSE.SESS_CFG_EN u) && s.on (SSE.SESS_CFG_EN u)) || (p == 0x0C && old.enabled p && s.enabled p))

/-- ABORTED clears on every unit that has accepted new work since `old` (R35). -/
def State.clearAborted (s old : State) : State :=
  let l := old.regs.filter (fun e => e.1 % 4096 == 0x010 && e.2.getLsbD 3)
  l.foldl (fun s e =>
    let p := e.1 / 16777216
    let u := e.1 / 4096 % 4096
    if s.newWork old p u then s.put (abortedFld p u) 0 else s) s

/-! ### SAFE_HOLD and HALT -/

/-- The pages that receive an abort when the module stops. -/
def abortPages : List Nat := allPages.filter abortPage

/-- The compute domains halt and the links fall silent; every block with an abort function receives reason 0xFF, and the Cistern
flushes (R239, R400, R468). DESIGN CHOICE (assumption 37): reason 0xFF also at the entry into HALT, for which R51 names none. -/
def State.stopAll (s : State) : State :=
  let s := s.quietLinks
  let s := abortPages.foldl (fun s p => s.abortAll 0xFF p) s
  let s := s.schedStops (List.range 4)
  let s := ((s.put RDC.ROLE_ROLE roleNONE).put RDC.ROLE_LAPSED 0).put RDC.ROLE_DRIVING 0
  let s := (s.put SYS.REQ_STAT_HANDOVER_PENDING 0).put SLC.SLC_STAT_RESTORING 0
  let s := { s with
    rdc := { s.rdc with witUntil := none, peerUntil := none, reqs := [], peerReqs := [], handover := none, awaitPeer := none,
                        drove := false, toCause := 0, readySince := none }
    pwr := { s.pwr with restartAfter := 0 } }
  s.applyR468.cisFlush

/-- The rank of a cause among detections that coincide (R441). -/
def causeRank (c : Nat) : Nat := if c = 0x08 then 0 else if c = 0x05 then 1 else if c = 0x04 then 2 else 3

/-- A detected fault whose reaction is SAFE_HOLD with cause `c` (R58, R441). -/
def State.safeHold (s : State) (c : Nat) : State :=
  let st := s.mstate
  if st = stBOOT ∨ st = stCONFIG ∨ st = stSTARTUP ∨ st = stRUN then
    let s := (s.setMstate stSAFE).put SYS.STATE_CAUSE_CAUSE c
    let s := s.stopAll.trackDuty
    { s with pwr := { s.pwr with holdAt := s.mono } }
  else if st = stSAFE ∧ s.pwr.holdAt = s.mono ∧ causeRank c < causeRank (s.get SYS.STATE_CAUSE_CAUSE) then
    s.put SYS.STATE_CAUSE_CAUSE c
  else s

/-- The entry into HALT with cause `c` (R58). -/
def State.halt (s : State) (c : Nat) : State := ((s.setMstate stHALT).put SYS.STATE_CAUSE_CAUSE c).stopAll.trackDuty

/-! ### POWER_ON and BOOT -/

/-- The register words that a reset keeps, each with the bits of its mask. -/
def keepRegs (mask : Nat → Word) (l : List (Nat × Word)) : List (Nat × Word) :=
  mapMap resetWord (fun k w => (resetWord k &&& ~~~ mask k) ||| (w &&& mask k)) l

/-- The bytes of MRAM, which every reset keeps (R466). -/
def mramBytes (l : List Host.Cell) : List Host.Cell := l.filter (fun e => decide (0x70000000 ≤ e.1 ∧ e.1 ≤ 0x71FFFFFF))

/-- Every bank is reset (R206). -/
def resetBanks (now : Nat) : List (Nat × Bank) := (List.range 16).map (fun b => (b, { Bank.blank with resetAt := now }))

/-- What the CAN controllers keep in MRAM: the candidate confirmed last (R342). -/
def keepCans (l : List (Nat × CanCtl)) : List (Nat × CanCtl) :=
  mapMap (fun _ => CanCtl.blank) (fun _ c => { CanCtl.blank with lastCand := c.lastCand }) l

/-- What the planner keeps in MRAM: the learned baselines and the learning in progress (R414), and the temperature exposures, which count
over the module's life (R412; DEDUCED, assumption 45). -/
def keepMpl (m : Mpl) : Mpl :=
  { Mpl.blank with
    mons := mapMap (fun _ => Mon.blank) (fun _ k => { Mon.blank with sum := k.sum, cnt := k.cnt, learned := k.learned, exposure := k.exposure }) m.mons
    learnFrom := m.learnFrom }

/-- What the Cistern keeps in MRAM: its checkpoint copies and where its records stand (R400, R405). -/
def keepCis (c : Cis) : Cis := { Cis.blank with ckA := c.ckA, ckB := c.ckB, recs := c.recs }

/-- The state after a reset that keeps the register bits of `mask`, the contents of MRAM, the time base, the device's own data and
the waiting commands (R466). -/
def State.resetKeep (s : State) (mask : Nat → Word) : State :=
  { State.reset with
    pending := s.pending
    regs := keepRegs mask s.regs
    mem := mramBytes s.mem
    freshCtr := s.freshCtr
    tku := s.tku
    dev := { s.dev with upd := none }
    pwr := { s.pwr with restartAfter := 0 }
    clo := s.clo
    sent := s.sent
    creds := s.creds
    gnt := { Gnt.blank with stored := s.gnt.stored }
    banks := resetBanks s.mono
    cans := keepCans s.cans
    slu := { Slu.blank with mram := s.slu.mram }
    cis := keepCis s.cisTorn.cis
    mpl := keepMpl s.mpl }

/-- IMG_STAT 3 of an image cut off while it was written reads 2 from the next boot (R384, R390). -/
def cutImage (n : Nat) : Nat := if n = 3 then 2 else n

/-- The boot loader and the hardware at an entry into BOOT with RST_CAUSE `cause` and STATE_CAUSE `code` (R385, R466): the reset,
the switches, the challenges, SCP0 and the panel. -/
def State.enterBoot (s : State) (cause code : Nat) : State :=
  let a := cutImage (s.get SYS.IMG_STAT_A)
  let b := cutImage (s.get SYS.IMG_STAT_B)
  let stored := s.gnt.stored
  let s := s.resetKeep keepMask
  let s := { s with pwr := { s.pwr with bootAt := s.mono } }
  let s := (s.put SYS.IMG_STAT_A a).put SYS.IMG_STAT_B b
  let s := ((s.setMstate stBOOT).put SYS.STATE_CAUSE_CAUSE code).put RDC.ROLE_ROLE roleNONE
  let s := ((s.put PSU.RST_CAUSE_CAUSE cause).put PSU.RAIL_STAT_FAULTED 0).put PSU.RAIL_STAT_OK 0x7F
  let s := (s.put SYS.SEAL_SW_SAFETY_ADDR s.dev.swAddr.toNat).put SYS.SEAL_SW_MODE (b2n s.dev.swCompat + 2 * b2n s.dev.swLock)
  let s := if stored.isEmpty then s
    else ((s.put GNT.PSET_STAT_STATE 1).put GNT.GNT_STAT_PSET_VALID 1).evalSeal
  let s := [1, 2, 3, 4, 5].foldl State.renewChal s
  (s.applyR468.wakeDomain 0).pnlStart

/-- The return to POWER_ON (R382, R383): everything but MRAM, OTP and the switches is lost. -/
def State.enterPowerOn (s : State) (brown : Bool) : State :=
  let a := cutImage (s.get SYS.IMG_STAT_A)
  let b := cutImage (s.get SYS.IMG_STAT_B)
  let mono := s.tku.mono
  let s := s.resetKeep mramMask
  let s := { s with
    tku := { State.reset.tku with mono := mono }
    clo := ⟨[]⟩
    pwr := { s.pwr with pressedAt := none, releasedAt := 0, brownOut := brown } }
  (s.put SYS.IMG_STAT_A a).put SYS.IMG_STAT_B b

end Sys2Proof.Machine
end

