-- ==== Sys2Proof/Machine/GntScan.lean ====
section
/-! DEFINITION. The Gauntlet at work (R259 to R294): the scan, start-up tests, reset inputs, votes lost and expired, its faults,
the load of a parameter set, commissioning, credentials and the switch block. -/

namespace Sys2Proof.Machine

/-- Set the Gauntlet's state. -/
def State.setGnt (s : State) (g : Gnt) : State := { s with gnt := g }

/-- What the Gauntlet keeps of input `i`. -/
def State.gin (s : State) (i : Nat) : GIn := mapGet (fun _ => GIn.blank) s.gnt.ins i

/-- Set what the Gauntlet keeps of input `i`. -/
def State.setGin (s : State) (i : Nat) (v : GIn) : State :=
  s.setGnt { s.gnt with ins := mapSet (fun _ => GIn.blank) s.gnt.ins i v }

/-! ### Faults (R277) -/

/-- A Gauntlet fault of cause 1 to 3: trip-word bits stay 0 from the next scan, and the module enters SAFE_HOLD. -/
def State.gntFault (s : State) (c : Nat) : State :=
  let s := if s.on GNT.GNT_STAT_FAULT then s else (s.put GNT.GNT_STAT_FAULT 1).put GNT.GNT_STAT_FAULT_CAUSE c
  s.safeHold 0x09

/-- The Gauntlet's supply fails (R277): it stops. -/
def State.gntSupply (s : State) : State :=
  let s := s.setGnt { s.gnt with stopped := true }
  let s := (s.put GNT.GNT_STAT_FAULT 1).put GNT.GNT_STAT_FAULT_CAUSE 5
  let s := (s.putBit PSU.RAIL_STAT_FAULTED 6 true).putBit PSU.RAIL_STAT_OK 6 false
  s.safeHold 0x08

/-- The 5 ms window of the Gauntlet oscillator against the TCXO, in kHz: beyond ±4 % of 8 MHz is a fault. -/
def State.gntOsc (s : State) (khz : Nat) : State :=
  if s.gnt.stopped then s
  else
    let s := s.putSat GNT.OSC_KHZ khz
    if khz < 7680 ∨ 8320 < khz then s.gntFault 3 else s

/-! ### Inputs (R267, R275, R276) -/

/-- The start-up test of an input at a scan (R275): pending again after an invalid condition, and clear once a demand and then
the healthy state have been seen. -/
def State.stest (s : State) (i : Nat) (was ok st : Bool) : State :=
  if !psStest s.gnt.tab i then s
  else
    let f := GNT.IN_STEST_PEND i
    let word := GNT.STEST_PEND (i / 32)
    let arm := ok && !was
    let s := if arm then (s.put f 1).putBit word (i % 32) true else s
    let saw := (s.gin i).sawDemand && !arm && ok
    if !ok then s.setGin i { s.gin i with sawDemand := false }
    else if !st then s.setGin i { s.gin i with sawDemand := s.on f }
    else if saw && s.on f then ((s.put f 0).putBit word (i % 32) false).setGin i { s.gin i with sawDemand := false }
    else s.setGin i { s.gin i with sawDemand := saw }

/-- A reset input is held or stuck (R276). -/
def State.resetFault (s : State) (i : Nat) : State :=
  let s := if s.on (GNT.IN_RESET_FAULT i) then s else (s.put (GNT.IN_RESET_FAULT i) 1).bump GNT.GNT_CNT0_RESET_FAULT_CNT
  (s.put (GNT.IN_RESET_ARMED i) 0).setGin i { s.gin i with pressSince := none }

/-- A reset input valid and 0 for 1 s is ARMED, and its fault clears (R276). -/
def State.resetArm (s : State) (i : Nat) : State :=
  match (s.gin i).zeroSince with
  | none => s
  | some t => if t + secs 1 ≤ s.mono then (s.put (GNT.IN_RESET_ARMED i) 1).put (GNT.IN_RESET_FAULT i) 0 else s

/-- A press has reached 5 s (R276). -/
def State.resetStuck (s : State) (i : Nat) : State :=
  match (s.gin i).pressSince with
  | none => s
  | some t => if t + secs 5 ≤ s.mono then s.resetFault i else s

/-- A reset input at a scan (R276). The truth value tells of a valid reset at its trailing edge. -/
def State.resetIn (s : State) (i : Nat) (was ok st : Bool) (prev : Bool) : State × Bool :=
  if !psIsReset s.gnt.tab i then (s, false)
  else
    let g := s.gin i
    if !ok then ((s.put (GNT.IN_RESET_ARMED i) 0).setGin i { g with zeroSince := none, pressSince := none }, false)
    else if st then
      let s := s.setGin i { g with zeroSince := none }
      if s.gnt.first then (s.resetFault i, false)
      else if was && !prev && s.on (GNT.IN_RESET_ARMED i) then
        ((s.put (GNT.IN_RESET_ARMED i) 0).setGin i { s.gin i with pressSince := some s.mono }, false)
      else (s.resetStuck i, false)
    else
      let s := s.resetStuck i
      let hit := match (s.gin i).pressSince with | none => false | some t => decide (t + ms 100 ≤ s.mono)
      let z := if was && !prev then g.zeroSince else some s.mono
      let s := s.setGin i { s.gin i with pressSince := none, zeroSince := some (z.getD s.mono) }
      let s := if hit then s.put GNT.GNT_CNT1_RESET_ACCEPT_CNT (min (s.get GNT.GNT_CNT1_RESET_ACCEPT_CNT + 1) 0xFFFF) else s
      (s.resetArm i, hit)

/-- Safety input `i` at a scan (R267). The truth value tells of a valid reset. -/
def State.scanIn (s : State) (i : Nat) : State × Bool :=
  let c := psInCh s.gnt.tab i
  let g := s.gin i
  let ans := (s.bank (c / 16)).polled
  let k := s.chan c
  let miss := if ans then 0 else g.miss + 1
  let ok := if ans then k.pollOk else g.valid && decide (miss < 2)
  let st := if ans then k.pollSt else g.st
  let was := g.valid
  let s := s.setGin i { g with miss := miss, valid := ok, st := st }
  let reset := psIsReset s.gnt.tab i
  let s := (s.putB (GNT.IN_DEMAND i) (!reset && (!ok || !st))).putB (GNT.IN_INVALID i) (!ok)
  (s.stest i was ok st).resetIn i was ok st g.st

/-- The used safety inputs. -/
def State.gntInputs (s : State) : List Nat := (List.range 128).filter (psInUsed s.gnt.tab)

/-- The used safety outputs. -/
def State.gntOutputs (s : State) : List Nat := (List.range 64).filter (psOutUsed s.gnt.tab)

/-- The inputs in `l` at a scan; the reset inputs that gave a valid reset. -/
def State.scanIns (s : State) : List Nat → List Nat → State × List Nat
  | [], hits => (s, hits)
  | i :: t, hits => let (s, h) := s.scanIn i; s.scanIns t (if h then hits ++ [i] else hits)

/-! ### Vote groups (R269, R270) -/

/-- Input `i` is in demand; one that no channel serves is never valid, so it is in demand (R268). -/
def State.dem (s : State) (i : Nat) : Bool := !psInUsed s.gnt.tab i || s.on (GNT.IN_DEMAND i)

/-- The discrepancy of group `g` of output `j` reaches DISC_MS (R270). -/
def State.discReach (s : State) (j g : Nat) : State :=
  if s.gnt.discOver.contains (4 * j + g) then s
  else
    let s := s.setGnt { s.gnt with discOver := s.gnt.discOver ++ [4 * j + g] }
    (s.put (GNT.OUT_DISC j) 1).bump GNT.GNT_CNT0_DISC_CNT

/-- The discrepancy check of group `g` of output `j` at a scan (R270). -/
def State.discCheck (s : State) (j g : Nat) : State :=
  let m := psMembers s.gnt.tab j g
  let d := psDisc s.gnt.tab j
  let k := 4 * j + g
  if !(m.length == 2 || m.length == 3) || d == 0 then s
  else if m.all s.dem || m.all (fun i => !s.dem i) then
    let s := s.setGnt { s.gnt with discSince := mapDel s.gnt.discSince k, discOver := s.gnt.discOver.filter (· != k) }
    if s.gnt.discOver.any (fun x => x / 4 == j) then s else s.put (GNT.OUT_DISC j) 0
  else
    match s.gnt.discSince.find? (fun e => e.1 == k) with
    | none => s.setGnt { s.gnt with discSince := mapIns k s.mono s.gnt.discSince }
    | some (_, t) => if t + ms d ≤ s.mono then s.discReach j g else s

/-- Group `g` of output `j` trips (R269). -/
def State.groupTrips (s : State) (j g : Nat) : Bool :=
  let m := psMembers s.gnt.tab j g
  let n := (m.filter s.dem).length
  let mode := psMode s.gnt.tab j g
  if mode = 0 ∨ mode = 1 then decide (1 ≤ n)
  else if mode = 2 then decide (2 ≤ n) || s.gnt.discOver.contains (4 * j + g)
  else decide (2 ≤ n)

/-- The used groups of output `j`. -/
def State.usedGroups (s : State) (j : Nat) : List Nat := (List.range 4).filter (psGroupUsed s.gnt.tab j)

/-- A selected input of output `j` has its start-up test pending (R275). -/
def State.stestBlock (s : State) (j : Nat) : Bool :=
  s.gntInputs.any (fun i => psCell s.gnt.tab i j != 0 && s.on (GNT.IN_STEST_PEND i))

/-- Output `j` at a scan (R268, R271): demand, then latch, then reset, then permit and trip-word bit. -/
def State.scanOut (s : State) (hits : List Nat) (j : Nat) : State :=
  let s := (s.usedGroups j).foldl (fun s g => s.discCheck j g) s
  let d := (s.usedGroups j).any (s.groupTrips j)
  let lat := psLatch s.gnt.tab j && (s.on (GNT.OUT_LATCHED j) || d)
  let lat := lat && !(hits.contains (psResetIn s.gnt.tab j) && !d)
  let block := s.stestBlock j
  let gp := !d && !lat && !block && !s.on SYS.MODULE_STATE_SAFETY_UNCOMMISSIONED && !s.on GNT.GNT_STAT_FAULT
  let pv := if j < 32 then s.bit GNT.PV_LO j else s.bit GNT.PV_HI (j - 32)
  let tw := gp && pv
  let s := (((s.putB (GNT.OUT_DEMAND j) d).putB (GNT.OUT_LATCHED j) lat).putB (GNT.OUT_STEST_BLOCK j) block).putB (GNT.OUT_GP j) gp
  let s := (s.putB (GNT.OUT_PV j) pv).putB (GNT.OUT_TW j) tw
  if j < 32 then ((s.putBit GNT.GP_LO j gp).putBit GNT.TW_LO j tw).putBit GNT.LATCH_LO j lat
  else ((s.putBit GNT.GP_HI (j - 32) gp).putBit GNT.TW_HI (j - 32) tw).putBit GNT.LATCH_HI (j - 32) lat

/-! ### Votes lost and expired (R273) -/

/-- The grace of a lost vote has run out: PV is all zeros. -/
def State.voteExpire (s : State) : State :=
  if s.on GNT.VOTE_STAT_EXPIRED || s.gnt.lastVote.isNone then s
  else
    let s := (s.put64 GNT.PV_LO GNT.PV_HI 0).put GNT.VOTE_STAT_HOLDING 0
    (s.put GNT.VOTE_STAT_EXPIRED 1).bump GNT.GNT_CNT0_GRACE_EXP_CNT

/-- The vote by the time of this scan. -/
def State.voteCheck (s : State) : State :=
  match s.gnt.lastVote with
  | none => s
  | some t =>
    let s := if t + ms 2 ≤ s.mono then s.voteHold else s
    if s.on GNT.VOTE_STAT_HOLDING && decide (t + ms (s.get GNT.VOTE_CFG_GRACE_MS) ≤ s.mono) then s.voteExpire else s

/-- 2 ms without an accepted vote frame. -/
def State.voteLoss (s : State) : State :=
  match s.gnt.lastVote with
  | none => s
  | some t => if s.on GNT.VOTE_STAT_HOLDING || s.on GNT.VOTE_STAT_EXPIRED then s else (s.untilMono (t + ms 2)).voteHold

/-- VOTE_GRACE after the last frame. -/
def State.graceEnd (s : State) : State :=
  match s.gnt.lastVote with
  | none => s
  | some t => if s.on GNT.VOTE_STAT_HOLDING then (s.untilMono (t + ms (s.get GNT.VOTE_CFG_GRACE_MS))).voteExpire else s

/-- Every 1 ms the vote producer repeats the last vector, in RUN as SINGLE or ACTIVE while the schedule of SAFETY_SEQ runs
(R264). -/
def State.voteTick (s : State) : State :=
  if s.sends && s.schedRun s.safetySeq && !s.gnt.tab.isEmpty then (s.untilMono (s.gnt.sentAt + ms 1)).voteRepeat else s

/-! ### The scan (R266, R268) -/

/-- The trip word of bank `b` (R259). -/
def State.tripBits (s : State) (b : Nat) : Nat :=
  (s.gntOutputs.filter (fun j => psOutCh s.gnt.tab j / 16 == b && s.on (GNT.OUT_TW j))).foldl
    (fun a j => a ||| 2 ^ (psOutCh s.gnt.tab j % 16)) 0

/-- The trip words of a scan, to every bank, with the next sequence number (R207). -/
def State.sendTrips (s : State) : State :=
  let words := (List.range 16).map (fun b =>
    let w := BitVec.ofNat 16 (s.tripBits b)
    (Link.trip b, natLE 2 w.toNat ++ natLE 2 (~~~w).toNat ++ [s.gnt.tripNo]))
  { s with sent := s.sent ++ words, gnt := { s.gnt with tripNo := s.gnt.tripNo + 1 } }

/-- The banks that hold a safety input and have not answered the poll (R267). -/
def State.missedBanks (s : State) : Nat :=
  ((List.range 16).filter (fun b => !(s.bank b).polled && s.gntInputs.any (fun i => psInCh s.gnt.tab i / 16 == b))).length

/-- The answers to a poll are used up. -/
def State.clearPolls (s : State) : State :=
  (List.range 16).foldl (fun s b => if (s.bank b).polled then s.setBank b { s.bank b with polled := false } else s) s

/-- One scan, 1 840 cycles of the nominal 8 MHz after the last, with what its self-test vector shows (R266, R268, R278). Before the tables are loaded every trip-word bit is 0. -/
def State.gntScan (s : State) (t : GntTest) : State :=
  if s.gnt.stopped || decide (s.mstate < stCONFIG) then s
  else if !s.on GNT.GNT_STAT_SCANNING then s.sendTrips
  else
    let s := s.untilMono (s.gnt.scanAt + 230000)
    let s := s.bumpBy GNT.GNT_CNT1_LINK_MISS_CNT s.missedBanks
    let s := s.voteCheck
    let (s, hits) := s.scanIns s.gntInputs []
    let s := s.gntOutputs.foldl (State.scanOut · hits) s
    let s := (s.inc GNT.SCAN_CNT).clearPolls.sendTrips
    let s := s.putB GNT.GNT_STAT_STEST_PENDING (s.gntInputs.any (fun i => s.on (GNT.IN_STEST_PEND i)))
    let s := s.setGnt { s.gnt with first := false, scanAt := s.mono }
    match t with
    | .vector p => s.putSat GNT.SELFTEST_PROGRESS (min p 999)
    | .passDone => (s.inc GNT.SELFTEST_PASSES).put GNT.SELFTEST_PROGRESS 0
    | .wrong => s.gntFault 2

/-! ### Start and parameter sets (R275, R280, R281) -/

/-- Show input `i` of the loaded tables (R294). -/
def State.showIn (s : State) (i : Nat) : State :=
  let l := s.gnt.tab
  let s := (s.put (GNT.IN_CHANNEL i) (psInCh l i)).put (GNT.IN_FLAGS i) (psInFlags l i)
  let s := if psInUsed l i then s.put (GNT.IN_INVALID i) 1 else s
  if psInUsed l i && psStest l i then (s.put (GNT.IN_STEST_PEND i) 1).putBit (GNT.STEST_PEND (i / 32)) (i % 32) true else s

/-- Show output `j` of the loaded tables; every latch is set (R271, R294). -/
def State.showOut (s : State) (j : Nat) : State :=
  let l := s.gnt.tab
  let s := ((s.put (GNT.OUT_CHANNEL j) (psOutCh l j)).putB (GNT.OUT_LATCH_EN j) (psLatch l j)).put (GNT.OUT_RESET_IN j) (psResetIn l j)
  let s := (s.put (GNT.OUT_GROUPS j) (psGroups l j)).put (GNT.OUT_DISC_MS j) (psDisc l j)
  if psOutUsed l j && psLatch l j then
    let s := s.put (GNT.OUT_LATCHED j) 1
    if j < 32 then s.putBit GNT.LATCH_LO j true else s.putBit GNT.LATCH_HI (j - 32) true
  else s

/-- SAFETY_CFG and VOTE_CFG from the stored set (R293). -/
def State.showCfg (s : State) : State :=
  let l := s.gnt.stored
  let s := ((s.put GNT.SAFETY_CFG_SAFETY_ADDR (setByteAt l 6)).put GNT.SAFETY_CFG_SAFETY_SEQ (psSeq l)).put
    GNT.SAFETY_CFG_VOTE_SESS_A (setByteAt l 12)
  (s.put GNT.SAFETY_CFG_VOTE_SESS_B (setByteAt l 13)).put GNT.VOTE_CFG_GRACE_MS (setByteAt l 14)

/-- The bank fields of safety input `i` of set `l` (R280). -/
def State.cfgIn (s : State) (l : List Byte) (i : Nat) : State :=
  let b := psInCh l i / 16
  let c := psInCh l i % 16
  let s := ((s.put (FB.CH_CFG_TYPE b c) (psInType l i)).put (FB.CH_CFG_SAFETY b c) 1).put (FB.CH_CFG_EN b c) 1
  let s := (s.putB (FB.CH_CFG_XCHK_EN b c) (psXchk l i)).put (FB.CH_CFG_SRC_CH b c) (if psSrcCh l i = 0xFF then 0 else psSrcCh l i)
  let s := (s.put (FB.CH_FILT_N b c) (psFiltN l i)).put (FB.CH_FILT_SAMPLE b c) (psSample l i)
  (s.setChan (16 * b + c) Chan.blank).chFresh (16 * b + c)

/-- The bank fields of safety output `j` of set `l` (R280). -/
def State.cfgOut (s : State) (l : List Byte) (j : Nat) : State :=
  let b := psOutCh l j / 16
  let c := psOutCh l j % 16
  let s := ((s.put (FB.CH_CFG_TYPE b c) 4).put (FB.CH_CFG_SAFETY b c) 1).put (FB.CH_CFG_EN b c) 1
  let s := s.put (FB.CH_CFG_PULSE_EN b c) 1
  (s.put (FB.CH_PULSE_INT b c) (psPulseInt l j)).put (FB.CH_PULSE_WIDTH_US b c) (10 * psPulseW l j)

/-- A channel that is no longer a safety channel: its configuration is that of reset. -/
def State.uncfg (s : State) (ch : Nat) : State :=
  let k := (FB.CH_CFG_EN (ch / 16) (ch % 16)).key
  let s := if s.isProducer (s.chSlot ch) 1 ch then s.freeSlot (s.chSlot ch) else s
  (s.wr k (resetWord k)).setChan ch Chan.blank

/-- The safety inputs of the stored set become the producers of their diagnostic slots, where those are free (R25). DESIGN CHOICE
(assumption 37): CH_SLOT 0, its reset value, names no slot for the copy of a safety input. -/
def State.claimDiag (s : State) : State :=
  ((List.range 128).filter (psInUsed s.gnt.stored)).foldl (fun s i =>
    let ch := psInCh s.gnt.stored i
    if s.chSlot ch = 0 ∨ s.otherProducer (s.chSlot ch) 1 ch then s else s.claim (s.chSlot ch) 1 ch) s

/-- The channels of the stored set take their configuration from it (R280). -/
def State.applySet (s : State) (old : List Byte) : State :=
  let l := s.gnt.stored
  let s := ((psChannels old).filter (fun c => !(psChannels l).contains c)).foldl State.uncfg s
  let s := ((List.range 128).filter (psInUsed l)).foldl (fun s i => s.cfgIn l i) s
  let s := ((List.range 64).filter (psOutUsed l)).foldl (fun s j => s.cfgOut l j) s
  s.claimDiag

/-- The Gauntlet starts at the end of STARTUP_TEST (R275, R281): it loads its tables from the stored set. -/
def State.gntStart (s : State) : State :=
  if s.gnt.stored.isEmpty then s.evalCommissioned
  else
    let g := s.gnt
    let s := s.setGnt { Gnt.blank with stored := g.stored, tab := g.stored, sentAt := s.mono, tripNo := g.tripNo, commAt := g.commAt, scanAt := s.mono }
    let s := (List.range 128).foldl State.showIn s
    let s := ((List.range 64).foldl State.showOut s).showCfg.claimDiag
    (s.put GNT.GNT_STAT_SCANNING 1).evalCommissioned

/-- PSET_LOAD (R281, R292, R380). -/
def State.psetLoad (s : State) (v m : Nat) : State :=
  let a := s.get GNT.PSET_SRC
  let n := s.get GNT.PSET_LEN
  if v ≠ 1 then s.badAccess 0x07 0x400 7 m
  else if s.mstate ≠ stCONFIG ∨ s.get GNT.PSET_STAT_STATE = 3 ∨ s.bit SYS.SEAL_SW_MODE 1 = true ∨ s.pfw = true ∨ n = 0 ∨
    a % 4096 ≠ 0 ∨ a < 0x80000000 ∨ 0x100000000 < a + n then s.lost 0x07 0x400 4 m
  else s.put GNT.PSET_STAT_STATE 3

/-- A load ends (R281): the first failed check shows, or the set becomes the stored one. -/
def State.psetDone (s : State) : State :=
  if s.get GNT.PSET_STAT_STATE ≠ 3 then s
  else
    let l := s.bytes (s.get GNT.PSET_SRC) (s.get GNT.PSET_LEN)
    let e := s.psetErr l
    let s := s.put GNT.PSET_STAT_LOAD_ERR e
    if e ≠ 0 then s.put GNT.PSET_STAT_STATE 2
    else
      let old := s.gnt.stored
      let s := (s.setGnt { s.gnt with stored := l }).put GNT.PSET_STAT_STATE 1
      let s := (s.put GNT.PSET_SIG (psSig l).toNat).put GNT.GNT_STAT_PSET_VALID 1
      (s.showCfg.applySet old).evalCommissioned

/-! ### Commissioning, credentials, switches (R284 to R287) -/

/-- COMMISSION (R285, R292). -/
def State.commission (s : State) (v m : Nat) : State :=
  let sig := s.get GNT.PSET_SIG
  if s.get GNT.PSET_STAT_STATE ≠ 1 ∨ s.on GNT.GNT_STAT_SEAL_MISMATCH = true ∨ ¬ (s.mstate = stCONFIG ∨ s.mstate = stRUN) ∨
    s.pfw = true ∨ v ≠ sig then s.lost 0x07 0x404 4 m
  else
    let (s, ok) := s.credSubmit 1 (natLE 4 sig) 0x07 0x404 m
    if ok then (({ s with gnt := { s.gnt with commAt := some s.mono } }.put GNT.COMM_SIG sig).put64 GNT.COMM_TIME_LO GNT.COMM_TIME_HI
        s.now).evalCommissioned
    else s

/-- CRED_CHANGE (R284, R292). -/
def State.credChange (s : State) (p m : Nat) : State :=
  if p = 0 ∨ 5 < p then s.badAccess 0x07 0x408 7 m
  else if s.pfw then s.lost 0x07 0x408 4 m
  else
    let new := s.words8 GNT.CRED_NEW
    let (s, ok) := s.credSubmit (0x10 + p) new 0x07 0x408 m
    if ok then { s with creds := mapSet (fun _ => 0) s.creds p (BitVec.ofNat 256 (leNat new)) } else s

/-- The lockout of purpose code `p` ends (R284). -/
def State.lockoutEnd (s : State) (p : Nat) : State := s.untilMono (mapGet (fun _ => 0) s.credLockTo p)

/-- The switch block takes new positions (R287): SEAL_LIVE follows, and a difference from SEAL_SW sets SEAL_CHANGED. -/
def State.sealChange (s : State) (addr : Nat) (compat lock : Bool) : State :=
  let s := { s with dev := { s.dev with swAddr := BitVec.ofNat 8 addr, swCompat := compat, swLock := lock } }
  let s := (s.put GNT.SEAL_LIVE_SAFETY_ADDR addr).put GNT.SEAL_LIVE_MODE (b2n compat + 2 * b2n lock)
  if s.mstate = stPOWER_ON then s
  else if addr % 256 ≠ s.get SYS.SEAL_SW_SAFETY_ADDR ∨ b2n compat + 2 * b2n lock ≠ s.get SYS.SEAL_SW_MODE then
    (s.put GNT.GNT_STAT_SEAL_CHANGED 1).evalCommissioned
  else s

end Sys2Proof.Machine
end

