-- ==== Sys2Proof/Machine/PowerOps.lean ====
section
/-! DEFINITION. Feeds, power-fail warning, supplies, boot, the front button and restarts (R377 to R394), and the SYS commands: feature
commit, state requests, image update and selection (R55 to R61). -/

namespace Sys2Proof.Machine

/-! ### Feeds (R377, R378, R469) -/

/-- SINGLE_FEED and ON_AUX follow the two feeds. -/
def State.feedFlags (s : State) : State :=
  let a := s.on PSU.FEED_STAT_MAINS_OK
  let b := s.on PSU.FEED_STAT_AUX_OK
  (s.putB PSU.FEED_STAT_SINGLE_FEED (a != b)).putB PSU.FEED_STAT_ON_AUX (b && !a)

/-- The mains as measured, in 0.1 V and 0.01 Hz; below 80.0 V no frequency can be measured (R469). -/
def State.mainsMeas (s : State) (vrms freq : Nat) : State :=
  (s.put PSU.MAINS_MEAS_VRMS vrms).put PSU.MAINS_MEAS_FREQ (if vrms < 800 then 0 else freq)

/-- The mains meet their OK condition (R378). -/
def mainsGood (vrms freq : Nat) : Bool := decide (800 < vrms ∧ vrms ≤ 2800 ∧ 4500 ≤ freq ∧ freq ≤ 6500)

/-- The auxiliary input meets its OK condition (R378), in mV. -/
def auxGood (mv : Nat) : Bool := decide (17500 < mv ∧ mv ≤ 34000)

/-- The mains are measured at these values, where they meet their OK condition or do not (R378). -/
def State.mainsChange (s : State) (vrms freq : Nat) : State :=
  let s := s.mainsMeas vrms freq
  if mainsGood vrms freq then (s.put PSU.FEED_STAT_MAINS_OK 1).feedFlags
  else if s.on PSU.FEED_STAT_MAINS_OK then
    ((s.put PSU.FEED_STAT_MAINS_OK 0).bump PSU.PSU_CNT_MAINS_LOSS_CNT).feedFlags.capAbandon
  else s

/-- The auxiliary input is measured at these values. -/
def State.auxChange (s : State) (mv ma : Nat) : State :=
  let s := (s.put PSU.AUX_MEAS_MV mv).put PSU.AUX_MEAS_MA ma
  if auxGood mv then (s.put PSU.FEED_STAT_AUX_OK 1).feedFlags
  else if s.on PSU.FEED_STAT_AUX_OK then
    ((s.put PSU.FEED_STAT_AUX_OK 0).bump PSU.PSU_CNT_AUX_LOSS_CNT).feedFlags.capAbandon
  else s

/-! ### The power-fail warning (R380, R381) -/

/-- The bulk has fallen to `bulk`, in 0.1 V: below PF_THRESH the warning is asserted. -/
def State.pfwAssert (s : State) (bulk : Nat) : State :=
  let s := s.put PSU.BULK_VOLT bulk
  if s.mstate = stPOWER_ON ∨ s.pfw = true ∨ s.get PSU.PF_THRESH ≤ bulk then s
  else
    let s := (s.put PSU.FEED_STAT_PFW 1).bump PSU.PSU_CNT_PFW_CNT
    let s := { s with pwr := { s.pwr with mramOps := s.rd CLO.OP_SECONDS.key, mramCycles := s.rd CLO.POWER_CYCLES.key } }
    let s := (List.range 4).foldl State.wakeDomain s
    s.cisFlush.capAbandon

/-- The bulk has risen to `bulk`: above PF_THRESH + 20 V the warning clears (R381). -/
def State.pfwClear (s : State) (bulk : Nat) : State :=
  let s := s.put PSU.BULK_VOLT bulk
  if s.pfw = true ∧ s.get PSU.PF_THRESH + 200 < bulk then
    ((s.put PSU.FEED_STAT_PFW 0).bump PSU.PSU_CNT_PFW_RECOVER_CNT).capPfwClear
  else s

/-! ### Brown-out, rails and good supplies (R382, R383, R389) -/

/-- The operating seconds that MRAM restores (R64): those saved at the warning, else at most 1 s is lost. -/
def State.opsKept (s : State) : State × Word :=
  if s.pfw then (s, s.pwr.mramOps)
  else
    let (s, f) := s.free
    (s, BitVec.ofNat 32 (s.get CLO.OP_SECONDS - f % 2))

/-- The MRAM record of a commissioning that is being written may be torn: it then reads as absent (R384). Whether it is, is a free value. -/
def State.tearComm (s : State) : State :=
  match s.gnt.commAt with
  | none => s
  | some t =>
    if t + ms 10 ≤ s.mono then s
    else
      let (s, f) := s.free
      if f % 2 = 1 then (s.put GNT.COMM_SIG 0).put64 GNT.COMM_TIME_LO GNT.COMM_TIME_HI 0 else s

/-- The return to POWER_ON, after a brown-out or a rail below its reset level (R382, R383, R384). -/
def State.powerDown (s : State) : State :=
  let s := s.tearComm
  let c := if s.pfw then s.pwr.mramCycles else s.rd CLO.POWER_CYCLES.key
  let (s, o) := s.opsKept
  ((s.enterPowerOn true).wr CLO.OP_SECONDS.key o).wr CLO.POWER_CYCLES.key c

/-- Rail `r` leaves its window, below its reset level or not (R383). -/
def State.railFault (s : State) (r : Nat) (below : Bool) : State :=
  if s.pfw = true ∨ s.mstate = stPOWER_ON then s
  else if r = 6 then s.gntSupply
  else
    let s := (s.putBit PSU.RAIL_STAT_FAULTED r true).putBit PSU.RAIL_STAT_OK r false
    if below then s.powerDown else s.safeHold 0x08

/-- Supplies are good (R389): the counters, the banks, BOOT. -/
def State.suppliesGood (s : State) (bulk : Nat) : State :=
  let s := s.put PSU.BULK_VOLT bulk
  if s.mstate ≠ stPOWER_ON ∨ bulk ≤ s.get PSU.PF_THRESH + 200 then s
  else
    let s := (s.put PSU.RAIL_STAT_OK 0x7F).inc CLO.POWER_CYCLES
    let s := { s with pwr := { s.pwr with goodAt := s.mono } }
    s.enterBoot (if s.pwr.brownOut then 2 else 1) 0x01

/-! ### The boot loader (R390) -/

/-- Image `n`, 0 A or 1 B, in NAND. -/
def State.nand (s : State) (n : Nat) : NandImage := if n = 0 then s.dev.imgA else s.dev.imgB

/-- IMG_STAT of image `n`. -/
def imgStat (n : Nat) : Fld := if n = 0 then SYS.IMG_STAT_A else SYS.IMG_STAT_B

/-- The version register of image `n`. -/
def imgVer (n : Nat) : Fld := if n = 0 then SYS.IMG_A_VER else SYS.IMG_B_VER

/-- The loader tries image `n`: marked 1, 2 or 0. -/
def State.tryImage (s : State) (n : Nat) : State × Bool :=
  let i := s.nand n
  if i.good then (((s.put (imgStat n) 1).put (imgVer n) i.version.toNat), true)
  else (s.put (imgStat n) (if s.get (imgStat n) = 0 then 0 else 2), false)

/-- A whole number of milliseconds, saturating at 16 bits. -/
def msSat (ns : Nat) : Nat := min (ns / 1000000) 0xFFFF

/-- The entry into CONFIG with image `n` (R390, R468): its pairs start, the Cistern restores its checkpoint, the planner starts, and the
safety parameter set configures its channels. -/
def State.enterConfig (s : State) (n : Nat) : State :=
  let sp := (s.nand n).split
  let s := (s.put SYS.BOOT_CFG_IMAGE n).put SYS.BOOT_CFG_SPLIT sp.toNat
  let s := (List.range 4).foldl (fun s p =>
    let x := sp.getLsbD p
    (s.putB (SCP.PAIR_STAT_SPLIT p) x).putB (LSQ.SEQ_STAT_PAIR_SPLIT p) x) s
  let s := s.setMstate stCONFIG
  let s := s.put PSU.BOOT_TIME_BOOT_MS (msSat (s.mono - s.pwr.bootAt))
  let s := ((List.range 4).foldl State.wakeDomain s).wakeHeld
  let s := s.cisRestore.mplStart
  if s.gnt.stored.isEmpty then s else s.showCfg.applySet []

/-- The slots that the booted image assigns to its applications: SRC_CLASS 7 with the master number of the core (R20, R249). -/
def State.appSlots (s : State) : List (Fin 8192 × Fin 8) → State
  | [] => s
  | x :: t => (if tCLASS (s.slotRaw x.1.val).tag = 0 then s.claim x.1.val 7 x.2.val else s).appSlots t

/-- The boot loader ends (R390). -/
def State.bootDone (s : State) (apps : List (Fin 8192 × Fin 8)) : State :=
  if s.mstate ≠ stBOOT then s
  else
    let n := s.get SYS.BOOT_SELECT_IMAGE
    let (s, ok) := s.tryImage n
    if ok then (s.enterConfig n).appSlots apps
    else
      let (s, ok) := s.tryImage (1 - n)
      if ok then (s.put SYS.BOOT_CFG_FALLBACK 1).enterConfig (1 - n) |>.appSlots apps else s.halt 0x06

/-! ### The start-up tests and the entry into RUN (R389, R392) -/

/-- A pair whose two copies run in lock-step: not split, its lock intact, not held in reset. -/
def State.pairLocked (s : State) (p : Nat) : Bool :=
  !s.on (SCP.PAIR_STAT_SPLIT p) && !s.on (SCP.PAIR_STAT_LOCK_BROKEN p) && !s.on (SCP.PAIR_STAT_HALTED p) && s.domRuns p

/-- The comparator test of pair `p` has passed (R240). -/
def State.comparatorPassed (s : State) (p : Nat) : State :=
  if s.pairLocked p then (s.put (SCP.PAIR_STAT_SELFTEST_OK p) 1).inc (SCP.SELFTEST_CNT p) else s

/-- The entry into RUN (R392): the only member is SINGLE and starts its schedule; a redundant one begins as STANDBY. -/
def State.enterRun (s : State) : State :=
  let s := s.setMstate stRUN
  let s := (s.put PSU.BOOT_TIME_TO_RUN_MS (msSat (s.mono - s.pwr.goodAt))).trackDuty
  if s.redundant then (s.put RDC.ROLE_ROLE roleSTANDBY).applyR468
  else (s.put RDC.ROLE_ROLE roleSINGLE).wakeHeld.schedStarts false (List.range 4)

/-- STARTUP_TEST ends (R277, R278, R389): passed, with one full pass of the Gauntlet's pattern, it leads to RUN; failed, to HALT. -/
def State.startupDone (s : State) (r : StartupTest) : State :=
  if s.mstate ≠ stSTARTUP then s
  else match r with
    | .pass => (((List.range 4).foldl State.comparatorPassed s).gntStart.inc GNT.SELFTEST_PASSES).enterRun
    | .gauntlet => ((s.put GNT.GNT_STAT_FAULT 1).put GNT.GNT_STAT_FAULT_CAUSE 4).halt 0x07
    | .other => s.halt 0x07

/-! ### Requests (R55, R59, R61) -/

/-- FEAT_COMMIT (R55). -/
def State.featCommit (s : State) (v m : Nat) : State :=
  if v ≠ 1 then s.badAccess 0x00 0x400 7 m
  else if s.mstate ≠ stCONFIG then s.lost 0x00 0x400 4 m
  else
    let s := (List.range 8).foldl (fun s k =>
      s.put (SYS.FEAT_ACTIVE k) (s.get (SYS.DEV_FEAT k) &&& s.get (SYS.DRV_FEAT k))) s
    let miss := (List.range 8).any (fun k => s.get (SYS.FEAT_MAND k) &&& s.get (SYS.DRV_FEAT k) != s.get (SYS.FEAT_MAND k))
    (s.put SYS.MODULE_STATE_FEAT_COMMITTED 1).putB SYS.MODULE_STATE_MAND_MISSING miss

/-- The planned handover of a restart: 1 by request, 2 by the button (R59, R386). A handover already under way serves. -/
def State.restartHandover (s : State) (why : Nat) : State :=
  let s := if s.handoverOn then s else s.startHandover 2
  { s with pwr := { s.pwr with restartAfter := why } }

/-- STATE_REQ (R59). -/
def State.stateReq (s : State) (v m : Nat) : State :=
  let st := s.mstate
  if v = 1 then
    if st = stCONFIG ∧ s.on SYS.MODULE_STATE_FEAT_COMMITTED = true ∧ s.on SYS.MODULE_STATE_MAND_MISSING = false then
      ((s.put SYS.REQ_STAT_RESTART_FAILED 0).setMstate stSTARTUP).applyR468
    else s.lost 0x00 0x404 4 m
  else if v = 2 then
    if ¬ (st = stCONFIG ∨ st = stRUN ∨ st = stSAFE ∨ st = stHALT) ∨ s.on SYS.REQ_STAT_HANDOVER_PENDING = true then
      s.lost 0x00 0x404 4 m
    else
      let s := s.put SYS.REQ_STAT_RESTART_FAILED 0
      if s.readyStandby then (s.put SYS.REQ_STAT_HANDOVER_PENDING 1).restartHandover 1 else s.enterBoot 3 0x02
  else s.badAccess 0x00 0x404 7 m

/-- IMG_UPD_START (R61, R380). -/
def State.imgUpdStart (s : State) (v m : Nat) : State :=
  let n := s.get SYS.IMG_UPD_LEN
  let a := s.get SYS.IMG_UPD_SRC
  if v ≠ 1 then s.badAccess 0x00 0x408 7 m
  else if s.on SYS.IMG_STAT_UPD_BUSY = true ∨ s.pfw = true ∨ n = 0 ∨ 0x8000000 < n ∨ a < 0x80000000 ∨ 0x100000000 < a + n ∨
    a % 4096 ≠ 0 then s.lost 0x00 0x408 4 m
  else
    let t := 1 - s.get SYS.BOOT_CFG_IMAGE
    let d := { s.dev with upd := some (s.bytes a n) }
    let d := if t = 0 then { d with imgA := { d.imgA with good := false } } else { d with imgB := { d.imgB with good := false } }
    ((({ s with dev := d }).put SYS.IMG_STAT_UPD_BUSY 1).put SYS.IMG_STAT_UPD_FAIL 0).put (imgStat t) 3

/-- An image update ends (R61). -/
def State.imgUpdDone (s : State) : State :=
  match s.dev.upd with
  | none => s
  | some l =>
    let t := 1 - s.get SYS.BOOT_CFG_IMAGE
    let i : NandImage := ⟨Config.ecdsaP384 l, Config.imageVersion l, Config.imageSplit l⟩
    let d := if t = 0 then { s.dev with upd := none, imgA := i } else { s.dev with upd := none, imgB := i }
    let s := ({ s with dev := d }).put SYS.IMG_STAT_UPD_BUSY 0
    let s := s.put (imgVer t) i.version.toNat
    if i.good then s.put (imgStat t) 1 else (s.put (imgStat t) 2).put SYS.IMG_STAT_UPD_FAIL 1

/-- BOOT_SELECT (R61). -/
def State.bootSelect (s : State) (v m : Nat) : State :=
  if 1 < v then s.badAccess 0x00 0x40C 7 m else s.put SYS.BOOT_SELECT_IMAGE v

/-! ### Restarts after a planned handover (R59, R368, R386) -/

/-- The peer has driven after the handover of a restart: the restart follows. -/
def State.handoverWon (s : State) : State :=
  if s.pwr.restartAfter = 1 then s.enterBoot 3 0x02
  else if s.pwr.restartAfter = 2 then s.enterBoot 4 0x03
  else s

/-- A handover has failed: no restart. -/
def State.handoverFailed (s : State) : State :=
  let w := s.pwr.restartAfter
  let s := { s with rdc := { s.rdc with awaitPeer := none }, pwr := { s.pwr with restartAfter := 0 } }
  if w = 1 then (s.put SYS.REQ_STAT_HANDOVER_PENDING 0).put SYS.REQ_STAT_RESTART_FAILED 1
  else if w = 2 then s.put PSU.RST_CAUSE_BUTTON_ACTION 5
  else s

/-- 50 ms + T_fast after the handover tick without DRIVING from the peer, or a handover that ended without its tick (R368). -/
def State.handoverTimeout (s : State) : State :=
  match s.rdc.awaitPeer with
  | some t => (s.untilMono (t + s.handoverLimit)).handoverFailed
  | none => if s.pwr.restartAfter ≠ 0 ∧ s.rdc.handover.isNone then s.handoverFailed else s

/-! ### The front button (R386, R387) -/

/-- The button is pressed. -/
def State.buttonPress (s : State) : State :=
  if s.pfw = true ∨ s.pwr.pressedAt.isSome = true then s
  else ({ s with pwr := { s.pwr with pressedAt := some s.mono } }).put CLO.BUTTON_PRESSED 1

/-- What a press of `n` ms does at its release. -/
def State.buttonAct (s : State) (n : Nat) : State :=
  if n < 100 then s.put PSU.RST_CAUSE_BUTTON_ACTION 0
  else if s.readyStandby then (s.put PSU.RST_CAUSE_BUTTON_ACTION 2).restartHandover 2
  else if n < 3000 ∨ s.mstate = stPOWER_ON then s.put PSU.RST_CAUSE_BUTTON_ACTION 1
  else (s.put PSU.RST_CAUSE_BUTTON_ACTION 3).enterBoot 4 0x03

/-- The button has reached 10 s. -/
def State.buttonStick (s : State) : State := (s.put CLO.BUTTON_STUCK 1).put PSU.RST_CAUSE_BUTTON_ACTION 4

/-- The button is released after `n` ms. -/
def State.buttonRelease (s : State) (n : Nat) : State :=
  match s.pwr.pressedAt with
  | none => s
  | some t =>
    let s := s.untilMono (t + ms n)
    let s := (s.putSat CLO.BUTTON_PRESS_MS n).put CLO.BUTTON_PRESSED 0
    let s := { s with pwr := { s.pwr with pressedAt := none, releasedAt := s.mono } }
    if s.on CLO.BUTTON_STUCK = true ∨ s.pfw = true then s
    else if 10000 ≤ n then s.buttonStick
    else s.buttonAct n

/-- A press reaches 10 s (R387). -/
def State.buttonStuck (s : State) : State :=
  match s.pwr.pressedAt with
  | none => s
  | some t => if s.pfw ∨ s.on CLO.BUTTON_STUCK then s else (s.untilMono (t + secs 10)).buttonStick

/-- The stuck button has been seen released for 2 s (R387). -/
def State.buttonRearm (s : State) : State :=
  if s.on CLO.BUTTON_STUCK = true ∧ s.pwr.pressedAt = none then
    (s.untilMono (s.pwr.releasedAt + secs 2)).put CLO.BUTTON_STUCK 0
  else s

/-! ### The automatic restart (R388) -/

/-- The automatic restarts of the last 3 600 s. -/
def State.autoCount (s : State) : Nat := (s.pwr.autoTimes.filter (fun t => decide (s.mono < t + secs 3600))).length

/-- DELAY_S after the entry into SAFE_HOLD, within the limit. -/
def State.autoRestart (s : State) : State :=
  let d := s.get PSU.AUTO_RESTART_DELAY_S
  if s.mstate ≠ stSAFE ∨ d = 0 then s
  else
    let s := s.untilMono (s.pwr.holdAt + secs d)
    if s.get PSU.AUTO_RESTART_LIMIT ≤ s.autoCount then s
    else
      let l := s.pwr.autoTimes.filter (fun t => decide (s.mono < t + secs 3600))
      ({ s with pwr := { s.pwr with autoTimes := l ++ [s.mono] } }).enterBoot 5 0x02

end Sys2Proof.Machine
end

