-- ==== Sys2Proof/Machine/Flags.lean ====
section
/-! DEFINITION. The status flags of every page: the levels of PG_STAT and PG_IRQ_STAT and the interrupt output (R35, R37, R38, and
the level list of each page's chapter). -/

namespace Sys2Proof.Machine

/-- The number whose bit k is the k-th level of a list. -/
def levels (l : List Bool) : Nat := bitsOf l

/-- Some instance of a family of fields is not 0. -/
def State.anyOn (s : State) (n : Nat) (f : Nat → Fld) : Bool := (List.range n).any (fun i => s.on (f i))

/-- Bank `b` holds an enabled safety output channel. -/
def State.bankSafetyOut (s : State) (b : Nat) : Bool :=
  (bankChans b).any (fun ch => s.chEn ch && s.chSafety ch && isOut (s.chType ch))

/-- A consumer entry in SAFE (R307). -/
def State.sessInSafe (s : State) (e : Nat) : Bool :=
  s.on (SSE.SESS_CFG_EN e) && !s.on (SSE.SESS_CFG_DIR e) && s.get (SSE.SESS_STAT_STATE e) == 3

/-- PG_STAT.BLK_STAT of page `p`: bit 0 here is bit 16 there. -/
def State.blkStat (s : State) (p : Nat) : Nat :=
  match pageKind p with
  | some .lpe => levels [
      (List.range 128).any (fun c => s.loopEn c && s.loopSt c == lpFALLBACK),
      (List.range 128).any (fun c => s.loopEn c && s.loopSt c == lpCOASTING),
      s.on LPE.EVT_TOTAL_OVERRUN_TOTAL, s.on LPE.EVT_TOTAL_BREACH_TOTAL, s.on LPE.COEF_LOCK_TOTAL, s.on LPE.QUERY_DONE]
  | some .cas => levels [
      s.on CAS.EVT_TOTAL_TRUNC_TOTAL, s.on CAS.EVT_TOTAL_BREACH_TOTAL, s.on CAS.LOCK_TOTAL, s.on CAS.QUERY_DONE,
      (List.range 16).any (fun k => s.casSt k == csLIN), s.anyOn 16 SLOT.SLOT_CNT2_FACT_FAIL_CNT]
  | some .fb =>
    let b := p - 0x20
    levels [s.on (FB.BANK_STAT_LOGIC_SILENT b), s.on (FB.BANK_STAT_RELEASED b), s.fvFault b,
      !s.on (FB.BANK_STAT_TRIP_LINK_OK b) && s.bankSafetyOut b, s.anyOn 16 (FB.CH_STAT_FAULT b), s.on (FB.BANK_STAT_INPUT_LOST b)]
  | some .scp =>
    let q := p - 0x10
    levels [s.on (SCP.PAIR_STAT_LOCK_BROKEN q), s.on (SCP.PAIR_STAT_SPLIT q), s.on (SCP.PAIR_STAT_HALTED q),
      s.on (SCP.TCM_ECC_CE_CNT q), q == 0 && s.anyOn 6 (SCP.MEM_ECC_CE_CNT 0)]
  | some .gnt => levels [
      s.on SYS.MODULE_STATE_SAFETY_UNCOMMISSIONED, s.on GNT.VOTE_STAT_HOLDING, s.on GNT.VOTE_STAT_EXPIRED,
      s.on GNT.GNT_STAT_STEST_PENDING, s.anyOn 128 GNT.IN_RESET_FAULT, s.anyOn 64 GNT.OUT_DISC,
      s.on GNT.GNT_STAT_SEAL_MISMATCH || s.on GNT.GNT_STAT_SEAL_CHANGED]
  | some .sse => levels [
      (List.range 64).any s.sessInSafe,
      (List.range 64).any (fun e => s.on (SSE.SESS_CFG_EN e) && !s.on (SSE.SESS_CFG_DIR e) && s.on (SSE.SESS_STAT_PEER_FORCED e)),
      s.on SSE.UNKNOWN_CNT]
  | some .qmg => levels [s.anyOn 64 QMG.RING_STAT_SW_WORK, s.anyOn 64 QMG.RING_CNT_NO_CREDIT_CNT, s.anyOn 64 QMG.RING_CNT_DESC_ERR_CNT]
  | some .eth => levels [s.on (ETH.PORT_STAT_LINK (p - 0x40))]
  | some .syn => levels [s.on (ETH.PORT_STAT_LINK (p - 0x40))]
  | some .wit => levels [s.on (ETH.PORT_STAT_LINK (p - 0x40))]
  | some .ser => levels [s.on (SER.SER_STAT_TX_BUSY (p - 0x64))]
  | some .can =>
    let n := p - 0x50
    levels [s.get (CAN.CAN_STAT_ERR_STATE n) == 1, s.get (CAN.CAN_STAT_ERR_STATE n) == 2, s.on (CAN.DET_STAT_DONE n),
      s.on (CAN.TX_CNT_RX_OVF_CNT n)]
  | some .rdc => levels [s.degraded, s.on RDC.ROLE_LAPSED, !s.peerSeen, !s.witnessSeen]
  | some .slc => levels [s.on SLC.SLC_STAT_CONSISTENT, s.on SLC.SLC_CNT0_SKIP_CNT, s.on SLC.SLC_CNT0_GAP_CNT]
  | some .psu => levels [s.on PSU.FEED_STAT_SINGLE_FEED, s.pfw, s.on PSU.RAIL_STAT_FAULTED, s.on CLO.BUTTON_STUCK]
  | some .cis => levels [s.on CIS.CIS_STAT_FLUSH_BUSY, s.on CIS.CIS_STAT_LOG_FULL, s.on CIS.CIS_STAT_EXPORT_BEHIND,
      s.on CIS.CIS_STAT_CKPT_LOST]
  | some .mpl => levels [
      s.on MPL.MPL_STAT_LEARNING, (List.range 77).any (fun m => s.demand m == 1), (List.range 77).any (fun m => s.demand m == 2),
      (List.range 77).any (fun m => s.demand m == 3), s.on MPL.GRADE_STAT_PENDING]
  | some .pnl => levels [s.on PNL.PNL_STAT_UPDATING, s.on PNL.PNL_STAT_HELD, s.on PNL.PNL_STAT_CRACK, s.on PNL.PNL_STAT_FRAME_ERR,
      s.on PNL.PNL_STAT_LOOP_LOST]
  | _ => 0

/-- PG_IRQ_STAT.BLK of page `p`: the pages whose chapter gives their levels to PG_STAT only carry none. -/
def State.blkIrq (s : State) (p : Nat) : Nat :=
  match pageKind p with
  | some .scp => 0
  | some .ser => 0
  | some .eth => 0
  | some .syn => 0
  | some .wit => 0
  | _ => s.blkStat p

/-- PG_STAT.BUSY of page `p`: a unit with work in hand, or the page's own work. -/
def State.pageBusy (s : State) (p : Nat) : Bool :=
  if abortPage p then (List.range (abortUnits p)).any (s.workInHand p)
  else match pageKind p with
    | some .sys => s.on SYS.IMG_STAT_UPD_BUSY
    | some .mpl => s.on MPL.MPL_STAT_CAP_BUSY
    | some .gnt => s.get GNT.PSET_STAT_STATE == 3
    | some .cis => s.on CIS.CIS_STAT_FLUSH_BUSY
    | some .dbg => s.dmi.isSome
    | some .lpe => s.lpeQuery != 0
    | some .cas => s.casQuery != 0
    | some .ser => s.on (SER.SER_STAT_TX_BUSY (p - 0x64))
    | _ => false

/-- PG_STAT.READY of page `p`: enabled, without a block fault, supplies good. -/
def State.pageReady (s : State) (p : Nat) : Bool := s.enabled p && !s.pageFault p && s.mstate != stPOWER_ON

/-- PG_STAT.ABORTED of page `p`: some unit has been aborted and has not accepted new work. -/
def State.pageAborted (s : State) (p : Nat) : Bool :=
  s.regs.any (fun e => e.1 / 16777216 == p && e.1 % 4096 == 0x010 && e.2.getLsbD 3)

/-- PG_STAT of page `p` as it reads. -/
def State.pgStat (s : State) (p : Nat) : Nat :=
  levels [s.pageReady p, s.pageBusy p, s.pageFault p, s.pageAborted p, s.on (HDR.PG_ERR_CNT_LOST p), s.on (HDR.PG_ERR_CNT_ACCESS p),
    s.on (HDR.PG_ERR_CNT_GUARD p)] + 65536 * s.blkStat p

/-- PG_IRQ_STAT of page `p` as it reads: copies of PG_STAT[6:3], and the page's causes. -/
def State.irqStat (s : State) (p : Nat) : Nat :=
  levels [false, false, false, s.pageAborted p, s.on (HDR.PG_ERR_CNT_LOST p), s.on (HDR.PG_ERR_CNT_ACCESS p),
    s.on (HDR.PG_ERR_CNT_GUARD p)] + 65536 * s.blkIrq p

/-- The interrupt output of page `p` (R37). -/
def State.irqOut (s : State) (p : Nat) : Bool := (s.irqStat p &&& s.get (HDR.PG_IRQ_EN_EN p)) != 0

end Sys2Proof.Machine
end

