-- ==== Sys2Proof/Machine/PairOps.lean ====
section
/-! DEFINITION. The safe core pairs, their comparators and Weirs, the pair timers and interrupts, the memories' check bits and the debug
port (R235 to R258). The instruction streams of the cores are not part of the model: what a core does reaches the module as its
accesses, and what its pair's checking hardware sees as the commands here. -/

namespace Sys2Proof.Machine

/-- Pair `p` beyond its registers. -/
def State.pair (s : State) (p : Nat) : Pair := mapGet (fun _ => Pair.blank) s.pairs p

/-- Set pair `p`. -/
def State.setPair (s : State) (p : Nat) (v : Pair) : State := { s with pairs := mapSet (fun _ => Pair.blank) s.pairs p v }

/-- Pair `p` is split (R249). -/
def State.isSplit (s : State) (p : Nat) : Bool := s.on (SCP.PAIR_STAT_SPLIT p)

/-! ### Mismatch and the checking hardware (R239 to R241) -/

/-- Pair `p` halts with a fault of `kind`, and the module enters SAFE_HOLD with `cause` (R239). The first fault stays until the
next restart. -/
def State.pairFault (s : State) (p kind input pc addr cause : Nat) : State :=
  if s.on (SCP.PAIR_STAT_HALTED p) then s
  else
    let s := ((s.put (SCP.PAIR_STAT_HALTED p) 1).put (SCP.PAIR_FAULT_KIND p) kind).put (SCP.PAIR_FAULT_INPUT p) input
    let s := (s.put (SCP.FAULT_PC p) pc).put (SCP.FAULT_ADDR p) addr
    (s.put64 (SCP.FAULT_TIME_LO p) (SCP.FAULT_TIME_HI p) s.now).safeHold cause

/-- The retirement signature of the instructions in `l` (R237): a CRC-32 with polynomial 0x1EDC_6F41 over the program counter and the
write-back value of each. DESIGN CHOICE (assumption 40): the bits are taken highest first; the start value is a free value. -/
def retireSig (l : List (BitVec 32 × BitVec 32)) : BitVec 32 :=
  crcLeft 0x1EDC6F41#32 Config.sigInit (l.flatMap (fun x => beBytes x.1 ++ beBytes x.2))

/-- The kind of the mismatch between the outputs of the two copies (R237, R256): 1 address or control, 2 write data, 3 retirement
signature; 0 where they match. -/
def mismatchKind (lead trail : CopyOut) : Nat :=
  if lead.addr ≠ trail.addr ∨ lead.ctrl ≠ trail.ctrl then 1
  else if lead.data ≠ trail.data then 2
  else if retireSig lead.retired ≠ retireSig trail.retired then 3
  else 0

/-- Logic sequencer `q` halts on a fault of its own checking hardware, with the reaction of R239 (R84). -/
def State.lsqFault (s : State) (q cause : Nat) : State :=
  if (s.seqOf q).halted then s else (s.setSeq q { s.seqOf q with halted := true }).safeHold cause

/-- The two halves of logic sequencer `q` run and are compared (R84). -/
def State.lsqLive (s : State) (q : Nat) : Bool := !(s.seqOf q).halted && s.domRuns (4 + q)

/-- The module entered SAFE_HOLD in this very cycle, so that a further detection still falls in it (R441). -/
def State.sameCycle (s : State) : Bool := s.mstate == stSAFE && s.pwr.holdAt == s.mono

/-- The checking hardware of unit `u` still detects (R237, R241, R84, R441). -/
def State.detects (s : State) (u : Nat) : Bool :=
  if 4 ≤ u then s.lsqLive (u - 4) || (s.sameCycle && !(s.seqOf (u - 4)).halted)
  else s.pairLocked u || (s.sameCycle && s.enabled (domPage u) && !s.isSplit u && !s.on (SCP.PAIR_STAT_LOCK_BROKEN u))

/-- The comparator of unit `u` compares the outputs of its copies (R237, R239, R84): units 0 to 3 are the pairs, 4 to 7 the logic
sequencers. The address is that of the bus access, 0 for a signature. -/
def State.mismatch (s : State) (u : Nat) (lead trail : CopyOut) (pc : Nat) : State :=
  let k := mismatchKind lead trail
  if k = 0 ∨ s.detects u = false then s
  else if 4 ≤ u then s.lsqFault (u - 4) 0x04
  else s.pairFault u k 0 pc (if k = 3 then 0 else lead.addr.toNat) 0x04

/-- The test of the comparator passes (R240): every lane and the summary report the difference, and none reports one for an equal
pair. -/
def laneTestOk (r : LaneTest) : Bool := r.lanes1.all (fun b => b) && r.sum1 && !r.lanes2.any (fun b => b) && !r.sum2

/-- The test of the comparator of pair `p` fails (R240): during STARTUP_TEST a failure is a failed self-test (R58). -/
def State.pairTestFails (s : State) (p pc : Nat) : State :=
  let s := s.put (SCP.PAIR_STAT_SELFTEST_OK p) 0
  if s.mstate = stSTARTUP then
    (((s.put (SCP.PAIR_STAT_HALTED p) 1).put (SCP.PAIR_FAULT_KIND p) 7).put (SCP.FAULT_PC p) pc).put64 (SCP.FAULT_TIME_LO p)
      (SCP.FAULT_TIME_HI p) s.now |>.halt 0x07
  else s.pairFault p 7 0 pc 0 0x05

/-- The self-test of the comparator of unit `u` (R240, R84): once every 1 ms. -/
def State.comparatorTest (s : State) (u : Nat) (r : LaneTest) (pc : Nat) : State :=
  if 4 ≤ u then
    let q := u - 4
    if !s.lsqLive q then s
    else
      let s := s.untilMono (mapGet (fun _ => 0) s.lsqTest q + ms 1)
      let s := { s with lsqTest := mapSet (fun _ => 0) s.lsqTest q s.mono }
      if laneTestOk r then s else if s.mstate = stSTARTUP then (s.setSeq q { s.seqOf q with halted := true }).halt 0x07 else s.lsqFault q 0x05
  else if !s.pairLocked u then s
  else
    let s := s.untilMono ((s.pair u).testAt + ms 1)
    let s := s.setPair u { s.pair u with testAt := s.mono }
    if laneTestOk r then s.comparatorPassed u else s.pairTestFails u pc

/-- A parity error in a delay register of unit `u` (R241, R84). -/
def State.delayParity (s : State) (u pc addr : Nat) : State :=
  if s.detects u = false then s
  else if 4 ≤ u then s.lsqFault (u - 4) 0x05
  else s.pairFault u 6 0 pc addr 0x05

/-! ### Interrupts and the timer (R247, R248) -/

/-- The pending vector at pair `p`: bit k while the page of IRQ_MAP entry k asserts its output and EN is set (R247). -/
def State.pendVec (s : State) (p : Nat) : BitVec 64 :=
  vec64 (fun k => s.on (SCP.IRQ_MAP_EN p k) && s.irqOut (s.get (SCP.IRQ_MAP_PAGE p k)))

/-- The machine timer interrupt of the leading core of pair `p`, or of its second core, is pending (R248). -/
def State.timerDue (s : State) (p : Nat) (second : Bool) : Bool :=
  if second then s.isSplit p && decide (s.get64 (SCP.MTIMECMP1_LO p) (SCP.MTIMECMP1_HI p) ≤ s.now)
  else decide (s.get64 (SCP.MTIMECMP_LO p) (SCP.MTIMECMP_HI p) ≤ s.now)

/-- The pending vector at one core of split pair `p`: its bits are those that TARGET directs to it (R247). -/
def State.coreVec (s : State) (p : Nat) (second : Bool) : BitVec 64 :=
  vec64 (fun k => (s.pendVec p).getLsbD k && s.on (SCP.IRQ_MAP_TARGET p k) == second)

/-- IRQ_PEND0 and IRQ_PEND1: the agreed vector; in a split pair each core takes its bits without agreement. -/
def State.irqPend (s : State) (p : Nat) : Nat :=
  if s.isSplit p then (s.coreVec p false ||| s.coreVec p true).toNat else s.get64 (SCP.IRQ_PEND0 p) (SCP.IRQ_PEND1 p)

/-- The machine external interrupt of a core of pair `p` is raised (R247). -/
def State.extIrq (s : State) (p : Nat) (second : Bool) : Bool :=
  if s.isSplit p then s.coreVec p second != 0 else s.irqPend p != 0

/-- The interrupt output of `page` is asserted: it wakes the sleeping pairs it is mapped to (R12, R247). -/
def State.irqAssert (s : State) (page : Nat) : State :=
  if s.irqOut page then
    (List.range 4).foldl (fun s p =>
      if (List.range 64).any (fun k => s.on (SCP.IRQ_MAP_EN p k) && s.get (SCP.IRQ_MAP_PAGE p k) == page) then s.wakeDomain p
      else s) s
  else s

/-- Vessel time reaches the compare value: the timer interrupt is pending and wakes the pair (R12, R248). -/
def State.mtimecmp (s : State) (p : Nat) (second : Bool) : State :=
  if second && !s.isSplit p then s
  else
    let t := if second then s.get64 (SCP.MTIMECMP1_LO p) (SCP.MTIMECMP1_HI p) else s.get64 (SCP.MTIMECMP_LO p) (SCP.MTIMECMP_HI p)
    (s.untilTime (BitVec.ofNat 64 t)).wakeDomain p

/-! ### The Weir (R242 to R246) -/

/-- Consecutive disagreements on input `i`. -/
def Pair.diffOf (v : Pair) (i : Nat) : Nat := mapGet (fun _ => 0) v.diff i

/-- Input `i` of pair `p` has agreed or not at this point: the count of consecutive disagreements, and the last input. -/
def State.weirNote (s : State) (p i : Nat) (differs : Bool) : State :=
  let v := s.pair p
  let s := s.setPair p { v with diff := mapSet (fun _ => 0) v.diff i (if differs then v.diffOf i + 1 else 0) }
  if differs then s.put (WEIR.WEIR_STAT_LAST_INPUT p) i else s

/-- An exact-match input of one bit: its agreed value follows the sample where the copies agree (R244). -/
def State.weirBit (s : State) (p i : Nat) (sample differs : Bool) : State :=
  let s := s.weirNote p i differs
  let v := s.pair p
  let bit (b : Bool) := (v.agreed - b2n (v.agreed.testBit i) * 2 ^ i) + b2n b * 2 ^ i
  if differs then s.bump (WEIR.WEIR_CNT_DEFER_CNT p) else s.setPair p { v with agreed := bit sample }

/-- The pending vector (R244): each differing bit keeps its agreed value. -/
def State.weirVec (s : State) (p : Nat) (d0 : BitVec 64) : State :=
  let s := s.weirNote p 0 (d0 != 0)
  let old := BitVec.ofNat 64 (s.get64 (SCP.IRQ_PEND0 p) (SCP.IRQ_PEND1 p))
  let s := s.put64 (SCP.IRQ_PEND0 p) (SCP.IRQ_PEND1 p) ((old &&& d0) ||| (s.pendVec p &&& ~~~ d0)).toNat
  if d0 != 0 then s.bump (WEIR.WEIR_CNT_DEFER_CNT p) else s

/-- The vessel time samples of the copies lie `dt` ns apart (R245). -/
def State.weirTime (s : State) (p dt : Nat) : State :=
  let miss := decide (8 * s.get WEIR.WEIR_CFG_TOL < dt)
  let s := s.weirNote p 2 miss
  if miss then s.bump (WEIR.WEIR_CNT_TOL_MISS p) else s

/-- The retirement count of the next agreement point of `kind`, `n` retirements on (R243): none passes a multiple of PERIOD. -/
def State.agreeAt (s : State) (p n : Nat) (kind : AgreeKind) : Nat :=
  let r := s.get64 (SCP.RETIRED_LO p) (SCP.RETIRED_HI p)
  let per := max (s.get WEIR.WEIR_CFG_PERIOD) 1
  let next := (r / per + 1) * per
  match kind with | .period => next | _ => min (r + n) next

/-- A read of the time CSR returns the agreed low word and holds the high word, which a read of timeh returns (R245, R42). -/
def State.weirRead (s : State) (p : Nat) (kind : AgreeKind) : State :=
  let v := s.pair p
  match kind with
  | .time => s.setPair p { v with csr := BitVec.ofNat 32 s.now, timeHi := BitVec.ofNat 32 (s.now / 2 ^ 32) }
  | .timeh => s.setPair p { v with csr := v.timeHi }
  | _ => s

/-- Cause `i` of an interrupt was first sampled now, or is no longer sampled (R246). -/
def State.weirSeen (s : State) (p i : Nat) (sampled : Bool) : State :=
  let v := s.pair p
  s.setPair p { v with seen := if sampled then (if v.seen.any (fun e => e.1 == i) then v.seen else mapIns i s.mono v.seen)
                                else mapDel v.seen i }

/-- The trap on agreed cause `i`: WEIR_LAT takes the delay since that cause was first sampled (R246). -/
def State.weirTrap (s : State) (p i : Nat) : State :=
  let v := s.pair p
  let s := match v.seen.find? (fun e => e.1 == i) with
    | none => s
    | some (_, t) =>
      let n := min (s.mono - t) 0xFFFF
      let s := s.put (WEIR.WEIR_LAT_LAST_NS p) n
      s.put (WEIR.WEIR_LAT_MAX_NS p) (max n (s.get (WEIR.WEIR_LAT_MAX_NS p)))
  s.setPair p { v with seen := mapDel v.seen i, traps := v.traps ++ [i] }

/-- The traps taken at an agreement point, in the order of R246: a power-fail warning agreed anew, then a debug halt, which stops the
pair, else the external and the timer interrupt, where they are enabled. -/
def State.weirTraps (s : State) (p : Nat) (before : Nat) (ext tim : Bool) : List Nat :=
  let v := s.pair p
  (if v.agreed.testBit 4 && !before.testBit 4 then [4] else []) ++
    (if v.agreed.testBit 3 then [3]
     else (if ext && s.get64 (SCP.IRQ_PEND0 p) (SCP.IRQ_PEND1 p) != 0 then [0] else []) ++
       (if tim && v.agreed.testBit 1 then [1] else []))

/-- A disagreement has lasted RETRY agreement points (R244, R245). -/
def State.weirFault (s : State) (p pc : Nat) : State :=
  match [0, 1, 2, 3, 4].find? (fun i => decide (s.get WEIR.WEIR_CFG_RETRY ≤ (s.pair p).diffOf i)) with
  | none => s
  | some i => s.pairFault p (if i = 2 then 5 else 4) i pc 0 0x04

/-! ### Debug halts (R254) -/

/-- The safety tasks of sequencer `q` withdraw their permissives (R254). -/
def State.safetyFaults (s : State) (q : Nat) : State :=
  ((List.range 10).filter (fun t => (s.imgTask q t).present && (s.imgTask q t).safety)).foldl (fun s t => s.voteFault q t) s

/-- A safety task or the safety program runs on pair `p` (R256). -/
def State.pairSafety (s : State) (p : Nat) : Bool :=
  !s.isSplit p && ((List.range 10).any (fun t => (s.imgTask p t).present && (s.imgTask p t).safety) ||
    (s.on GNT.GNT_STAT_PSET_VALID && s.safetySeq == p))

/-- Core `h` of pair `p` halts for debug: an unsplit pair loses its lock-step (R254). -/
def State.haltTaken (s : State) (p h : Nat) : State :=
  let v := s.pair p
  let s := s.setPair p { v with haltReq := none, agreed := v.agreed - b2n (v.agreed.testBit 3) * 8 }
  let s := s.putBit DBG.DBG_STAT_HALTED h true
  if s.isSplit p || s.on (SCP.PAIR_STAT_LOCK_BROKEN p) then s
  else ((s.put (SCP.PAIR_STAT_LOCK_BROKEN p) 1).putBit DBG.DBG_STAT_LOCK_BROKEN p true).safetyFaults p

/-- An accepted halt request of core `h`: a pair in lock-step halts when the Weir has agreed on the request (R242, R254), any other
core at once. -/
def State.debugHalt (s : State) (h : Nat) : State :=
  let p := h / 2
  let s := s.put DBG.DBG_STAT_LAST_REFUSED 0
  if s.pairLocked p then s.setPair p { s.pair p with haltReq := some h } else s.haltTaken p h

/-! ### Agreement points (R243 to R246) -/

/-- An agreement point of pair `p` (R243): `d0` to `d4` tell where the copies' samples differ, `dt` by how much their times do; `ext`
and `tim` where the copies have the external and the timer interrupt enabled. A WFI retires where no enabled interrupt is agreed
pending (R246). -/
def State.agreement (s : State) (p : Nat) (kind : AgreeKind) (n pc : Nat) (d0 : BitVec 64) (d1 d3 d4 : Bool) (dt : Nat)
    (ext tim : Bool) : State :=
  if !s.pairLocked p then s
  else
    let s := s.inc (WEIR.WEIR_POINTS p)
    let s := s.put64 (SCP.RETIRED_LO p) (SCP.RETIRED_HI p) (s.agreeAt p n kind)
    let halt := (s.pair p).haltReq
    let before := (s.pair p).agreed
    let s := (((s.weirSeen p 0 ((s.pendVec p ||| d0) != 0)).weirSeen p 1 (s.timerDue p false || d1)).weirSeen p 3
      (halt.isSome || d3)).weirSeen p 4 (s.pfw || d4)
    let s := (s.weirVec p d0).weirBit p 1 (s.timerDue p false) d1
    let s := (((s.weirTime p dt).weirRead p kind).weirBit p 3 halt.isSome d3).weirBit p 4 s.pfw d4
    let l := s.weirTraps p before ext tim
    let s := s.setPair p { s.pair p with traps := [], wfi := kind == .wfi && l.isEmpty }
    let s := l.foldl (fun s i => s.weirTrap p i) s
    let s := match halt with
      | some h => if l.contains 3 then s.haltTaken p h else s
      | none => s
    s.weirFault p pc

/-! ### Check bits (R251 to R253) -/

/-- A counted error in a memory: corrected or not, at address `a`. -/
def State.eccNote (s : State) (m : EccMem) (a : Nat) (ue : Bool) : State :=
  match m with
  | .tcm c d =>
    let p := c.val / 2
    let s := if ue then s.bump (SCP.TCM_ECC_UE_CNT p) else s.bump (SCP.TCM_ECC_CE_CNT p)
    ((s.put (SCP.TCM_ECC_ADDR_OFFSET p) (a % 2 ^ 18)).putB (SCP.TCM_ECC_ADDR_DTCM p) d).put (SCP.TCM_ECC_ADDR_CORE p) (c.val % 2) |>.putB
      (SCP.TCM_ECC_ADDR_UE p) ue
  | .mem k =>
    let s := if ue then s.bump (SCP.MEM_ECC_UE_CNT 0 k.val) else s.bump (SCP.MEM_ECC_CE_CNT 0 k.val)
    (s.put (SCP.MEM_ECC_ADDR 0 k.val) a).putB (SCP.MEM_ECC_FLAG_LAST_UE 0 k.val) ue

/-- Core `h` takes an access fault (R29). -/
def State.coreFault (s : State) (h : Nat) : State :=
  if s.coreFaults.contains h then s else { s with coreFaults := s.coreFaults ++ [h] }

/-- A double-bit error on an access (R252). -/
def State.eccDouble (s : State) (m : EccMem) (a : Nat) (who : EccMaster) (pc : Nat) : State :=
  let s := s.eccNote m a true
  match who with
  | .core h =>
    let p := h.val / 2
    if s.isSplit p then s.coreFault h.val
    else s.pairFault p (match m with | .tcm _ _ => 8 | .mem _ => 9) 0 pc a 0x09
  | .block page =>
    let s := { s with resp := .error }
    if (pageKind page.val).isSome then s.put (HDR.PG_STAT_FAULT page.val) 1 else s

/-- Where memory `k` of MEM_ECC lies: base and size (R28). -/
def eccRange (k : Nat) : Nat × Nat :=
  ([(0x20000000, 0x1000000), (0x80000000, 0x80000000), (0x70000000, 0x2000000), (0x30000000, 0x10000), (0x50000000, 0x400000),
    (0x60000000, 0x1800000)] : List (Nat × Nat)).getD k (0, 4)

/-- The scrubber of a memory: 0 to 5 as MEM_ECC numbers them, 6 + p for the tightly coupled memories of pair `p`. -/
def scrubKey (m : EccMem) : Nat := match m with | .tcm c _ => 6 + c.val / 2 | .mem k => k.val

/-- The words of the memory that scrubber `k` passes, and the interval of a pass in ns (R253). The tightly coupled memories of a pair are
passed core by core, ITCM before DTCM. -/
def scrubRange (k : Nat) : Nat × Nat :=
  if 6 ≤ k then (4 * 2 ^ 16, secs 3600)
  else ((eccRange k).2 / 4, if k = 1 ∨ k = 2 then secs 86400 else secs 3600)

/-- The number of the word at `a` in the pass of its scrubber. -/
def scrubWordNo (m : EccMem) (a : Nat) : Nat :=
  match m with
  | .tcm c d => (2 * (c.val % 2) + (if d then 1 else 0)) * 2 ^ 16 + a / 4 % 2 ^ 16
  | .mem k => (a - (eccRange k.val).1) % (eccRange k.val).2 / 4

/-- The scrubber of memory `m`. -/
def State.scrubOf (s : State) (m : EccMem) : Scrub := mapGet (fun _ => Scrub.blank) s.scrubs (scrubKey m)

/-- The scrubber has passed word `o` (R253, R256): progress and completed passes. -/
def State.scrubStep (s : State) (m : EccMem) (o : Nat) : State :=
  let n := (scrubRange (scrubKey m)).1
  let v := s.scrubOf m
  let s := { s with scrubs := mapSet (fun _ => Scrub.blank) s.scrubs (scrubKey m)
                      (if o + 1 = n then ⟨0, s.mono⟩ else { v with pos := o + 1 }) }
  match m with
  | .tcm c _ => if o + 1 = n then s.inc (SCP.TCM_SCRUB_PASSES (c.val / 2)) else s
  | .mem k =>
    if o + 1 = n then (s.inc (SCP.MEM_SCRUB_PASSES 0 k.val)).put (SCP.MEM_SCRUB_PROGRESS 0 k.val) 0
    else s.put (SCP.MEM_SCRUB_PROGRESS 0 k.val) ((o + 1) * 1000 / n)

/-- A scrubber takes its next word, at `a`, at that word's share of the interval (R253). -/
def State.scrub (s : State) (m : EccMem) (a : Nat) (f : ScrubFind) : State :=
  let v := s.scrubOf m
  let r := scrubRange (scrubKey m)
  if scrubWordNo m a ≠ v.pos then s
  else
    let s := s.untilMono (v.since + v.pos * r.2 / r.1)
    let s := match f with
      | .clean => s
      | .single => s.eccNote m a false
      | .double => s.eccNote m a true
    s.scrubStep m v.pos

/-! ### Debug (R254, R258) -/

/-- Write `w` to dmcontrol: haltreq is bit 31, resumereq bit 30, hartsel bits 25 to 6 with its halves swapped. The truth value tells
that the access was refused. -/
def State.dmcontrol (s : State) (w : Word) : State × Bool :=
  let h := bits w 16 10 + 1024 * bits w 6 10
  let p := h / 2
  let s := { s with dmod := { s.dmod with hart := h } }
  if 8 ≤ h ∨ (h % 2 = 1 ∧ s.isSplit p = false) then (s, false)
  else if w.getLsbD 31 then
    if s.role = roleACTIVE ∨ s.role = roleSTANDBY ∨
      (s.pairSafety p = true ∧ s.on SYS.MODULE_STATE_SAFETY_UNCOMMISSIONED = false) then (s.put DBG.DBG_STAT_LAST_REFUSED 1, true)
    else (s.debugHalt h, false)
  else if w.getLsbD 30 then (s.putBit DBG.DBG_STAT_HALTED h false, false)
  else (s, false)

/-- DMI_OP (R255, R258): 1 read, 2 write. A request during an access is refused. -/
def State.dmiOp (s : State) (v m : Nat) : State :=
  if s.dbgAuthOpen = false ∨ s.dmi.isSome = true then s.lost 0x90 0x058 4 m
  else if v = 1 ∨ v = 2 then
    { s.put DBG.DMI_STAT_BUSY 1 with
      dmi := some (v == 2, BitVec.ofNat 7 (s.get DBG.DMI_ADDR), s.rd DBG.DMI_WDATA.key) }
  else s.badAccess 0x90 0x058 7 m

/-- DBG_AUTH_SUBMIT (R254): authorisation as for forcing, with the debug credential. -/
def State.dbgAuthSubmit (s : State) (v m : Nat) : State :=
  if v ≠ 1 then s.badAccess 0x90 0x400 7 m
  else
    let (s, ok) := s.credSubmit 3 [] 0x90 0x400 m
    { s with dbgAuth := if ok then some (s.mono + secs 900) else none }

/-- DBG_AUTH closes 900 s after it opened. -/
def State.dbgAuthEnd (s : State) : State :=
  match s.dbgAuth with
  | none => s
  | some t => { s.untilMono t with dbgAuth := none }

/-- PG_CTRL.ENABLE of the DBG page is cleared (R255): halted cores resume, the triggers are
cleared and DBG_AUTH closes; a broken lock stays broken. -/
def State.dbgOff (s : State) : State := { s.put DBG.DBG_STAT_HALTED 0 with dbgAuth := none, dmod := { s.dmod with trigs := [], tsel := [] } }

end Sys2Proof.Machine
end

