-- ==== Sys2Proof/Machine/NetOps.lean ====
section
/-! DEFINITION. What reaches a block through the links: records of the redundancy controller, SSC frames, frames of the Ethernet and CAN
ports (R299, R302, R321, R335, R347), the SFP+ cages (R453), and what follows every group post (R264, R300, R360). -/

namespace Sys2Proof.Machine

/-! ### Records of the redundancy controller (R347 to R358) -/

/-- A heartbeat from `who` (R348): the peer's may end the handover of a restart (R59). -/
def State.heartbeatFrom (s : State) (who flags : Nat) : State :=
  if who = 0 then
    let waits := s.rdc.awaitPeer.isSome
    let s := s.peerHeartbeat flags
    if waits && s.rdc.awaitPeer.isNone then s.handoverWon else s
  else if who = 1 then s.trackReady
  else s.memberHeartbeat (who - 2) flags

/-- A valid record of type `typ` from `who` (0 peer, 1 witness, 2 + w member w) on path `k`, with its arrival stamp and the egress stamp
of the answer. Types that do not belong to the sender have no effect. -/
def State.rdcAct (s : State) (who k : Nat) (r : RdcRec) (arr dep : Nat) : State :=
  if r.typ = 1 then s.heartbeatFrom who r.flags
  else if r.typ = 2 then if 2 ≤ who then s.judgeReq (who - 2) r.seq r.flags else s
  else if r.typ = 3 then if who = 1 then s.leaseGrant r.arg else s
  else if r.typ = 4 then if who = 1 then s.leaseRefused else s
  else if r.typ = 5 then if who = 0 then s.peerReq r.seq else s
  else if r.typ = 6 then if who = 0 then s.peerGrant r.arg else s
  else if r.typ = 7 then if who = 0 then s.peerRelinquish else if 2 ≤ who then s.relinquished (who - 2) else s
  else if r.typ = 8 then if who = 0 then s.peerHandover else s
  else if r.typ = 9 then if who = 0 ∧ k < 2 then s.timeReq k r.seq arr dep else s
  else if r.typ = 10 then if who = 0 ∧ k < 2 then s.timeResp r.seq r.arg r.arg2 (BitVec.ofNat 32 arr) else s
  else if r.typ = 11 then if who = 0 ∧ k < 2 then s.timeFup r.arg r.arg2 else s
  else s

/-- A record arrives on path `k` (R347): 0 and 1 SYN0 and SYN1, 2 and 3 WIT0 and WIT1, 4 the session from the witness, 5 + w the session
from member w. -/
def State.rdcReceive (s : State) (k : Nat) (l : List Byte) (arr dep : Nat) : State :=
  if !s.runOrSafe || !s.enabled 0x05 then s
  else match s.recSender k l with
  | none => s.bump RDC.RDC_CNT1_FRAME_ERR_CNT
  | some who =>
    let r := recOf l
    let s := s.noteLink k who r.typ
    if !s.firstCopy who r.seq then s
    else (s.noteSeq who r.seq).rdcAct who k r arr dep

/-- A record of type `typ` arrives; a record of another type is another command's. -/
def State.rdcTyped (s : State) (typ k : Nat) (l : List Byte) (arr dep : Nat) : State :=
  if leNat (l.take 1) = typ then s.rdcReceive k l arr dep else s

/-- The path of consumer session `e` as an RDC session (R347). -/
def State.rdcPath (s : State) (e : Nat) : Option Nat :=
  if s.redundant && s.on RDC.STN_CFG_WIT_PATH && s.get RDC.STN_CFG_WIT_RX_SESS == e then some 4
  else ((List.range 8).find? (fun w => s.on (RDC.WM_CFG_EN w) && s.on (RDC.WM_CFG_PATH w) && s.get (RDC.WM_CFG_RX_SESS w) == e)).map
    (· + 5)

/-! ### SSC frames (R299, R302) -/

/-- What an accepted frame of entry `e` means beyond its slots: votes to the Gauntlet, records to the redundancy controller. -/
def State.sscPass (s : State) (e : Nat) (f : List Byte) (arr : Nat) : State :=
  let flags := ((f.drop 1).headD 0#8).toNat
  let payload := (f.drop 10).take (s.sessLen e)
  if s.isVote e then
    (if flags % 2 = 1 then s.voteSafe e else s.voteAccept e (BitVec.ofNat 64 (leNat payload)) (flags / 4 % 4))
  else match s.rdcPath e with
    | none => s
    | some k => s.rdcReceive k payload arr s.stamp

/-- A frame for entry `e` arrives (R302). -/
def State.sscTake (s : State) (e : Nat) (f : List Byte) (arr : Nat) : State :=
  if e = 0 ∨ s.enabled 0x06 = false then s
  else
    let ran := s.get (SSE.SESS_STAT_STATE e) == 2
    let (s, ok) := s.sscReceive e f arr
    let s := if s.isVote e && ran && s.get (SSE.SESS_STAT_STATE e) == 3 then s.voteSafe e else s
    if ok then s.sscPass e f arr else s

/-- The transport of entry `e`, an odd port of a PRP pair as its even one (R299, R322). -/
def State.sessTr (s : State) (e : Nat) : Nat :=
  let t := s.get (SSE.SESS_CFG_TRANSPORT e)
  if 1 ≤ t ∧ t ≤ 8 then s.ethPage (t - 1) + 1 else t

/-- A frame for consumer `e` from transport `tr` without the padding of an Ethernet or CAN frame; a UDP datagram has none (R299). -/
def State.unpadded (s : State) (e tr : Nat) (f : List Byte) : List Byte := if tr < 9 then f else f.take (s.sessLen e + 14)

/-- An SSC frame arrives on transport `tr`, from IPv4 source `src`; the padding of its carrier is cut off. A frame on another transport than
the entry's, or from another source than SESS_ADDR names, is discarded (R299). -/
def State.sscArrive (s : State) (tr src : Nat) (f : List Byte) (arr : Nat) : State :=
  let e := frameEntry f
  let consumer := s.on (SSE.SESS_CFG_EN e) && !s.on (SSE.SESS_CFG_DIR e)
  let vote := s.isVote e && tr == 9
  if consumer && !(vote || (!s.isVote e && s.sessTr e == tr &&
    (src == 0 || s.get (SSE.SESS_ADDR e) == 0 || s.get (SSE.SESS_ADDR e) == src))) then s
  else s.sscTake e (if consumer then s.unpadded e tr f else f) arr

/-- The watchdog of consumer `e` expires (R304). -/
def State.sscWatchdog (s : State) (e : Nat) : State :=
  if s.on (SSE.SESS_CFG_EN e) && s.get (SSE.SESS_STAT_STATE e) == 2 then
    let s := (s.untilMono (s.sessOf e).wdogAt).sscFail e 4
    if s.isVote e then s.voteSafe e else s
  else s

/-- The guarded acknowledgement of the selected session (R305, R309): `v` must be 1. -/
def State.sessAck (s : State) (v m : Nat) : State :=
  let e := s.get SSE.SESS_SEL
  if v ≠ 1 then s.badAccess 0x06 0x400 7 m
  else if s.get (SSE.SESS_STAT_STATE e) = 3 ∧ s.sessMode e = 1 ∧ s.sessRestartN e ≤ s.get (SSE.SESS_STAT_GOOD_RUN e) then
    (s.put (SSE.SESS_STAT_STATE e) 2).setSess e { s.sessOf e with wdogAt := s.mono + ms (s.sessWdog e) }
  else s.lost 0x06 0x400 4 m

/-! ### What follows a group post -/

/-- Data producer `e` sends (R300, R301). -/
def State.sscData (s : State) (e : Nat) : State :=
  let p := s.sessPayload e s.slotView
  s.sscSend e p.1 p.2

/-- Source slot `n` of data producer `e`. -/
def State.isSource (s : State) (e n : Nat) : Bool :=
  (List.range (s.sessWords e)).any (fun i => (s.get (SSE.SESS_SLOT_SLOT_BASE e) + i) % 8192 == n)

/-- Every data producer of which a source slot has been posted sends once (R300). -/
def State.sscPosted (s : State) : State :=
  if s.posted.isEmpty then s
  else
    let l := s.posted
    let s := { s with posted := [] }
    ((List.range' 1 63).filter (fun e => s.on (SSE.SESS_CFG_EN e) && s.on (SSE.SESS_CFG_DIR e) && !s.isVote e &&
      l.any (s.isSource e))).foldl State.sscData s

/-- What every command with group posts ends with: the sends of R300, and ABORTED clears where new work was accepted since `old`. -/
def State.settle (s old : State) : State := s.sscPosted.clearAborted old

/-- The END of task `t` (R88), judging its stations (R112), with the vote of R264 and the delta group of R360. -/
def State.taskPost (s : State) (q t : Nat) : State :=
  let s := s.judgeStations (s.boundStations q t)
  let safety := (s.imgTask q t).safety
  let s := s.taskEnd q t
  let s := if safety ∧ q = s.safetySeq then s.voteSend else s
  if t = 8 then s else s.sluiceDelta [srcKey 1 (16 * q + t), srcKey 1 (16 * q + 15)]

/-- Producer `e` has not sent for REPEAT (R264, R300). -/
def State.sscRepeat (s : State) (e : Nat) : State :=
  if e = 0 ∨ s.isVote e ∨ s.maySend e = false then s
  else (s.untilMono ((s.sessOf e).lastSend + ms (s.sessRepeat e))).sscData e

/-! ### Frames at the ports (R321, R335) -/

/-- Port `p` receives a frame; `arr` is its arrival stamp. -/
def State.ethFrame (s : State) (p : Nat) (f : List Byte) (fcsOk : Bool) (arr : Stamp) : State :=
  let (s, d) := s.ethRx p f fcsOk arr
  match d with
  | .done => s
  | .rdc r => s.rdcReceive (p - 8) r arr.1 s.stamp
  | .ssc g src => s.sscArrive (if p < 8 then s.ethPage p + 1 else if p < 10 then 9 else 10) src g arr.1
  | .rix q ring g => s.rixFromPort q ring g arr.1
  | .slc ring g => s.sluiceFromPort ring g

/-- Controller `n` receives a frame. -/
def State.canFrame (s : State) (n : Nat) (w0 w1 : Word) (data : List Byte) (stamp : Stamp) : State :=
  let (s, d) := s.canReceive n w0 w1 data stamp
  match d with
  | .done => s
  | .sse f => s.sscArrive (11 + n) 0 f stamp.1

/-- The link of port `p` comes up at a speed (R318, R329, R453): SYN and WIT have one speed each. -/
def State.linkRises (s : State) (p speed : Nat) : State :=
  if s.linksLive = false ∨ s.enabled (0x40 + s.ethPage p) = false ∨ (8 ≤ p ∧ p < 10 ∧ s.dev.sfpBad.getLsbD (p - 8) = true) then s
  else
    let v := if p < 8 then speed else if p < 10 then 3 else 2
    let s := (s.put (ETH.PORT_STAT_LINK p) 1).put (ETH.PORT_STAT_SPEED_ACT p) v
    if p = 8 ∨ p = 9 then s.put (ETH.PORT_STAT_MOD_PRESENT p) 1 else s

/-- A transceiver is put into SYN cage `k` or taken out (R453): one that does not report 10GBASE-SR keeps the link down. -/
def State.sfpChange (s : State) (k : Nat) (present sr : Bool) : State :=
  let bad := setBits (BitVec.ofNat 32 s.dev.sfpBad.toNat) k 1 (b2n (present && !sr))
  let s := { s with dev := { s.dev with sfpBad := BitVec.ofNat 2 bad.toNat } }
  let s := s.putB (ETH.PORT_STAT_MOD_PRESENT (8 + k)) present
  if !present || !sr then s.linkLost (8 + k) else s

end Sys2Proof.Machine
end

