-- ==== Sys2Proof/Machine/WakeOps.lean ====
section
/-! DEFINITION. The schedule of the wake controller: when the compute domains have work, and the wakes for it (R10, R11, R13). -/

namespace Sys2Proof.Machine

/-- The smaller of two optional distances. -/
def optMin (a b : Option Nat) : Option Nat :=
  match a, b with | none, b => b | a, none => a | some x, some y => some (min x y)

/-- The code of task `t` of sequencer `q` contains a CAL (R105). -/
def State.callsFb (s : State) (q t : Nat) : Bool :=
  match s.image q with
  | none => false
  | some i => ((i.code.take (s.codeEnd q t)).drop (i.task t).entry).any (fun w => decide (0x34 ≤ bits w 26 6 ∧ bits w 26 6 ≤ 0x36))

/-- Distance to the next cycle in ns of the cyclic tasks of sequencer `q` that satisfy `f`. -/
def State.nextCycle (s : State) (q : Nat) (f : Nat → Bool) : Option Nat :=
  if !s.schedRun q then none
  else ((s.presentTasks q).filter (fun t => decide (t < 8) && f t)).foldl
    (fun a t => let i := s.imgTask q t; optMin a (if i.cycleMs = 0 then none else some (s.nextGrid (10 * i.cycleMs) i.phase))) none

/-- Distance to the next scheduled work of domain `d` in ns (R11): task cycles, those with a CAL for a pair, loop periods, Cascade
start instants; none outside RUN (R468). -/
def State.nextWork (s : State) (d : Nat) : Option Nat :=
  let grid (p ph : Nat) : Option Nat := if p = 0 then none else some (s.nextGrid p ph)
  if !s.running then none
  else if d < 4 then s.nextCycle d (s.callsFb d)
  else if d < 8 then s.nextCycle (d - 4) (fun _ => true)
  else if d = 8 then s.loopsEn.foldl (fun a c => optMin a (grid (s.lpPeriod c) (s.get (CTX.CTX_PERIOD_PHASE c)))) none
  else s.casEnabled.foldl
    (fun a k => optMin a (grid (s.get (SLOT.SLOT_PERIOD_PERIOD k)) (s.get (SLOT.SLOT_PERIOD_PHASE k)))) none

/-- Work of domain `d` is scheduled within `t` ns. -/
def State.workWithin (s : State) (d t : Nat) : Bool := match s.nextWork d with | none => false | some x => decide (x ≤ t)

/-- The PLL bias of a sleeping domain is kept alive: its next scheduled work is due within 5 ms (R10). A domain held in reset or halted
has none. -/
def State.biased (s : State) (d : Nat) : Bool := !s.bit CLO.AWAKE d && s.domRuns d && s.workWithin d (ms 5)

/-- How long before scheduled work the wake controller starts the clock of domain `d`: 6 µs for a warm start or 40 µs for a cold one
(R10), and 2 µs (R11). -/
def State.wakeLead (s : State) (d : Nat) : Nat := if s.biased d then 8000 else 42000

/-- The wake controller starts the clock of domain `d` for scheduled work within its lead (R11): the start counts from the instant at
which the lead began. -/
def State.wakeAhead (s : State) (d : Nat) : State :=
  match s.nextWork d with
  | none => s
  | some n =>
    let lead := s.wakeLead d
    if n ≤ lead && s.domRuns d && !s.bit CLO.AWAKE d then
      let s := s.wakeDomain d
      { s with clo := { s.clo with wakeAt := mapSet (fun _ => 0) s.clo.wakeAt d (s.mono + n - lead) } }
    else s

/-- The wakes for scheduled work that are due. -/
def State.wakesDue (s : State) : State := (List.range 10).foldl State.wakeAhead s

/-- The clock of domain `d` is locked when its scheduled work begins, unless its fault has been reported (R10, R11, R14). -/
def State.lockForWork (s : State) (d : Nat) : State :=
  if s.workWithin d 0 && s.bit CLO.AWAKE d && !s.bit CLO.FCLK_FAULT d then s.putBit CLO.LOCKED d true else s

/-- The clocks of the domains whose scheduled work begins now run. -/
def State.clocksForWork (s : State) : State := (List.range 10).foldl State.lockForWork s.wakesDue

end Sys2Proof.Machine
end

