-- ==== Sys2Proof/Machine/Reads.lean ====
section
/-! DEFINITION. What a register reads as: the stored word, with the fields that the page tables derive from the block's state put
over it. -/

namespace Sys2Proof.Machine

/-- A field put over a stored word at a read: lowest bit, width, value. -/
abbrev Over := Nat × Nat × Nat

/-- A one-bit field. -/
def flag (lo : Nat) (b : Bool) : Over := (lo, 1, b2n b)

/-- Whole units of `unit` ns from now to elapsed time `t`, at most `2 ^ w - 1` (DEDUCED, assumption 29: a part of a unit is not shown). -/
def State.left (s : State) (t unit w : Nat) : Nat := min ((t - s.mono) / unit) (2 ^ w - 1)

/-- CLO page (R82). DESIGN CHOICE (assumption 37): the sources of TCXO_OK and XTAL_OK, which the spec lets rise at no stated time, are
good in every state but POWER_ON. -/
def State.overClo (s : State) (off : Nat) : List Over :=
  if off = 0x040 then [flag 0 (s.mstate != stPOWER_ON), flag 1 (s.mstate != stPOWER_ON)]
  else if off = 0x050 then [flag 10 (s.clkRuns 10)]
  else if off = 0x054 then (if s.clkRuns 10 then [] else [flag 10 false])
  else if off = 0x060 then
    (match s.pwr.pressedAt with | none => [] | some t => [(16, 16, min ((s.mono - t) / 1000000) 0xFFFF)])
  else if 0x800 ≤ off ∧ off < 0x858 ∧ off % 8 = 0 then
    let d := (off - 0x800) / 8
    [flag 0 (s.clkRuns d), flag 1 (s.bit CLO.LOCKED d && s.clkRuns d), flag 2 (decide (d < 10) && s.biased d), flag 3 (s.bit CLO.FCLK_FAULT d)]
  else []

/-- TKU page (R83). -/
def State.overTku (s : State) (off : Nat) : List Over :=
  if off = 0x040 then [(0, 32, s.now)]
  else if off = 0x044 then [(0, 32, s.now / 2 ^ 32)]
  else if off = 0x048 then [(0, 32, s.tku.frac.toNat)]
  else if off = 0x078 then [flag 1 s.inBand, flag 5 s.tsCoarse, flag 6 (s.on TKU.STEP_DENIED_CNT)]
  else if off = 0x0AC then [(0, 18, s.phase)]
  else []

/-- LSQ pages (R122). -/
def State.overLsq (s : State) (q off : Nat) : List Over :=
  if off = 0x0A4 then [(0, 32, (s.objWords q).1)]
  else if off = 0x0A8 then [(0, 32, (s.objWords q).2.1)]
  else if off = 0x0AC then [(0, 32, (s.objWords q).2.2)]
  else if off = 0x0B0 then [(0, 32, (s.objWords q).2.2 / 2 ^ 32)]
  else if off = 0x110 ∧ q = 0 then [(0, 9, s.forces.length)]
  else if off = 0x114 ∧ q = 0 then [flag 0 s.forceAuthOpen, (16, 16, s.left (s.forceAuth.getD 0) (secs 1) 16)]
  else []

/-- Enabled loop contexts in state `st`. -/
def State.loopsIn (s : State) (st : Nat) : Nat := (s.loopsEn.filter (fun c => s.loopSt c == st)).length

/-- LPE page (R153). -/
def State.overLpe (s : State) (off : Nat) : List Over :=
  let f := s.clkMHz 8
  if off = 0x040 then [(16, 16, f)]
  else if off = 0x048 then [(0, 32, 25600 * f)]
  else if off = 0x050 then [(0, 32, 28800 * f)]
  else if off = 0x060 then
    [(0, 8, s.loopsIn lpOPEN), (8, 8, s.loopsIn lpPRIMING), (16, 8, s.loopsIn lpCLOSED), (24, 8, s.loopsIn lpCOASTING)]
  else if off = 0x064 then [(0, 8, s.loopsIn lpFALLBACK)]
  else if 0x800 ≤ off ∧ off < 0xA00 then
    let c := (off - 0x800) / 4
    [(0, 3, s.loopSt c), flag 3 (s.loopEn c), (4, 4, s.get (CTX.CTX_MODE_LAST_CAUSE c))]
  else []

/-- A fraction in 0.01 %, rounded up, saturating at 16 bits. -/
def pct2 (a : Nat × Nat) : Nat := min (ceilDiv (10000 * a.1) (max a.2 1)) 0xFFFF

/-- CAS global page (R184). -/
def State.overCas (s : State) (off : Nat) : List Over :=
  let f := s.clkMHz 9
  if off = 0x040 then [(16, 16, f)]
  else if off = 0x044 then
    [(0, 16, (((List.range 16).filter (fun k => s.casSt k != csEMPTY)).map (fun k => (s.casSlot k).size)).sum / 1024)]
  else if off = 0x048 then [(0, 16, pct2 (s.casRate s.casEnabled f))]
  else if off = 0x04C then [(0, 16, pct2 (s.casDens s.casEnabled f))]
  else if off = 0x050 then [(0, 32, quotShow (s.casB s.casEnabled f) f)]
  else if off = 0x054 then [(0, 5, s.casEnabled.length)]
  else if 0x800 ≤ off ∧ off < 0x840 then
    let k := (off - 0x800) / 4
    [(0, 3, s.casSt k), flag 3 (s.casEn k), (4, 4, s.get (SLOT.SLOT_STAT_LAST_CODE k)), flag 8 (s.on (SLOT.SLOT_STAT_FACT_VALID k)),
     flag 9 (s.casSt k == csLIN)]
  else []

/-- CAS slot window (R185): WCIT and C at the present grade, of a slot that holds a structure. -/
def State.overSlot (s : State) (k off : Nat) : List Over :=
  let f := s.clkMHz 9
  if off = 0x078 then [(0, 32, if s.casHeld k then quotShow (1000 * s.wcit k) f else 0)]
  else if off = 0x07C then [(0, 32, if s.casHeld k then quotShow (1000 * s.casCost k) f else 0)]
  else []

/-- HART_CD of channel `i` of bank `b` (R233, R234): a free value while its modem works. -/
def State.hartCarrier (s : State) (b i : Nat) : Bool :=
  s.bankLive b && s.get (FB.AN_CFG_HART_MODE b i) != 0 && decide (5 ≤ s.chType (16 * b + i) ∧ s.chType (16 * b + i) ≤ 7) &&
    (Config.anLine (16 * b + i) s.mono).getLsbD 16

/-- TERM_MV of AI `i` of bank `b` (R233): no command reports it, a free value; 0 without supply (R469). -/
def State.aiTerminal (s : State) (b i : Nat) : Nat := if s.bankLive b then (Config.anLine (16 * b + i) s.mono).toNat % 65536 else 0

/-- FB pages (R212, R233): the maps, and the quantities that only the bank electronics measure. LOGIC_MW and TEMP are free values
while the bank has its supply, and 0 without it (R469). -/
def State.overFb (s : State) (b off : Nat) : List Over :=
  if off = 0x04C then
    (if (s.bank b).supply && s.mstate != stPOWER_ON then
      let v := (Config.freeWord s.freshCtr).toNat
      [(0, 16, v), (16, 16, v / 65536)]
    else [(0, 16, 0), (16, 16, 0)])
  else if off = 0x068 then
    [(0, 16, levels ((List.range 16).map (fun i => s.on (FB.CH_STAT_FAULT b i)))),
     (16, 16, levels ((List.range 16).map (fun i => s.chEn (16 * b + i) && s.outSt (16 * b + i) == 2)))]
  else if 0xA00 ≤ off ∧ off < 0xC00 ∧ off % 32 = 0x14 then
    let i := (off - 0xA00) / 32
    [flag 9 (s.hartCarrier b i)] ++ (if s.chType (16 * b + i) = 5 then [(16, 16, s.aiTerminal b i)] else [])
  else if off = 0xC04 then [(16, 16, levels ((List.range 16).map (s.hartCarrier b)))]
  else []

/-- SCP, WEIR and DBG pages (R256 to R258). -/
def State.overScp (s : State) (p off : Nat) : List Over :=
  if off = 0x040 then [flag 0 (s.pairLocked p), flag 3 (s.pairSafety p)]
  else if off = 0x070 then [(0, 32, s.irqPend p)]
  else if off = 0x074 then [(0, 32, s.irqPend p / 2 ^ 32)]
  else []

/-- WEIR page (R257). -/
def State.overWeir (s : State) (off : Nat) : List Over :=
  if 0x800 ≤ off ∧ off < 0x880 ∧ off % 32 = 0 then
    let p := (off - 0x800) / 32
    [flag 0 (!s.on (SCP.PAIR_STAT_SPLIT p) && !s.on (SCP.PAIR_STAT_LOCK_BROKEN p) && s.mstate != stPOWER_ON)]
  else []

/-- DBG page (R258). -/
def State.overDbg (s : State) (off : Nat) : List Over :=
  if off = 0x040 then
    [flag 0 s.dbgAuthOpen, (16, 4, levels ((List.range 4).map (fun p => s.on (SCP.PAIR_STAT_LOCK_BROKEN p))))]
  else if off = 0x044 then [(0, 16, s.left (s.dbgAuth.getD 0) (secs 1) 16)]
  else []

/-- GNT page (R293, R294). -/
def State.overGnt (s : State) (off : Nat) : List Over :=
  if off = 0x074 then
    (match s.gnt.lastVote with
    | some t => [(16, 7, if s.on GNT.VOTE_STAT_HOLDING then s.left (t + ms (s.get GNT.VOTE_CFG_GRACE_MS)) (ms 1) 7 else 0)]
    | none => [(16, 7, 0)])
  else if off = 0x160 then
    [(8, 5, levels ((List.range 5).map (fun k => s.credLocked (k + 1)))),
     (16, 5, levels ((List.range 5).map (fun k => s.credLocked (0x11 + k))))]
  else if 0xC00 ≤ off ∧ off < 0xC20 then
    let k := (off - 0xC00) / 4
    let i := s.get GNT.MATRIX_SEL
    [(0, 32, ((List.range 8).map (fun m => psCell s.gnt.tab i (8 * k + m) % 16 * 16 ^ m)).sum)]
  else []

/-- SSE page (R308). -/
def State.overSse (s : State) (e off : Nat) : List Over :=
  if off = 0x040 then [(0, 32, levels ((List.range 32).map (fun k => k != 0 && s.sessInSafe k)))]
  else if off = 0x044 then [(0, 32, levels ((List.range 32).map (fun k => s.sessInSafe (32 + k))))]
  else if off = 0x0B0 then [(0, 32, (s.psig e).toNat)]
  else if off = 0x0BC then
    [(16, 16, if s.on (SSE.SESS_CFG_EN e) && !s.on (SSE.SESS_CFG_DIR e) then s.left (s.sessOf e).wdogAt (ms 1) 16 else 0)]
  else []

/-- QMG page (R328). -/
def State.overQmg (s : State) (r off : Nat) : List Over :=
  if off = 0x040 then [(0, 32, levels ((List.range 32).map s.swWork))]
  else if off = 0x044 then [(0, 32, levels ((List.range 32).map (fun k => s.swWork (32 + k))))]
  else if off = 0x06C then [(0, 13, s.ringFill r), flag 13 (s.ringOn r && s.ringCredit r == 0), flag 14 (s.swWork r)]
  else if 0x800 ≤ off ∧ off < 0x900 then
    let k := (off - 0x800) / 4
    [flag 0 (s.on (QMG.RING_CFG_EN k)), flag 1 (s.ringOn k && s.ringCredit k == 0), (16, 13, s.ringFill k)]
  else []

/-- ETH, SYN and WIT pages (R329). -/
def State.overEth (s : State) (p off : Nat) : List Over :=
  if off = 0x044 then
    [flag 4 (match (s.eth p).supSeen with | none => false | some t => decide (s.mono ≤ t + secs 6))]
  else []

/-- CAN pages (R344). TDC.MEAS is a measurement of the transceiver: a free value while TDC_EN is 1. -/
def State.overCan (s : State) (n x off : Nat) : List Over :=
  let c := s.can n
  if off = 0x04C then
    (if s.on (CAN.CAN_CFG_TDC_EN n) && c.mode != 0 then [(8, 7, (Config.freeWord s.freshCtr).toNat)] else [])
  else if off = 0x058 then [flag 4 (c.mode == 2 || c.mode == 3 || (c.mode == 1 && s.canSilent))]
  else if off = 0x064 then
    (match c.buf x with
    | none => [(0, 3, 0), (3, 1, 0), (16, 16, 0)]
    | some t => [(0, 3, t.st), flag 3 t.launch.isSome, (16, 16, t.tag)])
  else if off = 0x068 then
    [(0, 9, levels ((List.range 9).map (fun b => (c.buf b).isSome || (b == 8 && !c.sseQ.isEmpty))))]
  else []

/-- RDC page (R374). -/
def State.overRdc (s : State) (off : Nat) : List Over :=
  if off = 0x040 then [flag 2 s.duty, flag 3 s.preferred, flag 4 s.leaseValid, flag 7 s.degraded]
  else if off = 0x058 then
    [flag 0 (s.unexpired s.rdc.witUntil), flag 1 (s.unexpired s.rdc.peerUntil), flag 2 s.signed, flag 3 s.reqPending,
     (16, 16, s.left s.leaseEnd 100000 16)]
  else if off = 0x05C then
    [flag 0 (s.pathUp 0), flag 1 (s.pathUp 1), flag 2 (s.pathUp 2), flag 3 (s.pathUp 3), flag 4 s.peerSeen, flag 5 s.witnessSeen]
  else if off = 0x060 then
    [(0, 2, s.peerRole), flag 2 (s.peerFlag 2), flag 3 (s.peerFlag 3), flag 4 (s.peerFlag 4),
     (16, 16, match s.rdc.hbAt with | none => 0xFFFF | some t => min ((s.mono - t) / 1000000) 0xFFFF)]
  else if off = 0x064 then
    [flag 0 s.ready, flag 1 s.nrAge, flag 2 s.nrImage, flag 3 s.nrPset, flag 4 s.nrTime, flag 5 s.nrConfig, (16, 16, s.ckptAge)]
  else if off = 0x06C then
    [(16, 16, match s.rdc.readySince with
      | some t => if s.preferred then s.left (t + secs (60 * s.get RDC.REVERT_CFG_HOLDOFF_MIN)) (secs 1) 16 else 0
      | none => 0)]
  else if 0x800 ≤ off ∧ off < 0x900 ∧ off % 32 = 0x0C then
    let w := (off - 0x800) / 32
    let stn := s.get (RDC.WM_CFG_STATION w)
    let held := (s.leaseOf stn).holder == some w && decide (s.mono < (s.leaseOf stn).until_)
    [flag 0 (s.pathUp (5 + w)), flag 1 held, flag 2 ((s.wm w).hbAt.isSome && (s.wm w).flags.testBit 2),
     flag 3 (s.wm w).pend.isSome, (16, 16, if held then s.left (s.leaseOf stn).until_ 100000 16 else 0)]
  else []

/-- SLC page (R376). -/
def State.overSlc (s : State) (off : Nat) : List Over :=
  if off = 0x044 then
    [(0, 2, if s.slcSends then 1 else if s.enabled 0x0C && s.mstate == stRUN && s.role == roleSTANDBY then 2 else 0),
     (16, 16, s.ckptAge)]
  else if off = 0x064 then [(0, 17, (s.appRegions.map (fun x => x.2.2)).sum / 1024)]
  else if 0x800 ≤ off ∧ off < 0x880 ∧ off % 16 = 0x0C then
    let r := (off - 0x800) / 16
    [(0, 18, (((s.appRegions.filter (fun x => x.1 == r)).flatMap appGroups).map (fun g => (s.dirtyBlocks g).length)).sum)]
  else []

/-- CIS page (R411). -/
def State.overCis (s : State) (t off : Nat) : List Over :=
  if off = 0x088 then [(0, 32, s.defCrc t)]
  else if 0x800 ≤ off ∧ off < 0x900 then
    let k := (off - 0x800) / 4
    [flag 0 (s.trkEn k),
     flag 2 (match mapGet (fun _ => none) (s.cis.trks.map (fun e => (e.1, some e.2))) k with
       | none => false | some a => a.hour.sat || a.day.sat || a.life.sat)]
  else []

/-- MPL page (R422). -/
def State.overMpl (s : State) (off : Nat) : List Over :=
  if off = 0x040 then [(16, 16, s.learnLeft)]
  else if off = 0x044 then [(0, 8, s.demandCount 1), (8, 8, s.demandCount 2), (16, 8, s.demandCount 3)]
  else if 0x800 ≤ off ∧ off < 0xCD0 then
    let m := (off - 0x800) / 16
    (match off % 16 with
    | 4 => [(0, 32, ux 32 (s.monBase m))]
    | 8 => [(0, 32, s.monLimitShow m)]
    | 12 => [(0, 2, s.demand m), (16, 16, s.predDays m)]
    | _ => [])
  else []

/-- The fields that page `p` derives at offset `off` for the selected unit `u`. -/
def State.over (s : State) (p u off : Nat) : List Over :=
  if off = 0x010 then [(0, 32, s.pgStat p)]
  else if off = 0x020 then [(0, 32, s.irqStat p)]
  else match pageKind p with
  | some .clo => s.overClo off
  | some .tku => s.overTku off
  | some .lsq => s.overLsq (p - 0x14) off
  | some .lpe => s.overLpe off
  | some .ctx => if off = 0x07C then [(0, 16, if s.rd (CTX.CTX_DIM_N_STATES u).key = 0 then 0 else s.loopCost u)] else []
  | some .cas => s.overCas off
  | some .slot => s.overSlot u off
  | some .fb => s.overFb (p - 0x20) off
  | some .scp => s.overScp (p - 0x10) off
  | some .weir => s.overWeir off
  | some .dbg => s.overDbg off
  | some .gnt => s.overGnt off
  | some .sse => s.overSse u off
  | some .qmg => s.overQmg u off
  | some .eth => s.overEth (p - 0x40) off
  | some .can => s.overCan (p - 0x50) u off
  | some .rdc => s.overRdc off
  | some .slc => s.overSlc off
  | some .psu => if off = 0x068 then [(16, 4, s.autoCount)] else []
  | some .cis => s.overCis u off
  | some .mpl => s.overMpl off
  | some .pnl => if off = 0x040 then [flag 4 s.budgetOut, flag 5 s.blinking] else if off = 0x05C then [(0, 20, s.ledStat)] else []
  | _ => []

/-- The unit selected for a windowed register (R52 and the selectors of the block pages); 0 for any other register. -/
def State.unitOf (s : State) (p off : Nat) : Nat :=
  match pageKind p with
  | some .lsq =>
    let q := p - 0x14
    if 0x4C ≤ off ∧ off ≤ 0x6C then s.get (LSQ.TASK_SEL_TASK q)
    else if off = 0xC4 then 256 * s.get (LSQ.SUBST_SEL_STATION q) + s.get (LSQ.SUBST_SEL_OFFSET q)
    else if 0x104 ≤ off ∧ off ≤ 0x10C then s.get (LSQ.FORCE_SEL q) else 0
  | some .ctx => if 0x44 ≤ off ∧ ¬(0x400 ≤ off ∧ off < 0x800) then s.get CTX.CTX_SEL else 0
  | some .slot => if 0x44 ≤ off ∧ ¬(0x400 ≤ off ∧ off < 0x800) then s.get SLOT.SLOT_SEL else 0
  | some .sse => if (0x84 ≤ off ∧ off < 0x400) ∨ 0x800 ≤ off then s.get SSE.SESS_SEL else 0
  | some .qmg => if 0x50 ≤ off ∧ off ≤ 0x70 then s.get QMG.RING_SEL else 0
  | some .can => if off = 0x64 then s.get (CAN.TXB_SEL (p - 0x50)) else 0
  | some .cis => if 0x74 ≤ off ∧ off ≤ 0x88 then s.get CIS.TRK_SEL else 0
  | _ => 0

/-- A word with the derived fields put over it. -/
def putOver (w : Word) : List Over → Word
  | [] => w
  | (lo, n, v) :: t => putOver (setBits w lo n v) t

/-- The analogue entry of a channel of a type other than 5 to 7 is RSV (R233). -/
def State.anHidden (s : State) (p off : Nat) : Bool :=
  pageKind p == some .fb && decide (0xA00 ≤ off ∧ off < 0xC00) &&
    (let t := s.chType (16 * (p - 0x20) + (off - 0xA00) / 32); t < 5 || decide (7 < t))

/-- The value of the register at offset `off` of page `p` for the selected unit: 0 where the page defines none (R33). -/
def State.regWord (s : State) (p off : Nat) : Word :=
  let u := s.unitOf p off
  if rowsAt p off = [] ∨ s.anHidden p off = true then 0 else putOver (s.rd (rkey p u off)) (s.over p u off)

end Sys2Proof.Machine
end

