-- ==== Sys2Proof/Machine/Locks.lean ====
section
/-! DEFINITION. Which configuration writes a block refuses in its present state (R41 and the class tables of the block pages), and
which values a field accepts (R465). -/

namespace Sys2Proof.Machine

/-- An enabled channel of bank `b` has HART_MODE 1 or 2 (R231). -/
def State.hartUsed (s : State) (b : Nat) : Bool :=
  (bankChans b).any (fun ch => s.chEn ch && (let h := s.get (FB.AN_CFG_HART_MODE b (li ch)); h == 1 || h == 2))

/-- The value `nv` is refused for the field of row `r` at offset `off` of page `p`, unit `u`, in the present state (R41). -/
def State.locked (s : State) (p u off : Nat) (r : Row) (nv : Nat) : Bool :=
  let i := r.idx off
  let ch := 16 * (p - 0x20) + i
  match r.lock with
  | .free => false
  | .cfg => s.mstate != stCONFIG
  | .progLoading => s.get (LSQ.PROG_STAT_INACTIVE (p - 0x14)) == 3
  | .forceActive => s.on (LSQ.FORCE_STAT_ACTIVE 0 u)
  | .stnEn => s.on (LSQ.STN_CFG_EN (p - 0x14) i)
  | .ctxEn => s.loopEn u
  | .slotNotEmpty => s.casSt u != csEMPTY
  | .slotLoading => s.casSt u == csLOADING
  | .slotEn => s.casEn u
  | .chCfgEn => s.chSafety ch || s.chEn ch
  | .chSafety => s.chSafety ch
  | .chSlot => if s.chSafety ch then s.mstate != stCONFIG else s.chEn ch
  | .chEn => s.chEn ch
  | .hartOn => s.hartUsed (p - 0x20)
  | .dbgClosed => !s.dbgAuthOpen
  | .psetLoading => s.get GNT.PSET_STAT_STATE == 3
  | .sessEn => s.on (SSE.SESS_CFG_EN u)
  | .ringEn => s.on (QMG.RING_CFG_EN u)
  | .serMode => s.serMode (p - 0x64) != 0
  | .serModeSet => s.serMode (p - 0x64) != 0 && nv != 0
  | .canMode => s.get (CAN.CAN_CFG_MODE (p - 0x50)) != 0
  | .wmEn => s.on (RDC.WM_CFG_EN i)
  | .roleNotNone => s.role != roleNONE
  | .trkEn => s.trkEn u

/-- Channels of bank `b` with TIMED_SAFE set, other than `ch`. -/
def State.otherTimed (s : State) (ch : Nat) : Nat :=
  ((bankChans (bk ch)).filter (fun c => c != ch && s.on (FB.CH_CFG_TIMED_SAFE (bk c) (li c)))).length

/-- Refusals beside the table's lock: TIMED_SAFE on a fifth channel of a bank (R205). -/
def State.lockedMore (s : State) (p off : Nat) (r : Row) (nv : Nat) : Bool :=
  match pageKind p with
  | some .fb => r.base == 0x800 && r.lo == 6 && nv == 1 && decide (4 ≤ s.otherTimed (16 * (p - 0x20) + r.idx off))
  | _ => false

/-- The check of a field by its own value alone. -/
def Check.ownOk (c : Check) (nv : Nat) : Bool :=
  match c with
  | .range lo hi => decide (lo ≤ nv) && decide (nv ≤ hi)
  | .aligned n => nv % n == 0
  | .filtSample => sampleOk nv
  | .gradeFloor => (List.range 8).all (fun d => decide (nv / 16 ^ d % 16 ≤ maxGrade d))
  | .irqPage => (pageKind nv).isSome
  | .logInterval => decide (-7 ≤ sx 8 nv) && decide (sx 8 nv ≤ 4)
  | .scaleExp => decide (-32 ≤ sx 8 nv) && decide (sx 8 nv ≤ 31)
  | .blinkS => nv == 0 || (decide (4 ≤ nv) && decide (nv ≤ 60))
  | _ => true

/-- Type `t` is available in bank `b` (R190). -/
def typeOk (b t : Nat) : Bool :=
  decide (t < 9) && (t != 3 || decide (12 ≤ b)) && ((t != 7 && t != 8) || decide (b < 12))

/-- The number of objects of a class (R85): timers, counters, edge detectors. -/
def objCount (cls : Nat) : Nat := if cls = 0 then 2048 else if cls = 1 then 1024 else if cls = 2 then 4096 else 0

/-- Slot `n` may take the trip-line copy of bank `b` (R211). -/
def State.tripSlotOk (s : State) (b n : Nat) : Bool :=
  !s.otherProducer n 1 (16 * b) && (List.range 256).all (fun ch => s.chSlot ch != n)

/-- Bytes of the enabled application regions other than `r` (R363). -/
def State.otherApp (s : State) (r : Nat) : Nat := ((s.appRegions.filter (fun x => x.1 != r)).map (fun x => x.2.2)).sum

/-- The check of a field that depends on other fields: those of the same word as the write `w` leaves them (R465). -/
def State.depOk (s : State) (p off : Nat) (r : Row) (w : Word) : Bool :=
  let i := r.idx off
  let b := p - 0x20
  let nv := bits w r.lo r.w
  match r.check with
  | .sjw lo n hi => decide (1 ≤ nv) && decide (nv ≤ hi) && decide (nv ≤ bits w lo n)
  | .belowPeriod => decide (nv < bits w 0 14)
  | .casDeadline => decide (26 ≤ nv) && decide (nv ≤ 100 * s.get (SLOT.SLOT_PERIOD_PERIOD (s.get SLOT.SLOT_SEL)))
  | .objIndex => decide (bits w 0 13 < objCount (bits w 16 2))
  | .lossMs => decide (2 * s.get (LSQ.STN_CFG_INTERVAL_MS (p - 0x14) i) ≤ nv)
  | .chType => typeOk b nv
  | .anCfg =>
    let t := s.chType (16 * b + i)
    if r.lo = 0 then decide (nv ≤ 1)
    else if r.lo = 6 then nv == 0 || (t == 6 && s.feat 6)
    else decide (bits w 4 2 < 3) && (bits w 4 2 == 0 || (t == 5 && bits w 3 1 == 0) || ((t == 6 || t == 7) && bits w 4 2 == 1))
  | .anLim => decide (bits w 0 16 ≤ bits w 16 16) && decide (nv ≤ 22000)
  | .tsValue => !isAO (s.chType (16 * b + i)) || nv == 0 || (decide (3600 ≤ nv) && decide (nv ≤ 22000))
  | .tripSlot => bits w 15 1 == 0 || (r.lo == 0 && !s.on (FB.TRIP_SLOT_EN b)) || s.tripSlotOk b (bits w 0 13)
  | .appEn => nv == 0 || decide (s.otherApp i + s.get (SLC.APP_SIZE i) ≤ 0x4000000)
  | _ => true

/-- Checks beside the table's: XCHK_EN is not available on FB12 to FB15 (R208), and the fixed parameters of a vote entry are not
written (R301). -/
def State.moreOk (s : State) (p u : Nat) (r : Row) (w : Word) : Bool :=
  match pageKind p with
  | some .fb => !(r.base == 0x800 && r.lo == 8) || decide (p - 0x20 < 12) || bits w 8 1 == 0
  | some .sse =>
    if r.base = 0x084 then bits w 2 1 == 0 || !(r.lo == 4 || r.lo == 8 || r.lo == 16)
    else !(s.on (SSE.SESS_CFG_KIND u) && (r.base == 0x088 || r.base == 0x08C || r.base == 0x090))
  | _ => true

/-- The bits of a list of fields of `new` put over `old`. -/
def mergeRows (old new : Word) : List Row → Word
  | [] => old
  | r :: t => mergeRows (setBits old r.lo r.w (bits new r.lo r.w)) new t

/-- The fields of `l` that their checks accept when each field of the word stands as the write `v` over `old` leaves it (R465 step 2):
one that is refused counts at its old value, which may refuse another. `n` bounds the rounds. -/
def State.keepOk (s : State) (p u off : Nat) (old v : Word) (n : Nat) (l : List Row) : List Row :=
  match n with
  | 0 => l
  | n + 1 =>
    let w := mergeRows old v l
    s.keepOk p u off old v n (l.filter (fun r => s.depOk p off r w && s.moreOk p u r w))

/-- How a write of `v` to a register of fields is judged (R465): the fields written anew and refused by state, those refused by value,
and those that take effect. -/
structure Judged where
  bad4 : List Row
  bad7 : List Row
  good : List Row
deriving DecidableEq, Repr

/-- Judge a write of `v` over the word `old` (R465): steps 1 to 3. -/
def State.judge (s : State) (p u off : Nat) (old v : Word) : Judged :=
  let rows := (rowsAt p off).filter (fun r => r.ty == .rw || r.ty == .rwh || r.ty == .cnt)
  let changed := rows.filter (fun r => bits v r.lo r.w != bits old r.lo r.w)
  let no (r : Row) := let nv := bits v r.lo r.w; s.locked p u off r nv || s.lockedMore p off r nv
  let ok := changed.filter (fun r => !no r)
  let own := ok.filter (fun r => r.check.ownOk (bits v r.lo r.w))
  let good := s.keepOk p u off old v (own.length + 1) own
  ⟨changed.filter no, ok.filter (fun r => !good.contains r), good⟩

end Sys2Proof.Machine
end

