-- ==== Sys2Proof/Machine/Enables.lean ====
section
/-! DEFINITION. What an enable bit or a mode field does when a write sets or clears it: channels, station entries, sessions, rings,
tracks, witness members, loop contexts, Cascade slots, serial and CAN modes; the enable and the soft reset of whole pages (R39). -/

namespace Sys2Proof.Machine

/-! ### Entries -/

/-- CTX_CFG.EN of context `c` (R134, R152): the cause of a refusal, 0 for none. -/
def State.ctxEnWrite (s : State) (c nv : Nat) : State × Nat :=
  if nv = 1 then
    let a := s.admission c
    let s := s.put LPE.ADM_STAT_LAST_CTX c
    if a = 0 then (s.loopEnable c, 0) else ((s.put LPE.ADM_STAT_LAST_REASON a).bump LPE.ADM_REFUSED_CNT, 4)
  else if s.loopSt c = lpOPEN then (s.loopDisable c, 0) else (s, 4)

/-- SLOT_CFG.EN of slot `k` (R174, R183). -/
def State.slotEnWrite (s : State) (k nv : Nat) : State × Nat :=
  if nv = 1 then
    let a := s.casAdmission k
    let s := s.put CAS.ADM_STAT_LAST_SLOT k
    if a = 0 then (s.casEnable k, 0) else ((s.put CAS.ADM_STAT_LAST_REASON a).bump CAS.ADM_REFUSED_CNT, 4)
  else (s.casDisable k, 0)

/-- The slots that channel `ch` produces when it is enabled (R190, R222). -/
def State.chOwn (s : State) (ch : Nat) : List Nat :=
  let t := s.chType ch
  (if isDI t || t == 5 then [s.chSlot ch] else []) ++
    (if isAO t && s.on (FB.AN_CFG_RB_EN (bk ch) (li ch)) then [s.get (FB.AN_RB_RB_SLOT (bk ch) (li ch))] else [])

/-- CH_CFG.EN of channel `ch` (R211, R231). -/
def State.chEnWrite (s : State) (ch nv : Nat) : State × Nat :=
  let f := FB.CH_CFG_EN (bk ch) (li ch)
  if nv = 1 then
    let own := s.chOwn ch
    if !typeOk (bk ch) (s.chType ch) || own.any (fun n => s.otherProducer n 1 ch) then (s, 4)
    else ((((s.claimAll 1 ch own).setChan ch { Chan.blank with hart := (s.chan ch).hart, quiet := (s.chan ch).quiet }).chFresh ch).put f 1, 0)
  else
    let s := ((s.hartEndAll ch 5 (s.chan ch).hart.length).killPulse ch).chClear ch false
    ((s.freeAll 1 ch (s.chOwn ch)).put f 0, 0)

/-- STN_CFG.EN of station `st` (R122). -/
def State.stnEnWrite (s : State) (st nv : Nat) : State × Nat :=
  let f := LSQ.STN_CFG_EN (st / 16) (st % 16)
  if nv = 1 then (if s.stnOverlap st then (s, 4) else ((s.put f 1).stnEnable st, 0))
  else ((s.put f 0).stnDisable st, 0)

/-- The slots that consumer entry `e` posts. -/
def State.sessOut (s : State) (e : Nat) : List Nat :=
  (List.range (s.sessWords e)).map (fun i => (s.get (SSE.SESS_SLOT_SLOT_BASE e) + i) % 8192)

/-- The transport of entry `e` carries its payload (R299): a CAN FD frame holds 64 bytes. -/
def State.sessFits (s : State) (e : Nat) : Bool :=
  s.isVote e || decide (s.get (SSE.SESS_CFG_TRANSPORT e) < 11) || decide (s.sessLen e + 14 ≤ 64)

/-- Entry `e` is a vote session of the stored safety parameter set (R308). -/
def State.voteInSet (s : State) (e : Nat) : Bool :=
  s.on GNT.GNT_STAT_PSET_VALID && e != 0 && (e == s.get GNT.SAFETY_CFG_VOTE_SESS_A || e == s.get GNT.SAFETY_CFG_VOTE_SESS_B)

/-- A vote entry is enabled in RUN: SESS_CFG.EN and the SSE page's ENABLE are not cleared (R307, R308). -/
def State.voteRuns (s : State) (e : Nat) : Bool := s.mstate == stRUN && s.isVote e && s.on (SSE.SESS_CFG_EN e)

/-- SESS_CFG.EN of entry `e` (R306, R308): a consumer begins in SAFE with its fail-safe values posted. -/
def State.sessEnWrite (s : State) (e nv : Nat) : State × Nat :=
  let prod := s.on (SSE.SESS_CFG_DIR e)
  if nv = 1 then
    if (!prod && (s.sessOut e).any (fun n => s.otherProducer n 3 e)) || (s.voteInSet e && !s.isVote e) || !s.sessFits e then (s, 4)
    else
      let s := (s.put (SSE.SESS_CFG_EN e) 1).put (SSE.SESS_SEQ e) 0
      let s := s.setSess e { Sess.blank with startAt := s.mono, lastSend := s.mono, wdogAt := s.mono + ms (s.sessWdog e),
                                             lbWdog := s.mono + ms (s.sessWdog e) }
      if prod then (s.put (SSE.SESS_STAT_STATE e) 1, 0)
      else
        let s := (s.claimAll 3 e (s.sessOut e)).wr (SSE.SESS_STAT_STATE e).key 0
        ((s.put (SSE.SESS_STAT_STATE e) 3).postFailSafe e, 0)
  else if s.voteRuns e then (s, 4)
  else
    let s := if prod then s else s.freeAll 3 e (s.sessOut e)
    (((s.put (SSE.SESS_CFG_EN e) 0).put (SSE.SESS_STAT_STATE e) 0).setSess e Sess.blank, 0)

/-- RING_CFG.EN of ring `r` (R315, R317, R327). -/
def State.ringEnWrite (s : State) (r nv : Nat) : State × Nat :=
  if nv = 1 then (if s.ringEnOk r then (s.put (QMG.RING_CFG_EN r) 1, 0) else (s, 7))
  else ((((s.abortStarts 0x0A r).ringDrop r).ringAbort r).put (QMG.RING_CFG_EN r) 0, 0)

/-- Another enabled member entry has the serial of entry `w`, or its member letter for its station (R373). -/
def State.wmTaken (s : State) (w : Nat) : Bool :=
  (List.range 8).any (fun k => k != w && s.on (RDC.WM_CFG_EN k) &&
    ((s.get (RDC.WM_SER_LO k) == s.get (RDC.WM_SER_LO w) && s.get (RDC.WM_SER_HI k) == s.get (RDC.WM_SER_HI w)) ||
     (s.get (RDC.WM_CFG_STATION k) == s.get (RDC.WM_CFG_STATION w) && s.get (RDC.WM_CFG_MEMBER k) == s.get (RDC.WM_CFG_MEMBER w))))

/-- WM_CFG.EN of entry `w` (R373): clearing it takes a lease of the member as relinquished. -/
def State.wmEnWrite (s : State) (w nv : Nat) : State × Nat :=
  if nv = 1 then
    (if s.wmTaken w then (s, 7) else (((s.put (RDC.WM_CFG_EN w) 1).setWm w WmRt.blank).trackDuty, 0))
  else ((((s.relinquished w).put (RDC.WM_CFG_EN w) 0).setWm w WmRt.blank).trackDuty, 0)

/-- TRK_CFG.EN of track `t` (R402, R410). -/
def State.trkEnWrite (s : State) (t nv : Nat) : State × Nat :=
  if nv = 1 then (if s.trkOk t then ((s.put (CIS.TRK_CFG_EN t) 1).trkOpen t, 0) else (s, 7))
  else ((s.trkClose t).put (CIS.TRK_CFG_EN t) 0, 0)

/-- SER_CFG.MODE of port `n` (R327). -/
def State.serModeWrite (s : State) (n nv : Nat) : State × Nat :=
  ((if nv = 0 then s.serEnd n else s).put (SER.SER_CFG_MODE n) nv, 0)

/-- The field of row `r` on page `p` is one of these enables or modes. -/
def isEnable (p : Nat) (r : Row) : Bool :=
  match pageKind p with
  | some .ctx => r.base == 0x044 && r.lo == 0
  | some .slot => r.base == 0x044 && r.lo == 0
  | some .fb => r.base == 0x800 && r.lo == 0
  | some .lsq => r.base == 0x800 && r.lo == 0
  | some .sse => r.base == 0x084 && r.lo == 0
  | some .qmg => r.base == 0x050 && r.lo == 0
  | some .rdc => r.base == 0x800 && r.lo == 0
  | some .cis => r.base == 0x074 && r.lo == 0
  | some .ser => r.base == 0x040 && r.lo == 0
  | some .can => r.base == 0x040 && r.lo == 0
  | _ => false

/-- Write `nv` to the enable or mode of page `p`, unit `u`, table index `i`: the cause of a refusal, 0 for none. -/
def State.enableWrite (s : State) (p u i nv : Nat) : State × Nat :=
  match pageKind p with
  | some .ctx => s.ctxEnWrite u nv
  | some .slot => s.slotEnWrite u nv
  | some .fb => s.chEnWrite (16 * (p - 0x20) + i) nv
  | some .lsq => s.stnEnWrite (16 * (p - 0x14) + i) nv
  | some .sse => s.sessEnWrite u nv
  | some .qmg => s.ringEnWrite u nv
  | some .rdc => s.wmEnWrite i nv
  | some .cis => s.trkEnWrite u nv
  | some .ser => s.serModeWrite (p - 0x64) nv
  | some .can => (s.canSetMode (p - 0x50) nv, 0)
  | _ => (s, 0)

/-! ### Pages (R39) -/

/-- Pages whose ENABLE is read-only 1 and whose SOFT_RESET is always refused. -/
def fixedEnable (p : Nat) : Bool := p == 0x00 || p == 0x01 || p == 0x03 || p == 0x04 || p == 0x07

/-- ENABLE of page `p` is not written in the present state: pairs outside CONFIG, the Weir, a bank with a safety channel in RUN, the
SSE with a vote entry enabled in RUN (R211, R255, R307). -/
def State.enableLocked (s : State) (p : Nat) : Bool :=
  match pageKind p with
  | some .scp => s.mstate != stCONFIG
  | some .weir => true
  | some .fb => s.mstate == stRUN && s.enabled p && (bankChans (p - 0x20)).any s.chSafety
  | some .sse => s.enabled p && (List.range 64).any s.voteRuns
  | _ => false

/-- The pages that share the ENABLE bit of page `p` (R150, R181). -/
def enablePages (p : Nat) : List Nat :=
  if p = 0x18 ∨ p = 0x19 then [0x18, 0x19] else if p = 0x1A ∨ p = 0x1B then [0x1A, 0x1B] else [p]

/-- Aborts of units of page `p` that have no work in hand any more complete (R53, R54). -/
def State.abortsIdle (s : State) (p : Nat) : State :=
  (List.range (abortUnits p)).foldl (fun s u =>
    match s.abortOf p u with
    | some a => if s.workInHand p u then s else s.abortDone p u a.since
    | none => s) s

/-- What a block does when its ENABLE is cleared, after its abort. -/
def State.disabled (s : State) (p : Nat) : State :=
  match pageKind p with
  | some .lpe => (s.loopsOff (List.range 128)).abortsIdle 0x19
  | some .ctx => (s.loopsOff (List.range 128)).abortsIdle 0x19
  | some .cas => s.casOff.abortsIdle 0x1B
  | some .slot => s.casOff.abortsIdle 0x1B
  | some .fb => (s.releaseBank (p - 0x20)).invalidBank (s.bankSlots (p - 0x20))
  | some .scp => ((s.stopDomain (p - 0x10)).put (SCP.PAIR_STAT_SELFTEST_OK (p - 0x10)) 0)
  | some .can => s.canDisable (p - 0x50)
  | some .dbg => s.dbgOff
  | _ => s

/-- What a block does when its ENABLE is set: a pair starts the image at its reset vector, a sequencer's schedule starts. -/
def State.enabledNow (s : State) (p : Nat) : State :=
  match pageKind p with
  | some .scp => s.wakeDomain (p - 0x10)
  | some .lsq => if s.running && !s.schedRun (p - 0x14) then s.schedStart (p - 0x14) false else s
  | _ => s

/-- Set ENABLE of the pages in `l`. -/
def State.putEnable (s : State) (b : Bool) : List Nat → State
  | [] => s
  | p :: t => (s.putB (HDR.PG_CTRL_ENABLE p) b).putEnable b t

/-- Abort every unit of the pages in `l` with reason 0xFE. -/
def State.abortOff (s : State) : List Nat → State
  | [] => s
  | p :: t => (if abortPage p then s.abortAll 0xFE p else s).abortOff t

/-- The registers of the block part of the pages in `l` return to their reset values, but for bits that MRAM, OTP or the switches
hold. DESIGN CHOICE (assumption 37): of the header, whose words below 0x040 R39 does not return to reset, every word is kept. -/
def State.resetPages (s : State) (l : List Nat) : State :=
  { s with regs := mapMap resetWord (fun k w =>
      if l.contains (k / 16777216) && decide (0x40 ≤ k % 4096) then (resetWord k &&& ~~~ mramMask k) ||| (w &&& mramMask k) else w) s.regs }

/-- The safety channels of bank `b` are configured from the stored set again (R280). -/
def State.safetyCfg (s : State) (b : Nat) : State :=
  let l := s.gnt.stored
  let s := ((List.range 128).filter (fun i => psInUsed l i && psInCh l i / 16 == b)).foldl (fun s i => s.cfgIn l i) s
  ((List.range 64).filter (fun j => psOutUsed l j && psOutCh l j / 16 == b)).foldl (fun s j => s.cfgOut l j) s

/-- The slots of class `cls` whose instance satisfies `f` are freed. -/
def State.freeClass (s : State) (cls : Nat) (f : Nat → Bool) : State :=
  { s with sig := mapMap (fun _ => SigSlot.blank) (fun _ r =>
      if tCLASS r.tag == cls && f (tID r.tag) then { r with tag := setBits (setBits (setBits r.tag 24 3 0) 16 8 0) 31 1 0 } else r) s.sig }

/-- What SOFT_RESET does to the block beside its registers (R39, R150, R181): entries are disabled and their slots freed. -/
def State.resetBlock (s : State) (p : Nat) : State :=
  match pageKind p with
  | some .lpe => s.loopsClear (List.range 128)
  | some .ctx => s.loopsClear (List.range 128)
  | some .cas => s.casEmpty (List.range 16)
  | some .slot => s.casEmpty (List.range 16)
  | some .fb =>
    let b := p - 0x20
    let k := s.bank b
    ({ s.freeClass 1 (fun i => i / 16 == b) with chans := s.chans.filter (fun e => e.1 / 16 != b) }).setBank b
      { Bank.blank with supply := k.supply, resetAt := s.mono, fvHold := k.fvHold, fvResume := k.fvResume }
  | some .lsq =>
    let q := p - 0x14
    let s := (s.freeClass 6 (fun i => i / 16 == q)).freeClass 2 (fun i => i / 16 == q)
    let s := { s.setSeq q { Seq.blank with halted := (s.seqOf q).halted } with rix := s.rix.filter (fun e => e.1 / 16 != q) }
    if q = 0 then { s with forces := [], forceAuth := none } else s
  | some .sse => { s.freeClass 3 (fun _ => true) with sess := [] }
  | some .qmg => { s with ringPosted := [] }
  | some .eth => (s.linkLost (p - 0x40)).setEth (p - 0x40) EthPort.blank
  | some .syn => (s.linkLost (p - 0x40)).setEth (p - 0x40) EthPort.blank
  | some .wit => (s.linkLost (p - 0x40)).setEth (p - 0x40) EthPort.blank
  | some .ser => (s.serEnd (p - 0x64)).setSer (p - 0x64) SerPort.blank
  | some .can => s.setCan (p - 0x50) { CanCtl.blank with lastCand := (s.can (p - 0x50)).lastCand }
  | some .rdc => { s with rdc := Rdc.blank }
  | some .slc => { s with slu := { Slu.blank with mram := s.slu.mram } }
  | some .scp => s.setPair (p - 0x10) Pair.blank
  | some .dbg => { s with dmod := DebugMod.blank }
  | some .pnl => s.setPnl { Pnl.blank with shown := s.pnl.shown }
  | some .mpl => { s with mpl := keepMpl s.mpl }
  | some .cis => { s with cis := { s.cis with trks := [] } }
  | _ => s

/-- SOFT_RESET of page `p`; a broken lock-step stays broken until a restart (R254), and a fault of a sequencer's checking hardware stays
(R84, R239). -/
def State.softReset (s : State) (p : Nat) : State :=
  let split := s.get SYS.BOOT_CFG_SPLIT
  let broken := s.on (SCP.PAIR_STAT_LOCK_BROKEN (p - 0x10))
  let s := (s.resetBlock p).resetPages [p]
  match pageKind p with
  | some .fb => s.safetyCfg (p - 0x20)
  | some .scp =>
    (s.putB (SCP.PAIR_STAT_SPLIT (p - 0x10)) (split.testBit (p - 0x10))).putB (SCP.PAIR_STAT_LOCK_BROKEN (p - 0x10)) broken
  | some .lpe => s.showDemand
  | some .ctx => s.showDemand
  | _ => s

/-- A write of `v` to PG_CTRL of page `p` by master number `m` (R39, R465). -/
def State.ctrlWrite (s : State) (p : Nat) (v : Word) (m : Nat) : State :=
  let en := s.enabled p
  let want := v.getLsbD 0
  let reset := v.getLsbD 1
  let deny := decide (want ≠ en) && !fixedEnable p && s.enableLocked p
  let t := if want = en ∨ fixedEnable p = true ∨ deny = true then s
    else if want then (s.putEnable true (enablePages p)).enabledNow p
    else ((s.abortOff (enablePages p)).putEnable false (enablePages p)).disabled p
  let t := if reset && !en then t.softReset p else t
  if deny || (reset && en) then t.lost p 0x00C 4 m else t

end Sys2Proof.Machine
end

