-- ==== Sys2Proof/Machine/Commits.lean ====
section
/-! DEFINITION. The guarded commands of every page (R45, R467) and the effects that a write of a field has beside its value. -/

namespace Sys2Proof.Machine

/-! ### Guarded commands -/

/-- STEP_PERMIT (R71): clearing it cancels a pending step. -/
def State.stepPermit (s : State) (v : Nat) : State :=
  if v = 0 then
    { s.put TKU.SYNC_STAT_STEP_PENDING 0 with tku := { s.tku with stepPend := none, stepArmed := false } }
  else s

/-- PROG_LOAD on sequencer `q` (R117, R380). -/
def State.progLoad (s : State) (q v m : Nat) : State :=
  let a := s.get (LSQ.PROG_SRC q)
  let n := s.get (LSQ.PROG_LEN q)
  if v ≠ 1 then s.badAccess (0x14 + q) 0x400 7 m
  else if n = 0 ∨ 0x400000 < n ∨ a % 4096 ≠ 0 ∨ a < 0x80000000 ∨ 0x100000000 < a + n ∨ s.get (LSQ.PROG_STAT_INACTIVE q) = 3 ∨
    s.on (LSQ.SEQ_STAT_ACT_PENDING q) = true ∨ s.pfw = true then s.lost (0x14 + q) 0x400 4 m
  else s.put (LSQ.PROG_STAT_INACTIVE q) 3

/-- ACTIVATE on sequencer `q` is refused with a result of R118. -/
def State.activateRefuse (s : State) (q r m : Nat) : State := (s.put (LSQ.PROG_STAT_ACT_RESULT q) r).lost (0x14 + q) 0x404 4 m

/-- ACTIVATE on sequencer `q` (R118). Whether a ready standby holds the image is a value that only the standby knows. -/
def State.activateCmd (s : State) (q v m : Nat) : State :=
  if v ≠ 1 then s.badAccess (0x14 + q) 0x404 7 m
  else match s.spare q with
  | none => s.lost (0x14 + q) 0x404 4 m
  | some i =>
    if s.get (LSQ.PROG_STAT_INACTIVE q) ≠ 1 ∨ s.on (LSQ.SEQ_STAT_ACT_PENDING q) = true then s.lost (0x14 + q) 0x404 4 m
    else if !(match s.image q with | none => true | some o => sameSafety o i) then s.activateRefuse q 3 m
    else
      let (s, held) := if s.role = roleACTIVE ∧ s.readyStandby = true then (s.free.1, s.free.2 % 2 == 1) else (s, true)
      if !held then s.activateRefuse q 4 m
      else if s.slotConflict q i then s.activateRefuse q 5 m
      else if s.schedRun q then
        (s.put (LSQ.SEQ_STAT_ACT_PENDING q) 1).setSeq q { s.seqOf q with actSince := some s.mono }
      else
        let s := s.activate q false
        if s.running then s.schedStart q false else s

/-- The tasks in `l` leave FAULT, or the IDLE state of an abort, for WAIT (R95). -/
def State.resumeTasks (s : State) (q : Nat) : List Nat → State
  | [] => s
  | t :: l =>
    let r := s.task q t
    (if s.taskSt q t = tkFAULT ∨ r.stopped = true then
      ((s.setTaskSt q t tkWAIT).put (LSQ.TASK_STAT_FAULT_CAUSE q t) 0).setTask q t { r with stopped := false, consec := 0 }
    else s).resumeTasks q l

/-- TASK_RESUME on sequencer `q` (R95): refused for a safety task. -/
def State.taskResume (s : State) (q v m : Nat) : State :=
  let l := (List.range 8).filter (fun t => v.testBit t && (s.imgTask q t).present)
  if l.any (fun t => (s.imgTask q t).safety) then s.lost (0x14 + q) 0x408 4 m
  else if s.schedRun q then s.resumeTasks q l else s

/-- CTX_CMD on the selected context (R138). -/
def State.ctxCmd (s : State) (v m : Nat) : State :=
  let c := s.get CTX.CTX_SEL
  if v = 0 ∨ 3 < v then s.badAccess 0x19 0x400 7 m
  else if s.cmdOk c v then s.loopCommand c v else s.lost 0x19 0x400 4 m

/-- SLOT_CMD on the selected slot (R163, R178, R180, R185): 1 LOAD, 2 UNLOAD, 3 REFRESH, 4 COLD. -/
def State.slotCmd (s : State) (v m : Nat) : State :=
  let k := s.get SLOT.SLOT_SEL
  let st := s.casSt k
  if v = 0 ∨ 4 < v then s.badAccess 0x1B 0x400 7 m
  else if v = 1 ∧ (st = csEMPTY ∨ st = csFAILED) then s.casLoad k
  else if v = 2 ∧ (st = csLOADED ∨ st = csFAILED) then s.casClear k
  else if v = 3 ∧ ¬ (st = csEMPTY ∨ st = csLOADING ∨ st = csFAILED) then s.casReq k
  else if v = 4 ∧ s.casEn k = true then s.put (SLOT.SLOT_STAT_COLD_PENDING k) 1
  else s.lost 0x1B 0x400 4 m

/-- REVERT_INHIBIT (R371): 1 set, 2 clear, with the proof of purpose 5. -/
def State.revertInhibit (s : State) (v m : Nat) : State :=
  if v = 0 ∨ 2 < v then s.badAccess 0x05 0x404 7 m
  else
    let (s, ok) := s.credSubmit 5 [] 0x05 0x404 m
    if ok then s.putB RDC.REVERT_STAT_INHIBITED (v == 1) else s

/-- The guarded register at offset `off` of page `p` is commanded with `v` by master number `m`. -/
def State.guarded (s : State) (p off v m : Nat) : State :=
  match pageKind p with
  | some .sys =>
    if off = 0x400 then s.featCommit v m else if off = 0x404 then s.stateReq v m
    else if off = 0x408 then s.imgUpdStart v m else s.bootSelect v m
  | some .tku => s.stepPermit v
  | some .lsq =>
    let q := p - 0x14
    if off = 0x400 then s.progLoad q v m else if off = 0x404 then s.activateCmd q v m
    else if off = 0x408 then s.taskResume q v m
    else if off = 0x410 then (if v = 0 ∨ 3 < v then s.badAccess p off 7 m else s.forceCmd v m)
    else if v ≠ 1 then s.badAccess p off 7 m else s.forceAuthSubmit m
  | some .ctx => s.ctxCmd v m
  | some .slot => s.slotCmd v m
  | some .dbg => s.dbgAuthSubmit v m
  | some .gnt =>
    if off = 0x400 then s.psetLoad v m else if off = 0x404 then s.commission v m else s.credChange v m
  | some .sse => s.sessAck v m
  | some .rdc =>
    if off = 0x404 then s.revertInhibit v m
    else if v ≠ 1 then s.badAccess p off 7 m else s.handoverReq m
  | some .cis => s.cisCmd v m
  | some .mpl => s.mplCmd v m
  | some .pnl => s.pnlCmd v m
  | _ => s

/-- The bits of a guarded register that a row of its page defines: the others are RSV, whose writes are ignored (R40). -/
def grdMask (p off : Nat) : Word :=
  BitVec.ofNat 32 (((rowsAt p off).filter (fun r => r.ty == .grd)).map (fun r => (2 ^ r.w - 1) * 2 ^ r.lo)).sum

/-- A guarded write passes R45 and is judged by its value (R467): an accepted value stays in the register (R48). Whether the
command was refused is told by a cause in PG_ERR_ADDR. -/
def State.guardCommit (s : State) (p off : Nat) (v : Word) (m : Nat) : State :=
  let v := v &&& grdMask p off
  let f := HDR.PG_ERR_ADDR_CAUSE p
  let old := s.get f
  let t := (s.put f 0).guarded p off v.toNat m
  if t.get f ≠ 0 ∨ (t.mstate = stBOOT ∧ s.mstate ≠ stBOOT) then t
  else (t.put f old).wr (rkey p 0 off) v

/-! ### Effects of field writes -/

/-- SERVO_CTRL (R69, R70): INTEG_CLR empties the integral; with SERVO_EN cleared HOLDOVER is 0 and the holdover timer stops, and it
starts from zero when SERVO_EN is set. -/
def State.servoCtrl (s old : State) (v : Word) : State :=
  let s := if v.getLsbD 2 then s.put TKU.INTEG 0 else s
  let en := s.on TKU.SERVO_CTRL_SERVO_EN
  if en = old.on TKU.SERVO_CTRL_SERVO_EN then s
  else if en then { s with tku := { s.tku with holdSince := if s.tku.accepted then some s.mono else none } }
  else { s.put TKU.SYNC_STAT_HOLDOVER 0 with tku := { s.tku with holdSince := none } }

/-- The effects beside the stored value when the word at offset `off` of page `p` has been written: `old` is the state before the
write, `v` the word written, `m` the master. -/
def State.afterWrite (s old : State) (p off : Nat) (v : Word) (m : Nat) : State :=
  match pageKind p with
  | some .clo => if off = 0x04C then s.wakeHeld else s
  | some .tku => if off = 0x058 then s.servoCtrl old v else s
  | some .lpe => if off = 0x05C then { s.put LPE.QUERY_DONE 0 with lpeQuery := s.get LPE.QUERY_FREQ_MHZ } else s
  | some .cas => if off = 0x05C then { s.put CAS.QUERY_DONE 0 with casQuery := s.get CAS.QUERY_FREQ_MHZ } else s
  | some .fb =>
    let b := p - 0x20
    let i := (off - 0x800) / 32
    let ch := 16 * b + i
    if off = 0x05C ∧ s.rd (rkey p 0 off) = old.rd (rkey p 0 off) then s
    else if off = 0x05C then
      let on := FB.TRIP_SLOT_EN b
      let n := FB.TRIP_SLOT_SLOT b
      let s := if old.on on then (if old.isProducer (old.get n) 1 (16 * b) then s.freeSlot (old.get n) else s) else s
      if s.on on then s.claim (s.get n) 1 (16 * b) else s
    else if 0x800 ≤ off ∧ off < 0xA00 ∧ off % 32 = 0x04 ∧ s.chSafety ch = true ∧ s.chSlot ch ≠ old.chSlot ch then
      let s := if old.isProducer (old.chSlot ch) 1 ch then s.freeSlot (old.chSlot ch) else s
      if s.chSlot ch = 0 ∨ !isDI (s.chType ch) ∨ s.otherProducer (s.chSlot ch) 1 ch then s else s.claim (s.chSlot ch) 1 ch
    else if 0x800 ≤ off ∧ off < 0xA00 ∧ off % 32 = 0 ∧ s.chType ch ≠ old.chType ch then s.chFresh ch
    else if 0x800 ≤ off ∧ off < 0xA00 ∧ off % 32 = 0 then s.showDO ch
    else if 0x800 ≤ off ∧ off < 0xA00 ∧ off % 32 = 0x08 ∧ s.rd (rkey p 0 off) ≠ old.rd (rkey p 0 off) then s.reloadFilt ch
    else s
  | some .eth =>
    if off = 0x040 ∧ bits (s.rd (rkey p 0 off)) 0 2 ≠ bits (old.rd (rkey p 0 off)) 0 2 then s.linkLost (p - 0x40) else s
  | some .can =>
    if off = 0x088 ∧ v.getLsbD 0 = true then s.canRecover (p - 0x50) else if off = 0x044 then s.frameTime (p - 0x50) else s
  | some .dbg => if off = 0x058 ∧ bits v 0 2 ≠ 0 then s.dmiOp (bits v 0 2) m else s
  | some .gnt => if 0x140 ≤ off ∧ off < 0x160 then s.wr (rkey p 0 off) v else s
  | _ => s

/-! ### Ring indices (R312) -/

/-- Software posts entries of ring `r` up to its new producer index: the time of each is noted for HOLDOFF_US (R316). -/
def State.notePosts (s : State) (r from' : Nat) : Nat → State
  | 0 => s
  | n + 1 => { s with ringPosted := mapSet (fun _ => 0) s.ringPosted (postKey r from') s.mono }.notePosts r (from' + 1) n

/-- A software write of index `v` to the selected ring `r` by master number `m`: `prod` tells which index. -/
def State.ringIndex (s : State) (r : Nat) (prod : Bool) (v m : Nat) : State :=
  let off := if prod then 0x060 else 0x064
  let pi := s.get (QMG.RING_PROD_PROD_IDX r)
  let ci := s.get (QMG.RING_CONS_CONS_IDX r)
  let side := if prod then QMG.RING_EP_PROD_CLASS r else QMG.RING_EP_CONS_CLASS r
  let fill := if prod then (v + 65536 - ci) % 65536 else (pi + 65536 - v) % 65536
  if v = (if prod then pi else ci) then s
  else if s.get side ≠ epSoft ∨ s.get (QMG.RING_CFG_MASTER r) ≠ m then s.lost 0x0A off 4 m
  else if s.ringSize r < fill then s.badAccess 0x0A off 7 m
  else if prod then (s.notePosts r pi ((v + 65536 - pi) % 65536)).put (QMG.RING_PROD_PROD_IDX r) v
  else s.put (QMG.RING_CONS_CONS_IDX r) v

end Sys2Proof.Machine
end

