-- ==== Sys2Proof/Machine/Bus.lean ====
section
/-! DEFINITION. Bus accesses (R28, R29, R36, R39 to R49, R465, R467): the address map, register pages with their guarded windows and
shadows, the signal image, the apertures and plain memory. -/

namespace Sys2Proof.Machine

/-! ### Masters and error responses -/

/-- The number of the bus master: the two cores of an unsplit pair are core `2 p` (R35), the mhartid that both report (R235). -/
def State.masterNo (s : State) (m : Master) : Nat :=
  match m with
  | .core h => if s.isSplit (h.val / 2) then h.val else 2 * (h.val / 2)
  | .user h => if s.isSplit (h.val / 2) then h.val else 2 * (h.val / 2)
  | _ => masterCode m

/-- An error response (R29, R49): a core takes an access fault. -/
def State.errorResponse (s : State) (m : Nat) : State :=
  let s := { s with resp := .error }
  if m < 8 then s.coreFault m else s

/-- An access that no page counts is refused (R29): an error response, and ACCESS in the header of another master's own page. DESIGN
CHOICE (assumption 38): a master coded 31, whose own page the spec does not name, records it nowhere. -/
def State.busError (s : State) (m : Nat) : State :=
  let s := s.errorResponse m
  if m = 8 then s.bump (HDR.PG_ERR_CNT_ACCESS 0x90)
  else if m = 9 then s.bump (HDR.PG_ERR_CNT_ACCESS 0x0A)
  else s

/-! ### Guarded windows (R45 to R47) -/

/-- The open guarded write of page `p`. -/
def State.guardOf (s : State) (p : Nat) : Option GuardOpen := (s.guards.find? (fun e => e.1 == p)).map (·.2)

/-- 256 cycles of the clock of page `p`, in ns (R47). -/
def guardWindow (p : Nat) : Nat := if p = 0x01 ∨ p = 0x03 ∨ p = 0x04 then 10240 else if p = 0x07 then 32000 else 2560

/-- Close the guarded write of page `p`. -/
def State.guardClose (s : State) (p : Nat) : State := { s with guards := mapDel s.guards p }

/-- An open guarded write whose window has passed counts as a timeout (R45). -/
def State.guardExpire (s : State) (p : Nat) : State :=
  match s.guardOf p with
  | none => s
  | some g => if g.since + guardWindow p < s.mono then (s.guardClose p).badGuard p g.off 6 g.master else s

/-- A write to page `p` at `off` by `m` breaks an open guarded write (R46). -/
def State.guardBreak (s : State) (p off m : Nat) : State :=
  match s.guardOf p with
  | none => s
  | some _ => (s.guardClose p).badGuard p off 5 m

/-- A guarded register lies at offset `off` of page `p`. -/
def isGrd (p off : Nat) : Bool := (rowsAt p off).any (fun r => r.ty == .grd)

/-- The guarded value window of a page (R33, R45). -/
def guardValue (off : Nat) : Bool := decide (0x400 ≤ off) && decide (off < 0x600)

/-- A write into the guarded value window: it opens a guarded write (R45). -/
def State.guardOpen (s : State) (p off : Nat) (v : Word) (m : Nat) : State :=
  let s := s.guardBreak p off m
  { s with guards := mapIns p ⟨off, v, m, s.mono⟩ s.guards }

/-- A write into the guarded complement window (R45, R46). -/
def State.guardComplement (s : State) (p off : Nat) (v : Word) (m : Nat) : State :=
  match s.guardOf p with
  | none => s.badGuard p off 5 m
  | some g =>
    if off = g.off + 0x200 ∧ m = g.master ∧ v = ~~~ g.value then
      (if isGrd p g.off then (s.guardClose p).guardCommit p g.off g.value m else s.guardClose p)
    else s.guardBreak p off m

/-! ### Multi-word values (R42 to R44) -/

/-- A LAT field lies at offset `off` of page `p`. -/
def isLat (p off : Nat) : Bool := (rowsAt p off).any (fun r => r.ty == .lat)

/-- The high and fraction words of the multi-word value whose low word lies at `off`; none for another word. -/
def latsOf (p off : Nat) : List Nat :=
  if isLat p off || !isLat p (off + 4) then [] else if isLat p (off + 8) then [off + 4, off + 8] else [off + 4]

/-- The key of the shadow of master `m` for the word at `off` of page `p`. DESIGN CHOICE (assumption 37): one shadow of a windowed
value per master and offset, whatever unit is selected, which R44 leaves open. -/
def shKey (m p off : Nat) : Nat := m * 2 ^ 32 + rkey p 0 off

/-- The key of the shadow of master `m` for the tag of slot `n`. -/
def sigKey (m n : Nat) : Nat := 2 ^ 40 + m * 8192 + n

/-- A read shadow: 0 before the first low-word read (R42). -/
def State.rsh (s : State) (k : Nat) : Word := mapGet (fun _ => 0) s.rshadow k

/-- Set a read shadow. -/
def State.setRsh (s : State) (k : Nat) (v : Word) : State := { s with rshadow := mapSet (fun _ => 0) s.rshadow k v }

/-- A write shadow, empty or not (R43). -/
def State.wsh (s : State) (k : Nat) : Option Word := mapGet (fun _ => none) s.wshadow k

/-- Set or empty a write shadow. -/
def State.setWsh (s : State) (k : Nat) (v : Option Word) : State := { s with wshadow := mapSet (fun _ => none) s.wshadow k v }

/-- Empty the write shadows of master `m` for the words in `l`. -/
def State.emptyWsh (s : State) (m p : Nat) : List Nat → State
  | [] => s
  | o :: t => (s.setWsh (shKey m p o) none).emptyWsh m p t

/-- The writable bits of a word of a multi-word value. -/
def wordMask (p off : Nat) : Word := BitVec.ofNat 32 (((rowsAt p off).map (fun r => (2 ^ r.w - 1) * 2 ^ r.lo)).sum)

/-- Write words of a multi-word value at their offsets. -/
def State.wrWords (s : State) (p u : Nat) : List (Nat × Word) → State
  | [] => s
  | (o, w) :: t => (s.wr (rkey p u o) w).wrWords p u t

/-- The addend and the offset of the servo are refused by state, and an addend of 0 whole ns by value (R67, R69). -/
def State.groupCause (s : State) (p off : Nat) (v : Word) (l : List (Nat × Word)) : Nat :=
  let u := s.unitOf p off
  if (rowsAt p off).any (fun r => s.locked p u off r (bits v r.lo r.w)) then 4
  else if p = 0x04 ∧ off = 0x050 then
    if s.on TKU.SERVO_CTRL_SERVO_EN then 4 else if l.any (fun e => e.1 == 0x054 && bits e.2 0 8 == 0) then 7 else 0
  else 0

/-- A write of the low word of a multi-word value (R43): it commits the low word with what the write shadow holds. -/
def State.groupWrite (s : State) (p off : Nat) (v : Word) (m : Nat) : State :=
  let u := s.unitOf p off
  let his := (latsOf p off).map (fun o => (o, match s.wsh (shKey m p o) with
    | some w => w &&& wordMask p o
    | none => s.rd (rkey p u o)))
  let words := (off, v &&& wordMask p off) :: his
  let rows := rowsAt p off
  let t := s.emptyWsh m p (latsOf p off)
  if p = 0x04 ∧ off = 0x060 then
    let hi := (his.map (·.2)).headD 0
    (if s.offsetRefused then t else t.wrWords p u his).offsetCommit (hi ++ v).toInt m
  else if !rows.any (fun r => r.ty == .rw || r.ty == .rwh) || words.all (fun e => e.2 == s.rd (rkey p u e.1)) then t
  else
    let c := s.groupCause p off v words
    if c = 4 then t.lost p off 4 m else if c = 7 then t.badAccess p off 7 m else t.wrWords p u words

/-! ### Register writes -/

/-- A write to a register of fields (R40, R465). -/
def State.fieldsWrite (s : State) (p off : Nat) (v : Word) (m : Nat) : State :=
  if rowsAt p off = [] ∨ s.anHidden p off = true then s
  else
    let u := s.unitOf p off
    let key := rkey p u off
    let old := s.rd key
    let j := s.judge p u off old v
    let t := (s.wr key (mergeRows old v (j.good.filter (fun r => !isEnable p r)))).afterWrite s p off v m
    let e := match j.good.find? (isEnable p) with
      | some r => t.enableWrite p u (r.idx off) (bits v r.lo r.w)
      | none => (t, 0)
    if !j.bad4.isEmpty || e.2 == 4 then e.1.lost p off 4 m
    else if !j.bad7.isEmpty || e.2 == 7 then e.1.badAccess p off 7 m
    else e.1

/-- One byte of a PG_ERR_CNT write: 0xFF leaves the counter (R36). -/
def State.loadCnt (s : State) (f : Fld) (n : Nat) : State := if n = 0xFF then s else s.put f n

/-- One byte of a PG_ERR_CNT write whose counter counts 1 in the same cycle: the written value plus one, saturating (R40). -/
def State.loadCntPlus (s : State) (f : Fld) (n : Nat) : State := if n = 0xFF then s else s.put f (n + 1)

/-- A write of PG_ERR_CNT (R36). `broke`: the write itself broke a guarded write, which GUARD counts in the same cycle, so that it
loads the written value plus one, saturating (R40, R46). -/
def State.errCntWrite (s : State) (p : Nat) (v : Word) (broke : Bool) : State :=
  let t := (s.loadCnt (HDR.PG_ERR_CNT_LOST p) (bits v 24 8)).loadCnt (HDR.PG_ERR_CNT_ACCESS p) (bits v 16 8)
  if broke then t.loadCntPlus (HDR.PG_ERR_CNT_GUARD p) (bits v 8 8) else t.loadCnt (HDR.PG_ERR_CNT_GUARD p) (bits v 8 8)

/-- A write of PG_ABORT (R51, R54). -/
def State.abortWrite (s : State) (p : Nat) (v : Word) (m : Nat) : State :=
  if abortPage p = true ∧ 0xAB000000 ≤ v.toNat ∧ v.toNat ≤ 0xAB00007F then s.abort (v.toNat % 256) p (s.abortUnit p)
  else s.badAccess p 0x014 7 m

/-- A write outside the guarded windows. -/
def State.plainWrite (s : State) (p off : Nat) (v : Word) (m : Nat) (broke : Bool) : State :=
  if off = 0x00C then s.ctrlWrite p v m
  else if off = 0x014 then s.abortWrite p v m
  else if off = 0x028 then s.errCntWrite p v broke
  else if p = 0x0A ∧ off = 0x060 then s.ringIndex (s.get QMG.RING_SEL) true (bits v 0 16) m
  else if p = 0x0A ∧ off = 0x064 then s.ringIndex (s.get QMG.RING_SEL) false (bits v 0 16) m
  else if isLat p off then s.setWsh (shKey m p off) (some v)
  else if latsOf p off ≠ [] then s.groupWrite p off v m
  else s.fieldsWrite p off v m

/-- An aligned 32-bit write to page `p` at offset `off` by master number `m`. The GNT page refuses writes while its supply is absent
(R277). -/
def State.pageWrite (s : State) (p off : Nat) (v : Word) (m : Nat) : State :=
  let s := s.guardExpire p
  if p = 0x07 ∧ s.gnt.stopped = true then (s.guardBreak p off m).lost p off 4 m
  else if 0x600 ≤ off ∧ off < 0x800 then s.guardComplement p off v m
  else if guardValue off then s.guardOpen p off v m
  else (s.guardBreak p off m).plainWrite p off v m (s.guardOf p).isSome

/-- The guarded write of `v` at offset `off` of page `p`: the value, then its complement, by one master (R45). -/
def State.guardedWrite (s : State) (p off : Nat) (v : Word) (m : Nat) : State :=
  (s.pageWrite p off v m).pageWrite p (off + 0x200) (~~~ v) m

/-! ### Register reads (R40, R42, R48) -/

/-- The bits of a word that read 0 because they are WO. -/
def woMask (p off : Nat) : Word :=
  BitVec.ofNat 32 (((rowsAt p off).filter (fun r => r.ty == .wo)).map (fun r => (2 ^ r.w - 1) * 2 ^ r.lo)).sum

/-- The value of the word at `off` as it reads. -/
def State.shown (s : State) (p off : Nat) : Word := s.regWord p off &&& ~~~ woMask p off

/-- Copy the words in `l` into the read shadow of master `m`: those of a WO value read 0. -/
def State.latch (s : State) (m p off : Nat) : List Nat → State
  | [] => s
  | o :: t => (s.setRsh (shKey m p o) (if (rowsAt p off).any (fun r => r.ty == .wo) then 0 else s.regWord p o)).latch m p off t

/-- The word shows a quantity that the manual leaves open (logic-side power and temperature, a transceiver delay). -/
def showsFree (p off : Nat) : Bool :=
  off == 0x04C && (match pageKind p with | some .fb => true | some .can => true | _ => false)

/-- A read of the word at offset `off` of page `p` by master `m`; `latch` tells whether byte 0 is included. -/
def State.pageRead (s : State) (p off m : Nat) (latch : Bool) : State × Word :=
  let s := s.guardExpire p
  if 0x600 ≤ off ∧ off < 0x800 then
    (s, if isGrd p (off - 0x200) then ~~~ (s.shown p (off - 0x200)) else 0)
  else if isLat p off then (s, s.rsh (shKey m p off))
  else
    let w := s.shown p off
    let s := if showsFree p off then { s with freshCtr := s.freshCtr + 1 } else s
    (if latch then s.latch m p off (latsOf p off) else s, w)

/-! ### The signal image on the bus (R19, R20) -/

/-- A bus write refused under R19: class 7 for a core, 0 for every other master. -/
def State.sigRefused (s : State) (n m : Nat) : State := s.sigRefuse n (if m < 8 then 7 else 0) m

/-- A write of the tag word of slot `n`: into the write shadow of the core that is its producer (R19, R20). -/
def State.sigTag (s : State) (n : Nat) (v : Word) (m : Nat) : State :=
  if 8 ≤ m ∨ s.isProducer n 7 m = false then s.sigRefused n m else s.setWsh (sigKey m n) (some v)

/-- A write of the value word of slot `n` (R20): with a tag in the write shadow a post, else the value alone. -/
def State.sigValue (s : State) (n : Nat) (v : Word) (m : Nat) : State :=
  let k := sigKey m n
  let tag := s.wsh k
  let t := s.setWsh k none
  if 8 ≤ m ∨ s.isProducer n 7 m = false then t.sigRefused n m
  else match tag with
  | some w => t.post n 7 m v (tVALID w) (tLATE w) (tSUBST w) (tSAT w) (tAGE w)
  | none => t.setSlot n { t.slotRaw n with value := v }

/-- A word read of the signal image at offset `o`: the value word latches the tag. -/
def State.sigRead (s : State) (o m : Nat) (latch : Bool) : State × Word :=
  let n := o / 8
  if o % 8 = 0 then
    let r := s.slotView n
    (if latch then s.setRsh (sigKey m n) r.tag else s, r.value)
  else (s, s.rsh (sigKey m n))

/-! ### The address map (R28) -/

/-- A region of the address map as a master sees it. -/
inductive Region
  /-- Plain memory; the key of the addressed byte. -/
  | mem (key : Nat)
  | mram
  | sig
  | page (p : Nat)
  | lpe
  | cas
  | none
deriving DecidableEq, Repr

/-- The region of address `a` for master number `m`: a tightly coupled memory is seen by its own core alone. -/
def regionOf (m a : Nat) : Region :=
  if a < 0x40000 then (if m < 8 then .mem (tcmKey m 0 a) else .none)
  else if 0x01000000 ≤ a ∧ a < 0x01040000 then (if m < 8 then .mem (tcmKey m 1 (a - 0x01000000)) else .none)
  else if 0x20000000 ≤ a ∧ a < 0x21000000 then .mem a
  else if 0x30000000 ≤ a ∧ a < 0x30010000 then .sig
  else if 0x40000000 ≤ a ∧ a < 0x40091000 then
    (if (pageKind ((a - 0x40000000) / 4096)).isSome then .page ((a - 0x40000000) / 4096) else .none)
  else if (apertureCtx a).isSome then .lpe
  else if casMem ≤ a ∧ a < casMem + casSize then .cas
  else if 0x70000000 ≤ a ∧ a < 0x72000000 then .mram
  else if 0x80000000 ≤ a ∧ a < 0x100000000 then .mem a
  else .none

/-- The page that counts refused accesses to a region with the rules of R49, and the offset it shows; none where no page counts. -/
def countPage (r : Region) (a : Nat) : Option (Nat × Nat) :=
  match r with
  | .page p => some (p, a % 4096)
  | .lpe => some (0x19, a % 4096)
  | .cas => some (0x1A, a % 4096)
  | _ => none

/-- The region follows the access rules of R49. -/
def wordRegion (r : Region) : Bool := match r with | .page _ => true | .lpe => true | .cas => true | .sig => true | _ => false

/-- A narrow or unaligned access is refused with an error response and counted as ACCESS (R49). -/
def State.refuseAccess (s : State) (r : Region) (a cause m : Nat) : State :=
  match countPage r a with
  | some (p, off) => (s.badAccess p off cause m).errorResponse m
  | none => s.busError m

/-- A region that a core in user mode cannot reach: register pages, apertures and MRAM (R30, R250). -/
def privRegion (r : Region) : Bool :=
  match r with | .page _ => true | .lpe => true | .cas => true | .mram => true | _ => false

/-- The access of `size` bytes at address `a` is barred to master `m`: it is in user mode, and a byte lies in a region that this mode
cannot reach (R250). -/
def State.barred (s : State) (m : Master) (a size : Nat) : Bool :=
  isUser m && (privRegion (regionOf (s.masterNo m) a) || privRegion (regionOf (s.masterNo m) (a + size - 1)))

/-- Mark a written block of an application region for the Sluice (R363). -/
def State.markApp (s : State) (a : Nat) : State :=
  if s.appRegions.any (fun x => decide (x.2.1 ≤ a) && decide (a < x.2.1 + x.2.2)) && !s.slu.marks.contains (a / 256) then
    { s with slu := { s.slu with marks := s.slu.marks ++ [a / 256] } }
  else s

/-- A write to CAS memory (R161). -/
def State.casWrite (s : State) (a : Nat) (v : Word) (m : Nat) : State :=
  match s.casOwner (a - casMem) with
  | some k => s.casRefused a m k
  | none => s.setLE a 4 v.toNat

/-- A 32-bit write inside a region with the rules of R49. -/
def State.wordWrite (s : State) (r : Region) (a : Nat) (v : Word) (m : Nat) : State :=
  match r with
  | .page p => s.pageWrite p (a % 4096) v m
  | .lpe => s.apertureWrite a v m
  | .cas => s.casWrite a v m
  | .sig =>
    let o := a - 0x30000000
    if o % 8 = 0 then s.sigValue (o / 8) v m else s.sigTag (o / 8) v m
  | _ => s

/-- A read of the 32-bit word at `a` inside a region with the rules of R49; `latch` as for a page. -/
def State.wordRead (s : State) (r : Region) (a m : Nat) (latch : Bool) : State × Word :=
  match r with
  | .page p => s.pageRead p (a % 4096) m latch
  | .lpe => (s, if apertureRsv a then 0 else BitVec.ofNat 32 (s.mem32 a))
  | .cas => (s, BitVec.ofNat 32 (s.mem32 a))
  | .sig => s.sigRead (a - 0x30000000) m latch
  | _ => (s, 0)

/-- A write of `size` bytes of `v` at address `a` by master number `m` (R28, R29, R49). -/
def State.busWrite (s : State) (m a size : Nat) (v : BitVec 64) : State :=
  let r := regionOf m a
  let s := { s with resp := .done }
  if wordRegion r then
    if a % size ≠ 0 then s.refuseAccess r a 2 m
    else if size < 4 then s.refuseAccess r a 1 m
    else if size = 8 then
      (s.wordWrite r a (v.extractLsb' 0 32) m).wordWrite (regionOf m (a + 4)) (a + 4) (v.extractLsb' 32 32) m
    else s.wordWrite r a (v.extractLsb' 0 32) m
  else match r, regionOf m (a + size - 1) with
  | .mem k, .mem _ => ((s.setLE k size v.toNat).markApp a).markApp (a + size - 1)
  | .mram, .mram =>
    if 0x71000000 ≤ a + size - 1 ∧ a < 0x71400000 then s.lost 0x08 (a % 4096) 4 m else s.setLE a size v.toNat
  | _, _ => s.busError m

/-- A read of `size` bytes at address `a` by master number `m`. -/
def State.busRead (s : State) (m a size : Nat) : State :=
  let r := regionOf m a
  if wordRegion r then
    if a % size ≠ 0 then s.refuseAccess r a 2 m
    else if size = 8 then
      let (s, lo) := s.wordRead r a m true
      let (s, hi) := s.wordRead (regionOf m (a + 4)) (a + 4) m true
      { s with resp := .data (hi ++ lo) }
    else
      let (s, w) := s.wordRead r (a / 4 * 4) m (a % 4 == 0)
      { s with resp := .data (BitVec.ofNat 64 (w.toNat / 2 ^ (8 * (a % 4)) % 2 ^ (8 * size))) }
  else match r, regionOf m (a + size - 1) with
  | .mem k, .mem _ => { s with resp := .data (BitVec.ofNat 64 (s.mem_le k size)) }
  | .mram, .mram =>
    let w := s.mem_le a size
    if 0x71000000 ≤ a + size - 1 ∧ a < 0x71040000 then
      { s with resp := .data (BitVec.ofNat 64 ((Config.freeWord s.freshCtr).toNat % 2 ^ (8 * size))), freshCtr := s.freshCtr + 1 }
    else { s with resp := .data (BitVec.ofNat 64 w) }
  | _, _ => s.busError m

/-- A write by master `m` in its mode (R250). -/
def State.masterWrite (s : State) (m : Master) (a size : Nat) (v : BitVec 64) : State :=
  if s.barred m a size then s.busError (s.masterNo m) else s.busWrite (s.masterNo m) a size v

/-- A read by master `m` in its mode (R250). -/
def State.masterRead (s : State) (m : Master) (a size : Nat) : State :=
  if s.barred m a size then s.busError (s.masterNo m) else s.busRead (s.masterNo m) a size

end Sys2Proof.Machine
end

