-- ==== Sys2Proof/Machine/Ticks.lean ====
section
/-! DEFINITION. The commands of the tick and of the clocks: phases of R15, clock starts and monitors (R10 to R14, R62, R63, R440),
holdover and steps (R70 to R74). -/

namespace Sys2Proof.Machine

/-- The outcome of a command: the next state, with the sends that follow a group post and ABORTED as it then reads. -/
def State.done (s old : State) : Host.Outcome State Fault Refusal := .next (s.settle old)

/-! ### Phases of the tick (R15) -/

/-- The tick generator at the next tick boundary (R65, R72, R73): a step pending now is applied at this boundary. -/
def State.tickOver (s : State) : State :=
  let s := s.untilTime s.tku.next
  { s with tku := { s.tku with base := s.tku.next, grid := s.tku.next, tickStart := s.tku.ns, next := s.tku.next + 100000, ticks := s.tku.ticks + 1,
                               seam := false, stepArmed := s.tku.stepPend.isSome, snapped := false, cut := false } }

/-- Every 10 000th tick ends a second of LOAD: lane time in 0.01 % (R153, R184). -/
def State.loadOver (s : State) : State :=
  if s.tku.ticks % 10000 = 0 then
    let a := min (s.lpeBusy / 1062600000) 0xFFFF
    let b := min (s.casBusy / 100000) 0xFFFF
    let s := (s.put LPE.LOAD_LAST a).put LPE.LOAD_MAX (max a (s.get LPE.LOAD_MAX))
    let s := (s.put CAS.LOAD_LAST b).put CAS.LOAD_MAX (max b (s.get CAS.LOAD_MAX))
    { s with lpeBusy := 0, casBusy := 0 }
  else s

/-- An ACTIVE member whose leases have expired is lapsed (R352). -/
def State.leaseTick (s : State) : State :=
  if s.mstate == stRUN && s.redundant && s.role == roleACTIVE && !s.on RDC.ROLE_LAPSED && !s.leaseValid then s.lapse else s

/-- The redundancy controller at a tick boundary: READY is followed, an expired lease lapses, driving may begin, a tick driven is noted
(R202, R352, R370). -/
def State.rdcTick (s : State) : State :=
  let s := s.trackReady.leaseTick
  let s := if s.driveStarts then s.startDriving else s
  if s.mstate == stRUN && s.on RDC.ROLE_DRIVING then { s with rdc := { s.rdc with lastDrive := some s.mono } } else s

/-- A release instant of loop context `c`, and the delta group that follows it (R127, R360). -/
def State.releaseLoop (s : State) (c : Nat) (done : Bool) : State := (s.loopRelease c done).sluiceDelta [srcKey 2 c]

/-- The release instant of each context in `l` that has one in this tick and whose work was not reported complete at it (R147). -/
def State.releasesLeft (s : State) : List Nat → State
  | [] => s
  | c :: t => (if s.loopRelDue c then s.releaseLoop c false else s).releasesLeft t

/-- The second tick boundary after an abort of a loop context: it enters FALLBACK (R149). -/
def State.loopAborts (s : State) : State :=
  (s.loops.filter (fun e => e.2.aborting && decide (e.2.abTick + 2 ≤ s.tku.ticks))).foldl (fun s e => s.abortComplete 0x19 e.1) s

/-- TICK_BOUNDARY (R15, R399): releases not carried out are overruns; epochs that are due close, ages count, staged outputs are applied,
inputs sampled. `field` holds measured currents. -/
def execTickBoundary (field : List FieldSample) (s : State) : Host.Outcome State Fault Refusal :=
  State.done (((((((((s.releasesLeft (List.range 128)).tickOver.loopAborts.measureAll field).ageAll).bankTicks (List.range 16)).hartLinks s (List.range 16)).epochs).rdcTick).sluiceSecond).loadOver).wakesDue s

/-- The work of the snapshot instant (R15 step 3). -/
def State.snapshot (s : State) : State :=
  let s := (s.untilTime (s.tku.base + 25000)).clocksForWork
  let s := { s with tku := { s.tku with snapped := true } }
  ((s.cisSnapshot.seqSnapshots ((List.range 4).filter (fun q => s.enabled (0x14 + q)))).lpeSnapshot).casSnapshot

/-- SNAPSHOT_INSTANT (R15): once in a tick, before its stage cutoff. -/
def execSnapshotInstant (s : State) : Host.Outcome State Fault Refusal :=
  State.done (if s.tku.snapped || s.tku.cut then s else s.snapshot) s

/-- STAGE_CUTOFF (R15, R73): 10 µs before the next tick boundary, once in a tick; releases not carried out are overruns (R147). -/
def execStageCutoff (s : State) : Host.Outcome State Fault Refusal :=
  let t := (s.releasesLeft (List.range 128)).untilTime (s.tku.next - 10000)
  State.done (if s.tku.cut then s else ({ t with tku := { t.tku with cut := true } }.stageBanks (List.range 16)).wakesDue) s

/-! ### Clocks -/

/-- The start-up task or the error task of sequencer `q` waits for a snapshot instant (R106, R107). -/
def State.seqWaits (s : State) (q : Nat) : Bool :=
  let v := s.seqOf q
  s.schedRun q && ((v.startPend && s.taskSt q 8 == tkWAIT) || (v.errPend != 0 && !v.errDead && (s.imgTask q 9).present))

/-- Slot `k` of Cascade has a load, a request for a refresh or a refresh in hand (R163, R177). -/
def State.casBusyWith (s : State) (k : Nat) : Bool :=
  s.casSt k == csLOADING || (s.casSlot k).req || s.on (SLOT.SLOT_STAT_FACT_BUSY k)

/-- Domain `d` has pending work (R13): an unfinished task or CAL, a period in hand, a slot with work; a pair a call in hand, a pending
interrupt, or, in lock-step, no retired WFI (R246). -/
def State.pendingWork (s : State) (d : Nat) : Bool :=
  if d < 4 then (List.range 10).any (fun t => s.taskSt d t == tkCAL) || s.extIrq d false || s.extIrq d true ||
    (s.pair d).agreed != 0 || (s.pairLocked d && !(s.pair d).wfi)
  else if d < 8 then (List.range 10).any (fun t => (s.task (d - 4) t).isOpen || (s.task (d - 4) t).due) || s.seqWaits (d - 4)
  else if d = 8 then s.loopsEn.any (fun c => (s.loop c).job.isSome)
  else (List.range 16).any (fun k => s.casHasWork k || s.casBusyWith k)

/-- DOMAIN_WAKE (R11): the clock of domain `d` is started, if it sleeps and may run: for scheduled work so far ahead that it is
locked 2 µs before, for any other at once. -/
def execDomainWake (d : Fin 10) (s : State) : Host.Outcome State Fault Refusal :=
  let t := match s.nextWork d.val with
    | some n => if s.wakeLead d.val < n then s.untilTime (s.tku.ns + BitVec.ofNat 64 (n - s.wakeLead d.val)) else s
    | none => s
  State.done (t.wakeDomain d.val) s

/-- The clock of `d` locks; later than 40 µs after its wake LATE_LOCK counts (R440). Clock 10 runs while TS_8NS is active. -/
def State.clockLocked (s : State) (d : Nat) : State :=
  if d = 10 then (if s.clkRuns 10 then s.putBit CLO.LOCKED 10 true else s)
  else if s.bit CLO.AWAKE d && !s.bit CLO.LOCKED d then
    let late := decide (s.wakeTime d + us 40 < s.mono)
    let s := s.putBit CLO.LOCKED d true
    if late then s.bump (CLO.DOM_CNT_LATE_LOCK d) else s
  else s

/-- CLOCK_LOCKED (R10, R440). -/
def execClockLocked (d : Fin 11) (s : State) : Host.Outcome State Fault Refusal := State.done (s.clockLocked d.val) s

/-- DOMAIN_SLEEP (R13): not with pending work, work within 50 µs or WAKE_HOLD. -/
def execDomainSleep (d : Fin 10) (s : State) : Host.Outcome State Fault Refusal :=
  State.done (if !s.bit CLO.AWAKE d.val || s.pendingWork d.val || s.workWithin d.val 50000 || s.bit CLO.WAKE_HOLD d.val then s
    else s.stopDomain d.val) s

/-- The clock of domain `d` is awake and not locked. -/
def State.unlocked (s : State) (d : Nat) : Bool := s.bit CLO.AWAKE d && !s.bit CLO.LOCKED d

/-- FCLK_LOCK_TIMEOUT (R14, R440): 40 µs after its wake. -/
def execFclkLockTimeout (d : Fin 10) (s : State) : Host.Outcome State Fault Refusal :=
  State.done (if s.unlocked d.val then (s.untilMono (s.wakeTime d.val + us 40)).putBit CLO.FCLK_FAULT d.val true else s) s

/-- FCLK_LOCK_1MS_TIMEOUT (R440): 1 ms after its wake. -/
def execFclkLock1msTimeout (d : Fin 10) (s : State) : Host.Outcome State Fault Refusal :=
  State.done (if s.unlocked d.val then (s.untilMono (s.wakeTime d.val + ms 1)).safeHold 0x09 else s) s

/-- Clock `d` runs and deviates by `ppm`, more than ±5 % (R63). -/
def State.clkDeviates (s : State) (d : Nat) (ppm : Int) : Bool := s.clkRuns d && decide (50000 < ppm.natAbs)

/-- The judgement of one window (R63): the deviation of clock `d` in ppm. Beyond ±5 % it is at fault, and TS125 loses its lock
(R437). -/
def State.judgeClock (s : State) (d : Nat) (ppm : Int) : State :=
  if !s.clkRuns d then s
  else if ppm.natAbs ≤ 50000 then s.putBit CLO.FCLK_FAULT d false
  else
    let s := (s.putBit CLO.FCLK_FAULT d true).bump (CLO.DOM_CNT_DEVIATION d)
    if d = 10 then s.putBit CLO.LOCKED 10 false else s

/-- Judge each clock of a window. -/
def State.judgeEach (s : State) : List (Fin 11 × Int) → State
  | [] => s
  | x :: t => (s.judgeClock x.1.val x.2).judgeEach t

/-- Judge the clocks of a window: a compute domain that deviates stops the module (R437), once every clock is judged. -/
def State.judgeClocks (s : State) (l : List (Fin 11 × Int)) : State :=
  let t := s.judgeEach l
  if l.any (fun x => x.1.val != 10 && s.clkDeviates x.1.val x.2) then t.safeHold 0x09 else t

/-- FCLK_MONITOR_WINDOW (R63): `dev` holds the deviation of each clock measured, in ppm. -/
def execFclkMonitorWindow (dev : List (Fin 11 × Int)) (s : State) : Host.Outcome State Fault Refusal := State.done (s.judgeClocks dev) s

/-- TCXO_CHECK_WINDOW (R62): the difference of TCXO and crystal over 1 s, in parts per 10⁹. -/
def execTcxoCheckWindow (ppb : Int) (s : State) : Host.Outcome State Fault Refusal :=
  let t := s.untilMono (s.tku.tcxoWin + secs 1)
  State.done ({ t with tku := { t.tku with tcxoWin := t.mono } }.putB CLO.REF_STAT_TCXO_DEV (decide (100000 < ppb.natAbs))) s

/-! ### Holdover and steps -/

/-- HOLDOVER_TIMEOUT (R70): HOLDOVER_TIME ms after the last accepted offset, while the servo is enabled. -/
def execHoldoverTimeout (s : State) : Host.Outcome State Fault Refusal :=
  State.done (match s.tku.holdSince with
    | none => s
    | some t =>
      if s.tku.accepted && s.on TKU.SERVO_CTRL_SERVO_EN && !s.on TKU.SYNC_STAT_HOLDOVER then
        (s.untilMono (t + ms (s.get TKU.HOLDOVER_TIME))).enterHoldover
      else s) s

/-- The handover tick named to the peer moves with every other deadline (R74). -/
def State.handoverShift (s : State) (d : BitVec 64) : State :=
  { s with rdc := { s.rdc with handover := s.rdc.handover.map (fun h => (h.1 + d, h.2)) } }

/-- Vessel time is set back by `o`: counter, boundary and tick generator (R72, R73); the next boundary is the first multiple of
100 µs at least 50 µs after the new time of this one. -/
def State.stepTime (s : State) (o : BitVec 64) : State :=
  let b := s.tku.tickStart - o
  let n := (b.toNat + 50000 + 99999) / 100000 * 100000
  { s with tku := { s.tku with ns := s.tku.ns - o, base := b, next := BitVec.ofNat 64 n, seam := true, stepPend := none,
                               stepArmed := false, lastStep := some s.mono } }

/-- A step of `-o` is applied (R72, R74). -/
def State.applyStep (s : State) (o : BitVec 64) : State :=
  let t0 := s.tku.tickStart
  let s := s.stepTime o
  let s := (((s.shiftSeqs (-o)).casShift (-o)).canShift (-o)).handoverShift (-o)
  let s := (s.inc TKU.STEP_SEQ).put64 TKU.STEP_LAST_LO TKU.STEP_LAST_HI (-o).toNat
  let s := s.put64 TKU.STEP_AT_LO TKU.STEP_AT_HI t0.toNat
  ((s.put TKU.SYNC_STAT_TIME_VALID 1).put TKU.SYNC_STAT_STEP_PENDING 0).offsetAccepted o.toInt

/-- STEP_APPLY (R72): at a tick boundary that finds a step pending. -/
def execStepApply (s : State) : Host.Outcome State Fault Refusal :=
  State.done (match s.tku.stepPend with
    | none => s
    | some o => if s.tku.stepArmed then s.applyStep o else s) s

end Sys2Proof.Machine
end

