-- ==== Sys2Proof/Machine/Access.lean ====
section
/-! DEFINITION. The commands that are accesses of the driver: reads and writes of pages, guarded commands, the signal image, memory
and apertures (R29, R36, R39 to R61, R67 to R71). -/

namespace Sys2Proof.Machine

/-- The address of offset `off` of page `p`. -/
def pageAddr (p off : Nat) : Nat := 0x40000000 + 4096 * p + off

/-- A 32-bit write of `v` to offset `off` of page `p`. -/
def State.cmdWrite (s : State) (m : Master) (p off : Nat) (v : BitVec 32) : State :=
  s.masterWrite m (pageAddr p off) 4 (v.setWidth 64)

/-- A guarded write: the value, then its complement (R45). -/
def State.cmdGuard (s : State) (m : Master) (p off : Nat) (v : BitVec 32) : State :=
  (s.cmdWrite m p off v).cmdWrite m p (off + 0x200) (~~~ v)

/-! ### Plain accesses -/

/-- UNMAPPED_ACCESS (R29): an access of `size` bytes that the address map holds nowhere for the master; a mapped one is no such
event. -/
def execUnmappedAccess (m : Master) (addr : BitVec 32) (size : Nat) (_wr : Bool) (s : State) : Host.Outcome State Fault Refusal :=
  let n := s.masterNo m
  State.done (if regionOf n addr.toNat = .none ∨ regionOf n (addr.toNat + size - 1) = .none then s.busError n else s) s

/-- REGISTER_WRITE (R40, R49, R465): a bus write of `size` bytes. -/
def execRegisterWrite (m : Master) (addr : BitVec 32) (size : Nat) (v : BitVec 64) (s : State) : Host.Outcome State Fault Refusal :=
  State.done (s.masterWrite m addr.toNat size v) s

/-- LOW_WORD_READ (R42, R49): a bus read of `size` bytes. -/
def execLowWordRead (m : Master) (addr : BitVec 32) (size : Nat) (s : State) : Host.Outcome State Fault Refusal :=
  State.done (s.masterRead m addr.toNat size) s

/-- HIGH_WORD_WRITE (R43): into the write shadow of the master. -/
def execHighWordWrite (m : Master) (addr v : BitVec 32) (s : State) : Host.Outcome State Fault Refusal :=
  State.done (s.masterWrite m addr.toNat 4 (v.setWidth 64)) s

/-- LOW_WORD_WRITE (R43): commits the low word with the write shadow. -/
def execLowWordWrite (m : Master) (addr v : BitVec 32) (s : State) : Host.Outcome State Fault Refusal :=
  State.done (s.masterWrite m addr.toNat 4 (v.setWidth 64)) s

/-- SIGIMG_TAG_WRITE (R20). -/
def execSigimgTagWrite (m : Master) (slot : Fin 8192) (v : BitVec 32) (s : State) : Host.Outcome State Fault Refusal :=
  State.done (s.masterWrite m (0x30000004 + 8 * slot.val) 4 (v.setWidth 64)) s

/-- SIGIMG_VALUE_WRITE (R20). -/
def execSigimgValueWrite (m : Master) (slot : Fin 8192) (v : BitVec 32) (s : State) : Host.Outcome State Fault Refusal :=
  State.done (s.masterWrite m (0x30000000 + 8 * slot.val) 4 (v.setWidth 64)) s

/-! ### The page header -/

/-- ERR_CNT_WRITE (R36). -/
def execErrCntWrite (m : Master) (page : Fin 256) (v : BitVec 32) (s : State) : Host.Outcome State Fault Refusal :=
  State.done (s.cmdWrite m page.val 0x028 v) s

/-- ENABLE_CLEAR (R39): a write of PG_CTRL. -/
def execEnableClear (m : Master) (page : Fin 256) (v : BitVec 32) (s : State) : Host.Outcome State Fault Refusal :=
  State.done (s.cmdWrite m page.val 0x00C v) s

/-- SOFT_RESET (R39): a write of PG_CTRL. -/
def execSoftReset (m : Master) (page : Fin 256) (v : BitVec 32) (s : State) : Host.Outcome State Fault Refusal :=
  State.done (s.cmdWrite m page.val 0x00C v) s

/-- ABORT (R51): a write of PG_ABORT. -/
def execAbort (m : Master) (page : Fin 256) (v : BitVec 32) (s : State) : Host.Outcome State Fault Refusal :=
  State.done (s.cmdWrite m page.val 0x014 v) s

/-- ABORT_COMPLETE (R53). -/
def execAbortComplete (page : Fin 256) (unit : Fin 128) (s : State) : Host.Outcome State Fault Refusal :=
  State.done (s.abortComplete page.val unit.val) s

/-- ABORT_OVER_BOUND (R54). -/
def execAbortOverBound (page : Fin 256) (unit : Fin 128) (s : State) : Host.Outcome State Fault Refusal :=
  State.done (s.abortLate page.val unit.val) s

/-- LOOP_ABORT_FALLBACK (R149): the aborted context completes in FALLBACK. -/
def execLoopAbortFallback (c : Fin 128) (s : State) : Host.Outcome State Fault Refusal :=
  State.done (s.abortComplete 0x19 c.val) s

/-- GUARDED_VALUE_WRITE (R45): a write into the guarded value window. -/
def execGuardedValueWrite (m : Master) (page : Fin 256) (off : BitVec 12) (v : BitVec 32) (s : State) :
    Host.Outcome State Fault Refusal :=
  State.done (s.cmdWrite m page.val off.toNat v) s

/-- GUARD_TIMEOUT (R45): more than 256 cycles of the page clock after the first write. -/
def execGuardTimeout (page : Fin 256) (s : State) : Host.Outcome State Fault Refusal :=
  State.done (match s.guardOf page.val with
    | none => s
    | some g => (s.untilMono (g.since + guardWindow page.val + 1)).guardExpire page.val) s

/-! ### Guarded commands of the SYS and TKU pages -/

/-- FEAT_COMMIT (R55). -/
def execFeatCommit (m : Master) (v : BitVec 32) (s : State) : Host.Outcome State Fault Refusal :=
  State.done (s.cmdGuard m 0x00 0x400 v) s

/-- STATE_REQ_RUN (R59). -/
def execStateReqRun (m : Master) (s : State) : Host.Outcome State Fault Refusal := State.done (s.cmdGuard m 0x00 0x404 1) s

/-- STATE_REQ_RESTART (R59). -/
def execStateReqRestart (m : Master) (s : State) : Host.Outcome State Fault Refusal := State.done (s.cmdGuard m 0x00 0x404 2) s

/-- IMG_UPD_START (R61). -/
def execImgUpdStart (m : Master) (v : BitVec 32) (s : State) : Host.Outcome State Fault Refusal :=
  State.done (s.cmdGuard m 0x00 0x408 v) s

/-- IMAGE_UPDATE_DONE (R61). -/
def execImageUpdateDone (s : State) : Host.Outcome State Fault Refusal := State.done s.imgUpdDone s

/-- BOOT_SELECT (R61). -/
def execBootSelect (m : Master) (v : BitVec 32) (s : State) : Host.Outcome State Fault Refusal :=
  State.done (s.cmdGuard m 0x00 0x40C v) s

/-- SERVO_OFFSET_WRITE (R67): the low word of SERVO_OFFSET. -/
def execServoOffsetWrite (m : Master) (v : BitVec 32) (s : State) : Host.Outcome State Fault Refusal :=
  State.done (s.cmdWrite m 0x04 0x060 v) s

/-- ADDEND_FRAC_WRITE (R69). -/
def execAddendFracWrite (m : Master) (v : BitVec 32) (s : State) : Host.Outcome State Fault Refusal :=
  State.done (s.cmdWrite m 0x04 0x050 v) s

/-- INTEG_CLR (R69): SERVO_CTRL written with INTEG_CLR 1 and its other fields as they are. -/
def execIntegClr (m : Master) (s : State) : Host.Outcome State Fault Refusal :=
  State.done (s.cmdWrite m 0x04 0x058 (s.regWord 0x04 0x058 ||| 4)) s

/-- STEP_PERMIT (R71). -/
def execStepPermit (m : Master) (v : BitVec 32) (s : State) : Host.Outcome State Fault Refusal :=
  State.done (s.cmdGuard m 0x04 0x400 v) s

end Sys2Proof.Machine
end

