-- ==== Sys2Proof/Machine/Logic.lean ====
section
/-! DEFINITION. The commands of the logic sequencers: cycles, the instructions of R98, calls, start-up, program loading and activation
(R87 to R106, R117 to R119). -/

namespace Sys2Proof.Machine

/-! ### The instruction at hand -/

/-- An instruction word: OP in [31:26], reserved bits 0, operand in [23:0] (R98). -/
def ilWord (op : Nat) (o : BitVec 24) : Word := BitVec.ofNat 32 (op * 2 ^ 26 + o.toNat)

/-- The instruction word at the program counter of the task that sequencer `q` executes. -/
def State.ilCode (s : State) (q : Nat) : Option Word :=
  match s.ilTask q, s.image q with
  | some t, some i => i.code[(s.task q t).pc]?
  | _, _ => none

/-- Sequencer `q` works: its page is enabled and its clock runs and is locked (R10, R39). -/
def State.seqLive (s : State) (q : Nat) : Bool := s.enabled (0x14 + q) && s.domReady (4 + q)

/-- Sequencer `q` executes the instruction `op` with operand `o`: the one at its task's program counter, or nothing happens. -/
def State.ilRun (s : State) (q op : Nat) (o : BitVec 24) (f : State → Nat → IlResult) : Host.Outcome State Fault Refusal :=
  State.done (if s.seqLive q && s.ilCode q == some (ilWord op o) then s.il q f else s) s

/-- The opcodes of R98. -/
def ilOps : List Nat :=
  [0x00, 0x01, 0x02, 0x04, 0x05, 0x06, 0x07, 0x08, 0x09, 0x0A, 0x0B, 0x0C, 0x0D, 0x0E, 0x10, 0x11, 0x12, 0x13, 0x14, 0x15, 0x16, 0x17,
   0x18, 0x19, 0x20, 0x21, 0x24, 0x25, 0x26, 0x28, 0x29, 0x2A, 0x2B, 0x30, 0x31, 0x32, 0x34, 0x35, 0x36, 0x3F]

/-- A word with an undefined opcode or non-zero bits [25:24]. -/
def ilUndefined (w : Word) : Bool := !ilOps.contains (bits w 26 6) || bits w 24 2 != 0

/-! ### Instructions (R98) -/

/-- 0x00: no effect. -/
def execNop (q : Fin 4) (o : BitVec 24) (s : State) : Host.Outcome State Fault Refusal :=
  s.ilRun q.val 0x00 o (ilNoOperand o (fun s _ => .next s))

/-- 0x01: ACC := op. -/
def execLd (q : Fin 4) (o : BitVec 24) (s : State) : Host.Outcome State Fault Refusal :=
  s.ilRun q.val 0x01 o (ilCombine q.val o (fun _ x => x))

/-- 0x02: ACC := ¬op. -/
def execLdn (q : Fin 4) (o : BitVec 24) (s : State) : Host.Outcome State Fault Refusal :=
  s.ilRun q.val 0x02 o (ilCombine q.val o (fun _ x => !x))

/-- 0x04: op := ACC. -/
def execSt (q : Fin 4) (o : BitVec 24) (s : State) : Host.Outcome State Fault Refusal :=
  s.ilRun q.val 0x04 o (ilStore q.val o (fun a => some a))

/-- 0x05: op := ¬ACC. -/
def execStn (q : Fin 4) (o : BitVec 24) (s : State) : Host.Outcome State Fault Refusal :=
  s.ilRun q.val 0x05 o (ilStore q.val o (fun a => some (!a)))

/-- 0x06: if ACC: op := 1. -/
def execSetOp (q : Fin 4) (o : BitVec 24) (s : State) : Host.Outcome State Fault Refusal :=
  s.ilRun q.val 0x06 o (ilStore q.val o (fun a => if a then some true else none))

/-- 0x07: if ACC: op := 0. -/
def execResetOp (q : Fin 4) (o : BitVec 24) (s : State) : Host.Outcome State Fault Refusal :=
  s.ilRun q.val 0x07 o (ilStore q.val o (fun a => if a then some false else none))

/-- 0x08: ACC := ACC ∧ op. -/
def execAndOp (q : Fin 4) (o : BitVec 24) (s : State) : Host.Outcome State Fault Refusal :=
  s.ilRun q.val 0x08 o (ilCombine q.val o (fun a x => a && x))

/-- 0x09: ACC := ACC ∧ ¬op. -/
def execAndn (q : Fin 4) (o : BitVec 24) (s : State) : Host.Outcome State Fault Refusal :=
  s.ilRun q.val 0x09 o (ilCombine q.val o (fun a x => a && !x))

/-- 0x0A: ACC := ACC ∨ op. -/
def execOrOp (q : Fin 4) (o : BitVec 24) (s : State) : Host.Outcome State Fault Refusal :=
  s.ilRun q.val 0x0A o (ilCombine q.val o (fun a x => a || x))

/-- 0x0B: ACC := ACC ∨ ¬op. -/
def execOrn (q : Fin 4) (o : BitVec 24) (s : State) : Host.Outcome State Fault Refusal :=
  s.ilRun q.val 0x0B o (ilCombine q.val o (fun a x => a || !x))

/-- 0x0C: ACC := ACC ⊕ op. -/
def execXorOp (q : Fin 4) (o : BitVec 24) (s : State) : Host.Outcome State Fault Refusal :=
  s.ilRun q.val 0x0C o (ilCombine q.val o (fun a x => xor a x))

/-- 0x0D: ACC := ACC ⊕ ¬op. -/
def execXorn (q : Fin 4) (o : BitVec 24) (s : State) : Host.Outcome State Fault Refusal :=
  s.ilRun q.val 0x0D o (ilCombine q.val o (fun a x => xor a (!x)))

/-- 0x0E: ACC := ¬ACC. -/
def execNotOp (q : Fin 4) (o : BitVec 24) (s : State) : Host.Outcome State Fault Refusal :=
  s.ilRun q.val 0x0E o (ilNoOperand o (fun s t => .next (s.setAcc q.val t (!(s.task q.val t).acc))))

/-- 0x10: push(ACC, AND); ACC := op. -/
def execAndParen (q : Fin 4) (o : BitVec 24) (s : State) : Host.Outcome State Fault Refusal :=
  s.ilRun q.val 0x10 o (ilParen q.val o .kand (fun x => x))

/-- 0x11: push(ACC, AND); ACC := ¬op. -/
def execAndnParen (q : Fin 4) (o : BitVec 24) (s : State) : Host.Outcome State Fault Refusal :=
  s.ilRun q.val 0x11 o (ilParen q.val o .kand (fun x => !x))

/-- 0x12: push(ACC, OR); ACC := op. -/
def execOrParen (q : Fin 4) (o : BitVec 24) (s : State) : Host.Outcome State Fault Refusal :=
  s.ilRun q.val 0x12 o (ilParen q.val o .kor (fun x => x))

/-- 0x13: push(ACC, OR); ACC := ¬op. -/
def execOrnParen (q : Fin 4) (o : BitVec 24) (s : State) : Host.Outcome State Fault Refusal :=
  s.ilRun q.val 0x13 o (ilParen q.val o .kor (fun x => !x))

/-- 0x14: push(ACC, XOR); ACC := op. -/
def execXorParen (q : Fin 4) (o : BitVec 24) (s : State) : Host.Outcome State Fault Refusal :=
  s.ilRun q.val 0x14 o (ilParen q.val o .kxor (fun x => x))

/-- 0x15: push(ACC, XOR); ACC := ¬op. -/
def execXornParen (q : Fin 4) (o : BitVec 24) (s : State) : Host.Outcome State Fault Refusal :=
  s.ilRun q.val 0x15 o (ilParen q.val o .kxor (fun x => !x))

/-- 0x16: pop (a, k), k ≠ –; ACC := a k ACC. -/
def execCloseParen (q : Fin 4) (o : BitVec 24) (s : State) : Host.Outcome State Fault Refusal :=
  s.ilRun q.val 0x16 o (ilNoOperand o (ilClose q.val))

/-- 0x17: push(ACC, –). -/
def execMps (q : Fin 4) (o : BitVec 24) (s : State) : Host.Outcome State Fault Refusal :=
  s.ilRun q.val 0x17 o (ilNoOperand o (fun s t => match s.push q.val t .dash with | none => .fault 3 | some s => .next s))

/-- 0x18: the top entry of kind – gives ACC and stays. -/
def execMrd (q : Fin 4) (o : BitVec 24) (s : State) : Host.Outcome State Fault Refusal :=
  s.ilRun q.val 0x18 o (ilNoOperand o (ilTop q.val false))

/-- 0x19: pop (a, –); ACC := a. -/
def execMpp (q : Fin 4) (o : BitVec 24) (s : State) : Host.Outcome State Fault Refusal :=
  s.ilRun q.val 0x19 o (ilNoOperand o (ilTop q.val true))

/-- 0x20: a rising edge of ACC (R103). -/
def execEdgr (q : Fin 4) (o : BitVec 24) (s : State) : Host.Outcome State Fault Refusal :=
  s.ilRun q.val 0x20 o (ilObject o (ilEdge q.val false))

/-- 0x21: a falling edge of ACC (R103). -/
def execEdgf (q : Fin 4) (o : BitVec 24) (s : State) : Host.Outcome State Fault Refusal :=
  s.ilRun q.val 0x21 o (ilObject o (ilEdge q.val true))

/-- 0x24: on-delay timer (R99). -/
def execTon (q : Fin 4) (o : BitVec 24) (s : State) : Host.Outcome State Fault Refusal :=
  s.ilRun q.val 0x24 o (ilObject o (ilTimer q.val 1))

/-- 0x25: off-delay timer (R99). -/
def execTof (q : Fin 4) (o : BitVec 24) (s : State) : Host.Outcome State Fault Refusal :=
  s.ilRun q.val 0x25 o (ilObject o (ilTimer q.val 2))

/-- 0x26: pulse timer (R99). -/
def execTp (q : Fin 4) (o : BitVec 24) (s : State) : Host.Outcome State Fault Refusal :=
  s.ilRun q.val 0x26 o (ilObject o (ilTimer q.val 3))

/-- 0x28: count up; ACC := QU (R102). -/
def execCtu (q : Fin 4) (o : BitVec 24) (s : State) : Host.Outcome State Fault Refusal :=
  s.ilRun q.val 0x28 o (ilObject o (ilCounter q.val .up))

/-- 0x29: count down; ACC := QD (R102). -/
def execCtd (q : Fin 4) (o : BitVec 24) (s : State) : Host.Outcome State Fault Refusal :=
  s.ilRun q.val 0x29 o (ilObject o (ilCounter q.val .down))

/-- 0x2A: if ACC: CV := 0. -/
def execCres (q : Fin 4) (o : BitVec 24) (s : State) : Host.Outcome State Fault Refusal :=
  s.ilRun q.val 0x2A o (ilObject o (ilCounter q.val .res))

/-- 0x2B: if ACC: CV := PV. -/
def execCload (q : Fin 4) (o : BitVec 24) (s : State) : Host.Outcome State Fault Refusal :=
  s.ilRun q.val 0x2B o (ilObject o (ilCounter q.val .load))

/-- 0x30: jump to the target. -/
def execJmp (q : Fin 4) (o : BitVec 24) (s : State) : Host.Outcome State Fault Refusal :=
  s.ilRun q.val 0x30 o (ilJump q.val o (fun _ => true))

/-- 0x31: if ACC: jump. -/
def execJmpc (q : Fin 4) (o : BitVec 24) (s : State) : Host.Outcome State Fault Refusal :=
  s.ilRun q.val 0x31 o (ilJump q.val o (fun a => a))

/-- 0x32: if ¬ACC: jump. -/
def execJmpcn (q : Fin 4) (o : BitVec 24) (s : State) : Host.Outcome State Fault Refusal :=
  s.ilRun q.val 0x32 o (ilJump q.val o (fun a => !a))

/-- 0x34: call; ACC := ENO on return (R104). -/
def execCal (q : Fin 4) (o : BitVec 24) (s : State) : Host.Outcome State Fault Refusal :=
  s.ilRun q.val 0x34 o (ilCal q.val o (fun _ => true))

/-- 0x35: if ACC: call. -/
def execCalc (q : Fin 4) (o : BitVec 24) (s : State) : Host.Outcome State Fault Refusal :=
  s.ilRun q.val 0x35 o (ilCal q.val o (fun a => a))

/-- 0x36: if ¬ACC: call. -/
def execCalcn (q : Fin 4) (o : BitVec 24) (s : State) : Host.Outcome State Fault Refusal :=
  s.ilRun q.val 0x36 o (ilCal q.val o (fun a => !a))

/-- 0x3F: execution ends and the output list is posted as one group (R88, R264, R360). -/
def execEndOp (q : Fin 4) (o : BitVec 24) (s : State) : Host.Outcome State Fault Refusal :=
  State.done (if s.seqLive q.val && s.ilCode q.val == some (ilWord 0x3F o) then
      (match s.ilTask q.val with
      | none => s
      | some t => if o ≠ 0 then s.taskFault q.val t 1 else s.taskPost q.val t)
    else s) s

/-- UNDEFINED_INSTRUCTION (R94): the word `w` at the program counter is not an instruction of R98. -/
def execUndefinedInstruction (q : Fin 4) (w : BitVec 32) (s : State) : Host.Outcome State Fault Refusal :=
  State.done (if s.seqLive q.val && s.ilCode q.val == some w && ilUndefined w then s.il q.val (fun _ _ => .fault 1) else s) s

/-! ### Cycles and calls -/

/-- CYCLE_BOUNDARY (R87, R92, R93): a cycle of task `t` begins if the present tick boundary lies on its grid. -/
def execCycleBoundary (q : Fin 4) (t : Fin 8) (s : State) : Host.Outcome State Fault Refusal :=
  State.done (if s.enabled (0x14 + q.val) then s.cycleBoundary q.val t.val else s) s

/-- Task `t` of sequencer `q` waits for a function block, which an abort cancels at once (R96). -/
def State.inCal (s : State) (q t : Nat) : Bool := (s.task q t).isOpen && s.taskSt q t == tkCAL && !s.taskAborting q t

/-- CAL_RETURN (R104): within the budget, from a pair that runs. -/
def execCalReturn (q : Fin 4) (t : Fin 10) (eno : Bool) (res : List CalResult) (s : State) : Host.Outcome State Fault Refusal :=
  let r := s.task q.val t.val
  State.done (if s.inCal q.val t.val && decide (s.mono ≤ r.calSince + us r.calBudget) && s.domRuns q.val then
      s.calReturn q.val t.val eno res
    else s) s

/-- CAL_TIMEOUT (R105): the budget has passed. -/
def execCalTimeout (q : Fin 4) (t : Fin 10) (s : State) : Host.Outcome State Fault Refusal :=
  let r := s.task q.val t.val
  State.done (if s.inCal q.val t.val then (s.untilMono (r.calSince + us r.calBudget)).calFailed q.val t.val else s) s

/-- TASK_RESUME (R95). -/
def execTaskResume (m : Master) (q : Fin 4) (v : BitVec 32) (s : State) : Host.Outcome State Fault Refusal :=
  State.done (s.cmdGuard m (0x14 + q.val) 0x408 v) s

/-- STARTUP_TASK_TIMEOUT (R106): 1 s after its freeze without END. -/
def execStartupTaskTimeout (q : Fin 4) (s : State) : Host.Outcome State Fault Refusal :=
  State.done (match (s.seqOf q.val).startSince with
    | none => s
    | some t => (s.untilMono (t + secs 1)).taskFault q.val 8 8) s

/-! ### Program loading and activation -/

/-- PROG_LOAD (R117). -/
def execProgLoad (m : Master) (q : Fin 4) (s : State) : Host.Outcome State Fault Refusal :=
  State.done (s.cmdGuard m (0x14 + q.val) 0x400 1) s

/-- PROG_LOAD_DONE (R117): `body` is what the image's sections hold. -/
def execProgLoadDone (q : Fin 4) (body : ImageBody) (s : State) : Host.Outcome State Fault Refusal :=
  State.done (if s.get (LSQ.PROG_STAT_INACTIVE q.val) = 3 then
      s.loadDone q.val (s.bytes (s.get (LSQ.PROG_SRC q.val)) (s.get (LSQ.PROG_LEN q.val))) body
    else s) s

/-- ACTIVATE (R118). -/
def execActivate (m : Master) (q : Fin 4) (s : State) : Host.Outcome State Fault Refusal :=
  State.done (s.cmdGuard m (0x14 + q.val) 0x404 1) s

/-- ACTIVATION_TICK (R118): a quiet tick boundary within 2 s switches banks; the standby is told (R362). -/
def execActivationTick (q : Fin 4) (s : State) : Host.Outcome State Fault Refusal :=
  State.done (match (s.seqOf q.val).actSince with
    | none => s
    | some t =>
      if s.on (LSQ.SEQ_STAT_ACT_PENDING q.val) && !s.tku.snapped && s.quiet q.val && decide (s.mono ≤ t + secs 2) then
        (s.activate q.val true).sluiceDelta [srcKey 6 0]
      else s) s

/-- ACTIVATION_TIMEOUT (R118): no quiet tick within 2 s. -/
def execActivationTimeout (q : Fin 4) (s : State) : Host.Outcome State Fault Refusal :=
  State.done (match (s.seqOf q.val).actSince with
    | none => s
    | some t =>
      let s := s.untilMono (t + secs 2)
      ((s.put (LSQ.SEQ_STAT_ACT_PENDING q.val) 0).put (LSQ.PROG_STAT_ACT_RESULT q.val) 2).setSeq q.val
        { s.seqOf q.val with actSince := none }) s

end Sys2Proof.Machine
end

