-- ==== Sys2Proof/Machine/Remote.lean ====
section
/-! DEFINITION. The commands of the RIX stations, of forcing and of the challenges (R109 to R116, R122, R284). -/

namespace Sys2Proof.Machine

/-! ### RIX stations -/

/-- RIX_EXCHANGE_INTERVAL (R109, R112): the next exchange of station `st`. -/
def execRixExchangeInterval (st : Fin 64) (s : State) : Host.Outcome State Fault Refusal := State.done (s.rixExchange st.val) s

/-- RIX_INPUT_FRAME (R109, R110): the RIX payload `frame` of station `st`, received `ago` ns ago. -/
def execRixInputFrame (st : Fin 64) (frame : List (BitVec 8)) (ago : BitVec 32) (s : State) : Host.Outcome State Fault Refusal :=
  State.done (s.rixInput st.val frame (s.stampAgo s.ethRes ago.toNat).1) s

/-- RIX_LATE_TIMEOUT (R110). -/
def execRixLateTimeout (st : Fin 64) (s : State) : Host.Outcome State Fault Refusal := State.done (s.rixLate st.val) s

/-- RIX_LOSS_TIMEOUT (R110, R111). -/
def execRixLossTimeout (st : Fin 64) (s : State) : Host.Outcome State Fault Refusal := State.done (s.rixLoss st.val) s

/-- RIX_SUBST_POST (R111): none while the page of the sequencer is disabled (R39). -/
def execRixSubstPost (st : Fin 64) (s : State) : Host.Outcome State Fault Refusal :=
  State.done (if s.enabled (0x14 + st.val / 16) then s.rixSubst st.val else s) s

/-! ### Forcing -/

/-- FORCE_SET (R114): FORCE_CMD 1. -/
def execForceSet (m : Master) (s : State) : Host.Outcome State Fault Refusal := State.done (s.cmdGuard m 0x14 0x410 1) s

/-- FORCE_REMOVE (R114): FORCE_CMD 2. -/
def execForceRemove (m : Master) (s : State) : Host.Outcome State Fault Refusal := State.done (s.cmdGuard m 0x14 0x410 2) s

/-- FORCE_REMOVE_ALL (R114): FORCE_CMD 3. -/
def execForceRemoveAll (m : Master) (s : State) : Host.Outcome State Fault Refusal := State.done (s.cmdGuard m 0x14 0x410 3) s

/-- FORCE_AUTH_SUBMIT (R115). -/
def execForceAuthSubmit (m : Master) (s : State) : Host.Outcome State Fault Refusal := State.done (s.cmdGuard m 0x14 0x414 1) s

/-- FORCE_AUTH_TIMEOUT (R115). -/
def execForceAuthTimeout (s : State) : Host.Outcome State Fault Refusal := State.done s.forceAuthEnd s

/-- CHALLENGE_RENEWAL (R284): 60 s after the last renewal of register set `set` + 1. -/
def execChallengeRenewal (set : Fin 5) (s : State) : Host.Outcome State Fault Refusal :=
  let k := set.val + 1
  State.done (if s.mstate = stPOWER_ON then s
    else (s.untilMono (mapGet (fun _ => 0) s.chalAt k + secs 60)).renewChal k) s

end Sys2Proof.Machine
end

