-- ==== Sys2Proof/Machine/Loops.lean ====
section
/-! DEFINITION. The commands of the loop engine (R124 to R150). -/

namespace Sys2Proof.Machine

/-- LOOP_RELEASE (R127): the release instant of context `c`, after the snapshot instant of a tick that holds one; `done` tells that the
engine's work for the period is complete. -/
def execLoopRelease (c : Fin 128) (done : Bool) (s : State) : Host.Outcome State Fault Refusal :=
  State.done (if s.tku.snapped && !s.tku.cut && s.loopRelDue c.val then (s.untilTime s.loopRelAt).releaseLoop c.val done else s) s

/-- CTX_CMD_CLOSE (R138). -/
def execCtxCmdClose (m : Master) (s : State) : Host.Outcome State Fault Refusal := State.done (s.cmdGuard m 0x19 0x400 1) s

/-- CTX_CMD_OPEN (R138). -/
def execCtxCmdOpen (m : Master) (s : State) : Host.Outcome State Fault Refusal := State.done (s.cmdGuard m 0x19 0x400 2) s

/-- CTX_CMD_FALLBACK (R138). -/
def execCtxCmdFallback (m : Master) (s : State) : Host.Outcome State Fault Refusal := State.done (s.cmdGuard m 0x19 0x400 3) s

/-- CTX_ENABLE (R134, R152): the write of CTX_CFG of the selected context. -/
def execCtxEnable (m : Master) (v : BitVec 32) (s : State) : Host.Outcome State Fault Refusal := State.done (s.cmdWrite m 0x19 0x044 v) s

/-- CTX_DISABLE (R152): the write of CTX_CFG of the selected context. -/
def execCtxDisable (m : Master) (v : BitVec 32) (s : State) : Host.Outcome State Fault Refusal := State.done (s.cmdWrite m 0x19 0x044 v) s

/-- LPE_QUERY (R135): a write of QUERY. -/
def execLpeQuery (m : Master) (v : BitVec 32) (s : State) : Host.Outcome State Fault Refusal := State.done (s.cmdWrite m 0x18 0x05C v) s

/-- LPE_QUERY_DONE (R135). -/
def execLpeQueryDone (s : State) : Host.Outcome State Fault Refusal := State.done (if s.enabled 0x18 then s.lpeQueryDone else s) s

/-- LPE_APERTURE_WRITE (R131). -/
def execLpeApertureWrite (m : Master) (addr v : BitVec 32) (s : State) : Host.Outcome State Fault Refusal :=
  State.done (s.masterWrite m addr.toNat 4 (v.setWidth 64)) s

end Sys2Proof.Machine
end

