-- ==== Sys2Proof/Machine/Cascade.lean ====
section
/-! DEFINITION. The commands of the Cascade solver (R155 to R184). -/

namespace Sys2Proof.Machine

/-- CAS_LOAD (R183): SLOT_CMD 1. -/
def execCasLoad (m : Master) (s : State) : Host.Outcome State Fault Refusal := State.done (s.cmdGuard m 0x1B 0x400 1) s

/-- CAS_LOAD_DONE (R160, R183). -/
def execCasLoadDone (k : Fin 16) (s : State) : Host.Outcome State Fault Refusal :=
  State.done (if s.enabled 0x1A && s.casSt k.val == csLOADING && !s.casAborting k.val then s.casLoadDone k.val else s) s

/-- CAS_UNLOAD (R183): SLOT_CMD 2. -/
def execCasUnload (m : Master) (s : State) : Host.Outcome State Fault Refusal := State.done (s.cmdGuard m 0x1B 0x400 2) s

/-- CAS_REFRESH (R177, R183): SLOT_CMD 3. -/
def execCasRefresh (m : Master) (s : State) : Host.Outcome State Fault Refusal := State.done (s.cmdGuard m 0x1B 0x400 3) s

/-- CAS_COLD (R166, R183): SLOT_CMD 4. -/
def execCasCold (m : Master) (s : State) : Host.Outcome State Fault Refusal := State.done (s.cmdGuard m 0x1B 0x400 4) s

/-- CAS_SLOT_ENABLE (R174, R183): the write of SLOT_CFG of the selected slot. -/
def execCasSlotEnable (m : Master) (v : BitVec 32) (s : State) : Host.Outcome State Fault Refusal :=
  State.done (s.cmdWrite m 0x1B 0x044 v) s

/-- CAS_SLOT_DISABLE (R183): the write of SLOT_CFG of the selected slot. -/
def execCasSlotDisable (m : Master) (v : BitVec 32) (s : State) : Host.Outcome State Fault Refusal :=
  State.done (s.cmdWrite m 0x1B 0x044 v) s

/-- CAS_DISPATCH (R176): the lanes run one unit; the delta records follow a post (R361). -/
def execCasDispatch (ns : Nat) (s : State) : Host.Outcome State Fault Refusal :=
  State.done (match s.casDispatch ns with
    | (t, none) => t
    | (t, some k) => t.sluiceDelta [srcKey 3 k]) s

/-- CAS_LIN_COMMIT (R169). -/
def execCasLinCommit (k : Fin 16) (s : State) : Host.Outcome State Fault Refusal :=
  State.done (if s.casLive then s.casLinCommit k.val else s) s

/-- CAS_LIN_TIMEOUT (R169). -/
def execCasLinTimeout (k : Fin 16) (s : State) : Host.Outcome State Fault Refusal :=
  State.done (if s.casLive then s.casLinTimeout k.val else s) s

/-- CAS_REFRESH_START (R177). -/
def execCasRefreshStart (k : Fin 16) (s : State) : Host.Outcome State Fault Refusal := State.done (s.casRefreshStart k.val) s

/-- CAS_REFRESH_DONE (R178). -/
def execCasRefreshDone (k : Fin 16) (s : State) : Host.Outcome State Fault Refusal := State.done (s.casRefreshDone k.val) s

/-- CAS_QUERY (R175): a write of QUERY. -/
def execCasQuery (m : Master) (v : BitVec 32) (s : State) : Host.Outcome State Fault Refusal := State.done (s.cmdWrite m 0x1A 0x05C v) s

/-- CAS_QUERY_DONE (R175). -/
def execCasQueryDone (s : State) : Host.Outcome State Fault Refusal := State.done (if s.enabled 0x1A then s.casQueryDone else s) s

/-- CAS_MEMORY_WRITE (R161): a bus write of `size` bytes into CAS memory. -/
def execCasMemoryWrite (m : Master) (addr : BitVec 32) (size : Nat) (v : BitVec 64) (s : State) :
    Host.Outcome State Fault Refusal := State.done (s.masterWrite m addr.toNat size v) s

end Sys2Proof.Machine
end

