-- ==== Sys2Proof/Machine/Banks.lean ====
section
/-! DEFINITION. The commands of the field banks: frames, silence and release, supplies, inputs, outputs, test pulses, trip words,
analogue conditions, join mode (R188 to R225). -/

namespace Sys2Proof.Machine

/-- The bank of channel `ch` works and its page is enabled. -/
def State.chLive (s : State) (ch : Nat) : Bool := s.bankLive (bk ch) && s.enabled (0x20 + bk ch) && s.chEn ch

/-! ### Frames (R202 to R204) -/

/-- A valid output frame of mode `m` arrives (R202, R204). -/
def State.outFrame (s : State) (b m : Nat) : State :=
  let s := s.setBank b { s.bank b with frame := some m, lastOut := some s.mono,
                                       lastDrive := if m = 0 then some s.mono else (s.bank b).lastDrive }
  let s := (s.put (FB.BANK_STAT_LINK_OK b) 1).put (FB.BANK_STAT_LOGIC_SILENT b) 0
  let s := s.put (FB.BANK_STAT_DRIVE_MODE b) m
  if m = 0 then s.put64 (FB.LAST_DRIVE_LO b) (FB.LAST_DRIVE_HI b) s.now else s

/-- The sequence number after the one that a frame leaves (R202). DESIGN CHOICE (assumption 43): a frame with a right CRC sets the count,
whatever number it carries; one with a bad CRC counts as the one that was due. -/
def frameNext (f : BankFrame) (due : BitVec 16) : BitVec 16 := if f.crcOk then f.seq + 1 else due + 1

/-- BANK_OUTPUT_FRAME (R202): the output frame of the coming tick boundary, with its mode; missing with a bad CRC or a sequence number
other than the next. -/
def execBankOutputFrame (b : Fin 16) (f : BankFrame) (s : State) : Host.Outcome State Fault Refusal :=
  let n := b.val
  let due := (s.bank n).outSeq
  State.done (match s.frameMode n, s.bankLive n && s.enabled (0x20 + n) with
    | some m, true =>
      let s := s.setBank n { s.bank n with outSeq := frameNext f due }
      if !f.crcOk then s.bump (FB.FRAME_CNT_CRC_ERR_CNT n)
      else if f.seq ≠ due then s.bump (FB.FRAME_CNT_SEQ_ERR_CNT n)
      else s.outFrame n m
    | _, _ => s) s

/-- BANK_INPUT_FRAME (R203, R22): a valid frame is posted as one group; another is missing. -/
def execBankInputFrame (b : Fin 16) (f : BankFrame) (s : State) : Host.Outcome State Fault Refusal :=
  let n := b.val
  let due := (s.bank n).inSeq
  State.done (if s.bankLive n && s.enabled (0x20 + n) then
      let s := s.setBank n { s.bank n with inSeq := frameNext f due }
      if !f.crcOk || f.seq != due then s
      else
        let s := s.setBank n { s.bank n with inOk := true, lastIn := some s.mono }
        (s.put (FB.BANK_STAT_INPUT_LOST n) 0).postChs (bankChans n)
    else s) s

/-- The first tick boundary at or after now. -/
def State.boundaryFrom (s : State) : BitVec 64 :=
  if s.tku.ns.toNat ≤ s.tku.next.toNat then s.tku.next else BitVec.ofNat 64 ((s.now + 99999) / 100000 * 100000)

/-- LOGIC_SILENCE (R204): at the first tick boundary SILENCE_MS after the last valid output frame. -/
def execLogicSilence (b : Fin 16) (s : State) : Host.Outcome State Fault Refusal :=
  let n := b.val
  State.done (match (s.bank n).lastOut, s.bankLive n && !s.on (FB.BANK_STAT_LOGIC_SILENT n) with
    | some t, true =>
      let u := s.untilMono (t + ms (s.get (FB.BANK_CFG_SILENCE_MS n)))
      ((u.untilTime u.boundaryFrom).silence n).hartLinks s [n]
    | _, _ => s) s

/-- INPUT_LOST (R203): SILENCE_MS after the last valid input frame, or after the bank's reset. -/
def execInputLost (b : Fin 16) (s : State) : Host.Outcome State Fault Refusal :=
  let n := b.val
  State.done (if s.mstate = stPOWER_ON ∨ s.enabled (0x20 + n) = false ∨ s.on (FB.BANK_STAT_INPUT_LOST n) = true then s
    else
      let u := (s.untilMono ((s.bank n).lastIn.getD (s.bank n).resetAt + ms (s.get (FB.BANK_CFG_SILENCE_MS n)))).inputLost n
      u.hartLinks s [n]) s

/-- RELEASE_HOLD_EXPIRY (R202, R206): RELEASE_MS after the last valid DRIVE frame, on a bank that acts on RELEASE. -/
def execReleaseHoldExpiry (b : Fin 16) (s : State) : Host.Outcome State Fault Refusal :=
  let n := b.val
  State.done (match (s.bank n).lastDrive, s.bankLive n && s.actMode n == 2 && !s.on (FB.BANK_STAT_RELEASED n) with
    | some t, true => (s.untilMono (t + ms (s.get (FB.BANK_CFG_RELEASE_MS n)))).releaseBank n
    | _, _ => s) s

/-- TIMED_SAFE_TIMEOUT (R205): TS_TIMEOUT_MS after the entry into output hold. -/
def execTimedSafeTimeout (ch : Fin 256) (s : State) : Host.Outcome State Fault Refusal :=
  let c := ch.val
  State.done (match (s.chan c).holdSince, s.chLive c && s.on (FB.CH_CFG_TIMED_SAFE (bk c) (li c)) && s.outSt c == 1 with
    | some t, true => (s.untilMono (t + ms (s.get (FB.CH_TS_TS_TIMEOUT_MS (bk c) (li c))))).timedSafe c
    | _, _ => s) s

/-! ### Supplies (R188, R189) -/

/-- FV as measured, in mV and mA; a reversed supply reads 0 (R212). -/
def State.fvMeas (s : State) (b : Nat) (mv : Int) (ma : Nat) : State :=
  (s.put (FB.FV_MEAS_FV_MV b) (min mv.toNat 0xFFFF)).put (FB.FV_MEAS_FV_MA b) ma

/-- FV_FAULT (R188): FV at `mv` millivolts lies below 18.5 V or above 31.0 V. -/
def execFvFault (b : Fin 16) (mv : Int) (ma : BitVec 16) (s : State) : Host.Outcome State Fault Refusal :=
  let n := b.val
  State.done (if !s.bankLive n then s
    else if mv < 18500 then (s.fvMeas n mv ma.toNat).fvBad n true
    else if 31000 < mv then (s.fvMeas n mv ma.toNat).fvBad n false
    else s.fvMeas n mv ma.toNat) s

/-- FV_RECOVERY (R188): FV has come back within range, above 19.0 V after FV_LOW, below 30.5 V after FV_HIGH; the levels clear at
once, the outputs resume at the first tick boundary 10 ms later. -/
def execFvRecovery (b : Fin 16) (mv ma : BitVec 16) (s : State) : Host.Outcome State Fault Refusal :=
  let n := b.val
  State.done (if !s.bankLive n then s
    else
      let s := s.fvMeas n mv.toNat ma.toNat
      if (s.on (FB.BANK_STAT_FV_LOW n) && decide (mv.toNat ≤ 19000)) || (s.on (FB.BANK_STAT_FV_HIGH n) && decide (30500 ≤ mv.toNat)) ||
          decide (mv.toNat < 18500) || decide (31000 < mv.toNat) then s
      else
        let s := ((s.put (FB.BANK_STAT_FV_LOW n) 0).put (FB.BANK_STAT_FV_HIGH n) 0).put (FB.BANK_STAT_FV_OK n) 1
        s.setBank n { s.bank n with fvResume := some ((s.bank n).fvResume.getD s.mono) }) s

/-- BANK_SUPPLY_LOSS (R189). -/
def execBankSupplyLoss (b : Fin 16) (s : State) : Host.Outcome State Fault Refusal :=
  State.done (if (s.bank b.val).supply then s.bankOff b.val else s) s

/-! ### Digital inputs and outputs (R192 to R197) -/

/-- The next sample instant of DI `ch` (R194): the present instant if it is one that has not been taken yet. -/
def State.nextSample (s : State) (ch : Nat) : BitVec 64 :=
  let t := max (s.sampleNs ch) 1
  let k := s.now / t
  if s.atTime (k * t) && (!(s.chan ch).sampled || decide ((s.chan ch).sampleAt + 40 < s.mono)) then s.tku.ns
  else BitVec.ofNat 64 ((k + 1) * t)

/-- DI_SAMPLE (R195): the raw input at the next sample instant. -/
def execDiSample (ch : Fin 256) (raw : Bool) (s : State) : Host.Outcome State Fault Refusal :=
  State.done (if s.chLive ch.val && isDI (s.chType ch.val) then (s.untilTime (s.nextSample ch.val)).diSample ch.val raw else s) s

/-- The DO is commanded on: driven, held or timed-safe at 1. -/
def State.commandedOn (s : State) (ch : Nat) : Bool :=
  s.outSt ch != 3 && (s.chan ch).applied != 0 && (!s.chSafety ch || !s.on (FB.CH_STAT_TRIP (bk ch) (li ch))) && s.canDrive (bk ch)

/-- FOLD_BACK (R192): the DO has stayed in its current limit for 2 ms, at the earliest since it was switched on. -/
def execFoldBack (ch : Fin 256) (s : State) : Host.Outcome State Fault Refusal :=
  let c := ch.val
  State.done (match (s.chan c).onSince, s.chLive c && s.chType c == 4 && s.closed c with
    | some t, true =>
      let s := s.untilMono (t + ms 2)
      let s := ((s.put (FB.CH_STAT_SHORT (bk c) (li c)) 1).bump (FB.CH_CNT_SHORT_CNT (bk c) (li c))).killPulse c
      (s.put (FB.CH_STAT_READBACK_ERR (bk c) (li c)) 0).setChan c { s.chan c with shortAt := some s.mono, rbSince := none } |>.showDO c
    | _, _ => s) s

/-- FOLDBACK_RETRY (R192): the output is on for 2 ms, 100 ms after the fold-back or the last retry; `limited` tells that it stays in the
limit, which ends with the output off again. DESIGN CHOICE (assumption 43): the 100 ms run from the fold-back to the first retry, and
from the start of one retry to that of the next. -/
def execFoldbackRetry (ch : Fin 256) (limited : Bool) (s : State) : Host.Outcome State Fault Refusal :=
  let c := ch.val
  let raw := FB.CH_STAT_RAW (bk c) (li c)
  State.done (match (s.chan c).shortAt, s.chLive c && s.on (FB.CH_STAT_SHORT (bk c) (li c)) && s.chType c == 4 && s.commandedOn c with
    | some t, true =>
      let s := (s.untilMono (t + ms 100)).putB raw true
      let at0 := s.mono
      let s := s.untilMono (at0 + ms 2)
      if limited then (s.putB raw false).setChan c { s.chan c with shortAt := some at0 }
      else
        let s := (s.put (FB.CH_STAT_SHORT (bk c) (li c)) 0).setChan c { s.chan c with shortAt := none, rbSince := none, onSince := some at0 }
        s.showDO c
    | _, _ => s) s

/-- READBACK_ERR (R193): the terminal as read back, and whether it now lies beyond the limit for the present command: above 5 V while
commanded off; while commanded on and not in current limit, more than 3 V below FV, or 12 V on an Ex ic bank. One that has lain there
for more than 1 ms is an error. Not judged while SHORT. -/
def execReadbackErr (ch : Fin 256) (term bad : Bool) (s : State) : Host.Outcome State Fault Refusal :=
  let c := ch.val
  let err := FB.CH_STAT_READBACK_ERR (bk c) (li c)
  State.done (if s.chLive c && s.chType c == 4 && !s.on (FB.CH_STAT_SHORT (bk c) (li c)) && (s.chan c).pulse.isNone &&
      !(bad && !term && !s.commandedOn c) then
      let s := s.putB (FB.CH_STAT_RAW (bk c) (li c)) term
      if !bad then ((s.put err 0).setChan c { s.chan c with rbSince := none }).chFault c
      else match (s.chan c).rbSince with
        | none => s.setChan c { s.chan c with rbSince := some s.mono }
        | some t => ((s.untilMono (t + ms 1 + 1)).put err 1).chFault c
    else s) s

/-- OPEN_LOAD (R193): whether the current of the DO now lies below its open-load level; after 100 ms of it the level is set. -/
def execOpenLoad (ch : Fin 256) (low : Bool) (s : State) : Host.Outcome State Fault Refusal :=
  let c := ch.val
  let fld := FB.CH_STAT_OPEN_LOAD (bk c) (li c)
  State.done (if s.chLive c && s.chType c == 4 then
      if !low || !s.energised c || !s.on (FB.CH_CFG_OPEN_LOAD_EN (bk c) (li c)) then
        ((s.put fld 0).setChan c { s.chan c with olSince := none }).chFault c
      else match (s.chan c).olSince with
        | none => s.setChan c { s.chan c with olSince := some s.mono }
        | some t => ((s.untilMono (t + ms 100)).put fld 1).chFault c
    else s) s

/-- LINE_FAULT (R197): the current of a NAMUR sensor in µA. -/
def execLineFault (ch : Fin 256) (ua : BitVec 16) (s : State) : Host.Outcome State Fault Refusal :=
  let c := ch.val
  State.done (if s.chLive c && s.chType c == 3 then
      (s.putB (FB.CH_STAT_LINE_FAULT (bk c) (li c)) (decide (ua.toNat < 150 ∨ 6000 < ua.toNat))).chFault c
    else s) s

/-! ### Test pulses (R198 to R201) -/

/-- TEST_PULSE_START (R198): at the present tick boundary. -/
def execTestPulseStart (ch : Fin 256) (s : State) : Host.Outcome State Fault Refusal := State.done (s.pulseStart ch.val) s

/-- PULSE_VERDICT (R199, R200): `raws` holds the raw inputs of the bank. -/
def execPulseVerdict (ch : Fin 256) (high : Bool) (raws : BitVec 16) (s : State) : Host.Outcome State Fault Refusal :=
  let c := ch.val
  State.done (match (s.chan c).pulse with
    | none => s
    | some p => (s.untilMono (p.since + (p.width - us 20))).pulseVerdict c high raws) s

/-- TEST_PULSE_END (R199, R201). -/
def execTestPulseEnd (ch : Fin 256) (s : State) : Host.Outcome State Fault Refusal :=
  let c := ch.val
  State.done (match (s.chan c).pulse with
    | none => s
    | some p => (s.untilMono (p.since + p.width)).pulseEnd c) s

/-! ### The trip-line link (R207, R266) -/

/-- SAFETY_POLL (R207): the answer waits for the Gauntlet's next scan. -/
def execSafetyPoll (b : Fin 16) (s : State) : Host.Outcome State Fault Refusal :=
  let n := b.val
  State.done (if s.bankLive n then
      let s := s.pollAll (bankChans n)
      s.setBank n { s.bank n with polled := true }
    else s) s

/-- TRIP_WORD (R207): permit bits, their complement and the sequence number as received. -/
def execTripWord (b : Fin 16) (w c : BitVec 16) (seq : BitVec 8) (s : State) : Host.Outcome State Fault Refusal :=
  State.done (s.tripWord b.val w c seq.toNat) s

/-- TRIP_WORD_TIMEOUT (R207): 1 ms without a valid word. -/
def execTripWordTimeout (b : Fin 16) (s : State) : Host.Outcome State Fault Refusal :=
  let n := b.val
  State.done (if s.bankLive n then
      (s.untilMono (((s.bank n).tripAt.getD (s.bank n).resetAt) + ms 1)).tripLoss n
    else s) s

/-! ### Analogue conditions (R217, R218, R221, R232) -/

/-- A condition timer has run for 10 ms. -/
def ranOut (since : Option Nat) (now : Nat) : Bool := match since with | none => false | some t => decide (t + ms 10 ≤ now)

/-- The flags of R217 whose condition has differed for 10 ms change over; entries into OPEN_LOOP count. -/
def State.rangeFlags (s : State) (ch : Nat) : State :=
  let b := bk ch
  let i := li ch
  let c := s.chan ch
  let lo := ranOut c.loSince s.mono
  let op := ranOut c.openSince s.mono
  let hi := ranOut c.hiSince s.mono
  let s := if op && !s.on (FB.AN_STAT_OPEN_LOOP b i) then s.bump (FB.AN_CNT_OPEN_CNT b i) else s
  let s := s.putB (FB.AN_STAT_RANGE_LO b i) (s.on (FB.AN_STAT_RANGE_LO b i) != lo)
  let s := s.putB (FB.AN_STAT_OPEN_LOOP b i) (s.on (FB.AN_STAT_OPEN_LOOP b i) != op)
  let s := s.putB (FB.AN_STAT_RANGE_HI b i) (s.on (FB.AN_STAT_RANGE_HI b i) != hi)
  (s.setChan ch { c with loSince := if lo then none else c.loSince, openSince := if op then none else c.openSince,
                         hiSince := if hi then none else c.hiSince }).anMirror ch

/-- AI_RANGE_TIMER (R217): the earliest of the running timers of AI `ch` reaches 10 ms. -/
def execAiRangeTimer (ch : Fin 256) (s : State) : Host.Outcome State Fault Refusal :=
  let c := s.chan ch.val
  State.done (match optMin c.loSince (optMin c.openSince c.hiSince), s.chLive ch.val && s.chType ch.val == 5 with
    | some t, true => (s.untilMono (t + ms 10)).rangeFlags ch.val
    | _, _ => s) s

/-- SUPPLY_LIMIT (R218): whether the loop supply is now in its current limit. The level follows 10 ms after the supply enters the limit, and
10 ms after it leaves it. -/
def execSupplyLimit (ch : Fin 256) (limited : Bool) (s : State) : Host.Outcome State Fault Refusal :=
  let c := ch.val
  let fld := FB.AN_STAT_SUPPLY_LIMIT (bk c) (li c)
  State.done (if s.chLive c && s.chType c == 5 && s.on (FB.AN_CFG_LOOP_PWR (bk c) (li c)) then
      if limited = s.on fld then s.setChan c { s.chan c with supSince := none }
      else match (s.chan c).supSince with
        | none => s.setChan c { s.chan c with supSince := some s.mono }
        | some t =>
          let s := (s.untilMono (t + ms 10)).putB fld limited
          (s.setChan c { s.chan c with supSince := none }).anMirror c
    else s) s

/-- COMPLIANCE (R221): whether the AO falls short of its command at its voltage limit, with the voltage across its terminals. -/
def execCompliance (ch : Fin 256) (short : Bool) (mv : BitVec 16) (s : State) : Host.Outcome State Fault Refusal :=
  let c := ch.val
  let b := bk c
  let i := li c
  State.done (if s.bankLive b && isAO (s.chType c) then
      let s := s.put (FB.AN_STAT_TERM_MV b i) mv.toNat
      if !short then s.complEnds c
      else if !s.chLive c || s.outSt c == 3 || !s.canDrive b || (s.chan c).complSince.isSome then s
      else
        ((s.put (FB.AN_STAT_COMPLIANCE b i) 1).bump (FB.AN_CNT_COMPL_CNT b i)).setChan c
          { s.chan c with complSince := some s.mono }
    else s) s

/-- COMPL_FAULT (R221): 9 ms after COMPLIANCE was set; OPEN_LOOP instead where the command is at least 1.0 mA and the measured
current below 0.2 mA. -/
def execComplFault (ch : Fin 256) (s : State) : Host.Outcome State Fault Refusal :=
  let c := ch.val
  let b := bk c
  let i := li c
  State.done (match (s.chan c).complSince, s.chLive c && isAO (s.chType c) && s.on (FB.AN_STAT_COMPLIANCE b i) &&
      !s.on (FB.AN_STAT_COMPL_FAULT b i) && !s.on (FB.AN_STAT_OPEN_LOOP b i) with
    | some t, true =>
      let s := s.untilMono (t + ms 9)
      if 1000000 ≤ (s.chan c).applied ∧ (s.chan c).own < 200000 then
        ((s.put (FB.AN_STAT_OPEN_LOOP b i) 1).bump (FB.AN_CNT_OPEN_CNT b i)).anMirror c
      else (s.put (FB.AN_STAT_COMPL_FAULT b i) 1).anMirror c
    | _, _ => s) s

/-! ### Join mode (R224) -/

/-- A RED channel that regulates: driven, not held or released. -/
def State.joins (s : State) (ch : Nat) : Bool :=
  s.chLive ch && isAO (s.chType ch) && s.on (FB.AN_CFG_RED (bk ch) (li ch)) && s.outSt ch == 0

/-- The join state of channel `ch` becomes `j` (R224). -/
def State.setJoin (s : State) (ch j : Nat) : State :=
  let s := (s.put (FB.AN_STAT_JOIN (bk ch) (li ch)) j).setChan ch { s.chan ch with joinSince := none }
  s.regulate ch

/-- JOIN_TO_SOLE (R224): the peer share has stayed below 0.1 mA for 1 ms. -/
def execJoinToSole (ch : Fin 256) (s : State) : Host.Outcome State Fault Refusal :=
  let c := ch.val
  State.done (match (s.chan c).joinSince, s.joins c && s.get (FB.AN_STAT_JOIN (bk c) (li c)) == 1 with
    | some t, true => (s.untilMono (t + ms 1)).setJoin c 2
    | _, _ => s) s

/-- SOLE_TO_JOIN (R224): the total has exceeded the own current by more than 0.2 mA for 1 ms. -/
def execSoleToJoin (ch : Fin 256) (s : State) : Host.Outcome State Fault Refusal :=
  let c := ch.val
  State.done (match (s.chan c).joinSince, s.joins c && s.get (FB.AN_STAT_JOIN (bk c) (li c)) == 2 with
    | some t, true => (s.untilMono (t + ms 1)).setJoin c 1
    | _, _ => s) s

end Sys2Proof.Machine
end

