-- ==== Sys2Proof/Machine/DebugOps.lean ====
section
/-! DEFINITION. The Debug Module behind the DMI registers of the DBG page: abstract commands, triggers and the end of an access
(R254, R258). -/

namespace Sys2Proof.Machine

/-- The abstract command that accesses memory (R254): bits [22:20] give the size, bit 16 a write, data1 the address and data0 the data. No
core halts for it. -/
def State.dmMemory (s : State) (w : Word) : State :=
  let size := 2 ^ bits w 20 3
  let a := s.dmod.data1.toNat
  if 4 < size then s
  else if w.getLsbD 16 then s.busWrite 8 a size (s.dmod.data0.setWidth 64)
  else
    let s := s.busRead 8 a size
    match s.resp with
    | .data v => { s with dmod := { s.dmod with data0 := v.setWidth 32 } }
    | _ => s

/-- The trigger that core `h` has selected. -/
def State.trigKey (s : State) (h : Nat) : Nat := 4 * h + mapGet (fun _ => 0) s.dmod.tsel h

/-- A trigger register of core `h` written: 0x7A0 selects one of four triggers, 0x7A1 its control, 0x7A2 its match value. -/
def State.trigWrite (s : State) (h r : Nat) (v : Word) : State :=
  let k := s.trigKey h
  let old := mapGet (fun _ => ((0 : Word), (0 : Word))) s.dmod.trigs k
  if r = 0x7A0 then
    (if v.toNat < 4 then { s with dmod := { s.dmod with tsel := mapSet (fun _ => 0) s.dmod.tsel h v.toNat } } else s)
  else if r = 0x7A1 then { s with dmod := { s.dmod with trigs := mapSet (fun _ => (0, 0)) s.dmod.trigs k (v, old.2) } }
  else if r = 0x7A2 then { s with dmod := { s.dmod with trigs := mapSet (fun _ => (0, 0)) s.dmod.trigs k (old.1, v) } }
  else s

/-- A register of core `h` as an abstract command reads it: a trigger register, mhartid (0xF14, R235), or `x`, what the core holds. -/
def State.coreReg (s : State) (h r : Nat) (x : Word) : Word :=
  let g := mapGet (fun _ => ((0 : Word), (0 : Word))) s.dmod.trigs (s.trigKey h)
  if r = 0x7A0 then BitVec.ofNat 32 (s.trigKey h % 4) else if r = 0x7A1 then g.1 else if r = 0x7A2 then g.2
  else if r = 0xF14 then BitVec.ofNat 32 h else x

/-- The abstract command that accesses a register of the selected core, which must be halted (R254): bits [15:0] give the register, bit 16
a write, bit 17 the transfer. The registers of a core other than its triggers are not part of the block: `x` is what a read finds. -/
def State.dmRegister (s : State) (w x : Word) : State :=
  let h := s.dmod.hart
  if !w.getLsbD 17 || !(decide (h < 8) && s.bit DBG.DBG_STAT_HALTED h) then s
  else if w.getLsbD 16 then s.trigWrite h (bits w 0 16) s.dmod.data0
  else { s with dmod := { s.dmod with data0 := s.coreReg h (bits w 0 16) x } }

/-- Write `d` to register `a` of the Debug Module (R254; the register addresses and command formats are those of RISC-V External Debug
Support 0.13.2, PRESUMED, assumption 41): data0, data1, dmcontrol and command. The truth value tells that the access was refused. -/
def State.dmWrite (s : State) (a : Nat) (d x : Word) : State × Bool :=
  if a = 0x04 then ({ s with dmod := { s.dmod with data0 := d } }, false)
  else if a = 0x05 then ({ s with dmod := { s.dmod with data1 := d } }, false)
  else if a = 0x10 then s.dmcontrol d
  else if a = 0x17 then (if bits d 24 8 = 2 then s.dmMemory d else if bits d 24 8 = 0 then s.dmRegister d x else s, false)
  else (s, false)

/-- What register `a` of the Debug Module reads as: `x` where this model holds none. -/
def State.dmRead (s : State) (a : Nat) (x : Word) : Word :=
  if a = 0x04 then s.dmod.data0 else if a = 0x05 then s.dmod.data1 else x

/-- The access completes (R258), or the Debug Module refuses it; `x` stands for what this model does not hold of it. -/
def State.dmiDone (s : State) (failed : Bool) (x : Word) : State :=
  match s.dmi with
  | none => s
  | some (wr, a, d) =>
    let s := ({ s with dmi := none }).put DBG.DMI_STAT_BUSY 0
    if failed then s.put DBG.DMI_STAT_FAILED 1
    else if wr then let (s, r) := s.dmWrite a.toNat d x; s.putB DBG.DMI_STAT_FAILED r
    else (s.put DBG.DMI_STAT_FAILED 0).put DBG.DMI_RDATA (s.dmRead a.toNat x).toNat

end Sys2Proof.Machine
end

