-- ==== Sys2Proof/Machine/Hart.lean ====
section
/-! DEFINITION. The commands of the HART modems (R226 to R230). -/

namespace Sys2Proof.Machine

/-- The HART side of channel `ch` works: its bank, its page. -/
def State.modemLive (s : State) (ch : Nat) : Bool := s.bankLive (bk ch) && s.enabled (0x20 + bk ch)

/-- HART_REQUEST (R229). -/
def execHartRequest (b : Fin 16) (s : State) : Host.Outcome State Fault Refusal :=
  State.done (if s.bankLive b.val && s.enabled (0x20 + b.val) then s.hartTake b.val else s) s

/-- HART_TRANSMIT (R228). -/
def execHartTransmit (ch : Fin 256) (s : State) : Host.Outcome State Fault Refusal :=
  State.done (if s.modemLive ch.val then s.hartTransmit ch.val else s) s

/-- HART_RESPONSE (R230): the frame received, without preambles and check byte; its delimiter began `ago` ns before now. -/
def execHartResponse (ch : Fin 256) (err : HartErr) (frame : HartHeard) (s : State) :
    Host.Outcome State Fault Refusal :=
  State.done (if s.modemLive ch.val then s.hartResponse ch.val frame.ago err frame.bytes else s) s

/-- HART_TIMEOUT (R230): 28 character times after the end of the request. -/
def execHartTimeout (ch : Fin 256) (s : State) : Host.Outcome State Fault Refusal :=
  let c := ch.val
  State.done (match (s.chan c).hart, s.modemLive c with
    | r :: _, true =>
      (match r.sentAt with
       | some t => (s.untilMono (t + hartChars 28)).hartFail c 1 none
       | none => s)
    | _, _ => s) s

/-- HART_BURST (R226). -/
def execHartBurst (ch : Fin 256) (frame : HartHeard) (s : State) : Host.Outcome State Fault Refusal :=
  State.done (if s.modemLive ch.val then s.hartBurst ch.val frame.ago frame.bytes else s) s

end Sys2Proof.Machine
end

