-- ==== Sys2Proof/Machine/Pairs.lean ====
section
/-! DEFINITION. The commands of the safe core pairs, the Weirs, the memories' check bits and the debug port (R235 to R258). -/

namespace Sys2Proof.Machine

/-- COMPARATOR_MISMATCH (R237, R239, R84): the outputs of the two copies of unit `u` at a comparison, pair `u` or logic sequencer
`u - 4`. -/
def execComparatorMismatch (u : Fin 8) (lead trail : CopyOut) (pc : BitVec 32) (s : State) : Host.Outcome State Fault Refusal :=
  State.done (s.mismatch u.val lead trail pc.toNat) s

/-- COMPARATOR_TEST (R240, R84): what the comparator of unit `u` reports in the two clock cycles of its test. -/
def execComparatorTest (u : Fin 8) (r : LaneTest) (pc : BitVec 32) (s : State) : Host.Outcome State Fault Refusal :=
  State.done (s.comparatorTest u.val r pc.toNat) s

/-- DELAY_PARITY_ERROR (R241, R84). -/
def execDelayParityError (u : Fin 8) (pc addr : BitVec 32) (s : State) : Host.Outcome State Fault Refusal :=
  State.done (s.delayParity u.val pc.toNat addr.toNat) s

/-- AGREEMENT_POINT (R243 to R246). -/
def execAgreementPoint (p : Fin 4) (point : AgreePoint) (pc : BitVec 32) (d0 : BitVec 64) (d1 d3 d4 : Bool) (dt : Nat) (ext tim : Bool)
    (s : State) : Host.Outcome State Fault Refusal :=
  State.done (s.agreement p.val point.kind point.n.toNat pc.toNat d0 d1 d3 d4 dt ext tim) s

/-- IRQ_ASSERT (R247, R12): the interrupt output of `page` is asserted. -/
def execIrqAssert (page : Fin 256) (s : State) : Host.Outcome State Fault Refusal := State.done (s.irqAssert page.val) s

/-- MTIMECMP_REACHED (R248, R12). -/
def execMtimecmpReached (p : Fin 4) (second : Bool) (s : State) : Host.Outcome State Fault Refusal :=
  State.done (s.mtimecmp p.val second) s

/-- ECC_SINGLE_BIT (R251): corrected, written back and counted. -/
def execEccSingleBit (mem : EccMem) (addr : BitVec 32) (s : State) : Host.Outcome State Fault Refusal :=
  State.done (if s.mstate = stPOWER_ON then s else s.eccNote mem addr.toNat false) s

/-- ECC_DOUBLE_BIT (R252): met by `who` on an access. -/
def execEccDoubleBit (mem : EccMem) (addr : BitVec 32) (who : EccMaster) (pc : BitVec 32) (s : State) :
    Host.Outcome State Fault Refusal :=
  State.done (if s.mstate = stPOWER_ON then s else s.eccDouble mem addr.toNat who pc.toNat) s

/-- SCRUB_WORD (R253). -/
def execScrubWord (mem : EccMem) (addr : BitVec 32) (found : ScrubFind) (s : State) : Host.Outcome State Fault Refusal :=
  State.done (if s.mstate = stPOWER_ON then s else s.scrub mem addr.toNat found) s

/-- DMI_READ (R258): DMI_OP 1. -/
def execDmiRead (m : Master) (s : State) : Host.Outcome State Fault Refusal := State.done (s.cmdWrite m 0x90 0x058 1) s

/-- DMI_WRITE (R258): DMI_OP 2. -/
def execDmiWrite (m : Master) (s : State) : Host.Outcome State Fault Refusal := State.done (s.cmdWrite m 0x90 0x058 2) s

/-- DMI_DONE (R258, R254): the Debug Module's answer. -/
def execDmiDone (failed : Bool) (rdata : BitVec 32) (s : State) : Host.Outcome State Fault Refusal :=
  State.done (s.dmiDone failed rdata) s

/-- DBG_AUTH_SUBMIT (R254). -/
def execDbgAuthSubmit (m : Master) (s : State) : Host.Outcome State Fault Refusal := State.done (s.cmdGuard m 0x90 0x400 1) s

/-- DBG_AUTH_TIMEOUT (R254). -/
def execDbgAuthTimeout (s : State) : Host.Outcome State Fault Refusal := State.done s.dbgAuthEnd s

end Sys2Proof.Machine
end

