-- ==== Sys2Proof/Machine/Gauntlet.lean ====
section
/-! DEFINITION. The commands of the Gauntlet, of the safety parameter set, the credentials and the sealed switches (R264 to R287). -/

namespace Sys2Proof.Machine

/-- GAUNTLET_SCAN (R266, R268, R278): one scan, and what its self-test vector shows. -/
def execGauntletScan (t : GntTest) (s : State) : Host.Outcome State Fault Refusal := State.done (s.gntScan t) s

/-- The Gauntlet scans: its tables are loaded and its supply stands. -/
def State.gntScans (s : State) : Bool := s.on GNT.GNT_STAT_SCANNING && !s.gnt.stopped

/-- DISCREPANCY_TIMEOUT (R270): DISC_MS after the members of group `g` of output `j` came to differ. -/
def execDiscrepancyTimeout (j : Fin 64) (g : Fin 4) (s : State) : Host.Outcome State Fault Refusal :=
  State.done (match s.gnt.discSince.find? (fun e => e.1 == 4 * j.val + g.val), s.gntScans with
    | some (_, t), true => (s.untilMono (t + ms (psDisc s.gnt.tab j.val))).discReach j.val g.val
    | _, _ => s) s

/-- RESET_ARM (R276): 1 s after reset input `i` became valid and 0. -/
def execResetArm (i : Fin 128) (s : State) : Host.Outcome State Fault Refusal :=
  State.done (match (s.gin i.val).zeroSince, s.gntScans && psIsReset s.gnt.tab i.val with
    | some t, true => (s.untilMono (t + secs 1)).resetArm i.val
    | _, _ => s) s

/-- RESET_PRESS_TIMEOUT (R276): 5 s after the press of reset input `i` began. -/
def execResetPressTimeout (i : Fin 128) (s : State) : Host.Outcome State Fault Refusal :=
  State.done (match (s.gin i.val).pressSince, s.gntScans with
    | some t, true => (s.untilMono (t + secs 5)).resetStuck i.val
    | _, _ => s) s

/-- PARAM_CHECK (R277): whether the signature recomputed over the loaded tables is the stored one. -/
def execParamCheck (ok : Bool) (s : State) : Host.Outcome State Fault Refusal :=
  State.done (if s.gntScans && !ok then s.gntFault 1 else s) s

/-- GNT_OSC_WINDOW (R277): the oscillator over a 5 ms window, in kHz. -/
def execGntOscWindow (khz : BitVec 16) (s : State) : Host.Outcome State Fault Refusal :=
  State.done (if s.mstate = stPOWER_ON then s else s.gntOsc khz.toNat) s

/-- GNT_SUPPLY_FAULT (R277): not judged under the power-fail warning or in POWER_ON (R383). -/
def execGntSupplyFault (s : State) : Host.Outcome State Fault Refusal :=
  State.done (if s.pfw = true ∨ s.mstate = stPOWER_ON then s else s.gntSupply) s

/-- VOTE_REPEAT (R264). -/
def execVoteRepeat (s : State) : Host.Outcome State Fault Refusal := State.done s.voteTick s

/-- VOTE_LOSS (R273): 2 ms after the last accepted vote frame. -/
def execVoteLoss (s : State) : Host.Outcome State Fault Refusal := State.done (if s.gnt.stopped then s else s.voteLoss) s

/-- VOTE_GRACE_EXPIRY (R273). -/
def execVoteGraceExpiry (s : State) : Host.Outcome State Fault Refusal := State.done (if s.gnt.stopped then s else s.graceEnd) s

/-- PSET_LOAD (R281): a guarded write of `v`. -/
def execPsetLoad (m : Master) (v : BitVec 32) (s : State) : Host.Outcome State Fault Refusal :=
  State.done (s.cmdGuard m 0x07 0x400 v) s

/-- PSET_LOAD_DONE (R281). -/
def execPsetLoadDone (s : State) : Host.Outcome State Fault Refusal := State.done s.psetDone s

/-- COMMISSION (R285): a guarded write of `v`. -/
def execCommission (m : Master) (v : BitVec 32) (s : State) : Host.Outcome State Fault Refusal :=
  State.done (s.cmdGuard m 0x07 0x404 v) s

/-- CRED_CHANGE (R284): a guarded write of `v`. -/
def execCredChange (m : Master) (v : BitVec 32) (s : State) : Host.Outcome State Fault Refusal :=
  State.done (s.cmdGuard m 0x07 0x408 v) s

/-- CRED_LOCKOUT_EXPIRY (R284): 300 s after the lockout of purpose `p`. -/
def execCredLockoutExpiry (p : Fin 32) (s : State) : Host.Outcome State Fault Refusal := State.done (s.lockoutEnd p.val) s

/-- SEAL_SWITCH_CHANGE (R287): the switch block's new positions. -/
def execSealSwitchChange (addr : BitVec 8) (compat lock : Bool) (s : State) : Host.Outcome State Fault Refusal :=
  State.done (s.sealChange addr.toNat compat lock) s

end Sys2Proof.Machine
end

