-- ==== Sys2Proof/Machine/Ssc.lean ====
section
/-! DEFINITION. The commands of the safe channel (R299 to R308). -/

namespace Sys2Proof.Machine

/-- SSC_REPEAT (R300): REPEAT after the last send of producer entry `e`. -/
def execSscRepeat (e : Fin 64) (s : State) : Host.Outcome State Fault Refusal := State.done (s.sscRepeat e.val) s

/-- SSC_FRAME (R302): a frame for entry `e` on its transport, with how long ago it arrived. -/
def execSscFrame (e : Fin 64) (frame : List (BitVec 8)) (ago : BitVec 32) (s : State) : Host.Outcome State Fault Refusal :=
  let consumer := s.on (SSE.SESS_CFG_EN e.val) && !s.on (SSE.SESS_CFG_DIR e.val)
  State.done (if frameEntry frame = e.val then
      s.sscTake e.val (if consumer then s.unpadded e.val (if s.isVote e.val then 9 else s.sessTr e.val) frame else frame) (s.stampAgo (s.sessRes e.val) ago.toNat).1
    else s) s

/-- SSC_WATCHDOG (R304): WDOG after the last accepted frame. -/
def execSscWatchdog (e : Fin 64) (s : State) : Host.Outcome State Fault Refusal :=
  State.done (if s.enabled 0x06 then s.sscWatchdog e.val else s) s

/-- SESS_ACK (R305): a guarded write of the session number. -/
def execSessAck (m : Master) (v : BitVec 32) (s : State) : Host.Outcome State Fault Refusal :=
  State.done (s.cmdGuard m 0x06 0x400 v) s

/-- SESS_ENABLE (R306): the write of SESS_CFG of the selected entry. -/
def execSessEnable (m : Master) (v : BitVec 32) (s : State) : Host.Outcome State Fault Refusal :=
  State.done (s.cmdWrite m 0x06 0x084 v) s

/-- SESS_DISABLE (R308): the write of SESS_CFG of the selected entry. -/
def execSessDisable (m : Master) (v : BitVec 32) (s : State) : Host.Outcome State Fault Refusal :=
  State.done (s.cmdWrite m 0x06 0x084 v) s

end Sys2Proof.Machine
end

