-- ==== Sys2Proof/Machine/Ports.lean ====
section
/-! DEFINITION. The commands of the queue manager's rings, of the Ethernet ports and of the serial ports (R310 to R330, R453). -/

namespace Sys2Proof.Machine

/-! ### Rings (R312, R316, R327) -/

/-- RING_PROD_WRITE (R312): the write of RING_PROD of the selected ring. -/
def execRingProdWrite (m : Master) (v : BitVec 32) (s : State) : Host.Outcome State Fault Refusal :=
  State.done (s.cmdWrite m 0x0A 0x060 v) s

/-- RING_CONS_WRITE (R312): the write of RING_CONS of the selected ring. -/
def execRingConsWrite (m : Master) (v : BitVec 32) (s : State) : Host.Outcome State Fault Refusal :=
  State.done (s.cmdWrite m 0x0A 0x064 v) s

/-- RING_ENABLE (R327): the write of RING_CFG of the selected ring. -/
def execRingEnable (m : Master) (v : BitVec 32) (s : State) : Host.Outcome State Fault Refusal :=
  State.done (s.cmdWrite m 0x0A 0x050 v) s

/-- RING_DISABLE (R317, R327): the write of RING_CFG of the selected ring. -/
def execRingDisable (m : Master) (v : BitVec 32) (s : State) : Host.Outcome State Fault Refusal :=
  State.done (s.cmdWrite m 0x0A 0x050 v) s

/-- RING_HOLDOFF (R316): the oldest entry of ring `r` has waited HOLDOFF_US for its software consumer. -/
def execRingHoldoff (r : Fin 64) (s : State) : Host.Outcome State Fault Refusal :=
  let k := r.val
  State.done (if s.ringOn k && s.get (QMG.RING_EP_CONS_CLASS k) == epSoft && s.ringFill k != 0 &&
      s.get (QMG.RING_IRQ_HOLDOFF_US k) != 0 then
      (s.untilMono (mapGet (fun _ => 0) s.ringPosted (postKey k (s.get (QMG.RING_CONS_CONS_IDX k))) +
        us (s.get (QMG.RING_IRQ_HOLDOFF_US k)))).wakeFor (s.get (QMG.RING_CFG_MASTER k))
    else s) s

/-! ### Ethernet (R318 to R322) -/

/-- ETH_RX_FRAME (R321): a frame without preamble and FCS, whether its FCS was right, and how long ago it arrived. -/
def execEthRxFrame (p : Fin 12) (frame : List (BitVec 8)) (fcsOk : Bool) (ago : BitVec 32) (s : State) :
    Host.Outcome State Fault Refusal := State.done (s.ethFrame p.val frame fcsOk (s.stampAgo s.ethRes ago.toNat)) s

/-- ETH_TRANSMIT (R319). -/
def execEthTransmit (p : Fin 12) (s : State) : Host.Outcome State Fault Refusal := State.done (s.ethStart p.val) s

/-- ETH_TX_DONE (R320): the frame in hand has left, `ago` ns ago on its port and `ago2` ns ago on the odd port of a pair. -/
def execEthTxDone (p : Fin 12) (sent : EgressAgo) (s : State) : Host.Outcome State Fault Refusal :=
  State.done (if s.linksLive && s.enabled (0x40 + p.val) then s.ethDone p.val sent.ago.toNat sent.ago2.toNat else s) s

/-- LINK_DOWN (R320). -/
def execLinkDown (p : Fin 12) (s : State) : Host.Outcome State Fault Refusal :=
  State.done (if s.linkUp p.val then s.linkLost p.val else s) s

/-- LINK_UP (R318, R329). -/
def execLinkUp (p : Fin 12) (speed : BitVec 2) (s : State) : Host.Outcome State Fault Refusal :=
  State.done (s.linkRises p.val speed.toNat) s

/-- PORT_SPEED_WRITE (R327): the write of PORT_CFG. -/
def execPortSpeedWrite (m : Master) (p : Fin 12) (v : BitVec 32) (s : State) : Host.Outcome State Fault Refusal :=
  State.done (s.cmdWrite m (0x40 + p.val) 0x040 v) s

/-- PRP_SUPERVISION (R322): 2 s after the last supervision frame of the pair. -/
def execPrpSupervision (p : Fin 12) (s : State) : Host.Outcome State Fault Refusal :=
  State.done (if s.linksLive && s.inPrp p.val && p.val % 2 == 0 && s.enabled (0x40 + p.val) then
      (s.untilMono ((s.eth p.val).supSent + secs 2)).supSend p.val
    else s) s

/-- SFP_MODULE_INSERTION (R453): a transceiver put into SYN cage `k` or taken out; `sr` tells that it reports 10GBASE-SR. -/
def execSfpModuleInsertion (k : Fin 2) (present sr : Bool) (s : State) : Host.Outcome State Fault Refusal :=
  State.done (s.sfpChange k.val present sr) s

/-! ### Serial ports (R324 to R327) -/

/-- SER_TRANSMIT (R324): outside the Modbus master mode. -/
def execSerTransmit (n : Fin 32) (s : State) : Host.Outcome State Fault Refusal :=
  State.done (if s.serMode n.val = 3 then s else s.serStart n.val) s

/-- SER_RECORD_CLOSE (R325): a record of MODE 1 whose buffer is full, or a sentence of MODE 2. -/
def execSerRecordClose (n : Fin 32) (bytes : List (BitVec 8)) (parity framing brk : Bool) (ago : BitVec 32) (s : State) :
    Host.Outcome State Fault Refusal :=
  State.done (if s.serLive n.val then s.serRecord n.val bytes (lineStatus parity framing brk) (s.stampAgo 40 ago.toNat) else s) s

/-- SER_GAP_TIMEOUT (R325): a record of MODE 1 closes after GAP_CHAR idle character times. -/
def execSerGapTimeout (n : Fin 32) (bytes : List (BitVec 8)) (parity framing brk : Bool) (ago : BitVec 32) (s : State) :
    Host.Outcome State Fault Refusal :=
  State.done (if s.serLive n.val && s.serMode n.val == 1 then
      s.serRecord n.val bytes (lineStatus parity framing brk) (s.stampAgo 40 ago.toNat)
    else s) s

/-- MODBUS_FRAME_END (R326): t3.5 of idle after the bytes of a frame. -/
def execModbusFrameEnd (n : Fin 32) (bytes : List (BitVec 8)) (parity framing brk gap : Bool) (ago : BitVec 32) (s : State) :
    Host.Outcome State Fault Refusal :=
  State.done (if s.serLive n.val then s.modbusFrame n.val bytes (lineStatus parity framing brk) gap (s.stampAgo 40 ago.toNat) else s) s

/-- MODBUS_REQUEST (R326): the master's next request, on a bus idle for t3.5. -/
def execModbusRequest (n : Fin 32) (s : State) : Host.Outcome State Fault Refusal :=
  State.done (if s.serMode n.val = 3 then s.serStart n.val else s) s

/-- MODBUS_RESP_TIMEOUT (R326). -/
def execModbusRespTimeout (n : Fin 32) (s : State) : Host.Outcome State Fault Refusal :=
  State.done (if s.serLive n.val then s.modbusTimeout n.val else s) s

/-- MODBUS_TURNAROUND (R326). -/
def execModbusTurnaround (n : Fin 32) (s : State) : Host.Outcome State Fault Refusal :=
  State.done (if s.serLive n.val then s.modbusTurn n.val else s) s

/-- SER_MODE_OFF (R327): the write of SER_CFG. -/
def execSerModeOff (m : Master) (n : Fin 32) (v : BitVec 32) (s : State) : Host.Outcome State Fault Refusal :=
  State.done (s.cmdWrite m (0x64 + n.val) 0x040 v) s

/-- SER_TX_END (R324, R326): the last stop bit of the record in hand has left. -/
def execSerTxEnd (n : Fin 32) (s : State) : Host.Outcome State Fault Refusal :=
  State.done (if s.serLive n.val then s.serSent n.val else s) s

end Sys2Proof.Machine
end

