-- ==== Sys2Proof/Machine/Can.lean ====
section
/-! DEFINITION. The commands of the CAN FD controllers (R331 to R343). -/

namespace Sys2Proof.Machine

/-- CAN_FETCH (R333). -/
def execCanFetch (n : Fin 20) (s : State) : Host.Outcome State Fault Refusal := State.done (s.canFetch n.val) s

/-- CAN_SOF (R333): a possible start-of-frame. -/
def execCanSof (n : Fin 20) (s : State) : Host.Outcome State Fault Refusal := State.done (s.canSof n.val) s

/-- CAN_TX_END (R334): the frame on the bus ends without error. -/
def execCanTxEnd (n : Fin 20) (s : State) : Host.Outcome State Fault Refusal := State.done (s.canTxEnd n.val) s

/-- CAN_ARB_LOST (R334). -/
def execCanArbLost (n : Fin 20) (s : State) : Host.Outcome State Fault Refusal := State.done (s.canArbLost n.val) s

/-- CAN_BUS_ERROR (R331, R339): an error of LEC code `cls`, 1 to 6, and the error counters after it; 7 is a protocol exception. -/
def execCanBusError (n : Fin 20) (cls : Fin 8) (tec : BitVec 16) (rec : BitVec 8) (tx : Bool) (s : State) :
    Host.Outcome State Fault Refusal :=
  State.done (if cls.val = 0 then s else if cls.val = 7 then s.canException n.val else s.canError n.val cls.val tec.toNat rec.toNat tx) s

/-- CAN_RECOVER (R339): a write of CAN_CMD. -/
def execCanRecover (m : Master) (n : Fin 20) (s : State) : Host.Outcome State Fault Refusal :=
  State.done (s.cmdWrite m (0x50 + n.val) 0x088 1) s

/-- CAN_RECOVERED (R339). -/
def execCanRecovered (n : Fin 20) (s : State) : Host.Outcome State Fault Refusal := State.done (s.canRecovered n.val) s

/-- CAN_LAUNCH_TIME (R336). -/
def execCanLaunchTime (n : Fin 20) (b : Fin 8) (s : State) : Host.Outcome State Fault Refusal :=
  State.done (s.canLaunch n.val b.val) s

/-- CAN_AT_WINDOW_EXPIRY (R336). -/
def execCanAtWindowExpiry (n : Fin 20) (b : Fin 8) (s : State) : Host.Outcome State Fault Refusal :=
  State.done (s.canWindow n.val b.val) s

/-- CAN_RX_FRAME (R335): words 0 and 1 of the frame record, the data and how long ago its start of frame came. -/
def execCanRxFrame (n : Fin 20) (w0 w1 : BitVec 32) (bytes : List (BitVec 8)) (ago : BitVec 32) (s : State) :
    Host.Outcome State Fault Refusal := State.done (s.canFrame n.val w0 w1 bytes (s.stampAgo 40 ago.toNat)) s

/-- CAN_MODE_WRITE (R343): the write of CAN_CFG. -/
def execCanModeWrite (m : Master) (n : Fin 20) (v : BitVec 32) (s : State) : Host.Outcome State Fault Refusal :=
  State.done (s.cmdWrite m (0x50 + n.val) 0x040 v) s

/-- NBT_WRITE (R337, R343): the write of NBT. -/
def execNbtWrite (m : Master) (n : Fin 20) (v : BitVec 32) (s : State) : Host.Outcome State Fault Refusal :=
  State.done (s.cmdWrite m (0x50 + n.val) 0x044 v) s

/-- CAN_DET_DWELL (R342): DWELL_MS at a candidate without a frame. -/
def execCanDetDwell (n : Fin 20) (s : State) : Host.Outcome State Fault Refusal :=
  State.done (if s.detecting n.val && s.enabled (0x50 + n.val) then
      (s.untilMono ((s.can n.val).detSince + ms (s.get (CAN.DET_CFG_DWELL_MS n.val)))).detNext n.val
    else s) s

end Sys2Proof.Machine
end

