-- ==== Sys2Proof/Machine/Station.lean ====
section
/-! DEFINITION. The commands of the redundant station: records and heartbeats, leases, the witness, the time exchange, the Sluice, handover
and return (R347 to R376). -/

namespace Sys2Proof.Machine

/-! ### Records received (R347): the path, the 20 bytes, how long ago it arrived -/

/-- HEARTBEAT (R348): a record of type 1. -/
def execHeartbeat (path : Fin 13) (rec : List (BitVec 8)) (ago : BitVec 32) (s : State) :
    Host.Outcome State Fault Refusal := State.done (s.rdcTyped 1 path.val rec (s.stampAgo s.ethRes ago.toNat).1 s.stamp) s

/-- LEASE_REQ (R350): a record of type 2. -/
def execLeaseReq (path : Fin 13) (rec : List (BitVec 8)) (ago : BitVec 32) (s : State) :
    Host.Outcome State Fault Refusal := State.done (s.rdcTyped 2 path.val rec (s.stampAgo s.ethRes ago.toNat).1 s.stamp) s

/-- LEASE_GRANT (R349): a record of type 3. -/
def execLeaseGrant (path : Fin 13) (rec : List (BitVec 8)) (ago : BitVec 32) (s : State) :
    Host.Outcome State Fault Refusal := State.done (s.rdcTyped 3 path.val rec (s.stampAgo s.ethRes ago.toNat).1 s.stamp) s

/-- LEASE_REFUSE (R350): a record of type 4. -/
def execLeaseRefuse (path : Fin 13) (rec : List (BitVec 8)) (ago : BitVec 32) (s : State) :
    Host.Outcome State Fault Refusal := State.done (s.rdcTyped 4 path.val rec (s.stampAgo s.ethRes ago.toNat).1 s.stamp) s

/-- PEER_REQ (R351): a record of type 5. -/
def execPeerReq (path : Fin 13) (rec : List (BitVec 8)) (ago : BitVec 32) (s : State) :
    Host.Outcome State Fault Refusal := State.done (s.rdcTyped 5 path.val rec (s.stampAgo s.ethRes ago.toNat).1 s.stamp) s

/-- PEER_GRANT (R349): a record of type 6. -/
def execPeerGrant (path : Fin 13) (rec : List (BitVec 8)) (ago : BitVec 32) (s : State) :
    Host.Outcome State Fault Refusal := State.done (s.rdcTyped 6 path.val rec (s.stampAgo s.ethRes ago.toNat).1 s.stamp) s

/-- RELINQUISH (R368): a record of type 7. -/
def execRelinquish (path : Fin 13) (rec : List (BitVec 8)) (ago : BitVec 32) (s : State) :
    Host.Outcome State Fault Refusal := State.done (s.rdcTyped 7 path.val rec (s.stampAgo s.ethRes ago.toNat).1 s.stamp) s

/-- HANDOVER (R368): a record of type 8. -/
def execHandover (path : Fin 13) (rec : List (BitVec 8)) (ago : BitVec 32) (s : State) :
    Host.Outcome State Fault Refusal := State.done (s.rdcTyped 8 path.val rec (s.stampAgo s.ethRes ago.toNat).1 s.stamp) s

/-- TIME_REQ (R358): a record of type 9, with the egress stamp of the answer. -/
def execTimeReq (path : Fin 13) (rec : List (BitVec 8)) (ago dep : BitVec 32) (s : State) : Host.Outcome State Fault Refusal :=
  State.done (s.rdcTyped 9 path.val rec (s.stampAgo s.ethRes ago.toNat).1 dep.toNat) s

/-- TIME_RESP (R358): a record of type 10. -/
def execTimeResp (path : Fin 13) (rec : List (BitVec 8)) (ago : BitVec 32) (s : State) : Host.Outcome State Fault Refusal :=
  State.done (s.rdcTyped 10 path.val rec (s.stampAgo s.ethRes ago.toNat).1 s.stamp) s

/-- TIME_FUP (R358): a record of type 11. -/
def execTimeFup (path : Fin 13) (rec : List (BitVec 8)) (ago : BitVec 32) (s : State) : Host.Outcome State Fault Refusal :=
  State.done (s.rdcTyped 11 path.val rec (s.stampAgo s.ethRes ago.toNat).1 s.stamp) s

/-! ### What the redundancy controller does in time -/

/-- An event of the redundancy controller: none while its page is disabled (R39). -/
def State.rdcEvent (s : State) (f : State → State) : Host.Outcome State Fault Refusal :=
  State.done (if s.enabled 0x05 then f s else s) s

/-- HEARTBEAT_SEND (R348). -/
def execHeartbeatSend (s : State) : Host.Outcome State Fault Refusal := s.rdcEvent State.heartbeatSend

/-- TIME_EXCHANGE_TIMEOUT (R358). -/
def execTimeExchangeTimeout (s : State) : Host.Outcome State Fault Refusal := s.rdcEvent State.timeTimeout

/-- LEASE_RENEW (R349). -/
def execLeaseRenew (s : State) : Host.Outcome State Fault Refusal := s.rdcEvent State.leaseRenew

/-- STANDBY_LEASE_REQ (R354). -/
def execStandbyLeaseReq (s : State) : Host.Outcome State Fault Refusal := s.rdcEvent State.standbyReq

/-- LEASE_EXPIRY (R352). -/
def execLeaseExpiry (s : State) : Host.Outcome State Fault Refusal := s.rdcEvent State.leaseExpiry

/-- PEER_LEASE_EXPIRY (R351). -/
def execPeerLeaseExpiry (s : State) : Host.Outcome State Fault Refusal := s.rdcEvent State.signEnd

/-- WITNESS_STARTUP_HOLD (R350). -/
def execWitnessStartupHold (s : State) : Host.Outcome State Fault Refusal := s.rdcEvent State.dutyHold

/-- HANDOVER_TICK (R368). -/
def execHandoverTick (s : State) : Host.Outcome State Fault Refusal := s.rdcEvent State.handoverTick

/-- HANDOVER_TIMEOUT (R368, R59, R386). -/
def execHandoverTimeout (s : State) : Host.Outcome State Fault Refusal := s.rdcEvent State.handoverTimeout

/-- REVERT_HOLDOFF (R370). -/
def execRevertHoldoff (s : State) : Host.Outcome State Fault Refusal := s.rdcEvent State.revertHoldoff

/-- REVERT_START (R370). -/
def execRevertStart (s : State) : Host.Outcome State Fault Refusal := s.rdcEvent State.revertStart

/-- HB_LINK_TIMEOUT (R348): 3 ms without a valid record on a path. -/
def execHbLinkTimeout (path : Fin 15) (s : State) : Host.Outcome State Fault Refusal := s.rdcEvent (State.linkTimeout · path.val)

/-- TIME_EXCHANGE_START (R358): `t1` is the egress stamp of TIME_REQ. -/
def execTimeExchangeStart (t1 : BitVec 32) (s : State) : Host.Outcome State Fault Refusal := s.rdcEvent (State.timeStart · t1)

/-- WITNESS_GUARD_END (R350): 2 ms after the end of the lease of a station. -/
def execWitnessGuardEnd (station : Fin 256) (s : State) : Host.Outcome State Fault Refusal :=
  s.rdcEvent (State.guardEnd · station.val)

/-- COLD_START_WAIT (R354). -/
def execColdStartWait (station : Fin 256) (s : State) : Host.Outcome State Fault Refusal := s.rdcEvent (State.coldWait · station.val)

/-! ### The Sluice (R357 to R365) -/

/-- RESTORE_DONE (R365). -/
def execRestoreDone (s : State) : Host.Outcome State Fault Refusal := State.done s.restoreDone s

/-- FULL_CHECKPOINT_START (R360). -/
def execFullCheckpointStart (s : State) : Host.Outcome State Fault Refusal := State.done s.fullStart s

/-- FULL_CHECKPOINT_END (R360). -/
def execFullCheckpointEnd (s : State) : Host.Outcome State Fault Refusal := State.done s.fullEnd s

/-- SLUICE_RECORD (R361): the bytes of a record, its header first. -/
def execSluiceRecord (rec : List (BitVec 8)) (s : State) : Host.Outcome State Fault Refusal := State.done (s.sluiceTake rec) s

/-- CHECKPOINT_AGE_LIMIT (R357). -/
def execCheckpointAgeLimit (s : State) : Host.Outcome State Fault Refusal := State.done s.ckptLimit s

/-! ### Driver commands (R369, R371, R373) -/

/-- HANDOVER_REQ (R369): a guarded write of 1. -/
def execHandoverReq (m : Master) (s : State) : Host.Outcome State Fault Refusal := State.done (s.cmdGuard m 0x05 0x400 1) s

/-- REVERT_INHIBIT_SET (R371): a guarded write of 1. -/
def execRevertInhibitSet (m : Master) (s : State) : Host.Outcome State Fault Refusal := State.done (s.cmdGuard m 0x05 0x404 1) s

/-- REVERT_INHIBIT_CLEAR (R371): a guarded write of 2. -/
def execRevertInhibitClear (m : Master) (s : State) : Host.Outcome State Fault Refusal := State.done (s.cmdGuard m 0x05 0x404 2) s

/-- WM_ENABLE (R373): the write of WM_CFG of entry `w`. -/
def execWmEnable (m : Master) (w : Fin 8) (v : BitVec 32) (s : State) : Host.Outcome State Fault Refusal :=
  State.done (s.cmdWrite m 0x05 (0x800 + 32 * w.val) v) s

/-- WM_DISABLE (R373): the write of WM_CFG of entry `w`. -/
def execWmDisable (m : Master) (w : Fin 8) (v : BitVec 32) (s : State) : Host.Outcome State Fault Refusal :=
  State.done (s.cmdWrite m 0x05 (0x800 + 32 * w.val) v) s

end Sys2Proof.Machine
end

