-- ==== Sys2Proof/Machine/Power.lean ====
section
/-! DEFINITION. The commands of the feeds, the supplies, the boot loader, the front button and the automatic restart (R377 to R394). -/

namespace Sys2Proof.Machine

/-- MAINS_LOSS (R378): the mains as measured, in 0.1 V and 0.01 Hz, no longer meeting their OK condition. -/
def execMainsLoss (vrms freq : BitVec 16) (s : State) : Host.Outcome State Fault Refusal :=
  State.done (s.mainsChange vrms.toNat freq.toNat) s

/-- MAINS_RETURN (R378). -/
def execMainsReturn (vrms freq : BitVec 16) (s : State) : Host.Outcome State Fault Refusal :=
  State.done (s.mainsChange vrms.toNat freq.toNat) s

/-- AUX_LOSS (R378): the auxiliary input as measured, in mV and mA. -/
def execAuxLoss (mv ma : BitVec 16) (s : State) : Host.Outcome State Fault Refusal := State.done (s.auxChange mv.toNat ma.toNat) s

/-- AUX_RETURN (R378). -/
def execAuxReturn (mv ma : BitVec 16) (s : State) : Host.Outcome State Fault Refusal := State.done (s.auxChange mv.toNat ma.toNat) s

/-- PFW (R380): the bulk in 0.1 V has fallen below PF_THRESH. -/
def execPfw (bulk : BitVec 16) (s : State) : Host.Outcome State Fault Refusal := State.done (s.pfwAssert bulk.toNat) s

/-- PFW_CLEAR (R381): the bulk in 0.1 V has risen above PF_THRESH + 20 V. -/
def execPfwClear (bulk : BitVec 16) (s : State) : Host.Outcome State Fault Refusal := State.done (s.pfwClear bulk.toNat) s

/-- BROWN_OUT (R382). -/
def execBrownOut (s : State) : Host.Outcome State Fault Refusal := State.done (if s.mstate = stPOWER_ON then s else s.powerDown) s

/-- RAIL_FAULT (R383): rail `rail` is outside its window, below its reset level or not. -/
def execRailFault (rail : Fin 7) (below : Bool) (s : State) : Host.Outcome State Fault Refusal :=
  State.done (s.railFault rail.val below) s

/-- SUPPLIES_GOOD (R389). -/
def execSuppliesGood (bulk : BitVec 16) (s : State) : Host.Outcome State Fault Refusal := State.done (s.suppliesGood bulk.toNat) s

/-- BOOT_DONE (R390): `apps` holds the slots that the image assigns to its applications. -/
def execBootDone (apps : List (Fin 8192 × Fin 8)) (s : State) : Host.Outcome State Fault Refusal := State.done (s.bootDone apps) s

/-- STARTUP_TEST_DONE (R389, R392). -/
def execStartupTestDone (r : StartupTest) (s : State) : Host.Outcome State Fault Refusal := State.done (s.startupDone r) s

/-- BUTTON_PRESS (R386). -/
def execButtonPress (s : State) : Host.Outcome State Fault Refusal := State.done s.buttonPress s

/-- BUTTON_RELEASE (R386): after a press of `ms` milliseconds. -/
def execButtonRelease (ms : Nat) (s : State) : Host.Outcome State Fault Refusal := State.done (s.buttonRelease ms) s

/-- BUTTON_STUCK (R387): a press reaches 10 s. -/
def execButtonStuck (s : State) : Host.Outcome State Fault Refusal := State.done s.buttonStuck s

/-- BUTTON_REARM (R387): the stuck button has been seen released for 2 s. -/
def execButtonRearm (s : State) : Host.Outcome State Fault Refusal := State.done s.buttonRearm s

/-- AUTO_RESTART (R388). -/
def execAutoRestart (s : State) : Host.Outcome State Fault Refusal := State.done s.autoRestart s

end Sys2Proof.Machine
end

