-- ==== Sys2Proof/Machine/Recorder.lean ====
section
/-! DEFINITION. The commands of the Cistern (R395 to R411) and of the margin planner (R412 to R422). -/

namespace Sys2Proof.Machine

/-! ### The Cistern -/

/-- OP_SECONDS at its next multiple of `n` seconds; at once if a close of that length is due already. -/
def State.untilOps (s : State) (n done : Nat) : State :=
  if done < s.ops / n then s else s.untilMono (s.mono + secs (n - s.ops % n) - s.tku.opFrac)

/-- HOUR_CLOSE (R399): at the first tick boundary at which OP_SECONDS has reached a multiple of 3 600. -/
def execHourClose (s : State) : Host.Outcome State Fault Refusal :=
  State.done (if s.on CIS.CIS_STAT_SAMPLING then (s.untilOps 3600 s.cis.hours).epochs else s) s

/-- DAY_CLOSE (R399, R416, R425): at the first tick boundary at which OP_SECONDS has reached a multiple of 86 400. -/
def execDayClose (s : State) : Host.Outcome State Fault Refusal :=
  State.done (if s.on CIS.CIS_STAT_SAMPLING then (s.untilOps 86400 s.cis.days).epochs else s) s

/-- CIS_FLUSH (R400): CIS_CMD 1. -/
def execCisFlush (m : Master) (s : State) : Host.Outcome State Fault Refusal := State.done (s.cmdGuard m 0x08 0x400 1) s

/-- CIS_FLUSH_DONE (R400). -/
def execCisFlushDone (s : State) : Host.Outcome State Fault Refusal := State.done s.cisFlushDone s

/-- CIS_CLEAR (R408): CIS_CMD 2. -/
def execCisClear (m : Master) (s : State) : Host.Outcome State Fault Refusal := State.done (s.cmdGuard m 0x08 0x400 2) s

/-- TRACK_ENABLE (R402): the write of TRK_CFG of the selected track. -/
def execTrackEnable (m : Master) (v : BitVec 32) (s : State) : Host.Outcome State Fault Refusal :=
  State.done (s.cmdWrite m 0x08 0x074 v) s

/-- TRACK_DISABLE (R402): the write of TRK_CFG of the selected track. -/
def execTrackDisable (m : Master) (v : BitVec 32) (s : State) : Host.Outcome State Fault Refusal :=
  State.done (s.cmdWrite m 0x08 0x074 v) s

/-- CIS_EXPORT (R406). -/
def execCisExport (s : State) : Host.Outcome State Fault Refusal := State.done (if s.enabled 0x08 then s.cisExport else s) s

/-! ### The margin planner -/

/-- MONITOR_MEASURE (R412, R419): monitor `k` reads `v`; `refs` are the three references of a trio. -/
def execMonitorMeasure (k : Fin 77) (v : Int) (refs : List Int) (s : State) : Host.Outcome State Fault Refusal :=
  State.done (s.measureMon k.val v refs) s

/-- MPL_REPLAN (R416): MPL_CMD 2. -/
def execMplReplan (m : Master) (s : State) : Host.Outcome State Fault Refusal := State.done (s.cmdGuard m 0x02 0x400 2) s

/-- MPL_MEASURE_CAP (R418): MPL_CMD 1. -/
def execMplMeasureCap (m : Master) (s : State) : Host.Outcome State Fault Refusal := State.done (s.cmdGuard m 0x02 0x400 1) s

/-- An event of the planner: none while its page is disabled (R39). -/
def State.mplEvent (s : State) (f : State → State) : Host.Outcome State Fault Refusal :=
  State.done (if s.enabled 0x02 then f s else s) s

/-- CAP_MEASURE_DONE (R418): the capacitance in 0.1 µF. -/
def execCapMeasureDone (c : BitVec 16) (s : State) : Host.Outcome State Fault Refusal := s.mplEvent (State.capDone · c.toNat)

/-- Domain `d` has no work in hand and none scheduled within 12 µs (R417); a refresh of Cascade yields to the gap. -/
def State.gradeGap (s : State) (d : Nat) : Bool :=
  !(if d = 9 then (List.range 16).any (fun k => s.casHasWork k || s.casSt k == csLOADING) else s.pendingWork d) &&
    !s.workWithin d 11999

/-- GRADE_APPLY (R417): in a gap of the domain. -/
def execGradeApply (d : Fin 10) (s : State) : Host.Outcome State Fault Refusal :=
  s.mplEvent (fun s => if s.gradeGap d.val then s.gradeApply d.val else s)

/-- GRADE_RETRY (R417). -/
def execGradeRetry (d : Fin 10) (s : State) : Host.Outcome State Fault Refusal := s.mplEvent (State.gradeRetry · d.val)

/-- LEARNING_END (R414). -/
def execLearningEnd (s : State) : Host.Outcome State Fault Refusal := s.mplEvent State.learnEnd

/-- RECALIBRATION (R419): the median of the references of bank `b`, in nA. -/
def execRecalibration (b : Fin 16) (med : Int) (s : State) : Host.Outcome State Fault Refusal :=
  s.mplEvent (State.recalibrate · b.val med)

end Sys2Proof.Machine
end

