-- ==== Sys2Proof/Machine/Panel.lean ====
section
/-! DEFINITION. The commands of the front panel (R424 to R435). -/

namespace Sys2Proof.Machine

/-- An event of the panel driver: none in POWER_ON (R423). -/
def State.pnlEvent (s : State) (f : State → State) : Host.Outcome State Fault Refusal :=
  State.done (if s.mstate = stPOWER_ON then s else f s) s

/-- PANEL_UPDATE_START (R425): the panel's temperature in 0.1 °C. -/
def execPanelUpdateStart (temp : Int) (s : State) : Host.Outcome State Fault Refusal := s.pnlEvent (State.updateStart · temp)

/-- BAND_WAVEFORM_DONE (R426): the temperature after it. -/
def execBandWaveformDone (temp : Int) (s : State) : Host.Outcome State Fault Refusal := s.pnlEvent (State.bandDone · temp)

/-- IMAGE_WAVEFORM_DONE (R426). -/
def execImageWaveformDone (temp : Int) (s : State) : Host.Outcome State Fault Refusal := s.pnlEvent (State.imageDone · temp)

/-- CLEARING_WAVEFORM_DONE (R426, R429). -/
def execClearingWaveformDone (temp : Int) (s : State) : Host.Outcome State Fault Refusal := s.pnlEvent (State.clearDone · temp)

/-- BLINK_TOGGLE (R431). -/
def execBlinkToggle (s : State) : Host.Outcome State Fault Refusal := s.pnlEvent State.blinkToggle

/-- CRACK_CHECK (R433): the resistance of the edge loop in ohms. -/
def execCrackCheck (ohm : BitVec 16) (s : State) : Host.Outcome State Fault Refusal :=
  s.pnlEvent (fun s => if s.enabled 0x09 then s.crackCheck ohm.toNat else s)

/-- FRAME_CRC_CHECK (R434): whether the frame memory matches IMG_CRC. -/
def execFrameCrcCheck (ok : Bool) (s : State) : Host.Outcome State Fault Refusal :=
  s.pnlEvent (fun s => if s.enabled 0x09 then s.frameCheck ok else s)

/-- PNL_REFRESH (R435): PNL_CMD 1. -/
def execPnlRefresh (m : Master) (s : State) : Host.Outcome State Fault Refusal := State.done (s.cmdGuard m 0x09 0x400 1) s

/-- LAMP_TEST (R435): PNL_CMD 2. -/
def execLampTest (m : Master) (s : State) : Host.Outcome State Fault Refusal := State.done (s.cmdGuard m 0x09 0x400 2) s

/-- LAMP_TEST_DONE (R424). -/
def execLampTestDone (s : State) : Host.Outcome State Fault Refusal := s.pnlEvent State.lampDone

end Sys2Proof.Machine
end

