-- ==== Sys2Proof/Machine/Dispatch.lean ====
section
/-! DEFINITION. The dispatch: one arm per command, each one direct call of its meaning. -/

namespace Sys2Proof.Machine

/-- The meaning of each command. -/
def exec (i : Instr) (s : State) : Host.Outcome State Fault Refusal :=
  match i with
  | .tickBoundary field => Sys2Proof.Machine.execTickBoundary field s
  | .snapshotInstant => Sys2Proof.Machine.execSnapshotInstant s
  | .stageCutoff => Sys2Proof.Machine.execStageCutoff s
  | .loopRelease c done => Sys2Proof.Machine.execLoopRelease c done s
  | .domainWake d => Sys2Proof.Machine.execDomainWake d s
  | .clockLocked d => Sys2Proof.Machine.execClockLocked d s
  | .domainSleep d => Sys2Proof.Machine.execDomainSleep d s
  | .fclkLockTimeout d => Sys2Proof.Machine.execFclkLockTimeout d s
  | .fclkLock1msTimeout d => Sys2Proof.Machine.execFclkLock1msTimeout d s
  | .fclkMonitorWindow dev => Sys2Proof.Machine.execFclkMonitorWindow dev s
  | .tcxoCheckWindow ppb => Sys2Proof.Machine.execTcxoCheckWindow ppb s
  | .unmappedAccess m addr size wr => Sys2Proof.Machine.execUnmappedAccess m addr size wr s
  | .registerWrite m addr size v => Sys2Proof.Machine.execRegisterWrite m addr size v s
  | .lowWordRead m addr size => Sys2Proof.Machine.execLowWordRead m addr size s
  | .highWordWrite m addr v => Sys2Proof.Machine.execHighWordWrite m addr v s
  | .lowWordWrite m addr v => Sys2Proof.Machine.execLowWordWrite m addr v s
  | .sigimgTagWrite m slot v => Sys2Proof.Machine.execSigimgTagWrite m slot v s
  | .sigimgValueWrite m slot v => Sys2Proof.Machine.execSigimgValueWrite m slot v s
  | .errCntWrite m page v => Sys2Proof.Machine.execErrCntWrite m page v s
  | .enableClear m page v => Sys2Proof.Machine.execEnableClear m page v s
  | .softReset m page v => Sys2Proof.Machine.execSoftReset m page v s
  | .abort m page v => Sys2Proof.Machine.execAbort m page v s
  | .abortComplete page unit => Sys2Proof.Machine.execAbortComplete page unit s
  | .abortOverBound page unit => Sys2Proof.Machine.execAbortOverBound page unit s
  | .loopAbortFallback c => Sys2Proof.Machine.execLoopAbortFallback c s
  | .guardedValueWrite m page off v => Sys2Proof.Machine.execGuardedValueWrite m page off v s
  | .guardTimeout page => Sys2Proof.Machine.execGuardTimeout page s
  | .featCommit m v => Sys2Proof.Machine.execFeatCommit m v s
  | .stateReqRun m => Sys2Proof.Machine.execStateReqRun m s
  | .stateReqRestart m => Sys2Proof.Machine.execStateReqRestart m s
  | .imgUpdStart m v => Sys2Proof.Machine.execImgUpdStart m v s
  | .imageUpdateDone => Sys2Proof.Machine.execImageUpdateDone s
  | .bootSelect m v => Sys2Proof.Machine.execBootSelect m v s
  | .servoOffsetWrite m v => Sys2Proof.Machine.execServoOffsetWrite m v s
  | .addendFracWrite m v => Sys2Proof.Machine.execAddendFracWrite m v s
  | .integClr m => Sys2Proof.Machine.execIntegClr m s
  | .holdoverTimeout => Sys2Proof.Machine.execHoldoverTimeout s
  | .stepPermit m v => Sys2Proof.Machine.execStepPermit m v s
  | .stepApply => Sys2Proof.Machine.execStepApply s
  | .cycleBoundary q t => Sys2Proof.Machine.execCycleBoundary q t s
  | .nop q o => Sys2Proof.Machine.execNop q o s
  | .ld q o => Sys2Proof.Machine.execLd q o s
  | .ldn q o => Sys2Proof.Machine.execLdn q o s
  | .st q o => Sys2Proof.Machine.execSt q o s
  | .stn q o => Sys2Proof.Machine.execStn q o s
  | .setOp q o => Sys2Proof.Machine.execSetOp q o s
  | .resetOp q o => Sys2Proof.Machine.execResetOp q o s
  | .andOp q o => Sys2Proof.Machine.execAndOp q o s
  | .andn q o => Sys2Proof.Machine.execAndn q o s
  | .orOp q o => Sys2Proof.Machine.execOrOp q o s
  | .orn q o => Sys2Proof.Machine.execOrn q o s
  | .xorOp q o => Sys2Proof.Machine.execXorOp q o s
  | .xorn q o => Sys2Proof.Machine.execXorn q o s
  | .notOp q o => Sys2Proof.Machine.execNotOp q o s
  | .andParen q o => Sys2Proof.Machine.execAndParen q o s
  | .andnParen q o => Sys2Proof.Machine.execAndnParen q o s
  | .orParen q o => Sys2Proof.Machine.execOrParen q o s
  | .ornParen q o => Sys2Proof.Machine.execOrnParen q o s
  | .xorParen q o => Sys2Proof.Machine.execXorParen q o s
  | .xornParen q o => Sys2Proof.Machine.execXornParen q o s
  | .closeParen q o => Sys2Proof.Machine.execCloseParen q o s
  | .mps q o => Sys2Proof.Machine.execMps q o s
  | .mrd q o => Sys2Proof.Machine.execMrd q o s
  | .mpp q o => Sys2Proof.Machine.execMpp q o s
  | .edgr q o => Sys2Proof.Machine.execEdgr q o s
  | .edgf q o => Sys2Proof.Machine.execEdgf q o s
  | .ton q o => Sys2Proof.Machine.execTon q o s
  | .tof q o => Sys2Proof.Machine.execTof q o s
  | .tp q o => Sys2Proof.Machine.execTp q o s
  | .ctu q o => Sys2Proof.Machine.execCtu q o s
  | .ctd q o => Sys2Proof.Machine.execCtd q o s
  | .cres q o => Sys2Proof.Machine.execCres q o s
  | .cload q o => Sys2Proof.Machine.execCload q o s
  | .jmp q o => Sys2Proof.Machine.execJmp q o s
  | .jmpc q o => Sys2Proof.Machine.execJmpc q o s
  | .jmpcn q o => Sys2Proof.Machine.execJmpcn q o s
  | .cal q o => Sys2Proof.Machine.execCal q o s
  | .calc q o => Sys2Proof.Machine.execCalc q o s
  | .calcn q o => Sys2Proof.Machine.execCalcn q o s
  | .endOp q o => Sys2Proof.Machine.execEndOp q o s
  | .undefinedInstruction q w => Sys2Proof.Machine.execUndefinedInstruction q w s
  | .calReturn q t eno res => Sys2Proof.Machine.execCalReturn q t eno res s
  | .calTimeout q t => Sys2Proof.Machine.execCalTimeout q t s
  | .taskResume m q v => Sys2Proof.Machine.execTaskResume m q v s
  | .startupTaskTimeout q => Sys2Proof.Machine.execStartupTaskTimeout q s
  | .rixExchangeInterval st => Sys2Proof.Machine.execRixExchangeInterval st s
  | .rixInputFrame st frame ago => Sys2Proof.Machine.execRixInputFrame st frame ago s
  | .rixLateTimeout st => Sys2Proof.Machine.execRixLateTimeout st s
  | .rixLossTimeout st => Sys2Proof.Machine.execRixLossTimeout st s
  | .rixSubstPost st => Sys2Proof.Machine.execRixSubstPost st s
  | .forceSet m => Sys2Proof.Machine.execForceSet m s
  | .forceRemove m => Sys2Proof.Machine.execForceRemove m s
  | .forceRemoveAll m => Sys2Proof.Machine.execForceRemoveAll m s
  | .forceAuthSubmit m => Sys2Proof.Machine.execForceAuthSubmit m s
  | .forceAuthTimeout => Sys2Proof.Machine.execForceAuthTimeout s
  | .challengeRenewal set => Sys2Proof.Machine.execChallengeRenewal set s
  | .progLoad m q => Sys2Proof.Machine.execProgLoad m q s
  | .progLoadDone q body => Sys2Proof.Machine.execProgLoadDone q body s
  | .activate m q => Sys2Proof.Machine.execActivate m q s
  | .activationTick q => Sys2Proof.Machine.execActivationTick q s
  | .activationTimeout q => Sys2Proof.Machine.execActivationTimeout q s
  | .ctxCmdClose m => Sys2Proof.Machine.execCtxCmdClose m s
  | .ctxCmdOpen m => Sys2Proof.Machine.execCtxCmdOpen m s
  | .ctxCmdFallback m => Sys2Proof.Machine.execCtxCmdFallback m s
  | .ctxEnable m v => Sys2Proof.Machine.execCtxEnable m v s
  | .ctxDisable m v => Sys2Proof.Machine.execCtxDisable m v s
  | .lpeQuery m v => Sys2Proof.Machine.execLpeQuery m v s
  | .lpeQueryDone => Sys2Proof.Machine.execLpeQueryDone s
  | .lpeApertureWrite m addr v => Sys2Proof.Machine.execLpeApertureWrite m addr v s
  | .casLoad m => Sys2Proof.Machine.execCasLoad m s
  | .casLoadDone k => Sys2Proof.Machine.execCasLoadDone k s
  | .casUnload m => Sys2Proof.Machine.execCasUnload m s
  | .casRefresh m => Sys2Proof.Machine.execCasRefresh m s
  | .casCold m => Sys2Proof.Machine.execCasCold m s
  | .casSlotEnable m v => Sys2Proof.Machine.execCasSlotEnable m v s
  | .casSlotDisable m v => Sys2Proof.Machine.execCasSlotDisable m v s
  | .casDispatch ns => Sys2Proof.Machine.execCasDispatch ns s
  | .casLinCommit k => Sys2Proof.Machine.execCasLinCommit k s
  | .casLinTimeout k => Sys2Proof.Machine.execCasLinTimeout k s
  | .casRefreshStart k => Sys2Proof.Machine.execCasRefreshStart k s
  | .casRefreshDone k => Sys2Proof.Machine.execCasRefreshDone k s
  | .casQuery m v => Sys2Proof.Machine.execCasQuery m v s
  | .casQueryDone => Sys2Proof.Machine.execCasQueryDone s
  | .casMemoryWrite m addr size v => Sys2Proof.Machine.execCasMemoryWrite m addr size v s
  | .bankOutputFrame b f => Sys2Proof.Machine.execBankOutputFrame b f s
  | .bankInputFrame b f => Sys2Proof.Machine.execBankInputFrame b f s
  | .logicSilence b => Sys2Proof.Machine.execLogicSilence b s
  | .inputLost b => Sys2Proof.Machine.execInputLost b s
  | .releaseHoldExpiry b => Sys2Proof.Machine.execReleaseHoldExpiry b s
  | .timedSafeTimeout ch => Sys2Proof.Machine.execTimedSafeTimeout ch s
  | .fvFault b mv ma => Sys2Proof.Machine.execFvFault b mv ma s
  | .fvRecovery b mv ma => Sys2Proof.Machine.execFvRecovery b mv ma s
  | .bankSupplyLoss b => Sys2Proof.Machine.execBankSupplyLoss b s
  | .diSample ch raw => Sys2Proof.Machine.execDiSample ch raw s
  | .foldBack ch => Sys2Proof.Machine.execFoldBack ch s
  | .foldbackRetry ch limited => Sys2Proof.Machine.execFoldbackRetry ch limited s
  | .readbackErr ch term bad => Sys2Proof.Machine.execReadbackErr ch term bad s
  | .openLoad ch low => Sys2Proof.Machine.execOpenLoad ch low s
  | .lineFault ch ua => Sys2Proof.Machine.execLineFault ch ua s
  | .testPulseStart ch => Sys2Proof.Machine.execTestPulseStart ch s
  | .pulseVerdict ch high raws => Sys2Proof.Machine.execPulseVerdict ch high raws s
  | .testPulseEnd ch => Sys2Proof.Machine.execTestPulseEnd ch s
  | .safetyPoll b => Sys2Proof.Machine.execSafetyPoll b s
  | .tripWord b w c seq => Sys2Proof.Machine.execTripWord b w c seq s
  | .tripWordTimeout b => Sys2Proof.Machine.execTripWordTimeout b s
  | .aiRangeTimer ch => Sys2Proof.Machine.execAiRangeTimer ch s
  | .supplyLimit ch limited => Sys2Proof.Machine.execSupplyLimit ch limited s
  | .compliance ch short mv => Sys2Proof.Machine.execCompliance ch short mv s
  | .complFault ch => Sys2Proof.Machine.execComplFault ch s
  | .joinToSole ch => Sys2Proof.Machine.execJoinToSole ch s
  | .soleToJoin ch => Sys2Proof.Machine.execSoleToJoin ch s
  | .hartRequest b => Sys2Proof.Machine.execHartRequest b s
  | .hartTransmit ch => Sys2Proof.Machine.execHartTransmit ch s
  | .hartResponse ch err frame => Sys2Proof.Machine.execHartResponse ch err frame s
  | .hartTimeout ch => Sys2Proof.Machine.execHartTimeout ch s
  | .hartBurst ch frame => Sys2Proof.Machine.execHartBurst ch frame s
  | .comparatorMismatch u lead trail pc => Sys2Proof.Machine.execComparatorMismatch u lead trail pc s
  | .comparatorTest u r pc => Sys2Proof.Machine.execComparatorTest u r pc s
  | .delayParityError u pc addr => Sys2Proof.Machine.execDelayParityError u pc addr s
  | .agreementPoint p point pc d0 d1 d3 d4 dt ext tim => Sys2Proof.Machine.execAgreementPoint p point pc d0 d1 d3 d4 dt ext tim s
  | .irqAssert page => Sys2Proof.Machine.execIrqAssert page s
  | .mtimecmpReached p second => Sys2Proof.Machine.execMtimecmpReached p second s
  | .eccSingleBit mem addr => Sys2Proof.Machine.execEccSingleBit mem addr s
  | .eccDoubleBit mem addr who pc => Sys2Proof.Machine.execEccDoubleBit mem addr who pc s
  | .scrubWord mem addr found => Sys2Proof.Machine.execScrubWord mem addr found s
  | .dmiRead m => Sys2Proof.Machine.execDmiRead m s
  | .dmiWrite m => Sys2Proof.Machine.execDmiWrite m s
  | .dmiDone failed rdata => Sys2Proof.Machine.execDmiDone failed rdata s
  | .dbgAuthSubmit m => Sys2Proof.Machine.execDbgAuthSubmit m s
  | .dbgAuthTimeout => Sys2Proof.Machine.execDbgAuthTimeout s
  | .gauntletScan t => Sys2Proof.Machine.execGauntletScan t s
  | .discrepancyTimeout j g => Sys2Proof.Machine.execDiscrepancyTimeout j g s
  | .resetArm k => Sys2Proof.Machine.execResetArm k s
  | .resetPressTimeout k => Sys2Proof.Machine.execResetPressTimeout k s
  | .paramCheck ok => Sys2Proof.Machine.execParamCheck ok s
  | .gntOscWindow khz => Sys2Proof.Machine.execGntOscWindow khz s
  | .gntSupplyFault => Sys2Proof.Machine.execGntSupplyFault s
  | .voteRepeat => Sys2Proof.Machine.execVoteRepeat s
  | .voteLoss => Sys2Proof.Machine.execVoteLoss s
  | .voteGraceExpiry => Sys2Proof.Machine.execVoteGraceExpiry s
  | .psetLoad m v => Sys2Proof.Machine.execPsetLoad m v s
  | .psetLoadDone => Sys2Proof.Machine.execPsetLoadDone s
  | .commission m v => Sys2Proof.Machine.execCommission m v s
  | .credChange m v => Sys2Proof.Machine.execCredChange m v s
  | .credLockoutExpiry p => Sys2Proof.Machine.execCredLockoutExpiry p s
  | .sealSwitchChange addr compat lock => Sys2Proof.Machine.execSealSwitchChange addr compat lock s
  | .sscRepeat e => Sys2Proof.Machine.execSscRepeat e s
  | .sscFrame e frame ago => Sys2Proof.Machine.execSscFrame e frame ago s
  | .sscWatchdog e => Sys2Proof.Machine.execSscWatchdog e s
  | .sessAck m v => Sys2Proof.Machine.execSessAck m v s
  | .sessEnable m v => Sys2Proof.Machine.execSessEnable m v s
  | .sessDisable m v => Sys2Proof.Machine.execSessDisable m v s
  | .ringProdWrite m v => Sys2Proof.Machine.execRingProdWrite m v s
  | .ringConsWrite m v => Sys2Proof.Machine.execRingConsWrite m v s
  | .ringEnable m v => Sys2Proof.Machine.execRingEnable m v s
  | .ringDisable m v => Sys2Proof.Machine.execRingDisable m v s
  | .ringHoldoff r => Sys2Proof.Machine.execRingHoldoff r s
  | .ethRxFrame p frame fcsOk ago => Sys2Proof.Machine.execEthRxFrame p frame fcsOk ago s
  | .ethTransmit p => Sys2Proof.Machine.execEthTransmit p s
  | .ethTxDone p sent => Sys2Proof.Machine.execEthTxDone p sent s
  | .linkDown p => Sys2Proof.Machine.execLinkDown p s
  | .linkUp p speed => Sys2Proof.Machine.execLinkUp p speed s
  | .portSpeedWrite m p v => Sys2Proof.Machine.execPortSpeedWrite m p v s
  | .prpSupervision p => Sys2Proof.Machine.execPrpSupervision p s
  | .serTransmit n => Sys2Proof.Machine.execSerTransmit n s
  | .serRecordClose n bytes parity framing brk ago => Sys2Proof.Machine.execSerRecordClose n bytes parity framing brk ago s
  | .serGapTimeout n bytes parity framing brk ago => Sys2Proof.Machine.execSerGapTimeout n bytes parity framing brk ago s
  | .modbusFrameEnd n bytes parity framing brk gap ago => Sys2Proof.Machine.execModbusFrameEnd n bytes parity framing brk gap ago s
  | .modbusRequest n => Sys2Proof.Machine.execModbusRequest n s
  | .modbusRespTimeout n => Sys2Proof.Machine.execModbusRespTimeout n s
  | .modbusTurnaround n => Sys2Proof.Machine.execModbusTurnaround n s
  | .serModeOff m n v => Sys2Proof.Machine.execSerModeOff m n v s
  | .canFetch n => Sys2Proof.Machine.execCanFetch n s
  | .canSof n => Sys2Proof.Machine.execCanSof n s
  | .canTxEnd n => Sys2Proof.Machine.execCanTxEnd n s
  | .canArbLost n => Sys2Proof.Machine.execCanArbLost n s
  | .canBusError n cls tec rec tx => Sys2Proof.Machine.execCanBusError n cls tec rec tx s
  | .canRecover m n => Sys2Proof.Machine.execCanRecover m n s
  | .canRecovered n => Sys2Proof.Machine.execCanRecovered n s
  | .canLaunchTime n b => Sys2Proof.Machine.execCanLaunchTime n b s
  | .canAtWindowExpiry n b => Sys2Proof.Machine.execCanAtWindowExpiry n b s
  | .canRxFrame n w0 w1 bytes ago => Sys2Proof.Machine.execCanRxFrame n w0 w1 bytes ago s
  | .canModeWrite m n v => Sys2Proof.Machine.execCanModeWrite m n v s
  | .nbtWrite m n v => Sys2Proof.Machine.execNbtWrite m n v s
  | .canDetDwell n => Sys2Proof.Machine.execCanDetDwell n s
  | .heartbeatSend => Sys2Proof.Machine.execHeartbeatSend s
  | .heartbeat path rec ago => Sys2Proof.Machine.execHeartbeat path rec ago s
  | .hbLinkTimeout path => Sys2Proof.Machine.execHbLinkTimeout path s
  | .leaseReq path rec ago => Sys2Proof.Machine.execLeaseReq path rec ago s
  | .leaseGrant path rec ago => Sys2Proof.Machine.execLeaseGrant path rec ago s
  | .leaseRefuse path rec ago => Sys2Proof.Machine.execLeaseRefuse path rec ago s
  | .peerReq path rec ago => Sys2Proof.Machine.execPeerReq path rec ago s
  | .peerGrant path rec ago => Sys2Proof.Machine.execPeerGrant path rec ago s
  | .relinquish path rec ago => Sys2Proof.Machine.execRelinquish path rec ago s
  | .handover path rec ago => Sys2Proof.Machine.execHandover path rec ago s
  | .timeReq path rec ago dep => Sys2Proof.Machine.execTimeReq path rec ago dep s
  | .timeResp path rec ago => Sys2Proof.Machine.execTimeResp path rec ago s
  | .timeFup path rec ago => Sys2Proof.Machine.execTimeFup path rec ago s
  | .timeExchangeStart t1 => Sys2Proof.Machine.execTimeExchangeStart t1 s
  | .timeExchangeTimeout => Sys2Proof.Machine.execTimeExchangeTimeout s
  | .leaseRenew => Sys2Proof.Machine.execLeaseRenew s
  | .standbyLeaseReq => Sys2Proof.Machine.execStandbyLeaseReq s
  | .leaseExpiry => Sys2Proof.Machine.execLeaseExpiry s
  | .peerLeaseExpiry => Sys2Proof.Machine.execPeerLeaseExpiry s
  | .witnessGuardEnd station => Sys2Proof.Machine.execWitnessGuardEnd station s
  | .witnessStartupHold => Sys2Proof.Machine.execWitnessStartupHold s
  | .coldStartWait station => Sys2Proof.Machine.execColdStartWait station s
  | .restoreDone => Sys2Proof.Machine.execRestoreDone s
  | .fullCheckpointStart => Sys2Proof.Machine.execFullCheckpointStart s
  | .sluiceRecord rec => Sys2Proof.Machine.execSluiceRecord rec s
  | .handoverReq m => Sys2Proof.Machine.execHandoverReq m s
  | .handoverTick => Sys2Proof.Machine.execHandoverTick s
  | .handoverTimeout => Sys2Proof.Machine.execHandoverTimeout s
  | .revertHoldoff => Sys2Proof.Machine.execRevertHoldoff s
  | .revertStart => Sys2Proof.Machine.execRevertStart s
  | .revertInhibitSet m => Sys2Proof.Machine.execRevertInhibitSet m s
  | .revertInhibitClear m => Sys2Proof.Machine.execRevertInhibitClear m s
  | .wmEnable m w v => Sys2Proof.Machine.execWmEnable m w v s
  | .wmDisable m w v => Sys2Proof.Machine.execWmDisable m w v s
  | .mainsLoss vrms freq => Sys2Proof.Machine.execMainsLoss vrms freq s
  | .mainsReturn vrms freq => Sys2Proof.Machine.execMainsReturn vrms freq s
  | .auxLoss mv ma => Sys2Proof.Machine.execAuxLoss mv ma s
  | .auxReturn mv ma => Sys2Proof.Machine.execAuxReturn mv ma s
  | .pfw bulk => Sys2Proof.Machine.execPfw bulk s
  | .pfwClear bulk => Sys2Proof.Machine.execPfwClear bulk s
  | .brownOut => Sys2Proof.Machine.execBrownOut s
  | .railFault rail below => Sys2Proof.Machine.execRailFault rail below s
  | .suppliesGood bulk => Sys2Proof.Machine.execSuppliesGood bulk s
  | .bootDone apps => Sys2Proof.Machine.execBootDone apps s
  | .startupTestDone r => Sys2Proof.Machine.execStartupTestDone r s
  | .buttonPress => Sys2Proof.Machine.execButtonPress s
  | .buttonRelease ms => Sys2Proof.Machine.execButtonRelease ms s
  | .buttonStuck => Sys2Proof.Machine.execButtonStuck s
  | .buttonRearm => Sys2Proof.Machine.execButtonRearm s
  | .autoRestart => Sys2Proof.Machine.execAutoRestart s
  | .hourClose => Sys2Proof.Machine.execHourClose s
  | .dayClose => Sys2Proof.Machine.execDayClose s
  | .cisFlush m => Sys2Proof.Machine.execCisFlush m s
  | .cisFlushDone => Sys2Proof.Machine.execCisFlushDone s
  | .cisClear m => Sys2Proof.Machine.execCisClear m s
  | .trackEnable m v => Sys2Proof.Machine.execTrackEnable m v s
  | .trackDisable m v => Sys2Proof.Machine.execTrackDisable m v s
  | .cisExport => Sys2Proof.Machine.execCisExport s
  | .monitorMeasure k v refs => Sys2Proof.Machine.execMonitorMeasure k v refs s
  | .mplReplan m => Sys2Proof.Machine.execMplReplan m s
  | .mplMeasureCap m => Sys2Proof.Machine.execMplMeasureCap m s
  | .capMeasureDone c => Sys2Proof.Machine.execCapMeasureDone c s
  | .gradeApply d => Sys2Proof.Machine.execGradeApply d s
  | .gradeRetry d => Sys2Proof.Machine.execGradeRetry d s
  | .learningEnd => Sys2Proof.Machine.execLearningEnd s
  | .recalibration b med => Sys2Proof.Machine.execRecalibration b med s
  | .panelUpdateStart temp => Sys2Proof.Machine.execPanelUpdateStart temp s
  | .bandWaveformDone temp => Sys2Proof.Machine.execBandWaveformDone temp s
  | .imageWaveformDone temp => Sys2Proof.Machine.execImageWaveformDone temp s
  | .clearingWaveformDone temp => Sys2Proof.Machine.execClearingWaveformDone temp s
  | .blinkToggle => Sys2Proof.Machine.execBlinkToggle s
  | .crackCheck ohm => Sys2Proof.Machine.execCrackCheck ohm s
  | .frameCrcCheck ok => Sys2Proof.Machine.execFrameCrcCheck ok s
  | .pnlRefresh m => Sys2Proof.Machine.execPnlRefresh m s
  | .lampTest m => Sys2Proof.Machine.execLampTest m s
  | .lampTestDone => Sys2Proof.Machine.execLampTestDone s
  | .checkpointAgeLimit => Sys2Proof.Machine.execCheckpointAgeLimit s
  | .fullCheckpointEnd => Sys2Proof.Machine.execFullCheckpointEnd s
  | .serTxEnd n => Sys2Proof.Machine.execSerTxEnd n s
  | .sfpModuleInsertion k present sr => Sys2Proof.Machine.execSfpModuleInsertion k present sr s

end Sys2Proof.Machine
end

