-- ==== Sys2Proof/Machine/Step.lean ====
section
/-! DEFINITION. One step: the command at the front of the queue, or one cycle of the 25 MHz TCXO while none waits. -/

namespace Sys2Proof.Machine

/-- One step: take the command at the front of the queue; on an empty queue one 25 MHz cycle passes and nothing else happens
(DESIGN CHOICE, assumption 2: the events of the manual are commands of their own). -/
def step (s : State) : Host.Outcome State Fault Refusal :=
  match s.pending with
  | [] => .next (s.runCycles 1)
  | c :: t => exec c { s with pending := t }

/-- The state with the command that a word spells put at the front of the queue; unchanged where the word spells none. -/
def State.withFetchWord (s : State) (nbits w : Nat) : State :=
  match decodeTableWord nbits w with
  | none => s
  | some c => { s with pending := c :: s.pending }

end Sys2Proof.Machine
end

