-- ==== Sys2Proof/Safety.lean ====
section
/-! DEFINITION. What counts as a well-kept state, in the terms that statements use: the canonical form of the sparse maps. -/

namespace Sys2Proof.Machine

/-- The canonical form of memory: addresses strictly rising, and no byte that an unlisted address reads as. -/
def Memory.wf (m : List Host.Cell) : Bool := mapWf memDflt m

/-- The canonical form of the register store: keys strictly rising, and no word at its reset value. -/
def Regs.wf (r : List (Nat × Word)) : Bool := mapWf resetWord r

/-- The canonical form of the signal image: slot numbers strictly rising, and no slot as it stands after reset. -/
def Signals.wf (m : List (Nat × SigSlot)) : Bool := mapWf (fun _ => SigSlot.blank) m

/-- The canonical form of a state's three large maps: the register store, memory and the signal image. Two states whose
maps read alike are then equal data. -/
def State.Canon (s : State) : Prop := Regs.wf s.regs = true ∧ Memory.wf s.mem = true ∧ Signals.wf s.sig = true

/-- Sequencer `q`, awake and enabled, executes task `t`, which stands at opcode `op` with operand `o`; another word of its code
follows (R98). -/
def State.atOp (s : State) (q t op : Nat) (o : BitVec 24) : Bool :=
  s.seqLive q && s.ilTask q == some t && s.ilCode q == some (ilWord op o) && decide ((s.task q t).pc + 1 < s.codeEnd q t)

/-- A task that goes on with the next word, its accumulator at `x`. -/
def TaskRt.onWith (r : TaskRt) (x : Bool) : TaskRt := { r with acc := x, pc := r.pc + 1 }

/-- The redundancy controller takes the record `l` of type `typ` on path `k` from `who` (0 the peer, 1 the witness, 2 + w member w): in
RUN or SAFE_HOLD, its check holding, the first copy of its SEQ (R347). -/
def State.takes (s : State) (k : Nat) (l : List Byte) (who typ : Nat) : Bool :=
  s.runOrSafe && s.enabled 0x05 && leNat (l.take 1) == typ && s.recSender k l == some who && s.firstCopy who (recOf l).seq

/-! ### The parts of a state -/

/-- The parts of a state, one for each of its fields but the queue, the registers and what the sends that end a command may change
(SSE entries, CAN controllers, Ethernet ports, and the model's records of sends and posts). -/
inductive Part
  | mem | sig | rshadow | wshadow | guards | aborts | forces | resp | coreFaults | freshCtr
  | tku | dev | pwr | clo | ringPosted | creds | credFails | credLockTo | chalAt | forceAuth
  | dbgAuth | seqs | rix | gnt | chans | banks | loops | lpeQuery | cas | casQuery
  | lpeBusy | casBusy | sers | rdc | slu | cis | mpl | pnl | pairs | dmi | dmod | scrubs | lsqTest
deriving DecidableEq, Repr

/-- Part `p` of `t` is that of `s`. -/
def State.samePart (p : Part) (s t : State) : Prop :=
  match p with
  | .mem => t.mem = s.mem
  | .sig => t.sig = s.sig
  | .rshadow => t.rshadow = s.rshadow
  | .wshadow => t.wshadow = s.wshadow
  | .guards => t.guards = s.guards
  | .aborts => t.aborts = s.aborts
  | .forces => t.forces = s.forces
  | .resp => t.resp = s.resp
  | .coreFaults => t.coreFaults = s.coreFaults
  | .freshCtr => t.freshCtr = s.freshCtr
  | .tku => t.tku = s.tku
  | .dev => t.dev = s.dev
  | .pwr => t.pwr = s.pwr
  | .clo => t.clo = s.clo
  | .ringPosted => t.ringPosted = s.ringPosted
  | .creds => t.creds = s.creds
  | .credFails => t.credFails = s.credFails
  | .credLockTo => t.credLockTo = s.credLockTo
  | .chalAt => t.chalAt = s.chalAt
  | .forceAuth => t.forceAuth = s.forceAuth
  | .dbgAuth => t.dbgAuth = s.dbgAuth
  | .seqs => t.seqs = s.seqs
  | .rix => t.rix = s.rix
  | .gnt => t.gnt = s.gnt
  | .chans => t.chans = s.chans
  | .banks => t.banks = s.banks
  | .loops => t.loops = s.loops
  | .lpeQuery => t.lpeQuery = s.lpeQuery
  | .cas => t.cas = s.cas
  | .casQuery => t.casQuery = s.casQuery
  | .lpeBusy => t.lpeBusy = s.lpeBusy
  | .casBusy => t.casBusy = s.casBusy
  | .sers => t.sers = s.sers
  | .rdc => t.rdc = s.rdc
  | .slu => t.slu = s.slu
  | .cis => t.cis = s.cis
  | .mpl => t.mpl = s.mpl
  | .pnl => t.pnl = s.pnl
  | .pairs => t.pairs = s.pairs
  | .dmi => t.dmi = s.dmi
  | .dmod => t.dmod = s.dmod
  | .scrubs => t.scrubs = s.scrubs
  | .lsqTest => t.lsqTest = s.lsqTest

/-- Every part. -/
def Part.all : List Part :=
  [.mem, .sig, .rshadow, .wshadow, .guards, .aborts, .forces, .resp, .coreFaults, .freshCtr, .tku, .dev, .pwr, .clo,
   .ringPosted, .creds, .credFails, .credLockTo, .chalAt, .forceAuth, .dbgAuth, .seqs, .rix, .gnt, .chans, .banks, .loops, .lpeQuery,
   .cas, .casQuery, .lpeBusy, .casBusy, .sers, .rdc, .slu, .cis, .mpl, .pnl, .pairs, .dmi, .dmod, .scrubs,
   .lsqTest]

/-- The parts of the state that a command may change, beside the registers and what the sends that end a command change. A bus access
of the driver reaches every part through the register it writes; for each of those commands the chapters say more. -/
def touches (c : Instr) : List Part :=
  match c with
  | .tickBoundary _ =>
    [.mem, .sig, .aborts, .freshCtr, .tku, .clo, .ringPosted, .seqs, .chans, .banks, .loops, .cas, .lpeBusy, .casBusy, .sers, .rdc, .slu, .cis, .mpl, .pnl, .pairs]
  | .snapshotInstant => [.mem, .sig, .freshCtr, .tku, .clo, .seqs, .loops, .cas, .lpeBusy, .cis, .pairs]
  | .stageCutoff => [.mem, .sig, .freshCtr, .tku, .clo, .ringPosted, .chans, .loops, .slu, .pairs]
  | .loopRelease _ _ => [.mem, .sig, .freshCtr, .tku, .clo, .ringPosted, .loops, .slu, .pairs]
  | .domainWake _ => [.tku, .clo, .pairs]
  | .clockLocked _ => []
  | .domainSleep _ => []
  | .fclkLockTimeout _ => [.tku]
  | .fclkLock1msTimeout _ => [.mem, .sig, .aborts, .tku, .pwr, .clo, .seqs, .loops, .cas, .sers, .rdc, .cis, .pnl, .pairs]
  | .fclkMonitorWindow _ => [.mem, .sig, .aborts, .pwr, .clo, .seqs, .loops, .cas, .sers, .rdc, .cis, .pnl, .pairs]
  | .tcxoCheckWindow _ => [.tku]
  | .unmappedAccess _ _ _ _ => [.resp, .coreFaults]
  | .registerWrite _ _ _ _ => Part.all
  | .lowWordRead _ _ _ => [.rshadow, .guards, .resp, .coreFaults, .freshCtr]
  | .highWordWrite _ _ _ => Part.all
  | .lowWordWrite _ _ _ => Part.all
  | .sigimgTagWrite _ _ _ => Part.all
  | .sigimgValueWrite _ _ _ => Part.all
  | .errCntWrite _ _ _ => Part.all
  | .enableClear _ _ _ => Part.all
  | .softReset _ _ _ => Part.all
  | .abort _ _ _ => Part.all
  | .abortComplete _ _ => [.mem, .sig, .aborts, .seqs, .loops, .cas, .sers, .pnl]
  | .abortOverBound _ _ => [.tku]
  | .loopAbortFallback _ => [.mem, .sig, .aborts, .seqs, .loops, .cas, .sers, .pnl]
  | .guardedValueWrite _ _ _ _ => Part.all
  | .guardTimeout _ => [.guards, .tku]
  | .featCommit _ _ => Part.all
  | .stateReqRun _ => Part.all
  | .stateReqRestart _ => Part.all
  | .imgUpdStart _ _ => Part.all
  | .imageUpdateDone => [.dev]
  | .bootSelect _ _ => Part.all
  | .servoOffsetWrite _ _ => Part.all
  | .addendFracWrite _ _ => Part.all
  | .integClr _ => Part.all
  | .holdoverTimeout => [.freshCtr, .tku]
  | .stepPermit _ _ => Part.all
  | .stepApply => [.tku, .seqs, .cas, .rdc]
  | .cycleBoundary _ _ => [.sig, .seqs, .gnt]
  | .nop _ _ => [.sig, .seqs, .gnt]
  | .ld _ _ => [.sig, .seqs, .gnt]
  | .ldn _ _ => [.sig, .seqs, .gnt]
  | .st _ _ => [.sig, .seqs, .gnt]
  | .stn _ _ => [.sig, .seqs, .gnt]
  | .setOp _ _ => [.sig, .seqs, .gnt]
  | .resetOp _ _ => [.sig, .seqs, .gnt]
  | .andOp _ _ => [.sig, .seqs, .gnt]
  | .andn _ _ => [.sig, .seqs, .gnt]
  | .orOp _ _ => [.sig, .seqs, .gnt]
  | .orn _ _ => [.sig, .seqs, .gnt]
  | .xorOp _ _ => [.sig, .seqs, .gnt]
  | .xorn _ _ => [.sig, .seqs, .gnt]
  | .notOp _ _ => [.sig, .seqs, .gnt]
  | .andParen _ _ => [.sig, .seqs, .gnt]
  | .andnParen _ _ => [.sig, .seqs, .gnt]
  | .orParen _ _ => [.sig, .seqs, .gnt]
  | .ornParen _ _ => [.sig, .seqs, .gnt]
  | .xorParen _ _ => [.sig, .seqs, .gnt]
  | .xornParen _ _ => [.sig, .seqs, .gnt]
  | .closeParen _ _ => [.sig, .seqs, .gnt]
  | .mps _ _ => [.sig, .seqs, .gnt]
  | .mrd _ _ => [.sig, .seqs, .gnt]
  | .mpp _ _ => [.sig, .seqs, .gnt]
  | .edgr _ _ => [.sig, .seqs, .gnt]
  | .edgf _ _ => [.sig, .seqs, .gnt]
  | .ton _ _ => [.sig, .seqs, .gnt]
  | .tof _ _ => [.sig, .seqs, .gnt]
  | .tp _ _ => [.sig, .seqs, .gnt]
  | .ctu _ _ => [.sig, .seqs, .gnt]
  | .ctd _ _ => [.sig, .seqs, .gnt]
  | .cres _ _ => [.sig, .seqs, .gnt]
  | .cload _ _ => [.sig, .seqs, .gnt]
  | .jmp _ _ => [.sig, .seqs, .gnt]
  | .jmpc _ _ => [.sig, .seqs, .gnt]
  | .jmpcn _ _ => [.sig, .seqs, .gnt]
  | .cal _ _ => [.sig, .freshCtr, .seqs, .gnt]
  | .calc _ _ => [.sig, .freshCtr, .seqs, .gnt]
  | .calcn _ _ => [.sig, .freshCtr, .seqs, .gnt]
  | .endOp _ _ => [.mem, .sig, .tku, .clo, .ringPosted, .seqs, .rix, .gnt, .slu, .pairs]
  | .undefinedInstruction _ _ => [.sig, .seqs, .gnt]
  | .calReturn _ _ _ _ => [.sig, .seqs, .gnt]
  | .calTimeout _ _ => [.sig, .tku, .seqs, .gnt]
  | .taskResume _ _ _ => Part.all
  | .startupTaskTimeout _ => [.sig, .tku, .seqs, .gnt]
  | .rixExchangeInterval _ => [.mem, .freshCtr, .tku, .clo, .ringPosted, .rix, .pairs]
  | .rixInputFrame _ _ _ => [.sig, .seqs, .rix]
  | .rixLateTimeout _ => [.sig, .tku, .rix]
  | .rixLossTimeout _ => [.tku, .seqs, .rix]
  | .rixSubstPost _ => [.sig, .rix]
  | .forceSet _ => Part.all
  | .forceRemove _ => Part.all
  | .forceRemoveAll _ => Part.all
  | .forceAuthSubmit _ => Part.all
  | .forceAuthTimeout => [.tku, .forceAuth]
  | .challengeRenewal _ => [.freshCtr, .tku, .chalAt]
  | .progLoad _ _ => Part.all
  | .progLoadDone _ _ => [.seqs]
  | .activate _ _ => Part.all
  | .activationTick _ => [.mem, .sig, .forces, .clo, .ringPosted, .seqs, .slu, .pairs]
  | .activationTimeout _ => [.tku, .seqs]
  | .ctxCmdClose _ => Part.all
  | .ctxCmdOpen _ => Part.all
  | .ctxCmdFallback _ => Part.all
  | .ctxEnable _ _ => Part.all
  | .ctxDisable _ _ => Part.all
  | .lpeQuery _ _ => Part.all
  | .lpeQueryDone => [.lpeQuery]
  | .lpeApertureWrite _ _ _ => Part.all
  | .casLoad _ => Part.all
  | .casLoadDone _ => [.mem, .freshCtr, .cas]
  | .casUnload _ => Part.all
  | .casRefresh _ => Part.all
  | .casCold _ => Part.all
  | .casSlotEnable _ _ => Part.all
  | .casSlotDisable _ _ => Part.all
  | .casDispatch _ => [.mem, .sig, .tku, .clo, .ringPosted, .cas, .casBusy, .slu, .pairs]
  | .casLinCommit _ => [.mem, .cas]
  | .casLinTimeout _ => [.tku, .cas]
  | .casRefreshStart _ => [.cas]
  | .casRefreshDone _ => [.mem, .freshCtr, .cas, .casBusy]
  | .casQuery _ _ => Part.all
  | .casQueryDone => [.casQuery]
  | .casMemoryWrite _ _ _ _ => Part.all
  | .bankOutputFrame _ _ => [.banks]
  | .bankInputFrame _ _ => [.sig, .freshCtr, .chans, .banks]
  | .logicSilence _ => [.mem, .freshCtr, .tku, .clo, .ringPosted, .chans, .pairs]
  | .inputLost _ => [.mem, .sig, .freshCtr, .tku, .clo, .ringPosted, .chans, .pairs]
  | .releaseHoldExpiry _ => [.tku, .chans]
  | .timedSafeTimeout _ => [.tku, .chans]
  | .fvFault _ _ _ => [.chans, .banks]
  | .fvRecovery _ _ _ => [.banks]
  | .bankSupplyLoss _ => [.chans, .banks]
  | .diSample _ _ => [.tku, .chans]
  | .foldBack _ => [.tku, .chans]
  | .foldbackRetry _ _ => [.tku, .chans]
  | .readbackErr _ _ _ => [.tku, .chans]
  | .openLoad _ _ => [.tku, .chans]
  | .lineFault _ _ => []
  | .testPulseStart _ => [.chans]
  | .pulseVerdict _ _ _ => [.tku, .chans]
  | .testPulseEnd _ => [.tku, .chans]
  | .safetyPoll _ => [.chans, .banks]
  | .tripWord _ _ _ _ => [.chans, .banks]
  | .tripWordTimeout _ => [.tku, .chans]
  | .aiRangeTimer _ => [.tku, .chans]
  | .supplyLimit _ _ => [.tku, .chans]
  | .compliance _ _ _ => [.chans]
  | .complFault _ => [.tku]
  | .joinToSole _ => [.tku, .chans]
  | .soleToJoin _ => [.tku, .chans]
  | .hartRequest _ => [.mem, .freshCtr, .clo, .ringPosted, .chans, .pairs]
  | .hartTransmit _ => [.mem, .freshCtr, .tku, .clo, .ringPosted, .chans, .pairs]
  | .hartResponse _ _ _ => [.mem, .freshCtr, .clo, .ringPosted, .chans, .pairs]
  | .hartTimeout _ => [.mem, .freshCtr, .tku, .clo, .ringPosted, .chans, .pairs]
  | .hartBurst _ _ => [.mem, .freshCtr, .clo, .ringPosted, .chans, .pairs]
  | .comparatorMismatch _ _ _ _ => [.mem, .sig, .aborts, .pwr, .clo, .seqs, .loops, .cas, .sers, .rdc, .cis, .pnl, .pairs]
  | .comparatorTest _ _ _ => [.mem, .sig, .aborts, .tku, .pwr, .clo, .seqs, .loops, .cas, .sers, .rdc, .cis, .pnl, .pairs, .lsqTest]
  | .delayParityError _ _ _ => [.mem, .sig, .aborts, .pwr, .clo, .seqs, .loops, .cas, .sers, .rdc, .cis, .pnl, .pairs]
  | .agreementPoint _ _ _ _ _ _ _ _ _ _ => [.mem, .sig, .aborts, .pwr, .clo, .seqs, .gnt, .loops, .cas, .sers, .rdc, .cis, .pnl, .pairs]
  | .irqAssert _ => [.clo, .pairs]
  | .mtimecmpReached _ _ => [.tku, .clo, .pairs]
  | .eccSingleBit _ _ => []
  | .eccDoubleBit _ _ _ _ => [.mem, .sig, .aborts, .resp, .coreFaults, .pwr, .clo, .seqs, .loops, .cas, .sers, .rdc, .cis, .pnl, .pairs]
  | .scrubWord _ _ _ => [.tku, .scrubs]
  | .dmiRead _ => Part.all
  | .dmiWrite _ => Part.all
  | .dmiDone _ _ => Part.all
  | .dbgAuthSubmit _ => Part.all
  | .dbgAuthTimeout => [.tku, .dbgAuth]
  | .gauntletScan _ => [.mem, .sig, .aborts, .tku, .pwr, .clo, .seqs, .gnt, .banks, .loops, .cas, .sers, .rdc, .cis, .pnl, .pairs]
  | .discrepancyTimeout _ _ => [.tku, .gnt]
  | .resetArm _ => [.tku]
  | .resetPressTimeout _ => [.tku, .gnt]
  | .paramCheck _ => [.mem, .sig, .aborts, .pwr, .clo, .seqs, .loops, .cas, .sers, .rdc, .cis, .pnl, .pairs]
  | .gntOscWindow _ => [.mem, .sig, .aborts, .pwr, .clo, .seqs, .loops, .cas, .sers, .rdc, .cis, .pnl, .pairs]
  | .gntSupplyFault => [.mem, .sig, .aborts, .pwr, .clo, .seqs, .gnt, .loops, .cas, .sers, .rdc, .cis, .pnl, .pairs]
  | .voteRepeat => [.tku, .gnt]
  | .voteLoss => [.tku]
  | .voteGraceExpiry => [.tku]
  | .psetLoad _ _ => Part.all
  | .psetLoadDone => [.sig, .gnt, .chans]
  | .commission _ _ => Part.all
  | .credChange _ _ => Part.all
  | .credLockoutExpiry _ => [.tku]
  | .sealSwitchChange _ _ _ => [.dev]
  | .sscRepeat _ => [.tku]
  | .sscFrame _ _ _ => Part.all
  | .sscWatchdog _ => [.sig, .tku]
  | .sessAck _ _ => Part.all
  | .sessEnable _ _ => Part.all
  | .sessDisable _ _ => Part.all
  | .ringProdWrite _ _ => Part.all
  | .ringConsWrite _ _ => Part.all
  | .ringEnable _ _ => Part.all
  | .ringDisable _ _ => Part.all
  | .ringHoldoff _ => [.tku, .clo, .pairs]
  | .ethRxFrame _ _ _ _ => Part.all
  | .ethTransmit _ => [.mem]
  | .ethTxDone _ _ => [.mem]
  | .linkDown _ => [.mem]
  | .linkUp _ _ => []
  | .portSpeedWrite _ _ _ => Part.all
  | .prpSupervision _ => [.tku]
  | .serTransmit _ => [.mem, .sers]
  | .serRecordClose _ _ _ _ _ _ => [.mem, .clo, .ringPosted, .pairs]
  | .serGapTimeout _ _ _ _ _ _ => [.mem, .clo, .ringPosted, .pairs]
  | .modbusFrameEnd _ _ _ _ _ _ _ => [.mem, .tku, .clo, .ringPosted, .sers, .pairs]
  | .modbusRequest _ => [.mem, .sers]
  | .modbusRespTimeout _ => [.mem, .tku, .clo, .ringPosted, .sers, .pairs]
  | .modbusTurnaround _ => [.tku, .sers]
  | .serModeOff _ _ _ => Part.all
  | .canFetch _ => [.mem]
  | .canSof _ => []
  | .canTxEnd _ => [.mem]
  | .canArbLost _ => [.mem]
  | .canBusError _ _ _ _ _ => [.mem]
  | .canRecover _ _ => Part.all
  | .canRecovered _ => []
  | .canLaunchTime _ _ => [.tku]
  | .canAtWindowExpiry _ _ => [.mem, .tku]
  | .canRxFrame _ _ _ _ _ => Part.all
  | .canModeWrite _ _ _ => Part.all
  | .nbtWrite _ _ _ => Part.all
  | .canDetDwell _ => [.tku]
  | .heartbeatSend => [.tku, .rdc]
  | .heartbeat _ _ _ => Part.all
  | .hbLinkTimeout _ => [.tku, .rdc]
  | .leaseReq _ _ _ => Part.all
  | .leaseGrant _ _ _ => Part.all
  | .leaseRefuse _ _ _ => Part.all
  | .peerReq _ _ _ => Part.all
  | .peerGrant _ _ _ => Part.all
  | .relinquish _ _ _ => Part.all
  | .handover _ _ _ => Part.all
  | .timeReq _ _ _ _ => Part.all
  | .timeResp _ _ _ => Part.all
  | .timeFup _ _ _ => Part.all
  | .timeExchangeStart _ => [.tku, .rdc]
  | .timeExchangeTimeout => [.tku, .rdc]
  | .leaseRenew => [.tku, .rdc]
  | .standbyLeaseReq => [.tku, .rdc]
  | .leaseExpiry => [.mem, .tku, .rdc]
  | .peerLeaseExpiry => [.tku, .rdc]
  | .witnessGuardEnd _ => [.tku, .rdc]
  | .witnessStartupHold => [.tku]
  | .coldStartWait _ => [.tku]
  | .restoreDone => [.mem, .sig, .forces, .seqs, .loops, .cas]
  | .fullCheckpointStart => [.mem, .clo, .ringPosted, .slu, .pairs]
  | .sluiceRecord _ => [.mem, .sig, .forces, .clo, .ringPosted, .seqs, .rdc, .slu, .pairs]
  | .handoverReq _ => Part.all
  | .handoverTick => [.mem, .sig, .tku, .clo, .seqs, .loops, .cas, .rdc, .slu, .pairs]
  | .handoverTimeout => [.tku, .pwr, .rdc]
  | .revertHoldoff => [.tku]
  | .revertStart => [.rdc]
  | .revertInhibitSet _ => Part.all
  | .revertInhibitClear _ => Part.all
  | .wmEnable _ _ _ => Part.all
  | .wmDisable _ _ _ => Part.all
  | .mainsLoss _ _ => []
  | .mainsReturn _ _ => []
  | .auxLoss _ _ => []
  | .auxReturn _ _ => []
  | .pfw _ => [.pwr, .clo, .cis, .pairs]
  | .pfwClear _ => [.mpl]
  | .brownOut => Part.all
  | .railFault _ _ => Part.all
  | .suppliesGood _ => Part.all
  | .bootDone _ => [.mem, .sig, .aborts, .pwr, .clo, .ringPosted, .seqs, .chans, .loops, .cas, .sers, .rdc, .cis, .mpl, .pnl, .pairs]
  | .startupTestDone _ => [.mem, .sig, .aborts, .pwr, .clo, .seqs, .gnt, .loops, .cas, .sers, .rdc, .cis, .pnl, .pairs]
  | .buttonPress => [.pwr]
  | .buttonRelease _ => Part.all
  | .buttonStuck => [.tku]
  | .buttonRearm => [.tku]
  | .autoRestart => Part.all
  | .hourClose => [.mem, .tku, .clo, .ringPosted, .cis, .mpl, .pairs]
  | .dayClose => [.mem, .tku, .clo, .ringPosted, .cis, .mpl, .pairs]
  | .cisFlush _ => Part.all
  | .cisFlushDone => [.mem, .clo, .ringPosted, .cis, .pairs]
  | .cisClear _ => Part.all
  | .trackEnable _ _ => Part.all
  | .trackDisable _ _ => Part.all
  | .cisExport => [.mem, .clo, .ringPosted, .pairs]
  | .monitorMeasure _ _ _ => [.freshCtr, .tku, .mpl]
  | .mplReplan _ => Part.all
  | .mplMeasureCap _ => Part.all
  | .capMeasureDone _ => [.freshCtr, .tku, .mpl]
  | .gradeApply _ => [.mpl]
  | .gradeRetry _ => [.tku, .mpl]
  | .learningEnd => [.tku, .mpl]
  | .recalibration _ _ => [.tku, .mpl]
  | .panelUpdateStart _ => [.tku, .pnl]
  | .bandWaveformDone _ => [.tku, .pnl]
  | .imageWaveformDone _ => [.tku, .pnl]
  | .clearingWaveformDone _ => [.tku, .pnl]
  | .blinkToggle => [.tku, .pnl]
  | .crackCheck _ => [.tku, .pnl]
  | .frameCrcCheck _ => [.pnl]
  | .pnlRefresh _ => Part.all
  | .lampTest _ => Part.all
  | .lampTestDone => [.tku, .pnl]
  | .checkpointAgeLimit => [.tku, .rdc]
  | .fullCheckpointEnd => [.mem, .clo, .ringPosted, .slu, .pairs]
  | .serTxEnd _ => [.mem, .sers]
  | .sfpModuleInsertion _ _ _ => [.mem, .dev]

/-- Every part of `t` outside `l` is that of `s`. -/
def State.sameBut (l : List Part) (s t : State) : Prop := ∀ p, p ∉ l → s.samePart p t

end Sys2Proof.Machine
end

