-- ==== Sys2Proof/Certificates/Slice0/Obligations.lean ====
section
/-! DEFINITION. The statements for the provers, one per obligation. -/

open Sys2Proof Sys2Proof.Machine

/-- The queue of waiting commands is the model's own (assumption 2): a step takes the command at its front and runs `exec` on it. -/
def Obligations.StepTakesFront : Prop :=
  ∀ (c : Instr) (l : List Instr) (s : State), step { s with pending := c :: l } = exec c { s with pending := l }

/-- With no command waiting one 25 MHz cycle passes (DESIGN CHOICE, assumption 2). The counter advances by the addend (R65). -/
def Obligations.IdleStepAdvancesCounter : Prop :=
  ∀ s : State, s.pending = [] → ∃ t, step s = .next t ∧
    t.fixedTime = (s.fixedTime + s.addend) % 2 ^ 96 ∧ t.tku.mono = s.tku.mono + 40 ∧ t.pending = [] ∧ t.posted = s.posted ∧
    (∀ k, k ≠ CLO.OP_SECONDS.key → t.rd k = s.rd k) ∧ s.sameBut [.tku] t ∧
    t.sess = s.sess ∧ t.cans = s.cans ∧ t.eths = s.eths ∧ t.sent = s.sent

/-- The base of the invariants: the maps of the reset state are canonical, and nothing waits. -/
def Obligations.ResetMapsCanonical : Prop := State.reset.Canon ∧ State.reset.pending = [] ∧ State.reset.posted = []

/-- What stands after power-on: the counter is loaded with 0 and the nominal addend (R65), and every register word has the reset value
of its page table. -/
def Obligations.ResetRegisters : Prop :=
  State.reset.mstate = stPOWER_ON ∧ State.reset.get SYS.STATE_CAUSE_CAUSE = 0x01 ∧ State.reset.fixedTime = 0 ∧
    State.reset.addend = 40 * 2 ^ 32 ∧ State.reset.get TKU.SYNC_STAT_TIME_VALID = 0 ∧ State.reset.forces = [] ∧
    State.reset.aborts = [] ∧ State.reset.guards = [] ∧ State.reset.wshadow = [] ∧ State.reset.rshadow = [] ∧
    (∀ n, State.reset.slotRaw n = SigSlot.blank) ∧ (∀ k, State.reset.rd k = resetWord k) ∧ (∀ a, State.reset.byte a = 0)

/-- The invariant of the three maps, over every command and every state that meets it. -/
def Obligations.MapsStayCanonical : Prop := ∀ s t : State, s.Canon → step s = .next t → t.Canon

/-- The frame of each command, by the table `touches`: 43 parts of the state, 305 commands. Every command also leaves the queue of
waiting commands alone. -/
def Obligations.CommandFrames : Prop :=
  ∀ (c : Instr) (s t : State), exec c s = .next t → t.pending = s.pending ∧ s.sameBut (touches c) t

/-- What R300 sends after a group post is sent by the command that posts: nothing is left for the next. -/
def Obligations.PostsAreSent : Prop := ∀ (c : Instr) (s t : State), exec c s = .next t → t.posted = []

/-- No command ends a run: what the spec refuses is refused by its own counters and error registers, inside a next state. -/
def Obligations.EveryCommandCompletes : Prop := ∀ (c : Instr) (s : State), ∃ t, exec c s = .next t

/-- An address that lies in no region of the map (R29): an error response, an access fault for a core, ACCESS for another master; and
what user mode may not reach (R30, R250). That a master of no page counts nowhere is the model's choice (assumption 38). -/
def Obligations.UnmappedAccessIsRefused : Prop :=
  (∀ (m : Master) (addr : BitVec 32) (size : Nat) (wr : Bool) (s : State), s.posted = [] →
    regionOf (s.masterNo m) addr.toNat = .none ∨ regionOf (s.masterNo m) (addr.toNat + size - 1) = .none →
    ∃ t, exec (.unmappedAccess m addr size wr) s = .next t ∧ t.resp = .error ∧ s.sameBut [.resp, .coreFaults] t ∧
      (s.masterNo m < 8 → s.masterNo m ∈ t.coreFaults ∧ ∀ k, k % 4096 ≠ 0x010 → t.rd k = s.rd k) ∧
      (m = .dbg → t.get (HDR.PG_ERR_CNT_ACCESS 0x90) = min (s.get (HDR.PG_ERR_CNT_ACCESS 0x90) + 1) 255 ∧ t.coreFaults = s.coreFaults ∧
        ∀ k, k ≠ rkey 0x90 0 0x028 → k % 4096 ≠ 0x010 → t.rd k = s.rd k) ∧
      (m = .qmg → t.get (HDR.PG_ERR_CNT_ACCESS 0x0A) = min (s.get (HDR.PG_ERR_CNT_ACCESS 0x0A) + 1) 255 ∧ t.coreFaults = s.coreFaults ∧
        ∀ k, k ≠ rkey 0x0A 0 0x028 → k % 4096 ≠ 0x010 → t.rd k = s.rd k) ∧
      (m = .other → t.coreFaults = s.coreFaults ∧ ∀ k, k % 4096 ≠ 0x010 → t.rd k = s.rd k)) ∧
  (∀ (h : Fin 8) (addr : BitVec 32) (size : Nat) (v : BitVec 64) (s : State), s.posted = [] →
    privRegion (regionOf (s.masterNo (.user h)) addr.toNat) = true →
    ∃ t, exec (.registerWrite (.user h) addr size v) s = .next t ∧ t.resp = .error ∧ s.masterNo (.user h) ∈ t.coreFaults ∧
      s.sameBut [.resp, .coreFaults] t ∧ ∀ k, k % 4096 ≠ 0x010 → t.rd k = s.rd k) ∧
  (∀ (h : Fin 8) (addr : BitVec 32) (size : Nat) (s : State), s.posted = [] →
    privRegion (regionOf (s.masterNo (.user h)) addr.toNat) = true →
    ∃ t, exec (.lowWordRead (.user h) addr size) s = .next t ∧ t.resp = .error ∧ s.masterNo (.user h) ∈ t.coreFaults ∧
      s.sameBut [.resp, .coreFaults] t ∧ ∀ k, k % 4096 ≠ 0x010 → t.rd k = s.rd k)

/-- A bus write into shared SRAM by any master: the bytes stored and the frame of memory and registers. -/
def Obligations.PlainMemoryWrite : Prop :=
  ∀ (m : Master) (addr : BitVec 32) (size : Nat) (v : BitVec 64) (s : State), s.posted = [] →
    (size = 1 ∨ size = 2 ∨ size = 4 ∨ size = 8) → 0x20000000 ≤ addr.toNat → addr.toNat + size ≤ 0x21000000 →
    ∃ t, exec (.registerWrite m addr size v) s = .next t ∧ t.resp = .done ∧
      (∀ i, i < size → t.byte (addr.toNat + i) = BitVec.ofNat 8 (v.toNat / 2 ^ (8 * i))) ∧
      (∀ a, a < addr.toNat ∨ addr.toNat + size ≤ a → t.byte a = s.byte a) ∧ (∀ k, k % 4096 ≠ 0x010 → t.rd k = s.rd k) ∧
      s.sameBut [.mem, .resp, .slu] t

/-- A register of RW fields: the write takes effect (R40). -/
def Obligations.ServoGainWrite : Prop :=
  ∀ (m : Master) (v : BitVec 64) (s : State), isUser m = false → s.posted = [] → s.guardOf 0x04 = none →
    ∃ t, exec (.registerWrite m 0x4000405C 4 v) s = .next t ∧ t.get TKU.SERVO_GAIN_KP = v.toNat % 2 ^ 16 ∧
      t.get TKU.SERVO_GAIN_KI = v.toNat / 2 ^ 16 % 2 ^ 16 ∧ t.resp = .done ∧
      (∀ k, k ≠ rkey 0x04 0 0x05C → k % 4096 ≠ 0x010 → t.rd k = s.rd k)

/-- R42, for every multi-word value: the low word is returned and the others are copied; reads of the others return the shadow; the
shadow is 0 before the first low-word read. -/
def Obligations.LowWordReadLatches : Prop :=
  (∀ (m : Master) (p off : Nat) (s : State), isUser m = false → (pageKind p).isSome = true → p < 0x91 → off < 0x600 ∨ 0x800 ≤ off → off < 4096 →
    off % 4 = 0 → latsOf p off ≠ [] → showsFree p off = false → s.guardOf p = none →
    ∃ t, exec (.lowWordRead m (BitVec.ofNat 32 (pageAddr p off)) 4) s = .next t ∧ t.resp = .data ((s.shown p off).setWidth 64) ∧
      (∀ o ∈ latsOf p off, t.rsh (shKey (s.masterNo m) p o) =
        if (rowsAt p o).any (fun r => r.ty == .wo) then 0 else s.regWord p o)) ∧
  (∀ (m : Master) (p off : Nat) (s : State), isUser m = false → (pageKind p).isSome = true → p < 0x91 → off < 0x600 ∨ 0x800 ≤ off → off < 4096 →
    off % 4 = 0 → isLat p off = true → s.guardOf p = none →
    ∃ t, exec (.lowWordRead m (BitVec.ofNat 32 (pageAddr p off)) 4) s = .next t ∧
      t.resp = .data ((s.rsh (shKey (s.masterNo m) p off)).setWidth 64)) ∧
  (∀ k, State.reset.rsh k = 0)

/-- R43, for every multi-word value of every page. -/
def Obligations.MultiWordWrite : Prop :=
  (∀ (m : Master) (p off : Nat) (v : BitVec 32) (s : State), isUser m = false → s.posted = [] → (pageKind p).isSome = true → p < 0x91 →
    (p ≠ 0x07 ∨ s.gnt.stopped = false) → off < 4096 → off % 4 = 0 → isLat p off = true → s.guardOf p = none →
    ∃ t, exec (.highWordWrite m (BitVec.ofNat 32 (pageAddr p off)) v) s = .next t ∧
      t.wsh (shKey (s.masterNo m) p off) = some v ∧ ∀ k, k % 4096 ≠ 0x010 → t.rd k = s.rd k) ∧
  (∀ (m : Master) (p off : Nat) (v : BitVec 32) (s : State), isUser m = false → s.posted = [] → (pageKind p).isSome = true → p < 0x91 →
    (p ≠ 0x07 ∨ s.gnt.stopped = false) → off < 4096 → off % 4 = 0 → latsOf p off ≠ [] → s.guardOf p = none →
    (rowsAt p off).any (fun r => r.ty == .rw || r.ty == .rwh) = true → (p = 0x04 → off = 0x060 → s.offsetRefused = false) →
    s.groupCause p off v ((off, v &&& wordMask p off) :: (latsOf p off).map (fun o => (o, match s.wsh (shKey (s.masterNo m) p o) with
      | some w => w &&& wordMask p o
      | none => s.rd (rkey p (s.unitOf p off) o)))) = 0 →
    ∃ t, exec (.lowWordWrite m (BitVec.ofNat 32 (pageAddr p off)) v) s = .next t ∧
      t.rd (rkey p (s.unitOf p off) off) = v &&& wordMask p off ∧
      ∀ o ∈ latsOf p off, t.wsh (shKey (s.masterNo m) p o) = none ∧
        t.rd (rkey p (s.unitOf p off) o) = match s.wsh (shKey (s.masterNo m) p o) with
          | some w => w &&& wordMask p o
          | none => s.rd (rkey p (s.unitOf p off) o))

/-- R19 and R20 for software producers. -/
def Obligations.SlotPostAndRefusal : Prop :=
  (∀ (m : Master) (n : Fin 8192) (v : BitVec 32) (s : State), s.masterNo m < 8 → s.isProducer n.val 7 (s.masterNo m) = true →
    ∃ t, exec (.sigimgTagWrite m n v) s = .next t ∧ t.wsh (sigKey (s.masterNo m) n.val) = some v ∧ t.sig = s.sig) ∧
  (∀ (m : Master) (n : Fin 8192) (v w : BitVec 32) (s : State), s.masterNo m < 8 → s.isProducer n.val 7 (s.masterNo m) = true →
    s.wsh (sigKey (s.masterNo m) n.val) = some w →
    ∃ t, exec (.sigimgValueWrite m n v) s = .next t ∧ t.wsh (sigKey (s.masterNo m) n.val) = none ∧
      t.slotRaw n.val = ⟨v, mkTag (tVALID w) (tLATE w) (tSUBST w) (tSAT w) 7 (s.masterNo m) (tAGE w)⟩ ∧
      ∀ k, k ≠ n.val → t.slotRaw k = s.slotRaw k) ∧
  (∀ (m : Master) (n : Fin 8192) (v : BitVec 32) (s : State), s.masterNo m < 8 → s.isProducer n.val 7 (s.masterNo m) = true →
    s.wsh (sigKey (s.masterNo m) n.val) = none →
    ∃ t, exec (.sigimgValueWrite m n v) s = .next t ∧ t.slotRaw n.val = ⟨v, (s.slotRaw n.val).tag⟩ ∧
      ∀ k, k ≠ n.val → t.slotRaw k = s.slotRaw k) ∧
  (∀ (m : Master) (n : Fin 8192) (v : BitVec 32) (s : State), s.posted = [] →
    8 ≤ s.masterNo m ∨ s.isProducer n.val 7 (s.masterNo m) = false →
    ∃ t, exec (.sigimgValueWrite m n v) s = .next t ∧ t.sig = s.sig ∧
      t.get SYS.SIGIMG_ERR_CNT_COUNT = min (s.get SYS.SIGIMG_ERR_CNT_COUNT + 1) (2 ^ SYS.SIGIMG_ERR_CNT_COUNT.w - 1) ∧
      t.get SYS.SIGIMG_ERR_SLOT_SLOT = n.val ∧ t.get SYS.SIGIMG_ERR_SLOT_SRC_ID = s.masterNo m ∧ t.resp = .done) ∧
  (∀ (m : Master) (n : Fin 8192) (v : BitVec 32) (s : State), s.posted = [] →
    8 ≤ s.masterNo m ∨ s.isProducer n.val 7 (s.masterNo m) = false →
    ∃ t, exec (.sigimgTagWrite m n v) s = .next t ∧ t.sig = s.sig ∧ t.wshadow = s.wshadow ∧
      t.get SYS.SIGIMG_ERR_CNT_COUNT = min (s.get SYS.SIGIMG_ERR_CNT_COUNT + 1) (2 ^ SYS.SIGIMG_ERR_CNT_COUNT.w - 1) ∧
      t.get SYS.SIGIMG_ERR_SLOT_SLOT = n.val ∧ t.get SYS.SIGIMG_ERR_SLOT_SRC_ID = s.masterNo m ∧ t.resp = .done)

/-- R36 for every assigned page: the write, and the saturation of each counter. -/
def Obligations.ErrorCounterWrite : Prop :=
  (∀ (m : Master) (p : Fin 256) (v : BitVec 32) (s : State), isUser m = false → s.posted = [] → (pageKind p.val).isSome = true →
    (p.val ≠ 0x07 ∨ s.gnt.stopped = false) → s.guardOf p.val = none →
    ∃ t, exec (.errCntWrite m p v) s = .next t ∧
      t.get (HDR.PG_ERR_CNT_LOST p.val) = (if bits v 24 8 = 0xFF then s.get (HDR.PG_ERR_CNT_LOST p.val) else bits v 24 8) ∧
      t.get (HDR.PG_ERR_CNT_ACCESS p.val) = (if bits v 16 8 = 0xFF then s.get (HDR.PG_ERR_CNT_ACCESS p.val) else bits v 16 8) ∧
      t.get (HDR.PG_ERR_CNT_GUARD p.val) = (if bits v 8 8 = 0xFF then s.get (HDR.PG_ERR_CNT_GUARD p.val) else bits v 8 8) ∧
      ∀ k, k ≠ rkey p.val 0 0x028 → k % 4096 ≠ 0x010 → t.rd k = s.rd k) ∧
  (∀ (s : State) (p off cause m : Nat),
    (s.lost p off cause m).get (HDR.PG_ERR_CNT_LOST p) = min (s.get (HDR.PG_ERR_CNT_LOST p) + 1) 0xFF ∧
    (s.badAccess p off cause m).get (HDR.PG_ERR_CNT_ACCESS p) = min (s.get (HDR.PG_ERR_CNT_ACCESS p) + 1) 0xFF ∧
    (s.badGuard p off cause m).get (HDR.PG_ERR_CNT_GUARD p) = min (s.get (HDR.PG_ERR_CNT_GUARD p) + 1) 0xFF)

/-- R39: ENABLE cleared (a write of 0 to PG_CTRL), and SOFT_RESET (a write of 2) in either state of ENABLE. -/
def Obligations.PageEnableAndSoftReset : Prop :=
  (∀ (m : Master) (p : Fin 256) (s : State), isUser m = false → (pageKind p.val).isSome = true → s.guardOf p.val = none → s.enabled p.val = true →
    fixedEnable p.val = false → s.enableLocked p.val = false →
    ∃ t, exec (.enableClear m p 0) s = .next t ∧
      t = (((({ s with resp := .done } : State).abortOff (enablePages p.val)).putEnable false (enablePages p.val)).disabled p.val).settle s) ∧
  (∀ (m : Master) (p : Fin 256) (s : State), isUser m = false → s.posted = [] → s.guardOf p.val = none → s.enabled p.val = true →
    (p.val = 0x02 ∨ p.val = 0x05 ∨ p.val = 0x08 ∨ (0x40 ≤ p.val ∧ p.val < 0x4C) ∨ (0x64 ≤ p.val ∧ p.val < 0x84)) →
    ∃ t, exec (.enableClear m p 0) s = .next t ∧ t.enabled p.val = false ∧
      ∀ k, k ≠ rkey p.val 0 0x00C → k % 4096 ≠ 0x010 → t.rd k = s.rd k) ∧
  (∀ (m : Master) (p : Fin 256) (s : State), isUser m = false → (pageKind p.val).isSome = true → s.guardOf p.val = none → s.enabled p.val = false →
    fixedEnable p.val = false →
    ∃ t, exec (.softReset m p 2) s = .next t ∧ t = (({ s with resp := .done } : State).softReset p.val).settle s) ∧
  (∀ (m : Master) (p : Fin 256) (s : State), isUser m = false → s.posted = [] → Regs.wf s.regs = true → s.guardOf p.val = none →
    s.enabled p.val = false →
    (p.val = 0x02 ∨ p.val = 0x05 ∨ p.val = 0x06 ∨ (0x08 ≤ p.val ∧ p.val < 0x0B) ∨ p.val = 0x0C ∨ (0x14 ≤ p.val ∧ p.val < 0x18) ∨
      (0x40 ≤ p.val ∧ p.val < 0x4C) ∨ (0x50 ≤ p.val ∧ p.val < 0x84) ∨ p.val = 0x90) →
    ∃ t, exec (.softReset m p 2) s = .next t ∧ t.enabled p.val = false ∧
      (∀ k, k / 16777216 = p.val → 0x040 ≤ k % 4096 → t.rd k &&& ~~~ mramMask k = resetWord k &&& ~~~ mramMask k) ∧
      ∀ k, k / 16777216 = p.val → k % 4096 < 0x040 → k % 4096 ≠ 0x010 → t.rd k = s.rd k) ∧
  (∀ (m : Master) (p : Fin 256) (s : State), isUser m = false → s.posted = [] → (pageKind p.val).isSome = true →
    (p.val ≠ 0x07 ∨ s.gnt.stopped = false) → s.guardOf p.val = none → s.enabled p.val = true →
    ∃ t, exec (.softReset m p 3) s = .next t ∧ t.enabled p.val = true ∧
      t.get (HDR.PG_ERR_CNT_LOST p.val) = min (s.get (HDR.PG_ERR_CNT_LOST p.val) + 1) 0xFF ∧
      t.get (HDR.PG_ERR_ADDR_CAUSE p.val) = 4 ∧ ∀ k, k ≥ rkey p.val 0 0x040 → k % 4096 ≠ 0x010 → k < rkey (p.val + 1) 0 0 →
        t.rd k = s.rd k)

/-- R51, R53, R54 and R149: an abort from its write to its end. -/
def Obligations.AbortLifeCycle : Prop :=
  (∀ (m : Master) (p : Fin 256) (r : Nat) (s : State), isUser m = false → s.posted = [] → r < 0x80 →
    (p.val = 0x09 ∨ p.val = 0x0C ∨ (0x14 ≤ p.val ∧ p.val < 0x18) ∨ p.val = 0x1B) → s.guardOf p.val = none →
    s.abortUnit p.val < abortUnits p.val → s.abortOf p.val (s.abortUnit p.val) = none →
    s.workInHand p.val (s.abortUnit p.val) = true →
    ∃ t, exec (.abort m p (BitVec.ofNat 32 (0xAB000000 + r))) s = .next t ∧ t.get (HDR.PG_ABORT_STAT_REASON p.val) = r ∧
      t.get (HDR.PG_ABORT_STAT_IN_PROGRESS p.val) = 1 ∧ t.get (HDR.PG_ABORT_STAT_OVER_BOUND p.val) = 0 ∧
      t.abortOf p.val (s.abortUnit p.val) = some ⟨r, s.mono⟩ ∧ s.sameBut [.aborts, .resp] t) ∧
  (∀ (m : Master) (p : Fin 256) (r : Nat) (s : State), isUser m = false → r < 0x80 → abortPage p.val = true → p.val < 0x50 →
    s.posted = [] → s.guardOf p.val = none → s.abortUnit p.val < abortUnits p.val →
    s.abortOf p.val (s.abortUnit p.val) = none → s.workInHand p.val (s.abortUnit p.val) = true →
    ∃ t, exec (.abort m p (BitVec.ofNat 32 (0xAB000000 + r))) s = .next t ∧ t.get (HDR.PG_ABORT_STAT_REASON p.val) = r ∧
      t.get (HDR.PG_ABORT_STAT_IN_PROGRESS p.val) = 1 ∧ t.get (HDR.PG_ABORT_STAT_OVER_BOUND p.val) = 0 ∧
      t.abortOf p.val (s.abortUnit p.val) = some ⟨r, s.mono⟩) ∧
  (∀ (m : Master) (p : Fin 256) (r : Nat) (b : TxBuf) (s : State), isUser m = false → r < 0x80 → 0x50 ≤ p.val → p.val < 0x64 →
    s.posted = [] → s.guardOf p.val = none → s.abortUnit p.val < 8 →
    s.abortOf p.val (s.abortUnit p.val) = none → (s.can (p.val - 0x50)).buf (s.abortUnit p.val) = some b → b.st = 3 →
    ∃ t, exec (.abort m p (BitVec.ofNat 32 (0xAB000000 + r))) s = .next t ∧ t.get (HDR.PG_ABORT_STAT_REASON p.val) = r ∧
      t.get (HDR.PG_ABORT_STAT_IN_PROGRESS p.val) = 1 ∧ t.abortOf p.val (s.abortUnit p.val) = some ⟨r, s.mono⟩) ∧
  (∀ (m : Master) (p : Fin 256) (r : Nat) (s : State), isUser m = false → r < 0x80 → abortPage p.val = true → p.val ≠ 0x0A →
    s.posted = [] → s.guardOf p.val = none → s.abortUnit p.val < abortUnits p.val →
    s.abortOf p.val (s.abortUnit p.val) = none → s.workInHand p.val (s.abortUnit p.val) = false →
    ∃ t, exec (.abort m p (BitVec.ofNat 32 (0xAB000000 + r))) s = .next t ∧ t.get (HDR.PG_ABORT_STAT_REASON p.val) = r ∧
      t.get (HDR.PG_ABORT_STAT_DURATION p.val) = 0 ∧ t.abortOf p.val (s.abortUnit p.val) = none) ∧
  (∀ (m : Master) (p : Fin 256) (r : Nat) (s : State), isUser m = false → r < 0x80 → abortPage p.val = true → s.posted = [] →
    s.guardOf p.val = none → (s.abortOf p.val (s.abortUnit p.val)).isSome = true →
    ∃ t, exec (.abort m p (BitVec.ofNat 32 (0xAB000000 + r))) s = .next t ∧ t.aborts = s.aborts ∧
      ∀ k, k % 4096 ≠ 0x010 → t.rd k = s.rd k) ∧
  (∀ (m : Master) (p : Fin 256) (v : BitVec 32) (s : State), isUser m = false → s.posted = [] → (pageKind p.val).isSome = true → p.val ≠ 0x07 →
    s.guardOf p.val = none → (abortPage p.val = false ∨ v.toNat < 0xAB000000 ∨ 0xAB00007F < v.toNat) →
    ∃ t, exec (.abort m p v) s = .next t ∧ t.aborts = s.aborts ∧ t.get (HDR.PG_ERR_ADDR_CAUSE p.val) = 7 ∧
      t.get (HDR.PG_ERR_CNT_ACCESS p.val) = min (s.get (HDR.PG_ERR_CNT_ACCESS p.val) + 1) 0xFF ∧
      t.rd (rkey p.val 0 0x018) = s.rd (rkey p.val 0 0x018)) ∧
  (∀ (p : Fin 256) (u : Fin 128) (r : AbortRec) (s : State), s.abortOf p.val u.val = some r → p.val < 0x50 →
    (p.val = 0x19 → s.loopRelPast = false) →
    ∃ t, exec (.abortComplete p u) s = .next t ∧ t.abortOf p.val u.val = none) ∧
  (∀ (p : Fin 256) (u : Fin 128) (r : AbortRec) (s : State), s.posted = [] → s.abortOf p.val u.val = some r →
    ∃ t, exec (.abortOverBound p u) s = .next t ∧ t.get (HDR.PG_ABORT_STAT_OVER_BOUND p.val) = 1 ∧
      r.since + s.abortBound p.val ≤ t.mono ∧ t.aborts = s.aborts) ∧
  (∀ (c : Fin 128) (r : AbortRec) (s : State), s.posted = [] → s.abortOf 0x19 c.val = some r → (s.loop c.val).aborting = true →
    s.loopRelPast = false →
    ∃ t, exec (.loopAbortFallback c) s = .next t ∧ t.abortOf 0x19 c.val = none ∧ t.get (CTX.CTX_MODE_STATE c.val) = lpFALLBACK ∧
      t.get (CTX.CTX_MODE_LAST_CAUSE c.val) = 9)

/-- R45 and R47: the first half of a guarded write, and what follows if the second does not come. -/
def Obligations.GuardedWindow : Prop :=
  (∀ (m : Master) (p : Fin 256) (off : BitVec 12) (v : BitVec 32) (s : State), isUser m = false → s.posted = [] → (pageKind p.val).isSome = true →
    (p.val ≠ 0x07 ∨ s.gnt.stopped = false) → isGrd p.val off.toNat = true → 0x400 ≤ off.toNat → off.toNat < 0x600 →
    off.toNat % 4 = 0 → s.guardOf p.val = none →
    ∃ t, exec (.guardedValueWrite m p off v) s = .next t ∧ t.guardOf p.val = some ⟨off.toNat, v, s.masterNo m, s.mono⟩ ∧
      s.sameBut [.guards, .resp] t ∧ ∀ k, k % 4096 ≠ 0x010 → t.rd k = s.rd k) ∧
  (∀ (p : Fin 256) (g : GuardOpen) (s : State), s.posted = [] → s.guardOf p.val = some g →
    g.off < 4096 →
    ∃ t, exec (.guardTimeout p) s = .next t ∧ t.guardOf p.val = none ∧ g.since + guardWindow p.val < t.mono ∧
      t.get (HDR.PG_ERR_ADDR_CAUSE p.val) = 6 ∧ t.get (HDR.PG_ERR_ADDR_OFFSET p.val) = g.off ∧
      t.get (HDR.PG_ERR_CNT_GUARD p.val) = min (s.get (HDR.PG_ERR_CNT_GUARD p.val) + 1) 0xFF)

/-- R55: the commit in CONFIG, and its refusal elsewhere. -/
def Obligations.FeatureCommit : Prop :=
  (∀ (m : Master) (s : State), isUser m = false → s.posted = [] → s.guardOf 0x00 = none → s.mstate = stCONFIG →
    ∃ t, exec (.featCommit m 1) s = .next t ∧ t.mstate = stCONFIG ∧
      (∀ k, k < 8 → t.get (SYS.FEAT_ACTIVE k) = s.get (SYS.DEV_FEAT k) &&& s.get (SYS.DRV_FEAT k)) ∧
      t.get SYS.MODULE_STATE_FEAT_COMMITTED = 1 ∧
      (t.get SYS.MODULE_STATE_MAND_MISSING = 1 ↔
        ∃ k, k < 8 ∧ s.get (SYS.FEAT_MAND k) &&& s.get (SYS.DRV_FEAT k) ≠ s.get (SYS.FEAT_MAND k))) ∧
  (∀ (m : Master) (s : State), isUser m = false → s.posted = [] → s.guardOf 0x00 = none → s.mstate ≠ stCONFIG →
    ∃ t, exec (.featCommit m 1) s = .next t ∧ (∀ k, k < 8 → t.get (SYS.FEAT_ACTIVE k) = s.get (SYS.FEAT_ACTIVE k)) ∧
      t.get (HDR.PG_ERR_CNT_LOST 0x00) = min (s.get (HDR.PG_ERR_CNT_LOST 0x00) + 1) 0xFF)

/-- R59 with R466: the two state requests. -/
def Obligations.StateRequests : Prop :=
  (∀ (m : Master) (s : State), isUser m = false → s.posted = [] → s.guardOf 0x00 = none → s.mstate = stCONFIG →
    s.on SYS.MODULE_STATE_FEAT_COMMITTED = true → s.on SYS.MODULE_STATE_MAND_MISSING = false →
    ∃ t, exec (.stateReqRun m) s = .next t ∧ t.mstate = stSTARTUP ∧ t.get SYS.REQ_STAT_RESTART_FAILED = 0) ∧
  (∀ (m : Master) (s : State), isUser m = false → s.posted = [] → s.guardOf 0x00 = none → s.mstate = stCONFIG →
    s.on SYS.MODULE_STATE_FEAT_COMMITTED = false →
    ∃ t, exec (.stateReqRun m) s = .next t ∧ t.mstate = stCONFIG ∧
      t.get (HDR.PG_ERR_CNT_LOST 0x00) = min (s.get (HDR.PG_ERR_CNT_LOST 0x00) + 1) 0xFF) ∧
  (∀ (m : Master) (s : State), isUser m = false → s.posted = [] → s.guardOf 0x00 = none →
    (s.mstate = stCONFIG ∨ s.mstate = stRUN ∨ s.mstate = stSAFE ∨ s.mstate = stHALT) →
    Regs.wf s.regs = true → s.on SYS.REQ_STAT_HANDOVER_PENDING = false → s.readyStandby = false →
    ∃ t, exec (.stateReqRestart m) s = .next t ∧ t.mstate = stBOOT ∧ t.get SYS.STATE_CAUSE_CAUSE = 0x02 ∧ t.role = roleNONE ∧
      t.forces = [] ∧ t.tku = s.tku ∧ ∀ a, a < 0x70000000 ∨ 0x72000000 ≤ a → t.byte a = 0)

/-- R61: image updates and the choice of the image. -/
def Obligations.ImageUpdate : Prop :=
  (∀ (m : Master) (s : State), isUser m = false → s.posted = [] → s.guardOf 0x00 = none → s.on SYS.IMG_STAT_UPD_BUSY = false → s.pfw = false →
    s.get SYS.IMG_UPD_LEN ≠ 0 → s.get SYS.IMG_UPD_LEN ≤ 0x8000000 → 0x80000000 ≤ s.get SYS.IMG_UPD_SRC →
    s.get SYS.IMG_UPD_SRC + s.get SYS.IMG_UPD_LEN ≤ 0x100000000 → s.get SYS.IMG_UPD_SRC % 4096 = 0 →
    ∃ t, exec (.imgUpdStart m 1) s = .next t ∧ t.get SYS.IMG_STAT_UPD_BUSY = 1 ∧ t.get SYS.IMG_STAT_UPD_FAIL = 0 ∧
      t.get (imgStat (1 - s.get SYS.BOOT_CFG_IMAGE)) = 3 ∧
      t.dev.upd = some (s.bytes (s.get SYS.IMG_UPD_SRC) (s.get SYS.IMG_UPD_LEN))) ∧
  (∀ (l : List Byte) (s : State), s.posted = [] → s.dev.upd = some l →
    ∃ t, exec .imageUpdateDone s = .next t ∧ t.dev.upd = none ∧ t.get SYS.IMG_STAT_UPD_BUSY = 0 ∧
      t.get (imgStat (1 - s.get SYS.BOOT_CFG_IMAGE)) = (if Config.ecdsaP384 l then 1 else 2) ∧
      t.get (imgVer (1 - s.get SYS.BOOT_CFG_IMAGE)) = (Config.imageVersion l).toNat ∧
      (Config.ecdsaP384 l = false → t.get SYS.IMG_STAT_UPD_FAIL = 1)) ∧
  (∀ (m : Master) (v : BitVec 32) (s : State), isUser m = false → s.posted = [] → s.guardOf 0x00 = none → v.toNat ≤ 1 →
    ∃ t, exec (.bootSelect m v) s = .next t ∧ t.get SYS.BOOT_SELECT_IMAGE = v.toNat ∧ t.mstate = s.mstate)

/-- R67 to R72: what commits to the servo and the addend. -/
def Obligations.ServoAndAddend : Prop :=
  (∀ (m : Master) (v : BitVec 32) (s : State), isUser m = false → s.posted = [] → s.guardOf 0x04 = none → s.on TKU.SERVO_CTRL_SERVO_EN = false →
    ∃ t, exec (.servoOffsetWrite m v) s = .next t ∧ t.addend = s.addend ∧
      t.get (HDR.PG_ERR_CNT_LOST 0x04) = min (s.get (HDR.PG_ERR_CNT_LOST 0x04) + 1) 0xFF) ∧
  (∀ (m : Master) (v : BitVec 32) (s : State), isUser m = false → s.posted = [] → s.guardOf 0x04 = none → s.on TKU.SERVO_CTRL_SERVO_EN = true →
    s.on TKU.SYNC_STAT_STEP_PENDING = false → s.on TKU.SYNC_STAT_TIME_VALID = true →
    s.wsh (shKey (s.masterNo m) 0x04 0x064) = some 0 → v.toNat ≤ s.get TKU.STEP_THRESH →
    ∃ t, exec (.servoOffsetWrite m v) s = .next t ∧ t.get64 TKU.OFFSET_LAST_LO TKU.OFFSET_LAST_HI = v.toNat ∧
      t.get TKU.SYNC_STAT_HOLDOVER = 0 ∧ t.tku.holdSince = some s.mono ∧ t.tku.stepPend = s.tku.stepPend) ∧
  (∀ (m : Master) (v : BitVec 32) (s : State), isUser m = false → s.posted = [] → s.guardOf 0x04 = none → s.on TKU.SERVO_CTRL_SERVO_EN = false →
    s.wsh (shKey (s.masterNo m) 0x04 0x054) = none → s.get TKU.ADDEND_INT ≠ 0 →
    ∃ t, exec (.addendFracWrite m v) s = .next t ∧ t.get TKU.ADDEND_FRAC = v.toNat ∧ t.get TKU.ADDEND_INT = s.get TKU.ADDEND_INT) ∧
  (∀ (m : Master) (s : State), isUser m = false → s.posted = [] → s.guardOf 0x04 = none →
    ∃ t, exec (.integClr m) s = .next t ∧ t.get TKU.INTEG = 0) ∧
  (∀ (h : Nat) (s : State), s.posted = [] → s.tku.holdSince = some h → s.tku.accepted = true →
    s.on TKU.SERVO_CTRL_SERVO_EN = true → s.on TKU.SYNC_STAT_HOLDOVER = false →
    ∃ t, exec .holdoverTimeout s = .next t ∧ t.get TKU.SYNC_STAT_HOLDOVER = 1 ∧ h + ms (s.get TKU.HOLDOVER_TIME) ≤ t.mono)

/-- R71 and R72: cancelling and applying a step. -/
def Obligations.TimeSteps : Prop :=
  (∀ (m : Master) (s : State), isUser m = false → s.posted = [] → s.guardOf 0x04 = none →
    ∃ t, exec (.stepPermit m 0) s = .next t ∧ t.tku.stepPend = none ∧ t.get TKU.SYNC_STAT_STEP_PENDING = 0 ∧
      t.tku.ns = s.tku.ns) ∧
  (∀ (o : BitVec 64) (s : State), s.posted = [] → s.tku.stepPend = some o → s.tku.stepArmed = true →
    ∃ t, exec .stepApply s = .next t ∧ t.tku.ns = s.tku.ns - o ∧ t.tku.frac = s.tku.frac ∧ t.tku.stepPend = none ∧
      t.get TKU.STEP_SEQ = (s.get TKU.STEP_SEQ + 1) % 2 ^ 16 ∧ t.get64 TKU.STEP_LAST_LO TKU.STEP_LAST_HI = (-o).toNat ∧
      t.get64 TKU.STEP_AT_LO TKU.STEP_AT_HI = s.tku.tickStart.toNat ∧ t.get TKU.SYNC_STAT_TIME_VALID = 1 ∧
      t.get TKU.SYNC_STAT_STEP_PENDING = 0)

/-- R15: what each phase of the tick does, with R18 (ages), R93 (due tasks) and R127 (release of a finished period). -/
def Obligations.TickPhases : Prop :=
  (∀ (f : List FieldSample) (s : State), ∃ t, exec (.tickBoundary f) s = .next t ∧ t.tku.base = s.tku.next ∧
    t.tku.next = s.tku.next + 100000 ∧ t.tku.ticks = s.tku.ticks + 1 ∧ t.tku.snapped = false ∧ t.tku.cut = false ∧
    t.tku.stepPend = s.tku.stepPend ∧ t.tku.stepArmed = s.tku.stepPend.isSome) ∧
  (∀ (f : List FieldSample) (s : State), Signals.wf s.sig = true → s.mstate < stCONFIG →
    (List.range 16).all (fun b => !s.bankLive b) = true →
    ∃ t, exec (.tickBoundary f) s = .next t ∧ ∀ n, (t.slotRaw n).value = (s.slotRaw n).value ∧
      tAGE (t.slotRaw n).tag = min (tAGE (s.slotRaw n).tag + 1) 0xFFFF ∧
      bits (t.slotRaw n).tag 16 16 = bits (s.slotRaw n).tag 16 16) ∧
  (∀ (q : Fin 4) (k : Nat) (s : State), s.tku.snapped = false → s.enabled (0x14 + q.val) = true → s.schedRun q.val = true →
    k ∈ s.dueTasks q.val →
    ∃ t, exec .snapshotInstant s = .next t ∧ t.tku.snapped = true ∧ (t.task q.val k).isOpen = true ∧ (t.task q.val k).due = false ∧
      (t.task q.val k).pc = (s.imgTask q.val k).entry ∧ (t.task q.val k).stack = []) ∧
  (∀ s : State, s.tku.snapped = true → ∃ t, exec .snapshotInstant s = .next t ∧ t = s.settle s) ∧
  (∀ (ch : Fin 256) (s : State), s.tku.cut = false → s.bankLive (bk ch.val) = true → s.enabled (0x20 + bk ch.val) = true →
    s.chEn ch.val = true → isOut (s.chType ch.val) = true →
    ∃ t, exec .stageCutoff s = .next t ∧ t.tku.cut = true ∧ t.sig = s.sig ∧
      (t.chan ch.val).staged = (match s.chanForce ch.val with
        | some f => some (s.forceVal f)
        | none => if tVALID (s.slotView (s.chSlot ch.val)).tag then some (s.slotView (s.chSlot ch.val)).value else none)) ∧
  (∀ (c : Fin 128) (d : Bool) (s : State), s.posted = [] → s.tku.snapped = true → s.tku.cut = false → s.loopRelDue c.val = true →
    (s.loop c.val).aborting = false → s.loopSt c.val = lpOPEN → s.on (CTX.CTX_CFG_OPEN_ACT c.val) = false → (s.loop c.val).job = none →
    ∃ t, exec (.loopRelease c d) s = .next t ∧ (t.loop c.val).begun = false ∧ (t.loop c.val).job = none ∧ t.sig = s.sig) ∧
  (∀ (c : Fin 128) (j : Job) (s : State), s.tku.snapped = true → s.tku.cut = false → s.loopRelDue c.val = true →
    (s.loop c.val).aborting = false → loopRuns (s.loopSt c.val) = true → (s.loop c.val).job = some j → s.domReady 8 = true →
    ∃ t, exec (.loopRelease c true) s = .next t ∧ (t.loop c.val).begun = false ∧ (t.loop c.val).job = none ∧
      (t.loop c.val).released = some s.tku.ticks ∧
      ∀ i, i < 32 → ∀ x ∈ j.xnext[i]?, -(2 ^ 31) ≤ x → x < 2 ^ 31 → t.memI (stateBase c.val + 4 * i) = x) ∧
  (∀ (c : Fin 128) (d : Bool) (s : State), (s.tku.snapped = false ∨ s.tku.cut = true ∨ s.loopRelDue c.val = false) →
    ∃ t, exec (.loopRelease c d) s = .next t ∧ t = s.settle s)

/-- R10 to R14 with R440: the life of a compute domain's clock. -/
def Obligations.DomainClocks : Prop :=
  (∀ (d : Fin 10) (s : State), s.posted = [] → s.domRuns d.val = true → s.bit CLO.AWAKE d.val = false →
    ∃ t, exec (.domainWake d) s = .next t ∧ t.bit CLO.AWAKE d.val = true ∧ t.bit CLO.LOCKED d.val = false ∧
      t.biased d.val = false ∧ t.wakeTime d.val = t.mono ∧ (s.nextWork d.val = none → t.mono = s.mono) ∧
      ∀ e, e < 11 → e ≠ d.val → t.bit CLO.AWAKE e = s.bit CLO.AWAKE e ∧ t.bit CLO.LOCKED e = s.bit CLO.LOCKED e) ∧
  (∀ (d : Fin 11) (s : State), s.posted = [] → d.val < 10 → s.bit CLO.AWAKE d.val = true → s.bit CLO.LOCKED d.val = false →
    ∃ t, exec (.clockLocked d) s = .next t ∧ t.bit CLO.LOCKED d.val = true ∧ t.bit CLO.AWAKE d.val = true ∧
      t.get (CLO.DOM_CNT_LATE_LOCK d.val) = (if s.wakeTime d.val + us 40 < s.mono then min (s.get (CLO.DOM_CNT_LATE_LOCK d.val) + 1) 0xFF
        else s.get (CLO.DOM_CNT_LATE_LOCK d.val))) ∧
  (∀ s : State, s.posted = [] → s.feat 4 = true → s.mstate ≠ stPOWER_ON →
    ∃ t, exec (.clockLocked 10) s = .next t ∧ t.clkRuns 10 = true ∧ t.bit CLO.LOCKED 10 = true ∧
      ∀ e, e < 10 → t.bit CLO.LOCKED e = s.bit CLO.LOCKED e) ∧
  (∀ (d : Fin 10) (s : State), s.posted = [] → s.bit CLO.AWAKE d.val = true → s.pendingWork d.val = false →
    s.bit CLO.WAKE_HOLD d.val = false → s.nextWork d.val = none →
    ∃ t, exec (.domainSleep d) s = .next t ∧ t.bit CLO.AWAKE d.val = false ∧ t.bit CLO.LOCKED d.val = false ∧
      t.biased d.val = false) ∧
  (∀ (d : Fin 10) (x : Nat) (s : State), s.posted = [] → s.bit CLO.AWAKE d.val = true → s.pendingWork d.val = false →
    s.bit CLO.WAKE_HOLD d.val = false → s.nextWork d.val = some x → 50000 < x →
    ∃ t, exec (.domainSleep d) s = .next t ∧ t.bit CLO.AWAKE d.val = false ∧ t.bit CLO.LOCKED d.val = false ∧
      t.biased d.val = (s.domRuns d.val && decide (x ≤ ms 5))) ∧
  (∀ (d : Fin 10) (s : State), s.posted = [] → (s.pendingWork d.val = true ∨ s.bit CLO.WAKE_HOLD d.val = true ∨ s.workWithin d.val 50000 = true) →
    ∃ t, exec (.domainSleep d) s = .next t ∧ t.bit CLO.AWAKE d.val = s.bit CLO.AWAKE d.val ∧
      t.bit CLO.LOCKED d.val = s.bit CLO.LOCKED d.val) ∧
  (∀ (d : Fin 10) (s : State), s.posted = [] → s.unlocked d.val = true →
    ∃ t, exec (.fclkLockTimeout d) s = .next t ∧ t.bit CLO.FCLK_FAULT d.val = true ∧ s.wakeTime d.val + us 40 ≤ t.mono ∧
      t.mstate = s.mstate) ∧
  (∀ (d : Fin 10) (s : State), s.unlocked d.val = true → s.mstate = stRUN →
    ∃ t, exec (.fclkLock1msTimeout d) s = .next t ∧ t.mstate = stSAFE ∧ t.get SYS.STATE_CAUSE_CAUSE = 9)

/-- R62, R63 and R437: the monitor windows. -/
def Obligations.ClockChecks : Prop :=
  (∀ (d : Fin 11) (p : Int) (s : State), s.posted = [] → s.clkRuns d.val = true → p.natAbs ≤ 50000 →
    ∃ t, exec (.fclkMonitorWindow [(d, p)]) s = .next t ∧ t.bit CLO.FCLK_FAULT d.val = false ∧ t.mstate = s.mstate ∧
      ∀ e, e < 11 → e ≠ d.val → t.bit CLO.FCLK_FAULT e = s.bit CLO.FCLK_FAULT e) ∧
  (∀ (d : Fin 11) (p : Int) (s : State), s.clkRuns d.val = true → 50000 < p.natAbs → d.val < 10 → s.mstate = stRUN →
    ∃ t, exec (.fclkMonitorWindow [(d, p)]) s = .next t ∧ t.bit CLO.FCLK_FAULT d.val = true ∧ t.mstate = stSAFE ∧
      t.get SYS.STATE_CAUSE_CAUSE = 9 ∧ t.get (CLO.DOM_CNT_DEVIATION d.val) = min (s.get (CLO.DOM_CNT_DEVIATION d.val) + 1) 0xFF) ∧
  (∀ (p : Int) (s : State), s.posted = [] → s.clkRuns 10 = true → 50000 < p.natAbs →
    ∃ t, exec (.fclkMonitorWindow [(10, p)]) s = .next t ∧ t.bit CLO.FCLK_FAULT 10 = true ∧ t.bit CLO.LOCKED 10 = false ∧
      t.mstate = s.mstate) ∧
  (∀ (d : Fin 11) (p : Int) (s : State), s.posted = [] → s.clkRuns d.val = false →
    ∃ t, exec (.fclkMonitorWindow [(d, p)]) s = .next t ∧ t.mstate = s.mstate ∧
      t.bit CLO.FCLK_FAULT d.val = s.bit CLO.FCLK_FAULT d.val) ∧
  (∀ (d e : Fin 11) (p q : Int) (s : State), d ≠ e → s.clkRuns d.val = true → s.clkRuns e.val = true → 50000 < p.natAbs → 50000 < q.natAbs →
    ∃ t, exec (.fclkMonitorWindow [(d, p), (e, q)]) s = .next t ∧ t.bit CLO.FCLK_FAULT d.val = true ∧ t.bit CLO.FCLK_FAULT e.val = true) ∧
  (∀ (p : Int) (s : State), s.posted = [] →
    ∃ t, exec (.tcxoCheckWindow p) s = .next t ∧ (t.get CLO.REF_STAT_TCXO_DEV = 1 ↔ 100000 < p.natAbs) ∧
      t.tku.tcxoWin = t.mono ∧ s.tku.tcxoWin + secs 1 ≤ t.mono)

/-- R98: the instructions that combine the accumulator with a bit operand. -/
def Obligations.IlCombine : Prop :=
  (∀ (q : Fin 4) (k : Nat) (o : BitVec 24) (x : Bool) (s : State), s.posted = [] → s.atOp q.val k 1 o = true →
    s.readBit q.val k o = .ok x →
    ∃ t, exec (.ld q o) s = .next t ∧ t.seqOf q.val = (s.seqOf q.val).setTask k ((s.task q.val k).onWith (x)) ∧
      (∀ p, p ≠ q.val → t.seqOf p = s.seqOf p) ∧ ∀ r, r % 4096 ≠ 0x010 → t.rd r = s.rd r) ∧
  (∀ (q : Fin 4) (k : Nat) (o : BitVec 24) (x : Bool) (s : State), s.posted = [] → s.atOp q.val k 2 o = true →
    s.readBit q.val k o = .ok x →
    ∃ t, exec (.ldn q o) s = .next t ∧ t.seqOf q.val = (s.seqOf q.val).setTask k ((s.task q.val k).onWith (!x)) ∧
      (∀ p, p ≠ q.val → t.seqOf p = s.seqOf p) ∧ ∀ r, r % 4096 ≠ 0x010 → t.rd r = s.rd r) ∧
  (∀ (q : Fin 4) (k : Nat) (o : BitVec 24) (x : Bool) (s : State), s.posted = [] → s.atOp q.val k 8 o = true →
    s.readBit q.val k o = .ok x →
    ∃ t, exec (.andOp q o) s = .next t ∧ t.seqOf q.val = (s.seqOf q.val).setTask k ((s.task q.val k).onWith ((s.task q.val k).acc && x)) ∧
      (∀ p, p ≠ q.val → t.seqOf p = s.seqOf p) ∧ ∀ r, r % 4096 ≠ 0x010 → t.rd r = s.rd r) ∧
  (∀ (q : Fin 4) (k : Nat) (o : BitVec 24) (x : Bool) (s : State), s.posted = [] → s.atOp q.val k 9 o = true →
    s.readBit q.val k o = .ok x →
    ∃ t, exec (.andn q o) s = .next t ∧ t.seqOf q.val = (s.seqOf q.val).setTask k ((s.task q.val k).onWith ((s.task q.val k).acc && !x)) ∧
      (∀ p, p ≠ q.val → t.seqOf p = s.seqOf p) ∧ ∀ r, r % 4096 ≠ 0x010 → t.rd r = s.rd r) ∧
  (∀ (q : Fin 4) (k : Nat) (o : BitVec 24) (x : Bool) (s : State), s.posted = [] → s.atOp q.val k 10 o = true →
    s.readBit q.val k o = .ok x →
    ∃ t, exec (.orOp q o) s = .next t ∧ t.seqOf q.val = (s.seqOf q.val).setTask k ((s.task q.val k).onWith ((s.task q.val k).acc || x)) ∧
      (∀ p, p ≠ q.val → t.seqOf p = s.seqOf p) ∧ ∀ r, r % 4096 ≠ 0x010 → t.rd r = s.rd r) ∧
  (∀ (q : Fin 4) (k : Nat) (o : BitVec 24) (x : Bool) (s : State), s.posted = [] → s.atOp q.val k 11 o = true →
    s.readBit q.val k o = .ok x →
    ∃ t, exec (.orn q o) s = .next t ∧ t.seqOf q.val = (s.seqOf q.val).setTask k ((s.task q.val k).onWith ((s.task q.val k).acc || !x)) ∧
      (∀ p, p ≠ q.val → t.seqOf p = s.seqOf p) ∧ ∀ r, r % 4096 ≠ 0x010 → t.rd r = s.rd r) ∧
  (∀ (q : Fin 4) (k : Nat) (o : BitVec 24) (x : Bool) (s : State), s.posted = [] → s.atOp q.val k 12 o = true →
    s.readBit q.val k o = .ok x →
    ∃ t, exec (.xorOp q o) s = .next t ∧ t.seqOf q.val = (s.seqOf q.val).setTask k ((s.task q.val k).onWith (xor (s.task q.val k).acc x)) ∧
      (∀ p, p ≠ q.val → t.seqOf p = s.seqOf p) ∧ ∀ r, r % 4096 ≠ 0x010 → t.rd r = s.rd r) ∧
  (∀ (q : Fin 4) (k : Nat) (o : BitVec 24) (x : Bool) (s : State), s.posted = [] → s.atOp q.val k 13 o = true →
    s.readBit q.val k o = .ok x →
    ∃ t, exec (.xorn q o) s = .next t ∧ t.seqOf q.val = (s.seqOf q.val).setTask k ((s.task q.val k).onWith (xor (s.task q.val k).acc (!x))) ∧
      (∀ p, p ≠ q.val → t.seqOf p = s.seqOf p) ∧ ∀ r, r % 4096 ≠ 0x010 → t.rd r = s.rd r) ∧
  (∀ (q : Fin 4) (k : Nat) (s : State), s.posted = [] → s.atOp q.val k 14 0 = true →
    ∃ t, exec (.notOp q 0) s = .next t ∧ t.seqOf q.val = (s.seqOf q.val).setTask k ((s.task q.val k).onWith (!(s.task q.val k).acc)) ∧
      (∀ p, p ≠ q.val → t.seqOf p = s.seqOf p) ∧ ∀ r, r % 4096 ≠ 0x010 → t.rd r = s.rd r) ∧
  (∀ (q : Fin 4) (k : Nat) (s : State), s.posted = [] → s.atOp q.val k 0 0 = true →
    ∃ t, exec (.nop q 0) s = .next t ∧ t.seqOf q.val = (s.seqOf q.val).setTask k ((s.task q.val k).onWith ((s.task q.val k).acc)) ∧
      (∀ p, p ≠ q.val → t.seqOf p = s.seqOf p) ∧ ∀ r, r % 4096 ≠ 0x010 → t.rd r = s.rd r)

/-- R98: the instructions that write a bit operand. -/
def Obligations.IlStore : Prop :=
  (∀ (q : Fin 4) (k : Nat) (o : BitVec 24) (s : State), s.posted = [] → s.atOp q.val k 4 o = true → s.storeCause q.val k o = 0 →
    ∃ t, exec (.st q o) s = .next t ∧ t.readBit q.val k o = Except.ok ((s.task q.val k).acc) ∧ t.task q.val k = (s.task q.val k).onWith (s.task q.val k).acc ∧ t.sig = s.sig ∧
      (∀ p : BitVec 24, opArea p ≠ opArea o ∨ opAddr p ≠ opAddr o → t.readBit q.val k p = s.readBit q.val k p) ∧
      ∀ r, r % 4096 ≠ 0x010 → t.rd r = s.rd r) ∧
  (∀ (q : Fin 4) (k : Nat) (o : BitVec 24) (s : State), s.posted = [] → s.atOp q.val k 5 o = true → s.storeCause q.val k o = 0 →
    ∃ t, exec (.stn q o) s = .next t ∧ t.readBit q.val k o = Except.ok (!(s.task q.val k).acc) ∧ t.task q.val k = (s.task q.val k).onWith (s.task q.val k).acc ∧ t.sig = s.sig ∧
      (∀ p : BitVec 24, opArea p ≠ opArea o ∨ opAddr p ≠ opAddr o → t.readBit q.val k p = s.readBit q.val k p) ∧
      ∀ r, r % 4096 ≠ 0x010 → t.rd r = s.rd r) ∧
  (∀ (q : Fin 4) (k : Nat) (o : BitVec 24) (s : State), s.posted = [] → s.atOp q.val k 6 o = true → s.storeCause q.val k o = 0 →
    ∃ t, exec (.setOp q o) s = .next t ∧ t.readBit q.val k o = (if (s.task q.val k).acc then Except.ok true else s.readBit q.val k o) ∧ t.task q.val k = (s.task q.val k).onWith (s.task q.val k).acc ∧ t.sig = s.sig ∧
      (∀ p : BitVec 24, opArea p ≠ opArea o ∨ opAddr p ≠ opAddr o → t.readBit q.val k p = s.readBit q.val k p) ∧
      ∀ r, r % 4096 ≠ 0x010 → t.rd r = s.rd r) ∧
  (∀ (q : Fin 4) (k : Nat) (o : BitVec 24) (s : State), s.posted = [] → s.atOp q.val k 7 o = true → s.storeCause q.val k o = 0 →
    ∃ t, exec (.resetOp q o) s = .next t ∧ t.readBit q.val k o = (if (s.task q.val k).acc then Except.ok false else s.readBit q.val k o) ∧ t.task q.val k = (s.task q.val k).onWith (s.task q.val k).acc ∧ t.sig = s.sig ∧
      (∀ p : BitVec 24, opArea p ≠ opArea o ∨ opAddr p ≠ opAddr o → t.readBit q.val k p = s.readBit q.val k p) ∧
      ∀ r, r % 4096 ≠ 0x010 → t.rd r = s.rd r)

/-- R98 and R94: the branch stack. -/
def Obligations.IlBranches : Prop :=
  (∀ (q : Fin 4) (k : Nat) (o : BitVec 24) (x : Bool) (s : State), s.posted = [] → s.atOp q.val k 16 o = true →
    s.readBit q.val k o = .ok x → (s.task q.val k).stack.length < 16 →
    ∃ t, exec (.andParen q o) s = .next t ∧ t.task q.val k = { (s.task q.val k).onWith (x) with
      stack := ((s.task q.val k).acc, .kand) :: (s.task q.val k).stack } ∧ ∀ r, r % 4096 ≠ 0x010 → t.rd r = s.rd r) ∧
  (∀ (q : Fin 4) (k : Nat) (o : BitVec 24) (x : Bool) (s : State), s.posted = [] → s.atOp q.val k 17 o = true →
    s.readBit q.val k o = .ok x → (s.task q.val k).stack.length < 16 →
    ∃ t, exec (.andnParen q o) s = .next t ∧ t.task q.val k = { (s.task q.val k).onWith (!x) with
      stack := ((s.task q.val k).acc, .kand) :: (s.task q.val k).stack } ∧ ∀ r, r % 4096 ≠ 0x010 → t.rd r = s.rd r) ∧
  (∀ (q : Fin 4) (k : Nat) (o : BitVec 24) (x : Bool) (s : State), s.posted = [] → s.atOp q.val k 18 o = true →
    s.readBit q.val k o = .ok x → (s.task q.val k).stack.length < 16 →
    ∃ t, exec (.orParen q o) s = .next t ∧ t.task q.val k = { (s.task q.val k).onWith (x) with
      stack := ((s.task q.val k).acc, .kor) :: (s.task q.val k).stack } ∧ ∀ r, r % 4096 ≠ 0x010 → t.rd r = s.rd r) ∧
  (∀ (q : Fin 4) (k : Nat) (o : BitVec 24) (x : Bool) (s : State), s.posted = [] → s.atOp q.val k 19 o = true →
    s.readBit q.val k o = .ok x → (s.task q.val k).stack.length < 16 →
    ∃ t, exec (.ornParen q o) s = .next t ∧ t.task q.val k = { (s.task q.val k).onWith (!x) with
      stack := ((s.task q.val k).acc, .kor) :: (s.task q.val k).stack } ∧ ∀ r, r % 4096 ≠ 0x010 → t.rd r = s.rd r) ∧
  (∀ (q : Fin 4) (k : Nat) (o : BitVec 24) (x : Bool) (s : State), s.posted = [] → s.atOp q.val k 20 o = true →
    s.readBit q.val k o = .ok x → (s.task q.val k).stack.length < 16 →
    ∃ t, exec (.xorParen q o) s = .next t ∧ t.task q.val k = { (s.task q.val k).onWith (x) with
      stack := ((s.task q.val k).acc, .kxor) :: (s.task q.val k).stack } ∧ ∀ r, r % 4096 ≠ 0x010 → t.rd r = s.rd r) ∧
  (∀ (q : Fin 4) (k : Nat) (o : BitVec 24) (x : Bool) (s : State), s.posted = [] → s.atOp q.val k 21 o = true →
    s.readBit q.val k o = .ok x → (s.task q.val k).stack.length < 16 →
    ∃ t, exec (.xornParen q o) s = .next t ∧ t.task q.val k = { (s.task q.val k).onWith (!x) with
      stack := ((s.task q.val k).acc, .kxor) :: (s.task q.val k).stack } ∧ ∀ r, r % 4096 ≠ 0x010 → t.rd r = s.rd r) ∧
  (∀ (q : Fin 4) (k : Nat) (a : Bool) (d : SKind) (l : List (Bool × SKind)) (s : State), s.posted = [] →
    s.atOp q.val k 22 0 = true → (s.task q.val k).stack = (a, d) :: l → d ≠ .dash →
    ∃ t, exec (.closeParen q 0) s = .next t ∧ t.task q.val k = { (s.task q.val k).onWith (match d with
      | .kand => a && (s.task q.val k).acc | .kor => a || (s.task q.val k).acc | _ => xor a (s.task q.val k).acc) with stack := l } ∧
      ∀ r, r % 4096 ≠ 0x010 → t.rd r = s.rd r) ∧
  (∀ (q : Fin 4) (k : Nat) (s : State), s.posted = [] → s.atOp q.val k 23 0 = true → (s.task q.val k).stack.length < 16 →
    ∃ t, exec (.mps q 0) s = .next t ∧ t.task q.val k = { (s.task q.val k).onWith (s.task q.val k).acc with
      stack := ((s.task q.val k).acc, .dash) :: (s.task q.val k).stack } ∧ ∀ r, r % 4096 ≠ 0x010 → t.rd r = s.rd r) ∧
  (∀ (q : Fin 4) (k : Nat) (a : Bool) (l : List (Bool × SKind)) (s : State), s.posted = [] → s.atOp q.val k 24 0 = true →
    (s.task q.val k).stack = (a, .dash) :: l →
    ∃ t, exec (.mrd q 0) s = .next t ∧ t.task q.val k = (s.task q.val k).onWith a ∧ ∀ r, r % 4096 ≠ 0x010 → t.rd r = s.rd r) ∧
  (∀ (q : Fin 4) (k : Nat) (a : Bool) (l : List (Bool × SKind)) (s : State), s.posted = [] → s.atOp q.val k 25 0 = true →
    (s.task q.val k).stack = (a, .dash) :: l →
    ∃ t, exec (.mpp q 0) s = .next t ∧ t.task q.val k = { (s.task q.val k).onWith a with stack := l } ∧
      ∀ r, r % 4096 ≠ 0x010 → t.rd r = s.rd r) ∧
  (∀ (q : Fin 4) (k : Nat) (s : State), s.posted = [] → s.atOp q.val k 23 0 = true → 16 ≤ (s.task q.val k).stack.length →
    ∃ t, exec (.mps q 0) s = .next t ∧ t.taskSt q.val k = tkFAULT ∧ t.get (LSQ.TASK_STAT_FAULT_CAUSE q.val k) = 3) ∧
  (∀ (q : Fin 4) (k : Nat) (s : State), s.posted = [] → s.atOp q.val k 22 0 = true → (∀ e ∈ (s.task q.val k).stack[0]?, e.2 = SKind.dash) →
    ∃ t, exec (.closeParen q 0) s = .next t ∧ t.taskSt q.val k = tkFAULT ∧ t.get (LSQ.TASK_STAT_FAULT_CAUSE q.val k) = 4) ∧
  (∀ (q : Fin 4) (k : Nat) (o : BitVec 24) (x : Bool) (s : State), s.posted = [] → s.atOp q.val k 16 o = true →
    s.readBit q.val k o = .ok x → 16 ≤ (s.task q.val k).stack.length →
    ∃ t, exec (.andParen q o) s = .next t ∧ t.taskSt q.val k = tkFAULT ∧ t.get (LSQ.TASK_STAT_FAULT_CAUSE q.val k) = 3) ∧
  (∀ (q : Fin 4) (k : Nat) (o : BitVec 24) (x : Bool) (s : State), s.posted = [] → s.atOp q.val k 17 o = true →
    s.readBit q.val k o = .ok x → 16 ≤ (s.task q.val k).stack.length →
    ∃ t, exec (.andnParen q o) s = .next t ∧ t.taskSt q.val k = tkFAULT ∧ t.get (LSQ.TASK_STAT_FAULT_CAUSE q.val k) = 3) ∧
  (∀ (q : Fin 4) (k : Nat) (o : BitVec 24) (x : Bool) (s : State), s.posted = [] → s.atOp q.val k 18 o = true →
    s.readBit q.val k o = .ok x → 16 ≤ (s.task q.val k).stack.length →
    ∃ t, exec (.orParen q o) s = .next t ∧ t.taskSt q.val k = tkFAULT ∧ t.get (LSQ.TASK_STAT_FAULT_CAUSE q.val k) = 3) ∧
  (∀ (q : Fin 4) (k : Nat) (o : BitVec 24) (x : Bool) (s : State), s.posted = [] → s.atOp q.val k 19 o = true →
    s.readBit q.val k o = .ok x → 16 ≤ (s.task q.val k).stack.length →
    ∃ t, exec (.ornParen q o) s = .next t ∧ t.taskSt q.val k = tkFAULT ∧ t.get (LSQ.TASK_STAT_FAULT_CAUSE q.val k) = 3) ∧
  (∀ (q : Fin 4) (k : Nat) (o : BitVec 24) (x : Bool) (s : State), s.posted = [] → s.atOp q.val k 20 o = true →
    s.readBit q.val k o = .ok x → 16 ≤ (s.task q.val k).stack.length →
    ∃ t, exec (.xorParen q o) s = .next t ∧ t.taskSt q.val k = tkFAULT ∧ t.get (LSQ.TASK_STAT_FAULT_CAUSE q.val k) = 3) ∧
  (∀ (q : Fin 4) (k : Nat) (o : BitVec 24) (x : Bool) (s : State), s.posted = [] → s.atOp q.val k 21 o = true →
    s.readBit q.val k o = .ok x → 16 ≤ (s.task q.val k).stack.length →
    ∃ t, exec (.xornParen q o) s = .next t ∧ t.taskSt q.val k = tkFAULT ∧ t.get (LSQ.TASK_STAT_FAULT_CAUSE q.val k) = 3) ∧
  (∀ (q : Fin 4) (k : Nat) (s : State), s.posted = [] → s.atOp q.val k 24 0 = true → (∀ e ∈ (s.task q.val k).stack[0]?, e.2 ≠ SKind.dash) →
    ∃ t, exec (.mrd q 0) s = .next t ∧ t.taskSt q.val k = tkFAULT ∧ t.get (LSQ.TASK_STAT_FAULT_CAUSE q.val k) = 4) ∧
  (∀ (q : Fin 4) (k : Nat) (s : State), s.posted = [] → s.atOp q.val k 25 0 = true → (∀ e ∈ (s.task q.val k).stack[0]?, e.2 ≠ SKind.dash) →
    ∃ t, exec (.mpp q 0) s = .next t ∧ t.taskSt q.val k = tkFAULT ∧ t.get (LSQ.TASK_STAT_FAULT_CAUSE q.val k) = 4)

/-- R98 with R103: the edge detectors. -/
def Obligations.IlEdges : Prop :=
  (∀ (q : Fin 4) (k n : Nat) (e : Edg) (s : State), s.posted = [] → n < 8192 → s.atOp q.val k 32 (BitVec.ofNat 24 n) = true →
    (s.seqOf q.val).edges[n]? = some e →
    ∃ t, exec (.edgr q (BitVec.ofNat 24 n)) s = .next t ∧ t.task q.val k = (s.task q.val k).onWith (e.seen && (s.task q.val k).acc && !e.prev) ∧
      (t.seqOf q.val).edges[n]? = some (⟨(s.task q.val k).acc, true⟩ : Edg) ∧
      (∀ j, j ≠ n → (t.seqOf q.val).edges[j]? = (s.seqOf q.val).edges[j]?) ∧ ∀ r, r % 4096 ≠ 0x010 → t.rd r = s.rd r) ∧
  (∀ (q : Fin 4) (k n : Nat) (e : Edg) (s : State), s.posted = [] → n < 8192 → s.atOp q.val k 33 (BitVec.ofNat 24 n) = true →
    (s.seqOf q.val).edges[n]? = some e →
    ∃ t, exec (.edgf q (BitVec.ofNat 24 n)) s = .next t ∧ t.task q.val k = (s.task q.val k).onWith (e.seen && !(s.task q.val k).acc && e.prev) ∧
      (t.seqOf q.val).edges[n]? = some (⟨(s.task q.val k).acc, true⟩ : Edg) ∧
      (∀ j, j ≠ n → (t.seqOf q.val).edges[j]? = (s.seqOf q.val).edges[j]?) ∧ ∀ r, r % 4096 ≠ 0x010 → t.rd r = s.rd r)

/-- R99, R100 and R103: the three timers, and what one evaluation does. -/
def Obligations.IlTimers : Prop :=
  (∀ (q : Fin 4) (k n p : Nat) (m : Tmr) (d : TimerDesc) (i : SeqImage) (s : State), s.posted = [] → n < 8192 →
    s.atOp q.val k 36 (BitVec.ofNat 24 n) = true → (s.seqOf q.val).timers[n]? = some m → s.image q.val = some i →
    i.timers[n]? = some d → d.ty = 1 → 
    (match d.slot with | none => some d.pt | some u => ((s.task q.val k).inImg.find? (fun e => e.1 == u)).map (fun e => e.2.value.toNat)) = some p →
    ∃ t, exec (.ton q (BitVec.ofNat 24 n)) s = .next t ∧
      (t.seqOf q.val).timers[n]? = some (timerEval 1 (s.task q.val k).tc p (s.task q.val k).acc m) ∧
      t.task q.val k = (s.task q.val k).onWith (timerEval 1 (s.task q.val k).tc p (s.task q.val k).acc m).q ∧
      ∀ r, r % 4096 ≠ 0x010 → t.rd r = s.rd r) ∧
  (∀ (q : Fin 4) (k n p : Nat) (m : Tmr) (d : TimerDesc) (i : SeqImage) (s : State), s.posted = [] → n < 8192 →
    s.atOp q.val k 37 (BitVec.ofNat 24 n) = true → (s.seqOf q.val).timers[n]? = some m → s.image q.val = some i →
    i.timers[n]? = some d → d.ty = 2 → 
    (match d.slot with | none => some d.pt | some u => ((s.task q.val k).inImg.find? (fun e => e.1 == u)).map (fun e => e.2.value.toNat)) = some p →
    ∃ t, exec (.tof q (BitVec.ofNat 24 n)) s = .next t ∧
      (t.seqOf q.val).timers[n]? = some (timerEval 2 (s.task q.val k).tc p (s.task q.val k).acc m) ∧
      t.task q.val k = (s.task q.val k).onWith (timerEval 2 (s.task q.val k).tc p (s.task q.val k).acc m).q ∧
      ∀ r, r % 4096 ≠ 0x010 → t.rd r = s.rd r) ∧
  (∀ (q : Fin 4) (k n p : Nat) (m : Tmr) (d : TimerDesc) (i : SeqImage) (s : State), s.posted = [] → n < 8192 →
    s.atOp q.val k 38 (BitVec.ofNat 24 n) = true → (s.seqOf q.val).timers[n]? = some m → s.image q.val = some i →
    i.timers[n]? = some d → d.ty = 3 → 
    (match d.slot with | none => some d.pt | some u => ((s.task q.val k).inImg.find? (fun e => e.1 == u)).map (fun e => e.2.value.toNat)) = some p →
    ∃ t, exec (.tp q (BitVec.ofNat 24 n)) s = .next t ∧
      (t.seqOf q.val).timers[n]? = some (timerEval 3 (s.task q.val k).tc p (s.task q.val k).acc m) ∧
      t.task q.val k = (s.task q.val k).onWith (timerEval 3 (s.task q.val k).tc p (s.task q.val k).acc m).q ∧
      ∀ r, r % 4096 ≠ 0x010 → t.rd r = s.rd r) ∧
  (∀ (tc : BitVec 64) (p : Nat) (m : Tmr), (timerEval 1 tc p false m).q = false ∧ (timerEval 1 tc p false m).running = false) ∧
  (∀ (tc : BitVec 64) (p : Nat) (m : Tmr), m.running = false → 0 < p → p < 2 ^ 32 →
    timerEval 1 tc p true m = ⟨p, true, true, false, tc + BitVec.ofNat 64 (p * 1000000), true⟩) ∧
  (∀ (tc : BitVec 64) (m : Tmr), m.running = true → (timerEval 1 tc m.pt true m).q = reached tc m.d ∧ (timerEval 1 tc m.pt true m).d = m.d) ∧
  (∀ (tc : BitVec 64) (p : Nat) (m : Tmr), (timerEval 2 tc p true m).q = true ∧ (timerEval 2 tc p true m).running = false) ∧
  (∀ (tc : BitVec 64) (p : Nat) (m : Tmr), m.running = false → m.seen = true → m.inPrev = true →
    timerEval 2 tc p false m = ⟨p, true, false, true, tc + BitVec.ofNat 64 (p * 1000000), true⟩) ∧
  (∀ (tc : BitVec 64) (m : Tmr), m.running = true → m.seen = true → m.inPrev = false →
    (timerEval 2 tc m.pt false m).q = !reached tc m.d ∧ (timerEval 2 tc m.pt false m).running = !reached tc m.d) ∧
  (∀ (tc : BitVec 64) (p : Nat) (m : Tmr), m.running = false → m.seen = true → m.inPrev = false →
    timerEval 3 tc p true m = ⟨p, true, true, true, tc + BitVec.ofNat 64 (p * 1000000), true⟩) ∧
  (∀ (tc : BitVec 64) (x : Bool) (m : Tmr), m.running = true → m.seen = true → (x = false ∨ m.inPrev = true) →
    (timerEval 3 tc m.pt x m).q = !reached tc m.d ∧ (timerEval 3 tc m.pt x m).running = !reached tc m.d)

/-- R102 and R103: the counters. -/
def Obligations.IlCounters : Prop :=
  (∀ (q : Fin 4) (k n : Nat) (c : Ctr) (d : CounterDesc) (i : SeqImage) (p v : Int) (s : State), s.posted = [] → n < 8192 →
    s.atOp q.val k 40 (BitVec.ofNat 24 n) = true → (s.seqOf q.val).counters[n]? = some c → s.image q.val = some i →
    i.counters[n]? = some d → 
    (match d.slot with | none => some d.pv.toInt | some u => ((s.task q.val k).inImg.find? (fun e => e.1 == u)).map (fun e => e.2.value.toInt)) = some p → v = (if c.seenU && (s.task q.val k).acc && !c.cuPrev then min (c.cv + 1) (2 ^ 31 - 1) else c.cv) →
    ∃ t, exec (.ctu q (BitVec.ofNat 24 n)) s = .next t ∧
      (t.seqOf q.val).counters[n]? = some { c with cv := v, cuPrev := (s.task q.val k).acc, seenU := true, pv := p, qu := decide (p ≤ v), qd := decide (v ≤ 0) } ∧
      t.task q.val k = (s.task q.val k).onWith (decide (p ≤ v)) ∧ ∀ r, r % 4096 ≠ 0x010 → t.rd r = s.rd r) ∧
  (∀ (q : Fin 4) (k n : Nat) (c : Ctr) (d : CounterDesc) (i : SeqImage) (p v : Int) (s : State), s.posted = [] → n < 8192 →
    s.atOp q.val k 41 (BitVec.ofNat 24 n) = true → (s.seqOf q.val).counters[n]? = some c → s.image q.val = some i →
    i.counters[n]? = some d → 
    (match d.slot with | none => some d.pv.toInt | some u => ((s.task q.val k).inImg.find? (fun e => e.1 == u)).map (fun e => e.2.value.toInt)) = some p → v = (if c.seenD && (s.task q.val k).acc && !c.cdPrev then max (c.cv - 1) (-(2 ^ 31)) else c.cv) →
    ∃ t, exec (.ctd q (BitVec.ofNat 24 n)) s = .next t ∧
      (t.seqOf q.val).counters[n]? = some { c with cv := v, cdPrev := (s.task q.val k).acc, seenD := true, pv := p, qu := decide (p ≤ v), qd := decide (v ≤ 0) } ∧
      t.task q.val k = (s.task q.val k).onWith (decide (v ≤ 0)) ∧ ∀ r, r % 4096 ≠ 0x010 → t.rd r = s.rd r) ∧
  (∀ (q : Fin 4) (k n : Nat) (c : Ctr) (d : CounterDesc) (i : SeqImage) (p v : Int) (s : State), s.posted = [] → n < 8192 →
    s.atOp q.val k 42 (BitVec.ofNat 24 n) = true → (s.seqOf q.val).counters[n]? = some c → s.image q.val = some i →
    i.counters[n]? = some d → 
    (match d.slot with | none => some d.pv.toInt | some u => ((s.task q.val k).inImg.find? (fun e => e.1 == u)).map (fun e => e.2.value.toInt)) = some p → v = (if (s.task q.val k).acc then 0 else c.cv) →
    ∃ t, exec (.cres q (BitVec.ofNat 24 n)) s = .next t ∧
      (t.seqOf q.val).counters[n]? = some { c with cv := v, pv := p, qu := decide (p ≤ v), qd := decide (v ≤ 0) } ∧
      t.task q.val k = (s.task q.val k).onWith ((s.task q.val k).acc) ∧ ∀ r, r % 4096 ≠ 0x010 → t.rd r = s.rd r) ∧
  (∀ (q : Fin 4) (k n : Nat) (c : Ctr) (d : CounterDesc) (i : SeqImage) (p v : Int) (s : State), s.posted = [] → n < 8192 →
    s.atOp q.val k 43 (BitVec.ofNat 24 n) = true → (s.seqOf q.val).counters[n]? = some c → s.image q.val = some i →
    i.counters[n]? = some d → 
    (match d.slot with | none => some d.pv.toInt | some u => ((s.task q.val k).inImg.find? (fun e => e.1 == u)).map (fun e => e.2.value.toInt)) = some p → v = (if (s.task q.val k).acc then p else c.cv) →
    ∃ t, exec (.cload q (BitVec.ofNat 24 n)) s = .next t ∧
      (t.seqOf q.val).counters[n]? = some { c with cv := v, pv := p, qu := decide (p ≤ v), qd := decide (v ≤ 0) } ∧
      t.task q.val k = (s.task q.val k).onWith ((s.task q.val k).acc) ∧ ∀ r, r % 4096 ≠ 0x010 → t.rd r = s.rd r)

/-- R98 and R94: the jumps. -/
def Obligations.IlJumps : Prop :=
  (∀ (q : Fin 4) (k n : Nat) (s : State), s.posted = [] → n < 2 ^ 18 → s.atOp q.val k 48 (BitVec.ofNat 24 n) = true →
    (s.task q.val k).pc < n → n < s.codeEnd q.val k →
    ∃ t, exec (.jmp q (BitVec.ofNat 24 n)) s = .next t ∧
      t.task q.val k = { s.task q.val k with pc := n } ∧ ∀ r, r % 4096 ≠ 0x010 → t.rd r = s.rd r) ∧
  (∀ (q : Fin 4) (k n : Nat) (s : State), s.posted = [] → n < 2 ^ 18 → s.atOp q.val k 48 (BitVec.ofNat 24 n) = true →
    (n ≤ (s.task q.val k).pc ∨ s.codeEnd q.val k ≤ n) →
    ∃ t, exec (.jmp q (BitVec.ofNat 24 n)) s = .next t ∧ t.taskSt q.val k = tkFAULT ∧ t.get (LSQ.TASK_STAT_FAULT_CAUSE q.val k) = 5) ∧
  (∀ (q : Fin 4) (k n : Nat) (s : State), s.posted = [] → n < 2 ^ 18 → s.atOp q.val k 49 (BitVec.ofNat 24 n) = true →
    (s.task q.val k).pc < n → n < s.codeEnd q.val k →
    ∃ t, exec (.jmpc q (BitVec.ofNat 24 n)) s = .next t ∧
      t.task q.val k = { s.task q.val k with pc := if (s.task q.val k).acc = true then n else (s.task q.val k).pc + 1 } ∧ ∀ r, r % 4096 ≠ 0x010 → t.rd r = s.rd r) ∧
  (∀ (q : Fin 4) (k n : Nat) (s : State), s.posted = [] → n < 2 ^ 18 → s.atOp q.val k 49 (BitVec.ofNat 24 n) = true →
    (n ≤ (s.task q.val k).pc ∨ s.codeEnd q.val k ≤ n) →
    ∃ t, exec (.jmpc q (BitVec.ofNat 24 n)) s = .next t ∧ t.taskSt q.val k = tkFAULT ∧ t.get (LSQ.TASK_STAT_FAULT_CAUSE q.val k) = 5) ∧
  (∀ (q : Fin 4) (k n : Nat) (s : State), s.posted = [] → n < 2 ^ 18 → s.atOp q.val k 50 (BitVec.ofNat 24 n) = true →
    (s.task q.val k).pc < n → n < s.codeEnd q.val k →
    ∃ t, exec (.jmpcn q (BitVec.ofNat 24 n)) s = .next t ∧
      t.task q.val k = { s.task q.val k with pc := if (s.task q.val k).acc = false then n else (s.task q.val k).pc + 1 } ∧ ∀ r, r % 4096 ≠ 0x010 → t.rd r = s.rd r) ∧
  (∀ (q : Fin 4) (k n : Nat) (s : State), s.posted = [] → n < 2 ^ 18 → s.atOp q.val k 50 (BitVec.ofNat 24 n) = true →
    (n ≤ (s.task q.val k).pc ∨ s.codeEnd q.val k ≤ n) →
    ∃ t, exec (.jmpcn q (BitVec.ofNat 24 n)) s = .next t ∧ t.taskSt q.val k = tkFAULT ∧ t.get (LSQ.TASK_STAT_FAULT_CAUSE q.val k) = 5)

/-- R104 and R105: function block calls; R94: undefined instructions. -/
def Obligations.IlCalls : Prop :=
  (∀ (q : Fin 4) (k n b : Nat) (i : SeqImage) (s : State), s.posted = [] → n < 65536 → s.atOp q.val k 52 (BitVec.ofNat 24 n) = true →
    s.image q.val = some i → i.fbs[n]? = some b →
    ∃ t, exec (.cal q (BitVec.ofNat 24 n)) s = .next t ∧ t.taskSt q.val k = tkCAL ∧
      (∃ u v, t.task q.val k = { s.task q.val k with
        pc := (s.task q.val k).pc + 1, calSince := s.mono, calBudget := b, cal := some ⟨n, k, u, v, s.calCores q.val⟩ }) ∧
      (t.seqOf q.val).out = (s.seqOf q.val).out ∧ (t.seqOf q.val).m = (s.seqOf q.val).m ∧ t.sig = s.sig) ∧
  (∀ (q : Fin 4) (k n b : Nat) (i : SeqImage) (s : State), s.posted = [] → n < 65536 → s.atOp q.val k 53 (BitVec.ofNat 24 n) = true →
    s.image q.val = some i → i.fbs[n]? = some b → (s.task q.val k).acc = true →
    ∃ t, exec (.calc q (BitVec.ofNat 24 n)) s = .next t ∧ t.taskSt q.val k = tkCAL ∧
      (∃ u v, t.task q.val k = { s.task q.val k with
        pc := (s.task q.val k).pc + 1, calSince := s.mono, calBudget := b, cal := some ⟨n, k, u, v, s.calCores q.val⟩ }) ∧
      (t.seqOf q.val).out = (s.seqOf q.val).out ∧ (t.seqOf q.val).m = (s.seqOf q.val).m ∧ t.sig = s.sig) ∧
  (∀ (q : Fin 4) (k n : Nat) (s : State), s.posted = [] → n < 65536 → s.atOp q.val k 53 (BitVec.ofNat 24 n) = true → (s.task q.val k).acc = false →
    ∃ t, exec (.calc q (BitVec.ofNat 24 n)) s = .next t ∧ t.task q.val k = (s.task q.val k).onWith (s.task q.val k).acc ∧
      ∀ r, r % 4096 ≠ 0x010 → t.rd r = s.rd r) ∧
  (∀ (q : Fin 4) (k n b : Nat) (i : SeqImage) (s : State), s.posted = [] → n < 65536 → s.atOp q.val k 54 (BitVec.ofNat 24 n) = true →
    s.image q.val = some i → i.fbs[n]? = some b → (s.task q.val k).acc = false →
    ∃ t, exec (.calcn q (BitVec.ofNat 24 n)) s = .next t ∧ t.taskSt q.val k = tkCAL ∧
      (∃ u v, t.task q.val k = { s.task q.val k with
        pc := (s.task q.val k).pc + 1, calSince := s.mono, calBudget := b, cal := some ⟨n, k, u, v, s.calCores q.val⟩ }) ∧
      (t.seqOf q.val).out = (s.seqOf q.val).out ∧ (t.seqOf q.val).m = (s.seqOf q.val).m ∧ t.sig = s.sig) ∧
  (∀ (q : Fin 4) (k n : Nat) (s : State), s.posted = [] → n < 65536 → s.atOp q.val k 54 (BitVec.ofNat 24 n) = true → (s.task q.val k).acc = true →
    ∃ t, exec (.calcn q (BitVec.ofNat 24 n)) s = .next t ∧ t.task q.val k = (s.task q.val k).onWith (s.task q.val k).acc ∧
      ∀ r, r % 4096 ≠ 0x010 → t.rd r = s.rd r) ∧
  (∀ (q : Fin 4) (k : Fin 10) (eno : Bool) (l : List CalResult) (v : Seq) (s : State), s.posted = [] → s.inCal q.val k.val = true →
    s.mono ≤ (s.task q.val k.val).calSince + us (s.task q.val k.val).calBudget → s.domRuns q.val = true → l.length ≤ 64 → (s.task q.val k.val).pc < s.codeEnd q.val k.val →
    (s.seqOf q.val).applyResults (s.imgTask q.val k.val).outputs l = some v →
    ∃ t, exec (.calReturn q k eno l) s = .next t ∧ t.task q.val k.val = { s.task q.val k.val with acc := eno, cal := none } ∧
      (t.seqOf q.val).out = v.out ∧ (t.seqOf q.val).m = v.m ∧ (t.taskSt q.val k.val = tkREADY ∨ t.taskSt q.val k.val = tkRUN)) ∧
  (∀ (q : Fin 4) (k : Fin 10) (s : State), s.posted = [] → s.inCal q.val k.val = true →
    (s.task q.val k.val).pc < s.codeEnd q.val k.val →
    ∃ t, exec (.calTimeout q k) s = .next t ∧ t.task q.val k.val = { s.task q.val k.val with acc := false, calFail := true, cal := none } ∧
      (t.taskSt q.val k.val = tkREADY ∨ t.taskSt q.val k.val = tkRUN) ∧
      (s.task q.val k.val).calSince + us (s.task q.val k.val).calBudget ≤ t.mono ∧
      t.get (LSQ.TASK_ERR_CAL_FAIL_CNT q.val k.val) = min (s.get (LSQ.TASK_ERR_CAL_FAIL_CNT q.val k.val) + 1) (2 ^ 8 - 1)) ∧
  (∀ (q : Fin 4) (k : Nat) (w : Word) (s : State), s.posted = [] → s.seqLive q.val = true → s.ilTask q.val = some k →
    s.ilCode q.val = some w → ilUndefined w = true →
    ∃ t, exec (.undefinedInstruction q w) s = .next t ∧ t.taskSt q.val k = tkFAULT ∧ t.get (LSQ.TASK_STAT_FAULT_CAUSE q.val k) = 1 ∧
      (t.task q.val k).isOpen = false)

/-- R87, R88, R92 to R95 and R106: a task's cycle from its boundary to its post. -/
def Obligations.TaskCycles : Prop :=
  (∀ (q : Fin 4) (k : Nat) (s : State), s.seqLive q.val = true → s.ilTask q.val = some k →
    s.ilCode q.val = some (ilWord 0x3F 0) →
    ∃ t, exec (.endOp q 0) s = .next t ∧ (t.task q.val k).isOpen = false ∧ (t.task q.val k).stack = [] ∧
      (∀ n ∈ s.postedSlots q.val k, s.isProducer n 6 (taskId q.val k) = true →
        t.slotRaw n = SigSlot.mk ((s.seqOf q.val).outWord n) (mkTag true false false false 6 (taskId q.val k) 0)) ∧
      ∀ n, n ∉ s.postedSlots q.val k → t.slotRaw n = s.slotRaw n) ∧
  (∀ (q : Fin 4) (k : Fin 8) (s : State), s.posted = [] → s.enabled (0x14 + q.val) = true → s.schedRun q.val = true →
    (s.seqOf q.val).cyclicOn = true → (s.imgTask q.val k.val).present = true → s.onGrid q.val k.val s.tku.grid = true →
    (s.task q.val k.val).lastBoundary ≠ some s.tku.ticks → (s.task q.val k.val).isOpen = false → s.taskSt q.val k.val = tkWAIT →
    ∃ t, exec (.cycleBoundary q k) s = .next t ∧ t.task q.val k.val = { s.task q.val k.val with
      lastBoundary := some s.tku.ticks, due := true, tc := s.tku.base,
      consec := if (s.task q.val k.val).overran = true then (s.task q.val k.val).consec else 0 } ∧
      t.get (LSQ.TASK_STAT_OVERRAN_LAST q.val k.val) = 0) ∧
  (∀ (q : Fin 4) (k : Fin 8) (s : State), s.posted = [] → s.enabled (0x14 + q.val) = true → s.schedRun q.val = true →
    (s.seqOf q.val).cyclicOn = true → (s.imgTask q.val k.val).present = true → s.onGrid q.val k.val s.tku.grid = true →
    (s.task q.val k.val).lastBoundary ≠ some s.tku.ticks → (s.task q.val k.val).isOpen = true →
    ∃ t, exec (.cycleBoundary q k) s = .next t ∧ (t.task q.val k.val).overran = true ∧
      (t.task q.val k.val).consec = (s.task q.val k.val).consec + 1 ∧
      t.get (LSQ.TASK_ERR_OVERRUN_CNT q.val k.val) = min (s.get (LSQ.TASK_ERR_OVERRUN_CNT q.val k.val) + 1) 0xFF ∧
      t.get (LSQ.TASK_STAT_OVERRAN_LAST q.val k.val) = 1 ∧
      ((s.task q.val k.val).consec = 0 → t.taskSt q.val k.val = s.taskSt q.val k.val ∧ (t.task q.val k.val).isOpen = true) ∧
      (1 ≤ (s.task q.val k.val).consec → t.taskSt q.val k.val = tkFAULT ∧ t.get (LSQ.TASK_STAT_FAULT_CAUSE q.val k.val) = 6 ∧
        (t.task q.val k.val).isOpen = false)) ∧
  (∀ (m : Master) (q : Fin 4) (v : BitVec 32) (k : Fin 8) (s : State), isUser m = false → s.posted = [] → s.guardOf (0x14 + q.val) = none →
    s.schedRun q.val = true → (∀ j : Nat, j < 8 → v.toNat.testBit j = true → (s.imgTask q.val j).safety = false) →
    v.toNat.testBit k.val = true → (s.imgTask q.val k.val).present = true →
    (s.taskSt q.val k.val = tkFAULT ∨ (s.task q.val k.val).stopped = true) →
    ∃ t, exec (.taskResume m q v) s = .next t ∧ t.taskSt q.val k.val = tkWAIT ∧ t.get (LSQ.TASK_STAT_FAULT_CAUSE q.val k.val) = 0 ∧
      (t.task q.val k.val).stopped = false ∧ ∀ j, j < 10 → v.toNat.testBit j = false → t.taskSt q.val j = s.taskSt q.val j) ∧
  (∀ (m : Master) (q : Fin 4) (v : BitVec 32) (k : Fin 8) (s : State), isUser m = false → s.posted = [] → s.guardOf (0x14 + q.val) = none →
    v.toNat.testBit k.val = true → (s.imgTask q.val k.val).present = true → (s.imgTask q.val k.val).safety = true →
    ∃ t, exec (.taskResume m q v) s = .next t ∧ t.seqs = s.seqs ∧ t.get (HDR.PG_ERR_ADDR_CAUSE (0x14 + q.val)) = 4 ∧
      t.get (HDR.PG_ERR_CNT_LOST (0x14 + q.val)) = min (s.get (HDR.PG_ERR_CNT_LOST (0x14 + q.val)) + 1) 0xFF ∧
      ∀ j, j < 10 → t.taskSt q.val j = s.taskSt q.val j) ∧
  (∀ (q : Fin 4) (h : Nat) (s : State), s.posted = [] → (s.seqOf q.val).startSince = some h →
    ∃ t, exec (.startupTaskTimeout q) s = .next t ∧ t.taskSt q.val 8 = tkFAULT ∧ t.get (LSQ.TASK_STAT_FAULT_CAUSE q.val 8) = 8 ∧
      (t.seqOf q.val).startFailed = true ∧ (t.seqOf q.val).cyclicOn = false ∧ h + secs 1 ≤ t.mono)

/-- R117 to R119: loading and activating a program. -/
def Obligations.ProgramLoading : Prop :=
  (∀ (m : Master) (q : Fin 4) (s : State), isUser m = false → s.posted = [] → s.guardOf (0x14 + q.val) = none → s.get (LSQ.PROG_LEN q.val) ≠ 0 →
    s.get (LSQ.PROG_LEN q.val) ≤ 0x400000 → s.get (LSQ.PROG_SRC q.val) % 4096 = 0 → 0x80000000 ≤ s.get (LSQ.PROG_SRC q.val) →
    s.get (LSQ.PROG_SRC q.val) + s.get (LSQ.PROG_LEN q.val) ≤ 0x100000000 → s.get (LSQ.PROG_STAT_INACTIVE q.val) ≠ 3 →
    s.on (LSQ.SEQ_STAT_ACT_PENDING q.val) = false → s.pfw = false →
    ∃ t, exec (.progLoad m q) s = .next t ∧ t.get (LSQ.PROG_STAT_INACTIVE q.val) = 3 ∧ t.seqs = s.seqs) ∧
  (∀ (q : Fin 4) (b : ImageBody) (e : Nat) (s : State), s.posted = [] → s.get (LSQ.PROG_STAT_INACTIVE q.val) = 3 →
    e = s.imageErr q.val (s.bytes (s.get (LSQ.PROG_SRC q.val)) (s.get (LSQ.PROG_LEN q.val))) b →
    ∃ t, exec (.progLoadDone q b) s = .next t ∧ t.get (LSQ.PROG_STAT_LOAD_ERR q.val) = e ∧
      t.get (LSQ.PROG_STAT_INACTIVE q.val) = (if e = 0 then 1 else 2) ∧
      t.spare q.val = (if e = 0 then some (buildImage (s.bytes (s.get (LSQ.PROG_SRC q.val)) (s.get (LSQ.PROG_LEN q.val))) b)
        else none) ∧ t.image q.val = s.image q.val) ∧
  (∀ (m : Master) (q : Fin 4) (i : SeqImage) (s : State), isUser m = false → s.posted = [] → s.guardOf (0x14 + q.val) = none →
    s.spare q.val = some i → s.get (LSQ.PROG_STAT_INACTIVE q.val) = 1 → s.on (LSQ.SEQ_STAT_ACT_PENDING q.val) = false →
    (∀ o ∈ s.image q.val, sameSafety o i = true) → (s.role ≠ roleACTIVE ∨ s.readyStandby = false) → s.slotConflict q.val i = false →
    s.schedRun q.val = true →
    ∃ t, exec (.activate m q) s = .next t ∧ t.get (LSQ.SEQ_STAT_ACT_PENDING q.val) = 1 ∧
      (t.seqOf q.val).actSince = some s.mono ∧ t.image q.val = s.image q.val) ∧
  (∀ (m : Master) (q : Fin 4) (i : SeqImage) (s : State), isUser m = false → s.posted = [] → s.guardOf (0x14 + q.val) = none →
    s.spare q.val = some i → s.get (LSQ.PROG_STAT_INACTIVE q.val) = 1 → s.on (LSQ.SEQ_STAT_ACT_PENDING q.val) = false →
    (∀ o ∈ s.image q.val, sameSafety o i = true) → (s.role ≠ roleACTIVE ∨ s.readyStandby = false) → s.slotConflict q.val i = false →
    s.schedRun q.val = false →
    ∃ t, exec (.activate m q) s = .next t ∧ t.image q.val = some i ∧ t.spare q.val = s.image q.val ∧
      t.get (LSQ.PROG_STAT_ACT_RESULT q.val) = 1 ∧ t.get (LSQ.PROG_ID_ACTIVE q.val) = i.progId.toNat) ∧
  (∀ (m : Master) (q : Fin 4) (i o : SeqImage) (s : State), isUser m = false → s.posted = [] → s.guardOf (0x14 + q.val) = none →
    s.spare q.val = some i → s.get (LSQ.PROG_STAT_INACTIVE q.val) = 1 → s.on (LSQ.SEQ_STAT_ACT_PENDING q.val) = false →
    s.image q.val = some o → sameSafety o i = false →
    ∃ t, exec (.activate m q) s = .next t ∧ t.get (LSQ.PROG_STAT_ACT_RESULT q.val) = 3 ∧ t.seqs = s.seqs ∧
      t.get (HDR.PG_ERR_CNT_LOST (0x14 + q.val)) = min (s.get (HDR.PG_ERR_CNT_LOST (0x14 + q.val)) + 1) 0xFF) ∧
  (∀ (m : Master) (q : Fin 4) (i : SeqImage) (s : State), isUser m = false → s.posted = [] → s.guardOf (0x14 + q.val) = none →
    s.spare q.val = some i → s.get (LSQ.PROG_STAT_INACTIVE q.val) = 1 → s.on (LSQ.SEQ_STAT_ACT_PENDING q.val) = false →
    (∀ o ∈ s.image q.val, sameSafety o i = true) → (s.role ≠ roleACTIVE ∨ s.readyStandby = false) → s.slotConflict q.val i = true →
    ∃ t, exec (.activate m q) s = .next t ∧ t.get (LSQ.PROG_STAT_ACT_RESULT q.val) = 5 ∧ t.seqs = s.seqs ∧
      t.get (HDR.PG_ERR_CNT_LOST (0x14 + q.val)) = min (s.get (HDR.PG_ERR_CNT_LOST (0x14 + q.val)) + 1) 0xFF) ∧
  (∀ (q : Fin 4) (h : Nat) (i : SeqImage) (s : State), s.posted = [] → (s.seqOf q.val).actSince = some h →
    s.on (LSQ.SEQ_STAT_ACT_PENDING q.val) = true → s.tku.snapped = false → s.quiet q.val = true → s.mono ≤ h + secs 2 →
    s.spare q.val = some i →
    ∃ t, exec (.activationTick q) s = .next t ∧ (t.seqOf q.val).actSince = none ∧
      (s.slcSends = false → t.image q.val = some i ∧ t.get (LSQ.PROG_STAT_ACT_RESULT q.val) = 1 ∧
        t.get (LSQ.SEQ_STAT_ACT_PENDING q.val) = 0)) ∧
  (∀ (q : Fin 4) (h : Nat) (s : State), s.posted = [] → (s.seqOf q.val).actSince = some h →
    ∃ t, exec (.activationTimeout q) s = .next t ∧ (t.seqOf q.val).actSince = none ∧ t.get (LSQ.SEQ_STAT_ACT_PENDING q.val) = 0 ∧
      t.get (LSQ.PROG_STAT_ACT_RESULT q.val) = 2 ∧ h + secs 2 ≤ t.mono ∧ t.image q.val = s.image q.val)

/-- R108 to R111: the life of a RIX station entry. -/
def Obligations.RixStations : Prop :=
  (∀ (st : Fin 64) (s : State), s.rixLive st.val = true →
    ∃ t, exec (.rixExchangeInterval st) s = .next t ∧ (t.rixOf st.val).outSeq = ((s.rixOf st.val).outSeq + 1) % 2 ^ 32 ∧
      (t.rixOf st.val).lastOut = t.mono ∧ (s.rixOf st.val).lastOut + s.stnInterval st.val ≤ t.mono ∧
      ((s.rixOf st.val).outSeq ≠ 0 ∧ (s.rixOf st.val).lastIn < (s.rixOf st.val).lastOut → (t.rixOf st.val).run = 0 ∧
        t.get (LSQ.STN_STAT_MISSES (st.val / 16) (st.val % 16)) =
          min (s.get (LSQ.STN_STAT_MISSES (st.val / 16) (st.val % 16)) + 1) 0xFF)) ∧
  (∀ (st : Fin 64) (f : List (BitVec 8)) (r : BitVec 32) (s : State), s.rixLive st.val = true → s.rixValid st.val f = true →
    ((s.rixOf st.val).gotOne = false ∨ 0 < sx 32 ((beAt f 4 4 + 2 ^ 32 - s.get (LSQ.STN_SEQ (st.val / 16) (st.val % 16))) % 2 ^ 32)) →
    s.stnSt st.val = 1 →
    ∃ t, exec (.rixInputFrame st f r) s = .next t ∧ (t.rixOf st.val).lastIn = s.mono ∧ (t.rixOf st.val).gotOne = true ∧
      (t.rixOf st.val).run = (s.rixOf st.val).run + 1 ∧ t.get (LSQ.STN_SEQ (st.val / 16) (st.val % 16)) = beAt f 4 4 ∧
      t.get (LSQ.STN_STAT_MISSES (st.val / 16) (st.val % 16)) = 0 ∧
      ∀ j, ∀ n ∈ (s.stnIn st.val)[j]?, s.isProducer n 2 st.val = true →
        (t.slotRaw n).value = BitVec.ofNat 32 (beAt f (16 + 4 * j) 4)) ∧
  (∀ (st : Fin 64) (f : List (BitVec 8)) (r : BitVec 32) (s : State), s.posted = [] → s.rixLive st.val = true →
    s.rixValid st.val f = false →
    ∃ t, exec (.rixInputFrame st f r) s = .next t ∧ t.rixOf st.val = { s.rixOf st.val with run := 0 } ∧ t.sig = s.sig ∧
      ∀ k, k % 4096 ≠ 0x010 → t.rd k = s.rd k) ∧
  (∀ (st : Fin 64) (s : State), s.posted = [] → s.rixLive st.val = true → s.stnSt st.val = 1 →
    ∃ t, exec (.rixLateTimeout st) s = .next t ∧ t.stnSt st.val = 2 ∧ (t.rixOf st.val).run = 0 ∧
      t.get (LSQ.STN_CNT_LATE_CNT (st.val / 16) (st.val % 16)) = min (s.get (LSQ.STN_CNT_LATE_CNT (st.val / 16) (st.val % 16)) + 1) 0xFFFF ∧
      (s.rixOf st.val).lastIn + 2 * s.stnInterval st.val + ms 1 ≤ t.mono ∧
      ∀ n ∈ s.stnIn st.val, s.isProducer n 2 st.val = true →
        (t.slotRaw n).value = (s.slotRaw n).value ∧ (t.slotRaw n).tag = setBit (s.slotRaw n).tag 30 true) ∧
  (∀ (st : Fin 64) (s : State), s.posted = [] → s.rixLive st.val = true → (s.stnSt st.val = 1 ∨ s.stnSt st.val = 2) →
    ∃ t, exec (.rixLossTimeout st) s = .next t ∧ t.stnSt st.val = 3 ∧ (t.rixOf st.val).run = 0 ∧
      (t.rixOf st.val).substTick = some s.tku.ticks ∧
      t.get (LSQ.STN_CNT_LOST_CNT (st.val / 16) (st.val % 16)) = min (s.get (LSQ.STN_CNT_LOST_CNT (st.val / 16) (st.val % 16)) + 1) 0xFFFF ∧
      (s.rixOf st.val).lastIn + ms (s.get (LSQ.STN_TIMING_LOSS_MS (st.val / 16) (st.val % 16))) ≤ t.mono) ∧
  (∀ (st : Fin 64) (h : Nat) (s : State), s.posted = [] → s.enabled (0x14 + st.val / 16) = true →
    (s.rixOf st.val).substTick = some h → h < s.tku.ticks →
    ∃ t, exec (.rixSubstPost st) s = .next t ∧ (t.rixOf st.val).substTick = none ∧
      (s.get (LSQ.STN_TIMING_SUBST_MODE (st.val / 16) (st.val % 16)) = 1 → ∀ j, ∀ n ∈ (s.stnIn st.val)[j]?, s.isProducer n 2 st.val = true →
        (t.slotRaw n).value = BitVec.ofNat 32 (s.get (LSQ.SUBST_VAL (st.val / 16) (256 * (st.val % 16) + j)))) ∧
      ∀ n ∈ s.stnIn st.val, s.isProducer n 2 st.val = true → tVALID (t.slotRaw n).tag = false ∧
        ((t.slotRaw n).tag.getLsbD 29 = true ↔ s.get (LSQ.STN_TIMING_SUBST_MODE (st.val / 16) (st.val % 16)) ≠ 0) ∧
        (s.get (LSQ.STN_TIMING_SUBST_MODE (st.val / 16) (st.val % 16)) = 0 → (t.slotRaw n).value = (s.slotRaw n).value) ∧
        (2 ≤ s.get (LSQ.STN_TIMING_SUBST_MODE (st.val / 16) (st.val % 16)) → (t.slotRaw n).value = 0))

/-- R113 to R115, and R284 for the renewal of challenges. -/
def Obligations.Forcing : Prop :=
  (∀ (m : Master) (s : State), isUser m = false → s.posted = [] → s.guardOf 0x14 = none → s.forceRefused (s.get (LSQ.FORCE_SEL 0)) = false →
    ∃ t, exec (.forceSet m) s = .next t ∧ t.get (LSQ.FORCE_STAT_ACTIVE 0 (s.get (LSQ.FORCE_SEL 0))) = 1 ∧
      t.get (LSQ.FORCE_STAT_REFUSED 0 (s.get (LSQ.FORCE_SEL 0))) = 0 ∧
      t.forces.find? (fun e => e.1 == s.get (LSQ.FORCE_SEL 0)) = some (s.get (LSQ.FORCE_SEL 0),
        Force.mk (s.on (LSQ.FORCE_TGT_KIND 0 (s.get (LSQ.FORCE_SEL 0)))) (s.get (LSQ.FORCE_TGT_TARGET 0 (s.get (LSQ.FORCE_SEL 0))))) ∧
      ∀ e, e.1 ≠ s.get (LSQ.FORCE_SEL 0) → (e ∈ t.forces ↔ e ∈ s.forces)) ∧
  (∀ (m : Master) (s : State), isUser m = false → s.posted = [] → s.guardOf 0x14 = none → s.forceRefused (s.get (LSQ.FORCE_SEL 0)) = true →
    ∃ t, exec (.forceSet m) s = .next t ∧ t.forces = s.forces ∧ t.get (LSQ.FORCE_STAT_REFUSED 0 (s.get (LSQ.FORCE_SEL 0))) = 1 ∧
      t.get (HDR.PG_ERR_CNT_LOST 0x14) = min (s.get (HDR.PG_ERR_CNT_LOST 0x14) + 1) 0xFF) ∧
  (∀ (m : Master) (s : State), isUser m = false → s.posted = [] → s.guardOf 0x14 = none →
    ∃ t, exec (.forceRemove m) s = .next t ∧ t.get (LSQ.FORCE_STAT_ACTIVE 0 (s.get (LSQ.FORCE_SEL 0))) = 0 ∧
      t.forces = s.forces.filter (fun e => e.1 != s.get (LSQ.FORCE_SEL 0))) ∧
  (∀ (m : Master) (s : State), isUser m = false → s.posted = [] → s.guardOf 0x14 = none →
    ∃ t, exec (.forceRemoveAll m) s = .next t ∧ t.forces = []) ∧
  (∀ (m : Master) (s : State), isUser m = false → s.posted = [] → s.guardOf 0x14 = none →
    ∃ t, exec (.forceAuthSubmit m) s = .next t ∧
      t.forceAuth = (if s.credLocked 2 = false ∧ s.credProved 2 [] = true then some (s.mono + secs 900) else none) ∧
      mapGet (fun _ => 0) t.chalAt 2 = s.mono) ∧
  (∀ (h : Nat) (s : State), s.forceAuth = some h →
    ∃ t, exec .forceAuthTimeout s = .next t ∧ t.forceAuth = none ∧ h ≤ t.mono ∧ t.forces = s.forces) ∧
  (∀ (k : Fin 5) (s : State), s.mstate ≠ stPOWER_ON →
    ∃ t, exec (.challengeRenewal k) s = .next t ∧ mapGet (fun _ => 0) t.chalAt (k.val + 1) = t.mono ∧
      mapGet (fun _ => 0) s.chalAt (k.val + 1) + secs 60 ≤ t.mono ∧ t.forceAuth = s.forceAuth)

/-- R131, R134, R135, R138 and R152: the commands to the loop engine. -/
def Obligations.LoopCommands : Prop :=
  (∀ (m : Master) (c : Nat) (s : State), isUser m = false → s.posted = [] → s.guardOf 0x19 = none → c = s.get CTX.CTX_SEL → s.cmdOk c 1 = true →
    (s.loop c).aborting = false →
    ∃ t, exec (.ctxCmdClose m) s = .next t ∧ t.loop c = { s.loop c with cmd := 1 } ∧ t.get (CTX.CTX_MODE_CMD_PENDING c) = 1 ∧
      t.loopSt c = s.loopSt c ∧ t.sig = s.sig) ∧
  (∀ (m : Master) (c : Nat) (s : State), isUser m = false → s.posted = [] → s.guardOf 0x19 = none → c = s.get CTX.CTX_SEL → s.loopEn c = true →
    s.loopSt c ≠ lpOPEN → (s.loop c).aborting = false →
    ∃ t, exec (.ctxCmdOpen m) s = .next t ∧ t.loop c = { s.loop c with cmd := 2 } ∧ t.get (CTX.CTX_MODE_CMD_PENDING c) = 1 ∧
      t.loopSt c = s.loopSt c ∧ t.sig = s.sig) ∧
  (∀ (m : Master) (c : Nat) (s : State), isUser m = false → s.posted = [] → s.guardOf 0x19 = none → c = s.get CTX.CTX_SEL → s.loopEn c = true →
    (s.loopSt c = lpPRIMING ∨ s.loopSt c = lpCLOSED ∨ s.loopSt c = lpCOASTING) → (s.loop c).aborting = false →
    ∃ t, exec (.ctxCmdFallback m) s = .next t ∧ t.loop c = { s.loop c with cmd := 3 } ∧ t.get (CTX.CTX_MODE_CMD_PENDING c) = 1 ∧
      t.loopSt c = s.loopSt c ∧ t.sig = s.sig) ∧
  (∀ (m : Master) (c : Nat) (s : State), isUser m = false → s.posted = [] → s.guardOf 0x19 = none → c = s.get CTX.CTX_SEL → s.cmdOk c 1 = false →
    ∃ t, exec (.ctxCmdClose m) s = .next t ∧ t.loops = s.loops ∧ t.get (HDR.PG_ERR_ADDR_CAUSE 0x19) = 4 ∧
      t.get (HDR.PG_ERR_CNT_LOST 0x19) = min (s.get (HDR.PG_ERR_CNT_LOST 0x19) + 1) 0xFF) ∧
  (∀ (m : Master) (c : Nat) (s : State), isUser m = false → s.posted = [] → s.guardOf 0x19 = none → c = s.get CTX.CTX_SEL → s.cmdOk c 2 = false →
    ∃ t, exec (.ctxCmdOpen m) s = .next t ∧ t.loops = s.loops ∧ t.get (HDR.PG_ERR_ADDR_CAUSE 0x19) = 4 ∧
      t.get (HDR.PG_ERR_CNT_LOST 0x19) = min (s.get (HDR.PG_ERR_CNT_LOST 0x19) + 1) 0xFF) ∧
  (∀ (m : Master) (c : Nat) (s : State), isUser m = false → s.posted = [] → s.guardOf 0x19 = none → c = s.get CTX.CTX_SEL → s.cmdOk c 3 = false →
    ∃ t, exec (.ctxCmdFallback m) s = .next t ∧ t.loops = s.loops ∧ t.get (HDR.PG_ERR_ADDR_CAUSE 0x19) = 4 ∧
      t.get (HDR.PG_ERR_CNT_LOST 0x19) = min (s.get (HDR.PG_ERR_CNT_LOST 0x19) + 1) 0xFF) ∧
  (∀ (m : Master) (v : BitVec 32) (c : Nat) (s : State), isUser m = false → s.posted = [] → s.guardOf 0x19 = none → c = s.get CTX.CTX_SEL →
    s.loopEn c = false → v = s.rd (rkey 0x19 c 0x044) ||| 1 → s.admission c = 0 →
    ∃ t, exec (.ctxEnable m v) s = .next t ∧ t.loopEn c = true ∧ t.loopSt c = lpOPEN ∧ t.get (CTX.CTX_MODE_LAST_CAUSE c) = 0 ∧
      t.loop c = LoopCtx.blank ∧ ∀ n ∈ s.loopSlots c, t.isProducer n 4 c = true) ∧
  (∀ (m : Master) (v : BitVec 32) (c : Nat) (s : State), isUser m = false → s.posted = [] → s.guardOf 0x19 = none → c = s.get CTX.CTX_SEL →
    s.loopEn c = false → v = s.rd (rkey 0x19 c 0x044) ||| 1 → s.admission c ≠ 0 →
    ∃ t, exec (.ctxEnable m v) s = .next t ∧ t.loopEn c = false ∧ t.get LPE.ADM_STAT_LAST_REASON = s.admission c ∧
      t.get LPE.ADM_REFUSED_CNT = min (s.get LPE.ADM_REFUSED_CNT + 1) 0xFF ∧ t.get (HDR.PG_ERR_ADDR_CAUSE 0x19) = 4 ∧ t.sig = s.sig) ∧
  (∀ (m : Master) (v : BitVec 32) (c : Nat) (s : State), isUser m = false → s.posted = [] → s.guardOf 0x19 = none → c = s.get CTX.CTX_SEL →
    s.loopEn c = true → v = s.rd (rkey 0x19 c 0x044) &&& ~~~1 → s.loopSt c = lpOPEN →
    ∃ t, exec (.ctxDisable m v) s = .next t ∧ t.loopEn c = false ∧ t.loop c = LoopCtx.blank) ∧
  (∀ (m : Master) (v : BitVec 32) (c : Nat) (s : State), isUser m = false → s.posted = [] → s.guardOf 0x19 = none → c = s.get CTX.CTX_SEL →
    s.loopEn c = true → v = s.rd (rkey 0x19 c 0x044) &&& ~~~1 → s.loopSt c ≠ lpOPEN →
    ∃ t, exec (.ctxDisable m v) s = .next t ∧ t.loopEn c = true ∧ t.loops = s.loops ∧
      t.get (HDR.PG_ERR_CNT_LOST 0x19) = min (s.get (HDR.PG_ERR_CNT_LOST 0x19) + 1) 0xFF) ∧
  (∀ (m : Master) (v : BitVec 32) (s : State), isUser m = false → s.posted = [] → s.guardOf 0x18 = none →
    ∃ t, exec (.lpeQuery m v) s = .next t ∧ t.get LPE.QUERY_DONE = 0 ∧ t.lpeQuery = bits v 0 16) ∧
  (∀ s : State, s.posted = [] → s.enabled 0x18 = true → s.lpeQuery ≠ 0 →
    ∃ t, exec .lpeQueryDone s = .next t ∧ t.get LPE.QUERY_DONE = 1 ∧ t.lpeQuery = 0 ∧
      (t.on LPE.QUERY_RATE_OK = s.rateOk s.loopsEn s.lpeQuery) ∧ (t.on LPE.QUERY_DENS_OK = s.densOk s.loopsEn s.lpeQuery) ∧
      (t.on LPE.QUERY_FITS = (s.rateOk s.loopsEn s.lpeQuery && s.densOk s.loopsEn s.lpeQuery))) ∧
  (∀ (m : Master) (a v : BitVec 32) (c : Nat) (s : State), isUser m = false → apertureCtx a.toNat = some c → a.toNat % 4 = 0 →
    apertureRsv a.toNat = false → s.loopSt c = lpOPEN →
    ∃ t, exec (.lpeApertureWrite m a v) s = .next t ∧ t.mem32 a.toNat = v.toNat ∧ t.resp = .done ∧
      ∀ b, (b < a.toNat ∨ a.toNat + 4 ≤ b) → t.byte b = s.byte b) ∧
  (∀ (m : Master) (a v : BitVec 32) (c : Nat) (s : State), isUser m = false → s.posted = [] → apertureCtx a.toNat = some c → a.toNat % 4 = 0 →
    s.loopSt c ≠ lpOPEN →
    ∃ t, exec (.lpeApertureWrite m a v) s = .next t ∧ t.mem = s.mem ∧ t.get LPE.COEF_ERR_OFFSET = a.toNat - 0x50000000 ∧
      t.get LPE.COEF_LOCK_TOTAL = min (s.get LPE.COEF_LOCK_TOTAL + 1) 0xFFFF ∧
      t.get (CTX.CTX_CNT1_COEF_LOCK_CNT c) = min (s.get (CTX.CTX_CNT1_COEF_LOCK_CNT c) + 1) 0xFF)

/-- R160, R161, R166, R174, R175, R177 and R183: the commands to Cascade. -/
def Obligations.CascadeSlots : Prop :=
  (∀ (m : Master) (k : Nat) (s : State), isUser m = false → s.posted = [] → s.guardOf 0x1B = none → k = s.get SLOT.SLOT_SEL →
    (s.casSt k = csEMPTY ∨ s.casSt k = csFAILED) →
    ∃ t, exec (.casLoad m) s = .next t ∧ t.casSt k = csLOADING ∧ t.mem = s.mem ∧
      (t.casSlot k = CasSlot.blank ∨ t.casSlot k = { CasSlot.blank with size := up4k (s.get (SLOT.LOAD_LEN k)) })) ∧
  (∀ (k : Fin 16) (e : Nat) (s : State), s.posted = [] → s.enabled 0x1A = true → s.casSt k.val = csLOADING → s.casAborting k.val = false →
    e = s.casLoadErr k.val (s.get (SLOT.LOAD_SRC k.val)) (s.get (SLOT.LOAD_LEN k.val)) →
    ∃ t, exec (.casLoadDone k) s = .next t ∧ t.casSt k.val = (if e = 0 then csLOADED else csFAILED) ∧
      (e ≠ 0 → t.get (SLOT.SLOT_STAT_LOAD_ERR k.val) = e % 16) ∧
      (e = 0 → (t.casSlot k.val).req = true ∧ t.get (SLOT.SLOT_CFG_KIND k.val) = s.dKind (s.get (SLOT.LOAD_SRC k.val)) % 4)) ∧
  (∀ (m : Master) (k : Nat) (s : State), isUser m = false → s.posted = [] → s.guardOf 0x1B = none → k = s.get SLOT.SLOT_SEL →
    (s.casSt k = csLOADED ∨ s.casSt k = csFAILED) →
    ∃ t, exec (.casUnload m) s = .next t ∧ t.casSt k = csEMPTY ∧ t.casSlot k = CasSlot.blank) ∧
  (∀ (m : Master) (k : Nat) (s : State), isUser m = false → s.posted = [] → s.guardOf 0x1B = none → k = s.get SLOT.SLOT_SEL → s.casHeld k = true →
    ∃ t, exec (.casRefresh m) s = .next t ∧ t.casSt k = s.casSt k ∧
      t.casSlot k = (if s.on (SLOT.SLOT_STAT_FACT_BUSY k) = true then s.casSlot k else { s.casSlot k with req := true })) ∧
  (∀ (m : Master) (k : Nat) (s : State), isUser m = false → s.posted = [] → s.guardOf 0x1B = none → k = s.get SLOT.SLOT_SEL → s.casEn k = true →
    ∃ t, exec (.casCold m) s = .next t ∧ t.get (SLOT.SLOT_STAT_COLD_PENDING k) = 1 ∧ t.cas = s.cas) ∧
  (∀ (m : Master) (k : Nat) (s : State), isUser m = false → s.posted = [] → s.guardOf 0x1B = none → k = s.get SLOT.SLOT_SEL → s.casEn k = false →
    ∃ t, exec (.casCold m) s = .next t ∧ t.get (SLOT.SLOT_STAT_COLD_PENDING k) = s.get (SLOT.SLOT_STAT_COLD_PENDING k) ∧
      t.get (HDR.PG_ERR_CNT_LOST 0x1B) = min (s.get (HDR.PG_ERR_CNT_LOST 0x1B) + 1) 0xFF) ∧
  (∀ (m : Master) (k : Nat) (s : State), isUser m = false → s.posted = [] → s.guardOf 0x1B = none → k = s.get SLOT.SLOT_SEL →
    s.casSt k ≠ csEMPTY → s.casSt k ≠ csFAILED →
    ∃ t, exec (.casLoad m) s = .next t ∧ t.cas = s.cas ∧ t.casSt k = s.casSt k ∧
      t.get (HDR.PG_ERR_CNT_LOST 0x1B) = min (s.get (HDR.PG_ERR_CNT_LOST 0x1B) + 1) 0xFF) ∧
  (∀ (m : Master) (k : Nat) (s : State), isUser m = false → s.posted = [] → s.guardOf 0x1B = none → k = s.get SLOT.SLOT_SEL →
    s.casSt k ≠ csLOADED → s.casSt k ≠ csFAILED →
    ∃ t, exec (.casUnload m) s = .next t ∧ t.cas = s.cas ∧ t.casSt k = s.casSt k ∧
      t.get (HDR.PG_ERR_CNT_LOST 0x1B) = min (s.get (HDR.PG_ERR_CNT_LOST 0x1B) + 1) 0xFF) ∧
  (∀ (m : Master) (k : Nat) (s : State), isUser m = false → s.posted = [] → s.guardOf 0x1B = none → k = s.get SLOT.SLOT_SEL →
    s.casHeld k = false →
    ∃ t, exec (.casRefresh m) s = .next t ∧ t.cas = s.cas ∧ t.casSt k = s.casSt k ∧
      t.get (HDR.PG_ERR_CNT_LOST 0x1B) = min (s.get (HDR.PG_ERR_CNT_LOST 0x1B) + 1) 0xFF) ∧
  (∀ (m : Master) (v : BitVec 32) (k : Nat) (s : State), isUser m = false → s.posted = [] → s.guardOf 0x1B = none → k = s.get SLOT.SLOT_SEL →
    s.casEn k = false → v = s.rd (rkey 0x1B k 0x044) ||| 1 → s.casAdmission k = 0 →
    ∃ t, exec (.casSlotEnable m v) s = .next t ∧ t.casEn k = true ∧ t.casSt k = csWAITING ∧
      ∀ n ∈ s.casOuts k, t.isProducer n 5 k = true) ∧
  (∀ (m : Master) (v : BitVec 32) (k : Nat) (s : State), isUser m = false → s.posted = [] → s.guardOf 0x1B = none → k = s.get SLOT.SLOT_SEL →
    s.casEn k = false → v = s.rd (rkey 0x1B k 0x044) ||| 1 → s.casAdmission k ≠ 0 →
    ∃ t, exec (.casSlotEnable m v) s = .next t ∧ t.casEn k = false ∧ t.casSt k = s.casSt k ∧
      t.get CAS.ADM_STAT_LAST_REASON = s.casAdmission k ∧
      t.get CAS.ADM_REFUSED_CNT = min (s.get CAS.ADM_REFUSED_CNT + 1) 0xFF ∧ t.sig = s.sig) ∧
  (∀ (m : Master) (v : BitVec 32) (k : Nat) (s : State), isUser m = false → s.posted = [] → s.guardOf 0x1B = none → k = s.get SLOT.SLOT_SEL →
    s.casEn k = true → v = s.rd (rkey 0x1B k 0x044) &&& ~~~1 →
    ∃ t, exec (.casSlotDisable m v) s = .next t ∧ t.casEn k = false ∧
      t.casSt k = (if s.casSt k = csWAITING then csLOADED else s.casSt k)) ∧
  (∀ (m : Master) (v : BitVec 32) (s : State), isUser m = false → s.posted = [] → s.guardOf 0x1A = none →
    ∃ t, exec (.casQuery m v) s = .next t ∧ t.get CAS.QUERY_DONE = 0 ∧ t.casQuery = bits v 0 16) ∧
  (∀ s : State, s.posted = [] → s.enabled 0x1A = true → s.casQuery ≠ 0 →
    ∃ t, exec .casQueryDone s = .next t ∧ t.get CAS.QUERY_DONE = 1 ∧ t.casQuery = 0 ∧
      (t.on CAS.QUERY_RATE_OK = s.casRateOk s.casEnabled s.casQuery) ∧ (t.on CAS.QUERY_DENS_OK = s.casDensOk s.casEnabled s.casQuery) ∧
      (t.on CAS.QUERY_OWN_OK = s.casOwnOk s.casEnabled s.casQuery)) ∧
  (∀ (m : Master) (a : BitVec 32) (v : BitVec 64) (s : State), isUser m = false → 0x60000000 ≤ a.toNat → a.toNat < 0x61800000 → a.toNat % 4 = 0 →
    s.casOwner (a.toNat - 0x60000000) = none →
    ∃ t, exec (.casMemoryWrite m a 4 v) s = .next t ∧ t.mem32 a.toNat = v.toNat % 2 ^ 32 ∧ t.resp = .done ∧
      ∀ b, (b < a.toNat ∨ a.toNat + 4 ≤ b) → t.byte b = s.byte b) ∧
  (∀ (m : Master) (a : BitVec 32) (v : BitVec 64) (k : Nat) (s : State), isUser m = false → s.posted = [] → 0x60000000 ≤ a.toNat → a.toNat < 0x61800000 →
    a.toNat % 4 = 0 → s.casOwner (a.toNat - 0x60000000) = some k →
    ∃ t, exec (.casMemoryWrite m a 4 v) s = .next t ∧ t.mem = s.mem ∧ t.get CAS.LOCK_ERR_OFFSET = a.toNat - 0x60000000 ∧
      t.get CAS.LOCK_TOTAL = min (s.get CAS.LOCK_TOTAL + 1) 0xFFFF ∧
      t.get (SLOT.SLOT_CNT3_LOCK_CNT k) = min (s.get (SLOT.SLOT_CNT3_LOCK_CNT k) + 1) 0xFF)

/-- R168, R169, R172 and R176 to R178: the solve, unit by unit, and the refresh. -/
def Obligations.CascadeSolve : Prop :=
  (∀ (ns k : Nat) (s : State), s.casLive = true → s.domReady 9 = true → s.casNext (List.range 16) = some k → (s.casSlot k).phase = 1 →
    ∃ t, exec (.casDispatch ns) s = .next t ∧ t.casSlot k = { s.casSlot k with phase := 2 } ∧
      t.casBusy = s.casBusy + min ns ((1000 * s.tApply k + max (s.clkMHz 9) 1 - 1) / max (s.clkMHz 9) 1) ∧ s.mono ≤ t.mono) ∧
  (∀ (ns k : Nat) (s : State), s.casLive = true → s.domReady 9 = true → s.casNext (List.range 16) = some k → (s.casSlot k).phase = 6 →
    s.casEn k = true →
    ∃ t, exec (.casDispatch ns) s = .next t ∧ (t.casSlot k).phase = 0 ∧ (t.casSlot k).posted = true ∧ s.mono ≤ t.mono ∧
      t.casSt k = csWAITING ∧ t.get (SLOT.SLOT_SOLVES k) = (s.get (SLOT.SLOT_SOLVES k) + 1) % 2 ^ 32) ∧
  (∀ (k : Fin 16) (s : State), s.posted = [] → s.casLive = true → s.casSt k.val = csLIN → (s.casSlot k.val).phase = 3 →
    s.casAborting k.val = false →
    ∃ t, exec (.casLinCommit k) s = .next t ∧
      ((s.takeBatches k.val (some (s.casSlot k.val).g) 0 (s.feed k.val).length (s.feed k.val)).2 = true →
        t.casSt k.val = csSOLVING ∧ (t.casSlot k.val).phase = 4) ∧
      ((s.takeBatches k.val (some (s.casSlot k.val).g) 0 (s.feed k.val).length (s.feed k.val)).2 = false →
        t.casSt k.val = csLIN ∧ (t.casSlot k.val).phase = 3)) ∧
  (∀ (k : Fin 16) (s : State), s.posted = [] → s.casLive = true → s.casSt k.val = csLIN → s.casAborting k.val = false →
    ∃ t, exec (.casLinTimeout k) s = .next t ∧ t.casSt k.val = csSOLVING ∧
      t.casSlot k.val = { s.casSlot k.val with code := 2, phase := 6 } ∧ s.mono ≤ t.mono) ∧
  (∀ (k : Fin 16) (s : State), s.posted = [] → s.casLive = true → s.domReady 9 = true → s.casHeld k.val = true →
    (s.casSlot k.val).req = true → (s.casSlot k.val).ready = false → s.on (SLOT.SLOT_STAT_FACT_BUSY k.val) = false →
    s.casNext (List.range 16) = none → s.casAborting k.val = false →
    ∃ t, exec (.casRefreshStart k) s = .next t ∧ t.get (SLOT.SLOT_STAT_FACT_BUSY k.val) = 1 ∧
      t.casSlot k.val = { s.casSlot k.val with req := false, changed := false }) ∧
  (∀ (k : Fin 16) (s : State), s.posted = [] → s.casHeld k.val = true → s.on (SLOT.SLOT_STAT_FACT_BUSY k.val) = true →
    s.casAborting k.val = false →
    ∃ t, exec (.casRefreshDone k) s = .next t ∧ t.get (SLOT.SLOT_STAT_FACT_BUSY k.val) = 0 ∧
      ((t.casSlot k.val).ready = true ∨
        t.get (SLOT.SLOT_CNT2_FACT_FAIL_CNT k.val) = min (s.get (SLOT.SLOT_CNT2_FACT_FAIL_CNT k.val) + 1) 0xFF))

/-- R202 to R206: frames across a bank's barrier, and their absence. -/
def Obligations.BankFrames : Prop :=
  (∀ (b : Fin 16) (m : Nat) (f : BankFrame) (s : State), s.posted = [] → s.frameMode b.val = some m → s.bankLive b.val = true →
    s.enabled (0x20 + b.val) = true → f.crcOk = true → f.seq = (s.bank b.val).outSeq →
    ∃ t, exec (.bankOutputFrame b f) s = .next t ∧ t.bank b.val = { s.bank b.val with
        outSeq := f.seq + 1, frame := some m, lastOut := some s.mono, lastDrive := if m = 0 then some s.mono else (s.bank b.val).lastDrive } ∧
      t.get (FB.BANK_STAT_LINK_OK b.val) = 1 ∧ t.get (FB.BANK_STAT_LOGIC_SILENT b.val) = 0 ∧
      t.get (FB.BANK_STAT_DRIVE_MODE b.val) = m ∧ (m = 0 → t.get64 (FB.LAST_DRIVE_LO b.val) (FB.LAST_DRIVE_HI b.val) = s.now)) ∧
  (∀ (b : Fin 16) (m : Nat) (f : BankFrame) (s : State), s.posted = [] → s.frameMode b.val = some m → s.bankLive b.val = true →
    s.enabled (0x20 + b.val) = true → f.crcOk = false →
    ∃ t, exec (.bankOutputFrame b f) s = .next t ∧ t.bank b.val = { s.bank b.val with outSeq := (s.bank b.val).outSeq + 1 } ∧
      t.get (FB.FRAME_CNT_CRC_ERR_CNT b.val) = min (s.get (FB.FRAME_CNT_CRC_ERR_CNT b.val) + 1) 0xFF) ∧
  (∀ (b : Fin 16) (m : Nat) (f : BankFrame) (s : State), s.posted = [] → s.frameMode b.val = some m → s.bankLive b.val = true →
    s.enabled (0x20 + b.val) = true → f.crcOk = true → f.seq ≠ (s.bank b.val).outSeq →
    ∃ t, exec (.bankOutputFrame b f) s = .next t ∧ t.bank b.val = { s.bank b.val with outSeq := f.seq + 1 } ∧
      t.get (FB.FRAME_CNT_SEQ_ERR_CNT b.val) = min (s.get (FB.FRAME_CNT_SEQ_ERR_CNT b.val) + 1) 0xFF) ∧
  (∀ (b : Fin 16) (f : BankFrame) (s : State), s.bankLive b.val = true → s.enabled (0x20 + b.val) = true →
    f.crcOk = true → f.seq = (s.bank b.val).inSeq →
    ∃ t, exec (.bankInputFrame b f) s = .next t ∧ (t.bank b.val).inOk = true ∧ (t.bank b.val).lastIn = some s.mono ∧
      ∀ ch, bk ch = b.val → s.chEn ch = true → isDI (s.chType ch) = true → s.chSafety ch = false →
        s.isProducer (s.chSlot ch) 1 ch = true →
        (s.on (FB.TRIP_SLOT_EN b.val) = false ∨ s.get (FB.TRIP_SLOT_SLOT b.val) ≠ s.chSlot ch) →
        t.slotRaw (s.chSlot ch) = SigSlot.mk (if (s.chan ch).cap then 1 else 0)
          (mkTag (!s.chInvalid ch && (s.chan ch).sampled) false false false 1 ch 0)) ∧
  (∀ (b : Fin 16) (f : BankFrame) (s : State), s.posted = [] → (f.crcOk = false ∨ f.seq ≠ (s.bank b.val).inSeq) →
    ∃ t, exec (.bankInputFrame b f) s = .next t ∧ t.sig = s.sig ∧ t.chans = s.chans ∧
      (t.bank b.val).lastIn = (s.bank b.val).lastIn ∧ (t.bank b.val).inOk = (s.bank b.val).inOk) ∧
  (∀ (b : Fin 16) (h : Nat) (s : State), s.posted = [] → (s.bank b.val).lastOut = some h → s.bankLive b.val = true →
    s.on (FB.BANK_STAT_LOGIC_SILENT b.val) = false →
    ∃ t, exec (.logicSilence b) s = .next t ∧ t.get (FB.BANK_STAT_LOGIC_SILENT b.val) = 1 ∧ t.get (FB.BANK_STAT_LINK_OK b.val) = 0 ∧
      t.get (FB.FRAME_CNT_SILENCE_CNT b.val) = min (s.get (FB.FRAME_CNT_SILENCE_CNT b.val) + 1) 0xFF ∧
      h + ms (s.get (FB.BANK_CFG_SILENCE_MS b.val)) ≤ t.mono) ∧
  (∀ (b : Fin 16) (s : State), s.mstate ≠ stPOWER_ON → s.enabled (0x20 + b.val) = true → s.on (FB.BANK_STAT_INPUT_LOST b.val) = false →
    ∃ t, exec (.inputLost b) s = .next t ∧ t.get (FB.BANK_STAT_INPUT_LOST b.val) = 1 ∧
      ((s.bank b.val).lastIn.getD (s.bank b.val).resetAt) + ms (s.get (FB.BANK_CFG_SILENCE_MS b.val)) ≤ t.mono ∧
      ∀ e ∈ s.bankSlots b.val, s.isProducer e.1 1 e.2 = true →
        tVALID (t.slotRaw e.1).tag = false ∧ (t.slotRaw e.1).value = (s.slotRaw e.1).value) ∧
  (∀ (b : Fin 16) (h : Nat) (s : State), s.posted = [] → (s.bank b.val).lastDrive = some h → s.bankLive b.val = true →
    s.actMode b.val = 2 → s.on (FB.BANK_STAT_RELEASED b.val) = false →
    ∃ t, exec (.releaseHoldExpiry b) s = .next t ∧ t.get (FB.BANK_STAT_RELEASED b.val) = 1 ∧
      h + ms (s.get (FB.BANK_CFG_RELEASE_MS b.val)) ≤ t.mono ∧
      ∀ ch, bk ch = b.val → isOut (s.chType ch) = true → t.outSt ch = 3 ∧ (t.chan ch).applied = 0) ∧
  (∀ (ch : Fin 256) (h : Nat) (s : State), s.posted = [] → (s.chan ch.val).holdSince = some h → s.chLive ch.val = true →
    s.on (FB.CH_CFG_TIMED_SAFE (bk ch.val) (li ch.val)) = true → s.outSt ch.val = 1 →
    ∃ t, exec (.timedSafeTimeout ch) s = .next t ∧ t.outSt ch.val = 2 ∧
      h + ms (s.get (FB.CH_TS_TS_TIMEOUT_MS (bk ch.val) (li ch.val))) ≤ t.mono ∧
      (t.chan ch.val).applied = (if s.chType ch.val = 4 then ((s.get (FB.CH_TS_TS_VALUE (bk ch.val) (li ch.val)) % 2 : Nat) : Int)
        else ((s.get (FB.CH_TS_TS_VALUE (bk ch.val) (li ch.val)) * 1000 : Nat) : Int)))

/-- R188 and R189: the supplies of a bank. -/
def Obligations.BankSupplies : Prop :=
  (∀ (b : Fin 16) (mv : Int) (ma : BitVec 16) (s : State), s.posted = [] → s.bankLive b.val = true → mv < 18500 →
    ∃ t, exec (.fvFault b mv ma) s = .next t ∧ t.get (FB.BANK_STAT_FV_LOW b.val) = 1 ∧ t.get (FB.BANK_STAT_FV_HIGH b.val) = 0 ∧
      t.get (FB.BANK_STAT_FV_OK b.val) = 0 ∧ (t.bank b.val).fvHold = true ∧ t.get (FB.FV_MEAS_FV_MV b.val) = mv.toNat ∧
      t.get (FB.FV_CNT_FV_FAULT_CNT b.val) = (if s.on (FB.BANK_STAT_FV_LOW b.val) then s.get (FB.FV_CNT_FV_FAULT_CNT b.val)
        else min (s.get (FB.FV_CNT_FV_FAULT_CNT b.val) + 1) 0xFF) ∧
      ∀ i, i < 16 → s.get (FB.CH_CFG_TYPE b.val i) = 4 → t.get (FB.CH_STAT_RAW b.val i) = 0) ∧
  (∀ (b : Fin 16) (mv : Int) (ma : BitVec 16) (s : State), s.posted = [] → s.bankLive b.val = true → 31000 < mv →
    ∃ t, exec (.fvFault b mv ma) s = .next t ∧ t.get (FB.BANK_STAT_FV_HIGH b.val) = 1 ∧ t.get (FB.BANK_STAT_FV_LOW b.val) = 0 ∧
      t.get (FB.BANK_STAT_FV_OK b.val) = 0 ∧ (t.bank b.val).fvHold = true ∧
      ∀ i, i < 16 → s.get (FB.CH_CFG_TYPE b.val i) = 4 → t.get (FB.CH_STAT_RAW b.val i) = 0) ∧
  (∀ (b : Fin 16) (mv ma : BitVec 16) (s : State), s.posted = [] → s.bankLive b.val = true →
    (s.on (FB.BANK_STAT_FV_LOW b.val) = true → 19000 < mv.toNat) → (s.on (FB.BANK_STAT_FV_HIGH b.val) = true → mv.toNat < 30500) →
    18500 ≤ mv.toNat → mv.toNat ≤ 31000 →
    ∃ t, exec (.fvRecovery b mv ma) s = .next t ∧ t.get (FB.BANK_STAT_FV_LOW b.val) = 0 ∧ t.get (FB.BANK_STAT_FV_HIGH b.val) = 0 ∧
      t.get (FB.BANK_STAT_FV_OK b.val) = 1 ∧ t.bank b.val = { s.bank b.val with
        fvResume := some ((s.bank b.val).fvResume.getD s.mono) }) ∧
  (∀ (b : Fin 16) (s : State), s.posted = [] → (s.bank b.val).supply = true →
    ∃ t, exec (.bankSupplyLoss b) s = .next t ∧ (t.bank b.val).supply = false ∧ t.get (FB.BANK_STAT_RELEASED b.val) = 1 ∧
      t.get (FB.BANK_STAT_LINK_OK b.val) = 0 ∧ t.get (FB.FV_MEAS_FV_MV b.val) = 0 ∧
      ∀ ch, bk ch = b.val → isOut (s.chType ch) = true → t.outSt ch = 3 ∧ (t.chan ch).applied = 0)

/-- R192 to R197: digital inputs and outputs. -/
def Obligations.DigitalChannels : Prop :=
  (∀ (ch : Fin 256) (r : Bool) (s : State), s.posted = [] → s.chLive ch.val = true → isDI (s.chType ch.val) = true →
    (s.chan ch.val).sampled = false →
    ∃ t, exec (.diSample ch r) s = .next t ∧ t.on (FB.CH_STAT_VALUE (bk ch.val) (li ch.val)) = r ∧
      t.on (FB.CH_STAT_RAW (bk ch.val) (li ch.val)) = r ∧ (t.chan ch.val).sampled = true ∧
      t.get (FB.CH_STAT_FILT_CNT (bk ch.val) (li ch.val)) = (if r then s.get (FB.CH_FILT_N (bk ch.val) (li ch.val)) else 0)) ∧
  (∀ (ch : Fin 256) (r : Bool) (n c d : Nat) (s : State), s.posted = [] → s.chLive ch.val = true → isDI (s.chType ch.val) = true →
    (s.chan ch.val).sampled = true → s.on (FB.CH_CFG_XCHK_EN (bk ch.val) (li ch.val)) = false →
    n = s.get (FB.CH_FILT_N (bk ch.val) (li ch.val)) → c = s.get (FB.CH_STAT_FILT_CNT (bk ch.val) (li ch.val)) →
    d = (if r then min (c + 1) n else c - 1) →
    ∃ t, exec (.diSample ch r) s = .next t ∧ t.on (FB.CH_STAT_RAW (bk ch.val) (li ch.val)) = r ∧
      t.get (FB.CH_STAT_FILT_CNT (bk ch.val) (li ch.val)) = d ∧
      t.on (FB.CH_STAT_VALUE (bk ch.val) (li ch.val)) =
        (if d = n then true else if d = 0 then false else s.on (FB.CH_STAT_VALUE (bk ch.val) (li ch.val))) ∧
      t.get (FB.CH_CNT_EDGE_CNT (bk ch.val) (li ch.val)) =
        (if t.on (FB.CH_STAT_VALUE (bk ch.val) (li ch.val)) = s.on (FB.CH_STAT_VALUE (bk ch.val) (li ch.val)) then
          s.get (FB.CH_CNT_EDGE_CNT (bk ch.val) (li ch.val)) else min (s.get (FB.CH_CNT_EDGE_CNT (bk ch.val) (li ch.val)) + 1) 0xFF)) ∧
  (∀ (ch : Fin 256) (h : Nat) (s : State), s.posted = [] → s.chLive ch.val = true → s.chType ch.val = 4 → s.closed ch.val = true →
    (s.chan ch.val).onSince = some h →
    ∃ t, exec (.foldBack ch) s = .next t ∧ h + ms 2 ≤ t.mono ∧ t.get (FB.CH_STAT_SHORT (bk ch.val) (li ch.val)) = 1 ∧
      t.get (FB.CH_CNT_SHORT_CNT (bk ch.val) (li ch.val)) = min (s.get (FB.CH_CNT_SHORT_CNT (bk ch.val) (li ch.val)) + 1) 0xFF ∧
      t.get (FB.CH_STAT_FAULT (bk ch.val) (li ch.val)) = 1 ∧ t.get (FB.CH_STAT_RAW (bk ch.val) (li ch.val)) = 0 ∧
      t.energised ch.val = false) ∧
  (∀ (ch : Fin 256) (h : Nat) (s : State), s.posted = [] → s.chLive ch.val = true → s.chType ch.val = 4 → s.commandedOn ch.val = true →
    s.on (FB.CH_STAT_SHORT (bk ch.val) (li ch.val)) = true → (s.chan ch.val).shortAt = some h → (s.chan ch.val).pulse = none →
    ∃ t, exec (.foldbackRetry ch false) s = .next t ∧ h + ms 102 ≤ t.mono ∧ t.get (FB.CH_STAT_SHORT (bk ch.val) (li ch.val)) = 0 ∧
      t.energised ch.val = true ∧ t.get (FB.CH_STAT_RAW (bk ch.val) (li ch.val)) = 1) ∧
  (∀ (ch : Fin 256) (h : Nat) (s : State), s.posted = [] → s.chLive ch.val = true → s.chType ch.val = 4 → s.commandedOn ch.val = true →
    s.on (FB.CH_STAT_SHORT (bk ch.val) (li ch.val)) = true → (s.chan ch.val).shortAt = some h →
    ∃ t, exec (.foldbackRetry ch true) s = .next t ∧ h + ms 102 ≤ t.mono ∧ t.get (FB.CH_STAT_SHORT (bk ch.val) (li ch.val)) = 1 ∧
      t.get (FB.CH_STAT_RAW (bk ch.val) (li ch.val)) = 0 ∧ t.energised ch.val = false ∧
      ∃ u, (t.chan ch.val).shortAt = some u ∧ h + ms 100 ≤ u) ∧
  (∀ (ch : Fin 256) (x : Bool) (s : State), s.posted = [] → s.chLive ch.val = true → s.chType ch.val = 4 →
    s.on (FB.CH_STAT_SHORT (bk ch.val) (li ch.val)) = false → (s.chan ch.val).pulse = none →
    ∃ t, exec (.readbackErr ch x false) s = .next t ∧ t.on (FB.CH_STAT_RAW (bk ch.val) (li ch.val)) = x ∧
      t.get (FB.CH_STAT_READBACK_ERR (bk ch.val) (li ch.val)) = 0 ∧ (t.chan ch.val).rbSince = none) ∧
  (∀ (ch : Fin 256) (x : Bool) (s : State), s.posted = [] → s.chLive ch.val = true → s.chType ch.val = 4 →
    s.on (FB.CH_STAT_SHORT (bk ch.val) (li ch.val)) = false → (s.chan ch.val).pulse = none →
    (x = true ∨ s.commandedOn ch.val = true) → (s.chan ch.val).rbSince = none →
    ∃ t, exec (.readbackErr ch x true) s = .next t ∧ t.on (FB.CH_STAT_RAW (bk ch.val) (li ch.val)) = x ∧
      t.get (FB.CH_STAT_READBACK_ERR (bk ch.val) (li ch.val)) = s.get (FB.CH_STAT_READBACK_ERR (bk ch.val) (li ch.val)) ∧
      t.chan ch.val = { s.chan ch.val with rbSince := some s.mono }) ∧
  (∀ (ch : Fin 256) (x : Bool) (h : Nat) (s : State), s.posted = [] → s.chLive ch.val = true → s.chType ch.val = 4 →
    s.on (FB.CH_STAT_SHORT (bk ch.val) (li ch.val)) = false → (s.chan ch.val).pulse = none →
    (x = true ∨ s.commandedOn ch.val = true) → (s.chan ch.val).rbSince = some h →
    ∃ t, exec (.readbackErr ch x true) s = .next t ∧ t.on (FB.CH_STAT_RAW (bk ch.val) (li ch.val)) = x ∧ h + ms 1 < t.mono ∧
      t.get (FB.CH_STAT_READBACK_ERR (bk ch.val) (li ch.val)) = 1 ∧ t.get (FB.CH_STAT_FAULT (bk ch.val) (li ch.val)) = 1) ∧
  (∀ (ch : Fin 256) (x : Bool) (s : State), s.posted = [] → s.chLive ch.val = true → s.chType ch.val = 4 →
    (x = false ∨ s.energised ch.val = false ∨ s.on (FB.CH_CFG_OPEN_LOAD_EN (bk ch.val) (li ch.val)) = false) →
    ∃ t, exec (.openLoad ch x) s = .next t ∧ t.get (FB.CH_STAT_OPEN_LOAD (bk ch.val) (li ch.val)) = 0 ∧ (t.chan ch.val).olSince = none) ∧
  (∀ (ch : Fin 256) (s : State), s.posted = [] → s.chLive ch.val = true → s.chType ch.val = 4 → s.energised ch.val = true →
    s.on (FB.CH_CFG_OPEN_LOAD_EN (bk ch.val) (li ch.val)) = true → (s.chan ch.val).olSince = none →
    ∃ t, exec (.openLoad ch true) s = .next t ∧ t.chan ch.val = { s.chan ch.val with olSince := some s.mono } ∧
      t.get (FB.CH_STAT_OPEN_LOAD (bk ch.val) (li ch.val)) = s.get (FB.CH_STAT_OPEN_LOAD (bk ch.val) (li ch.val))) ∧
  (∀ (ch : Fin 256) (h : Nat) (s : State), s.posted = [] → s.chLive ch.val = true → s.chType ch.val = 4 → s.energised ch.val = true →
    s.on (FB.CH_CFG_OPEN_LOAD_EN (bk ch.val) (li ch.val)) = true → (s.chan ch.val).olSince = some h →
    ∃ t, exec (.openLoad ch true) s = .next t ∧ h + ms 100 ≤ t.mono ∧ t.get (FB.CH_STAT_OPEN_LOAD (bk ch.val) (li ch.val)) = 1 ∧
      t.get (FB.CH_STAT_FAULT (bk ch.val) (li ch.val)) = 1) ∧
  (∀ (ch : Fin 256) (a : BitVec 16) (s : State), s.posted = [] → s.chLive ch.val = true → s.chType ch.val = 3 →
    ∃ t, exec (.lineFault ch a) s = .next t ∧ (t.on (FB.CH_STAT_LINE_FAULT (bk ch.val) (li ch.val)) = true ↔
      a.toNat < 150 ∨ 6000 < a.toNat))

/-- R198 to R201 and R207: test pulses, polls and trip words. -/
def Obligations.PulsesAndTrips : Prop :=
  (∀ (ch : Fin 256) (p : Bool) (s : State), s.posted = [] → s.pulseDue ch.val = some p → s.energised ch.val = true →
    (s.chan ch.val).pulse = none → s.atTime s.tku.base.toNat = true →
    ∃ t, exec (.testPulseStart ch) s = .next t ∧ (t.chan ch.val).pulse = some (Pulse.mk p s.mono (us (s.get (FB.CH_PULSE_WIDTH_US (bk ch.val) (li ch.val)))) false) ∧ t.mono = s.mono ∧
      (t.chan ch.val).maskTo = s.mono + us (s.get (FB.CH_PULSE_WIDTH_US (bk ch.val) (li ch.val))) + us 50) ∧
  (∀ (ch : Fin 256) (h : Bool) (w : BitVec 16) (p : Pulse) (s : State), s.posted = [] → (s.chan ch.val).pulse = some p → p.killed = false →
    ∃ t, exec (.pulseVerdict ch h w) s = .next t ∧
      t.on (FB.CH_STAT_PULSE_FAIL (bk ch.val) (li ch.val)) = (h || (if p.trip then (s.chan ch.val).failMain else (s.chan ch.val).failTrip)) ∧
      t.get (FB.CH_CNT_PULSE_FAIL_CNT (bk ch.val) (li ch.val)) = (if h then
        min (s.get (FB.CH_CNT_PULSE_FAIL_CNT (bk ch.val) (li ch.val)) + 1) 0xFF else s.get (FB.CH_CNT_PULSE_FAIL_CNT (bk ch.val) (li ch.val))) ∧
      t.on (FB.CH_STAT_RAW (bk ch.val) (li ch.val)) = h ∧
      p.since + (p.width - us 20) ≤ t.mono) ∧
  (∀ (ch : Fin 256) (h : Bool) (w : BitVec 16) (p : Pulse) (s : State), s.posted = [] → (s.chan ch.val).pulse = some p → p.killed = true →
    ∃ t, exec (.pulseVerdict ch h w) s = .next t ∧ t.chans = s.chans ∧
      t.get (FB.CH_CNT_PULSE_FAIL_CNT (bk ch.val) (li ch.val)) = s.get (FB.CH_CNT_PULSE_FAIL_CNT (bk ch.val) (li ch.val))) ∧
  (∀ (ch : Fin 256) (p : Pulse) (s : State), s.posted = [] → (s.chan ch.val).pulse = some p →
    ∃ t, exec (.testPulseEnd ch) s = .next t ∧ (t.chan ch.val).pulse = none ∧
      p.since + p.width ≤ t.mono ∧
      (s.chType ch.val = 4 → t.on (FB.CH_STAT_RAW (bk ch.val) (li ch.val)) = t.energised ch.val)) ∧
  (∀ (b : Fin 16) (s : State), s.posted = [] → s.bankLive b.val = true →
    ∃ t, exec (.safetyPoll b) s = .next t ∧ (t.bank b.val).polled = true ∧
      ∀ ch, bk ch = b.val → s.chSafety ch = true → isDI (s.chType ch) = true →
        (t.chan ch).pollSt = s.on (FB.CH_STAT_VALUE (bk ch) (li ch)) ∧
        (t.chan ch).pollOk = ((s.chan ch).sampled && !s.chInvalid ch && s.enabled (0x20 + b.val))) ∧
  (∀ (b : Fin 16) (w : BitVec 16) (q : BitVec 8) (s : State), s.posted = [] → s.bankLive b.val = true →
    (s.bank b.val).tripSeq ≠ some q.toNat →
    ∃ t, exec (.tripWord b w (~~~w) q) s = .next t ∧ t.get (FB.TRIP_STAT_TRIP_WORD b.val) = w.toNat ∧
      t.get (FB.BANK_STAT_TRIP_LINK_OK b.val) = 1 ∧ (t.bank b.val).tripAt = some s.mono ∧
      ∀ ch, bk ch = b.val → s.chSafety ch = true → s.chType ch = 4 →
        t.on (FB.CH_STAT_TRIP (bk ch) (li ch)) = !w.getLsbD (li ch)) ∧
  (∀ (b : Fin 16) (w c : BitVec 16) (q : BitVec 8) (s : State), s.posted = [] → s.bankLive b.val = true →
    (c ≠ ~~~w ∨ (s.bank b.val).tripSeq = some q.toNat) →
    ∃ t, exec (.tripWord b w c q) s = .next t ∧ t.banks = s.banks ∧
      t.get (FB.TRIP_STAT_TRIP_WORD b.val) = s.get (FB.TRIP_STAT_TRIP_WORD b.val) ∧
      t.get (FB.TRIP_STAT_TRIP_ERR_CNT b.val) = min (s.get (FB.TRIP_STAT_TRIP_ERR_CNT b.val) + 1) 0xFF) ∧
  (∀ (b : Fin 16) (s : State), s.posted = [] → s.bankLive b.val = true →
    ∃ t, exec (.tripWordTimeout b) s = .next t ∧ t.get (FB.BANK_STAT_TRIP_LINK_OK b.val) = 0 ∧
      ((s.bank b.val).tripAt.getD (s.bank b.val).resetAt) + ms 1 ≤ t.mono ∧
      ∀ ch, bk ch = b.val → s.chSafety ch = true → s.chType ch = 4 → t.get (FB.CH_STAT_TRIP (bk ch) (li ch)) = 1)

/-- R217, R218, R221 and R224: conditions of the current loops. -/
def Obligations.AnalogueChannels : Prop :=
  (∀ (ch : Fin 256) (h : Nat) (s : State), s.posted = [] → s.chLive ch.val = true → s.chType ch.val = 5 →
    optMin (s.chan ch.val).loSince (optMin (s.chan ch.val).openSince (s.chan ch.val).hiSince) = some h →
    ∃ t, exec (.aiRangeTimer ch) s = .next t ∧ h + ms 10 ≤ t.mono ∧
      t.on (FB.AN_STAT_RANGE_LO (bk ch.val) (li ch.val)) =
        (s.on (FB.AN_STAT_RANGE_LO (bk ch.val) (li ch.val)) != ranOut (s.chan ch.val).loSince t.mono) ∧
      t.on (FB.AN_STAT_OPEN_LOOP (bk ch.val) (li ch.val)) =
        (s.on (FB.AN_STAT_OPEN_LOOP (bk ch.val) (li ch.val)) != ranOut (s.chan ch.val).openSince t.mono) ∧
      t.on (FB.AN_STAT_RANGE_HI (bk ch.val) (li ch.val)) =
        (s.on (FB.AN_STAT_RANGE_HI (bk ch.val) (li ch.val)) != ranOut (s.chan ch.val).hiSince t.mono)) ∧
  (∀ (ch : Fin 256) (x : Bool) (s : State), s.posted = [] → s.chLive ch.val = true → s.chType ch.val = 5 →
    s.on (FB.AN_CFG_LOOP_PWR (bk ch.val) (li ch.val)) = true → x = s.on (FB.AN_STAT_SUPPLY_LIMIT (bk ch.val) (li ch.val)) →
    ∃ t, exec (.supplyLimit ch x) s = .next t ∧ t.chan ch.val = { s.chan ch.val with supSince := none } ∧
      t.on (FB.AN_STAT_SUPPLY_LIMIT (bk ch.val) (li ch.val)) = x) ∧
  (∀ (ch : Fin 256) (x : Bool) (s : State), s.posted = [] → s.chLive ch.val = true → s.chType ch.val = 5 →
    s.on (FB.AN_CFG_LOOP_PWR (bk ch.val) (li ch.val)) = true → x ≠ s.on (FB.AN_STAT_SUPPLY_LIMIT (bk ch.val) (li ch.val)) →
    (s.chan ch.val).supSince = none →
    ∃ t, exec (.supplyLimit ch x) s = .next t ∧ t.chan ch.val = { s.chan ch.val with supSince := some s.mono } ∧
      t.on (FB.AN_STAT_SUPPLY_LIMIT (bk ch.val) (li ch.val)) = !x) ∧
  (∀ (ch : Fin 256) (x : Bool) (h : Nat) (s : State), s.posted = [] → s.chLive ch.val = true → s.chType ch.val = 5 →
    s.on (FB.AN_CFG_LOOP_PWR (bk ch.val) (li ch.val)) = true → x ≠ s.on (FB.AN_STAT_SUPPLY_LIMIT (bk ch.val) (li ch.val)) →
    (s.chan ch.val).supSince = some h →
    ∃ t, exec (.supplyLimit ch x) s = .next t ∧ t.on (FB.AN_STAT_SUPPLY_LIMIT (bk ch.val) (li ch.val)) = x ∧
      t.on (FB.CH_STAT_SHORT (bk ch.val) (li ch.val)) = x ∧ h + ms 10 ≤ t.mono) ∧
  (∀ (ch : Fin 256) (mv : BitVec 16) (s : State), s.posted = [] → s.chLive ch.val = true → isAO (s.chType ch.val) = true →
    s.outSt ch.val ≠ 3 → s.canDrive (bk ch.val) = true → (s.chan ch.val).complSince = none →
    ∃ t, exec (.compliance ch true mv) s = .next t ∧ t.get (FB.AN_STAT_COMPLIANCE (bk ch.val) (li ch.val)) = 1 ∧
      t.get (FB.AN_STAT_TERM_MV (bk ch.val) (li ch.val)) = mv.toNat ∧ (t.chan ch.val).complSince = some s.mono ∧
      t.get (FB.AN_CNT_COMPL_CNT (bk ch.val) (li ch.val)) = min (s.get (FB.AN_CNT_COMPL_CNT (bk ch.val) (li ch.val)) + 1) 0xFF) ∧
  (∀ (ch : Fin 256) (mv : BitVec 16) (s : State), s.posted = [] → s.bankLive (bk ch.val) = true → isAO (s.chType ch.val) = true →
    (s.chan ch.val).complSince ≠ none →
    ∃ t, exec (.compliance ch false mv) s = .next t ∧ t.get (FB.AN_STAT_COMPLIANCE (bk ch.val) (li ch.val)) = 0 ∧
      t.get (FB.AN_STAT_COMPL_FAULT (bk ch.val) (li ch.val)) = 0 ∧ t.get (FB.AN_STAT_OPEN_LOOP (bk ch.val) (li ch.val)) = 0 ∧
      (t.chan ch.val).complSince = none) ∧
  (∀ (ch : Fin 256) (h : Nat) (s : State), s.posted = [] → s.chLive ch.val = true → isAO (s.chType ch.val) = true →
    (s.chan ch.val).complSince = some h → s.on (FB.AN_STAT_COMPLIANCE (bk ch.val) (li ch.val)) = true →
    s.on (FB.AN_STAT_COMPL_FAULT (bk ch.val) (li ch.val)) = false → s.on (FB.AN_STAT_OPEN_LOOP (bk ch.val) (li ch.val)) = false →
    ∃ t, exec (.complFault ch) s = .next t ∧ h + ms 9 ≤ t.mono ∧
      (t.on (FB.AN_STAT_OPEN_LOOP (bk ch.val) (li ch.val)) = true ↔ 1000000 ≤ (s.chan ch.val).applied ∧ (s.chan ch.val).own < 200000) ∧
      t.on (FB.AN_STAT_COMPL_FAULT (bk ch.val) (li ch.val)) = !t.on (FB.AN_STAT_OPEN_LOOP (bk ch.val) (li ch.val))) ∧
  (∀ (ch : Fin 256) (h : Nat) (s : State), s.posted = [] → s.joins ch.val = true → s.get (FB.AN_STAT_JOIN (bk ch.val) (li ch.val)) = 1 →
    (s.chan ch.val).joinSince = some h →
    ∃ t, exec (.joinToSole ch) s = .next t ∧ t.get (FB.AN_STAT_JOIN (bk ch.val) (li ch.val)) = 2 ∧ h + ms 1 ≤ t.mono ∧
      (t.chan ch.val).joinSince = none ∧ (t.chan ch.val).applied = (s.chan ch.val).applied) ∧
  (∀ (ch : Fin 256) (h : Nat) (s : State), s.posted = [] → s.joins ch.val = true → s.get (FB.AN_STAT_JOIN (bk ch.val) (li ch.val)) = 2 →
    (s.chan ch.val).joinSince = some h →
    ∃ t, exec (.soleToJoin ch) s = .next t ∧ t.get (FB.AN_STAT_JOIN (bk ch.val) (li ch.val)) = 1 ∧ h + ms 1 ≤ t.mono ∧
      (t.chan ch.val).joinSince = none ∧ (t.chan ch.val).applied = (s.chan ch.val).applied)

/-- R226 and R228 to R230: the life of a HART transaction. -/
def Obligations.HartTransactions : Prop :=
  (∀ (b : Fin 16) (r : Nat) (d : Desc) (l : List Byte) (s : State), s.posted = [] → s.bankLive b.val = true → s.enabled (0x20 + b.val) = true →
    r = s.get (FB.HART_CFG_TX_RING b.val) → s.get (QMG.RING_EP_CONS_CLASS r) = epHart → s.get (QMG.RING_EP_CONS_INST r) = b.val →
    s.ringHead r = some d → bufOk d.buf d.len = true → 8 ≤ d.len → l = s.bytes d.buf d.len → setByteAt l 0 < 16 → 4 ≤ setLEAt l 4 2 →
    setLEAt l 4 2 ≤ 263 → 8 + setLEAt l 4 2 ≤ d.len → (s.chan (16 * b.val + setByteAt l 0)).hart.length < 2 →
    ∃ t, exec (.hartRequest b) s = .next t ∧ (t.chan (16 * b.val + setByteAt l 0)).hart =
        (s.chan (16 * b.val + setByteAt l 0)).hart ++
          [HartReq.mk (setByteAt l 1 % 2 == 1) (setLEAt l 2 2) ((l.drop 8).take (setLEAt l 4 2)) 0 none 0 0] ∧
      t.get (QMG.RING_CONS_CONS_IDX r) = (s.get (QMG.RING_CONS_CONS_IDX r) + 1) % 65536 ∧
      t.on (FB.AN_STAT_HART_BUSY b.val (setByteAt l 0)) = true) ∧
  (∀ (ch : Fin 256) (p n : Nat) (r : HartReq) (l : List HartReq) (s : State), s.posted = [] → s.modemLive ch.val = true →
    (s.chan ch.val).hart = r :: l → r.sentAt = none → (r.attempts ≠ 0 ∨ s.hartOk ch.val = true) →
    p = (if r.attempts = 0 then s.get (FB.HART_CFG_PREAMBLE (bk ch.val)) else r.pre) →
    n = (if r.attempts = 0 then s.get (FB.HART_CFG_RETRIES (bk ch.val)) else r.retries) →
    ∃ t, exec (.hartTransmit ch) s = .next t ∧ (t.chan ch.val).hart = { r with
        attempts := r.attempts + 1, sentAt := some (t.mono + hartChars (p + r.frame.length + 1)), pre := p, retries := n } :: l ∧
      (s.chan ch.val).quiet + hartChars 2 ≤ t.mono ∧
      t.sent = s.sent ++ [(Link.hart ch.val, List.replicate p 0xFF#8 ++ r.frame ++ [hartCheck r.frame])]) ∧
  (∀ (ch : Fin 256) (r : HartReq) (l : List HartReq) (s : State), s.posted = [] → s.modemLive ch.val = true →
    (s.chan ch.val).hart = r :: l → r.sentAt = none → r.attempts = 0 → s.hartOk ch.val = false →
    ∃ t, exec (.hartTransmit ch) s = .next t ∧ (t.chan ch.val).hart = l ∧
      t.get (FB.HART_CNT_TXN_CNT (bk ch.val)) = min (s.get (FB.HART_CNT_TXN_CNT (bk ch.val)) + 1) 0xFFFF) ∧
  (∀ (ch : Fin 256) (ago x : Nat) (f : List (BitVec 8)) (r : HartReq) (l : List HartReq) (s : State), s.posted = [] →
    s.modemLive ch.val = true → (s.chan ch.val).hart = r :: l → r.sentAt = some x → x + ago ≤ s.mono → s.mono ≤ x + hartChars 28 + ago →
    ∃ t, exec (.hartResponse ch .none ⟨ago, f⟩) s = .next t ∧ (t.chan ch.val).hart = l ∧
      t.on (FB.AN_STAT_HART_BUSY (bk ch.val) (li ch.val)) = !l.isEmpty ∧
      t.get (FB.HART_CNT_TXN_CNT (bk ch.val)) = min (s.get (FB.HART_CNT_TXN_CNT (bk ch.val)) + 1) 0xFFFF) ∧
  (∀ (ch : Fin 256) (ago x : Nat) (e : HartErr) (f : List (BitVec 8)) (r : HartReq) (l : List HartReq) (s : State), s.posted = [] →
    s.modemLive ch.val = true → (s.chan ch.val).hart = r :: l → r.sentAt = some x → x + ago ≤ s.mono →
    (e ≠ .none ∨ x + hartChars 28 + ago < s.mono) →
    ∃ t, exec (.hartResponse ch e ⟨ago, f⟩) s = .next t ∧ (t.chan ch.val).hart =
      (if r.noRetry = true ∨ r.retries < r.attempts then l else { r with sentAt := none } :: l)) ∧
  (∀ (ch : Fin 256) (h : Nat) (r : HartReq) (l : List HartReq) (s : State), s.posted = [] → s.modemLive ch.val = true →
    (s.chan ch.val).hart = r :: l → r.sentAt = some h →
    ∃ t, exec (.hartTimeout ch) s = .next t ∧ h ≤ t.mono ∧ (t.chan ch.val).hart =
      (if r.noRetry = true ∨ r.retries < r.attempts then l else { r with sentAt := none } :: l)) ∧
  (∀ (ch : Fin 256) (ago : Nat) (f : List (BitVec 8)) (s : State), s.posted = [] → s.modemLive ch.val = true → s.chEn ch.val = true →
    s.hartModem ch.val = true →
    ∃ t, exec (.hartBurst ch ⟨ago, f⟩) s = .next t ∧ (t.chan ch.val).hart = (s.chan ch.val).hart ∧
      t.get (FB.HART_CNT_BURST_CNT (bk ch.val)) = min (s.get (FB.HART_CNT_BURST_CNT (bk ch.val)) + 1) 0xFFFF)

/-- R239 to R241 and R243 to R245: the checking hardware of the pairs. -/
def Obligations.PairFaults : Prop :=
  (∀ (u : Fin 8) (k : Nat) (l r : CopyOut) (pc : BitVec 32) (s : State), u.val < 4 → s.pairLocked u.val = true → s.mstate = stRUN →
    k = (if l.addr ≠ r.addr ∨ l.ctrl ≠ r.ctrl then 1 else if l.data ≠ r.data then 2
      else if retireSig l.retired ≠ retireSig r.retired then 3 else 0) → k ≠ 0 →
    ∃ t, exec (.comparatorMismatch u l r pc) s = .next t ∧ t.get (SCP.PAIR_STAT_HALTED u.val) = 1 ∧
      t.get (SCP.PAIR_FAULT_KIND u.val) = k ∧ t.get (SCP.FAULT_PC u.val) = pc.toNat ∧
      t.get (SCP.FAULT_ADDR u.val) = (if k = 3 then 0 else l.addr.toNat) ∧
      t.get64 (SCP.FAULT_TIME_LO u.val) (SCP.FAULT_TIME_HI u.val) = s.now ∧ t.mstate = stSAFE ∧ t.get SYS.STATE_CAUSE_CAUSE = 4) ∧
  (∀ (u : Fin 8) (l r : CopyOut) (pc : BitVec 32) (s : State), 4 ≤ u.val → s.lsqLive (u.val - 4) = true → s.mstate = stRUN →
    (l.addr ≠ r.addr ∨ l.ctrl ≠ r.ctrl ∨ l.data ≠ r.data) →
    ∃ t, exec (.comparatorMismatch u l r pc) s = .next t ∧ (t.seqOf (u.val - 4)).halted = true ∧ t.mstate = stSAFE ∧
      t.get SYS.STATE_CAUSE_CAUSE = 4) ∧
  (∀ (u : Fin 8) (l r : CopyOut) (pc : BitVec 32) (s : State), s.posted = [] →
    ((u.val < 4 ∧ s.on (SCP.PAIR_STAT_HALTED u.val) = true) ∨ l = r) →
    ∃ t, exec (.comparatorMismatch u l r pc) s = .next t ∧ t.mstate = s.mstate ∧ t.seqs = s.seqs ∧ ∀ r, r % 4096 ≠ 0x010 → t.rd r = s.rd r) ∧
  (∀ (u : Fin 8) (r : LaneTest) (pc : BitVec 32) (s : State), s.posted = [] → u.val < 4 → s.pairLocked u.val = true →
    (∀ b ∈ r.lanes1, b = true) → r.sum1 = true → (∀ b ∈ r.lanes2, b = false) → r.sum2 = false →
    ∃ t, exec (.comparatorTest u r pc) s = .next t ∧ t.get (SCP.PAIR_STAT_SELFTEST_OK u.val) = 1 ∧
      t.get (SCP.SELFTEST_CNT u.val) = (s.get (SCP.SELFTEST_CNT u.val) + 1) % 2 ^ 32 ∧ t.mstate = s.mstate ∧
      (s.pair u.val).testAt + ms 1 ≤ t.mono) ∧
  (∀ (u : Fin 8) (r : LaneTest) (pc : BitVec 32) (s : State), u.val < 4 → s.pairLocked u.val = true → s.mstate = stRUN →
    (false ∈ r.lanes1 ∨ r.sum1 = false ∨ true ∈ r.lanes2 ∨ r.sum2 = true) →
    ∃ t, exec (.comparatorTest u r pc) s = .next t ∧ t.get (SCP.PAIR_STAT_SELFTEST_OK u.val) = 0 ∧
      t.get (SCP.PAIR_STAT_HALTED u.val) = 1 ∧ t.get (SCP.PAIR_FAULT_KIND u.val) = 7 ∧ t.mstate = stSAFE ∧
      t.get SYS.STATE_CAUSE_CAUSE = 5) ∧
  (∀ (u : Fin 8) (r : LaneTest) (pc : BitVec 32) (s : State), 4 ≤ u.val → s.lsqLive (u.val - 4) = true → s.mstate = stRUN →
    (false ∈ r.lanes1 ∨ r.sum1 = false ∨ true ∈ r.lanes2 ∨ r.sum2 = true) →
    ∃ t, exec (.comparatorTest u r pc) s = .next t ∧ (t.seqOf (u.val - 4)).halted = true ∧ t.mstate = stSAFE ∧
      t.get SYS.STATE_CAUSE_CAUSE = 5) ∧
  (∀ (u : Fin 8) (pc a : BitVec 32) (s : State), u.val < 4 → s.pairLocked u.val = true → s.mstate = stRUN →
    ∃ t, exec (.delayParityError u pc a) s = .next t ∧ t.get (SCP.PAIR_STAT_HALTED u.val) = 1 ∧
      t.get (SCP.PAIR_FAULT_KIND u.val) = 6 ∧ t.get (SCP.FAULT_ADDR u.val) = a.toNat ∧ t.mstate = stSAFE ∧
      t.get SYS.STATE_CAUSE_CAUSE = 5) ∧
  (∀ (u : Fin 8) (pc a : BitVec 32) (s : State), 4 ≤ u.val → s.lsqLive (u.val - 4) = true → s.mstate = stRUN →
    ∃ t, exec (.delayParityError u pc a) s = .next t ∧ (t.seqOf (u.val - 4)).halted = true ∧ t.mstate = stSAFE ∧
      t.get SYS.STATE_CAUSE_CAUSE = 5) ∧
  (∀ (p : Fin 4) (k : AgreeKind) (n pc : BitVec 32) (d : BitVec 64) (d1 d3 d4 : Bool) (dt : Nat) (r x : Bool) (per old : Nat) (s : State),
    s.pairLocked p.val = true → per = s.get WEIR.WEIR_CFG_PERIOD → 0 < per → old = s.get64 (SCP.RETIRED_LO p.val) (SCP.RETIRED_HI p.val) →
    ∃ t, exec (.agreementPoint p ⟨k, n⟩ pc d d1 d3 d4 dt r x) s = .next t ∧
      t.get (WEIR.WEIR_POINTS p.val) = (s.get (WEIR.WEIR_POINTS p.val) + 1) % 2 ^ 32 ∧
      t.get64 (SCP.RETIRED_LO p.val) (SCP.RETIRED_HI p.val) =
        (if k = .period then (old / per + 1) * per else min (old + n.toNat) ((old / per + 1) * per)) % 2 ^ 64 ∧
      (k = .time → (t.pair p.val).csr = BitVec.ofNat 32 s.now ∧ (t.pair p.val).timeHi = BitVec.ofNat 32 (s.now / 2 ^ 32)) ∧
      (k = .timeh → (t.pair p.val).csr = (s.pair p.val).timeHi) ∧
      BitVec.ofNat 64 (t.get64 (SCP.IRQ_PEND0 p.val) (SCP.IRQ_PEND1 p.val)) &&& d =
        BitVec.ofNat 64 (s.get64 (SCP.IRQ_PEND0 p.val) (SCP.IRQ_PEND1 p.val)) &&& d ∧
      (t.pair p.val).diffOf 0 = (if d = 0 then 0 else (s.pair p.val).diffOf 0 + 1) ∧
      (t.pair p.val).diffOf 1 = (if d1 then (s.pair p.val).diffOf 1 + 1 else 0) ∧
      (t.pair p.val).diffOf 2 = (if 8 * s.get WEIR.WEIR_CFG_TOL < dt then (s.pair p.val).diffOf 2 + 1 else 0) ∧
      (t.pair p.val).diffOf 3 = (if d3 then (s.pair p.val).diffOf 3 + 1 else 0) ∧
      (t.pair p.val).diffOf 4 = (if d4 then (s.pair p.val).diffOf 4 + 1 else 0) ∧
      (t.on (SCP.PAIR_STAT_HALTED p.val) = true ↔
        (s.get WEIR.WEIR_CFG_RETRY ≤ (t.pair p.val).diffOf 0 ∨ s.get WEIR.WEIR_CFG_RETRY ≤ (t.pair p.val).diffOf 1 ∨
          s.get WEIR.WEIR_CFG_RETRY ≤ (t.pair p.val).diffOf 2 ∨ s.get WEIR.WEIR_CFG_RETRY ≤ (t.pair p.val).diffOf 3 ∨
          s.get WEIR.WEIR_CFG_RETRY ≤ (t.pair p.val).diffOf 4)))

/-- R12, R247, R248 and R251 to R253: wakes by interrupts, and the check bits of the memories. -/
def Obligations.InterruptsAndMemoryChecks : Prop :=
  (∀ (g : Fin 256) (p : Fin 4) (k : Fin 64) (s : State), s.posted = [] → s.irqOut g.val = true →
    s.on (SCP.IRQ_MAP_EN p.val k.val) = true → s.get (SCP.IRQ_MAP_PAGE p.val k.val) = g.val → s.domRuns p.val = true →
    ∃ t, exec (.irqAssert g) s = .next t ∧ t.bit CLO.AWAKE p.val = true ∧
      (s.bit CLO.AWAKE p.val = false → t.bit CLO.LOCKED p.val = false ∧ t.wakeTime p.val = s.mono)) ∧
  (∀ (p : Fin 4) (x : Bool) (s : State), s.posted = [] → (x = true → s.isSplit p.val = true) → s.domRuns p.val = true →
    ∃ t, exec (.mtimecmpReached p x) s = .next t ∧ t.bit CLO.AWAKE p.val = true) ∧
  (∀ (c : Fin 8) (d : Bool) (a : BitVec 32) (s : State), s.posted = [] → s.mstate ≠ stPOWER_ON →
    ∃ t, exec (.eccSingleBit (.tcm c d) a) s = .next t ∧
      t.get (SCP.TCM_ECC_CE_CNT (c.val / 2)) = min (s.get (SCP.TCM_ECC_CE_CNT (c.val / 2)) + 1) 0xFFFF ∧
      t.get (SCP.TCM_ECC_ADDR_OFFSET (c.val / 2)) = a.toNat % 2 ^ 18 ∧ t.on (SCP.TCM_ECC_ADDR_DTCM (c.val / 2)) = d ∧
      t.get (SCP.TCM_ECC_ADDR_CORE (c.val / 2)) = c.val % 2 ∧ t.get (SCP.TCM_ECC_ADDR_UE (c.val / 2)) = 0 ∧ t.mem = s.mem) ∧
  (∀ (k : Fin 6) (a : BitVec 32) (s : State), s.posted = [] → s.mstate ≠ stPOWER_ON →
    ∃ t, exec (.eccSingleBit (.mem k) a) s = .next t ∧
      t.get (SCP.MEM_ECC_CE_CNT 0 k.val) = min (s.get (SCP.MEM_ECC_CE_CNT 0 k.val) + 1) 0xFFFF ∧
      t.get (SCP.MEM_ECC_ADDR 0 k.val) = a.toNat ∧ t.get (SCP.MEM_ECC_FLAG_LAST_UE 0 k.val) = 0) ∧
  (∀ (k : Fin 6) (a : BitVec 32) (h : Fin 8) (pc : BitVec 32) (s : State), s.posted = [] → s.mstate ≠ stPOWER_ON →
    s.isSplit (h.val / 2) = true →
    ∃ t, exec (.eccDoubleBit (.mem k) a (.core h) pc) s = .next t ∧ h.val ∈ t.coreFaults ∧ t.mstate = s.mstate ∧
      t.get (SCP.MEM_ECC_UE_CNT 0 k.val) = min (s.get (SCP.MEM_ECC_UE_CNT 0 k.val) + 1) 0xFF) ∧
  (∀ (m : EccMem) (a : BitVec 32) (h : Fin 8) (pc : BitVec 32) (s : State), s.mstate = stRUN → s.isSplit (h.val / 2) = false →
    s.on (SCP.PAIR_STAT_HALTED (h.val / 2)) = false →
    ∃ t, exec (.eccDoubleBit m a (.core h) pc) s = .next t ∧ t.mstate = stSAFE ∧ t.get SYS.STATE_CAUSE_CAUSE = 9 ∧
      t.get (SCP.PAIR_STAT_HALTED (h.val / 2)) = 1 ∧ t.get (SCP.FAULT_PC (h.val / 2)) = pc.toNat) ∧
  (∀ (m : EccMem) (a : BitVec 32) (g : Fin 256) (pc : BitVec 32) (s : State), s.mstate ≠ stPOWER_ON →
    ∃ t, exec (.eccDoubleBit m a (.block g) pc) s = .next t ∧ t.resp = .error ∧ t.coreFaults = s.coreFaults) ∧
  (∀ (k : Fin 6) (a : BitVec 32) (f : ScrubFind) (s : State), s.posted = [] → s.mstate ≠ stPOWER_ON →
    (eccRange k.val).1 ≤ a.toNat → a.toNat < (eccRange k.val).1 + (eccRange k.val).2 → a.toNat % 4 = 0 →
    (s.scrubOf (.mem k)).pos = (a.toNat - (eccRange k.val).1) / 4 →
    ∃ t, exec (.scrubWord (.mem k) a f) s = .next t ∧
      (s.scrubOf (.mem k)).since + (s.scrubOf (.mem k)).pos * secs (if k.val = 1 ∨ k.val = 2 then 86400 else 3600) / ((eccRange k.val).2 / 4) ≤ t.mono ∧
      t.get (SCP.MEM_ECC_CE_CNT 0 k.val) = (if f = .single then min (s.get (SCP.MEM_ECC_CE_CNT 0 k.val) + 1) 0xFFFF
        else s.get (SCP.MEM_ECC_CE_CNT 0 k.val)) ∧
      t.get (SCP.MEM_ECC_UE_CNT 0 k.val) = (if f = .double then min (s.get (SCP.MEM_ECC_UE_CNT 0 k.val) + 1) 0xFF
        else s.get (SCP.MEM_ECC_UE_CNT 0 k.val)) ∧
      t.get (SCP.MEM_SCRUB_PROGRESS 0 k.val) = (if a.toNat + 4 = (eccRange k.val).1 + (eccRange k.val).2 then 0
        else ((a.toNat - (eccRange k.val).1) / 4 + 1) * 1000 / ((eccRange k.val).2 / 4)) ∧
      t.get (SCP.MEM_SCRUB_PASSES 0 k.val) = (if a.toNat + 4 = (eccRange k.val).1 + (eccRange k.val).2 then
        (s.get (SCP.MEM_SCRUB_PASSES 0 k.val) + 1) % 2 ^ 16 else s.get (SCP.MEM_SCRUB_PASSES 0 k.val))) ∧
  (∀ (c : Fin 8) (d : Bool) (a : BitVec 32) (f : ScrubFind) (s : State), s.posted = [] → s.mstate ≠ stPOWER_ON → a.toNat % 4 = 0 →
    (s.scrubOf (.tcm c d)).pos = (2 * (c.val % 2) + (if d then 1 else 0)) * 2 ^ 16 + a.toNat % 2 ^ 18 / 4 →
    ∃ t, exec (.scrubWord (.tcm c d) a f) s = .next t ∧
      (s.scrubOf (.tcm c d)).since + (s.scrubOf (.tcm c d)).pos * secs 3600 / 2 ^ 18 ≤ t.mono ∧
      t.get (SCP.TCM_ECC_CE_CNT (c.val / 2)) = (if f = .single then min (s.get (SCP.TCM_ECC_CE_CNT (c.val / 2)) + 1) 0xFFFF
        else s.get (SCP.TCM_ECC_CE_CNT (c.val / 2))) ∧
      t.get (SCP.TCM_SCRUB_PASSES (c.val / 2)) = (if (s.scrubOf (.tcm c d)).pos + 1 = 2 ^ 18 then
        (s.get (SCP.TCM_SCRUB_PASSES (c.val / 2)) + 1) % 2 ^ 16 else s.get (SCP.TCM_SCRUB_PASSES (c.val / 2))))

/-- R254, R255 and R258: the debug port. -/
def Obligations.DebugAccess : Prop :=
  (∀ (m : Master) (s : State), isUser m = false → s.posted = [] → s.guardOf 0x90 = none → s.dbgAuthOpen = true → s.dmi = none →
    ∃ t, exec (.dmiRead m) s = .next t ∧ t.get DBG.DMI_STAT_BUSY = 1 ∧
      t.dmi = some (false, BitVec.ofNat 7 (s.get DBG.DMI_ADDR), s.rd DBG.DMI_WDATA.key)) ∧
  (∀ (m : Master) (s : State), isUser m = false → s.posted = [] → s.guardOf 0x90 = none → s.dbgAuthOpen = true → s.dmi = none →
    ∃ t, exec (.dmiWrite m) s = .next t ∧ t.get DBG.DMI_STAT_BUSY = 1 ∧
      t.dmi = some (true, BitVec.ofNat 7 (s.get DBG.DMI_ADDR), s.rd DBG.DMI_WDATA.key)) ∧
  (∀ (m : Master) (s : State), isUser m = false → s.posted = [] → s.guardOf 0x90 = none → (s.dbgAuthOpen = false ∨ s.dmi ≠ none) →
    ∃ t, exec (.dmiRead m) s = .next t ∧ t.dmi = s.dmi ∧
      t.get (HDR.PG_ERR_CNT_LOST 0x90) = min (s.get (HDR.PG_ERR_CNT_LOST 0x90) + 1) 0xFF) ∧
  (∀ (m : Master) (s : State), isUser m = false → s.posted = [] → s.guardOf 0x90 = none → (s.dbgAuthOpen = false ∨ s.dmi ≠ none) →
    ∃ t, exec (.dmiWrite m) s = .next t ∧ t.dmi = s.dmi ∧
      t.get (HDR.PG_ERR_CNT_LOST 0x90) = min (s.get (HDR.PG_ERR_CNT_LOST 0x90) + 1) 0xFF) ∧
  (∀ (f : Bool) (w : BitVec 32) (a : BitVec 7) (d : Word) (s : State), s.posted = [] → s.dmi = some (false, a, d) →
    ∃ t, exec (.dmiDone f w) s = .next t ∧ t.dmi = none ∧ t.get DBG.DMI_STAT_BUSY = 0 ∧ t.on DBG.DMI_STAT_FAILED = f ∧
      t.get DBG.DMI_RDATA = (if f then s.get DBG.DMI_RDATA else if a = 4 then s.dmod.data0.toNat
        else if a = 5 then s.dmod.data1.toNat else w.toNat)) ∧
  (∀ (w : BitVec 32) (d : Word) (h : Nat) (s : State), s.posted = [] → s.dmi = some (true, 0x10, d) → d.getLsbD 31 = true →
    h = bits d 16 10 + 1024 * bits d 6 10 → h < 8 → h % 2 = 0 → (s.role = roleACTIVE ∨ s.role = roleSTANDBY) →
    ∃ t, exec (.dmiDone false w) s = .next t ∧ t.dmi = none ∧ t.get DBG.DMI_STAT_FAILED = 1 ∧ t.get DBG.DBG_STAT_LAST_REFUSED = 1 ∧
      t.get DBG.DBG_STAT_HALTED = s.get DBG.DBG_STAT_HALTED) ∧
  (∀ (w : BitVec 32) (d : Word) (h : Nat) (s : State), s.posted = [] → s.dmi = some (true, 0x10, d) → d.getLsbD 31 = true →
    h = bits d 16 10 + 1024 * bits d 6 10 → h < 8 → h % 2 = 0 → s.role = roleSINGLE → s.pairSafety (h / 2) = false →
    s.pairLocked (h / 2) = true →
    ∃ t, exec (.dmiDone false w) s = .next t ∧ (t.pair (h / 2)).haltReq = some h ∧ t.get DBG.DMI_STAT_FAILED = 0 ∧
      t.get DBG.DBG_STAT_HALTED = s.get DBG.DBG_STAT_HALTED) ∧
  (∀ (w : BitVec 32) (d : Word) (h : Nat) (s : State), s.posted = [] → s.dmi = some (true, 0x10, d) → d.getLsbD 31 = true →
    h = bits d 16 10 + 1024 * bits d 6 10 → h < 8 → s.role = roleSINGLE → s.pairSafety (h / 2) = false → s.isSplit (h / 2) = true →
    ∃ t, exec (.dmiDone false w) s = .next t ∧ t.bit DBG.DBG_STAT_HALTED h = true ∧ t.get DBG.DMI_STAT_FAILED = 0 ∧
      t.get (SCP.PAIR_STAT_LOCK_BROKEN (h / 2)) = s.get (SCP.PAIR_STAT_LOCK_BROKEN (h / 2))) ∧
  (∀ (p : Fin 4) (k : AgreeKind) (n pc : BitVec 32) (d : BitVec 64) (d1 d4 : Bool) (dt : Nat) (r x : Bool) (h : Nat) (s : State),
    s.pairLocked p.val = true → (s.pair p.val).haltReq = some h → h < 8 →
    ∃ t, exec (.agreementPoint p ⟨k, n⟩ pc d d1 false d4 dt r x) s = .next t ∧ t.bit DBG.DBG_STAT_HALTED h = true ∧
      (t.pair p.val).haltReq = none ∧ t.get (SCP.PAIR_STAT_LOCK_BROKEN p.val) = 1) ∧
  (∀ (m : Master) (s : State), isUser m = false → s.posted = [] → s.guardOf 0x90 = none →
    ∃ t, exec (.dbgAuthSubmit m) s = .next t ∧
      t.dbgAuth = (if s.credLocked 3 = false ∧ s.credProved 3 [] = true then some (s.mono + secs 900) else none) ∧
      mapGet (fun _ => 0) t.chalAt 3 = s.mono) ∧
  (∀ (h : Nat) (s : State), s.dbgAuth = some h →
    ∃ t, exec .dbgAuthTimeout s = .next t ∧ t.dbgAuth = none ∧ h ≤ t.mono)

/-- R264, R268, R270, R271, R273 and R276 to R278: the Gauntlet at work. -/
def Obligations.GauntletVotes : Prop :=
  (∀ (h : List Nat) (j : Nat) (s : State), j < 64 →
    ((s.scanOut h j).on (GNT.OUT_GP j) = (!(s.scanOut h j).on (GNT.OUT_DEMAND j) && !(s.scanOut h j).on (GNT.OUT_LATCHED j) &&
        !(s.scanOut h j).on (GNT.OUT_STEST_BLOCK j) && !s.on SYS.MODULE_STATE_SAFETY_UNCOMMISSIONED && !s.on GNT.GNT_STAT_FAULT)) ∧
      ((s.scanOut h j).on (GNT.OUT_TW j) = ((s.scanOut h j).on (GNT.OUT_GP j) && (s.scanOut h j).on (GNT.OUT_PV j)))) ∧
  (∀ (v : GntTest) (s : State), s.posted = [] → s.gnt.stopped = false → stCONFIG ≤ s.mstate → s.on GNT.GNT_STAT_SCANNING = false →
    s.gnt.tab = [] →
    ∃ t, exec (.gauntletScan v) s = .next t ∧ t.get GNT.SCAN_CNT = s.get GNT.SCAN_CNT ∧ t.gnt.tripNo = s.gnt.tripNo + 1 ∧
      t.sent = s.sent ++ (List.range 16).map (fun b => (Link.trip b, [0x00#8, 0x00#8, 0xFF#8, 0xFF#8, s.gnt.tripNo]))) ∧
  (∀ (p : Nat) (s : State), s.posted = [] → s.gnt.stopped = false → stCONFIG ≤ s.mstate → s.on GNT.GNT_STAT_SCANNING = true →
    ∃ t, exec (.gauntletScan (.vector p)) s = .next t ∧ t.get GNT.SCAN_CNT = (s.get GNT.SCAN_CNT + 1) % 2 ^ 32 ∧
      t.get GNT.SELFTEST_PROGRESS = min p 999 ∧ t.gnt.first = false ∧
      s.gnt.scanAt + 230000 ≤ t.mono ∧ t.gnt.tripNo = s.gnt.tripNo + 1 ∧ t.gnt.tab = s.gnt.tab) ∧
  (∀ s : State, s.posted = [] → s.gnt.stopped = false → stCONFIG ≤ s.mstate → s.on GNT.GNT_STAT_SCANNING = true →
    ∃ t, exec (.gauntletScan .passDone) s = .next t ∧ t.get GNT.SELFTEST_PROGRESS = 0 ∧
      t.get GNT.SELFTEST_PASSES = (s.get GNT.SELFTEST_PASSES + 1) % 2 ^ 16) ∧
  (∀ s : State, s.posted = [] → s.gnt.stopped = false → stCONFIG ≤ s.mstate → s.on GNT.GNT_STAT_SCANNING = true →
    s.on GNT.GNT_STAT_FAULT = false →
    ∃ t, exec (.gauntletScan .wrong) s = .next t ∧ t.on GNT.GNT_STAT_FAULT = true ∧ t.get GNT.GNT_STAT_FAULT_CAUSE = 2) ∧
  (∀ (j : Fin 64) (g : Fin 4) (k since : Nat) (s : State), s.posted = [] → s.gntScans = true →
    s.gnt.discSince.find? (fun e => e.1 == 4 * j.val + g.val) = some (k, since) → s.gnt.discOver.contains (4 * j.val + g.val) = false →
    ∃ t, exec (.discrepancyTimeout j g) s = .next t ∧ t.on (GNT.OUT_DISC j.val) = true ∧
      t.gnt.discOver = s.gnt.discOver ++ [4 * j.val + g.val] ∧
      t.get GNT.GNT_CNT0_DISC_CNT = min (s.get GNT.GNT_CNT0_DISC_CNT + 1) (2 ^ GNT.GNT_CNT0_DISC_CNT.w - 1) ∧
      since + ms (psDisc s.gnt.tab j.val) ≤ t.mono) ∧
  (∀ (i : Fin 128) (since : Nat) (s : State), s.posted = [] → s.gntScans = true → psIsReset s.gnt.tab i.val = true →
    (s.gin i.val).zeroSince = some since →
    ∃ t, exec (.resetArm i) s = .next t ∧ t.on (GNT.IN_RESET_ARMED i.val) = true ∧ t.on (GNT.IN_RESET_FAULT i.val) = false ∧
      since + secs 1 ≤ t.mono) ∧
  (∀ (i : Fin 128) (since : Nat) (s : State), s.posted = [] → s.gntScans = true → (s.gin i.val).pressSince = some since →
    s.on (GNT.IN_RESET_FAULT i.val) = false →
    ∃ t, exec (.resetPressTimeout i) s = .next t ∧ t.on (GNT.IN_RESET_FAULT i.val) = true ∧ t.on (GNT.IN_RESET_ARMED i.val) = false ∧
      (t.gin i.val).pressSince = none ∧
      t.get GNT.GNT_CNT0_RESET_FAULT_CNT = min (s.get GNT.GNT_CNT0_RESET_FAULT_CNT + 1) (2 ^ GNT.GNT_CNT0_RESET_FAULT_CNT.w - 1)) ∧
  (∀ s : State, s.posted = [] → s.gntScans = true → s.on GNT.GNT_STAT_FAULT = false →
    ∃ t, exec (.paramCheck false) s = .next t ∧ t.on GNT.GNT_STAT_FAULT = true ∧ t.get GNT.GNT_STAT_FAULT_CAUSE = 1) ∧
  (∀ s : State, s.posted = [] → s.gntScans = true →
    ∃ t, exec (.paramCheck true) s = .next t ∧ t.get GNT.GNT_STAT_FAULT = s.get GNT.GNT_STAT_FAULT) ∧
  (∀ (k : BitVec 16) (s : State), s.posted = [] → s.mstate ≠ stPOWER_ON → s.gnt.stopped = false → 7680 ≤ k.toNat → k.toNat ≤ 8320 →
    ∃ t, exec (.gntOscWindow k) s = .next t ∧ t.get GNT.OSC_KHZ = k.toNat ∧ t.get GNT.GNT_STAT_FAULT = s.get GNT.GNT_STAT_FAULT) ∧
  (∀ (k : BitVec 16) (s : State), s.posted = [] → s.mstate ≠ stPOWER_ON → s.gnt.stopped = false → (k.toNat < 7680 ∨ 8320 < k.toNat) →
    s.on GNT.GNT_STAT_FAULT = false →
    ∃ t, exec (.gntOscWindow k) s = .next t ∧ t.get GNT.OSC_KHZ = k.toNat ∧ t.on GNT.GNT_STAT_FAULT = true ∧
      t.get GNT.GNT_STAT_FAULT_CAUSE = 3) ∧
  (∀ s : State, s.posted = [] → s.pfw = false → s.mstate ≠ stPOWER_ON →
    ∃ t, exec .gntSupplyFault s = .next t ∧ t.gnt.stopped = true ∧ t.on GNT.GNT_STAT_FAULT = true ∧
      t.get GNT.GNT_STAT_FAULT_CAUSE = 5 ∧ t.bit PSU.RAIL_STAT_FAULTED 6 = true ∧ t.bit PSU.RAIL_STAT_OK 6 = false) ∧
  (∀ s : State, s.posted = [] → s.sends = true → s.schedRun s.safetySeq = true → s.gnt.tab.isEmpty = false →
    ∃ t, exec .voteRepeat s = .next t ∧ t.gnt.sentAt = t.mono ∧ t.gnt.vec = s.gnt.vec ∧ s.gnt.sentAt + ms 1 ≤ t.mono) ∧
  (∀ (since : Nat) (s : State), s.posted = [] → s.gnt.stopped = false → s.gnt.lastVote = some since →
    s.on GNT.VOTE_STAT_HOLDING = false → s.on GNT.VOTE_STAT_EXPIRED = false →
    ∃ t, exec .voteLoss s = .next t ∧ t.on GNT.VOTE_STAT_HOLDING = true ∧ since + ms 2 ≤ t.mono ∧ t.get64 GNT.PV_LO GNT.PV_HI = s.get64 GNT.PV_LO GNT.PV_HI ∧
      t.get GNT.GNT_CNT0_VOTE_LOSS_CNT = min (s.get GNT.GNT_CNT0_VOTE_LOSS_CNT + 1) (2 ^ GNT.GNT_CNT0_VOTE_LOSS_CNT.w - 1)) ∧
  (∀ (since : Nat) (s : State), s.posted = [] → s.gnt.stopped = false → s.gnt.lastVote = some since →
    s.on GNT.VOTE_STAT_HOLDING = true → s.on GNT.VOTE_STAT_EXPIRED = false →
    ∃ t, exec .voteGraceExpiry s = .next t ∧ t.on GNT.VOTE_STAT_HOLDING = false ∧ t.on GNT.VOTE_STAT_EXPIRED = true ∧ since + ms (s.get GNT.VOTE_CFG_GRACE_MS) ≤ t.mono ∧
      t.get64 GNT.PV_LO GNT.PV_HI = 0 ∧
      t.get GNT.GNT_CNT0_GRACE_EXP_CNT = min (s.get GNT.GNT_CNT0_GRACE_EXP_CNT + 1) (2 ^ GNT.GNT_CNT0_GRACE_EXP_CNT.w - 1))

/-- R281, R284, R285, R287 (parameter sets, credentials, switches) and R300 to R308 (the safe channel). -/
def Obligations.SafetySetAndSessions : Prop :=
  (∀ (m : Master) (s : State), isUser m = false → s.posted = [] → s.guardOf 0x07 = none → s.gnt.stopped = false → s.mstate = stCONFIG →
    s.get GNT.PSET_STAT_STATE ≠ 3 → s.bit SYS.SEAL_SW_MODE 1 = false → s.pfw = false → s.get GNT.PSET_LEN ≠ 0 →
    s.get GNT.PSET_SRC % 4096 = 0 → 0x80000000 ≤ s.get GNT.PSET_SRC → s.get GNT.PSET_SRC + s.get GNT.PSET_LEN ≤ 0x100000000 →
    ∃ t, exec (.psetLoad m 1) s = .next t ∧ t.get GNT.PSET_STAT_STATE = 3 ∧ t.gnt = s.gnt ∧ t.resp = .done) ∧
  (∀ (m : Master) (s : State), isUser m = false → s.posted = [] → s.guardOf 0x07 = none → s.gnt.stopped = false → s.mstate ≠ stCONFIG →
    ∃ t, exec (.psetLoad m 1) s = .next t ∧ t.get GNT.PSET_STAT_STATE = s.get GNT.PSET_STAT_STATE ∧ t.gnt = s.gnt ∧
      t.get (HDR.PG_ERR_CNT_LOST 0x07) = min (s.get (HDR.PG_ERR_CNT_LOST 0x07) + 1) 0xFF) ∧
  (∀ (l : List (BitVec 8)) (s : State), s.posted = [] → s.get GNT.PSET_STAT_STATE = 3 →
    l = s.bytes (s.get GNT.PSET_SRC) (s.get GNT.PSET_LEN) →
    ∃ t, exec .psetLoadDone s = .next t ∧ t.get GNT.PSET_STAT_STATE = (if s.psetErr l = 0 then 1 else 2) ∧
      t.get GNT.PSET_STAT_LOAD_ERR = s.psetErr l ∧ t.gnt.tab = s.gnt.tab ∧ (s.psetErr l ≠ 0 → t.gnt = s.gnt) ∧
      (s.psetErr l = 0 → t.gnt.stored = l ∧ t.get GNT.PSET_SIG = (psSig l).toNat ∧ t.on GNT.GNT_STAT_PSET_VALID = true)) ∧
  (∀ (m : Master) (v : BitVec 32) (s : State), isUser m = false → s.posted = [] → s.guardOf 0x07 = none → s.gnt.stopped = false →
    s.get GNT.PSET_STAT_STATE = 1 → s.on GNT.GNT_STAT_SEAL_MISMATCH = false → (s.mstate = stCONFIG ∨ s.mstate = stRUN) →
    s.pfw = false → v.toNat = s.get GNT.PSET_SIG → s.credLocked 1 = false →
    ({ s with resp := .done }.put GNT.CRED_STAT_LAST_PURPOSE 1).credProved 1 (natLE 4 (s.get GNT.PSET_SIG)) = true →
    ∃ t, exec (.commission m v) s = .next t ∧ t.get GNT.COMM_SIG = s.get GNT.PSET_SIG ∧ t.on GNT.GNT_STAT_COMMISSIONED = true ∧
      t.get GNT.CRED_STAT_LAST_FAIL = 0 ∧ t.gnt = { s.gnt with commAt := some s.mono }) ∧
  (∀ (m : Master) (v : BitVec 32) (s : State), isUser m = false → s.posted = [] → s.guardOf 0x07 = none → s.gnt.stopped = false →
    s.get GNT.PSET_STAT_STATE = 1 → s.on GNT.GNT_STAT_SEAL_MISMATCH = false → (s.mstate = stCONFIG ∨ s.mstate = stRUN) →
    s.pfw = false → v.toNat = s.get GNT.PSET_SIG → s.credLocked 1 = false →
    ({ s with resp := .done }.put GNT.CRED_STAT_LAST_PURPOSE 1).credProved 1 (natLE 4 (s.get GNT.PSET_SIG)) = false →
    ∃ t, exec (.commission m v) s = .next t ∧ t.get GNT.COMM_SIG = s.get GNT.COMM_SIG ∧ t.get GNT.CRED_STAT_LAST_FAIL = 1 ∧
      t.get (HDR.PG_ERR_ADDR_CAUSE 0x07) = 4 ∧ t.gnt = s.gnt) ∧
  (∀ (m : Master) (v : BitVec 32) (s : State), isUser m = false → s.posted = [] → s.guardOf 0x07 = none → s.gnt.stopped = false →
    1 ≤ v.toNat → v.toNat ≤ 5 → s.pfw = false → s.credLocked (0x10 + v.toNat) = false →
    ({ s with resp := .done }.put GNT.CRED_STAT_LAST_PURPOSE (0x10 + v.toNat)).credProved (0x10 + v.toNat) (s.words8 GNT.CRED_NEW) = true →
    ∃ t, exec (.credChange m v) s = .next t ∧ mapGet (fun _ => 0) t.creds v.toNat = BitVec.ofNat 256 (leNat (s.words8 GNT.CRED_NEW)) ∧
      t.get GNT.CRED_STAT_LAST_FAIL = 0 ∧ t.gnt = s.gnt) ∧
  (∀ (m : Master) (v : BitVec 32) (s : State), isUser m = false → s.posted = [] → s.guardOf 0x07 = none → s.gnt.stopped = false →
    (v.toNat = 0 ∨ 5 < v.toNat) →
    ∃ t, exec (.credChange m v) s = .next t ∧ t.creds = s.creds ∧ t.get (HDR.PG_ERR_ADDR_CAUSE 0x07) = 7) ∧
  (∀ (p : Fin 32) (s : State), s.posted = [] →
    ∃ t, exec (.credLockoutExpiry p) s = .next t ∧ t.credLocked p.val = false ∧ t.creds = s.creds) ∧
  (∀ (a : BitVec 8) (c l : Bool) (s : State), s.posted = [] → s.mstate ≠ stPOWER_ON →
    (a.toNat ≠ s.get SYS.SEAL_SW_SAFETY_ADDR ∨ b2n c + 2 * b2n l ≠ s.get SYS.SEAL_SW_MODE) →
    ∃ t, exec (.sealSwitchChange a c l) s = .next t ∧ t.get GNT.SEAL_LIVE_SAFETY_ADDR = a.toNat ∧
      t.get GNT.SEAL_LIVE_MODE = b2n c + 2 * b2n l ∧ t.on GNT.GNT_STAT_SEAL_CHANGED = true ∧
      t.get SYS.SEAL_SW_SAFETY_ADDR = s.get SYS.SEAL_SW_SAFETY_ADDR) ∧
  (∀ (e : Fin 64) (s : State), s.posted = [] → e.val ≠ 0 → s.isVote e.val = false → s.maySend e.val = true →
    (s.sessOf e.val).sending = true →
    ∃ t, exec (.sscRepeat e) s = .next t ∧ t.get (SSE.SESS_SEQ e.val) = nextSeq (s.get (SSE.SESS_SEQ e.val)) ∧
      t.get (SSE.SESS_STAT_STATE e.val) = 1 ∧ (t.sessOf e.val).lastSend = t.mono ∧
      (s.sessOf e.val).lastSend + ms (s.sessRepeat e.val) ≤ t.mono) ∧
  (∀ (e : Fin 64) (f : List (BitVec 8)) (a : BitVec 32) (s : State), s.posted = [] → e.val ≠ 0 → s.enabled 0x06 = true →
    s.on (SSE.SESS_CFG_EN e.val) = true → s.on (SSE.SESS_CFG_DIR e.val) = false → s.get (SSE.SESS_STAT_STATE e.val) = 2 →
    s.mono < (s.sessOf e.val).wdogAt → frameEntry f = e.val → f.length < s.sessLen e.val + 14 →
    ∃ t, exec (.sscFrame e f a) s = .next t ∧ t.get (SSE.SESS_STAT_STATE e.val) = 3 ∧ t.get (SSE.SESS_STAT_LAST_CAUSE e.val) = 5 ∧
      t.get (SSE.SESS_CNT0_FORMAT_ERR_CNT e.val) =
        min (s.get (SSE.SESS_CNT0_FORMAT_ERR_CNT e.val) + 1) (2 ^ (SSE.SESS_CNT0_FORMAT_ERR_CNT e.val).w - 1)) ∧
  (∀ (e : Fin 64) (f : List (BitVec 8)) (a : BitVec 32) (s : State), s.posted = [] → e.val ≠ 0 → s.enabled 0x06 = true →
    s.on (SSE.SESS_CFG_EN e.val) = false → s.get (SSE.SESS_STAT_STATE e.val) = 0 → frameEntry f = e.val →
    ∃ t, exec (.sscFrame e f a) s = .next t ∧ t.get SSE.UNKNOWN_CNT = min (s.get SSE.UNKNOWN_CNT + 1) (2 ^ SSE.UNKNOWN_CNT.w - 1) ∧
      t.sig = s.sig) ∧
  (∀ (e : Fin 64) (s : State), s.posted = [] → s.enabled 0x06 = true → s.on (SSE.SESS_CFG_EN e.val) = true →
    s.get (SSE.SESS_STAT_STATE e.val) = 2 →
    ∃ t, exec (.sscWatchdog e) s = .next t ∧ t.get (SSE.SESS_STAT_STATE e.val) = 3 ∧ t.get (SSE.SESS_STAT_LAST_CAUSE e.val) = 4 ∧
      t.get (SSE.SESS_STAT_GOOD_RUN e.val) = 0 ∧ (s.sessOf e.val).wdogAt ≤ t.mono ∧
      t.get (SSE.SESS_CNT1_WDOG_CNT e.val) = min (s.get (SSE.SESS_CNT1_WDOG_CNT e.val) + 1) (2 ^ (SSE.SESS_CNT1_WDOG_CNT e.val).w - 1)) ∧
  (∀ (m : Master) (e : Nat) (s : State), isUser m = false → s.posted = [] → s.guardOf 0x06 = none → e = s.get SSE.SESS_SEL →
    s.get (SSE.SESS_STAT_STATE e) = 3 → s.sessMode e = 1 → s.sessRestartN e ≤ s.get (SSE.SESS_STAT_GOOD_RUN e) →
    ∃ t, exec (.sessAck m 1) s = .next t ∧ t.get (SSE.SESS_STAT_STATE e) = 2 ∧ t.sig = s.sig ∧ t.resp = .done) ∧
  (∀ (m : Master) (e : Nat) (s : State), isUser m = false → s.posted = [] → s.guardOf 0x06 = none → e = s.get SSE.SESS_SEL →
    (s.get (SSE.SESS_STAT_STATE e) ≠ 3 ∨ s.sessMode e ≠ 1 ∨ s.get (SSE.SESS_STAT_GOOD_RUN e) < s.sessRestartN e) →
    ∃ t, exec (.sessAck m 1) s = .next t ∧ t.get (SSE.SESS_STAT_STATE e) = s.get (SSE.SESS_STAT_STATE e) ∧
      t.get (HDR.PG_ERR_CNT_LOST 0x06) = min (s.get (HDR.PG_ERR_CNT_LOST 0x06) + 1) 0xFF) ∧
  (∀ (m : Master) (v : BitVec 32) (e : Nat) (s : State), isUser m = false → s.posted = [] → s.guardOf 0x06 = none → e = s.get SSE.SESS_SEL →
    s.on (SSE.SESS_CFG_EN e) = false → s.on (SSE.SESS_CFG_DIR e) = true → v = s.rd (rkey 0x06 e 0x084) ||| 1 →
    s.voteInSet e = false → s.sessFits e = true →
    ∃ t, exec (.sessEnable m v) s = .next t ∧ t.on (SSE.SESS_CFG_EN e) = true ∧ t.get (SSE.SESS_STAT_STATE e) = 1 ∧
      t.get (SSE.SESS_SEQ e) = 0 ∧ t.resp = .done) ∧
  (∀ (m : Master) (v : BitVec 32) (e : Nat) (s : State), isUser m = false → s.posted = [] → s.guardOf 0x06 = none → e = s.get SSE.SESS_SEL →
    s.on (SSE.SESS_CFG_EN e) = false → s.on (SSE.SESS_CFG_DIR e) = false → v = s.rd (rkey 0x06 e 0x084) ||| 1 →
    s.voteInSet e = false → s.sessFits e = true → (s.sessOut e).any (fun n => s.otherProducer n 3 e) = false →
    ∃ t, exec (.sessEnable m v) s = .next t ∧ t.on (SSE.SESS_CFG_EN e) = true ∧ t.get (SSE.SESS_STAT_STATE e) = 3 ∧
      t.get (SSE.SESS_STAT_LAST_CAUSE e) = 0 ∧ t.resp = .done) ∧
  (∀ (m : Master) (v : BitVec 32) (e : Nat) (s : State), isUser m = false → s.posted = [] → s.guardOf 0x06 = none → e = s.get SSE.SESS_SEL →
    s.on (SSE.SESS_CFG_EN e) = true → v = s.rd (rkey 0x06 e 0x084) &&& ~~~1 → s.voteRuns e = false →
    ∃ t, exec (.sessDisable m v) s = .next t ∧ t.on (SSE.SESS_CFG_EN e) = false ∧ t.get (SSE.SESS_STAT_STATE e) = 0 ∧
      t.sessOf e = Sess.blank) ∧
  (∀ (m : Master) (v : BitVec 32) (e : Nat) (s : State), isUser m = false → s.posted = [] → s.guardOf 0x06 = none → e = s.get SSE.SESS_SEL →
    s.on (SSE.SESS_CFG_EN e) = true → v = s.rd (rkey 0x06 e 0x084) &&& ~~~1 → s.voteRuns e = true →
    ∃ t, exec (.sessDisable m v) s = .next t ∧ t.on (SSE.SESS_CFG_EN e) = true ∧
      t.get (HDR.PG_ERR_CNT_LOST 0x06) = min (s.get (HDR.PG_ERR_CNT_LOST 0x06) + 1) 0xFF)

/-- R311 to R322 and R327: rings and Ethernet ports. -/
def Obligations.RingsAndEthernet : Prop :=
  (∀ (m : Master) (v : BitVec 32) (r : Nat) (s : State), isUser m = false → s.posted = [] → s.guardOf 0x0A = none → r = s.get QMG.RING_SEL →
    s.get (QMG.RING_EP_PROD_CLASS r) = epSoft → s.get (QMG.RING_CFG_MASTER r) = s.masterNo m →
    (bits v 0 16 + 65536 - s.get (QMG.RING_CONS_CONS_IDX r)) % 65536 ≤ s.ringSize r →
    ∃ t, exec (.ringProdWrite m v) s = .next t ∧ t.get (QMG.RING_PROD_PROD_IDX r) = bits v 0 16 ∧
      t.get (QMG.RING_CONS_CONS_IDX r) = s.get (QMG.RING_CONS_CONS_IDX r) ∧ t.mem = s.mem ∧ t.resp = .done) ∧
  (∀ (m : Master) (v : BitVec 32) (r : Nat) (s : State), isUser m = false → s.posted = [] → s.guardOf 0x0A = none → r = s.get QMG.RING_SEL →
    s.get (QMG.RING_EP_PROD_CLASS r) = epSoft → s.get (QMG.RING_CFG_MASTER r) = s.masterNo m →
    s.ringSize r < (bits v 0 16 + 65536 - s.get (QMG.RING_CONS_CONS_IDX r)) % 65536 → bits v 0 16 ≠ s.get (QMG.RING_PROD_PROD_IDX r) →
    ∃ t, exec (.ringProdWrite m v) s = .next t ∧ t.get (QMG.RING_PROD_PROD_IDX r) = s.get (QMG.RING_PROD_PROD_IDX r) ∧
      t.get (HDR.PG_ERR_ADDR_CAUSE 0x0A) = 7) ∧
  (∀ (m : Master) (v : BitVec 32) (r : Nat) (s : State), isUser m = false → s.posted = [] → s.guardOf 0x0A = none → r = s.get QMG.RING_SEL →
    s.get (QMG.RING_EP_CONS_CLASS r) = epSoft → s.get (QMG.RING_CFG_MASTER r) = s.masterNo m →
    (s.get (QMG.RING_PROD_PROD_IDX r) + 65536 - bits v 0 16) % 65536 ≤ s.ringSize r →
    ∃ t, exec (.ringConsWrite m v) s = .next t ∧ t.get (QMG.RING_CONS_CONS_IDX r) = bits v 0 16 ∧
      t.get (QMG.RING_PROD_PROD_IDX r) = s.get (QMG.RING_PROD_PROD_IDX r) ∧ t.mem = s.mem ∧ t.resp = .done) ∧
  (∀ (m : Master) (v : BitVec 32) (r : Nat) (s : State), isUser m = false → s.posted = [] → s.guardOf 0x0A = none → r = s.get QMG.RING_SEL →
    s.on (QMG.RING_CFG_EN r) = false → v = s.rd (rkey 0x0A r 0x050) ||| 1 → s.ringEnOk r = true →
    ∃ t, exec (.ringEnable m v) s = .next t ∧ t.on (QMG.RING_CFG_EN r) = true ∧ t.mem = s.mem ∧ t.resp = .done) ∧
  (∀ (m : Master) (v : BitVec 32) (r : Nat) (s : State), isUser m = false → s.posted = [] → s.guardOf 0x0A = none → r = s.get QMG.RING_SEL →
    s.on (QMG.RING_CFG_EN r) = false → v = s.rd (rkey 0x0A r 0x050) ||| 1 → s.ringEnOk r = false →
    ∃ t, exec (.ringEnable m v) s = .next t ∧ t.on (QMG.RING_CFG_EN r) = false ∧ t.get (HDR.PG_ERR_ADDR_CAUSE 0x0A) = 7) ∧
  (∀ (m : Master) (v : BitVec 32) (r : Nat) (s : State), isUser m = false → s.posted = [] → s.guardOf 0x0A = none → r = s.get QMG.RING_SEL →
    s.on (QMG.RING_CFG_EN r) = true → v = s.rd (rkey 0x0A r 0x050) &&& ~~~1 → s.get (QMG.RING_EP_CONS_CLASS r) ≠ epSoft →
    s.get (QMG.RING_EP_CONS_CLASS r) ≠ epCan →
    ∃ t, exec (.ringDisable m v) s = .next t ∧ t.on (QMG.RING_CFG_EN r) = false ∧
      t.get (QMG.RING_CONS_CONS_IDX r) = s.get (QMG.RING_PROD_PROD_IDX r) ∧
      t.get (QMG.RING_STAT_ABORT_IDX r) = s.get (QMG.RING_CONS_CONS_IDX r) ∧ t.resp = .done) ∧
  (∀ (r : Fin 64) (s : State), s.posted = [] → s.ringOn r.val = true → s.get (QMG.RING_EP_CONS_CLASS r.val) = epSoft →
    s.ringFill r.val ≠ 0 → s.get (QMG.RING_IRQ_HOLDOFF_US r.val) ≠ 0 →
    ∃ t, exec (.ringHoldoff r) s = .next t ∧ t.swWork r.val = true ∧ t.ringFill r.val = s.ringFill r.val) ∧
  (∀ (p : Fin 12) (f : List (BitVec 8)) (a : BitVec 32) (s : State), s.posted = [] → s.linksLive = true →
    s.enabled (0x40 + s.ethPage p.val) = true → s.linkUp p.val = true →
    ∃ t, exec (.ethRxFrame p f false a) s = .next t ∧ t.mem = s.mem ∧ t.sig = s.sig ∧
      t.get (ETH.RX_CNT_RX_ERR_CNT (s.ethPage p.val)) =
        min (s.get (ETH.RX_CNT_RX_ERR_CNT (s.ethPage p.val)) + 1) (2 ^ (ETH.RX_CNT_RX_ERR_CNT (s.ethPage p.val)).w - 1)) ∧
  (∀ (p : Fin 12) (f : List (BitVec 8)) (r : Nat) (a : BitVec 32) (s : State), s.posted = [] → p.val < 8 → s.linksLive = true →
    s.enabled (0x40 + p.val) = true → s.linkUp p.val = true → s.inPrp p.val = false → 60 ≤ f.length → f.length ≤ 1518 →
    s.dstOk p.val (ethDst f) = true → ptpAt f = none → isUdp f = false → r = s.get (ETH.RX_RING_DEFAULT_RING p.val) →
    r ≠ 63 → s.isRxRing p.val r = true → s.ringCredit r ≠ 0 → f.length ≤ s.bufSize r →
    ∃ t, exec (.ethRxFrame p f true a) s = .next t ∧
      t.get (ETH.RX_FRAMES p.val) = (s.get (ETH.RX_FRAMES p.val) + 1) % 2 ^ 32 ∧
      t.get (QMG.RING_PROD_PROD_IDX r) = (s.get (QMG.RING_PROD_PROD_IDX r) + 1) % 65536 ∧
      (t.desc r (s.get (QMG.RING_PROD_PROD_IDX r))).len = f.length) ∧
  (∀ (p : Fin 12) (r : Nat) (d : Desc) (s : State), s.posted = [] → s.linksLive = true → s.enabled (0x40 + p.val) = true →
    s.prpOdd p.val = false → (s.eth p.val).hand = none → (s.eth p.val).q = [] → s.pickRing p.val = some r →
    d = s.desc r (s.get (QMG.RING_CONS_CONS_IDX r)) → 14 ≤ d.len → d.len ≤ 1518 → bufOk d.buf d.len = true →
    s.linkUp p.val = true → s.badPrpSel p.val d = false →
    ∃ t, exec (.ethTransmit p) s = .next t ∧ (t.eth p.val).hand = some (some r) ∧ t.mem = s.mem ∧
      t.get (QMG.RING_CONS_CONS_IDX r) = s.get (QMG.RING_CONS_CONS_IDX r)) ∧
  (∀ (p : Fin 12) (r : Nat) (d : Desc) (s : State), s.posted = [] → s.linksLive = true → s.enabled (0x40 + p.val) = true →
    s.prpOdd p.val = false → (s.eth p.val).hand = none → (s.eth p.val).q = [] → s.pickRing p.val = some r →
    d = s.desc r (s.get (QMG.RING_CONS_CONS_IDX r)) → 14 ≤ d.len → d.len ≤ 1518 → bufOk d.buf d.len = true →
    s.linkUp p.val = false →
    ∃ t, exec (.ethTransmit p) s = .next t ∧ (t.eth p.val).hand = none ∧
      (t.desc r (s.get (QMG.RING_CONS_CONS_IDX r))).status = 2 ∧
      t.get (QMG.RING_CONS_CONS_IDX r) = (s.get (QMG.RING_CONS_CONS_IDX r) + 1) % 65536) ∧
  (∀ (p : Fin 12) (a a2 : BitVec 32) (r : Nat) (d : Desc) (s : State), s.posted = [] → s.linksLive = true → s.linkUp p.val = true →
    s.enabled (0x40 + p.val) = true → (s.eth p.val).hand = some (some r) → s.ringHead r = some d → s.inPrp p.val = false →
    s.oneStep p.val (s.wireFrame p.val (s.bytes d.buf d.len)) = false →
    ∃ t, exec (.ethTxDone p ⟨a, a2⟩) s = .next t ∧ (t.eth p.val).hand = none ∧
      t.sent = s.sent ++ [(Link.eth p.val, s.wireFrame p.val (s.bytes d.buf d.len))] ∧
      t.get (ETH.TX_FRAMES p.val) = (s.get (ETH.TX_FRAMES p.val) + 1) % 2 ^ 32 ∧
      t.get (QMG.RING_CONS_CONS_IDX r) = (s.get (QMG.RING_CONS_CONS_IDX r) + 1) % 65536) ∧
  (∀ (p : Fin 12) (s : State), s.posted = [] → s.linkUp p.val = true → s.inPrp p.val = false →
    ∃ t, exec (.linkDown p) s = .next t ∧ t.linkUp p.val = false ∧
      t.get (ETH.RX_CNT_LINK_DOWN_CNT (s.ethPage p.val)) =
        min (s.get (ETH.RX_CNT_LINK_DOWN_CNT (s.ethPage p.val)) + 1) (2 ^ (ETH.RX_CNT_LINK_DOWN_CNT (s.ethPage p.val)).w - 1) ∧ (t.eth p.val).hand = none ∧ (t.eth p.val).q = []) ∧
  (∀ (p : Fin 12) (a : BitVec 2) (s : State), s.posted = [] → p.val < 8 → s.linksLive = true → s.enabled (0x40 + s.ethPage p.val) = true →
    ∃ t, exec (.linkUp p a) s = .next t ∧ t.linkUp p.val = true ∧ t.get (ETH.PORT_STAT_SPEED_ACT p.val) = a.toNat) ∧
  (∀ (p : Fin 12) (a : BitVec 2) (s : State), s.posted = [] → 8 ≤ p.val → p.val < 10 → s.dev.sfpBad.getLsbD (p.val - 8) = true →
    ∃ t, exec (.linkUp p a) s = .next t ∧ t.linkUp p.val = s.linkUp p.val) ∧
  (∀ (m : Master) (p : Fin 12) (v : BitVec 32) (s : State), isUser m = false → s.posted = [] → p.val < 8 → s.inPrp p.val = false →
    s.guardOf (0x40 + p.val) = none → bits v 2 30 = bits (s.rd (rkey (0x40 + p.val) 0 0x040)) 2 30 → bits v 0 2 ≤ 2 →
    bits v 0 2 ≠ s.get (ETH.PORT_CFG_SPEED p.val) →
    ∃ t, exec (.portSpeedWrite m p v) s = .next t ∧ t.get (ETH.PORT_CFG_SPEED p.val) = bits v 0 2 ∧ t.linkUp p.val = false ∧
      (t.eth p.val).hand = none ∧ (t.eth p.val).q = []) ∧
  (∀ (p : Fin 12) (s : State), s.posted = [] → s.linksLive = true → s.inPrp p.val = true → p.val % 2 = 0 →
    s.enabled (0x40 + p.val) = true →
    ∃ t, exec (.prpSupervision p) s = .next t ∧ (t.eth p.val).supSent = t.mono ∧ (s.eth p.val).supSent + secs 2 ≤ t.mono ∧
      (t.eth p.val).prpSeq = ((s.eth p.val).prpSeq + 1) % 65536 ∧ 
      t.sent.length = s.sent.length + b2n (s.linkUp p.val) + b2n (s.linkUp (p.val + 1)) ∧
      t.get (ETH.TX_FRAMES p.val) = (s.get (ETH.TX_FRAMES p.val) + 1) % 2 ^ 32) ∧
  (∀ (k : Fin 2) (s : State), s.posted = [] →
    ∃ t, exec (.sfpModuleInsertion k true false) s = .next t ∧ t.linkUp (8 + k.val) = false ∧
      t.on (ETH.PORT_STAT_MOD_PRESENT (8 + k.val)) = true ∧ t.dev.sfpBad.getLsbD k.val = true) ∧
  (∀ (k : Fin 2) (s : State), s.posted = [] →
    ∃ t, exec (.sfpModuleInsertion k true true) s = .next t ∧ t.linkUp (8 + k.val) = s.linkUp (8 + k.val) ∧
      t.on (ETH.PORT_STAT_MOD_PRESENT (8 + k.val)) = true ∧ t.dev.sfpBad.getLsbD k.val = false)

/-- R324 to R327: the serial ports. -/
def Obligations.SerialPorts : Prop :=
  (∀ (n : Fin 32) (d : Desc) (s : State), s.posted = [] → s.serLive n.val = true → s.serMode n.val ≠ 3 →
    s.ser n.val = SerPort.blank → s.serHead n.val = some d → bufOk d.buf d.len = true →
    ∃ t, exec (.serTransmit n) s = .next t ∧ t.sent = s.sent ++ [(Link.ser n.val, s.serLine n.val d)] ∧
      (t.ser n.val).hand = some (s.stamp, s.stepPar) ∧ t.mem = s.mem) ∧
  (∀ (n : Fin 32) (d : Desc) (s : State), s.posted = [] → s.serLive n.val = true → s.serMode n.val = 3 →
    s.ser n.val = SerPort.blank → s.serHead n.val = some d → bufOk d.buf d.len = true →
    ∃ t, exec (.modbusRequest n) s = .next t ∧ (t.ser n.val).hand = some (s.stamp, s.stepPar) ∧ t.mem = s.mem ∧
      t.sent = s.sent ++ [(Link.ser n.val, s.bytes d.buf d.len ++ natLE 2 (crc16modbus (s.bytes d.buf d.len)).toNat)]) ∧
  (∀ (n : Fin 32) (st : Stamp) (d : Desc) (s : State), s.posted = [] → s.serLive n.val = true → s.serMode n.val ≠ 3 →
    (s.ser n.val).hand = some st → s.serHead n.val = some d →
    ∃ t, exec (.serTxEnd n) s = .next t ∧ (t.ser n.val).hand = none ∧
      t.get (QMG.RING_CONS_CONS_IDX (s.serTx n.val)) = (s.get (QMG.RING_CONS_CONS_IDX (s.serTx n.val)) + 1) % 65536) ∧
  (∀ (n : Fin 32) (st : Stamp) (d : Desc) (s : State), s.posted = [] → s.serLive n.val = true → s.serMode n.val = 3 →
    (s.ser n.val).hand = some st → s.serHead n.val = some d →
    ∃ t, exec (.serTxEnd n) s = .next t ∧ (t.ser n.val).hand = none ∧
      ((t.ser n.val).await = some (d.tag, s.mono) ∨ (t.ser n.val).turn = some s.mono) ∧
      t.get (QMG.RING_CONS_CONS_IDX (s.serTx n.val)) = s.get (QMG.RING_CONS_CONS_IDX (s.serTx n.val))) ∧
  (∀ (n : Fin 32) (l : List (BitVec 8)) (a : BitVec 32) (r : Nat) (s : State), s.posted = [] → s.serHears n.val = true →
    s.serMode n.val = 1 → r = s.serRx n.val → s.isSerRx n.val r = true → s.ringCredit r ≠ 0 →
    ∃ t, exec (.serRecordClose n l false false false a) s = .next t ∧
      t.get (SER.SER_RECORDS n.val) = (s.get (SER.SER_RECORDS n.val) + 1) % 2 ^ 32 ∧
      t.get (QMG.RING_PROD_PROD_IDX r) = (s.get (QMG.RING_PROD_PROD_IDX r) + 1) % 65536) ∧
  (∀ (n : Fin 32) (l : List (BitVec 8)) (p f b : Bool) (a : BitVec 32) (r : Nat) (s : State), s.posted = [] →
    s.serHears n.val = true → s.serMode n.val = 1 → r = s.serRx n.val → s.isSerRx n.val r = true → s.ringCredit r ≠ 0 →
    ∃ t, exec (.serGapTimeout n l p f b a) s = .next t ∧
      t.get (SER.SER_RECORDS n.val) = (s.get (SER.SER_RECORDS n.val) + 1) % 2 ^ 32 ∧
      t.get (SER.SER_CNT0_PARITY_CNT n.val) = min (s.get (SER.SER_CNT0_PARITY_CNT n.val) + b2n p) 0xFF ∧
      t.get (SER.SER_CNT0_FRAMING_CNT n.val) = min (s.get (SER.SER_CNT0_FRAMING_CNT n.val) + b2n f) 0xFF ∧
      t.get (SER.SER_CNT1_BREAK_CNT n.val) = min (s.get (SER.SER_CNT1_BREAK_CNT n.val) + b2n b) 0xFF) ∧
  (∀ (n : Fin 32) (l : List (BitVec 8)) (p f b g : Bool) (a : BitVec 32) (s : State), s.posted = [] → s.serHears n.val = true →
    s.serMode n.val = 4 → l.isEmpty = false → (l.headD 0).toNat ≠ s.get (SER.SER_MB_SLAVE_ADDR n.val) → (l.headD 0).toNat ≠ 0 →
    ∃ t, exec (.modbusFrameEnd n l p f b g a) s = .next t ∧ t.mem = s.mem ∧
      t.get (SER.SER_CNT1_ADDR_DISC_CNT n.val) =
        min (s.get (SER.SER_CNT1_ADDR_DISC_CNT n.val) + 1) (2 ^ (SER.SER_CNT1_ADDR_DISC_CNT n.val).w - 1)) ∧
  (∀ (n : Fin 32) (l : List (BitVec 8)) (p f b g : Bool) (a : BitVec 32) (r : Nat) (s : State), s.posted = [] → s.serHears n.val = true →
    s.serMode n.val = 4 → l.isEmpty = false → (l.headD 0).toNat = s.get (SER.SER_MB_SLAVE_ADDR n.val) → r = s.serRx n.val →
    s.isSerRx n.val r = true → s.ringCredit r ≠ 0 → l.length - 2 ≤ s.bufSize r →
    ∃ t, exec (.modbusFrameEnd n l p f b g a) s = .next t ∧
      t.get (SER.SER_RECORDS n.val) = (s.get (SER.SER_RECORDS n.val) + 1) % 2 ^ 32 ∧
      t.get (SER.SER_CNT0_CHECK_CNT n.val) = min (s.get (SER.SER_CNT0_CHECK_CNT n.val) + b2n (!modbusCheck l)) 0xFF) ∧
  (∀ (n : Fin 32) (l : List (BitVec 8)) (tag since : Nat) (p f b g : Bool) (a : BitVec 32) (s : State), s.posted = [] →
    s.serHears n.val = true → s.serMode n.val = 3 → l.isEmpty = false → (s.ser n.val).await = some (tag, since) →
    ∃ t, exec (.modbusFrameEnd n l p f b g a) s = .next t ∧ t.ser n.val = SerPort.blank ∧
      t.get (QMG.RING_CONS_CONS_IDX (s.serTx n.val)) = (s.get (QMG.RING_CONS_CONS_IDX (s.serTx n.val)) + 1) % 65536) ∧
  (∀ (n : Fin 32) (tag since : Nat) (s : State), s.posted = [] → s.serLive n.val = true → (s.ser n.val).await = some (tag, since) →
    ∃ t, exec (.modbusRespTimeout n) s = .next t ∧ t.ser n.val = SerPort.blank ∧
      since + ms (s.get (SER.SER_TIMING_RESP_TIMEOUT_MS n.val)) ≤ t.mono ∧
      t.get (SER.SER_CNT1_TIMEOUT_CNT n.val) =
        min (s.get (SER.SER_CNT1_TIMEOUT_CNT n.val) + 1) (2 ^ (SER.SER_CNT1_TIMEOUT_CNT n.val).w - 1) ∧
      t.get (QMG.RING_CONS_CONS_IDX (s.serTx n.val)) = (s.get (QMG.RING_CONS_CONS_IDX (s.serTx n.val)) + 1) % 65536) ∧
  (∀ (n : Fin 32) (since : Nat) (s : State), s.posted = [] → s.serLive n.val = true → (s.ser n.val).turn = some since →
    ∃ t, exec (.modbusTurnaround n) s = .next t ∧ t.ser n.val = SerPort.blank ∧ t.mem = s.mem ∧
      since + ms (s.get (SER.SER_TIMING_TURNAROUND_MS n.val)) ≤ t.mono ∧
      t.get (QMG.RING_CONS_CONS_IDX (s.serTx n.val)) = (s.get (QMG.RING_CONS_CONS_IDX (s.serTx n.val)) + 1) % 65536) ∧
  (∀ (m : Master) (n : Fin 32) (v : BitVec 32) (s : State), isUser m = false → s.posted = [] → s.guardOf (0x64 + n.val) = none → s.serMode n.val ≠ 0 →
    v = s.rd (rkey (0x64 + n.val) 0 0x040) &&& ~~~7 →
    ∃ t, exec (.serModeOff m n v) s = .next t ∧ t.serMode n.val = 0 ∧ (t.ser n.val).hand = none ∧ (t.ser n.val).await = none ∧
      (t.ser n.val).turn = none)

/-- R331 to R343: the CAN FD controllers. -/
def Obligations.CanController : Prop :=
  (∀ (n : Fin 20) (r b : Nat) (d : Desc) (s : State), s.posted = [] → r = s.canTx n.val → r ≠ 63 → s.ringOn r = true →
    s.enabled (0x50 + n.val) = true → s.get (QMG.RING_EP_CONS_CLASS r) = epCan → s.get (QMG.RING_EP_CONS_INST r) = n.val →
    (s.can n.val).flight = [] → s.ringFill r ≠ 0 → (s.can n.val).freeTxb = some b →
    d = s.desc r (s.get (QMG.RING_CONS_CONS_IDX r)) → bufOk d.buf d.len = true →
    s.fetchEnd n.val d (BitVec.ofNat 32 (s.mem32 d.buf)) (BitVec.ofNat 32 (s.mem32 (d.buf + 4)))
      (sx 32 ((d.stamp + 2 ^ 32 - s.stamp) % 2 ^ 32)) = none →
    ∃ t, exec (.canFetch n) s = .next t ∧ ((t.can n.val).buf b).isSome = true ∧
      (t.can n.val).flight = [(s.get (QMG.RING_CONS_CONS_IDX r), false)] ∧ t.mem = s.mem ∧
      t.get (QMG.RING_CONS_CONS_IDX r) = s.get (QMG.RING_CONS_CONS_IDX r)) ∧
  (∀ (n : Fin 20) (r b st : Nat) (d : Desc) (s : State), s.posted = [] → r = s.canTx n.val → r ≠ 63 → s.ringOn r = true →
    s.enabled (0x50 + n.val) = true → s.get (QMG.RING_EP_CONS_CLASS r) = epCan → s.get (QMG.RING_EP_CONS_INST r) = n.val →
    (s.can n.val).flight = [] → s.ringFill r ≠ 0 → (s.can n.val).freeTxb = some b →
    d = s.desc r (s.get (QMG.RING_CONS_CONS_IDX r)) → bufOk d.buf d.len = true →
    s.fetchEnd n.val d (BitVec.ofNat 32 (s.mem32 d.buf)) (BitVec.ofNat 32 (s.mem32 (d.buf + 4)))
      (sx 32 ((d.stamp + 2 ^ 32 - s.stamp) % 2 ^ 32)) = some st →
    ∃ t, exec (.canFetch n) s = .next t ∧ (t.can n.val).flight = [] ∧
      (t.desc r (s.get (QMG.RING_CONS_CONS_IDX r))).status = st ∧
      t.get (QMG.RING_CONS_CONS_IDX r) = (s.get (QMG.RING_CONS_CONS_IDX r) + 1) % 65536) ∧
  (∀ (n : Fin 20) (b : Nat) (x : TxBuf) (s : State), s.posted = [] → s.canSends n.val = true → (s.can n.val).onBus = none →
    (s.can n.val).sseQ = [] →
    ((s.can n.val).bufs.filter (fun e => s.eligible n.val e.2)).foldl betterBuf none = some (b, x) →
    ∃ t, exec (.canSof n) s = .next t ∧
      (t.can n.val).buf b = some { x with st := 3, sof := s.stamp, sofPar := s.stepPar, tries := x.tries + 1 } ∧
      t.on (CAN.CAN_STAT_BUS_IDLE n.val) = false ∧ t.on (CAN.CAN_STAT_SYNCED n.val) = true) ∧
  (∀ (n : Fin 20) (b : Nat) (x : TxBuf) (s : State), s.posted = [] → (s.can n.val).onBus = some (b, x) →
    ∃ t, exec (.canTxEnd n) s = .next t ∧ (t.can n.val).buf b = none ∧
      t.get (CAN.TX_FRAMES n.val) = (s.get (CAN.TX_FRAMES n.val) + 1) % 2 ^ 32 ∧
      t.get (CAN.CAN_STAT_TEC n.val) = s.get (CAN.CAN_STAT_TEC n.val) - 1) ∧
  (∀ (n : Fin 20) (b : Nat) (x : TxBuf) (s : State), s.posted = [] → (s.can n.val).onBus = some (b, x) → x.st = 3 → x.oneShot = false →
    ∃ t, exec (.canArbLost n) s = .next t ∧ (t.can n.val).buf b = some { x with st := 2 } ∧ t.mem = s.mem) ∧
  (∀ (n : Fin 20) (b : Nat) (x : TxBuf) (s : State), s.posted = [] → (s.can n.val).onBus = some (b, x) → x.st = 3 → x.oneShot = true →
    ∃ t, exec (.canArbLost n) s = .next t ∧ (t.can n.val).buf b = none) ∧
  (∀ (n : Fin 20) (c : Fin 8) (te : BitVec 16) (re : BitVec 8) (s : State), s.posted = [] → 1 ≤ c.val → c.val ≤ 6 →
    (s.can n.val).mode ≠ 0 → s.enabled (0x50 + n.val) = true → s.get (CAN.CAN_STAT_ERR_STATE n.val) ≠ 2 → s.detecting n.val = false →
    te.toNat ≤ 127 → re.toNat ≤ 127 →
    ∃ t, exec (.canBusError n c te re false) s = .next t ∧ t.get (CAN.CAN_STAT_LEC n.val) = c.val ∧
      t.get (CAN.CAN_STAT_TEC n.val) = te.toNat ∧ t.get (CAN.CAN_STAT_REC n.val) = re.toNat ∧
      t.get (CAN.CAN_STAT_ERR_STATE n.val) = 0 ∧ t.cans = s.cans) ∧
  (∀ (n : Fin 20) (c : Fin 8) (te : BitVec 16) (re : BitVec 8) (s : State), s.posted = [] → 1 ≤ c.val → c.val ≤ 6 →
    (s.can n.val).mode ≠ 0 → s.enabled (0x50 + n.val) = true → s.get (CAN.CAN_STAT_ERR_STATE n.val) ≠ 2 → s.detecting n.val = false →
    255 < te.toNat →
    ∃ t, exec (.canBusError n c te re false) s = .next t ∧ t.get (CAN.CAN_STAT_ERR_STATE n.val) = 2 ∧
      (t.can n.val).recovering = s.on (CAN.CAN_CFG_AUTO_RECOVER n.val) ∧ (t.can n.val).buf 8 = none) ∧
  (∀ (n : Fin 20) (te : BitVec 16) (re : BitVec 8) (x : Bool) (s : State), s.posted = [] → s.canOnline n.val = true →
    ∃ t, exec (.canBusError n 7 te re x) s = .next t ∧ t.get (CAN.CAN_STAT_SYNCED n.val) = 0 ∧ t.cans = s.cans ∧
      t.get (CAN.CAN_STAT_LEC n.val) = s.get (CAN.CAN_STAT_LEC n.val) ∧
      t.get (CAN.ERR_CNT1_PEX_CNT n.val) = min (s.get (CAN.ERR_CNT1_PEX_CNT n.val) + 1) (2 ^ (CAN.ERR_CNT1_PEX_CNT n.val).w - 1)) ∧
  (∀ (m : Master) (n : Fin 20) (s : State), isUser m = false → s.posted = [] → s.guardOf (0x50 + n.val) = none → s.get (CAN.CAN_STAT_ERR_STATE n.val) = 2 →
    ∃ t, exec (.canRecover m n) s = .next t ∧ (t.can n.val).recovering = true ∧ t.get (CAN.CAN_STAT_ERR_STATE n.val) = 2 ∧
      t.resp = .done) ∧
  (∀ (m : Master) (n : Fin 20) (s : State), isUser m = false → s.posted = [] → s.guardOf (0x50 + n.val) = none → s.get (CAN.CAN_STAT_ERR_STATE n.val) ≠ 2 →
    ∃ t, exec (.canRecover m n) s = .next t ∧ t.cans = s.cans ∧ t.resp = .done) ∧
  (∀ (n : Fin 20) (s : State), s.posted = [] → s.get (CAN.CAN_STAT_ERR_STATE n.val) = 2 → (s.can n.val).recovering = true →
    ∃ t, exec (.canRecovered n) s = .next t ∧ t.get (CAN.CAN_STAT_ERR_STATE n.val) = 0 ∧ t.get (CAN.CAN_STAT_TEC n.val) = 0 ∧
      t.get (CAN.CAN_STAT_REC n.val) = 0 ∧ (t.can n.val).recovering = false) ∧
  (∀ (n : Fin 20) (b : Fin 8) (l : BitVec 64) (x : TxBuf) (s : State), s.posted = [] → (s.can n.val).buf b.val = some x →
    x.launch = some l → x.st = 1 →
    ∃ t, exec (.canLaunchTime n b) s = .next t ∧ (t.can n.val).buf b.val = some { x with st := 2 } ∧ t.mem = s.mem) ∧
  (∀ (n : Fin 20) (b : Fin 8) (l : BitVec 64) (x : TxBuf) (s : State), s.posted = [] → (s.can n.val).buf b.val = some x →
    x.launch = some l → (x.st = 1 ∨ x.st = 2) →
    ∃ t, exec (.canAtWindowExpiry n b) s = .next t ∧ (t.can n.val).buf b.val = none ∧
      t.get (CAN.TX_CNT_LATE_CNT n.val) = min (s.get (CAN.TX_CNT_LATE_CNT n.val) + 1) (2 ^ (CAN.TX_CNT_LATE_CNT n.val).w - 1)) ∧
  (∀ (n : Fin 20) (w0 w1 : BitVec 32) (l : List (BitVec 8)) (a : BitVec 32) (s : State), s.posted = [] →
    s.enabled (0x50 + n.val) = true → s.detecting n.val = true → (s.can n.val).detGood + 1 < s.get (CAN.DET_CFG_CONFIRM_N n.val) →
    ∃ t, exec (.canRxFrame n w0 w1 l a) s = .next t ∧ (t.can n.val).detGood = (s.can n.val).detGood + 1 ∧
      (t.can n.val).detSince = s.mono ∧ t.on (CAN.CAN_STAT_SYNCED n.val) = true ∧ t.mem = s.mem) ∧
  (∀ (n : Fin 20) (w0 w1 : BitVec 32) (l : List (BitVec 8)) (a : BitVec 32) (k r : Nat) (s : State), s.posted = [] →
    (s.can n.val).mode ≠ 0 → s.enabled (0x50 + n.val) = true → s.detecting n.val = false → s.canSess n.val w0 w1 = none →
    s.canFilt n.val w0 = some k → s.on (CAN.FILT_MASK_RING n.val k) = false → r = s.get (CAN.CAN_RING_RX_RING0 n.val) → r ≠ 63 →
    s.ringOn r = true → s.ringCredit r ≠ 0 → 8 + l.length ≤ s.bufSize r →
    ∃ t, exec (.canRxFrame n w0 w1 l a) s = .next t ∧ t.get (CAN.RX_FRAMES n.val) = (s.get (CAN.RX_FRAMES n.val) + 1) % 2 ^ 32 ∧
      t.get (QMG.RING_PROD_PROD_IDX r) = (s.get (QMG.RING_PROD_PROD_IDX r) + 1) % 65536 ∧
      (t.desc r (s.get (QMG.RING_PROD_PROD_IDX r))).xinfo = k % 65536) ∧
  (∀ (n : Fin 20) (w0 w1 : BitVec 32) (l : List (BitVec 8)) (a : BitVec 32) (s : State), s.posted = [] →
    (s.can n.val).mode ≠ 0 → s.enabled (0x50 + n.val) = true → s.detecting n.val = false → s.canSess n.val w0 w1 = none →
    s.canFilt n.val w0 = none →
    ∃ t, exec (.canRxFrame n w0 w1 l a) s = .next t ∧ t.mem = s.mem ∧ t.get (CAN.RX_FRAMES n.val) = s.get (CAN.RX_FRAMES n.val)) ∧
  (∀ (m : Master) (n : Fin 20) (v : BitVec 32) (s : State), isUser m = false → s.posted = [] → s.guardOf (0x50 + n.val) = none →
    (s.can n.val).mode = 0 → (s.can n.val).onBus = none → s.get (CAN.CAN_CFG_MODE n.val) = 0 → (bits v 0 3 = 1 ∨ bits v 0 3 = 2) →
    bits v 3 29 = bits (s.rd (rkey (0x50 + n.val) 0 0x040)) 3 29 →
    ∃ t, exec (.canModeWrite m n v) s = .next t ∧ t.get (CAN.CAN_CFG_MODE n.val) = bits v 0 3 ∧ (t.can n.val).mode = bits v 0 3 ∧
      t.on (CAN.DET_STAT_SEARCHING n.val) = false ∧ t.resp = .done) ∧
  (∀ (m : Master) (n : Fin 20) (v : BitVec 32) (s : State), isUser m = false → s.posted = [] → s.guardOf (0x50 + n.val) = none →
    s.get (CAN.CAN_CFG_MODE n.val) = 0 → v.getLsbD 31 = false → v.getLsbD 23 = false → 1 ≤ bits v 0 8 → 2 ≤ bits v 8 8 →
    1 ≤ bits v 16 7 → 1 ≤ bits v 24 7 → bits v 24 7 ≤ bits v 16 7 →
    (736 * (bits v 0 8 * (1 + bits v 8 8 + bits v 16 7)) * 25 + 1999) / 2000 < 65536 →
    ∃ t, exec (.nbtWrite m n v) s = .next t ∧ t.rd (rkey (0x50 + n.val) 0 0x044) = v ∧ t.resp = .done ∧
      t.get (CAN.FRAME_TIME_US n.val) = (736 * (bits v 0 8 * (1 + bits v 8 8 + bits v 16 7)) * 25 + 1999) / 2000) ∧
  (∀ (m : Master) (n : Fin 20) (v : BitVec 32) (s : State), isUser m = false → s.posted = [] → s.guardOf (0x50 + n.val) = none →
    s.get (CAN.CAN_CFG_MODE n.val) ≠ 0 → bits v 0 8 ≠ s.get (CAN.NBT_BRP n.val) → 
    ∃ t, exec (.nbtWrite m n v) s = .next t ∧ t.rd (rkey (0x50 + n.val) 0 0x044) = s.rd (rkey (0x50 + n.val) 0 0x044) ∧
      t.get (HDR.PG_ERR_ADDR_CAUSE (0x50 + n.val)) = 4) ∧
  (∀ (n : Fin 20) (j : Nat) (s : State), s.posted = [] → s.enabled (0x50 + n.val) = true → s.detecting n.val = true →
    s.candFrom n.val (s.get (CAN.DET_STAT_CURRENT n.val) + 1) = some j →
    ∃ t, exec (.canDetDwell n) s = .next t ∧ t.get (CAN.DET_STAT_CURRENT n.val) = j ∧ (t.can n.val).detGood = 0 ∧
      (s.can n.val).detSince + ms (s.get (CAN.DET_CFG_DWELL_MS n.val)) ≤ t.mono ∧
      t.get (CAN.DET_STAT_PASSES n.val) = (if j ≤ s.get (CAN.DET_STAT_CURRENT n.val) then
        min (s.get (CAN.DET_STAT_PASSES n.val) + 1) (2 ^ (CAN.DET_STAT_PASSES n.val).w - 1) else s.get (CAN.DET_STAT_PASSES n.val)))

/-- R347 to R354, R358 and R368: records and leases. -/
def Obligations.LeasesAndRecords : Prop :=
  (∀ (k : Fin 13) (l : List (BitVec 8)) (a : BitVec 32) (s : State), s.posted = [] → s.takes k.val l 0 1 = true → s.on RDC.ROLE_LAPSED = false → s.rdc.awaitPeer = none →
    ∃ t, exec (.heartbeat k l a) s = .next t ∧ t.rdc.hbAt = some s.mono ∧ t.rdc.hbFlags = (recOf l).flags ∧ t.role = s.role) ∧
  (∀ (w : Fin 8) (l : List (BitVec 8)) (a : BitVec 32) (n : Nat) (s : State), s.posted = [] → s.takes (5 + w.val) l (w.val + 2) 2 = true →
    n = s.get (RDC.WM_CFG_STATION w.val) → (s.leaseOf n).holder = some w.val → s.mono < (s.leaseOf n).until_ →
    (s.leaseOf n).last = some w.val → s.dutyOld = true → s.duty = true → s.pathUp (5 + w.val) = true →
    ∃ t, exec (.leaseReq ⟨5 + w.val, by omega⟩ l a) s = .next t ∧ (t.leaseOf n).holder = some w.val ∧
      (t.leaseOf n).until_ = s.mono + ms 20 ∧ (t.wm w.val).pend = none) ∧
  (∀ (w : Fin 8) (v : Nat) (l : List (BitVec 8)) (a : BitVec 32) (n : Nat) (s : State), s.posted = [] →
    s.takes (5 + w.val) l (w.val + 2) 2 = true → n = s.get (RDC.WM_CFG_STATION w.val) → (s.leaseOf n).holder = some v → v ≠ w.val →
    s.mono < (s.leaseOf n).until_ →
    ∃ t, exec (.leaseReq ⟨5 + w.val, by omega⟩ l a) s = .next t ∧ t.leaseOf n = s.leaseOf n ∧
      t.get (RDC.WM_CNT_REFUSE_CNT w.val) = min (s.get (RDC.WM_CNT_REFUSE_CNT w.val) + 1) (2 ^ (RDC.WM_CNT_REFUSE_CNT w.val).w - 1)) ∧
  (∀ (l : List (BitVec 8)) (a : BitVec 32) (q since : Nat) (s : State), s.posted = [] → s.takes 4 l 1 3 = true →
    s.rdc.reqs.find? (fun e => e.1 == (recOf l).arg) = some (q, since) → s.role = roleACTIVE → s.on RDC.ROLE_LAPSED = false →
    ∃ t, exec (.leaseGrant 4 l a) s = .next t ∧ t.rdc.witUntil = some (max (since + ms 20) (s.rdc.witUntil.getD 0)) ∧
      t.rdc.reqs = [] ∧ t.role = roleACTIVE) ∧
  (∀ (l : List (BitVec 8)) (a : BitVec 32) (q since : Nat) (s : State), s.posted = [] → s.takes 4 l 1 3 = true →
    s.rdc.reqs.find? (fun e => e.1 == (recOf l).arg) = some (q, since) → s.mstate = stRUN → s.role = roleSTANDBY →
    s.mono < since + ms 20 → s.rdc.everCkpt = true →
    ∃ t, exec (.leaseGrant 4 l a) s = .next t ∧ t.role = roleACTIVE ∧ t.on RDC.ROLE_LAPSED = false ∧ t.on RDC.ROLE_DRIVING = false ∧
      t.on SLC.SLC_STAT_RESTORING = true ∧ t.rdc.signUntil = none) ∧
  (∀ (l : List (BitVec 8)) (a : BitVec 32) (s : State), s.posted = [] → s.takes 4 l 1 4 = true →
    ∃ t, exec (.leaseRefuse 4 l a) s = .next t ∧ t.rdc.reqs = [] ∧ t.rdc.witUntil = s.rdc.witUntil ∧
      t.get RDC.RDC_CNT1_REFUSED_CNT = min (s.get RDC.RDC_CNT1_REFUSED_CNT + 1) (2 ^ RDC.RDC_CNT1_REFUSED_CNT.w - 1)) ∧
  (∀ (k : Fin 13) (l : List (BitVec 8)) (a : BitVec 32) (s : State), s.posted = [] → s.takes k.val l 0 5 = true → s.mstate = stRUN → s.role = roleSTANDBY →
    s.unexpired s.rdc.witUntil = false → s.reqPending = false →
    ∃ t, exec (.peerReq k l a) s = .next t ∧ t.rdc.signUntil = some (s.mono + ms 20) ∧ t.rdc.seq = nextSeq s.rdc.seq) ∧
  (∀ (k : Fin 13) (l : List (BitVec 8)) (a : BitVec 32) (s : State), s.posted = [] → s.takes k.val l 0 5 = true →
    (s.mstate ≠ stRUN ∨ s.role ≠ roleSTANDBY ∨ s.unexpired s.rdc.witUntil = true ∨ s.reqPending = true) →
    ∃ t, exec (.peerReq k l a) s = .next t ∧ t.rdc.signUntil = s.rdc.signUntil ∧ t.rdc.seq = s.rdc.seq) ∧
  (∀ (k : Fin 13) (l : List (BitVec 8)) (a : BitVec 32) (q since : Nat) (s : State), s.posted = [] → s.takes k.val l 0 6 = true →
    s.rdc.peerReqs.find? (fun e => e.1 == (recOf l).arg) = some (q, since) →
    ∃ t, exec (.peerGrant k l a) s = .next t ∧ t.rdc.peerUntil = some (max (since + ms 20) (s.rdc.peerUntil.getD 0)) ∧
      t.rdc.witUntil = s.rdc.witUntil) ∧
  (∀ (w : Fin 8) (l : List (BitVec 8)) (a : BitVec 32) (n : Nat) (s : State), s.posted = [] → s.takes (5 + w.val) l (w.val + 2) 7 = true →
    n = s.get (RDC.WM_CFG_STATION w.val) → (s.leaseOf n).holder = some w.val → s.mono < (s.leaseOf n).until_ →
    ∃ t, exec (.relinquish ⟨5 + w.val, by omega⟩ l a) s = .next t ∧ (t.leaseOf n).holder = none ∧ (t.leaseOf n).ended = some s.mono ∧
      (t.leaseOf n).last = some w.val) ∧
  (∀ (k : Fin 13) (l : List (BitVec 8)) (a : BitVec 32) (e : Nat) (s : State), s.posted = [] → s.takes k.val l 0 7 = true → s.rdc.signUntil = some e →
    ∃ t, exec (.relinquish k l a) s = .next t ∧ t.rdc.signUntil = some (min e s.mono)) ∧
  (∀ (k : Fin 13) (l : List (BitVec 8)) (a : BitVec 32) (s : State), s.posted = [] → s.takes k.val l 0 8 = true → s.on RDC.REVERT_STAT_WANTED = false →
    ∃ t, exec (.handover k l a) s = .next t ∧ t.rdc.peerHandover = 2 ∧ t.role = s.role) ∧
  (∀ (k : Fin 13) (l : List (BitVec 8)) (a : BitVec 32) (d : BitVec 32) (s : State), s.posted = [] → k.val < 2 → s.takes k.val l 0 9 = true → s.role ≠ roleSTANDBY →
    ∃ t, exec (.timeReq k l a d) s = .next t ∧ t.rdc.seq = nextSeq (nextSeq s.rdc.seq)) ∧
  (∀ (k : Fin 13) (l : List (BitVec 8)) (a : BitVec 32) (x : TimeEx) (s : State), s.posted = [] → k.val < 2 → s.takes k.val l 0 10 = true → s.rdc.timeEx = some x →
    x.seq = (recOf l).arg → s.mono ≤ x.sentAt + ms 10 →
    ∃ t, exec (.timeResp k l a) s = .next t ∧
      t.rdc.timeEx = some { x with
        resp := some (BitVec.ofNat 32 (recOf l).arg2, BitVec.ofNat 32 (s.stampAgo s.ethRes a.toNat).1, (recOf l).seq) }) ∧
  (∀ (k : Fin 13) (l : List (BitVec 8)) (a : BitVec 32) (x : TimeEx) (y : BitVec 32 × BitVec 32 × Nat) (s : State), s.posted = [] → k.val < 2 → s.takes k.val l 0 11 = true →
    s.rdc.timeEx = some x → x.resp = some y → y.2.2 = (recOf l).arg → s.mono ≤ x.sentAt + ms 10 →
    ∃ t, exec (.timeFup k l a) s = .next t ∧ t.rdc.timeEx = none) ∧
  (∀ (v : BitVec 32) (s : State), s.posted = [] → s.enabled 0x05 = true → s.mstate = stRUN → s.redundant = true → s.role = roleSTANDBY →
    ∃ t, exec (.timeExchangeStart v) s = .next t ∧ t.rdc.timeEx = some (TimeEx.mk (nextSeq s.rdc.seq) t.mono v none) ∧
      t.rdc.exAt = t.mono ∧ s.rdc.exAt + s.servoT ≤ t.mono) ∧
  (∀ (x : TimeEx) (s : State), s.posted = [] → s.enabled 0x05 = true → s.rdc.timeEx = some x →
    ∃ t, exec .timeExchangeTimeout s = .next t ∧ t.rdc.timeEx = none ∧ x.sentAt + ms 10 ≤ t.mono) ∧
  (∀ s : State, s.posted = [] → s.enabled 0x05 = true → s.runOrSafe = true → s.redundant = true →
    (∀ j : Nat, j < 8 → s.on (RDC.WM_CFG_EN j) = false) →
    ∃ t, exec .heartbeatSend s = .next t ∧ t.rdc.lastHb = t.mono ∧ s.rdc.lastHb + ms 1 ≤ t.mono ∧
      t.rdc.seq = nextSeq (nextSeq s.rdc.seq)) ∧
  (∀ (k : Fin 15) (x : Nat × Nat) (s : State), s.posted = [] → s.enabled 0x05 = true → k.val < 5 →
    s.rdc.linkAt.find? (fun e => e.1 == k.val) = some x →
    ∃ t, exec (.hbLinkTimeout k) s = .next t ∧ t.pathUp k.val = false ∧ x.2 + ms 3 ≤ t.mono ∧
      t.get RDC.RDC_CNT0_HB_MISS_CNT = min (s.get RDC.RDC_CNT0_HB_MISS_CNT + 1) (2 ^ RDC.RDC_CNT0_HB_MISS_CNT.w - 1)) ∧
  (∀ s : State, s.posted = [] → s.enabled 0x05 = true → s.mstate = stRUN → s.redundant = true → s.role = roleACTIVE →
    ∃ t, exec .leaseRenew s = .next t ∧ t.rdc.lastReq = t.mono ∧ s.rdc.lastReq + ms 5 ≤ t.mono ∧
      t.rdc.reqs.getLast?.map (·.2) = some t.mono) ∧
  (∀ s : State, s.posted = [] → s.enabled 0x05 = true → (s.untilMono (s.rdc.lastReq + ms 1)).mayAsk = true →
    ∃ t, exec .standbyLeaseReq s = .next t ∧ t.rdc.lastReq = t.mono ∧ s.rdc.lastReq + ms 1 ≤ t.mono ∧
      t.rdc.reqs.getLast? = some (t.rdc.seq, t.mono)) ∧
  (∀ s : State, s.posted = [] → s.enabled 0x05 = true → s.mstate = stRUN → s.redundant = true → s.role = roleACTIVE →
    s.on RDC.ROLE_LAPSED = false →
    ∃ t, exec .leaseExpiry s = .next t ∧ t.on RDC.ROLE_LAPSED = true ∧ t.on RDC.ROLE_DRIVING = false ∧ t.role = roleACTIVE ∧
      s.leaseEnd ≤ t.mono ∧
      t.get RDC.RDC_CNT0_LAPSE_CNT = min (s.get RDC.RDC_CNT0_LAPSE_CNT + 1) (2 ^ RDC.RDC_CNT0_LAPSE_CNT.w - 1)) ∧
  (∀ (e : Nat) (s : State), s.posted = [] → s.enabled 0x05 = true → s.rdc.signUntil = some e →
    ∃ t, exec .peerLeaseExpiry s = .next t ∧ t.signed = false ∧ e + ms 2 ≤ t.mono) ∧
  (∀ (n : Fin 256) (w : Fin 8) (e q : Nat) (s : State), s.posted = [] → s.enabled 0x05 = true → (s.leaseOf n.val).holder = none →
    (s.leaseOf n.val).ended = some e → (s.leaseOf n.val).last = some w.val → s.on (RDC.WM_CFG_EN w.val) = true →
    s.get (RDC.WM_CFG_STATION w.val) = n.val → (s.wm w.val).pend = some q →
    ∃ t, exec (.witnessGuardEnd n) s = .next t ∧ (t.leaseOf n.val).holder = some w.val ∧ (t.leaseOf n.val).until_ = t.mono + ms 20 ∧
      (t.wm w.val).pend = none ∧ e + ms 2 ≤ t.mono) ∧
  (∀ (e : Nat) (s : State), s.posted = [] → s.enabled 0x05 = true → s.rdc.dutyAt = some e →
    ∃ t, exec .witnessStartupHold s = .next t ∧ t.dutyOld = true ∧ t.rdc = s.rdc) ∧
  (∀ (n : Fin 256) (u v : Fin 8) (e : Nat) (s : State), s.posted = [] → s.enabled 0x05 = true → s.on (RDC.WM_CFG_EN u.val) = true →
    s.on (RDC.WM_CFG_EN v.val) = true → s.get (RDC.WM_CFG_STATION u.val) = n.val → s.get (RDC.WM_CFG_STATION v.val) = n.val →
    s.on (RDC.WM_CFG_MEMBER u.val) = false → s.on (RDC.WM_CFG_MEMBER v.val) = true →
    (∀ j : Nat, j < 8 → s.get (RDC.WM_CFG_STATION j) = n.val → s.on (RDC.WM_CFG_EN j) = true → (s.wm j).firstReq = some e) →
    ∃ t, exec (.coldStartWait n) s = .next t ∧ t.rdc = s.rdc ∧ e + secs 2 ≤ t.mono)

/-- R357, R360, R361, R365 and R368 to R373: handover, return, witness entries and the Sluice. -/
def Obligations.HandoverAndSluice : Prop :=
  (∀ (m : Master) (s : State), isUser m = false → s.posted = [] → s.guardOf 0x05 = none → s.readyStandby = true → s.handoverOn = false →
    ∃ t, exec (.handoverReq m) s = .next t ∧ t.rdc.handover = some (BitVec.ofNat 64 (s.nextFast (s.now + ms 10)), 2) ∧
      t.role = roleACTIVE ∧ t.rdc.seq = nextSeq s.rdc.seq) ∧
  (∀ (m : Master) (s : State), isUser m = false → s.posted = [] → s.guardOf 0x05 = none → (s.readyStandby = false ∨ s.handoverOn = true) →
    ∃ t, exec (.handoverReq m) s = .next t ∧ t.rdc = s.rdc ∧
      t.get (HDR.PG_ERR_CNT_LOST 0x05) = min (s.get (HDR.PG_ERR_CNT_LOST 0x05) + 1) 0xFF) ∧
  (∀ (h : BitVec 64) (c : Nat) (s : State), s.posted = [] → s.enabled 0x05 = true → s.rdc.handover = some (h, c) →
    s.mstate = stRUN → s.role = roleACTIVE → (∀ j : Nat, j < 4 → s.quiet j = true) →
    ∃ t, exec .handoverTick s = .next t ∧ t.role = roleSTANDBY ∧ t.rdc.handover = none ∧ t.rdc.awaitPeer = some t.mono ∧
      t.rdc.witUntil = none ∧ t.rdc.peerUntil = none ∧ t.on RDC.ROLE_DRIVING = false ∧
      t.get RDC.RDC_CNT0_HANDOVER_CNT = min (s.get RDC.RDC_CNT0_HANDOVER_CNT + 1) (2 ^ RDC.RDC_CNT0_HANDOVER_CNT.w - 1)) ∧
  (∀ (e : Nat) (s : State), s.posted = [] → s.enabled 0x05 = true → s.rdc.awaitPeer = some e → s.pwr.restartAfter = 1 →
    ∃ t, exec .handoverTimeout s = .next t ∧ t.rdc.awaitPeer = none ∧ t.pwr.restartAfter = 0 ∧ e + s.handoverLimit ≤ t.mono ∧
      t.on SYS.REQ_STAT_HANDOVER_PENDING = false ∧ t.on SYS.REQ_STAT_RESTART_FAILED = true) ∧
  (∀ (e : Nat) (s : State), s.posted = [] → s.enabled 0x05 = true → s.rdc.readySince = some e → s.preferred = true → s.ready = true →
    ∃ t, exec .revertHoldoff s = .next t ∧ t.on RDC.REVERT_STAT_WANTED = true ∧
      e + secs (60 * s.get RDC.REVERT_CFG_HOLDOFF_MIN) ≤ t.mono) ∧
  (∀ s : State, s.posted = [] → s.enabled 0x05 = true → s.revertOk = true →
    ∃ t, exec .revertStart s = .next t ∧ t.rdc.handover = some (BitVec.ofNat 64 (s.nextFast (s.now + ms 10)), 3) ∧
      t.get RDC.RDC_CNT1_REVERT_CNT = min (s.get RDC.RDC_CNT1_REVERT_CNT + 1) (2 ^ RDC.RDC_CNT1_REVERT_CNT.w - 1)) ∧
  (∀ s : State, s.posted = [] → s.enabled 0x05 = true → s.revertOk = false →
    ∃ t, exec .revertStart s = .next t ∧ t.rdc = s.rdc) ∧
  (∀ (m : Master) (s : State), isUser m = false → s.posted = [] → s.guardOf 0x05 = none → s.credLocked 5 = false → s.credProved 5 [] = true →
    ∃ t, exec (.revertInhibitSet m) s = .next t ∧ t.on RDC.REVERT_STAT_INHIBITED = true ∧ t.get GNT.CRED_STAT_LAST_FAIL = 0) ∧
  (∀ (m : Master) (s : State), isUser m = false → s.posted = [] → s.guardOf 0x05 = none → s.credLocked 5 = false → s.credProved 5 [] = true →
    ∃ t, exec (.revertInhibitClear m) s = .next t ∧ t.on RDC.REVERT_STAT_INHIBITED = false ∧ t.get GNT.CRED_STAT_LAST_FAIL = 0) ∧
  (∀ (m : Master) (s : State), isUser m = false → s.posted = [] → s.guardOf 0x05 = none → (s.credLocked 5 = true ∨ s.credProved 5 [] = false) →
    ∃ t, exec (.revertInhibitSet m) s = .next t ∧ t.get RDC.REVERT_STAT_INHIBITED = s.get RDC.REVERT_STAT_INHIBITED ∧
      t.get GNT.CRED_STAT_LAST_FAIL = 1 ∧ t.get (HDR.PG_ERR_ADDR_CAUSE 0x05) = 4) ∧
  (∀ (m : Master) (w : Fin 8) (v : BitVec 32) (s : State), isUser m = false → s.posted = [] → s.guardOf 0x05 = none → s.on (RDC.WM_CFG_EN w.val) = false →
    v = s.rd (rkey 0x05 0 (0x800 + 32 * w.val)) ||| 1 → s.wmTaken w.val = false →
    ∃ t, exec (.wmEnable m w v) s = .next t ∧ t.on (RDC.WM_CFG_EN w.val) = true ∧ t.wm w.val = WmRt.blank ∧ t.resp = .done) ∧
  (∀ (m : Master) (w : Fin 8) (v : BitVec 32) (s : State), isUser m = false → s.posted = [] → s.guardOf 0x05 = none → s.on (RDC.WM_CFG_EN w.val) = false →
    v = s.rd (rkey 0x05 0 (0x800 + 32 * w.val)) ||| 1 → s.wmTaken w.val = true →
    ∃ t, exec (.wmEnable m w v) s = .next t ∧ t.on (RDC.WM_CFG_EN w.val) = false ∧ t.get (HDR.PG_ERR_ADDR_CAUSE 0x05) = 7) ∧
  (∀ (m : Master) (w : Fin 8) (n : Nat) (v : BitVec 32) (s : State), isUser m = false → s.posted = [] → s.guardOf 0x05 = none → s.on (RDC.WM_CFG_EN w.val) = true →
    v = s.rd (rkey 0x05 0 (0x800 + 32 * w.val)) &&& ~~~1 → n = s.get (RDC.WM_CFG_STATION w.val) →
    ∃ t, exec (.wmDisable m w v) s = .next t ∧ t.on (RDC.WM_CFG_EN w.val) = false ∧ t.wm w.val = WmRt.blank ∧
      (t.leaseOf n).holder ≠ some w.val) ∧
  (∀ (l : List (BitVec 8)) (s : State), s.posted = [] → s.enabled 0x0C = true → s.mstate = stRUN → s.role = roleSTANDBY → sluiceOk l = false →
    ∃ t, exec (.sluiceRecord l) s = .next t ∧ t.slu = s.slu ∧
      t.get SLC.SLC_CNT0_CRC_ERR_CNT = min (s.get SLC.SLC_CNT0_CRC_ERR_CNT + 1) (2 ^ SLC.SLC_CNT0_CRC_ERR_CNT.w - 1)) ∧
  (∀ (l : List (BitVec 8)) (q : Nat) (s : State), s.posted = [] → s.enabled 0x0C = true → s.mstate = stRUN → s.role = roleSTANDBY →
    sluiceOk l = true → leNat ((l.drop 2).take 1) = 3 → s.slu.rxSeq = some q → leNat ((l.drop 8).take 4) = nextSeq q → q < 2 ^ 32 - 1 →
    (s.slu.adv = true ∨ s.slu.fullEnd = true) →
    ∃ t, exec (.sluiceRecord l) s = .next t ∧ t.slu.cons = s.slu.stage ∧ t.slu.rxSeq = some (nextSeq q) ∧
      t.slu.ckptAt = some s.mono ∧ t.on SLC.SLC_STAT_CONSISTENT = true) ∧
  (∀ s : State, s.posted = [] → s.slcSends = true → s.on SLC.SLC_STAT_FULL_BUSY = false →
    s.tku.base.toNat / 1000000000 ≠ s.slu.fullSecond →
    ∃ t, exec .fullCheckpointStart s = .next t ∧ t.on SLC.SLC_STAT_FULL_BUSY = true ∧
      t.slu.fullSecond = s.tku.base.toNat / 1000000000 ∧ t.slu.fullAt = s.mono) ∧
  (∀ s : State, s.posted = [] → s.slcSends = true → s.on SLC.SLC_STAT_FULL_BUSY = true →
    ∃ t, exec .fullCheckpointEnd s = .next t ∧ t.on SLC.SLC_STAT_FULL_BUSY = false ∧
      t.get SLC.SLC_FULL_SEQ = (s.slu.fullFrom.getD 0) % 2 ^ 32 ∧ t.get SLC.SLC_SEQ = nextSeq (s.get SLC.SLC_SEQ) ∧
      t.get SLC.SLC_CNT1_FULL_CNT = (s.get SLC.SLC_CNT1_FULL_CNT + 1) % 2 ^ SLC.SLC_CNT1_FULL_CNT.w) ∧
  (∀ (e : Nat) (s : State), s.posted = [] → s.slu.ckptAt = some e →
    ∃ t, exec .checkpointAgeLimit s = .next t ∧ t.nrAge = true ∧ t.ready = false ∧ t.rdc.readySince = none ∧ t.slu = s.slu) ∧
  (∀ s : State, s.posted = [] → s.on SLC.SLC_STAT_RESTORING = true → s.mstate = stRUN → s.role = roleACTIVE →
    ∃ t, exec .restoreDone s = .next t ∧ t.on SLC.SLC_STAT_RESTORING = false ∧ t.role = roleACTIVE ∧ t.slu = s.slu ∧
      t.get SLC.SLC_RESTORE_US_LAST = min ((s.mono - s.slu.restoreAt) / 1000) (2 ^ SLC.SLC_RESTORE_US_LAST.w - 1))

/-- R378 to R390: power, reset and start-up. -/
def Obligations.PowerAndStart : Prop :=
  (∀ (v f : BitVec 16) (s : State), s.posted = [] → mainsGood v.toNat f.toNat = false → s.on PSU.FEED_STAT_MAINS_OK = true →
    ∃ t, exec (.mainsLoss v f) s = .next t ∧ t.on PSU.FEED_STAT_MAINS_OK = false ∧ t.get PSU.MAINS_MEAS_VRMS = v.toNat ∧
      t.on PSU.FEED_STAT_ON_AUX = s.on PSU.FEED_STAT_AUX_OK ∧ t.on PSU.FEED_STAT_SINGLE_FEED = s.on PSU.FEED_STAT_AUX_OK ∧
      t.get PSU.PSU_CNT_MAINS_LOSS_CNT = min (s.get PSU.PSU_CNT_MAINS_LOSS_CNT + 1) (2 ^ PSU.PSU_CNT_MAINS_LOSS_CNT.w - 1)) ∧
  (∀ (v f : BitVec 16) (s : State), s.posted = [] → mainsGood v.toNat f.toNat = true →
    ∃ t, exec (.mainsReturn v f) s = .next t ∧ t.on PSU.FEED_STAT_MAINS_OK = true ∧ t.on PSU.FEED_STAT_ON_AUX = false ∧
      t.on PSU.FEED_STAT_SINGLE_FEED = (!s.on PSU.FEED_STAT_AUX_OK) ∧ t.get PSU.MAINS_MEAS_FREQ = f.toNat) ∧
  (∀ (v i : BitVec 16) (s : State), s.posted = [] → auxGood v.toNat = false → s.on PSU.FEED_STAT_AUX_OK = true →
    ∃ t, exec (.auxLoss v i) s = .next t ∧ t.on PSU.FEED_STAT_AUX_OK = false ∧ t.on PSU.FEED_STAT_ON_AUX = false ∧
      t.get PSU.PSU_CNT_AUX_LOSS_CNT = min (s.get PSU.PSU_CNT_AUX_LOSS_CNT + 1) (2 ^ PSU.PSU_CNT_AUX_LOSS_CNT.w - 1)) ∧
  (∀ (v i : BitVec 16) (s : State), s.posted = [] → auxGood v.toNat = true →
    ∃ t, exec (.auxReturn v i) s = .next t ∧ t.on PSU.FEED_STAT_AUX_OK = true ∧ t.get PSU.AUX_MEAS_MV = v.toNat ∧
      t.get PSU.AUX_MEAS_MA = i.toNat ∧ t.on PSU.FEED_STAT_ON_AUX = (!s.on PSU.FEED_STAT_MAINS_OK)) ∧
  (∀ (b : BitVec 16) (s : State), s.posted = [] → s.mstate ≠ stPOWER_ON → s.pfw = false → b.toNat < s.get PSU.PF_THRESH →
    ∃ t, exec (.pfw b) s = .next t ∧ t.pfw = true ∧ t.get PSU.BULK_VOLT = b.toNat ∧ t.on MPL.MPL_STAT_CAP_BUSY = false ∧
      t.on CIS.CIS_STAT_FLUSH_BUSY = true ∧
      t.get PSU.PSU_CNT_PFW_CNT = min (s.get PSU.PSU_CNT_PFW_CNT + 1) (2 ^ PSU.PSU_CNT_PFW_CNT.w - 1)) ∧
  (∀ (b : BitVec 16) (s : State), s.posted = [] → s.pfw = true → s.get PSU.PF_THRESH + 200 < b.toNat →
    ∃ t, exec (.pfwClear b) s = .next t ∧ t.pfw = false ∧
      t.get PSU.PSU_CNT_PFW_RECOVER_CNT = min (s.get PSU.PSU_CNT_PFW_RECOVER_CNT + 1) (2 ^ PSU.PSU_CNT_PFW_RECOVER_CNT.w - 1)) ∧
  (∀ (b : BitVec 16) (s : State), s.posted = [] → s.pfw = true → b.toNat ≤ s.get PSU.PF_THRESH + 200 →
    ∃ t, exec (.pfwClear b) s = .next t ∧ t.pfw = true ∧ t.get PSU.BULK_VOLT = b.toNat) ∧
  (∀ s : State, s.posted = [] → Regs.wf s.regs = true → s.mstate ≠ stPOWER_ON →
    ∃ t, exec .brownOut s = .next t ∧ t.mstate = stPOWER_ON ∧ t.pwr.brownOut = true ∧ t.forces = [] ∧ t.sig = [] ∧ t.gnt.tab = []) ∧
  (∀ (r : Fin 7) (s : State), s.posted = [] → s.pfw = false → r.val < 6 → (s.mstate = stCONFIG ∨ s.mstate = stRUN) →
    ∃ t, exec (.railFault r false) s = .next t ∧ t.mstate = stSAFE ∧ t.get SYS.STATE_CAUSE_CAUSE = 8 ∧
      t.bit PSU.RAIL_STAT_FAULTED r.val = true ∧ t.bit PSU.RAIL_STAT_OK r.val = false) ∧
  (∀ (b : BitVec 16) (s : State), s.posted = [] → s.mstate = stPOWER_ON → s.get PSU.PF_THRESH + 200 < b.toNat →
    ∃ t, exec (.suppliesGood b) s = .next t ∧ t.mstate = stBOOT ∧ t.get SYS.STATE_CAUSE_CAUSE = 1 ∧ t.role = roleNONE ∧
      t.get PSU.RST_CAUSE_CAUSE = (if s.pwr.brownOut then 2 else 1)) ∧
  (∀ (b : BitVec 16) (s : State), s.posted = [] → s.mstate = stPOWER_ON → b.toNat ≤ s.get PSU.PF_THRESH + 200 →
    ∃ t, exec (.suppliesGood b) s = .next t ∧ t.mstate = stPOWER_ON ∧ t.get PSU.BULK_VOLT = b.toNat) ∧
  (∀ (a : List (Fin 8192 × Fin 8)) (n : Nat) (s : State), s.posted = [] → s.mstate = stBOOT → n = s.get SYS.BOOT_SELECT_IMAGE →
    (s.nand n).good = true →
    ∃ t, exec (.bootDone a) s = .next t ∧ t.mstate = stCONFIG ∧ t.get SYS.BOOT_CFG_IMAGE = n ∧
      t.get SYS.BOOT_CFG_SPLIT = (s.nand n).split.toNat ∧ t.get (imgStat n) = 1 ∧ t.on CIS.CIS_STAT_SAMPLING = true) ∧
  (∀ (a : List (Fin 8192 × Fin 8)) (s : State), s.posted = [] → s.mstate = stBOOT → s.dev.imgA.good = false → s.dev.imgB.good = false →
    ∃ t, exec (.bootDone a) s = .next t ∧ t.mstate = stHALT ∧ t.get SYS.STATE_CAUSE_CAUSE = 6) ∧
  (∀ s : State, s.posted = [] → s.mstate = stSTARTUP → s.redundant = false →
    ∃ t, exec (.startupTestDone .pass) s = .next t ∧ t.mstate = stRUN ∧ t.role = roleSINGLE) ∧
  (∀ s : State, s.posted = [] → s.mstate = stSTARTUP → s.redundant = true →
    ∃ t, exec (.startupTestDone .pass) s = .next t ∧ t.mstate = stRUN ∧ t.role = roleSTANDBY) ∧
  (∀ s : State, s.posted = [] → s.mstate = stSTARTUP →
    ∃ t, exec (.startupTestDone .other) s = .next t ∧ t.mstate = stHALT ∧ t.get SYS.STATE_CAUSE_CAUSE = 7) ∧
  (∀ s : State, s.posted = [] → s.pfw = false → s.pwr.pressedAt = none →
    ∃ t, exec .buttonPress s = .next t ∧ t.pwr.pressedAt = some s.mono ∧ t.on CLO.BUTTON_PRESSED = true) ∧
  (∀ (n e : Nat) (s : State), s.posted = [] → s.pwr.pressedAt = some e → s.pfw = false → s.on CLO.BUTTON_STUCK = false → n < 100 →
    ∃ t, exec (.buttonRelease n) s = .next t ∧ t.pwr.pressedAt = none ∧ t.on CLO.BUTTON_PRESSED = false ∧
      t.get CLO.BUTTON_PRESS_MS = n ∧ t.get PSU.RST_CAUSE_BUTTON_ACTION = 0 ∧ t.mstate = s.mstate ∧ e + ms n ≤ t.mono) ∧
  (∀ (n e : Nat) (s : State), s.posted = [] → s.pwr.pressedAt = some e → s.pfw = false → s.on CLO.BUTTON_STUCK = false → 3000 ≤ n →
    n < 10000 → s.role ≠ roleACTIVE → s.mstate ≠ stPOWER_ON →
    ∃ t, exec (.buttonRelease n) s = .next t ∧ t.mstate = stBOOT ∧ t.get PSU.RST_CAUSE_CAUSE = 4 ∧ t.get SYS.STATE_CAUSE_CAUSE = 3 ∧
      t.role = roleNONE ∧ t.pwr.pressedAt = none) ∧
  (∀ (e : Nat) (s : State), s.posted = [] → s.pwr.pressedAt = some e → s.pfw = false → s.on CLO.BUTTON_STUCK = false →
    ∃ t, exec .buttonStuck s = .next t ∧ t.on CLO.BUTTON_STUCK = true ∧ t.get PSU.RST_CAUSE_BUTTON_ACTION = 4 ∧
      t.mstate = s.mstate ∧ e + secs 10 ≤ t.mono) ∧
  (∀ s : State, s.posted = [] → s.on CLO.BUTTON_STUCK = true → s.pwr.pressedAt = none →
    ∃ t, exec .buttonRearm s = .next t ∧ t.on CLO.BUTTON_STUCK = false ∧ s.pwr.releasedAt + secs 2 ≤ t.mono) ∧
  (∀ s : State, s.posted = [] → s.mstate = stSAFE → s.get PSU.AUTO_RESTART_DELAY_S ≠ 0 → s.autoCount < s.get PSU.AUTO_RESTART_LIMIT →
    ∃ t, exec .autoRestart s = .next t ∧ t.mstate = stBOOT ∧ t.get PSU.RST_CAUSE_CAUSE = 5 ∧ t.get SYS.STATE_CAUSE_CAUSE = 2) ∧
  (∀ s : State, s.posted = [] → s.get PSU.AUTO_RESTART_DELAY_S = 0 →
    ∃ t, exec .autoRestart s = .next t ∧ t.mstate = s.mstate)

/-- R399 to R419: the Cistern and the margin planner. -/
def Obligations.RecorderAndPlanner : Prop :=
  (∀ s : State, s.posted = [] → s.enabled 0x08 = true → s.on CIS.CIS_STAT_SAMPLING = true → s.cis.hours < s.ops / 3600 →
    s.ops / 86400 ≤ s.cis.days →
    ∃ t, exec .hourClose s = .next t ∧ t.cis.hours = s.ops / 3600 ∧ t.on CIS.CIS_STAT_FLUSH_BUSY = true ∧
      t.cis.flush.isSome = true ∧ t.mono = s.mono ∧ t.cis.days = s.cis.days) ∧
  (∀ (i : Nat) (k : CisTrk) (s : State), s.posted = [] → s.enabled 0x08 = true → s.on CIS.CIS_STAT_SAMPLING = true →
    s.cis.hours < s.ops / 3600 → s.ops / 86400 ≤ s.cis.days → s.cis.trks = [(i, k)] → s.cisRing = none →
    ∃ t, exec .hourClose s = .next t ∧ t.get CIS.CIS_SEQ = nextSeq32 (s.get CIS.CIS_SEQ) ∧
      t.cis.trks = [(i, CisTrk.mk (CisAcc.opened s.ops k.hour.bins.length k.hour.defChanged) k.day k.life)] ∧
      (t.cis.recs.getLast?.map (·.track)) = some i ∧ (t.cis.recs.getLast?.map (·.typ)) = some 1 ∧
      (t.cis.recs.getLast?.map (·.seq)) = some (nextSeq32 (s.get CIS.CIS_SEQ))) ∧
  (∀ s : State, s.posted = [] → s.enabled 0x08 = true → s.on CIS.CIS_STAT_SAMPLING = true → s.cis.days < s.ops / 86400 →
    ∃ t, exec .dayClose s = .next t ∧ t.cis.days = s.ops / 86400 ∧ t.get PNL.DAY_USED_UPDATES = 0 ∧
      t.get PNL.DAY_USED_TOGGLES = 0 ∧ t.cis.flush.isSome = true ∧ t.mono = s.mono) ∧
  (∀ (m : Master) (s : State), isUser m = false → s.posted = [] → s.guardOf 0x08 = none →
    ∃ t, exec (.cisFlush m) s = .next t ∧ t.on CIS.CIS_STAT_FLUSH_BUSY = true ∧ (t.cis.flush.map (·.trks)) = some s.cis.trks ∧
      (t.cis.flush.map (·.ops)) = some s.ops ∧ t.cis.trks = s.cis.trks ∧ t.cis.recs = s.cis.recs) ∧
  (∀ (k : CisCkpt) (s : State), s.posted = [] → s.cis.flush = some k → s.cis.clear = none → s.cis.ckA = none →
    ∃ t, exec .cisFlushDone s = .next t ∧ t.cis.flush = none ∧ t.cis.ckA = some k ∧ t.cis.ckB = s.cis.ckB ∧
      t.get CIS.CKPT_OPS = k.ops % 2 ^ 32 ∧ t.on CIS.CIS_STAT_FLUSH_BUSY = false) ∧
  (∀ (k a b : CisCkpt) (s : State), s.posted = [] → s.cis.flush = some k → s.cis.clear = none → s.cis.ckA = some a →
    s.cis.ckB = some b → b.seq ≤ a.seq →
    ∃ t, exec .cisFlushDone s = .next t ∧ t.cis.flush = none ∧ t.cis.ckA = some a ∧ t.cis.ckB = some k ∧
      t.on CIS.CIS_STAT_FLUSH_BUSY = false) ∧
  (∀ (m : Master) (s : State), isUser m = false → s.posted = [] → s.guardOf 0x08 = none → s.credLocked 4 = false → s.credProved 4 [] = true →
    s.pfw = false → s.get CIS.CLEAR_SCOPE_STORES ≠ 0 → s.get64 CIS.CLEAR_TRK_LO CIS.CLEAR_TRK_HI ≠ 0 →
    s.on CIS.CIS_STAT_LOG_FULL = false → s.cis.flush = none → s.cis.clear = none → s.get CIS.LOG_COUNT < 2048 →
    ∃ t, exec (.cisClear m) s = .next t ∧ t.get CIS.LOG_COUNT = s.get CIS.LOG_COUNT + 1 ∧ t.get GNT.CRED_STAT_LAST_FAIL = 0 ∧
      t.get CIS.CIS_CNT_CLEAR_REFUSED_CNT = s.get CIS.CIS_CNT_CLEAR_REFUSED_CNT ∧
      t.get CIS.CIS_SEQ = nextSeq32 (s.get CIS.CIS_SEQ) ∧
      (∀ r ∈ t.cis.recs, r.typ = 1 → s.bit CIS.CLEAR_SCOPE_STORES 0 = true →
        (s.get64 CIS.CLEAR_TRK_LO CIS.CLEAR_TRK_HI).testBit r.track = false)) ∧
  (∀ (m : Master) (s : State), isUser m = false → s.posted = [] → s.guardOf 0x08 = none → (s.credLocked 4 = true ∨ s.credProved 4 [] = false) →
    ∃ t, exec (.cisClear m) s = .next t ∧ t.cis = s.cis ∧ t.get CIS.LOG_COUNT = s.get CIS.LOG_COUNT ∧
      t.get GNT.CRED_STAT_LAST_FAIL = 1 ∧ t.get (HDR.PG_ERR_ADDR_CAUSE 0x08) = 4 ∧
      t.get CIS.CIS_CNT_CLEAR_REFUSED_CNT = min (s.get CIS.CIS_CNT_CLEAR_REFUSED_CNT + 1) 0xFF) ∧
  (∀ (m : Master) (i : Nat) (v : BitVec 32) (s : State), isUser m = false → s.posted = [] → s.guardOf 0x08 = none → i = s.get CIS.TRK_SEL →
    s.on (CIS.TRK_CFG_EN i) = false → v = s.rd (rkey 0x08 i 0x074) ||| 1 → s.trkOk i = true →
    ∃ t, exec (.trackEnable m v) s = .next t ∧ t.on (CIS.TRK_CFG_EN i) = true ∧ t.resp = .done ∧
      t.trkEn i = true ∧ (t.cis.trks.find? (fun e => e.1 == i)).isSome = true) ∧
  (∀ (m : Master) (i : Nat) (v : BitVec 32) (s : State), isUser m = false → s.posted = [] → s.guardOf 0x08 = none → i = s.get CIS.TRK_SEL →
    s.on (CIS.TRK_CFG_EN i) = false → v = s.rd (rkey 0x08 i 0x074) ||| 1 → s.trkOk i = false →
    ∃ t, exec (.trackEnable m v) s = .next t ∧ t.on (CIS.TRK_CFG_EN i) = false ∧ t.cis = s.cis ∧
      t.get (HDR.PG_ERR_ADDR_CAUSE 0x08) = 7) ∧
  (∀ (m : Master) (i : Nat) (k : CisTrk) (v : BitVec 32) (s : State), isUser m = false → s.posted = [] → s.guardOf 0x08 = none →
    i = s.get CIS.TRK_SEL → s.on (CIS.TRK_CFG_EN i) = true → v = s.rd (rkey 0x08 i 0x074) &&& ~~~1 →
    s.cis.trks.find? (fun e => e.1 == i) = some (i, k) →
    ∃ t, exec (.trackDisable m v) s = .next t ∧ t.on (CIS.TRK_CFG_EN i) = false ∧ t.resp = .done ∧
      t.cis.trks.find? (fun e => e.1 == i) = none ∧ t.on CIS.CIS_STAT_FLUSH_BUSY = true) ∧
  (∀ (r : Nat) (q : CisRec) (s : State), s.posted = [] → s.enabled 0x08 = true → s.cisRing = some r → s.nextExport = some q →
    s.ringCredit r = 0 →
    ∃ t, exec .cisExport s = .next t ∧ t.on CIS.CIS_STAT_EXPORT_BEHIND = true ∧ t.cis = s.cis ∧
      t.get CIS.EXPORT_SEQ = s.get CIS.EXPORT_SEQ ∧ t.mem = s.mem) ∧
  (∀ (r : Nat) (q : CisRec) (s : State), s.posted = [] → s.enabled 0x08 = true → s.cisRing = some r → s.nextExport = some q →
    s.ringCredit r ≠ 0 →
    ∃ t, exec .cisExport s = .next t ∧ t.get CIS.EXPORT_SEQ = q.seq % 2 ^ 32 ∧ t.cis = s.cis) ∧
  (∀ (k : Fin 77) (v : Int) (refs : List Int) (s : State), s.posted = [] → s.enabled 0x02 = true → 28 ≤ k.val → k.val < 60 →
    ∃ t, exec (.monitorMeasure k v refs) s = .next t ∧ t.get (MPL.MON_VAL k.val) = ux 32 v ∧
      t.on (MPL.MON_STAT_VALID k.val) = true ∧ (s.on MPL.MPL_STAT_LEARNING = true → (t.mon k.val).sum = (s.mon k.val).sum + v) ∧
      (s.mon k.val).measured.elim 0 (· + secs (monEvery k.val)) ≤ t.mono ∧ (t.mon k.val).measured = some t.mono) ∧
  (∀ (k : Fin 77) (v a b c : Int) (s : State), s.posted = [] → s.enabled 0x02 = true → 10 ≤ k.val → k.val < 26 →
    apart a b = false → apart a c = false → apart b c = false →
    ∃ t, exec (.monitorMeasure k v [a, b, c]) s = .next t ∧ t.get (MPL.RECAL_EXCLUDED (k.val - 10)) = 0 ∧
      t.on (MPL.RECAL_TRIO_FAIL (k.val - 10)) = false ∧ t.on (MPL.MON_STAT_VALID k.val) = true ∧
      t.get (MPL.MON_VAL k.val) = max (a - b).natAbs (max (a - c).natAbs (b - c).natAbs)) ∧
  (∀ (m : Master) (s : State), isUser m = false → s.posted = [] → s.guardOf 0x02 = none →
    (∀ d : Nat, d < 10 → s.qualifies d (s.mon d).worst.head? = false) →
    ∃ t, exec (.mplReplan m) s = .next t ∧ t.get MPL.GRADE_STAT_PENDING = s.get MPL.GRADE_STAT_PENDING ∧
      t.get MPL.LAST_REPLAN_DOMAIN = s.get MPL.LAST_REPLAN_DOMAIN ∧ t.mpl.pend = s.mpl.pend ∧
      (∀ d : Nat, d < 10 → t.mpl.failed.contains d = false)) ∧
  (∀ (m : Master) (d : Fin 10) (s : State), isUser m = false → s.posted = [] → s.guardOf 0x02 = none →
    (∀ e : Nat, e < 10 → e ≠ d.val → s.qualifies e (s.mon e).worst.head? = false) →
    s.qualifies d.val (s.mon d.val).worst.head? = true → s.replanErr d.val = 0 →
    ∃ t, exec (.mplReplan m) s = .next t ∧ t.bit MPL.GRADE_STAT_PENDING d.val = true ∧
      t.get MPL.LAST_REPLAN_DOMAIN = d.val ∧ t.get MPL.LAST_REPLAN_FROM = s.get (CLO.DOM_STAT_GRADE d.val) ∧
      t.get (CLO.DOM_STAT_GRADE d.val) = s.get (CLO.DOM_STAT_GRADE d.val)) ∧
  (∀ (m : Master) (s : State), isUser m = false → s.posted = [] → s.guardOf 0x02 = none → s.on MPL.MPL_STAT_CAP_BUSY = false → s.pfw = false →
    ∃ t, exec (.mplMeasureCap m) s = .next t ∧ t.on MPL.MPL_STAT_CAP_BUSY = true ∧
      t.get (HDR.PG_ERR_CNT_LOST 0x02) = s.get (HDR.PG_ERR_CNT_LOST 0x02)) ∧
  (∀ (m : Master) (s : State), isUser m = false → s.posted = [] → s.guardOf 0x02 = none → s.on MPL.MPL_STAT_CAP_BUSY = true →
    ∃ t, exec (.mplMeasureCap m) s = .next t ∧ t.on MPL.MPL_STAT_CAP_BUSY = true ∧
      t.get (HDR.PG_ERR_CNT_LOST 0x02) = min (s.get (HDR.PG_ERR_CNT_LOST 0x02) + 1) 0xFF) ∧
  (∀ (c : BitVec 16) (p : Nat) (s : State), s.posted = [] → s.enabled 0x02 = true → s.on MPL.MPL_STAT_CAP_BUSY = true →
    s.pfw = false → pfThresh c.toNat = some p →
    ∃ t, exec (.capMeasureDone c) s = .next t ∧ t.on MPL.MPL_STAT_CAP_BUSY = false ∧
      t.get PSU.PF_THRESH = p % 2 ^ PSU.PF_THRESH.w ∧ t.get PSU.HOLDUP_CAP = min c.toNat (2 ^ PSU.HOLDUP_CAP.w - 1) ∧
      t.get (MPL.MON_VAL 27) = c.toNat ∧ s.mpl.capAt + ms 2 ≤ t.mono) ∧
  (∀ (d : Fin 10) (s : State), s.posted = [] → s.enabled 0x02 = true → s.bit MPL.GRADE_STAT_PENDING d.val = true →
    s.get (CLO.DOM_STAT_GRADE d.val) < maxGrade d.val → s.gradeGap d.val = true →
    ∃ t, exec (.gradeApply d) s = .next t ∧ t.get (CLO.DOM_STAT_GRADE d.val) = s.get (CLO.DOM_STAT_GRADE d.val) + 1 ∧
      t.clkMHz d.val = gradeMHz d.val (s.get (CLO.DOM_STAT_GRADE d.val) + 1) ∧ t.bit MPL.GRADE_STAT_PENDING d.val = false ∧
      t.bit MPL.GRADE_STAT_BLOCKED d.val = false ∧
      t.get MPL.MPL_CNT_GRADE_CNT = min (s.get MPL.MPL_CNT_GRADE_CNT + 1) 0xFF) ∧
  (∀ (d : Fin 10) (s : State), s.posted = [] → s.gradeGap d.val = false → ∃ t, exec (.gradeApply d) s = .next t ∧ t = s) ∧
  (∀ (d : Fin 10) (b e : Nat) (s : State), s.posted = [] → s.enabled 0x02 = true →
    s.mpl.pend.find? (fun x => x.1 == d.val) = some (d.val, (b, e)) → b + secs 60 ≤ s.mono →
    ∃ t, exec (.gradeRetry d) s = .next t ∧ t.bit MPL.GRADE_STAT_BLOCKED d.val = true ∧ e + secs 1 ≤ t.mono ∧
      t.get (CLO.DOM_STAT_GRADE d.val) = s.get (CLO.DOM_STAT_GRADE d.val)) ∧
  (∀ (f : Nat) (s : State), s.posted = [] → s.enabled 0x02 = true → s.mpl.learnFrom = some f →
    s.on MPL.MPL_STAT_LEARNING = true → f + 259200 ≤ s.ops →
    ∃ t, exec .learningEnd s = .next t ∧ t.on MPL.MPL_STAT_LEARNING = false ∧ t.on MPL.MPL_STAT_BASELINE_OK = true ∧
      t.mono = s.mono) ∧
  (∀ (b : Fin 16) (med : Int) (s : State), s.posted = [] → s.enabled 0x02 = true →
    s.mpl.recal.find? (fun e => e.1 == b.val) = none →
    ∃ t, exec (.recalibration b med) s = .next t ∧ t.get (MPL.RECAL_INTERVAL_MIN b.val) = 1440 ∧
      t.mpl.recal.find? (fun e => e.1 == b.val) = some (b.val, (s.mono, med)) ∧ t.mono = s.mono)

/-- R424 to R435: the front panel. -/
def Obligations.FrontPanel : Prop :=
  (∀ (x : Int) (s : State), s.posted = [] → s.mstate ≠ stPOWER_ON → s.enabled 0x09 = true → s.on PNL.PNL_STAT_UPDATING = false →
    s.get PNL.PNL_STAT_STEP = 0 → s.pfw = false → s.pnl.refresh = true → (s.panelTemp x).on PNL.PNL_STAT_HELD = false →
    ∃ t, exec (.panelUpdateStart x) s = .next t ∧ t.get PNL.PNL_STAT_STEP = 3 ∧ t.on PNL.PNL_STAT_UPDATING = true ∧
      t.on PNL.PNL_STAT_UPD_OPEN = true ∧ t.get PNL.PNL_TEMP_LATCHED = t.get PNL.PNL_TEMP_BAND ∧
      t.get PNL.PNL_TEMP_BAND = (s.panelTemp x).get PNL.PNL_TEMP_BAND ∧ t.on PNL.PNL_STAT_CLEANUP_PENDING = false ∧
      t.pnl.target.isSome = true ∧ t.pnl.refresh = false ∧ t.pnl.wfAt = t.mono ∧
      t.get PNL.DAY_USED_UPDATES = s.get PNL.DAY_USED_UPDATES ∧ t.pnl.shown = s.pnl.shown) ∧
  (∀ (x : Int) (s : State), s.posted = [] → s.mstate ≠ stPOWER_ON → s.enabled 0x09 = true → s.on PNL.PNL_STAT_UPDATING = false →
    s.get PNL.PNL_STAT_STEP = 0 → s.pfw = false → s.pnl.refresh = false → s.pnl.bootClear = false →
    s.on PNL.PNL_STAT_CLEANUP_PENDING = false → s.on PNL.PNL_STAT_UPD_OPEN = false → (s.panelTemp x).exemptChange = false →
    s.pnl.shown ≠ some (s.panelTemp x).compose → s.budgetOut = false →
    s.pnl.lastEnd.elim 0 (fun e => e + ms (s.get PNL.PNL_CFG_HOLDOFF_MS)) ≤ s.mono →
    (s.panelTemp x).on PNL.PNL_STAT_HELD = false → s.get PNL.DAY_USED_UPDATES < 0xFFFF →
    ∃ t, exec (.panelUpdateStart x) s = .next t ∧ t.get PNL.PNL_STAT_STEP = 1 ∧ t.on PNL.PNL_STAT_UPDATING = true ∧
      t.on PNL.PNL_STAT_UPD_OPEN = true ∧ t.get PNL.DAY_USED_UPDATES = s.get PNL.DAY_USED_UPDATES + 1 ∧
      t.pnl.target = some (s.panelTemp x).compose ∧ t.mono = s.mono) ∧
  (∀ (x : Int) (s : State), s.posted = [] → (s.pfw = true ∨ (s.panelTemp x).on PNL.PNL_STAT_HELD = true) →
    s.on PNL.PNL_STAT_UPDATING = false →
    ∃ t, exec (.panelUpdateStart x) s = .next t ∧ t.on PNL.PNL_STAT_UPDATING = false ∧ t.pnl = s.pnl ∧
      t.get PNL.PNL_STAT_STEP = s.get PNL.PNL_STAT_STEP) ∧
  (∀ (x : Int) (s : State), s.posted = [] → s.mstate ≠ stPOWER_ON → s.get PNL.PNL_STAT_STEP = 1 →
    (s.panelTemp x).on PNL.PNL_STAT_HELD = false →
    ∃ t, exec (.bandWaveformDone x) s = .next t ∧ t.get PNL.PNL_STAT_STEP = 2 ∧ t.on PNL.PNL_STAT_UPDATING = true ∧
      t.get PNL.WAVEFORMS = min (s.get PNL.WAVEFORMS + 16) (2 ^ 32 - 1) ∧ t.get PNL.PNL_TEMP_LATCHED = t.get PNL.PNL_TEMP_BAND ∧
      s.pnl.wfAt + ms (bandWave (s.get PNL.PNL_TEMP_LATCHED)) ≤ t.mono ∧ t.pnl.wfAt = t.mono) ∧
  (∀ (x : Int) (s : State), s.posted = [] → s.mstate ≠ stPOWER_ON → s.get PNL.PNL_STAT_STEP = 1 →
    (s.panelTemp x).on PNL.PNL_STAT_HELD = true →
    ∃ t, exec (.bandWaveformDone x) s = .next t ∧ t.get PNL.PNL_STAT_STEP = 0 ∧ t.on PNL.PNL_STAT_UPDATING = false ∧
      t.on PNL.PNL_STAT_UPD_OPEN = s.on PNL.PNL_STAT_UPD_OPEN ∧ t.pnl.shown = s.pnl.shown) ∧
  (∀ (x : Int) (g : PnlImg) (s : State), s.posted = [] → s.mstate ≠ stPOWER_ON → s.get PNL.PNL_STAT_STEP = 2 →
    s.pnl.target = some g →
    ∃ t, exec (.imageWaveformDone x) s = .next t ∧ t.get PNL.PNL_STAT_STEP = 0 ∧ t.on PNL.PNL_STAT_UPDATING = false ∧
      t.on PNL.PNL_STAT_UPD_OPEN = false ∧ t.pnl.shown = some g ∧ t.pnl.target = none ∧ t.pnl.lastEnd = some t.mono ∧
      t.get PNL.WAVEFORMS = min (s.get PNL.WAVEFORMS + 16) (2 ^ 32 - 1) ∧
      s.pnl.wfAt + ms (imageWave (s.get PNL.PNL_TEMP_LATCHED)) ≤ t.mono) ∧
  (∀ (x : Int) (g : PnlImg) (s : State), s.posted = [] → s.mstate ≠ stPOWER_ON → s.get PNL.PNL_STAT_STEP = 3 →
    s.pnl.target = some g →
    ∃ t, exec (.clearingWaveformDone x) s = .next t ∧ t.get PNL.PNL_STAT_STEP = 0 ∧ t.on PNL.PNL_STAT_UPDATING = false ∧
      t.on PNL.PNL_STAT_UPD_OPEN = false ∧ t.pnl.shown = some g ∧
      t.get PNL.WAVEFORMS = min (s.get PNL.WAVEFORMS + 32) (2 ^ 32 - 1) ∧
      s.pnl.wfAt + 2 * ms (imageWave (s.get PNL.PNL_TEMP_LATCHED)) ≤ t.mono) ∧
  (∀ s : State, s.posted = [] → s.mstate ≠ stPOWER_ON → s.blinking = true → s.on PNL.PNL_STAT_UPDATING = false →
    s.on PNL.PNL_STAT_UPD_OPEN = false →
    ∃ t, exec .blinkToggle s = .next t ∧ t.pnl.marker = (!s.pnl.marker) ∧ t.pnl.lastToggle = t.mono ∧
      t.get PNL.WAVEFORMS = min (s.get PNL.WAVEFORMS + 1) (2 ^ 32 - 1) ∧
      t.get PNL.DAY_USED_TOGGLES = s.get PNL.DAY_USED_TOGGLES + 1 ∧ t.on PNL.PNL_STAT_UPD_OPEN = false ∧
      s.pnl.lastToggle + secs (s.get PNL.PNL_CFG_BLINK_S) ≤ t.mono ∧
      s.mono + 2 * ms (phaseMs (s.get PNL.PNL_TEMP_BAND)) ≤ t.mono) ∧
  (∀ s : State, s.posted = [] → (s.blinking = false ∨ s.on PNL.PNL_STAT_UPDATING = true) →
    ∃ t, exec .blinkToggle s = .next t ∧ t.pnl = s.pnl ∧ t.get PNL.WAVEFORMS = s.get PNL.WAVEFORMS) ∧
  (∀ (o : BitVec 16) (s : State), s.posted = [] → s.mstate ≠ stPOWER_ON → s.enabled 0x09 = true →
    ∃ t, exec (.crackCheck o) s = .next t ∧ t.get PNL.CRACK_OHM = o.toNat ∧
      t.on PNL.PNL_STAT_CRACK = decide (2000 < o.toNat) ∧ t.on PNL.PNL_STAT_LOOP_LOST = decide (o.toNat < 50) ∧
      s.pnl.crackAt.elim 0 (· + secs 1) ≤ t.mono ∧ t.pnl = { s.pnl with crackAt := some t.mono }) ∧
  (∀ s : State, s.posted = [] → s.mstate ≠ stPOWER_ON → s.enabled 0x09 = true →
    ∃ t, exec (.frameCrcCheck true) s = .next t ∧ t.on PNL.PNL_STAT_FRAME_ERR = false ∧ t.pnl.bad = false ∧
      t.get PNL.PNL_CNT_FRAME_ERR_CNT = s.get PNL.PNL_CNT_FRAME_ERR_CNT ∧
      t.get PNL.PNL_STAT_CLEANUP_PENDING = s.get PNL.PNL_STAT_CLEANUP_PENDING) ∧
  (∀ s : State, s.posted = [] → s.mstate ≠ stPOWER_ON → s.enabled 0x09 = true →
    ∃ t, exec (.frameCrcCheck false) s = .next t ∧ t.on PNL.PNL_STAT_CLEANUP_PENDING = true ∧ t.pnl.bad = true ∧
      t.get PNL.PNL_CNT_FRAME_ERR_CNT = min (s.get PNL.PNL_CNT_FRAME_ERR_CNT + 1) 0xFF ∧
      t.on PNL.PNL_STAT_FRAME_ERR = (s.pnl.bad || s.on PNL.PNL_STAT_FRAME_ERR)) ∧
  (∀ (m : Master) (s : State), isUser m = false → s.posted = [] → s.guardOf 0x09 = none → s.pfw = false →
    ∃ t, exec (.pnlRefresh m) s = .next t ∧ t.pnl.refresh = true ∧ t.pnl.shown = s.pnl.shown ∧
      t.get (HDR.PG_ERR_CNT_LOST 0x09) = s.get (HDR.PG_ERR_CNT_LOST 0x09)) ∧
  (∀ (m : Master) (s : State), isUser m = false → s.posted = [] → s.guardOf 0x09 = none → s.pfw = true →
    ∃ t, exec (.pnlRefresh m) s = .next t ∧ t.pnl = s.pnl ∧
      t.get (HDR.PG_ERR_CNT_LOST 0x09) = min (s.get (HDR.PG_ERR_CNT_LOST 0x09) + 1) 0xFF) ∧
  (∀ (m : Master) (s : State), isUser m = false → s.posted = [] → s.guardOf 0x09 = none → s.lampOn = false →
    ∃ t, exec (.lampTest m) s = .next t ∧ t.pnl.lamp = some s.mono ∧ t.ledStat = 0x33333) ∧
  (∀ (m : Master) (e : Nat) (s : State), isUser m = false → s.posted = [] → s.guardOf 0x09 = none → s.pnl.lamp = some e → s.mono < e + secs 2 →
    ∃ t, exec (.lampTest m) s = .next t ∧ t.pnl = s.pnl ∧
      t.get (HDR.PG_ERR_CNT_LOST 0x09) = min (s.get (HDR.PG_ERR_CNT_LOST 0x09) + 1) 0xFF) ∧
  (∀ (e : Nat) (s : State), s.posted = [] → s.mstate ≠ stPOWER_ON → s.pnl.lamp = some e →
    ∃ t, exec .lampTestDone s = .next t ∧ t.pnl.lamp = none ∧ e + secs 2 ≤ t.mono)
end

