-- ==== Sys2Proof/Laws/Map.lean ====
section
/-! SUPPORT. The laws of the sparse maps: a read after a write to the same key gives the value written, a write
leaves every other key alone, and every operation keeps the canonical form. -/

namespace Sys2Proof.Machine

variable {α : Type} {d : Nat → α}

theorem mapGet_del_same (m : List (Nat × α)) (k : Nat) : mapGet d (mapDel m k) k = d k := by
  induction m with
  | nil => rfl
  | cons e t ih =>
    obtain ⟨a, v⟩ := e
    by_cases h : a = k
    · subst h; simpa [mapDel, List.filter_cons] using ih
    · have hk : k ≠ a := fun e => h e.symm
      have : mapDel ((a, v) :: t) k = (a, v) :: mapDel t k := by simp [mapDel, List.filter_cons, h]
      rw [this]; simp only [mapGet, if_neg hk]; exact ih

theorem mapGet_del_other (m : List (Nat × α)) {j k : Nat} (hjk : j ≠ k) :
    mapGet d (mapDel m k) j = mapGet d m j := by
  induction m with
  | nil => rfl
  | cons e t ih =>
    obtain ⟨a, v⟩ := e
    by_cases h : a = k
    · subst h
      have : mapDel ((a, v) :: t) a = mapDel t a := by simp [mapDel, List.filter_cons]
      rw [this, ih]; simp [mapGet, hjk]
    · have : mapDel ((a, v) :: t) k = (a, v) :: mapDel t k := by simp [mapDel, List.filter_cons, h]
      rw [this]; simp only [mapGet, ih]

theorem mapGet_ins_other (m : List (Nat × α)) {j k : Nat} (v : α) (hjk : j ≠ k) :
    mapGet d (mapIns k v m) j = mapGet d m j := by
  induction m with
  | nil => simp [mapIns, mapGet, hjk]
  | cons e t ih =>
    obtain ⟨a, x⟩ := e
    by_cases h : k < a
    · simp [mapIns, h, mapGet, hjk]
    · simp only [mapIns, if_neg h, mapGet, ih]

theorem mapGet_ins_same (m : List (Nat × α)) {k : Nat} (v : α) (hm : ∀ e ∈ m, e.1 ≠ k) :
    mapGet d (mapIns k v m) k = v := by
  induction m with
  | nil => simp [mapIns, mapGet]
  | cons e t ih =>
    obtain ⟨a, x⟩ := e
    have ha : k ≠ a := fun h => hm (a, x) (by simp) h.symm
    by_cases h : k < a
    · simp [mapIns, h, mapGet]
    · simp only [mapIns, if_neg h, mapGet, if_neg ha]
      exact ih (fun e he => hm e (by simp [he]))

theorem mem_mapDel {m : List (Nat × α)} {k : Nat} {e : Nat × α} (h : e ∈ mapDel m k) : e ∈ m ∧ e.1 ≠ k := by
  simpa [mapDel] using h

/-- A read after a write to the same key gives the value written. -/
@[simp] theorem mapGet_set_same [DecidableEq α] (m : List (Nat × α)) (k : Nat) (v : α) :
    mapGet d (mapSet d m k v) k = v := by
  unfold mapSet
  split
  · rename_i h; rw [mapGet_del_same, h]
  · exact mapGet_ins_same _ _ (fun e he => (mem_mapDel he).2)

/-- A write leaves every other key alone. -/
theorem mapGet_set_other [DecidableEq α] (m : List (Nat × α)) {j k : Nat} (v : α) (h : j ≠ k) :
    mapGet d (mapSet d m k v) j = mapGet d m j := by
  unfold mapSet
  split
  · exact mapGet_del_other m h
  · rw [mapGet_ins_other _ _ h, mapGet_del_other m h]

theorem mapWf_cons [DecidableEq α] {a : Nat} {v : α} {t : List (Nat × α)} :
    mapWf d ((a, v) :: t) = true ↔ v ≠ d a ∧ (∀ e ∈ t, a < e.1) ∧ mapWf d t = true := by
  simp [mapWf, and_assoc]

theorem mapWf_del [DecidableEq α] {m : List (Nat × α)} (k : Nat) (h : mapWf d m = true) :
    mapWf d (mapDel m k) = true := by
  induction m with
  | nil => exact h
  | cons e t ih =>
    obtain ⟨a, v⟩ := e
    obtain ⟨h1, h2, h3⟩ := mapWf_cons.1 h
    by_cases hk : a = k
    · have : mapDel ((a, v) :: t) k = mapDel t k := by simp [mapDel, List.filter_cons, hk]
      rw [this]; exact ih h3
    · have : mapDel ((a, v) :: t) k = (a, v) :: mapDel t k := by simp [mapDel, List.filter_cons, hk]
      rw [this]; exact mapWf_cons.2 ⟨h1, fun e he => h2 e (mem_mapDel he).1, ih h3⟩

theorem mem_mapIns {m : List (Nat × α)} {k : Nat} {v : α} {e : Nat × α} (h : e ∈ mapIns k v m) :
    e = (k, v) ∨ e ∈ m := by
  induction m with
  | nil => simpa [mapIns] using h
  | cons x t ih =>
    obtain ⟨a, y⟩ := x
    simp only [mapIns] at h
    split at h
    · simpa using h
    · rcases List.mem_cons.1 h with h | h
      · exact .inr (by simp [h])
      · rcases ih h with h | h
        · exact .inl h
        · exact .inr (by simp [h])

theorem mapWf_ins [DecidableEq α] {m : List (Nat × α)} {k : Nat} {v : α} (hv : v ≠ d k)
    (hm : ∀ e ∈ m, e.1 ≠ k) (h : mapWf d m = true) : mapWf d (mapIns k v m) = true := by
  induction m with
  | nil => exact mapWf_cons.2 ⟨hv, by simp, rfl⟩
  | cons e t ih =>
    obtain ⟨a, x⟩ := e
    obtain ⟨h1, h2, h3⟩ := mapWf_cons.1 h
    have ha : a ≠ k := hm (a, x) (by simp)
    simp only [mapIns]
    split
    · rename_i hlt
      refine mapWf_cons.2 ⟨hv, ?_, h⟩
      intro e he
      rcases List.mem_cons.1 he with he | he
      · simpa [he] using hlt
      · exact Nat.lt_trans hlt (h2 e he)
    · rename_i hlt
      refine mapWf_cons.2 ⟨h1, ?_, ih (fun e he => hm e (by simp [he])) h3⟩
      intro e he
      rcases mem_mapIns he with he | he
      · subst he; show a < k; omega
      · exact h2 e he

/-- A write keeps the canonical form. -/
theorem mapWf_set [DecidableEq α] {m : List (Nat × α)} (k : Nat) (v : α) (h : mapWf d m = true) :
    mapWf d (mapSet d m k v) = true := by
  unfold mapSet
  split
  · exact mapWf_del k h
  · exact mapWf_ins ‹_› (fun e he => (mem_mapDel he).2) (mapWf_del k h)

theorem mem_mapMap_lt [DecidableEq α] {f : Nat → α → α} {m : List (Nat × α)} {a : Nat}
    (h : ∀ e ∈ m, a < e.1) : ∀ e ∈ mapMap d f m, a < e.1 := by
  induction m with
  | nil => simp [mapMap]
  | cons x t ih =>
    obtain ⟨b, y⟩ := x
    have ht := ih (fun e he => h e (by simp [he]))
    intro e he
    simp only [mapMap] at he
    split at he
    · exact ht e he
    · rcases List.mem_cons.1 he with he | he
      · subst he; exact h (b, y) (by simp)
      · exact ht e he

/-- A map over the values keeps the canonical form. -/
theorem mapWf_map [DecidableEq α] {m : List (Nat × α)} (f : Nat → α → α) (h : mapWf d m = true) :
    mapWf d (mapMap d f m) = true := by
  induction m with
  | nil => rfl
  | cons e t ih =>
    obtain ⟨a, v⟩ := e
    obtain ⟨_, h2, h3⟩ := mapWf_cons.1 h
    simp only [mapMap]
    split
    · exact ih h3
    · exact mapWf_cons.2 ⟨‹_›, mem_mapMap_lt h2, ih h3⟩

theorem mapWf_filter [DecidableEq α] {m : List (Nat × α)} (f : Nat × α → Bool) (h : mapWf d m = true) :
    mapWf d (m.filter f) = true := by
  induction m with
  | nil => rfl
  | cons e t ih =>
    obtain ⟨a, v⟩ := e
    rw [mapWf_cons] at h
    by_cases hf : f (a, v) = true
    · rw [List.filter_cons_of_pos hf, mapWf_cons]
      exact ⟨h.1, fun e he => h.2.1 e (List.mem_filter.mp he).1, ih h.2.2⟩
    · rw [List.filter_cons_of_neg hf]; exact ih h.2.2

end Sys2Proof.Machine
end

