-- ==== Sys2Proof/Laws/Guard.lean ====
section
/-! SUPPORT. The driver's writes: a write to a page reaches that page, and a guarded write with no other open commits its value
(R45). -/

namespace Sys2Proof.Machine

/-- An address of a page belongs to that page, for every master. -/
theorem regionOf_page (n : Nat) {p off : Nat} (hp : (pageKind p).isSome = true) (h91 : p < 0x91) (ho : off < 4096) :
    regionOf n (pageAddr p off) = .page p := by
  have h : (pageAddr p off - 0x40000000) / 4096 = p := by unfold pageAddr; omega
  unfold regionOf
  rw [if_neg (by unfold pageAddr; omega), if_neg (by unfold pageAddr; omega), if_neg (by unfold pageAddr; omega),
    if_neg (by unfold pageAddr; omega), if_pos (by unfold pageAddr; omega), h, if_pos hp]

/-- A driver's write to a page, not from user mode. -/
theorem cmdWrite_page (s : State) (m : Master) {p off : Nat} (v : BitVec 32) (hu : isUser m = false)
    (hp : (pageKind p).isSome = true) (h91 : p < 0x91) (ho : off < 4096) (h4 : off % 4 = 0) :
    s.cmdWrite m p off v = ({ s with resp := .done }).pageWrite p off v (s.masterNo m) := by
  have ha : pageAddr p off % 4 = 0 := by unfold pageAddr; omega
  have hm : pageAddr p off % 4096 = off := by unfold pageAddr; omega
  have hv : (v.setWidth 64).extractLsb' 0 32 = v := by
    apply BitVec.eq_of_getLsbD_eq
    intro i hi
    simp [hi]
    omega
  have hb : s.barred m (pageAddr p off) 4 = false := by unfold State.barred; rw [hu]; rfl
  unfold State.cmdWrite State.masterWrite
  rw [if_neg (by rw [hb]; decide)]
  unfold State.busWrite
  dsimp only
  rw [regionOf_page _ hp h91 ho]
  simp only [wordRegion, if_true]
  rw [if_neg (by omega), if_neg (by omega), if_neg (by omega), hv]
  unfold State.wordWrite
  dsimp only
  rw [hm]

theorem guardExpire_none {s : State} {p : Nat} (h : s.guardOf p = none) : s.guardExpire p = s := by
  unfold State.guardExpire; rw [h]

theorem guardBreak_none {s : State} {p off m : Nat} (h : s.guardOf p = none) : s.guardBreak p off m = s := by
  unfold State.guardBreak; rw [h]

theorem guards_absent {s : State} {p : Nat} (h : s.guardOf p = none) : ∀ e ∈ s.guards, e.1 ≠ p := by
  intro e he hk
  unfold State.guardOf at h
  rw [Option.map_eq_none_iff, List.find?_eq_none] at h
  exact absurd (by simp [hk]) (h e he)

theorem mapDel_mapIns_absent {α : Type} (l : List (Nat × α)) (k : Nat) (v : α) (h : ∀ e ∈ l, e.1 ≠ k) :
    mapDel (mapIns k v l) k = l := by
  induction l with
  | nil => simp [mapIns, mapDel]
  | cons e t ih =>
    obtain ⟨b, x⟩ := e
    have hb : b ≠ k := h (b, x) (by simp)
    have ht : mapDel t k = t := by
      unfold mapDel
      rw [List.filter_eq_self]
      intro e he
      simp [h e (by simp [he])]
    unfold mapIns
    split
    · simp only [mapDel, List.filter_cons] at ht ⊢
      simp [hb, ht]
    · have := ih (fun e he => h e (by simp [he]))
      simp only [mapDel, List.filter_cons] at this ⊢
      simp [hb, this]

/-- The guarded write just opened is the one that the page shows. -/
theorem guardOf_opened (s : State) (p : Nat) (g : GuardOpen) (h : s.guardOf p = none) :
    ({ s with guards := mapIns p g s.guards }).guardOf p = some g := by
  have ha := guards_absent h
  unfold State.guardOf
  dsimp only
  generalize s.guards = l at ha
  induction l with
  | nil => simp [mapIns]
  | cons e t ih =>
    obtain ⟨b, x⟩ := e
    have hb : b ≠ p := ha (b, x) (by simp)
    unfold mapIns
    split
    · simp
    · rw [List.find?_cons_of_neg (by simpa using hb)]
      exact ih (fun e he => ha e (by simp [he]))

/-- A guarded write on a page with none open: value and complement by one master commit the value (R45). -/
theorem cmdGuard_commits (s : State) (m : Master) {p off : Nat} (v : BitVec 32) (hu : isUser m = false)
    (hp : (pageKind p).isSome = true) (h91 : p < 0x91) (ho : off < 0x600) (h4 : off % 4 = 0) (hlo : 0x400 ≤ off) (hg : isGrd p off = true) (hs : p ≠ 0x07 ∨ s.gnt.stopped = false)
    (hn : s.guardOf p = none) :
    s.cmdGuard m p off v = ({ s with resp := .done }).guardCommit p off v (s.masterNo m) := by
  unfold State.cmdGuard
  rw [cmdWrite_page s m v hu hp h91 (by omega) h4, cmdWrite_page _ m _ hu hp h91 (by omega) (by omega)]
  have hn' : ({ s with resp := .done } : State).guardOf p = none := hn
  have hs' : ¬ (p = 0x07 ∧ ({ s with resp := .done } : State).gnt.stopped = true) := by
    rintro ⟨h1, h2⟩
    rcases hs with h | h
    · exact h h1
    · rw [show ({ s with resp := .done } : State).gnt = s.gnt from rfl, h] at h2; cases h2
  have h1 : ({ s with resp := .done } : State).pageWrite p off v (s.masterNo m) =
      { s with resp := .done, guards := mapIns p ⟨off, v, s.masterNo m, s.mono⟩ s.guards } := by
    unfold State.pageWrite
    rw [guardExpire_none hn', if_neg hs', if_neg (by omega), if_pos (by simp [guardValue, hlo, ho])]
    unfold State.guardOpen
    rw [guardBreak_none hn']
    rfl
  rw [h1]
  have ho' : ({ s with resp := .done, guards := mapIns p ⟨off, v, s.masterNo m, s.mono⟩ s.guards } : State).guardOf p =
      some ⟨off, v, s.masterNo m, s.mono⟩ := guardOf_opened _ p _ hn
  have hx : (({ s with resp := .done, guards := mapIns p ⟨off, v, s.masterNo m, s.mono⟩ s.guards } : State).guardExpire p) =
      { s with resp := .done, guards := mapIns p ⟨off, v, s.masterNo m, s.mono⟩ s.guards } := by
    unfold State.guardExpire
    rw [ho']
    exact if_neg (by show ¬ (s.mono + guardWindow p < s.mono); omega)
  unfold State.pageWrite
  show (if p = 0x07 ∧ _ then _ else _) = _
  rw [hx, if_neg hs', if_pos (by omega)]
  unfold State.guardComplement
  rw [ho']
  show (if off + 0x200 = off + 0x200 ∧ _ ∧ _ then _ else _) = _
  rw [if_pos ⟨rfl, by cases m <;> rfl, rfl⟩]
  rw [if_pos hg]
  congr 1
  unfold State.guardClose
  rw [mapDel_mapIns_absent _ _ _ (guards_absent hn)]

end Sys2Proof.Machine
end

