-- ==== Sys2Proof/Laws/Keep.lean ====
section
/-! SUPPORT. What an operation keeps: the queue of waiting commands, the canonical form of the maps, and every part of the state outside
a set `may` (`Good`). An update of a field of `may` keeps it (`Good.u_…`), and so do a branch, a fold and the pair of a state and a
value. -/

set_option linter.all false

namespace Sys2Proof.Machine

variable {may : Part → Prop} {s₀ : State}

/-- What holds of a state `s` made from `s₀` by operations that change no part outside `may`: the queue of waiting commands is that of
`s₀`, the maps are canonical if those of `s₀` are, and every part outside `may` is that of `s₀`. -/
def Good (may : Part → Prop) (s₀ s : State) : Prop :=
  s.pending = s₀.pending ∧ (s₀.Canon → s.Canon) ∧ ∀ p, ¬ may p → s₀.samePart p s

theorem Good.ite {c : Prop} [Decidable c] {s t : State} (hs : Good may s₀ s) (ht : Good may s₀ t) :
    Good may s₀ (if c then s else t) := by split <;> assumption

theorem Good.ite1 {c : Prop} [Decidable c] {s t : State × α} (hs : Good may s₀ s.1) (ht : Good may s₀ t.1) :
    Good may s₀ (if c then s else t).1 := by split <;> assumption

theorem Good.foldl {α : Type} {f : State → α → State} {l : List α} {s : State}
    (hf : ∀ s a, Good may s₀ s → Good may s₀ (f s a)) (h : Good may s₀ s) : Good may s₀ (l.foldl f s) := by
  induction l generalizing s with
  | nil => exact h
  | cons a t ih => exact ih (hf _ _ h)

/-- An instruction result that keeps what `Good` says. -/
def GoodIl (may : Part → Prop) (s₀ : State) : IlResult → Prop
  | .next s => Good may s₀ s
  | .jump s _ => Good may s₀ s
  | .fault _ => True

theorem GoodIl.ite {c : Prop} [Decidable c] {s t : IlResult} (hs : GoodIl may s₀ s) (ht : GoodIl may s₀ t) :
    GoodIl may s₀ (if c then s else t) := by split <;> assumption

theorem GoodIl.next {s : State} (h : Good may s₀ s) : GoodIl may s₀ (.next s) := h
theorem GoodIl.jump {s : State} {n : Nat} (h : Good may s₀ s) : GoodIl may s₀ (.jump s n) := h
theorem GoodIl.fault {c : Nat} : GoodIl may s₀ (.fault c) := trivial

theorem Good.of_pair {α : Type} {s : State} {a : α} {p : State × α} (h : Good may s₀ p.1) (e : p = (s, a)) :
    Good may s₀ s := by subst e; exact h

/-! ### Updates of fields -/

theorem Good.u_aborts {s : State} (v0 : List (Nat × AbortRec)) (hg : Good may s₀ s) (k_aborts : may .aborts) :
    Good may s₀ { s with aborts := v0 } :=
  ⟨hg.1, hg.2.1, fun p hp => by have h := hg.2.2 p hp; cases p <;> first | exact absurd k_aborts hp | exact h⟩

theorem Good.u_banks {s : State} (v0 : List (Nat × Bank)) (hg : Good may s₀ s) (k_banks : may .banks) :
    Good may s₀ { s with banks := v0 } :=
  ⟨hg.1, hg.2.1, fun p hp => by have h := hg.2.2 p hp; cases p <;> first | exact absurd k_banks hp | exact h⟩

theorem Good.u_cans {s : State} (v0 : List (Nat × CanCtl)) (hg : Good may s₀ s) :
    Good may s₀ { s with cans := v0 } :=
  hg

theorem Good.u_cas {s : State} (v0 : List (Nat × CasSlot)) (hg : Good may s₀ s) (k_cas : may .cas) :
    Good may s₀ { s with cas := v0 } :=
  ⟨hg.1, hg.2.1, fun p hp => by have h := hg.2.2 p hp; cases p <;> first | exact absurd k_cas hp | exact h⟩

theorem Good.u_casBusy {s : State} (v0 : Nat) (hg : Good may s₀ s) (k_casBusy : may .casBusy) :
    Good may s₀ { s with casBusy := v0 } :=
  ⟨hg.1, hg.2.1, fun p hp => by have h := hg.2.2 p hp; cases p <;> first | exact absurd k_casBusy hp | exact h⟩

theorem Good.u_casQuery {s : State} (v0 : Nat) (hg : Good may s₀ s) (k_casQuery : may .casQuery) :
    Good may s₀ { s with casQuery := v0 } :=
  ⟨hg.1, hg.2.1, fun p hp => by have h := hg.2.2 p hp; cases p <;> first | exact absurd k_casQuery hp | exact h⟩

theorem Good.u_chalAt {s : State} (v0 : List (Nat × Nat)) (hg : Good may s₀ s) (k_chalAt : may .chalAt) :
    Good may s₀ { s with chalAt := v0 } :=
  ⟨hg.1, hg.2.1, fun p hp => by have h := hg.2.2 p hp; cases p <;> first | exact absurd k_chalAt hp | exact h⟩

theorem Good.u_chans {s : State} (v0 : List (Nat × Chan)) (hg : Good may s₀ s) (k_chans : may .chans) :
    Good may s₀ { s with chans := v0 } :=
  ⟨hg.1, hg.2.1, fun p hp => by have h := hg.2.2 p hp; cases p <;> first | exact absurd k_chans hp | exact h⟩

theorem Good.u_cis {s : State} (v0 : Cis) (hg : Good may s₀ s) (k_cis : may .cis) :
    Good may s₀ { s with cis := v0 } :=
  ⟨hg.1, hg.2.1, fun p hp => by have h := hg.2.2 p hp; cases p <;> first | exact absurd k_cis hp | exact h⟩

theorem Good.u_clo {s : State} (v0 : Clo) (hg : Good may s₀ s) (k_clo : may .clo) :
    Good may s₀ { s with clo := v0 } :=
  ⟨hg.1, hg.2.1, fun p hp => by have h := hg.2.2 p hp; cases p <;> first | exact absurd k_clo hp | exact h⟩

theorem Good.u_coreFaults {s : State} (v0 : List Nat) (hg : Good may s₀ s) (k_coreFaults : may .coreFaults) :
    Good may s₀ { s with coreFaults := v0 } :=
  ⟨hg.1, hg.2.1, fun p hp => by have h := hg.2.2 p hp; cases p <;> first | exact absurd k_coreFaults hp | exact h⟩

theorem Good.u_credFails {s : State} (v0 : List (Nat × Nat)) (hg : Good may s₀ s) (k_credFails : may .credFails) :
    Good may s₀ { s with credFails := v0 } :=
  ⟨hg.1, hg.2.1, fun p hp => by have h := hg.2.2 p hp; cases p <;> first | exact absurd k_credFails hp | exact h⟩

theorem Good.u_credFails_credLockTo {s : State} (v0 : List (Nat × Nat)) (v1 : List (Nat × Nat)) (hg : Good may s₀ s) (k_credFails : may .credFails) (k_credLockTo : may .credLockTo) :
    Good may s₀ { s with credFails := v0, credLockTo := v1 } :=
  ⟨hg.1, hg.2.1, fun p hp => by have h := hg.2.2 p hp; cases p <;> first | exact absurd k_credFails hp | exact absurd k_credLockTo hp | exact h⟩

theorem Good.u_creds {s : State} (v0 : List (Nat × BitVec 256)) (hg : Good may s₀ s) (k_creds : may .creds) :
    Good may s₀ { s with creds := v0 } :=
  ⟨hg.1, hg.2.1, fun p hp => by have h := hg.2.2 p hp; cases p <;> first | exact absurd k_creds hp | exact h⟩

theorem Good.u_dbgAuth {s : State} (v0 : Option Nat) (hg : Good may s₀ s) (k_dbgAuth : may .dbgAuth) :
    Good may s₀ { s with dbgAuth := v0 } :=
  ⟨hg.1, hg.2.1, fun p hp => by have h := hg.2.2 p hp; cases p <;> first | exact absurd k_dbgAuth hp | exact h⟩

theorem Good.u_dbgAuth_dmod {s : State} (v0 : Option Nat) (v1 : DebugMod) (hg : Good may s₀ s) (k_dbgAuth : may .dbgAuth) (k_dmod : may .dmod) :
    Good may s₀ { s with dbgAuth := v0, dmod := v1 } :=
  ⟨hg.1, hg.2.1, fun p hp => by have h := hg.2.2 p hp; cases p <;> first | exact absurd k_dbgAuth hp | exact absurd k_dmod hp | exact h⟩

theorem Good.u_dev {s : State} (v0 : Dev) (hg : Good may s₀ s) (k_dev : may .dev) :
    Good may s₀ { s with dev := v0 } :=
  ⟨hg.1, hg.2.1, fun p hp => by have h := hg.2.2 p hp; cases p <;> first | exact absurd k_dev hp | exact h⟩

theorem Good.u_dmi {s : State} (v0 : Option (Bool × BitVec 7 × Word)) (hg : Good may s₀ s) (k_dmi : may .dmi) :
    Good may s₀ { s with dmi := v0 } :=
  ⟨hg.1, hg.2.1, fun p hp => by have h := hg.2.2 p hp; cases p <;> first | exact absurd k_dmi hp | exact h⟩

theorem Good.u_dmod {s : State} (v0 : DebugMod) (hg : Good may s₀ s) (k_dmod : may .dmod) :
    Good may s₀ { s with dmod := v0 } :=
  ⟨hg.1, hg.2.1, fun p hp => by have h := hg.2.2 p hp; cases p <;> first | exact absurd k_dmod hp | exact h⟩

theorem Good.u_eths {s : State} (v0 : List (Nat × EthPort)) (hg : Good may s₀ s) :
    Good may s₀ { s with eths := v0 } :=
  hg

theorem Good.u_forceAuth {s : State} (v0 : Option Nat) (hg : Good may s₀ s) (k_forceAuth : may .forceAuth) :
    Good may s₀ { s with forceAuth := v0 } :=
  ⟨hg.1, hg.2.1, fun p hp => by have h := hg.2.2 p hp; cases p <;> first | exact absurd k_forceAuth hp | exact h⟩

theorem Good.u_forces {s : State} (v0 : List (Nat × Force)) (hg : Good may s₀ s) (k_forces : may .forces) :
    Good may s₀ { s with forces := v0 } :=
  ⟨hg.1, hg.2.1, fun p hp => by have h := hg.2.2 p hp; cases p <;> first | exact absurd k_forces hp | exact h⟩

theorem Good.u_forces_forceAuth {s : State} (v0 : List (Nat × Force)) (v1 : Option Nat) (hg : Good may s₀ s) (k_forces : may .forces) (k_forceAuth : may .forceAuth) :
    Good may s₀ { s with forces := v0, forceAuth := v1 } :=
  ⟨hg.1, hg.2.1, fun p hp => by have h := hg.2.2 p hp; cases p <;> first | exact absurd k_forces hp | exact absurd k_forceAuth hp | exact h⟩

theorem Good.u_freshCtr {s : State} (v0 : Nat) (hg : Good may s₀ s) (k_freshCtr : may .freshCtr) :
    Good may s₀ { s with freshCtr := v0 } :=
  ⟨hg.1, hg.2.1, fun p hp => by have h := hg.2.2 p hp; cases p <;> first | exact absurd k_freshCtr hp | exact h⟩

theorem Good.u_gnt {s : State} (v0 : Gnt) (hg : Good may s₀ s) (k_gnt : may .gnt) :
    Good may s₀ { s with gnt := v0 } :=
  ⟨hg.1, hg.2.1, fun p hp => by have h := hg.2.2 p hp; cases p <;> first | exact absurd k_gnt hp | exact h⟩

theorem Good.u_guards {s : State} (v0 : List (Nat × GuardOpen)) (hg : Good may s₀ s) (k_guards : may .guards) :
    Good may s₀ { s with guards := v0 } :=
  ⟨hg.1, hg.2.1, fun p hp => by have h := hg.2.2 p hp; cases p <;> first | exact absurd k_guards hp | exact h⟩

theorem Good.u_loops {s : State} (v0 : List (Nat × LoopCtx)) (hg : Good may s₀ s) (k_loops : may .loops) :
    Good may s₀ { s with loops := v0 } :=
  ⟨hg.1, hg.2.1, fun p hp => by have h := hg.2.2 p hp; cases p <;> first | exact absurd k_loops hp | exact h⟩

theorem Good.u_lpeBusy {s : State} (v0 : Nat) (hg : Good may s₀ s) (k_lpeBusy : may .lpeBusy) :
    Good may s₀ { s with lpeBusy := v0 } :=
  ⟨hg.1, hg.2.1, fun p hp => by have h := hg.2.2 p hp; cases p <;> first | exact absurd k_lpeBusy hp | exact h⟩

theorem Good.u_lpeBusy_casBusy {s : State} (v0 : Nat) (v1 : Nat) (hg : Good may s₀ s) (k_lpeBusy : may .lpeBusy) (k_casBusy : may .casBusy) :
    Good may s₀ { s with lpeBusy := v0, casBusy := v1 } :=
  ⟨hg.1, hg.2.1, fun p hp => by have h := hg.2.2 p hp; cases p <;> first | exact absurd k_lpeBusy hp | exact absurd k_casBusy hp | exact h⟩

theorem Good.u_lpeQuery {s : State} (v0 : Nat) (hg : Good may s₀ s) (k_lpeQuery : may .lpeQuery) :
    Good may s₀ { s with lpeQuery := v0 } :=
  ⟨hg.1, hg.2.1, fun p hp => by have h := hg.2.2 p hp; cases p <;> first | exact absurd k_lpeQuery hp | exact h⟩

theorem Good.u_lsqTest {s : State} (v0 : List (Nat × Nat)) (hg : Good may s₀ s) (k_lsqTest : may .lsqTest) :
    Good may s₀ { s with lsqTest := v0 } :=
  ⟨hg.1, hg.2.1, fun p hp => by have h := hg.2.2 p hp; cases p <;> first | exact absurd k_lsqTest hp | exact h⟩

theorem Good.u_mpl {s : State} (v0 : Mpl) (hg : Good may s₀ s) (k_mpl : may .mpl) :
    Good may s₀ { s with mpl := v0 } :=
  ⟨hg.1, hg.2.1, fun p hp => by have h := hg.2.2 p hp; cases p <;> first | exact absurd k_mpl hp | exact h⟩

theorem Good.u_pairs {s : State} (v0 : List (Nat × Pair)) (hg : Good may s₀ s) (k_pairs : may .pairs) :
    Good may s₀ { s with pairs := v0 } :=
  ⟨hg.1, hg.2.1, fun p hp => by have h := hg.2.2 p hp; cases p <;> first | exact absurd k_pairs hp | exact h⟩

theorem Good.u_pnl {s : State} (v0 : Pnl) (hg : Good may s₀ s) (k_pnl : may .pnl) :
    Good may s₀ { s with pnl := v0 } :=
  ⟨hg.1, hg.2.1, fun p hp => by have h := hg.2.2 p hp; cases p <;> first | exact absurd k_pnl hp | exact h⟩

theorem Good.u_posted {s : State} (v0 : List Nat) (hg : Good may s₀ s) :
    Good may s₀ { s with posted := v0 } :=
  hg

theorem Good.u_pwr {s : State} (v0 : Pwr) (hg : Good may s₀ s) (k_pwr : may .pwr) :
    Good may s₀ { s with pwr := v0 } :=
  ⟨hg.1, hg.2.1, fun p hp => by have h := hg.2.2 p hp; cases p <;> first | exact absurd k_pwr hp | exact h⟩

theorem Good.u_pwr_rdc {s : State} (v0 : Pwr) (v1 : Rdc) (hg : Good may s₀ s) (k_pwr : may .pwr) (k_rdc : may .rdc) :
    Good may s₀ { s with pwr := v0, rdc := v1 } :=
  ⟨hg.1, hg.2.1, fun p hp => by have h := hg.2.2 p hp; cases p <;> first | exact absurd k_pwr hp | exact absurd k_rdc hp | exact h⟩

theorem Good.u_rdc {s : State} (v0 : Rdc) (hg : Good may s₀ s) (k_rdc : may .rdc) :
    Good may s₀ { s with rdc := v0 } :=
  ⟨hg.1, hg.2.1, fun p hp => by have h := hg.2.2 p hp; cases p <;> first | exact absurd k_rdc hp | exact h⟩

theorem Good.u_rdc_slu {s : State} (v0 : Rdc) (v1 : Slu) (hg : Good may s₀ s) (k_rdc : may .rdc) (k_slu : may .slu) :
    Good may s₀ { s with rdc := v0, slu := v1 } :=
  ⟨hg.1, hg.2.1, fun p hp => by have h := hg.2.2 p hp; cases p <;> first | exact absurd k_rdc hp | exact absurd k_slu hp | exact h⟩

theorem Good.u_resp {s : State} (v0 : Resp) (hg : Good may s₀ s) (k_resp : may .resp) :
    Good may s₀ { s with resp := v0 } :=
  ⟨hg.1, hg.2.1, fun p hp => by have h := hg.2.2 p hp; cases p <;> first | exact absurd k_resp hp | exact h⟩

theorem Good.u_resp_freshCtr {s : State} (v0 : Resp) (v1 : Nat) (hg : Good may s₀ s) (k_resp : may .resp) (k_freshCtr : may .freshCtr) :
    Good may s₀ { s with resp := v0, freshCtr := v1 } :=
  ⟨hg.1, hg.2.1, fun p hp => by have h := hg.2.2 p hp; cases p <;> first | exact absurd k_resp hp | exact absurd k_freshCtr hp | exact h⟩

theorem Good.u_ringPosted {s : State} (v0 : List (Nat × Nat)) (hg : Good may s₀ s) (k_ringPosted : may .ringPosted) :
    Good may s₀ { s with ringPosted := v0 } :=
  ⟨hg.1, hg.2.1, fun p hp => by have h := hg.2.2 p hp; cases p <;> first | exact absurd k_ringPosted hp | exact h⟩

theorem Good.u_rix {s : State} (v0 : List (Nat × Rix)) (hg : Good may s₀ s) (k_rix : may .rix) :
    Good may s₀ { s with rix := v0 } :=
  ⟨hg.1, hg.2.1, fun p hp => by have h := hg.2.2 p hp; cases p <;> first | exact absurd k_rix hp | exact h⟩

theorem Good.u_rshadow {s : State} (v0 : List (Nat × Word)) (hg : Good may s₀ s) (k_rshadow : may .rshadow) :
    Good may s₀ { s with rshadow := v0 } :=
  ⟨hg.1, hg.2.1, fun p hp => by have h := hg.2.2 p hp; cases p <;> first | exact absurd k_rshadow hp | exact h⟩

theorem Good.u_scrubs {s : State} (v0 : List (Nat × Scrub)) (hg : Good may s₀ s) (k_scrubs : may .scrubs) :
    Good may s₀ { s with scrubs := v0 } :=
  ⟨hg.1, hg.2.1, fun p hp => by have h := hg.2.2 p hp; cases p <;> first | exact absurd k_scrubs hp | exact h⟩

theorem Good.u_sent {s : State} (v0 : List (Link × List Byte)) (hg : Good may s₀ s) :
    Good may s₀ { s with sent := v0 } :=
  hg

theorem Good.u_sent_gnt {s : State} (v0 : List (Link × List Byte)) (v1 : Gnt) (hg : Good may s₀ s) (k_gnt : may .gnt) :
    Good may s₀ { s with sent := v0, gnt := v1 } :=
  ⟨hg.1, hg.2.1, fun p hp => by have h := hg.2.2 p hp; cases p <;> first | exact absurd k_gnt hp | exact h⟩

theorem Good.u_seqs {s : State} (v0 : List (Nat × Seq)) (hg : Good may s₀ s) (k_seqs : may .seqs) :
    Good may s₀ { s with seqs := v0 } :=
  ⟨hg.1, hg.2.1, fun p hp => by have h := hg.2.2 p hp; cases p <;> first | exact absurd k_seqs hp | exact h⟩

theorem Good.u_sers {s : State} (v0 : List (Nat × SerPort)) (hg : Good may s₀ s) (k_sers : may .sers) :
    Good may s₀ { s with sers := v0 } :=
  ⟨hg.1, hg.2.1, fun p hp => by have h := hg.2.2 p hp; cases p <;> first | exact absurd k_sers hp | exact h⟩

theorem Good.u_sess {s : State} (v0 : List (Nat × Sess)) (hg : Good may s₀ s) :
    Good may s₀ { s with sess := v0 } :=
  hg

theorem Good.u_slu {s : State} (v0 : Slu) (hg : Good may s₀ s) (k_slu : may .slu) :
    Good may s₀ { s with slu := v0 } :=
  ⟨hg.1, hg.2.1, fun p hp => by have h := hg.2.2 p hp; cases p <;> first | exact absurd k_slu hp | exact h⟩

theorem Good.u_tku {s : State} (v0 : Tku) (hg : Good may s₀ s) (k_tku : may .tku) :
    Good may s₀ { s with tku := v0 } :=
  ⟨hg.1, hg.2.1, fun p hp => by have h := hg.2.2 p hp; cases p <;> first | exact absurd k_tku hp | exact h⟩

theorem Good.u_tku_pwr_clo {s : State} (v0 : Tku) (v1 : Pwr) (v2 : Clo) (hg : Good may s₀ s) (k_tku : may .tku) (k_pwr : may .pwr) (k_clo : may .clo) :
    Good may s₀ { s with tku := v0, pwr := v1, clo := v2 } :=
  ⟨hg.1, hg.2.1, fun p hp => by have h := hg.2.2 p hp; cases p <;> first | exact absurd k_tku hp | exact absurd k_pwr hp | exact absurd k_clo hp | exact h⟩

theorem Good.u_wshadow {s : State} (v0 : List (Nat × Option Word)) (hg : Good may s₀ s) (k_wshadow : may .wshadow) :
    Good may s₀ { s with wshadow := v0 } :=
  ⟨hg.1, hg.2.1, fun p hp => by have h := hg.2.2 p hp; cases p <;> first | exact absurd k_wshadow hp | exact h⟩

end Sys2Proof.Machine
end

