-- ==== Sys2Proof/Laws/KeepCore.lean ====
section
/-! SUPPORT. What every operation keeps (`Good`), operation by operation: the operations over registers and memory, the time base, the loop engine and the rings. -/

set_option linter.all false

namespace Sys2Proof.Machine

variable {may : Part → Prop} {s₀ : State}

/-! ### Ops -/

theorem State.wr_good {s : State} (k : Nat) (v : Word) (hg : Good may s₀ s) : Good may s₀ (s.wr k v) :=
  ⟨hg.1, fun h => ⟨mapWf_set _ _ (hg.2.1 h).1, (hg.2.1 h).2⟩, fun p hp => by have h := hg.2.2 p hp; cases p <;> exact h⟩

theorem State.put_good {s : State} (f : Fld) (n : Nat) (hg : Good may s₀ s) :
    Good may s₀ (State.put s f n) := by
  unfold State.put
  with_reducible repeat' first | assumption | apply State.wr_good | refine Good.ite ?_ ?_ | split

theorem State.putB_good {s : State} (f : Fld) (b : Bool) (hg : Good may s₀ s) :
    Good may s₀ (State.putB s f b) := by
  unfold State.putB
  with_reducible repeat' first | assumption | apply State.put_good | refine Good.ite ?_ ?_ | split

theorem State.bump_good {s : State} (f : Fld) (hg : Good may s₀ s) :
    Good may s₀ (State.bump s f) := by
  unfold State.bump
  with_reducible repeat' first | assumption | apply State.put_good | refine Good.ite ?_ ?_ | split

theorem State.bumpBy_good {s : State} (f : Fld) (n : Nat) (hg : Good may s₀ s) :
    Good may s₀ (State.bumpBy s f n) := by
  unfold State.bumpBy
  with_reducible repeat' first | assumption | apply State.put_good | refine Good.ite ?_ ?_ | split

theorem State.inc_good {s : State} (f : Fld) (hg : Good may s₀ s) :
    Good may s₀ (State.inc s f) := by
  unfold State.inc
  with_reducible repeat' first | assumption | apply State.put_good | refine Good.ite ?_ ?_ | split

theorem State.putSat_good {s : State} (f : Fld) (n : Nat) (hg : Good may s₀ s) :
    Good may s₀ (State.putSat s f n) := by
  unfold State.putSat
  with_reducible repeat' first | assumption | apply State.put_good | refine Good.ite ?_ ?_ | split

theorem State.put64_good {s : State} (lo : Fld) (hi : Fld) (n : Nat) (hg : Good may s₀ s) :
    Good may s₀ (State.put64 s lo hi n) := by
  unfold State.put64
  with_reducible repeat' first | assumption | apply State.put_good | refine Good.ite ?_ ?_ | split

theorem State.errAddr_good {s : State} (page : Nat) (off : Nat) (cause : Nat) (m : Nat) (hg : Good may s₀ s) :
    Good may s₀ (State.errAddr s page off cause m) := by
  unfold State.errAddr
  with_reducible repeat' first | assumption | apply State.put_good | refine Good.ite ?_ ?_ | split

theorem State.lost_good {s : State} (page : Nat) (off : Nat) (cause : Nat) (m : Nat) (hg : Good may s₀ s) :
    Good may s₀ (State.lost s page off cause m) := by
  unfold State.lost
  with_reducible repeat' first | assumption | apply State.bump_good | apply State.errAddr_good | refine Good.ite ?_ ?_ | split

theorem State.badAccess_good {s : State} (page : Nat) (off : Nat) (cause : Nat) (m : Nat) (hg : Good may s₀ s) :
    Good may s₀ (State.badAccess s page off cause m) := by
  unfold State.badAccess
  with_reducible repeat' first | assumption | apply State.bump_good | apply State.errAddr_good | refine Good.ite ?_ ?_ | split

theorem State.badGuard_good {s : State} (page : Nat) (off : Nat) (cause : Nat) (m : Nat) (hg : Good may s₀ s) :
    Good may s₀ (State.badGuard s page off cause m) := by
  unfold State.badGuard
  with_reducible repeat' first | assumption | apply State.bump_good | apply State.errAddr_good | refine Good.ite ?_ ?_ | split

theorem State.setMstate_good {s : State} (n : Nat) (hg : Good may s₀ s) :
    Good may s₀ (State.setMstate s n) := by
  unfold State.setMstate
  with_reducible repeat' first | assumption | apply State.put_good | refine Good.ite ?_ ?_ | split

theorem State.free_good {s : State} (hg : Good may s₀ s) (k_freshCtr : may .freshCtr) :
    Good may s₀ (State.free s).1 := by
  unfold State.free
  with_reducible repeat' first
      | assumption | refine Good.ite ?_ ?_ | refine Good.ite1 ?_ ?_
      | (extract_lets +onlyGivenNames lt; refine (show Good may s₀ lt → _ from fun hlt => ?_) ?_; (on_goal 1 => clear_value lt); on_goal 2 => subst lt)
      | (extract_lets +onlyGivenNames lt; clear_value lt) | split
      | (apply Good.u_freshCtr; first | assumption | refine Good.ite ?_ ?_ | refine Good.of_pair ?_ ‹_›)

theorem State.runCycles_good {s : State} (n : Nat) (hg : Good may s₀ s) (k_tku : may .tku) :
    Good may s₀ (State.runCycles s n) := by
  unfold State.runCycles
  with_reducible repeat' first
      | assumption | apply State.put_good | refine Good.ite ?_ ?_
      | (extract_lets +onlyGivenNames lt; refine (show Good may s₀ lt → _ from fun hlt => ?_) ?_; (on_goal 1 => clear_value lt); on_goal 2 => subst lt)
      | (extract_lets +onlyGivenNames lt; refine (show Good may s₀ lt.1 → _ from fun hlt => ?_) ?_; (on_goal 1 => clear_value lt); on_goal 2 => subst lt)
      | (extract_lets +onlyGivenNames lt; clear_value lt) | split
      | (apply Good.u_tku; first | assumption | refine Good.ite ?_ ?_ | refine Good.of_pair ?_ ‹_› | apply State.put_good)

theorem State.untilMono_good {s : State} (t : Nat) (hg : Good may s₀ s) (k_tku : may .tku) :
    Good may s₀ (State.untilMono s t) := by
  unfold State.untilMono
  with_reducible repeat' first | assumption | apply State.runCycles_good | refine Good.ite ?_ ?_ | split

theorem State.untilTime_good {s : State} (t : BitVec 64) (hg : Good may s₀ s) (k_tku : may .tku) :
    Good may s₀ (State.untilTime s t) := by
  unfold State.untilTime
  with_reducible repeat' first | assumption | apply State.runCycles_good | refine Good.ite ?_ ?_ | split

theorem State.setByte_good {s : State} (n : Nat) (b : Byte) (hg : Good may s₀ s) (k_mem : may .mem) : Good may s₀ (s.setByte n b) :=
  ⟨hg.1, fun h => ⟨(hg.2.1 h).1, mapWf_set _ _ (hg.2.1 h).2.1, (hg.2.1 h).2.2⟩,
    fun p hp => by have h := hg.2.2 p hp; cases p <;> first | exact absurd k_mem hp | exact h⟩

theorem State.setBytes_good {s : State} (n : Nat) (l : List Byte) (hg : Good may s₀ s) (k_mem : may .mem) : Good may s₀ (s.setBytes n l) := by
  induction l generalizing s n with
  | nil => exact hg
  | cons b t ih => exact ih _ (State.setByte_good _ _ hg k_mem)

theorem State.setLE_good {s : State} (a : Nat) (n : Nat) (v : Nat) (hg : Good may s₀ s) (k_mem : may .mem) :
    Good may s₀ (State.setLE s a n v) := by
  unfold State.setLE
  with_reducible repeat' first | assumption | apply State.setBytes_good | refine Good.ite ?_ ?_ | split

theorem State.setSlot_good {s : State} (n : Nat) (v : SigSlot) (hg : Good may s₀ s) (k_sig : may .sig) : Good may s₀ (s.setSlot n v) :=
  ⟨hg.1, fun h => ⟨(hg.2.1 h).1, (hg.2.1 h).2.1, mapWf_set _ _ (hg.2.1 h).2.2⟩,
    fun p hp => by have h := hg.2.2 p hp; cases p <;> first | exact absurd k_sig hp | exact h⟩

theorem State.claim_good {s : State} (n : Nat) (cls : Nat) (id : Nat) (hg : Good may s₀ s) (k_sig : may .sig) :
    Good may s₀ (State.claim s n cls id) := by
  unfold State.claim
  with_reducible repeat' first
      | assumption | apply State.setSlot_good | refine Good.ite ?_ ?_
      | (extract_lets +onlyGivenNames lt; refine (show Good may s₀ lt → _ from fun hlt => ?_) ?_; (on_goal 1 => clear_value lt); on_goal 2 => subst lt)
      | (extract_lets +onlyGivenNames lt; refine (show Good may s₀ lt.1 → _ from fun hlt => ?_) ?_; (on_goal 1 => clear_value lt); on_goal 2 => subst lt)
      | (extract_lets +onlyGivenNames lt; clear_value lt) | split

theorem State.freeSlot_good {s : State} (n : Nat) (hg : Good may s₀ s) (k_sig : may .sig) :
    Good may s₀ (State.freeSlot s n) := by
  unfold State.freeSlot
  with_reducible repeat' first
      | assumption | apply State.setSlot_good | refine Good.ite ?_ ?_
      | (extract_lets +onlyGivenNames lt; refine (show Good may s₀ lt → _ from fun hlt => ?_) ?_; (on_goal 1 => clear_value lt); on_goal 2 => subst lt)
      | (extract_lets +onlyGivenNames lt; refine (show Good may s₀ lt.1 → _ from fun hlt => ?_) ?_; (on_goal 1 => clear_value lt); on_goal 2 => subst lt)
      | (extract_lets +onlyGivenNames lt; clear_value lt) | split

theorem State.sigRefuse_good {s : State} (n : Nat) (cls : Nat) (id : Nat) (hg : Good may s₀ s) :
    Good may s₀ (State.sigRefuse s n cls id) := by
  unfold State.sigRefuse
  with_reducible repeat' first | assumption | apply State.put_good | apply State.bump_good | refine Good.ite ?_ ?_ | split

theorem State.post_good {s : State} (n : Nat) (cls : Nat) (id : Nat) (v : Word) (valid : Bool) (late : Bool) (subst : Bool)
    (sat : Bool) (age : Nat) (hg : Good may s₀ s) (k_sig : may .sig) :
    Good may s₀ (State.post s n cls id v valid late subst sat age) := by
  unfold State.post
  with_reducible repeat' first
      | assumption | apply State.setSlot_good | apply State.sigRefuse_good | refine Good.ite ?_ ?_
      | (extract_lets +onlyGivenNames lt; refine (show Good may s₀ lt → _ from fun hlt => ?_) ?_; (on_goal 1 => clear_value lt); on_goal 2 => subst lt)
      | (extract_lets +onlyGivenNames lt; refine (show Good may s₀ lt.1 → _ from fun hlt => ?_) ?_; (on_goal 1 => clear_value lt); on_goal 2 => subst lt)
      | (extract_lets +onlyGivenNames lt; clear_value lt) | split
      | (apply Good.u_posted; first | assumption | refine Good.ite ?_ ?_ | refine Good.of_pair ?_ ‹_› | apply State.setSlot_good | apply State.sigRefuse_good)

theorem State.invalidate_good {s : State} (n : Nat) (hg : Good may s₀ s) (k_sig : may .sig) :
    Good may s₀ (State.invalidate s n) := by
  unfold State.invalidate
  with_reducible repeat' first
      | assumption | apply State.setSlot_good | refine Good.ite ?_ ?_
      | (extract_lets +onlyGivenNames lt; refine (show Good may s₀ lt → _ from fun hlt => ?_) ?_; (on_goal 1 => clear_value lt); on_goal 2 => subst lt)
      | (extract_lets +onlyGivenNames lt; refine (show Good may s₀ lt.1 → _ from fun hlt => ?_) ?_; (on_goal 1 => clear_value lt); on_goal 2 => subst lt)
      | (extract_lets +onlyGivenNames lt; clear_value lt) | split

theorem State.ageAll_good {s : State} (hg : Good may s₀ s) (k_sig : may .sig) : Good may s₀ s.ageAll :=
  ⟨hg.1, fun h => ⟨(hg.2.1 h).1, (hg.2.1 h).2.1, mapWf_map _ (hg.2.1 h).2.2⟩,
    fun p hp => by have h := hg.2.2 p hp; cases p <;> first | exact absurd k_sig hp | exact h⟩

/-! ### TimeOps -/

theorem State.putBit_good {s : State} (f : Fld) (i : Nat) (b : Bool) (hg : Good may s₀ s) :
    Good may s₀ (State.putBit s f i b) := by
  unfold State.putBit
  with_reducible repeat' first
      | assumption | apply State.put_good | refine Good.ite ?_ ?_
      | (extract_lets +onlyGivenNames lt; refine (show Good may s₀ lt → _ from fun hlt => ?_) ?_; (on_goal 1 => clear_value lt); on_goal 2 => subst lt)
      | (extract_lets +onlyGivenNames lt; clear_value lt) | split

theorem State.leaveWfi_good {s : State} (d : Nat) (hg : Good may s₀ s) (k_pairs : may .pairs) :
    Good may s₀ (State.leaveWfi s d) := by
  unfold State.leaveWfi
  with_reducible repeat' first
      | assumption | refine Good.ite ?_ ?_
      | (extract_lets +onlyGivenNames lt; refine (show Good may s₀ lt → _ from fun hlt => ?_) ?_; (on_goal 1 => clear_value lt); on_goal 2 => subst lt)
      | (extract_lets +onlyGivenNames lt; clear_value lt) | split
      | (apply Good.u_pairs; first | assumption | refine Good.ite ?_ ?_ | refine Good.of_pair ?_ ‹_›)

theorem State.wakeDomain_good {s : State} (d : Nat) (hg : Good may s₀ s) (k_clo : may .clo) (k_pairs : may .pairs) :
    Good may s₀ (State.wakeDomain s d) := by
  unfold State.wakeDomain
  with_reducible repeat' first
      | assumption | apply State.leaveWfi_good | apply State.putBit_good | refine Good.ite ?_ ?_
      | (extract_lets +onlyGivenNames lt; refine (show Good may s₀ lt → _ from fun hlt => ?_) ?_; (on_goal 1 => clear_value lt); on_goal 2 => subst lt)
      | (extract_lets +onlyGivenNames lt; refine (show Good may s₀ lt.1 → _ from fun hlt => ?_) ?_; (on_goal 1 => clear_value lt); on_goal 2 => subst lt)
      | (extract_lets +onlyGivenNames lt; clear_value lt) | split
      | (apply Good.u_clo; first | assumption | refine Good.ite ?_ ?_ | refine Good.of_pair ?_ ‹_› | apply State.leaveWfi_good | apply State.putBit_good)

theorem State.stopDomain_good {s : State} (d : Nat) (hg : Good may s₀ s) :
    Good may s₀ (State.stopDomain s d) := by
  unfold State.stopDomain
  with_reducible repeat' first | assumption | apply State.putBit_good | refine Good.ite ?_ ?_ | split

theorem State.stopDomains_good {s : State} (p0 : List Nat) (hg : Good may s₀ s) :
    Good may s₀ (State.stopDomains s p0) := by
  induction p0 generalizing s with
  | nil => unfold State.stopDomains; with_reducible repeat' first | assumption | apply State.stopDomain_good | refine Good.ite ?_ ?_ | split
  | cons hd tl ih => unfold State.stopDomains; with_reducible repeat' first
      | assumption | apply ih | apply State.stopDomain_good | refine Good.ite ?_ ?_ | split

theorem State.wakeHeld_good {s : State} (hg : Good may s₀ s) (k_clo : may .clo) (k_pairs : may .pairs) :
    Good may s₀ (State.wakeHeld s) := by
  unfold State.wakeHeld
  with_reducible repeat' first | assumption | apply State.wakeDomain_good | refine Good.ite ?_ ?_ | (refine Good.foldl (fun _ _ _ => ?_) ?_) | split

theorem State.applyR468_good {s : State} (hg : Good may s₀ s) (k_clo : may .clo) (k_pairs : may .pairs) :
    Good may s₀ (State.applyR468 s) := by
  unfold State.applyR468
  with_reducible repeat' first | assumption | apply State.wakeHeld_good | apply State.stopDomains_good | refine Good.ite ?_ ?_ | split

theorem State.loadAddend_good {s : State} (num : Int) (den : Nat) (hg : Good may s₀ s) (k_freshCtr : may .freshCtr) :
    Good may s₀ (State.loadAddend s num den) := by
  unfold State.loadAddend
  with_reducible repeat' first
      | assumption | apply State.put_good | apply State.free_good | refine Good.ite ?_ ?_
      | (extract_lets +onlyGivenNames lt; refine (show Good may s₀ lt → _ from fun hlt => ?_) ?_; (on_goal 1 => clear_value lt); on_goal 2 => subst lt)
      | (extract_lets +onlyGivenNames lt; refine (show Good may s₀ lt.1 → _ from fun hlt => ?_) ?_; (on_goal 1 => clear_value lt); on_goal 2 => subst lt)
      | (extract_lets +onlyGivenNames lt; clear_value lt) | refine Good.of_pair ?_ ‹_› | split

theorem State.servoUpdate_good {s : State} (o : Int) (hg : Good may s₀ s) (k_freshCtr : may .freshCtr) (k_tku : may .tku) :
    Good may s₀ (State.servoUpdate s o) := by
  unfold State.servoUpdate
  with_reducible repeat' first
      | assumption | apply State.put_good | apply State.putB_good | apply State.loadAddend_good | refine Good.ite ?_ ?_
      | (extract_lets +onlyGivenNames lt; refine (show Good may s₀ lt → _ from fun hlt => ?_) ?_; (on_goal 1 => clear_value lt); on_goal 2 => subst lt)
      | (extract_lets +onlyGivenNames lt; refine (show Good may s₀ lt.1 → _ from fun hlt => ?_) ?_; (on_goal 1 => clear_value lt); on_goal 2 => subst lt)
      | (extract_lets +onlyGivenNames lt; clear_value lt) | split
      | (apply Good.u_tku; first | assumption | refine Good.ite ?_ ?_ | refine Good.of_pair ?_ ‹_› | apply State.put_good | apply State.putB_good | apply State.loadAddend_good)

theorem State.offsetAccepted_good {s : State} (o : Int) (hg : Good may s₀ s) (k_tku : may .tku) :
    Good may s₀ (State.offsetAccepted s o) := by
  unfold State.offsetAccepted
  with_reducible repeat' first
      | assumption | apply State.put_good | apply State.put64_good | refine Good.ite ?_ ?_
      | (extract_lets +onlyGivenNames lt; refine (show Good may s₀ lt → _ from fun hlt => ?_) ?_; (on_goal 1 => clear_value lt); on_goal 2 => subst lt)
      | (extract_lets +onlyGivenNames lt; refine (show Good may s₀ lt.1 → _ from fun hlt => ?_) ?_; (on_goal 1 => clear_value lt); on_goal 2 => subst lt)
      | (extract_lets +onlyGivenNames lt; clear_value lt) | split
      | (apply Good.u_tku; first | assumption | refine Good.ite ?_ ?_ | refine Good.of_pair ?_ ‹_› | apply State.put_good | apply State.put64_good)

theorem State.offsetCommit_good {s : State} (o : Int) (m : Nat) (hg : Good may s₀ s) (k_freshCtr : may .freshCtr) (k_tku : may .tku) :
    Good may s₀ (State.offsetCommit s o m) := by
  unfold State.offsetCommit
  with_reducible repeat' first
      | assumption | apply State.put_good | apply State.bump_good | apply State.lost_good | apply State.offsetAccepted_good
      | apply State.servoUpdate_good | refine Good.ite ?_ ?_
      | (extract_lets +onlyGivenNames lt; refine (show Good may s₀ lt → _ from fun hlt => ?_) ?_; (on_goal 1 => clear_value lt); on_goal 2 => subst lt)
      | (extract_lets +onlyGivenNames lt; refine (show Good may s₀ lt.1 → _ from fun hlt => ?_) ?_; (on_goal 1 => clear_value lt); on_goal 2 => subst lt)
      | (extract_lets +onlyGivenNames lt; clear_value lt) | split
      | (apply Good.u_tku; first | assumption | refine Good.ite ?_ ?_ | refine Good.of_pair ?_ ‹_› | apply State.put_good | apply State.bump_good | apply State.lost_good | apply State.offsetAccepted_good | apply State.servoUpdate_good)

theorem State.enterHoldover_good {s : State} (hg : Good may s₀ s) (k_freshCtr : may .freshCtr) :
    Good may s₀ (State.enterHoldover s) := by
  unfold State.enterHoldover
  with_reducible repeat' first
      | assumption | apply State.put_good | apply State.loadAddend_good | refine Good.ite ?_ ?_
      | (extract_lets +onlyGivenNames lt; refine (show Good may s₀ lt → _ from fun hlt => ?_) ?_; (on_goal 1 => clear_value lt); on_goal 2 => subst lt)
      | (extract_lets +onlyGivenNames lt; refine (show Good may s₀ lt.1 → _ from fun hlt => ?_) ?_; (on_goal 1 => clear_value lt); on_goal 2 => subst lt)
      | (extract_lets +onlyGivenNames lt; clear_value lt) | split

/-! ### Operands -/

theorem State.setSeq_good {s : State} (q : Nat) (v : Seq) (hg : Good may s₀ s) (k_seqs : may .seqs) :
    Good may s₀ (State.setSeq s q v) := by
  unfold State.setSeq
  with_reducible repeat' first
      | assumption | refine Good.ite ?_ ?_
      | (extract_lets +onlyGivenNames lt; refine (show Good may s₀ lt → _ from fun hlt => ?_) ?_; (on_goal 1 => clear_value lt); on_goal 2 => subst lt)
      | (extract_lets +onlyGivenNames lt; clear_value lt) | split
      | (apply Good.u_seqs; first | assumption | refine Good.ite ?_ ?_ | refine Good.of_pair ?_ ‹_›)

theorem State.setTask_good {s : State} (q : Nat) (t : Nat) (r : TaskRt) (hg : Good may s₀ s) (k_seqs : may .seqs) :
    Good may s₀ (State.setTask s q t r) := by
  unfold State.setTask
  with_reducible repeat' first | assumption | apply State.setSeq_good | refine Good.ite ?_ ?_ | split

theorem State.setSpare_good {s : State} (q : Nat) (i : Option SeqImage) (hg : Good may s₀ s) (k_seqs : may .seqs) :
    Good may s₀ (State.setSpare s q i) := by
  unfold State.setSpare
  with_reducible repeat' first
      | assumption | apply State.setSeq_good | refine Good.ite ?_ ?_
      | (extract_lets +onlyGivenNames lt; refine (show Good may s₀ lt → _ from fun hlt => ?_) ?_; (on_goal 1 => clear_value lt); on_goal 2 => subst lt)
      | (extract_lets +onlyGivenNames lt; refine (show Good may s₀ lt.1 → _ from fun hlt => ?_) ?_; (on_goal 1 => clear_value lt); on_goal 2 => subst lt)
      | (extract_lets +onlyGivenNames lt; clear_value lt) | split

theorem State.setTaskSt_good {s : State} (q : Nat) (t : Nat) (n : Nat) (hg : Good may s₀ s) :
    Good may s₀ (State.setTaskSt s q t n) := by
  unfold State.setTaskSt
  with_reducible repeat' first | assumption | apply State.put_good | refine Good.ite ?_ ?_ | split

theorem State.lateSlots_good {s : State} (cls : Nat) (id : Nat) (p0 : List Nat) (hg : Good may s₀ s) (k_sig : may .sig) :
    Good may s₀ (State.lateSlots s cls id p0) := by
  induction p0 generalizing s cls id with
  | nil => unfold State.lateSlots; with_reducible repeat' first
      | assumption | apply State.setSlot_good | refine Good.ite ?_ ?_
      | (extract_lets +onlyGivenNames lt; refine (show Good may s₀ lt → _ from fun hlt => ?_) ?_; (on_goal 1 => clear_value lt); on_goal 2 => subst lt)
      | (extract_lets +onlyGivenNames lt; refine (show Good may s₀ lt.1 → _ from fun hlt => ?_) ?_; (on_goal 1 => clear_value lt); on_goal 2 => subst lt)
      | (extract_lets +onlyGivenNames lt; clear_value lt) | split
  | cons hd tl ih => unfold State.lateSlots; with_reducible repeat' first
      | assumption | apply ih | apply State.setSlot_good | refine Good.ite ?_ ?_
      | (extract_lets +onlyGivenNames lt; refine (show Good may s₀ lt → _ from fun hlt => ?_) ?_; (on_goal 1 => clear_value lt); on_goal 2 => subst lt)
      | (extract_lets +onlyGivenNames lt; refine (show Good may s₀ lt.1 → _ from fun hlt => ?_) ?_; (on_goal 1 => clear_value lt); on_goal 2 => subst lt)
      | (extract_lets +onlyGivenNames lt; clear_value lt) | split

theorem State.writeBit_good {s : State} (q : Nat) (o : BitVec 24) (x : Bool) (hg : Good may s₀ s) (k_seqs : may .seqs) :
    Good may s₀ (State.writeBit s q o x) := by
  unfold State.writeBit
  with_reducible repeat' first
      | assumption | apply State.setSeq_good | refine Good.ite ?_ ?_
      | (extract_lets +onlyGivenNames lt; refine (show Good may s₀ lt → _ from fun hlt => ?_) ?_; (on_goal 1 => clear_value lt); on_goal 2 => subst lt)
      | (extract_lets +onlyGivenNames lt; refine (show Good may s₀ lt.1 → _ from fun hlt => ?_) ?_; (on_goal 1 => clear_value lt); on_goal 2 => subst lt)
      | (extract_lets +onlyGivenNames lt; clear_value lt) | split

/-! ### LoopOps -/

theorem State.setLoop_good {s : State} (c : Nat) (v : LoopCtx) (hg : Good may s₀ s) (k_loops : may .loops) :
    Good may s₀ (State.setLoop s c v) := by
  unfold State.setLoop
  with_reducible repeat' first
      | assumption | refine Good.ite ?_ ?_
      | (extract_lets +onlyGivenNames lt; refine (show Good may s₀ lt → _ from fun hlt => ?_) ?_; (on_goal 1 => clear_value lt); on_goal 2 => subst lt)
      | (extract_lets +onlyGivenNames lt; clear_value lt) | split
      | (apply Good.u_loops; first | assumption | refine Good.ite ?_ ?_ | refine Good.of_pair ?_ ‹_›)

theorem State.putVecI_good {s : State} (a : Nat) (p0 : List Int) (hg : Good may s₀ s) (k_mem : may .mem) :
    Good may s₀ (State.putVecI s a p0) := by
  induction p0 generalizing s a with
  | nil => unfold State.putVecI; with_reducible repeat' first | assumption | apply State.setLE_good | refine Good.ite ?_ ?_ | split
  | cons hd tl ih => unfold State.putVecI; with_reducible repeat' first
      | assumption | apply ih | apply State.setLE_good | refine Good.ite ?_ ?_ | split

theorem State.showDemand_good {s : State} (hg : Good may s₀ s) :
    Good may s₀ (State.showDemand s) := by
  unfold State.showDemand
  with_reducible repeat' first
      | assumption | apply State.put_good | apply State.putSat_good | refine Good.ite ?_ ?_
      | (extract_lets +onlyGivenNames lt; refine (show Good may s₀ lt → _ from fun hlt => ?_) ?_; (on_goal 1 => clear_value lt); on_goal 2 => subst lt)
      | (extract_lets +onlyGivenNames lt; refine (show Good may s₀ lt.1 → _ from fun hlt => ?_) ?_; (on_goal 1 => clear_value lt); on_goal 2 => subst lt)
      | (extract_lets +onlyGivenNames lt; clear_value lt) | split

theorem State.claimAll_good {s : State} (cls : Nat) (id : Nat) (p0 : List Nat) (hg : Good may s₀ s) (k_sig : may .sig) :
    Good may s₀ (State.claimAll s cls id p0) := by
  induction p0 generalizing s cls id with
  | nil => unfold State.claimAll; with_reducible repeat' first | assumption | apply State.claim_good | refine Good.ite ?_ ?_ | split
  | cons hd tl ih => unfold State.claimAll; with_reducible repeat' first
      | assumption | apply ih | apply State.claim_good | refine Good.ite ?_ ?_ | split

theorem State.freeAll_good {s : State} (cls : Nat) (id : Nat) (p0 : List Nat) (hg : Good may s₀ s) (k_sig : may .sig) :
    Good may s₀ (State.freeAll s cls id p0) := by
  induction p0 generalizing s cls id with
  | nil => unfold State.freeAll; with_reducible repeat' first | assumption | apply State.freeSlot_good | refine Good.ite ?_ ?_ | split
  | cons hd tl ih => unfold State.freeAll; with_reducible repeat' first
      | assumption | apply ih | apply State.freeSlot_good | refine Good.ite ?_ ?_ | split

theorem State.loopEnable_good {s : State} (c : Nat) (hg : Good may s₀ s) (k_sig : may .sig) (k_loops : may .loops) :
    Good may s₀ (State.loopEnable s c) := by
  unfold State.loopEnable
  with_reducible repeat' first
      | assumption | apply State.put_good | apply State.setLoop_good | apply State.showDemand_good | apply State.claimAll_good | refine Good.ite ?_ ?_
      | (extract_lets +onlyGivenNames lt; refine (show Good may s₀ lt → _ from fun hlt => ?_) ?_; (on_goal 1 => clear_value lt); on_goal 2 => subst lt)
      | (extract_lets +onlyGivenNames lt; refine (show Good may s₀ lt.1 → _ from fun hlt => ?_) ?_; (on_goal 1 => clear_value lt); on_goal 2 => subst lt)
      | (extract_lets +onlyGivenNames lt; clear_value lt) | split

theorem State.loopDisable_good {s : State} (c : Nat) (hg : Good may s₀ s) (k_sig : may .sig) (k_loops : may .loops) :
    Good may s₀ (State.loopDisable s c) := by
  unfold State.loopDisable
  with_reducible repeat' first
      | assumption | apply State.freeAll_good | apply State.put_good | apply State.setLoop_good | apply State.showDemand_good | refine Good.ite ?_ ?_
      | (extract_lets +onlyGivenNames lt; refine (show Good may s₀ lt → _ from fun hlt => ?_) ?_; (on_goal 1 => clear_value lt); on_goal 2 => subst lt)
      | (extract_lets +onlyGivenNames lt; refine (show Good may s₀ lt.1 → _ from fun hlt => ?_) ?_; (on_goal 1 => clear_value lt); on_goal 2 => subst lt)
      | (extract_lets +onlyGivenNames lt; clear_value lt) | split

theorem State.loopInvalid_good {s : State} (c : Nat) (p0 : List Nat) (hg : Good may s₀ s) (k_sig : may .sig) :
    Good may s₀ (State.loopInvalid s c p0) := by
  induction p0 generalizing s c with
  | nil => unfold State.loopInvalid; with_reducible repeat' first | assumption | apply State.invalidate_good | refine Good.ite ?_ ?_ | split
  | cons hd tl ih => unfold State.loopInvalid; with_reducible repeat' first
      | assumption | apply ih | apply State.invalidate_good | refine Good.ite ?_ ?_ | split

theorem State.loopEnter_good {s : State} (c : Nat) (st : Nat) (cause : Nat) (hg : Good may s₀ s) (k_sig : may .sig) (k_loops : may .loops) :
    Good may s₀ (State.loopEnter s c st cause) := by
  unfold State.loopEnter
  with_reducible repeat' first
      | assumption | apply State.put_good | apply State.loopInvalid_good | apply State.setLoop_good | refine Good.ite ?_ ?_
      | (extract_lets +onlyGivenNames lt; refine (show Good may s₀ lt → _ from fun hlt => ?_) ?_; (on_goal 1 => clear_value lt); on_goal 2 => subst lt)
      | (extract_lets +onlyGivenNames lt; refine (show Good may s₀ lt.1 → _ from fun hlt => ?_) ?_; (on_goal 1 => clear_value lt); on_goal 2 => subst lt)
      | (extract_lets +onlyGivenNames lt; clear_value lt) | split

theorem State.loopDisplace_good {s : State} (c : Nat) (hg : Good may s₀ s) (k_loops : may .loops) :
    Good may s₀ (State.loopDisplace s c) := by
  unfold State.loopDisplace
  with_reducible repeat' first
      | assumption | apply State.put_good | apply State.setLoop_good | apply State.lost_good | refine Good.ite ?_ ?_
      | (extract_lets +onlyGivenNames lt; refine (show Good may s₀ lt → _ from fun hlt => ?_) ?_; (on_goal 1 => clear_value lt); on_goal 2 => subst lt)
      | (extract_lets +onlyGivenNames lt; refine (show Good may s₀ lt.1 → _ from fun hlt => ?_) ?_; (on_goal 1 => clear_value lt); on_goal 2 => subst lt)
      | (extract_lets +onlyGivenNames lt; clear_value lt) | split

theorem State.loopCommand_good {s : State} (c : Nat) (v : Nat) (hg : Good may s₀ s) (k_loops : may .loops) :
    Good may s₀ (State.loopCommand s c v) := by
  unfold State.loopCommand
  with_reducible repeat' first
      | assumption | apply State.put_good | apply State.setLoop_good | apply State.lost_good | refine Good.ite ?_ ?_
      | (extract_lets +onlyGivenNames lt; refine (show Good may s₀ lt → _ from fun hlt => ?_) ?_; (on_goal 1 => clear_value lt); on_goal 2 => subst lt)
      | (extract_lets +onlyGivenNames lt; refine (show Good may s₀ lt.1 → _ from fun hlt => ?_) ?_; (on_goal 1 => clear_value lt); on_goal 2 => subst lt)
      | (extract_lets +onlyGivenNames lt; clear_value lt) | split

theorem State.prime_good {s : State} (c : Nat) (cause : Nat) (keep : Bool) (hg : Good may s₀ s) (k_mem : may .mem)
    (k_sig : may .sig) (k_loops : may .loops) :
    Good may s₀ (State.prime s c cause keep) := by
  unfold State.prime
  with_reducible repeat' first
      | assumption | apply State.put_good | apply State.setLoop_good | apply State.loopEnter_good | apply State.putB_good | apply State.putVecI_good
      | refine Good.ite ?_ ?_
      | (extract_lets +onlyGivenNames lt; refine (show Good may s₀ lt → _ from fun hlt => ?_) ?_; (on_goal 1 => clear_value lt); on_goal 2 => subst lt)
      | (extract_lets +onlyGivenNames lt; refine (show Good may s₀ lt.1 → _ from fun hlt => ?_) ?_; (on_goal 1 => clear_value lt); on_goal 2 => subst lt)
      | (extract_lets +onlyGivenNames lt; clear_value lt) | refine Good.of_pair ?_ ‹_› | split

theorem State.loopCounts_good {s : State} (c : Nat) (j : Job) (hg : Good may s₀ s) (k_mem : may .mem) (k_loops : may .loops) :
    Good may s₀ (State.loopCounts s c j) := by
  unfold State.loopCounts
  with_reducible repeat' first
      | assumption | apply State.setLoop_good | apply State.bump_good | apply State.putVecI_good | apply State.putSat_good | refine Good.ite ?_ ?_
      | (extract_lets +onlyGivenNames lt; refine (show Good may s₀ lt → _ from fun hlt => ?_) ?_; (on_goal 1 => clear_value lt); on_goal 2 => subst lt)
      | (extract_lets +onlyGivenNames lt; refine (show Good may s₀ lt.1 → _ from fun hlt => ?_) ?_; (on_goal 1 => clear_value lt); on_goal 2 => subst lt)
      | (extract_lets +onlyGivenNames lt; clear_value lt) | split

theorem State.loopCompute_good {s : State} (c : Nat) (fresh : Bool) (hg : Good may s₀ s) (k_sig : may .sig) (k_loops : may .loops) :
    Good may s₀ (State.loopCompute s c fresh) := by
  unfold State.loopCompute
  with_reducible repeat' first
      | assumption | apply State.put_good | apply State.setLoop_good | apply State.loopEnter_good | apply State.putB_good | apply State.putSat_good
      | refine Good.ite ?_ ?_
      | (extract_lets +onlyGivenNames lt; refine (show Good may s₀ lt → _ from fun hlt => ?_) ?_; (on_goal 1 => clear_value lt); on_goal 2 => subst lt)
      | (extract_lets +onlyGivenNames lt; refine (show Good may s₀ lt.1 → _ from fun hlt => ?_) ?_; (on_goal 1 => clear_value lt); on_goal 2 => subst lt)
      | (extract_lets +onlyGivenNames lt; clear_value lt) | refine Good.of_pair ?_ ‹_› | split

theorem State.loopPeriod_good {s : State} (c : Nat) (hg : Good may s₀ s) (k_mem : may .mem) (k_sig : may .sig)
    (k_loops : may .loops) (k_lpeBusy : may .lpeBusy) :
    Good may s₀ (State.loopPeriod s c) := by
  unfold State.loopPeriod
  with_reducible repeat' first
      | assumption | apply State.put_good | apply State.setLoop_good | apply State.loopEnter_good | apply State.inc_good | apply State.lost_good
      | apply State.loopDisplace_good | apply State.loopCompute_good | apply State.prime_good | refine Good.ite ?_ ?_
      | (extract_lets +onlyGivenNames lt; refine (show Good may s₀ lt → _ from fun hlt => ?_) ?_; (on_goal 1 => clear_value lt); on_goal 2 => subst lt)
      | (extract_lets +onlyGivenNames lt; refine (show Good may s₀ lt.1 → _ from fun hlt => ?_) ?_; (on_goal 1 => clear_value lt); on_goal 2 => subst lt)
      | (extract_lets +onlyGivenNames lt; clear_value lt) | split
      | (apply Good.u_lpeBusy; first | assumption | refine Good.ite ?_ ?_ | refine Good.of_pair ?_ ‹_› | apply State.put_good | apply State.setLoop_good | apply State.loopEnter_good | apply State.inc_good | apply State.lost_good | apply State.loopDisplace_good | apply State.loopCompute_good | apply State.prime_good)

theorem State.loopSnapshots_good {s : State} (p0 : List Nat) (hg : Good may s₀ s) (k_mem : may .mem) (k_sig : may .sig)
    (k_loops : may .loops) (k_lpeBusy : may .lpeBusy) :
    Good may s₀ (State.loopSnapshots s p0) := by
  induction p0 generalizing s with
  | nil => unfold State.loopSnapshots; with_reducible repeat' first | assumption | apply State.loopPeriod_good | refine Good.ite ?_ ?_ | split
  | cons hd tl ih => unfold State.loopSnapshots; with_reducible repeat' first
      | assumption | apply ih | apply State.loopPeriod_good | refine Good.ite ?_ ?_ | split

theorem State.lpeSnapshot_good {s : State} (hg : Good may s₀ s) (k_mem : may .mem) (k_sig : may .sig) (k_loops : may .loops)
    (k_lpeBusy : may .lpeBusy) :
    Good may s₀ (State.lpeSnapshot s) := by
  unfold State.lpeSnapshot
  with_reducible repeat' first | assumption | apply State.loopSnapshots_good | refine Good.ite ?_ ?_ | split

theorem State.postOutputs_good {s : State} (c : Nat) (p0 : List (Nat × Int × Bool × Bool)) (hg : Good may s₀ s) (k_sig : may .sig) :
    Good may s₀ (State.postOutputs s c p0) := by
  induction p0 generalizing s c with
  | nil => unfold State.postOutputs; with_reducible repeat' first | assumption | apply State.post_good | refine Good.ite ?_ ?_ | split
  | cons hd tl ih => unfold State.postOutputs; with_reducible repeat' first
      | assumption | apply ih | apply State.post_good | refine Good.ite ?_ ?_ | split

theorem State.loopLate_good {s : State} (c : Nat) (p0 : List (Nat × Int × Bool)) (hg : Good may s₀ s) (k_sig : may .sig) :
    Good may s₀ (State.loopLate s c p0) := by
  induction p0 generalizing s c with
  | nil => unfold State.loopLate; with_reducible repeat' first | assumption | apply State.setSlot_good | refine Good.ite ?_ ?_ | split
  | cons hd tl ih => unfold State.loopLate; with_reducible repeat' first
      | assumption | apply ih | apply State.setSlot_good | refine Good.ite ?_ ?_ | split

theorem State.loopOverrun_good {s : State} (c : Nat) (hg : Good may s₀ s) (k_mem : may .mem) (k_sig : may .sig) (k_loops : may .loops) :
    Good may s₀ (State.loopOverrun s c) := by
  unfold State.loopOverrun
  with_reducible repeat' first
      | assumption | apply State.wr_good | apply State.put_good | apply State.setLoop_good | apply State.bump_good | apply State.putB_good
      | apply State.putVecI_good | apply State.loopLate_good | refine Good.ite ?_ ?_
      | (extract_lets +onlyGivenNames lt; refine (show Good may s₀ lt → _ from fun hlt => ?_) ?_; (on_goal 1 => clear_value lt); on_goal 2 => subst lt)
      | (extract_lets +onlyGivenNames lt; refine (show Good may s₀ lt.1 → _ from fun hlt => ?_) ?_; (on_goal 1 => clear_value lt); on_goal 2 => subst lt)
      | (extract_lets +onlyGivenNames lt; clear_value lt) | split

theorem State.loopFallback_good {s : State} (c : Nat) (hg : Good may s₀ s) (k_mem : may .mem) (k_sig : may .sig) :
    Good may s₀ (State.loopFallback s c) := by
  unfold State.loopFallback
  with_reducible repeat' first
      | assumption | apply State.put_good | apply State.putVecI_good | apply State.postOutputs_good | refine Good.ite ?_ ?_
      | (extract_lets +onlyGivenNames lt; refine (show Good may s₀ lt → _ from fun hlt => ?_) ?_; (on_goal 1 => clear_value lt); on_goal 2 => subst lt)
      | (extract_lets +onlyGivenNames lt; refine (show Good may s₀ lt.1 → _ from fun hlt => ?_) ?_; (on_goal 1 => clear_value lt); on_goal 2 => subst lt)
      | (extract_lets +onlyGivenNames lt; clear_value lt) | split

theorem State.loopManual_good {s : State} (c : Nat) (hg : Good may s₀ s) (k_sig : may .sig) :
    Good may s₀ (State.loopManual s c) := by
  unfold State.loopManual
  with_reducible repeat' first
      | assumption | apply State.postOutputs_good | refine Good.ite ?_ ?_
      | (extract_lets +onlyGivenNames lt; refine (show Good may s₀ lt → _ from fun hlt => ?_) ?_; (on_goal 1 => clear_value lt); on_goal 2 => subst lt)
      | (extract_lets +onlyGivenNames lt; refine (show Good may s₀ lt.1 → _ from fun hlt => ?_) ?_; (on_goal 1 => clear_value lt); on_goal 2 => subst lt)
      | (extract_lets +onlyGivenNames lt; clear_value lt) | split

theorem State.loopIdlePost_good {s : State} (c : Nat) (hg : Good may s₀ s) (k_mem : may .mem) (k_sig : may .sig) :
    Good may s₀ (State.loopIdlePost s c) := by
  unfold State.loopIdlePost
  with_reducible repeat' first | assumption | apply State.loopFallback_good | apply State.loopManual_good | refine Good.ite ?_ ?_ | split

theorem State.loopPost_good {s : State} (c : Nat) (j : Job) (hg : Good may s₀ s) (k_mem : may .mem) (k_sig : may .sig) :
    Good may s₀ (State.loopPost s c j) := by
  unfold State.loopPost
  with_reducible repeat' first
      | assumption | apply State.bump_good | apply State.putVecI_good | apply State.postOutputs_good | refine Good.ite ?_ ?_
      | (extract_lets +onlyGivenNames lt; refine (show Good may s₀ lt → _ from fun hlt => ?_) ?_; (on_goal 1 => clear_value lt); on_goal 2 => subst lt)
      | (extract_lets +onlyGivenNames lt; refine (show Good may s₀ lt.1 → _ from fun hlt => ?_) ?_; (on_goal 1 => clear_value lt); on_goal 2 => subst lt)
      | (extract_lets +onlyGivenNames lt; clear_value lt) | split

theorem State.loopCommit_good {s : State} (c : Nat) (j : Job) (hg : Good may s₀ s) (k_mem : may .mem) (k_sig : may .sig)
    (k_freshCtr : may .freshCtr) (k_loops : may .loops) :
    Good may s₀ (State.loopCommit s c j) := by
  unfold State.loopCommit
  with_reducible repeat' first
      | assumption | apply State.put_good | apply State.free_good | apply State.loopCounts_good | apply State.loopIdlePost_good
      | apply State.loopPost_good | refine Good.ite ?_ ?_
      | (extract_lets +onlyGivenNames lt; refine (show Good may s₀ lt → _ from fun hlt => ?_) ?_; (on_goal 1 => clear_value lt); on_goal 2 => subst lt)
      | (extract_lets +onlyGivenNames lt; refine (show Good may s₀ lt.1 → _ from fun hlt => ?_) ?_; (on_goal 1 => clear_value lt); on_goal 2 => subst lt)
      | (extract_lets +onlyGivenNames lt; clear_value lt) | refine Good.of_pair ?_ ‹_› | split

theorem State.loopRelease_good {s : State} (c : Nat) (done : Bool) (hg : Good may s₀ s) (k_mem : may .mem) (k_sig : may .sig)
    (k_freshCtr : may .freshCtr) (k_loops : may .loops) :
    Good may s₀ (State.loopRelease s c done) := by
  unfold State.loopRelease
  with_reducible repeat' first
      | assumption | apply State.setLoop_good | apply State.done_good | apply State.loopIdlePost_good | apply State.loopCommit_good
      | apply State.loopLate_good | apply State.loopOverrun_good | refine Good.ite ?_ ?_
      | (extract_lets +onlyGivenNames lt; refine (show Good may s₀ lt → _ from fun hlt => ?_) ?_; (on_goal 1 => clear_value lt); on_goal 2 => subst lt)
      | (extract_lets +onlyGivenNames lt; refine (show Good may s₀ lt.1 → _ from fun hlt => ?_) ?_; (on_goal 1 => clear_value lt); on_goal 2 => subst lt)
      | (extract_lets +onlyGivenNames lt; clear_value lt) | refine Good.of_pair ?_ ‹_› | split

theorem State.loopAbort_good {s : State} (c : Nat) (hg : Good may s₀ s) (k_loops : may .loops) :
    Good may s₀ (State.loopAbort s c) := by
  unfold State.loopAbort
  with_reducible repeat' first
      | assumption | apply State.setLoop_good | apply State.loopDisplace_good | refine Good.ite ?_ ?_
      | (extract_lets +onlyGivenNames lt; refine (show Good may s₀ lt → _ from fun hlt => ?_) ?_; (on_goal 1 => clear_value lt); on_goal 2 => subst lt)
      | (extract_lets +onlyGivenNames lt; refine (show Good may s₀ lt.1 → _ from fun hlt => ?_) ?_; (on_goal 1 => clear_value lt); on_goal 2 => subst lt)
      | (extract_lets +onlyGivenNames lt; clear_value lt) | split

theorem State.loopAborted_good {s : State} (c : Nat) (hg : Good may s₀ s) (k_sig : may .sig) (k_loops : may .loops) :
    Good may s₀ (State.loopAborted s c) := by
  unfold State.loopAborted
  with_reducible repeat' first
      | assumption | apply State.setLoop_good | apply State.loopEnter_good | refine Good.ite ?_ ?_
      | (extract_lets +onlyGivenNames lt; refine (show Good may s₀ lt → _ from fun hlt => ?_) ?_; (on_goal 1 => clear_value lt); on_goal 2 => subst lt)
      | (extract_lets +onlyGivenNames lt; clear_value lt) | split

theorem State.loopsOff_good {s : State} (p0 : List Nat) (hg : Good may s₀ s) (k_sig : may .sig) (k_loops : may .loops) :
    Good may s₀ (State.loopsOff s p0) := by
  induction p0 generalizing s with
  | nil => unfold State.loopsOff; with_reducible repeat' first
      | assumption | apply State.loopInvalid_good | apply State.setLoop_good | apply State.loopEnter_good | apply State.loopDisplace_good
      | refine Good.ite ?_ ?_ | split
  | cons hd tl ih => unfold State.loopsOff; with_reducible repeat' first
      | assumption | apply ih | apply State.loopInvalid_good | apply State.setLoop_good | apply State.loopEnter_good | apply State.loopDisplace_good
      | refine Good.ite ?_ ?_ | split

theorem State.loopsClear_good {s : State} (p0 : List Nat) (hg : Good may s₀ s) (k_sig : may .sig) (k_loops : may .loops) :
    Good may s₀ (State.loopsClear s p0) := by
  induction p0 generalizing s with
  | nil => unfold State.loopsClear; with_reducible repeat' first | assumption | apply State.loopDisable_good | refine Good.ite ?_ ?_ | split
  | cons hd tl ih => unfold State.loopsClear; with_reducible repeat' first
      | assumption | apply ih | apply State.loopDisable_good | refine Good.ite ?_ ?_ | split

theorem State.apertureWrite_good {s : State} (a : Nat) (v : Word) (m : Nat) (hg : Good may s₀ s) (k_mem : may .mem) :
    Good may s₀ (State.apertureWrite s a v m) := by
  unfold State.apertureWrite
  with_reducible repeat' first
      | assumption | apply State.put_good | apply State.bump_good | apply State.setLE_good | apply State.lost_good | refine Good.ite ?_ ?_
      | (extract_lets +onlyGivenNames lt; refine (show Good may s₀ lt → _ from fun hlt => ?_) ?_; (on_goal 1 => clear_value lt); on_goal 2 => subst lt)
      | (extract_lets +onlyGivenNames lt; refine (show Good may s₀ lt.1 → _ from fun hlt => ?_) ?_; (on_goal 1 => clear_value lt); on_goal 2 => subst lt)
      | (extract_lets +onlyGivenNames lt; clear_value lt) | refine Good.of_pair ?_ ‹_› | split

theorem State.lpeQueryDone_good {s : State} (hg : Good may s₀ s) (k_lpeQuery : may .lpeQuery) :
    Good may s₀ (State.lpeQueryDone s) := by
  unfold State.lpeQueryDone
  with_reducible repeat' first
      | assumption | apply State.put_good | apply State.putB_good | refine Good.ite ?_ ?_
      | (extract_lets +onlyGivenNames lt; refine (show Good may s₀ lt → _ from fun hlt => ?_) ?_; (on_goal 1 => clear_value lt); on_goal 2 => subst lt)
      | (extract_lets +onlyGivenNames lt; refine (show Good may s₀ lt.1 → _ from fun hlt => ?_) ?_; (on_goal 1 => clear_value lt); on_goal 2 => subst lt)
      | (extract_lets +onlyGivenNames lt; clear_value lt) | split
      | (apply Good.u_lpeQuery; first | assumption | refine Good.ite ?_ ?_ | refine Good.of_pair ?_ ‹_› | apply State.put_good | apply State.putB_good)

/-! ### Rings -/

theorem State.putDesc_good {s : State} (r : Nat) (k : Nat) (d : Desc) (hg : Good may s₀ s) (k_mem : may .mem) :
    Good may s₀ (State.putDesc s r k d) := by
  unfold State.putDesc
  with_reducible repeat' first
      | assumption | apply State.setLE_good | refine Good.ite ?_ ?_
      | (extract_lets +onlyGivenNames lt; refine (show Good may s₀ lt → _ from fun hlt => ?_) ?_; (on_goal 1 => clear_value lt); on_goal 2 => subst lt)
      | (extract_lets +onlyGivenNames lt; refine (show Good may s₀ lt.1 → _ from fun hlt => ?_) ?_; (on_goal 1 => clear_value lt); on_goal 2 => subst lt)
      | (extract_lets +onlyGivenNames lt; clear_value lt) | split

theorem State.wakeFor_good {s : State} (master : Nat) (hg : Good may s₀ s) (k_clo : may .clo) (k_pairs : may .pairs) :
    Good may s₀ (State.wakeFor s master) := by
  unfold State.wakeFor
  with_reducible repeat' first | assumption | apply State.wakeDomain_good | refine Good.ite ?_ ?_ | split

theorem State.ringPost_good {s : State} (r : Nat) (item : List Byte) (status : Nat) (stamp : Option Stamp) (tag : Nat)
    (xinfo : Nat) (hg : Good may s₀ s) (k_mem : may .mem) (k_clo : may .clo) (k_ringPosted : may .ringPosted)
    (k_pairs : may .pairs) :
    Good may s₀ (State.ringPost s r item status stamp tag xinfo).1 := by
  unfold State.ringPost
  with_reducible repeat' first
      | assumption | apply State.bump_good | apply State.setBytes_good | apply State.putDesc_good | apply State.inc_good | apply State.wakeFor_good
      | refine Good.ite ?_ ?_ | refine Good.ite1 ?_ ?_
      | (extract_lets +onlyGivenNames lt; refine (show Good may s₀ lt → _ from fun hlt => ?_) ?_; (on_goal 1 => clear_value lt); on_goal 2 => subst lt)
      | (extract_lets +onlyGivenNames lt; refine (show Good may s₀ lt.1 → _ from fun hlt => ?_) ?_; (on_goal 1 => clear_value lt); on_goal 2 => subst lt)
      | (extract_lets +onlyGivenNames lt; clear_value lt) | split
      | (apply Good.u_ringPosted; first | assumption | refine Good.ite ?_ ?_ | refine Good.of_pair ?_ ‹_› | apply State.bump_good | apply State.setBytes_good | apply State.putDesc_good | apply State.inc_good | apply State.wakeFor_good)

theorem State.writeDone_good {s : State} (r : Nat) (k : Nat) (status : Nat) (stamp : Option Stamp) (aborted : Bool)
    (hg : Good may s₀ s) (k_mem : may .mem) :
    Good may s₀ (State.writeDone s r k status stamp aborted) := by
  unfold State.writeDone
  with_reducible repeat' first
      | assumption | apply State.putDesc_good | refine Good.ite ?_ ?_
      | (extract_lets +onlyGivenNames lt; refine (show Good may s₀ lt → _ from fun hlt => ?_) ?_; (on_goal 1 => clear_value lt); on_goal 2 => subst lt)
      | (extract_lets +onlyGivenNames lt; refine (show Good may s₀ lt.1 → _ from fun hlt => ?_) ?_; (on_goal 1 => clear_value lt); on_goal 2 => subst lt)
      | (extract_lets +onlyGivenNames lt; clear_value lt) | split

theorem State.consumeOne_good {s : State} (r : Nat) (hg : Good may s₀ s) :
    Good may s₀ (State.consumeOne s r) := by
  unfold State.consumeOne
  with_reducible repeat' first | assumption | apply State.inc_good | refine Good.ite ?_ ?_ | split

theorem State.ringDone_good {s : State} (r : Nat) (status : Nat) (stamp : Option Stamp) (hg : Good may s₀ s) (k_mem : may .mem) :
    Good may s₀ (State.ringDone s r status stamp) := by
  unfold State.ringDone
  with_reducible repeat' first | assumption | apply State.writeDone_good | apply State.consumeOne_good | refine Good.ite ?_ ?_ | split

theorem State.ringRefuse_good {s : State} (r : Nat) (hg : Good may s₀ s) (k_mem : may .mem) :
    Good may s₀ (State.ringRefuse s r) := by
  unfold State.ringRefuse
  with_reducible repeat' first
      | assumption | apply State.bump_good | apply State.putDesc_good | apply State.consumeOne_good | refine Good.ite ?_ ?_
      | (extract_lets +onlyGivenNames lt; refine (show Good may s₀ lt → _ from fun hlt => ?_) ?_; (on_goal 1 => clear_value lt); on_goal 2 => subst lt)
      | (extract_lets +onlyGivenNames lt; refine (show Good may s₀ lt.1 → _ from fun hlt => ?_) ?_; (on_goal 1 => clear_value lt); on_goal 2 => subst lt)
      | (extract_lets +onlyGivenNames lt; clear_value lt) | split

theorem State.ringAbort_good {s : State} (r : Nat) (hg : Good may s₀ s) (k_mem : may .mem) :
    Good may s₀ (State.ringAbort s r) := by
  unfold State.ringAbort
  with_reducible repeat' first
      | assumption | apply State.put_good | apply State.writeDone_good | refine Good.ite ?_ ?_
      | (extract_lets +onlyGivenNames lt; refine (show Good may s₀ lt → _ from fun hlt => ?_) ?_; (on_goal 1 => clear_value lt); on_goal 2 => subst lt)
      | (extract_lets +onlyGivenNames lt; refine (show Good may s₀ lt.1 → _ from fun hlt => ?_) ?_; (on_goal 1 => clear_value lt); on_goal 2 => subst lt)
      | (extract_lets +onlyGivenNames lt; clear_value lt) | split

end Sys2Proof.Machine
end

