-- ==== Sys2Proof/Laws/KeepLinks.lean ====
section
/-! SUPPORT. What every operation keeps (`Good`), operation by operation: Cascade's memory, credentials, links, station-to-station frames, the Gauntlet and the output banks. -/

set_option linter.all false

namespace Sys2Proof.Machine

variable {may : Part → Prop} {s₀ : State}

/-! ### CasMem -/

theorem State.setCas_good {s : State} (k : Nat) (v : CasSlot) (hg : Good may s₀ s) (k_cas : may .cas) :
    Good may s₀ (State.setCas s k v) := by
  unfold State.setCas
  with_reducible repeat' first
      | assumption | refine Good.ite ?_ ?_
      | (extract_lets +onlyGivenNames lt; refine (show Good may s₀ lt → _ from fun hlt => ?_) ?_; (on_goal 1 => clear_value lt); on_goal 2 => subst lt)
      | (extract_lets +onlyGivenNames lt; clear_value lt) | split
      | (apply Good.u_cas; first | assumption | refine Good.ite ?_ ?_ | refine Good.of_pair ?_ ‹_›)

theorem State.setCasSt_good {s : State} (k : Nat) (n : Nat) (hg : Good may s₀ s) :
    Good may s₀ (State.setCasSt s k n) := by
  unfold State.setCasSt
  with_reducible repeat' first | assumption | apply State.put_good | refine Good.ite ?_ ?_ | split

theorem State.casClear_good {s : State} (k : Nat) (hg : Good may s₀ s) (k_cas : may .cas) :
    Good may s₀ (State.casClear s k) := by
  unfold State.casClear
  with_reducible repeat' first
      | assumption | apply State.wr_good | apply State.put_good | apply State.setCas_good | refine Good.ite ?_ ?_
      | (extract_lets +onlyGivenNames lt; refine (show Good may s₀ lt → _ from fun hlt => ?_) ?_; (on_goal 1 => clear_value lt); on_goal 2 => subst lt)
      | (extract_lets +onlyGivenNames lt; refine (show Good may s₀ lt.1 → _ from fun hlt => ?_) ?_; (on_goal 1 => clear_value lt); on_goal 2 => subst lt)
      | (extract_lets +onlyGivenNames lt; clear_value lt) | split

theorem State.casLoad_good {s : State} (k : Nat) (hg : Good may s₀ s) (k_cas : may .cas) :
    Good may s₀ (State.casLoad s k) := by
  unfold State.casLoad
  with_reducible repeat' first
      | assumption | apply State.setCasSt_good | apply State.setCas_good | apply State.casClear_good | refine Good.ite ?_ ?_
      | (extract_lets +onlyGivenNames lt; refine (show Good may s₀ lt → _ from fun hlt => ?_) ?_; (on_goal 1 => clear_value lt); on_goal 2 => subst lt)
      | (extract_lets +onlyGivenNames lt; refine (show Good may s₀ lt.1 → _ from fun hlt => ?_) ?_; (on_goal 1 => clear_value lt); on_goal 2 => subst lt)
      | (extract_lets +onlyGivenNames lt; clear_value lt) | split

theorem State.casLoadDone_good {s : State} (k : Nat) (hg : Good may s₀ s) (k_mem : may .mem) (k_freshCtr : may .freshCtr) (k_cas : may .cas) :
    Good may s₀ (State.casLoadDone s k) := by
  unfold State.casLoadDone
  with_reducible repeat' first
      | assumption | apply State.put_good | apply State.setCasSt_good | apply State.setCas_good | apply State.setBytes_good | apply State.put64_good
      | apply State.free_good | refine Good.ite ?_ ?_
      | (extract_lets +onlyGivenNames lt; refine (show Good may s₀ lt → _ from fun hlt => ?_) ?_; (on_goal 1 => clear_value lt); on_goal 2 => subst lt)
      | (extract_lets +onlyGivenNames lt; refine (show Good may s₀ lt.1 → _ from fun hlt => ?_) ?_; (on_goal 1 => clear_value lt); on_goal 2 => subst lt)
      | (extract_lets +onlyGivenNames lt; clear_value lt) | refine Good.of_pair ?_ ‹_› | split

theorem State.casEnable_good {s : State} (k : Nat) (hg : Good may s₀ s) (k_sig : may .sig) :
    Good may s₀ (State.casEnable s k) := by
  unfold State.casEnable
  with_reducible repeat' first
      | assumption | apply State.put_good | apply State.setCasSt_good | apply State.claimAll_good | refine Good.ite ?_ ?_
      | (extract_lets +onlyGivenNames lt; refine (show Good may s₀ lt → _ from fun hlt => ?_) ?_; (on_goal 1 => clear_value lt); on_goal 2 => subst lt)
      | (extract_lets +onlyGivenNames lt; refine (show Good may s₀ lt.1 → _ from fun hlt => ?_) ?_; (on_goal 1 => clear_value lt); on_goal 2 => subst lt)
      | (extract_lets +onlyGivenNames lt; clear_value lt) | split

theorem State.casFreed_good {s : State} (k : Nat) (hg : Good may s₀ s) (k_sig : may .sig) :
    Good may s₀ (State.casFreed s k) := by
  unfold State.casFreed
  with_reducible repeat' first | assumption | apply State.freeAll_good | apply State.setCasSt_good | refine Good.ite ?_ ?_ | split

theorem State.casDisable_good {s : State} (k : Nat) (hg : Good may s₀ s) (k_sig : may .sig) :
    Good may s₀ (State.casDisable s k) := by
  unfold State.casDisable
  with_reducible repeat' first
      | assumption | apply State.put_good | apply State.casFreed_good | refine Good.ite ?_ ?_
      | (extract_lets +onlyGivenNames lt; refine (show Good may s₀ lt → _ from fun hlt => ?_) ?_; (on_goal 1 => clear_value lt); on_goal 2 => subst lt)
      | (extract_lets +onlyGivenNames lt; refine (show Good may s₀ lt.1 → _ from fun hlt => ?_) ?_; (on_goal 1 => clear_value lt); on_goal 2 => subst lt)
      | (extract_lets +onlyGivenNames lt; clear_value lt) | split

theorem State.casQueryDone_good {s : State} (hg : Good may s₀ s) (k_casQuery : may .casQuery) :
    Good may s₀ (State.casQueryDone s) := by
  unfold State.casQueryDone
  with_reducible repeat' first
      | assumption | apply State.put_good | apply State.putB_good | refine Good.ite ?_ ?_
      | (extract_lets +onlyGivenNames lt; refine (show Good may s₀ lt → _ from fun hlt => ?_) ?_; (on_goal 1 => clear_value lt); on_goal 2 => subst lt)
      | (extract_lets +onlyGivenNames lt; refine (show Good may s₀ lt.1 → _ from fun hlt => ?_) ?_; (on_goal 1 => clear_value lt); on_goal 2 => subst lt)
      | (extract_lets +onlyGivenNames lt; clear_value lt) | split
      | (apply Good.u_casQuery; first | assumption | refine Good.ite ?_ ?_ | refine Good.of_pair ?_ ‹_› | apply State.put_good | apply State.putB_good)

theorem State.feedPop_good {s : State} (k : Nat) (e : FeedEl) (hg : Good may s₀ s) (k_mem : may .mem) (k_cas : may .cas) :
    Good may s₀ (State.feedPop s k e) := by
  unfold State.feedPop
  with_reducible repeat' first
      | assumption | apply State.setCas_good | apply State.ringDone_good | apply State.ringRefuse_good | refine Good.ite ?_ ?_
      | (extract_lets +onlyGivenNames lt; refine (show Good may s₀ lt → _ from fun hlt => ?_) ?_; (on_goal 1 => clear_value lt); on_goal 2 => subst lt)
      | (extract_lets +onlyGivenNames lt; refine (show Good may s₀ lt.1 → _ from fun hlt => ?_) ?_; (on_goal 1 => clear_value lt); on_goal 2 => subst lt)
      | (extract_lets +onlyGivenNames lt; clear_value lt) | refine Good.of_pair ?_ ‹_› | split

theorem State.feedPops_good {s : State} (k : Nat) (p0 : List FeedEl) (hg : Good may s₀ s) (k_mem : may .mem) (k_cas : may .cas) :
    Good may s₀ (State.feedPops s k p0) := by
  induction p0 generalizing s k with
  | nil => unfold State.feedPops; with_reducible repeat' first | assumption | apply State.feedPop_good | refine Good.ite ?_ ?_ | split
  | cons hd tl ih => unfold State.feedPops; with_reducible repeat' first
      | assumption | apply ih | apply State.feedPop_good | refine Good.ite ?_ ?_ | split

theorem State.applyRec_good {s : State} (k : Nat) (p0 : FeedEl) (hg : Good may s₀ s) (k_mem : may .mem) (k_cas : may .cas) :
    Good may s₀ (State.applyRec s k p0) := by
  unfold State.applyRec
  with_reducible repeat' first
      | assumption | apply State.setCas_good | apply State.bump_good | apply State.setLE_good | refine Good.ite ?_ ?_
      | (extract_lets +onlyGivenNames lt; refine (show Good may s₀ lt → _ from fun hlt => ?_) ?_; (on_goal 1 => clear_value lt); on_goal 2 => subst lt)
      | (extract_lets +onlyGivenNames lt; refine (show Good may s₀ lt.1 → _ from fun hlt => ?_) ?_; (on_goal 1 => clear_value lt); on_goal 2 => subst lt)
      | (extract_lets +onlyGivenNames lt; clear_value lt) | refine Good.of_pair ?_ ‹_› | split

theorem State.applyBatch_good {s : State} (k : Nat) (l : List FeedEl) (seq : Word) (hg : Good may s₀ s) (k_mem : may .mem) (k_cas : may .cas) :
    Good may s₀ (State.applyBatch s k l seq) := by
  unfold State.applyBatch
  with_reducible repeat' first
      | assumption | apply State.put_good | apply State.applyRec_good | apply State.feedPops_good | refine Good.ite ?_ ?_
      | (refine Good.foldl (fun _ _ _ => ?_) ?_) | split

theorem State.deferMark_good {s : State} (k : Nat) (hg : Good may s₀ s) (k_cas : may .cas) :
    Good may s₀ (State.deferMark s k) := by
  unfold State.deferMark
  with_reducible repeat' first
      | assumption | apply State.setCas_good | refine Good.ite ?_ ?_
      | (extract_lets +onlyGivenNames lt; refine (show Good may s₀ lt → _ from fun hlt => ?_) ?_; (on_goal 1 => clear_value lt); on_goal 2 => subst lt)
      | (extract_lets +onlyGivenNames lt; clear_value lt) | split

theorem State.takeBatches_good {s : State} (k : Nat) (want : Option Nat) (used : Nat) (p0 : Nat) (p1 : List FeedEl)
    (hg : Good may s₀ s) (k_mem : may .mem) (k_cas : may .cas) :
    Good may s₀ (State.takeBatches s k want used p0 p1).1 := by
  induction p0 generalizing s k want used p1 with
  | zero => unfold State.takeBatches; with_reducible repeat' first
      | assumption | apply State.bump_good | apply State.feedPops_good | apply State.applyBatch_good | apply State.deferMark_good
      | refine Good.ite ?_ ?_ | refine Good.ite1 ?_ ?_
      | (extract_lets +onlyGivenNames lt; refine (show Good may s₀ lt → _ from fun hlt => ?_) ?_; (on_goal 1 => clear_value lt); on_goal 2 => subst lt)
      | (extract_lets +onlyGivenNames lt; refine (show Good may s₀ lt.1 → _ from fun hlt => ?_) ?_; (on_goal 1 => clear_value lt); on_goal 2 => subst lt)
      | (extract_lets +onlyGivenNames lt; clear_value lt) | refine Good.of_pair ?_ ‹_› | split
  | succ k ih => unfold State.takeBatches; with_reducible repeat' first
      | assumption | apply ih | apply State.bump_good | apply State.feedPops_good | apply State.applyBatch_good | apply State.deferMark_good
      | refine Good.ite ?_ ?_ | refine Good.ite1 ?_ ?_
      | (extract_lets +onlyGivenNames lt; refine (show Good may s₀ lt → _ from fun hlt => ?_) ?_; (on_goal 1 => clear_value lt); on_goal 2 => subst lt)
      | (extract_lets +onlyGivenNames lt; refine (show Good may s₀ lt.1 → _ from fun hlt => ?_) ?_; (on_goal 1 => clear_value lt); on_goal 2 => subst lt)
      | (extract_lets +onlyGivenNames lt; clear_value lt) | refine Good.of_pair ?_ ‹_› | split

theorem State.casAbandon_good {s : State} (k : Nat) (hg : Good may s₀ s) (k_sig : may .sig) (k_cas : may .cas) :
    Good may s₀ (State.casAbandon s k) := by
  unfold State.casAbandon
  with_reducible repeat' first
      | assumption | apply State.put_good | apply State.setCasSt_good | apply State.casFreed_good | apply State.setCas_good | refine Good.ite ?_ ?_
      | (extract_lets +onlyGivenNames lt; refine (show Good may s₀ lt → _ from fun hlt => ?_) ?_; (on_goal 1 => clear_value lt); on_goal 2 => subst lt)
      | (extract_lets +onlyGivenNames lt; refine (show Good may s₀ lt.1 → _ from fun hlt => ?_) ?_; (on_goal 1 => clear_value lt); on_goal 2 => subst lt)
      | (extract_lets +onlyGivenNames lt; clear_value lt) | split

theorem State.casAbort_good {s : State} (k : Nat) (hg : Good may s₀ s) (k_sig : may .sig) (k_cas : may .cas) :
    Good may s₀ (State.casAbort s k) := by
  unfold State.casAbort
  with_reducible repeat' first
      | assumption | apply State.casAbandon_good | apply State.casClear_good | refine Good.ite ?_ ?_
      | (extract_lets +onlyGivenNames lt; refine (show Good may s₀ lt → _ from fun hlt => ?_) ?_; (on_goal 1 => clear_value lt); on_goal 2 => subst lt)
      | (extract_lets +onlyGivenNames lt; refine (show Good may s₀ lt.1 → _ from fun hlt => ?_) ?_; (on_goal 1 => clear_value lt); on_goal 2 => subst lt)
      | (extract_lets +onlyGivenNames lt; clear_value lt) | split

theorem State.casAborts_good {s : State} (p0 : List Nat) (hg : Good may s₀ s) (k_sig : may .sig) (k_cas : may .cas) :
    Good may s₀ (State.casAborts s p0) := by
  induction p0 generalizing s with
  | nil => unfold State.casAborts; with_reducible repeat' first | assumption | apply State.casAbort_good | refine Good.ite ?_ ?_ | split
  | cons hd tl ih => unfold State.casAborts; with_reducible repeat' first
      | assumption | apply ih | apply State.casAbort_good | refine Good.ite ?_ ?_ | split

theorem State.casOff_good {s : State} (hg : Good may s₀ s) (k_sig : may .sig) (k_cas : may .cas) :
    Good may s₀ (State.casOff s) := by
  unfold State.casOff
  with_reducible repeat' first
      | assumption | apply State.put_good | apply State.setCas_good | apply State.casAborts_good | refine Good.ite ?_ ?_
      | (refine Good.foldl (fun _ _ _ => ?_) ?_)
      | (extract_lets +onlyGivenNames lt; refine (show Good may s₀ lt → _ from fun hlt => ?_) ?_; (on_goal 1 => clear_value lt); on_goal 2 => subst lt)
      | (extract_lets +onlyGivenNames lt; refine (show Good may s₀ lt.1 → _ from fun hlt => ?_) ?_; (on_goal 1 => clear_value lt); on_goal 2 => subst lt)
      | (extract_lets +onlyGivenNames lt; clear_value lt) | split

theorem State.casEmpty_good {s : State} (p0 : List Nat) (hg : Good may s₀ s) (k_sig : may .sig) (k_cas : may .cas) :
    Good may s₀ (State.casEmpty s p0) := by
  induction p0 generalizing s with
  | nil => unfold State.casEmpty; with_reducible repeat' first
      | assumption | apply State.freeAll_good | apply State.put_good | apply State.casClear_good | refine Good.ite ?_ ?_ | split
  | cons hd tl ih => unfold State.casEmpty; with_reducible repeat' first
      | assumption | apply ih | apply State.freeAll_good | apply State.put_good | apply State.casClear_good | refine Good.ite ?_ ?_ | split

theorem State.casRefused_good {s : State} (a : Nat) (m : Nat) (owner : Nat) (hg : Good may s₀ s) :
    Good may s₀ (State.casRefused s a m owner) := by
  unfold State.casRefused
  with_reducible repeat' first
      | assumption | apply State.put_good | apply State.bump_good | apply State.lost_good | refine Good.ite ?_ ?_
      | (extract_lets +onlyGivenNames lt; refine (show Good may s₀ lt → _ from fun hlt => ?_) ?_; (on_goal 1 => clear_value lt); on_goal 2 => subst lt)
      | (extract_lets +onlyGivenNames lt; refine (show Good may s₀ lt.1 → _ from fun hlt => ?_) ?_; (on_goal 1 => clear_value lt); on_goal 2 => subst lt)
      | (extract_lets +onlyGivenNames lt; clear_value lt) | split

/-! ### Creds -/

theorem State.renewWords_good {s : State} (set : Nat) (p0 : List Nat) (hg : Good may s₀ s) (k_freshCtr : may .freshCtr) :
    Good may s₀ (State.renewWords s set p0) := by
  induction p0 generalizing s set with
  | nil => unfold State.renewWords; with_reducible repeat' first
      | assumption | apply State.put_good | apply State.free_good | refine Good.ite ?_ ?_
      | (extract_lets +onlyGivenNames lt; refine (show Good may s₀ lt → _ from fun hlt => ?_) ?_; (on_goal 1 => clear_value lt); on_goal 2 => subst lt)
      | (extract_lets +onlyGivenNames lt; refine (show Good may s₀ lt.1 → _ from fun hlt => ?_) ?_; (on_goal 1 => clear_value lt); on_goal 2 => subst lt)
      | (extract_lets +onlyGivenNames lt; clear_value lt) | refine Good.of_pair ?_ ‹_› | split
  | cons hd tl ih => unfold State.renewWords; with_reducible repeat' first
      | assumption | apply ih | apply State.put_good | apply State.free_good | refine Good.ite ?_ ?_
      | (extract_lets +onlyGivenNames lt; refine (show Good may s₀ lt → _ from fun hlt => ?_) ?_; (on_goal 1 => clear_value lt); on_goal 2 => subst lt)
      | (extract_lets +onlyGivenNames lt; refine (show Good may s₀ lt.1 → _ from fun hlt => ?_) ?_; (on_goal 1 => clear_value lt); on_goal 2 => subst lt)
      | (extract_lets +onlyGivenNames lt; clear_value lt) | refine Good.of_pair ?_ ‹_› | split

theorem State.renewChal_good {s : State} (set : Nat) (hg : Good may s₀ s) (k_freshCtr : may .freshCtr) (k_chalAt : may .chalAt) :
    Good may s₀ (State.renewChal s set) := by
  unfold State.renewChal
  with_reducible repeat' first
      | assumption | apply State.renewWords_good | refine Good.ite ?_ ?_
      | (extract_lets +onlyGivenNames lt; refine (show Good may s₀ lt → _ from fun hlt => ?_) ?_; (on_goal 1 => clear_value lt); on_goal 2 => subst lt)
      | (extract_lets +onlyGivenNames lt; refine (show Good may s₀ lt.1 → _ from fun hlt => ?_) ?_; (on_goal 1 => clear_value lt); on_goal 2 => subst lt)
      | (extract_lets +onlyGivenNames lt; clear_value lt) | split
      | (apply Good.u_chalAt; first | assumption | refine Good.ite ?_ ?_ | refine Good.of_pair ?_ ‹_› | apply State.renewWords_good)

theorem State.credSubmit_good {s : State} (p : Nat) (bound : List Byte) (page : Nat) (off : Nat) (m : Nat) (hg : Good may s₀ s)
    (k_freshCtr : may .freshCtr) (k_credFails : may .credFails) (k_credLockTo : may .credLockTo) (k_chalAt : may .chalAt) :
    Good may s₀ (State.credSubmit s p bound page off m).1 := by
  unfold State.credSubmit
  with_reducible repeat' first
      | assumption | apply State.put_good | apply State.lost_good | apply State.renewChal_good | refine Good.ite ?_ ?_ | refine Good.ite1 ?_ ?_
      | (extract_lets +onlyGivenNames lt; refine (show Good may s₀ lt → _ from fun hlt => ?_) ?_; (on_goal 1 => clear_value lt); on_goal 2 => subst lt)
      | (extract_lets +onlyGivenNames lt; refine (show Good may s₀ lt.1 → _ from fun hlt => ?_) ?_; (on_goal 1 => clear_value lt); on_goal 2 => subst lt)
      | (extract_lets +onlyGivenNames lt; clear_value lt) | split
      | (apply Good.u_credFails; first | assumption | refine Good.ite ?_ ?_ | refine Good.of_pair ?_ ‹_› | apply State.put_good | apply State.lost_good | apply State.renewChal_good)
      | (apply Good.u_credFails_credLockTo; first | assumption | refine Good.ite ?_ ?_ | refine Good.of_pair ?_ ‹_› | apply State.put_good | apply State.lost_good | apply State.renewChal_good)

/-! ### Links -/

theorem State.setEth_good {s : State} (p : Nat) (v : EthPort) (hg : Good may s₀ s) :
    Good may s₀ (State.setEth s p v) := by
  unfold State.setEth
  with_reducible repeat' first
      | assumption | refine Good.ite ?_ ?_
      | (extract_lets +onlyGivenNames lt; refine (show Good may s₀ lt → _ from fun hlt => ?_) ?_; (on_goal 1 => clear_value lt); on_goal 2 => subst lt)
      | (extract_lets +onlyGivenNames lt; clear_value lt) | split
      | (apply Good.u_eths; first | assumption | refine Good.ite ?_ ?_ | refine Good.of_pair ?_ ‹_›)

theorem State.ethQueue_good {s : State} (p : Nat) (f : List Byte) (hg : Good may s₀ s) :
    Good may s₀ (State.ethQueue s p f) := by
  unfold State.ethQueue
  with_reducible repeat' first
      | assumption | apply State.setEth_good | refine Good.ite ?_ ?_
      | (extract_lets +onlyGivenNames lt; refine (show Good may s₀ lt → _ from fun hlt => ?_) ?_; (on_goal 1 => clear_value lt); on_goal 2 => subst lt)
      | (extract_lets +onlyGivenNames lt; clear_value lt) | split

theorem State.setCan_good {s : State} (n : Nat) (v : CanCtl) (hg : Good may s₀ s) :
    Good may s₀ (State.setCan s n v) := by
  unfold State.setCan
  with_reducible repeat' first
      | assumption | refine Good.ite ?_ ?_
      | (extract_lets +onlyGivenNames lt; refine (show Good may s₀ lt → _ from fun hlt => ?_) ?_; (on_goal 1 => clear_value lt); on_goal 2 => subst lt)
      | (extract_lets +onlyGivenNames lt; clear_value lt) | split
      | (apply Good.u_cans; first | assumption | refine Good.ite ?_ ?_ | refine Good.of_pair ?_ ‹_›)

theorem State.canQueue_good {s : State} (n : Nat) (id : Word) (f : List Byte) (hg : Good may s₀ s) :
    Good may s₀ (State.canQueue s n id f) := by
  unfold State.canQueue
  with_reducible repeat' first
      | assumption | apply State.setCan_good | refine Good.ite ?_ ?_
      | (extract_lets +onlyGivenNames lt; refine (show Good may s₀ lt → _ from fun hlt => ?_) ?_; (on_goal 1 => clear_value lt); on_goal 2 => subst lt)
      | (extract_lets +onlyGivenNames lt; clear_value lt) | split

/-! ### SscOps -/

theorem State.setSess_good {s : State} (e : Nat) (v : Sess) (hg : Good may s₀ s) :
    Good may s₀ (State.setSess s e v) := by
  unfold State.setSess
  with_reducible repeat' first
      | assumption | refine Good.ite ?_ ?_
      | (extract_lets +onlyGivenNames lt; refine (show Good may s₀ lt → _ from fun hlt => ?_) ?_; (on_goal 1 => clear_value lt); on_goal 2 => subst lt)
      | (extract_lets +onlyGivenNames lt; clear_value lt) | split
      | (apply Good.u_sess; first | assumption | refine Good.ite ?_ ?_ | refine Good.of_pair ?_ ‹_›)

theorem State.emitAll_good {s : State} (f : List Byte) (id : Word) (l : List Link) (hg : Good may s₀ s) :
    Good may s₀ (s.emitAll f id l) := by
  induction l generalizing s with
  | nil => exact hg
  | cons e t ih =>
    cases e
    case eth p => exact ih (State.ethQueue_good _ _ hg)
    case can n => exact ih (State.canQueue_good _ _ _ hg)
    all_goals exact ih (Good.u_sent _ hg)

theorem State.sscSend_good {s : State} (e : Nat) (payload : List Byte) (safeData : Bool) (hg : Good may s₀ s) :
    Good may s₀ (State.sscSend s e payload safeData) := by
  unfold State.sscSend
  with_reducible repeat' first
      | assumption | apply State.put_good | apply State.setSess_good | apply State.emitAll_good | refine Good.ite ?_ ?_
      | (extract_lets +onlyGivenNames lt; refine (show Good may s₀ lt → _ from fun hlt => ?_) ?_; (on_goal 1 => clear_value lt); on_goal 2 => subst lt)
      | (extract_lets +onlyGivenNames lt; refine (show Good may s₀ lt.1 → _ from fun hlt => ?_) ?_; (on_goal 1 => clear_value lt); on_goal 2 => subst lt)
      | (extract_lets +onlyGivenNames lt; clear_value lt) | split

theorem State.postWords_good {s : State} (n : Nat) (cls : Nat) (id : Nat) (valid : Bool) (subst : Bool) (age : Nat)
    (p0 : List Word) (hg : Good may s₀ s) (k_sig : may .sig) :
    Good may s₀ (State.postWords s n cls id valid subst age p0) := by
  induction p0 generalizing s n cls id valid subst age with
  | nil => unfold State.postWords; with_reducible repeat' first | assumption | apply State.post_good | refine Good.ite ?_ ?_ | split
  | cons hd tl ih => unfold State.postWords; with_reducible repeat' first
      | assumption | apply ih | apply State.post_good | refine Good.ite ?_ ?_ | split

theorem State.postFailSafe_good {s : State} (e : Nat) (hg : Good may s₀ s) (k_sig : may .sig) :
    Good may s₀ (State.postFailSafe s e) := by
  unfold State.postFailSafe
  with_reducible repeat' first | assumption | apply State.postWords_good | refine Good.ite ?_ ?_ | split

theorem State.sscFail_good {s : State} (e : Nat) (cause : Nat) (hg : Good may s₀ s) (k_sig : may .sig) :
    Good may s₀ (State.sscFail s e cause) := by
  unfold State.sscFail
  with_reducible repeat' first
      | assumption | apply State.put_good | apply State.bump_good | apply State.postFailSafe_good | refine Good.ite ?_ ?_
      | (extract_lets +onlyGivenNames lt; refine (show Good may s₀ lt → _ from fun hlt => ?_) ?_; (on_goal 1 => clear_value lt); on_goal 2 => subst lt)
      | (extract_lets +onlyGivenNames lt; refine (show Good may s₀ lt.1 → _ from fun hlt => ?_) ?_; (on_goal 1 => clear_value lt); on_goal 2 => subst lt)
      | (extract_lets +onlyGivenNames lt; clear_value lt) | refine Good.of_pair ?_ ‹_› | split

theorem State.sscDeliver_good {s : State} (e : Nat) (payload : List Byte) (safeData : Bool) (age : Int) (hg : Good may s₀ s) (k_sig : may .sig) :
    Good may s₀ (State.sscDeliver s e payload safeData age) := by
  unfold State.sscDeliver
  with_reducible repeat' first | assumption | apply State.postWords_good | apply State.postFailSafe_good | refine Good.ite ?_ ?_ | split

theorem State.sscReceive_good {s : State} (e : Nat) (f : List Byte) (arr : Nat) (hg : Good may s₀ s) (k_sig : may .sig) :
    Good may s₀ (State.sscReceive s e f arr).1 := by
  unfold State.sscReceive
  with_reducible repeat' first
      | assumption | apply State.put_good | apply State.bump_good | apply State.sscFail_good | apply State.putB_good | apply State.setSess_good
      | apply State.putSat_good | apply State.sscDeliver_good | refine Good.ite ?_ ?_ | refine Good.ite1 ?_ ?_
      | (extract_lets +onlyGivenNames lt; refine (show Good may s₀ lt → _ from fun hlt => ?_) ?_; (on_goal 1 => clear_value lt); on_goal 2 => subst lt)
      | (extract_lets +onlyGivenNames lt; refine (show Good may s₀ lt.1 → _ from fun hlt => ?_) ?_; (on_goal 1 => clear_value lt); on_goal 2 => subst lt)
      | (extract_lets +onlyGivenNames lt; clear_value lt) | refine Good.of_pair ?_ ‹_› | split

theorem State.sscAbort_good {s : State} (e : Nat) (hg : Good may s₀ s) (k_sig : may .sig) :
    Good may s₀ (State.sscAbort s e) := by
  unfold State.sscAbort
  with_reducible repeat' first | assumption | apply State.sscFail_good | refine Good.ite ?_ ?_ | split

/-! ### GntOps -/

theorem State.putVec_good {s : State} (lo : Fld) (hi : Fld) (v : BitVec 64) (hg : Good may s₀ s) :
    Good may s₀ (State.putVec s lo hi v) := by
  unfold State.putVec
  with_reducible repeat' first | assumption | apply State.put64_good | refine Good.ite ?_ ?_ | split

theorem State.voteAccept_good {s : State} (e : Nat) (v : BitVec 64) (role : Nat) (hg : Good may s₀ s) (k_gnt : may .gnt) :
    Good may s₀ (State.voteAccept s e v role) := by
  unfold State.voteAccept
  with_reducible repeat' first
      | assumption | apply State.put_good | apply State.putB_good | apply State.putVec_good | refine Good.ite ?_ ?_
      | (extract_lets +onlyGivenNames lt; refine (show Good may s₀ lt → _ from fun hlt => ?_) ?_; (on_goal 1 => clear_value lt); on_goal 2 => subst lt)
      | (extract_lets +onlyGivenNames lt; refine (show Good may s₀ lt.1 → _ from fun hlt => ?_) ?_; (on_goal 1 => clear_value lt); on_goal 2 => subst lt)
      | (extract_lets +onlyGivenNames lt; clear_value lt) | refine Good.of_pair ?_ ‹_› | split
      | (apply Good.u_gnt; first | assumption | refine Good.ite ?_ ?_ | refine Good.of_pair ?_ ‹_› | apply State.put_good | apply State.putB_good | apply State.putVec_good)

theorem State.voteStale_good {s : State} (hg : Good may s₀ s) :
    Good may s₀ (State.voteStale s) := by
  unfold State.voteStale
  with_reducible repeat' first
      | assumption | apply State.put_good | refine Good.ite ?_ ?_
      | (extract_lets +onlyGivenNames lt; refine (show Good may s₀ lt → _ from fun hlt => ?_) ?_; (on_goal 1 => clear_value lt); on_goal 2 => subst lt)
      | (extract_lets +onlyGivenNames lt; refine (show Good may s₀ lt.1 → _ from fun hlt => ?_) ?_; (on_goal 1 => clear_value lt); on_goal 2 => subst lt)
      | (extract_lets +onlyGivenNames lt; clear_value lt) | refine Good.of_pair ?_ ‹_› | split

theorem State.voteHold_good {s : State} (hg : Good may s₀ s) :
    Good may s₀ (State.voteHold s) := by
  unfold State.voteHold
  with_reducible repeat' first
      | assumption | apply State.put_good | apply State.bump_good | apply State.voteStale_good | refine Good.ite ?_ ?_ | split

theorem State.voteSafe_good {s : State} (e : Nat) (hg : Good may s₀ s) :
    Good may s₀ (State.voteSafe s e) := by
  unfold State.voteSafe
  with_reducible repeat' first
      | assumption | apply State.put_good | apply State.voteHold_good | refine Good.ite ?_ ?_
      | (extract_lets +onlyGivenNames lt; refine (show Good may s₀ lt → _ from fun hlt => ?_) ?_; (on_goal 1 => clear_value lt); on_goal 2 => subst lt)
      | (extract_lets +onlyGivenNames lt; refine (show Good may s₀ lt.1 → _ from fun hlt => ?_) ?_; (on_goal 1 => clear_value lt); on_goal 2 => subst lt)
      | (extract_lets +onlyGivenNames lt; clear_value lt) | split

theorem State.voteLoop_good {s : State} (e : Nat) (v : BitVec 64) (hg : Good may s₀ s) (k_gnt : may .gnt) :
    Good may s₀ (State.voteLoop s e v) := by
  unfold State.voteLoop
  with_reducible repeat' first
      | assumption | apply State.setSess_good | apply State.voteAccept_good | refine Good.ite ?_ ?_
      | (extract_lets +onlyGivenNames lt; refine (show Good may s₀ lt → _ from fun hlt => ?_) ?_; (on_goal 1 => clear_value lt); on_goal 2 => subst lt)
      | (extract_lets +onlyGivenNames lt; refine (show Good may s₀ lt.1 → _ from fun hlt => ?_) ?_; (on_goal 1 => clear_value lt); on_goal 2 => subst lt)
      | (extract_lets +onlyGivenNames lt; clear_value lt) | split

theorem State.voteSendOn_good {s : State} (v : BitVec 64) (p0 : List Nat) (hg : Good may s₀ s) (k_gnt : may .gnt) :
    Good may s₀ (State.voteSendOn s v p0) := by
  induction p0 generalizing s v with
  | nil => unfold State.voteSendOn; with_reducible repeat' first
      | assumption | apply State.sscSend_good | apply State.voteLoop_good | refine Good.ite ?_ ?_
      | (extract_lets +onlyGivenNames lt; refine (show Good may s₀ lt → _ from fun hlt => ?_) ?_; (on_goal 1 => clear_value lt); on_goal 2 => subst lt)
      | (extract_lets +onlyGivenNames lt; refine (show Good may s₀ lt.1 → _ from fun hlt => ?_) ?_; (on_goal 1 => clear_value lt); on_goal 2 => subst lt)
      | (extract_lets +onlyGivenNames lt; clear_value lt) | split
  | cons hd tl ih => unfold State.voteSendOn; with_reducible repeat' first
      | assumption | apply ih | apply State.sscSend_good | apply State.voteLoop_good | refine Good.ite ?_ ?_
      | (extract_lets +onlyGivenNames lt; refine (show Good may s₀ lt → _ from fun hlt => ?_) ?_; (on_goal 1 => clear_value lt); on_goal 2 => subst lt)
      | (extract_lets +onlyGivenNames lt; refine (show Good may s₀ lt.1 → _ from fun hlt => ?_) ?_; (on_goal 1 => clear_value lt); on_goal 2 => subst lt)
      | (extract_lets +onlyGivenNames lt; clear_value lt) | split

theorem State.voteSend_good {s : State} (hg : Good may s₀ s) (k_gnt : may .gnt) :
    Good may s₀ (State.voteSend s) := by
  unfold State.voteSend
  with_reducible repeat' first
      | assumption | apply State.voteSendOn_good | refine Good.ite ?_ ?_
      | (extract_lets +onlyGivenNames lt; refine (show Good may s₀ lt → _ from fun hlt => ?_) ?_; (on_goal 1 => clear_value lt); on_goal 2 => subst lt)
      | (extract_lets +onlyGivenNames lt; refine (show Good may s₀ lt.1 → _ from fun hlt => ?_) ?_; (on_goal 1 => clear_value lt); on_goal 2 => subst lt)
      | (extract_lets +onlyGivenNames lt; clear_value lt) | split
      | (apply Good.u_gnt; first | assumption | refine Good.ite ?_ ?_ | refine Good.of_pair ?_ ‹_› | apply State.voteSendOn_good)

theorem State.voteRepeat_good {s : State} (hg : Good may s₀ s) (k_gnt : may .gnt) :
    Good may s₀ (State.voteRepeat s) := by
  unfold State.voteRepeat
  with_reducible repeat' first
      | assumption | apply State.voteSendOn_good | refine Good.ite ?_ ?_
      | (extract_lets +onlyGivenNames lt; refine (show Good may s₀ lt → _ from fun hlt => ?_) ?_; (on_goal 1 => clear_value lt); on_goal 2 => subst lt)
      | (extract_lets +onlyGivenNames lt; refine (show Good may s₀ lt.1 → _ from fun hlt => ?_) ?_; (on_goal 1 => clear_value lt); on_goal 2 => subst lt)
      | (extract_lets +onlyGivenNames lt; clear_value lt) | split
      | (apply Good.u_gnt; first | assumption | refine Good.ite ?_ ?_ | refine Good.of_pair ?_ ‹_› | apply State.voteSendOn_good)

theorem State.voteFault_good {s : State} (q : Nat) (t : Nat) (hg : Good may s₀ s) (k_gnt : may .gnt) :
    Good may s₀ (State.voteFault s q t) := by
  unfold State.voteFault
  with_reducible repeat' first
      | assumption | apply State.voteSend_good | refine Good.ite ?_ ?_
      | (extract_lets +onlyGivenNames lt; refine (show Good may s₀ lt → _ from fun hlt => ?_) ?_; (on_goal 1 => clear_value lt); on_goal 2 => subst lt)
      | (extract_lets +onlyGivenNames lt; clear_value lt) | split
      | (apply Good.u_gnt; first | assumption | refine Good.ite ?_ ?_ | refine Good.of_pair ?_ ‹_› | apply State.voteSend_good)

theorem State.evalSeal_good {s : State} (hg : Good may s₀ s) :
    Good may s₀ (State.evalSeal s) := by
  unfold State.evalSeal
  with_reducible repeat' first | assumption | apply State.putB_good | refine Good.ite ?_ ?_ | split

theorem State.evalCommissioned_good {s : State} (hg : Good may s₀ s) :
    Good may s₀ (State.evalCommissioned s) := by
  unfold State.evalCommissioned
  with_reducible repeat' first
      | assumption | apply State.putB_good | apply State.evalSeal_good | refine Good.ite ?_ ?_
      | (extract_lets +onlyGivenNames lt; refine (show Good may s₀ lt → _ from fun hlt => ?_) ?_; (on_goal 1 => clear_value lt); on_goal 2 => subst lt)
      | (extract_lets +onlyGivenNames lt; refine (show Good may s₀ lt.1 → _ from fun hlt => ?_) ?_; (on_goal 1 => clear_value lt); on_goal 2 => subst lt)
      | (extract_lets +onlyGivenNames lt; clear_value lt) | split

/-! ### BankOps -/

theorem State.setChan_good {s : State} (ch : Nat) (v : Chan) (hg : Good may s₀ s) (k_chans : may .chans) :
    Good may s₀ (State.setChan s ch v) := by
  unfold State.setChan
  with_reducible repeat' first
      | assumption | refine Good.ite ?_ ?_
      | (extract_lets +onlyGivenNames lt; refine (show Good may s₀ lt → _ from fun hlt => ?_) ?_; (on_goal 1 => clear_value lt); on_goal 2 => subst lt)
      | (extract_lets +onlyGivenNames lt; clear_value lt) | split
      | (apply Good.u_chans; first | assumption | refine Good.ite ?_ ?_ | refine Good.of_pair ?_ ‹_›)

theorem State.setBank_good {s : State} (b : Nat) (v : Bank) (hg : Good may s₀ s) (k_banks : may .banks) :
    Good may s₀ (State.setBank s b v) := by
  unfold State.setBank
  with_reducible repeat' first
      | assumption | refine Good.ite ?_ ?_
      | (extract_lets +onlyGivenNames lt; refine (show Good may s₀ lt → _ from fun hlt => ?_) ?_; (on_goal 1 => clear_value lt); on_goal 2 => subst lt)
      | (extract_lets +onlyGivenNames lt; clear_value lt) | split
      | (apply Good.u_banks; first | assumption | refine Good.ite ?_ ?_ | refine Good.of_pair ?_ ‹_›)

theorem State.anValue_good {s : State} (fmt : Nat) (nA : Int) (hg : Good may s₀ s) (k_freshCtr : may .freshCtr) :
    Good may s₀ (State.anValue s fmt nA).1 := by
  unfold State.anValue
  with_reducible repeat' first
      | assumption | apply State.free_good | refine Good.ite ?_ ?_ | refine Good.ite1 ?_ ?_
      | (extract_lets +onlyGivenNames lt; refine (show Good may s₀ lt → _ from fun hlt => ?_) ?_; (on_goal 1 => clear_value lt); on_goal 2 => subst lt)
      | (extract_lets +onlyGivenNames lt; refine (show Good may s₀ lt.1 → _ from fun hlt => ?_) ?_; (on_goal 1 => clear_value lt); on_goal 2 => subst lt)
      | (extract_lets +onlyGivenNames lt; clear_value lt) | refine Good.of_pair ?_ ‹_› | split

theorem State.chFault_good {s : State} (ch : Nat) (hg : Good may s₀ s) :
    Good may s₀ (State.chFault s ch) := by
  unfold State.chFault
  with_reducible repeat' first
      | assumption | apply State.putB_good | refine Good.ite ?_ ?_
      | (extract_lets +onlyGivenNames lt; refine (show Good may s₀ lt → _ from fun hlt => ?_) ?_; (on_goal 1 => clear_value lt); on_goal 2 => subst lt)
      | (extract_lets +onlyGivenNames lt; refine (show Good may s₀ lt.1 → _ from fun hlt => ?_) ?_; (on_goal 1 => clear_value lt); on_goal 2 => subst lt)
      | (extract_lets +onlyGivenNames lt; clear_value lt) | split

theorem State.killPulse_good {s : State} (ch : Nat) (hg : Good may s₀ s) (k_chans : may .chans) :
    Good may s₀ (State.killPulse s ch) := by
  unfold State.killPulse
  with_reducible repeat' first
      | assumption | apply State.setChan_good | refine Good.ite ?_ ?_
      | (extract_lets +onlyGivenNames lt; refine (show Good may s₀ lt → _ from fun hlt => ?_) ?_; (on_goal 1 => clear_value lt); on_goal 2 => subst lt)
      | (extract_lets +onlyGivenNames lt; refine (show Good may s₀ lt.1 → _ from fun hlt => ?_) ?_; (on_goal 1 => clear_value lt); on_goal 2 => subst lt)
      | (extract_lets +onlyGivenNames lt; clear_value lt) | refine Good.of_pair ?_ ‹_› | split

theorem State.timeDO_good {s : State} (ch : Nat) (hg : Good may s₀ s) (k_chans : may .chans) :
    Good may s₀ (State.timeDO s ch) := by
  unfold State.timeDO
  with_reducible repeat' first
      | assumption | apply State.put_good | apply State.setChan_good | refine Good.ite ?_ ?_
      | (extract_lets +onlyGivenNames lt; refine (show Good may s₀ lt → _ from fun hlt => ?_) ?_; (on_goal 1 => clear_value lt); on_goal 2 => subst lt)
      | (extract_lets +onlyGivenNames lt; refine (show Good may s₀ lt.1 → _ from fun hlt => ?_) ?_; (on_goal 1 => clear_value lt); on_goal 2 => subst lt)
      | (extract_lets +onlyGivenNames lt; clear_value lt) | split

theorem State.showDO_good {s : State} (ch : Nat) (hg : Good may s₀ s) (k_chans : may .chans) :
    Good may s₀ (State.showDO s ch) := by
  unfold State.showDO
  with_reducible repeat' first
      | assumption | apply State.putB_good | apply State.chFault_good | apply State.timeDO_good | refine Good.ite ?_ ?_
      | (extract_lets +onlyGivenNames lt; refine (show Good may s₀ lt → _ from fun hlt => ?_) ?_; (on_goal 1 => clear_value lt); on_goal 2 => subst lt)
      | (extract_lets +onlyGivenNames lt; refine (show Good may s₀ lt.1 → _ from fun hlt => ?_) ?_; (on_goal 1 => clear_value lt); on_goal 2 => subst lt)
      | (extract_lets +onlyGivenNames lt; clear_value lt) | split

theorem State.anMirror_good {s : State} (ch : Nat) (hg : Good may s₀ s) :
    Good may s₀ (State.anMirror s ch) := by
  unfold State.anMirror
  with_reducible repeat' first
      | assumption | apply State.putB_good | apply State.chFault_good | refine Good.ite ?_ ?_
      | (extract_lets +onlyGivenNames lt; refine (show Good may s₀ lt → _ from fun hlt => ?_) ?_; (on_goal 1 => clear_value lt); on_goal 2 => subst lt)
      | (extract_lets +onlyGivenNames lt; refine (show Good may s₀ lt.1 → _ from fun hlt => ?_) ?_; (on_goal 1 => clear_value lt); on_goal 2 => subst lt)
      | (extract_lets +onlyGivenNames lt; clear_value lt) | split

theorem State.complEnds_good {s : State} (ch : Nat) (hg : Good may s₀ s) (k_chans : may .chans) :
    Good may s₀ (State.complEnds s ch) := by
  unfold State.complEnds
  with_reducible repeat' first
      | assumption | apply State.put_good | apply State.setChan_good | apply State.anMirror_good | refine Good.ite ?_ ?_
      | (extract_lets +onlyGivenNames lt; refine (show Good may s₀ lt → _ from fun hlt => ?_) ?_; (on_goal 1 => clear_value lt); on_goal 2 => subst lt)
      | (extract_lets +onlyGivenNames lt; refine (show Good may s₀ lt.1 → _ from fun hlt => ?_) ?_; (on_goal 1 => clear_value lt); on_goal 2 => subst lt)
      | (extract_lets +onlyGivenNames lt; clear_value lt) | split

theorem State.chClear_good {s : State} (ch : Nat) (all : Bool) (hg : Good may s₀ s) :
    Good may s₀ (State.chClear s ch all) := by
  unfold State.chClear
  with_reducible repeat' first
      | assumption | apply State.wr_good | refine Good.ite ?_ ?_
      | (extract_lets +onlyGivenNames lt; refine (show Good may s₀ lt → _ from fun hlt => ?_) ?_; (on_goal 1 => clear_value lt); on_goal 2 => subst lt)
      | (extract_lets +onlyGivenNames lt; refine (show Good may s₀ lt.1 → _ from fun hlt => ?_) ?_; (on_goal 1 => clear_value lt); on_goal 2 => subst lt)
      | (extract_lets +onlyGivenNames lt; clear_value lt) | split

theorem State.chFresh_good {s : State} (ch : Nat) (hg : Good may s₀ s) :
    Good may s₀ (State.chFresh s ch) := by
  unfold State.chFresh
  with_reducible repeat' first | assumption | apply State.chClear_good | refine Good.ite ?_ ?_ | split

theorem State.regulate_good {s : State} (ch : Nat) (hg : Good may s₀ s) (k_chans : may .chans) :
    Good may s₀ (State.regulate s ch) := by
  unfold State.regulate
  with_reducible repeat' first
      | assumption | apply State.putB_good | apply State.setChan_good | refine Good.ite ?_ ?_
      | (extract_lets +onlyGivenNames lt; refine (show Good may s₀ lt → _ from fun hlt => ?_) ?_; (on_goal 1 => clear_value lt); on_goal 2 => subst lt)
      | (extract_lets +onlyGivenNames lt; refine (show Good may s₀ lt.1 → _ from fun hlt => ?_) ?_; (on_goal 1 => clear_value lt); on_goal 2 => subst lt)
      | (extract_lets +onlyGivenNames lt; clear_value lt) | split

theorem State.releaseCh_good {s : State} (ch : Nat) (hg : Good may s₀ s) (k_chans : may .chans) :
    Good may s₀ (State.releaseCh s ch) := by
  unfold State.releaseCh
  with_reducible repeat' first
      | assumption | apply State.put_good | apply State.setChan_good | apply State.showDO_good | apply State.killPulse_good
      | apply State.complEnds_good | refine Good.ite ?_ ?_
      | (extract_lets +onlyGivenNames lt; refine (show Good may s₀ lt → _ from fun hlt => ?_) ?_; (on_goal 1 => clear_value lt); on_goal 2 => subst lt)
      | (extract_lets +onlyGivenNames lt; refine (show Good may s₀ lt.1 → _ from fun hlt => ?_) ?_; (on_goal 1 => clear_value lt); on_goal 2 => subst lt)
      | (extract_lets +onlyGivenNames lt; clear_value lt) | split

theorem State.holdCh_good {s : State} (ch : Nat) (hg : Good may s₀ s) (k_chans : may .chans) :
    Good may s₀ (State.holdCh s ch) := by
  unfold State.holdCh
  with_reducible repeat' first
      | assumption | apply State.put_good | apply State.setChan_good | refine Good.ite ?_ ?_
      | (extract_lets +onlyGivenNames lt; refine (show Good may s₀ lt → _ from fun hlt => ?_) ?_; (on_goal 1 => clear_value lt); on_goal 2 => subst lt)
      | (extract_lets +onlyGivenNames lt; clear_value lt) | split

theorem State.joinEntry_good {s : State} (ch : Nat) (hg : Good may s₀ s) :
    Good may s₀ (State.joinEntry s ch) := by
  unfold State.joinEntry
  with_reducible repeat' first
      | assumption | apply State.put_good | refine Good.ite ?_ ?_
      | (extract_lets +onlyGivenNames lt; refine (show Good may s₀ lt → _ from fun hlt => ?_) ?_; (on_goal 1 => clear_value lt); on_goal 2 => subst lt)
      | (extract_lets +onlyGivenNames lt; refine (show Good may s₀ lt.1 → _ from fun hlt => ?_) ?_; (on_goal 1 => clear_value lt); on_goal 2 => subst lt)
      | (extract_lets +onlyGivenNames lt; clear_value lt) | split

theorem State.applyValue_good {s : State} (ch : Nat) (v : Word) (hg : Good may s₀ s) (k_chans : may .chans) :
    Good may s₀ (State.applyValue s ch v) := by
  unfold State.applyValue
  with_reducible repeat' first
      | assumption | apply State.setChan_good | apply State.killPulse_good | refine Good.ite ?_ ?_
      | (extract_lets +onlyGivenNames lt; refine (show Good may s₀ lt → _ from fun hlt => ?_) ?_; (on_goal 1 => clear_value lt); on_goal 2 => subst lt)
      | (extract_lets +onlyGivenNames lt; refine (show Good may s₀ lt.1 → _ from fun hlt => ?_) ?_; (on_goal 1 => clear_value lt); on_goal 2 => subst lt)
      | (extract_lets +onlyGivenNames lt; clear_value lt) | split

theorem State.driveCh_good {s : State} (ch : Nat) (v : Word) (hg : Good may s₀ s) (k_chans : may .chans) :
    Good may s₀ (State.driveCh s ch v) := by
  unfold State.driveCh
  with_reducible repeat' first
      | assumption | apply State.put_good | apply State.showDO_good | apply State.applyValue_good | apply State.joinEntry_good
      | apply State.regulate_good | refine Good.ite ?_ ?_
      | (extract_lets +onlyGivenNames lt; refine (show Good may s₀ lt → _ from fun hlt => ?_) ?_; (on_goal 1 => clear_value lt); on_goal 2 => subst lt)
      | (extract_lets +onlyGivenNames lt; refine (show Good may s₀ lt.1 → _ from fun hlt => ?_) ?_; (on_goal 1 => clear_value lt); on_goal 2 => subst lt)
      | (extract_lets +onlyGivenNames lt; clear_value lt) | split

theorem State.timedSafe_good {s : State} (ch : Nat) (hg : Good may s₀ s) (k_chans : may .chans) :
    Good may s₀ (State.timedSafe s ch) := by
  unfold State.timedSafe
  with_reducible repeat' first
      | assumption | apply State.put_good | apply State.setChan_good | apply State.showDO_good | apply State.killPulse_good | refine Good.ite ?_ ?_
      | (extract_lets +onlyGivenNames lt; refine (show Good may s₀ lt → _ from fun hlt => ?_) ?_; (on_goal 1 => clear_value lt); on_goal 2 => subst lt)
      | (extract_lets +onlyGivenNames lt; refine (show Good may s₀ lt.1 → _ from fun hlt => ?_) ?_; (on_goal 1 => clear_value lt); on_goal 2 => subst lt)
      | (extract_lets +onlyGivenNames lt; clear_value lt) | split

theorem State.releaseAll_good {s : State} (p0 : List Nat) (hg : Good may s₀ s) (k_chans : may .chans) :
    Good may s₀ (State.releaseAll s p0) := by
  induction p0 generalizing s with
  | nil => unfold State.releaseAll; with_reducible repeat' first | assumption | apply State.releaseCh_good | refine Good.ite ?_ ?_ | split
  | cons hd tl ih => unfold State.releaseAll; with_reducible repeat' first
      | assumption | apply ih | apply State.releaseCh_good | refine Good.ite ?_ ?_ | split

theorem State.releaseBank_good {s : State} (b : Nat) (hg : Good may s₀ s) (k_chans : may .chans) :
    Good may s₀ (State.releaseBank s b) := by
  unfold State.releaseBank
  with_reducible repeat' first | assumption | apply State.put_good | apply State.releaseAll_good | refine Good.ite ?_ ?_ | split

theorem State.tickOut_good {s : State} (m : Nat) (ch : Nat) (hg : Good may s₀ s) (k_chans : may .chans) :
    Good may s₀ (State.tickOut s m ch) := by
  unfold State.tickOut
  with_reducible repeat' first
      | assumption | apply State.driveCh_good | apply State.holdCh_good | apply State.timedSafe_good | refine Good.ite ?_ ?_
      | (extract_lets +onlyGivenNames lt; refine (show Good may s₀ lt → _ from fun hlt => ?_) ?_; (on_goal 1 => clear_value lt); on_goal 2 => subst lt)
      | (extract_lets +onlyGivenNames lt; refine (show Good may s₀ lt.1 → _ from fun hlt => ?_) ?_; (on_goal 1 => clear_value lt); on_goal 2 => subst lt)
      | (extract_lets +onlyGivenNames lt; clear_value lt) | refine Good.of_pair ?_ ‹_› | split

theorem State.tickOuts_good {s : State} (m : Nat) (p0 : List Nat) (hg : Good may s₀ s) (k_chans : may .chans) :
    Good may s₀ (State.tickOuts s m p0) := by
  induction p0 generalizing s m with
  | nil => unfold State.tickOuts; with_reducible repeat' first
      | assumption | apply State.releaseCh_good | apply State.tickOut_good | refine Good.ite ?_ ?_
      | (extract_lets +onlyGivenNames lt; refine (show Good may s₀ lt → _ from fun hlt => ?_) ?_; (on_goal 1 => clear_value lt); on_goal 2 => subst lt)
      | (extract_lets +onlyGivenNames lt; refine (show Good may s₀ lt.1 → _ from fun hlt => ?_) ?_; (on_goal 1 => clear_value lt); on_goal 2 => subst lt)
      | (extract_lets +onlyGivenNames lt; clear_value lt) | split
  | cons hd tl ih => unfold State.tickOuts; with_reducible repeat' first
      | assumption | apply ih | apply State.releaseCh_good | apply State.tickOut_good | refine Good.ite ?_ ?_
      | (extract_lets +onlyGivenNames lt; refine (show Good may s₀ lt → _ from fun hlt => ?_) ?_; (on_goal 1 => clear_value lt); on_goal 2 => subst lt)
      | (extract_lets +onlyGivenNames lt; refine (show Good may s₀ lt.1 → _ from fun hlt => ?_) ?_; (on_goal 1 => clear_value lt); on_goal 2 => subst lt)
      | (extract_lets +onlyGivenNames lt; clear_value lt) | split

theorem State.silence_good {s : State} (b : Nat) (hg : Good may s₀ s) :
    Good may s₀ (State.silence s b) := by
  unfold State.silence
  with_reducible repeat' first | assumption | apply State.put_good | apply State.bump_good | refine Good.ite ?_ ?_ | split

theorem State.showAll_good {s : State} (p0 : List Nat) (hg : Good may s₀ s) (k_chans : may .chans) :
    Good may s₀ (State.showAll s p0) := by
  induction p0 generalizing s with
  | nil => unfold State.showAll; with_reducible repeat' first | assumption | apply State.showDO_good | refine Good.ite ?_ ?_ | split
  | cons hd tl ih => unfold State.showAll; with_reducible repeat' first
      | assumption | apply ih | apply State.showDO_good | refine Good.ite ?_ ?_ | split

theorem State.bankApply_good {s : State} (b : Nat) (hg : Good may s₀ s) (k_chans : may .chans) (k_banks : may .banks) :
    Good may s₀ (State.bankApply s b) := by
  unfold State.bankApply
  with_reducible repeat' first
      | assumption | apply State.put_good | apply State.releaseBank_good | apply State.setBank_good | apply State.showAll_good
      | apply State.silence_good | apply State.tickOuts_good | refine Good.ite ?_ ?_
      | (extract_lets +onlyGivenNames lt; refine (show Good may s₀ lt → _ from fun hlt => ?_) ?_; (on_goal 1 => clear_value lt); on_goal 2 => subst lt)
      | (extract_lets +onlyGivenNames lt; refine (show Good may s₀ lt.1 → _ from fun hlt => ?_) ?_; (on_goal 1 => clear_value lt); on_goal 2 => subst lt)
      | (extract_lets +onlyGivenNames lt; clear_value lt) | split

theorem State.stageCh_good {s : State} (ch : Nat) (hg : Good may s₀ s) (k_chans : may .chans) :
    Good may s₀ (State.stageCh s ch) := by
  unfold State.stageCh
  with_reducible repeat' first
      | assumption | apply State.putB_good | apply State.setChan_good | refine Good.ite ?_ ?_
      | (extract_lets +onlyGivenNames lt; refine (show Good may s₀ lt → _ from fun hlt => ?_) ?_; (on_goal 1 => clear_value lt); on_goal 2 => subst lt)
      | (extract_lets +onlyGivenNames lt; refine (show Good may s₀ lt.1 → _ from fun hlt => ?_) ?_; (on_goal 1 => clear_value lt); on_goal 2 => subst lt)
      | (extract_lets +onlyGivenNames lt; clear_value lt) | refine Good.of_pair ?_ ‹_› | split

theorem State.stageAll_good {s : State} (p0 : List Nat) (hg : Good may s₀ s) (k_chans : may .chans) :
    Good may s₀ (State.stageAll s p0) := by
  induction p0 generalizing s with
  | nil => unfold State.stageAll; with_reducible repeat' first | assumption | apply State.stageCh_good | refine Good.ite ?_ ?_ | split
  | cons hd tl ih => unfold State.stageAll; with_reducible repeat' first
      | assumption | apply ih | apply State.stageCh_good | refine Good.ite ?_ ?_ | split

theorem State.stageBanks_good {s : State} (p0 : List Nat) (hg : Good may s₀ s) (k_chans : may .chans) :
    Good may s₀ (State.stageBanks s p0) := by
  induction p0 generalizing s with
  | nil => unfold State.stageBanks; with_reducible repeat' first | assumption | apply State.stageAll_good | refine Good.ite ?_ ?_ | split
  | cons hd tl ih => unfold State.stageBanks; with_reducible repeat' first
      | assumption | apply ih | apply State.stageAll_good | refine Good.ite ?_ ?_ | split

theorem State.filtered_good {s : State} (ch : Nat) (st : Bool) (stamp : Nat) (hg : Good may s₀ s) :
    Good may s₀ (State.filtered s ch st stamp) := by
  unfold State.filtered
  with_reducible repeat' first
      | assumption | apply State.put_good | apply State.bump_good | apply State.putB_good | refine Good.ite ?_ ?_
      | (extract_lets +onlyGivenNames lt; refine (show Good may s₀ lt → _ from fun hlt => ?_) ?_; (on_goal 1 => clear_value lt); on_goal 2 => subst lt)
      | (extract_lets +onlyGivenNames lt; refine (show Good may s₀ lt.1 → _ from fun hlt => ?_) ?_; (on_goal 1 => clear_value lt); on_goal 2 => subst lt)
      | (extract_lets +onlyGivenNames lt; clear_value lt) | split

theorem State.diSample_good {s : State} (ch : Nat) (raw : Bool) (hg : Good may s₀ s) (k_chans : may .chans) :
    Good may s₀ (State.diSample s ch raw) := by
  unfold State.diSample
  with_reducible repeat' first
      | assumption | apply State.put_good | apply State.putB_good | apply State.setChan_good | apply State.filtered_good | refine Good.ite ?_ ?_
      | (extract_lets +onlyGivenNames lt; refine (show Good may s₀ lt → _ from fun hlt => ?_) ?_; (on_goal 1 => clear_value lt); on_goal 2 => subst lt)
      | (extract_lets +onlyGivenNames lt; refine (show Good may s₀ lt.1 → _ from fun hlt => ?_) ?_; (on_goal 1 => clear_value lt); on_goal 2 => subst lt)
      | (extract_lets +onlyGivenNames lt; clear_value lt) | split

theorem State.reloadFilt_good {s : State} (ch : Nat) (hg : Good may s₀ s) :
    Good may s₀ (State.reloadFilt s ch) := by
  unfold State.reloadFilt
  with_reducible repeat' first | assumption | apply State.put_good | refine Good.ite ?_ ?_ | split

theorem State.captureAll_good {s : State} (p0 : List Nat) (hg : Good may s₀ s) (k_chans : may .chans) :
    Good may s₀ (State.captureAll s p0) := by
  induction p0 generalizing s with
  | nil => unfold State.captureAll; with_reducible repeat' first
      | assumption | apply State.setChan_good | refine Good.ite ?_ ?_
      | (extract_lets +onlyGivenNames lt; refine (show Good may s₀ lt → _ from fun hlt => ?_) ?_; (on_goal 1 => clear_value lt); on_goal 2 => subst lt)
      | (extract_lets +onlyGivenNames lt; clear_value lt) | split
  | cons hd tl ih => unfold State.captureAll; with_reducible repeat' first
      | assumption | apply ih | apply State.setChan_good | refine Good.ite ?_ ?_
      | (extract_lets +onlyGivenNames lt; refine (show Good may s₀ lt → _ from fun hlt => ?_) ?_; (on_goal 1 => clear_value lt); on_goal 2 => subst lt)
      | (extract_lets +onlyGivenNames lt; clear_value lt) | split

theorem State.measure_good {s : State} (ch : Nat) (own : Nat) (total : Nat) (hg : Good may s₀ s) (k_chans : may .chans) :
    Good may s₀ (State.measure s ch own total) := by
  unfold State.measure
  with_reducible repeat' first
      | assumption | apply State.setChan_good | apply State.putSat_good | apply State.regulate_good | refine Good.ite ?_ ?_
      | (extract_lets +onlyGivenNames lt; refine (show Good may s₀ lt → _ from fun hlt => ?_) ?_; (on_goal 1 => clear_value lt); on_goal 2 => subst lt)
      | (extract_lets +onlyGivenNames lt; refine (show Good may s₀ lt.1 → _ from fun hlt => ?_) ?_; (on_goal 1 => clear_value lt); on_goal 2 => subst lt)
      | (extract_lets +onlyGivenNames lt; clear_value lt) | split

theorem State.measureAll_good {s : State} (p0 : List FieldSample) (hg : Good may s₀ s) (k_chans : may .chans) :
    Good may s₀ (State.measureAll s p0) := by
  induction p0 generalizing s with
  | nil => unfold State.measureAll; with_reducible repeat' first | assumption | apply State.measure_good | refine Good.ite ?_ ?_ | split
  | cons hd tl ih => unfold State.measureAll; with_reducible repeat' first
      | assumption | apply ih | apply State.measure_good | refine Good.ite ?_ ?_ | split

theorem State.convert_good {s : State} (ch : Nat) (hg : Good may s₀ s) (k_freshCtr : may .freshCtr) (k_chans : may .chans) :
    Good may s₀ (State.convert s ch) := by
  unfold State.convert
  with_reducible repeat' first
      | assumption | apply State.setChan_good | apply State.anValue_good | refine Good.ite ?_ ?_
      | (extract_lets +onlyGivenNames lt; refine (show Good may s₀ lt → _ from fun hlt => ?_) ?_; (on_goal 1 => clear_value lt); on_goal 2 => subst lt)
      | (extract_lets +onlyGivenNames lt; refine (show Good may s₀ lt.1 → _ from fun hlt => ?_) ?_; (on_goal 1 => clear_value lt); on_goal 2 => subst lt)
      | (extract_lets +onlyGivenNames lt; clear_value lt) | refine Good.of_pair ?_ ‹_› | split

theorem State.convertAll_good {s : State} (p0 : List Nat) (hg : Good may s₀ s) (k_freshCtr : may .freshCtr) (k_chans : may .chans) :
    Good may s₀ (State.convertAll s p0) := by
  induction p0 generalizing s with
  | nil => unfold State.convertAll; with_reducible repeat' first | assumption | apply State.convert_good | refine Good.ite ?_ ?_ | split
  | cons hd tl ih => unfold State.convertAll; with_reducible repeat' first
      | assumption | apply ih | apply State.convert_good | refine Good.ite ?_ ?_ | split

theorem State.endRamps_good {s : State} (p0 : List Nat) (hg : Good may s₀ s) (k_chans : may .chans) :
    Good may s₀ (State.endRamps s p0) := by
  induction p0 generalizing s with
  | nil => unfold State.endRamps; with_reducible repeat' first
      | assumption | apply State.setChan_good | refine Good.ite ?_ ?_
      | (extract_lets +onlyGivenNames lt; refine (show Good may s₀ lt → _ from fun hlt => ?_) ?_; (on_goal 1 => clear_value lt); on_goal 2 => subst lt)
      | (extract_lets +onlyGivenNames lt; refine (show Good may s₀ lt.1 → _ from fun hlt => ?_) ?_; (on_goal 1 => clear_value lt); on_goal 2 => subst lt)
      | (extract_lets +onlyGivenNames lt; clear_value lt) | refine Good.of_pair ?_ ‹_› | split
  | cons hd tl ih => unfold State.endRamps; with_reducible repeat' first
      | assumption | apply ih | apply State.setChan_good | refine Good.ite ?_ ?_
      | (extract_lets +onlyGivenNames lt; refine (show Good may s₀ lt → _ from fun hlt => ?_) ?_; (on_goal 1 => clear_value lt); on_goal 2 => subst lt)
      | (extract_lets +onlyGivenNames lt; refine (show Good may s₀ lt.1 → _ from fun hlt => ?_) ?_; (on_goal 1 => clear_value lt); on_goal 2 => subst lt)
      | (extract_lets +onlyGivenNames lt; clear_value lt) | refine Good.of_pair ?_ ‹_› | split

theorem State.postReadback_good {s : State} (ch : Nat) (hg : Good may s₀ s) (k_sig : may .sig) (k_freshCtr : may .freshCtr) :
    Good may s₀ (State.postReadback s ch) := by
  unfold State.postReadback
  with_reducible repeat' first
      | assumption | apply State.post_good | apply State.anValue_good | refine Good.ite ?_ ?_
      | (extract_lets +onlyGivenNames lt; refine (show Good may s₀ lt → _ from fun hlt => ?_) ?_; (on_goal 1 => clear_value lt); on_goal 2 => subst lt)
      | (extract_lets +onlyGivenNames lt; refine (show Good may s₀ lt.1 → _ from fun hlt => ?_) ?_; (on_goal 1 => clear_value lt); on_goal 2 => subst lt)
      | (extract_lets +onlyGivenNames lt; clear_value lt) | refine Good.of_pair ?_ ‹_› | split

theorem State.postCh_good {s : State} (ch : Nat) (hg : Good may s₀ s) (k_sig : may .sig) (k_freshCtr : may .freshCtr) (k_chans : may .chans) :
    Good may s₀ (State.postCh s ch) := by
  unfold State.postCh
  with_reducible repeat' first
      | assumption | apply State.invalidate_good | apply State.post_good | apply State.setChan_good | apply State.postReadback_good
      | refine Good.ite ?_ ?_
      | (extract_lets +onlyGivenNames lt; refine (show Good may s₀ lt → _ from fun hlt => ?_) ?_; (on_goal 1 => clear_value lt); on_goal 2 => subst lt)
      | (extract_lets +onlyGivenNames lt; refine (show Good may s₀ lt.1 → _ from fun hlt => ?_) ?_; (on_goal 1 => clear_value lt); on_goal 2 => subst lt)
      | (extract_lets +onlyGivenNames lt; clear_value lt) | refine Good.of_pair ?_ ‹_› | split

theorem State.postChs_good {s : State} (p0 : List Nat) (hg : Good may s₀ s) (k_sig : may .sig) (k_freshCtr : may .freshCtr) (k_chans : may .chans) :
    Good may s₀ (State.postChs s p0) := by
  induction p0 generalizing s with
  | nil => unfold State.postChs; with_reducible repeat' first | assumption | apply State.postCh_good | refine Good.ite ?_ ?_ | split
  | cons hd tl ih => unfold State.postChs; with_reducible repeat' first
      | assumption | apply ih | apply State.postCh_good | refine Good.ite ?_ ?_ | split

theorem State.postTrip_good {s : State} (b : Nat) (hg : Good may s₀ s) (k_sig : may .sig) :
    Good may s₀ (State.postTrip s b) := by
  unfold State.postTrip
  with_reducible repeat' first | assumption | apply State.post_good | refine Good.ite ?_ ?_ | split

theorem State.postDiag_good {s : State} (p0 : List Nat) (hg : Good may s₀ s) (k_sig : may .sig) :
    Good may s₀ (State.postDiag s p0) := by
  induction p0 generalizing s with
  | nil => unfold State.postDiag; with_reducible repeat' first
      | assumption | apply State.post_good | refine Good.ite ?_ ?_
      | (extract_lets +onlyGivenNames lt; refine (show Good may s₀ lt → _ from fun hlt => ?_) ?_; (on_goal 1 => clear_value lt); on_goal 2 => subst lt)
      | (extract_lets +onlyGivenNames lt; refine (show Good may s₀ lt.1 → _ from fun hlt => ?_) ?_; (on_goal 1 => clear_value lt); on_goal 2 => subst lt)
      | (extract_lets +onlyGivenNames lt; clear_value lt) | split
  | cons hd tl ih => unfold State.postDiag; with_reducible repeat' first
      | assumption | apply ih | apply State.post_good | refine Good.ite ?_ ?_
      | (extract_lets +onlyGivenNames lt; refine (show Good may s₀ lt → _ from fun hlt => ?_) ?_; (on_goal 1 => clear_value lt); on_goal 2 => subst lt)
      | (extract_lets +onlyGivenNames lt; refine (show Good may s₀ lt.1 → _ from fun hlt => ?_) ?_; (on_goal 1 => clear_value lt); on_goal 2 => subst lt)
      | (extract_lets +onlyGivenNames lt; clear_value lt) | split

theorem State.postCopies_good {s : State} (b : Nat) (hg : Good may s₀ s) (k_sig : may .sig) :
    Good may s₀ (State.postCopies s b) := by
  unfold State.postCopies
  with_reducible repeat' first | assumption | apply State.postDiag_good | apply State.postTrip_good | refine Good.ite ?_ ?_ | split

theorem State.lateBank_good {s : State} (p0 : List (Nat × Nat)) (hg : Good may s₀ s) (k_sig : may .sig) :
    Good may s₀ (State.lateBank s p0) := by
  induction p0 generalizing s with
  | nil => unfold State.lateBank; with_reducible repeat' first | assumption | apply State.lateSlots_good | refine Good.ite ?_ ?_ | split
  | cons hd tl ih => unfold State.lateBank; with_reducible repeat' first
      | assumption | apply ih | apply State.lateSlots_good | refine Good.ite ?_ ?_ | split

theorem State.invalidBank_good {s : State} (p0 : List (Nat × Nat)) (hg : Good may s₀ s) (k_sig : may .sig) :
    Good may s₀ (State.invalidBank s p0) := by
  induction p0 generalizing s with
  | nil => unfold State.invalidBank; with_reducible repeat' first
      | assumption | apply State.setSlot_good | apply State.invalidate_good | refine Good.ite ?_ ?_
      | (extract_lets +onlyGivenNames lt; refine (show Good may s₀ lt → _ from fun hlt => ?_) ?_; (on_goal 1 => clear_value lt); on_goal 2 => subst lt)
      | (extract_lets +onlyGivenNames lt; refine (show Good may s₀ lt.1 → _ from fun hlt => ?_) ?_; (on_goal 1 => clear_value lt); on_goal 2 => subst lt)
      | (extract_lets +onlyGivenNames lt; clear_value lt) | split
  | cons hd tl ih => unfold State.invalidBank; with_reducible repeat' first
      | assumption | apply ih | apply State.setSlot_good | apply State.invalidate_good | refine Good.ite ?_ ?_
      | (extract_lets +onlyGivenNames lt; refine (show Good may s₀ lt → _ from fun hlt => ?_) ?_; (on_goal 1 => clear_value lt); on_goal 2 => subst lt)
      | (extract_lets +onlyGivenNames lt; refine (show Good may s₀ lt.1 → _ from fun hlt => ?_) ?_; (on_goal 1 => clear_value lt); on_goal 2 => subst lt)
      | (extract_lets +onlyGivenNames lt; clear_value lt) | split

theorem State.inputLost_good {s : State} (b : Nat) (hg : Good may s₀ s) (k_sig : may .sig) :
    Good may s₀ (State.inputLost s b) := by
  unfold State.inputLost
  with_reducible repeat' first
      | assumption | apply State.put_good | apply State.bump_good | apply State.invalidBank_good | refine Good.ite ?_ ?_ | split

theorem State.bankTick_good {s : State} (b : Nat) (hg : Good may s₀ s) (k_sig : may .sig) (k_freshCtr : may .freshCtr)
    (k_chans : may .chans) (k_banks : may .banks) :
    Good may s₀ (State.bankTick s b) := by
  unfold State.bankTick
  with_reducible repeat' first
      | assumption | apply State.setBank_good | apply State.bankApply_good | apply State.captureAll_good | apply State.convertAll_good
      | apply State.endRamps_good | apply State.invalidBank_good | apply State.inputLost_good | apply State.lateBank_good
      | apply State.postCopies_good | refine Good.ite ?_ ?_
      | (extract_lets +onlyGivenNames lt; refine (show Good may s₀ lt → _ from fun hlt => ?_) ?_; (on_goal 1 => clear_value lt); on_goal 2 => subst lt)
      | (extract_lets +onlyGivenNames lt; refine (show Good may s₀ lt.1 → _ from fun hlt => ?_) ?_; (on_goal 1 => clear_value lt); on_goal 2 => subst lt)
      | (extract_lets +onlyGivenNames lt; clear_value lt) | split

theorem State.bankTicks_good {s : State} (p0 : List Nat) (hg : Good may s₀ s) (k_sig : may .sig) (k_freshCtr : may .freshCtr)
    (k_chans : may .chans) (k_banks : may .banks) :
    Good may s₀ (State.bankTicks s p0) := by
  induction p0 generalizing s with
  | nil => unfold State.bankTicks; with_reducible repeat' first | assumption | apply State.bankTick_good | refine Good.ite ?_ ?_ | split
  | cons hd tl ih => unfold State.bankTicks; with_reducible repeat' first
      | assumption | apply ih | apply State.bankTick_good | refine Good.ite ?_ ?_ | split

theorem State.killAll_good {s : State} (p0 : List Nat) (hg : Good may s₀ s) (k_chans : may .chans) :
    Good may s₀ (State.killAll s p0) := by
  induction p0 generalizing s with
  | nil => unfold State.killAll; with_reducible repeat' first
      | assumption | apply State.setChan_good | apply State.showDO_good | apply State.killPulse_good | apply State.complEnds_good
      | refine Good.ite ?_ ?_
      | (extract_lets +onlyGivenNames lt; refine (show Good may s₀ lt → _ from fun hlt => ?_) ?_; (on_goal 1 => clear_value lt); on_goal 2 => subst lt)
      | (extract_lets +onlyGivenNames lt; clear_value lt) | split
  | cons hd tl ih => unfold State.killAll; with_reducible repeat' first
      | assumption | apply ih | apply State.setChan_good | apply State.showDO_good | apply State.killPulse_good | apply State.complEnds_good
      | refine Good.ite ?_ ?_
      | (extract_lets +onlyGivenNames lt; refine (show Good may s₀ lt → _ from fun hlt => ?_) ?_; (on_goal 1 => clear_value lt); on_goal 2 => subst lt)
      | (extract_lets +onlyGivenNames lt; clear_value lt) | split

theorem State.fvBad_good {s : State} (b : Nat) (low : Bool) (hg : Good may s₀ s) (k_chans : may .chans) (k_banks : may .banks) :
    Good may s₀ (State.fvBad s b low) := by
  unfold State.fvBad
  with_reducible repeat' first
      | assumption | apply State.put_good | apply State.bump_good | apply State.setBank_good | apply State.killAll_good | refine Good.ite ?_ ?_
      | (extract_lets +onlyGivenNames lt; refine (show Good may s₀ lt → _ from fun hlt => ?_) ?_; (on_goal 1 => clear_value lt); on_goal 2 => subst lt)
      | (extract_lets +onlyGivenNames lt; refine (show Good may s₀ lt.1 → _ from fun hlt => ?_) ?_; (on_goal 1 => clear_value lt); on_goal 2 => subst lt)
      | (extract_lets +onlyGivenNames lt; clear_value lt) | split

theorem State.bankOff_good {s : State} (b : Nat) (hg : Good may s₀ s) (k_chans : may .chans) (k_banks : may .banks) :
    Good may s₀ (State.bankOff s b) := by
  unfold State.bankOff
  with_reducible repeat' first
      | assumption | apply State.wr_good | apply State.put_good | apply State.releaseBank_good | apply State.setBank_good | refine Good.ite ?_ ?_
      | (extract_lets +onlyGivenNames lt; refine (show Good may s₀ lt → _ from fun hlt => ?_) ?_; (on_goal 1 => clear_value lt); on_goal 2 => subst lt)
      | (extract_lets +onlyGivenNames lt; refine (show Good may s₀ lt.1 → _ from fun hlt => ?_) ?_; (on_goal 1 => clear_value lt); on_goal 2 => subst lt)
      | (extract_lets +onlyGivenNames lt; clear_value lt) | split

theorem State.markRaw_good {s : State} (src : Nat) (p0 : List Nat) (hg : Good may s₀ s) (k_chans : may .chans) :
    Good may s₀ (State.markRaw s src p0) := by
  induction p0 generalizing s src with
  | nil => unfold State.markRaw; with_reducible repeat' first
      | assumption | apply State.setChan_good | refine Good.ite ?_ ?_
      | (extract_lets +onlyGivenNames lt; refine (show Good may s₀ lt → _ from fun hlt => ?_) ?_; (on_goal 1 => clear_value lt); on_goal 2 => subst lt)
      | (extract_lets +onlyGivenNames lt; clear_value lt) | split
  | cons hd tl ih => unfold State.markRaw; with_reducible repeat' first
      | assumption | apply ih | apply State.setChan_good | refine Good.ite ?_ ?_
      | (extract_lets +onlyGivenNames lt; refine (show Good may s₀ lt → _ from fun hlt => ?_) ?_; (on_goal 1 => clear_value lt); on_goal 2 => subst lt)
      | (extract_lets +onlyGivenNames lt; clear_value lt) | split

theorem State.pulseStart_good {s : State} (ch : Nat) (hg : Good may s₀ s) (k_chans : may .chans) :
    Good may s₀ (State.pulseStart s ch) := by
  unfold State.pulseStart
  with_reducible repeat' first
      | assumption | apply State.setChan_good | apply State.timeDO_good | apply State.markRaw_good | refine Good.ite ?_ ?_
      | (extract_lets +onlyGivenNames lt; refine (show Good may s₀ lt → _ from fun hlt => ?_) ?_; (on_goal 1 => clear_value lt); on_goal 2 => subst lt)
      | (extract_lets +onlyGivenNames lt; refine (show Good may s₀ lt.1 → _ from fun hlt => ?_) ?_; (on_goal 1 => clear_value lt); on_goal 2 => subst lt)
      | (extract_lets +onlyGivenNames lt; clear_value lt) | refine Good.of_pair ?_ ‹_› | split

theorem State.xcheck_good {s : State} (ch : Nat) (rawNow : Bool) (hg : Good may s₀ s) (k_chans : may .chans) :
    Good may s₀ (State.xcheck s ch rawNow) := by
  unfold State.xcheck
  with_reducible repeat' first
      | assumption | apply State.put_good | apply State.bump_good | apply State.chFault_good | apply State.setChan_good | refine Good.ite ?_ ?_
      | (extract_lets +onlyGivenNames lt; refine (show Good may s₀ lt → _ from fun hlt => ?_) ?_; (on_goal 1 => clear_value lt); on_goal 2 => subst lt)
      | (extract_lets +onlyGivenNames lt; refine (show Good may s₀ lt.1 → _ from fun hlt => ?_) ?_; (on_goal 1 => clear_value lt); on_goal 2 => subst lt)
      | (extract_lets +onlyGivenNames lt; clear_value lt) | split

theorem State.xchecks_good {s : State} (src : Nat) (raws : BitVec 16) (p0 : List Nat) (hg : Good may s₀ s) (k_chans : may .chans) :
    Good may s₀ (State.xchecks s src raws p0) := by
  induction p0 generalizing s src raws with
  | nil => unfold State.xchecks; with_reducible repeat' first | assumption | apply State.xcheck_good | refine Good.ite ?_ ?_ | split
  | cons hd tl ih => unfold State.xchecks; with_reducible repeat' first
      | assumption | apply ih | apply State.xcheck_good | refine Good.ite ?_ ?_ | split

theorem State.pulseVerdict_good {s : State} (ch : Nat) (high : Bool) (raws : BitVec 16) (hg : Good may s₀ s) (k_chans : may .chans) :
    Good may s₀ (State.pulseVerdict s ch high raws) := by
  unfold State.pulseVerdict
  with_reducible repeat' first
      | assumption | apply State.bump_good | apply State.putB_good | apply State.chFault_good | apply State.setChan_good | apply State.xchecks_good
      | refine Good.ite ?_ ?_
      | (extract_lets +onlyGivenNames lt; refine (show Good may s₀ lt → _ from fun hlt => ?_) ?_; (on_goal 1 => clear_value lt); on_goal 2 => subst lt)
      | (extract_lets +onlyGivenNames lt; refine (show Good may s₀ lt.1 → _ from fun hlt => ?_) ?_; (on_goal 1 => clear_value lt); on_goal 2 => subst lt)
      | (extract_lets +onlyGivenNames lt; clear_value lt) | refine Good.of_pair ?_ ‹_› | split

theorem State.pulseEnd_good {s : State} (ch : Nat) (hg : Good may s₀ s) (k_chans : may .chans) :
    Good may s₀ (State.pulseEnd s ch) := by
  unfold State.pulseEnd
  with_reducible repeat' first
      | assumption | apply State.setChan_good | apply State.showDO_good | refine Good.ite ?_ ?_
      | (extract_lets +onlyGivenNames lt; refine (show Good may s₀ lt → _ from fun hlt => ?_) ?_; (on_goal 1 => clear_value lt); on_goal 2 => subst lt)
      | (extract_lets +onlyGivenNames lt; clear_value lt) | split

theorem State.tripAll_good {s : State} (w : BitVec 16) (p0 : List Nat) (hg : Good may s₀ s) (k_chans : may .chans) :
    Good may s₀ (State.tripAll s w p0) := by
  induction p0 generalizing s w with
  | nil => unfold State.tripAll; with_reducible repeat' first
      | assumption | apply State.putB_good | apply State.showDO_good | apply State.killPulse_good | refine Good.ite ?_ ?_
      | (extract_lets +onlyGivenNames lt; refine (show Good may s₀ lt → _ from fun hlt => ?_) ?_; (on_goal 1 => clear_value lt); on_goal 2 => subst lt)
      | (extract_lets +onlyGivenNames lt; refine (show Good may s₀ lt.1 → _ from fun hlt => ?_) ?_; (on_goal 1 => clear_value lt); on_goal 2 => subst lt)
      | (extract_lets +onlyGivenNames lt; clear_value lt) | split
  | cons hd tl ih => unfold State.tripAll; with_reducible repeat' first
      | assumption | apply ih | apply State.putB_good | apply State.showDO_good | apply State.killPulse_good | refine Good.ite ?_ ?_
      | (extract_lets +onlyGivenNames lt; refine (show Good may s₀ lt → _ from fun hlt => ?_) ?_; (on_goal 1 => clear_value lt); on_goal 2 => subst lt)
      | (extract_lets +onlyGivenNames lt; refine (show Good may s₀ lt.1 → _ from fun hlt => ?_) ?_; (on_goal 1 => clear_value lt); on_goal 2 => subst lt)
      | (extract_lets +onlyGivenNames lt; clear_value lt) | split

theorem State.tripWord_good {s : State} (b : Nat) (w : BitVec 16) (c : BitVec 16) (seq : Nat) (hg : Good may s₀ s)
    (k_chans : may .chans) (k_banks : may .banks) :
    Good may s₀ (State.tripWord s b w c seq) := by
  unfold State.tripWord
  with_reducible repeat' first
      | assumption | apply State.put_good | apply State.bump_good | apply State.setBank_good | apply State.tripAll_good | refine Good.ite ?_ ?_
      | (extract_lets +onlyGivenNames lt; refine (show Good may s₀ lt → _ from fun hlt => ?_) ?_; (on_goal 1 => clear_value lt); on_goal 2 => subst lt)
      | (extract_lets +onlyGivenNames lt; refine (show Good may s₀ lt.1 → _ from fun hlt => ?_) ?_; (on_goal 1 => clear_value lt); on_goal 2 => subst lt)
      | (extract_lets +onlyGivenNames lt; clear_value lt) | split

theorem State.tripLoss_good {s : State} (b : Nat) (hg : Good may s₀ s) (k_chans : may .chans) :
    Good may s₀ (State.tripLoss s b) := by
  unfold State.tripLoss
  with_reducible repeat' first | assumption | apply State.put_good | apply State.tripAll_good | refine Good.ite ?_ ?_ | split

theorem State.pollAll_good {s : State} (p0 : List Nat) (hg : Good may s₀ s) (k_chans : may .chans) :
    Good may s₀ (State.pollAll s p0) := by
  induction p0 generalizing s with
  | nil => unfold State.pollAll; with_reducible repeat' first
      | assumption | apply State.setChan_good | refine Good.ite ?_ ?_
      | (extract_lets +onlyGivenNames lt; refine (show Good may s₀ lt → _ from fun hlt => ?_) ?_; (on_goal 1 => clear_value lt); on_goal 2 => subst lt)
      | (extract_lets +onlyGivenNames lt; refine (show Good may s₀ lt.1 → _ from fun hlt => ?_) ?_; (on_goal 1 => clear_value lt); on_goal 2 => subst lt)
      | (extract_lets +onlyGivenNames lt; clear_value lt) | split
  | cons hd tl ih => unfold State.pollAll; with_reducible repeat' first
      | assumption | apply ih | apply State.setChan_good | refine Good.ite ?_ ?_
      | (extract_lets +onlyGivenNames lt; refine (show Good may s₀ lt → _ from fun hlt => ?_) ?_; (on_goal 1 => clear_value lt); on_goal 2 => subst lt)
      | (extract_lets +onlyGivenNames lt; refine (show Good may s₀ lt.1 → _ from fun hlt => ?_) ?_; (on_goal 1 => clear_value lt); on_goal 2 => subst lt)
      | (extract_lets +onlyGivenNames lt; clear_value lt) | split

end Sys2Proof.Machine
end

