-- ==== Sys2Proof/Laws/KeepCan.lean ====
section
/-! SUPPORT. What every operation keeps (`Good`), operation by operation: the sequencers and the planner. -/

set_option linter.all false

namespace Sys2Proof.Machine

variable {may : Part → Prop} {s₀ : State}

/-! ### SeqOps -/

theorem State.triggerErr_good {s : State} (q : Nat) (bit : Nat) (task : Nat) (station : Option Nat) (wait : List Nat)
    (hg : Good may s₀ s) (k_seqs : may .seqs) :
    Good may s₀ (State.triggerErr s q bit task station wait) := by
  unfold State.triggerErr
  with_reducible repeat' first
      | assumption | apply State.setSeq_good | refine Good.ite ?_ ?_
      | (extract_lets +onlyGivenNames lt; refine (show Good may s₀ lt → _ from fun hlt => ?_) ?_; (on_goal 1 => clear_value lt); on_goal 2 => subst lt)
      | (extract_lets +onlyGivenNames lt; refine (show Good may s₀ lt.1 → _ from fun hlt => ?_) ?_; (on_goal 1 => clear_value lt); on_goal 2 => subst lt)
      | (extract_lets +onlyGivenNames lt; clear_value lt) | split

theorem State.holdLate_good {s : State} (q : Nat) (t : Nat) (hg : Good may s₀ s) (k_sig : may .sig) :
    Good may s₀ (State.holdLate s q t) := by
  unfold State.holdLate
  with_reducible repeat' first | assumption | apply State.lateSlots_good | refine Good.ite ?_ ?_ | split

theorem State.preemptOthers_good {s : State} (q : Nat) (keep : Option Nat) (p0 : List Nat) (hg : Good may s₀ s) :
    Good may s₀ (State.preemptOthers s q keep p0) := by
  induction p0 generalizing s q keep with
  | nil => unfold State.preemptOthers; with_reducible repeat' first | assumption | apply State.setTaskSt_good | refine Good.ite ?_ ?_ | split
  | cons hd tl ih => unfold State.preemptOthers; with_reducible repeat' first
      | assumption | apply ih | apply State.setTaskSt_good | refine Good.ite ?_ ?_ | split

theorem State.dispatch_good {s : State} (q : Nat) (hg : Good may s₀ s) :
    Good may s₀ (State.dispatch s q) := by
  unfold State.dispatch
  with_reducible repeat' first
      | assumption | apply State.put_good | apply State.setTaskSt_good | apply State.preemptOthers_good | refine Good.ite ?_ ?_
      | (extract_lets +onlyGivenNames lt; refine (show Good may s₀ lt → _ from fun hlt => ?_) ?_; (on_goal 1 => clear_value lt); on_goal 2 => subst lt)
      | (extract_lets +onlyGivenNames lt; refine (show Good may s₀ lt.1 → _ from fun hlt => ?_) ?_; (on_goal 1 => clear_value lt); on_goal 2 => subst lt)
      | (extract_lets +onlyGivenNames lt; clear_value lt) | refine Good.of_pair ?_ ‹_› | split

theorem State.dropCycle_good {s : State} (q : Nat) (t : Nat) (hg : Good may s₀ s) (k_seqs : may .seqs) :
    Good may s₀ (State.dropCycle s q t) := by
  unfold State.dropCycle
  with_reducible repeat' first
      | assumption | apply State.setSeq_good | apply State.setTask_good | refine Good.ite ?_ ?_
      | (extract_lets +onlyGivenNames lt; refine (show Good may s₀ lt → _ from fun hlt => ?_) ?_; (on_goal 1 => clear_value lt); on_goal 2 => subst lt)
      | (extract_lets +onlyGivenNames lt; refine (show Good may s₀ lt.1 → _ from fun hlt => ?_) ?_; (on_goal 1 => clear_value lt); on_goal 2 => subst lt)
      | (extract_lets +onlyGivenNames lt; clear_value lt) | split

theorem State.startFail_good {s : State} (q : Nat) (hg : Good may s₀ s) (k_seqs : may .seqs) :
    Good may s₀ (State.startFail s q) := by
  unfold State.startFail
  with_reducible repeat' first
      | assumption | apply State.setSeq_good | refine Good.ite ?_ ?_
      | (extract_lets +onlyGivenNames lt; refine (show Good may s₀ lt → _ from fun hlt => ?_) ?_; (on_goal 1 => clear_value lt); on_goal 2 => subst lt)
      | (extract_lets +onlyGivenNames lt; clear_value lt) | split

theorem State.taskFault_good {s : State} (q : Nat) (t : Nat) (cause : Nat) (hg : Good may s₀ s) (k_sig : may .sig)
    (k_seqs : may .seqs) (k_gnt : may .gnt) :
    Good may s₀ (State.taskFault s q t cause) := by
  unfold State.taskFault
  with_reducible repeat' first
      | assumption | apply State.put_good | apply State.bump_good | apply State.setTaskSt_good | apply State.dispatch_good | apply State.setSeq_good
      | apply State.dropCycle_good | apply State.holdLate_good | apply State.startFail_good | apply State.triggerErr_good | apply State.voteFault_good
      | refine Good.ite ?_ ?_
      | (extract_lets +onlyGivenNames lt; refine (show Good may s₀ lt → _ from fun hlt => ?_) ?_; (on_goal 1 => clear_value lt); on_goal 2 => subst lt)
      | (extract_lets +onlyGivenNames lt; refine (show Good may s₀ lt.1 → _ from fun hlt => ?_) ?_; (on_goal 1 => clear_value lt); on_goal 2 => subst lt)
      | (extract_lets +onlyGivenNames lt; clear_value lt) | split

theorem State.taskAbort_good {s : State} (q : Nat) (t : Nat) (hg : Good may s₀ s) (k_sig : may .sig) (k_seqs : may .seqs) :
    Good may s₀ (State.taskAbort s q t) := by
  unfold State.taskAbort
  with_reducible repeat' first
      | assumption | apply State.setTaskSt_good | apply State.dispatch_good | apply State.setTask_good | apply State.dropCycle_good
      | apply State.holdLate_good | apply State.startFail_good | refine Good.ite ?_ ?_
      | (extract_lets +onlyGivenNames lt; refine (show Good may s₀ lt → _ from fun hlt => ?_) ?_; (on_goal 1 => clear_value lt); on_goal 2 => subst lt)
      | (extract_lets +onlyGivenNames lt; refine (show Good may s₀ lt.1 → _ from fun hlt => ?_) ?_; (on_goal 1 => clear_value lt); on_goal 2 => subst lt)
      | (extract_lets +onlyGivenNames lt; clear_value lt) | split

theorem State.abortTasks_good {s : State} (q : Nat) (p0 : List Nat) (hg : Good may s₀ s) (k_sig : may .sig) (k_seqs : may .seqs) :
    Good may s₀ (State.abortTasks s q p0) := by
  induction p0 generalizing s q with
  | nil => unfold State.abortTasks; with_reducible repeat' first | assumption | apply State.taskAbort_good | refine Good.ite ?_ ?_ | split
  | cons hd tl ih => unfold State.abortTasks; with_reducible repeat' first
      | assumption | apply ih | apply State.taskAbort_good | refine Good.ite ?_ ?_ | split

theorem State.overrun_good {s : State} (q : Nat) (t : Nat) (hg : Good may s₀ s) (k_sig : may .sig) (k_seqs : may .seqs) (k_gnt : may .gnt) :
    Good may s₀ (State.overrun s q t) := by
  unfold State.overrun
  with_reducible repeat' first
      | assumption | apply State.put_good | apply State.bump_good | apply State.setTask_good | apply State.holdLate_good | apply State.triggerErr_good
      | apply State.taskFault_good | refine Good.ite ?_ ?_
      | (extract_lets +onlyGivenNames lt; refine (show Good may s₀ lt → _ from fun hlt => ?_) ?_; (on_goal 1 => clear_value lt); on_goal 2 => subst lt)
      | (extract_lets +onlyGivenNames lt; refine (show Good may s₀ lt.1 → _ from fun hlt => ?_) ?_; (on_goal 1 => clear_value lt); on_goal 2 => subst lt)
      | (extract_lets +onlyGivenNames lt; clear_value lt) | split

theorem State.cycleBoundary_good {s : State} (q : Nat) (t : Nat) (hg : Good may s₀ s) (k_sig : may .sig) (k_seqs : may .seqs) (k_gnt : may .gnt) :
    Good may s₀ (State.cycleBoundary s q t) := by
  unfold State.cycleBoundary
  with_reducible repeat' first
      | assumption | apply State.put_good | apply State.setTask_good | apply State.overrun_good | refine Good.ite ?_ ?_
      | (extract_lets +onlyGivenNames lt; refine (show Good may s₀ lt → _ from fun hlt => ?_) ?_; (on_goal 1 => clear_value lt); on_goal 2 => subst lt)
      | (extract_lets +onlyGivenNames lt; refine (show Good may s₀ lt.1 → _ from fun hlt => ?_) ?_; (on_goal 1 => clear_value lt); on_goal 2 => subst lt)
      | (extract_lets +onlyGivenNames lt; clear_value lt) | split

theorem State.freeze_good {s : State} (q : Nat) (t : Nat) (hg : Good may s₀ s) (k_freshCtr : may .freshCtr) (k_seqs : may .seqs) :
    Good may s₀ (State.freeze s q t) := by
  unfold State.freeze
  with_reducible repeat' first
      | assumption | apply State.setTaskSt_good | apply State.setTask_good | apply State.free_good | refine Good.ite ?_ ?_
      | (extract_lets +onlyGivenNames lt; refine (show Good may s₀ lt → _ from fun hlt => ?_) ?_; (on_goal 1 => clear_value lt); on_goal 2 => subst lt)
      | (extract_lets +onlyGivenNames lt; refine (show Good may s₀ lt.1 → _ from fun hlt => ?_) ?_; (on_goal 1 => clear_value lt); on_goal 2 => subst lt)
      | (extract_lets +onlyGivenNames lt; clear_value lt) | refine Good.of_pair ?_ ‹_› | split

theorem State.freezeAll_good {s : State} (q : Nat) (p0 : List Nat) (hg : Good may s₀ s) (k_freshCtr : may .freshCtr) (k_seqs : may .seqs) :
    Good may s₀ (State.freezeAll s q p0) := by
  induction p0 generalizing s q with
  | nil => unfold State.freezeAll; with_reducible repeat' first | assumption | apply State.freeze_good | refine Good.ite ?_ ?_ | split
  | cons hd tl ih => unfold State.freezeAll; with_reducible repeat' first
      | assumption | apply ih | apply State.freeze_good | refine Good.ite ?_ ?_ | split

theorem State.errTake_good {s : State} (q : Nat) (hg : Good may s₀ s) (k_seqs : may .seqs) :
    Good may s₀ (State.errTake s q) := by
  unfold State.errTake
  with_reducible repeat' first
      | assumption | apply State.wr_good | apply State.setSeq_good | apply State.setTask_good | refine Good.ite ?_ ?_
      | (extract_lets +onlyGivenNames lt; refine (show Good may s₀ lt → _ from fun hlt => ?_) ?_; (on_goal 1 => clear_value lt); on_goal 2 => subst lt)
      | (extract_lets +onlyGivenNames lt; refine (show Good may s₀ lt.1 → _ from fun hlt => ?_) ?_; (on_goal 1 => clear_value lt); on_goal 2 => subst lt)
      | (extract_lets +onlyGivenNames lt; clear_value lt) | split

theorem State.seqSnapshot_good {s : State} (q : Nat) (hg : Good may s₀ s) (k_freshCtr : may .freshCtr) (k_seqs : may .seqs) :
    Good may s₀ (State.seqSnapshot s q) := by
  unfold State.seqSnapshot
  with_reducible repeat' first
      | assumption | apply State.dispatch_good | apply State.setSeq_good | apply State.setTask_good | apply State.errTake_good
      | apply State.freeze_good | apply State.freezeAll_good | refine Good.ite ?_ ?_
      | (extract_lets +onlyGivenNames lt; refine (show Good may s₀ lt → _ from fun hlt => ?_) ?_; (on_goal 1 => clear_value lt); on_goal 2 => subst lt)
      | (extract_lets +onlyGivenNames lt; refine (show Good may s₀ lt.1 → _ from fun hlt => ?_) ?_; (on_goal 1 => clear_value lt); on_goal 2 => subst lt)
      | (extract_lets +onlyGivenNames lt; clear_value lt) | split

theorem State.seqSnapshots_good {s : State} (p0 : List Nat) (hg : Good may s₀ s) (k_freshCtr : may .freshCtr) (k_seqs : may .seqs) :
    Good may s₀ (State.seqSnapshots s p0) := by
  induction p0 generalizing s with
  | nil => unfold State.seqSnapshots; with_reducible repeat' first | assumption | apply State.seqSnapshot_good | refine Good.ite ?_ ?_ | split
  | cons hd tl ih => unfold State.seqSnapshots; with_reducible repeat' first
      | assumption | apply ih | apply State.seqSnapshot_good | refine Good.ite ?_ ?_ | split

theorem State.armTasks_good {s : State} (q : Nat) (p0 : List Nat) (hg : Good may s₀ s) :
    Good may s₀ (State.armTasks s q p0) := by
  induction p0 generalizing s q with
  | nil => unfold State.armTasks; with_reducible repeat' first
      | assumption | apply State.put_good | apply State.setTaskSt_good | refine Good.ite ?_ ?_
      | (extract_lets +onlyGivenNames lt; refine (show Good may s₀ lt → _ from fun hlt => ?_) ?_; (on_goal 1 => clear_value lt); on_goal 2 => subst lt)
      | (extract_lets +onlyGivenNames lt; refine (show Good may s₀ lt.1 → _ from fun hlt => ?_) ?_; (on_goal 1 => clear_value lt); on_goal 2 => subst lt)
      | (extract_lets +onlyGivenNames lt; clear_value lt) | split
  | cons hd tl ih => unfold State.armTasks; with_reducible repeat' first
      | assumption | apply ih | apply State.put_good | apply State.setTaskSt_good | refine Good.ite ?_ ?_
      | (extract_lets +onlyGivenNames lt; refine (show Good may s₀ lt → _ from fun hlt => ?_) ?_; (on_goal 1 => clear_value lt); on_goal 2 => subst lt)
      | (extract_lets +onlyGivenNames lt; refine (show Good may s₀ lt.1 → _ from fun hlt => ?_) ?_; (on_goal 1 => clear_value lt); on_goal 2 => subst lt)
      | (extract_lets +onlyGivenNames lt; clear_value lt) | split

theorem State.schedStart_good {s : State} (q : Nat) (takeover : Bool) (hg : Good may s₀ s) (k_seqs : may .seqs) :
    Good may s₀ (State.schedStart s q takeover) := by
  unfold State.schedStart
  with_reducible repeat' first
      | assumption | apply State.put_good | apply State.setSeq_good | apply State.triggerErr_good | apply State.armTasks_good | refine Good.ite ?_ ?_
      | (extract_lets +onlyGivenNames lt; refine (show Good may s₀ lt → _ from fun hlt => ?_) ?_; (on_goal 1 => clear_value lt); on_goal 2 => subst lt)
      | (extract_lets +onlyGivenNames lt; refine (show Good may s₀ lt.1 → _ from fun hlt => ?_) ?_; (on_goal 1 => clear_value lt); on_goal 2 => subst lt)
      | (extract_lets +onlyGivenNames lt; clear_value lt) | split

theorem State.schedStop_good {s : State} (q : Nat) (hg : Good may s₀ s) (k_sig : may .sig) (k_seqs : may .seqs) :
    Good may s₀ (State.schedStop s q) := by
  unfold State.schedStop
  with_reducible repeat' first
      | assumption | apply State.put_good | apply State.abortTasks_good | refine Good.ite ?_ ?_
      | (extract_lets +onlyGivenNames lt; refine (show Good may s₀ lt → _ from fun hlt => ?_) ?_; (on_goal 1 => clear_value lt); on_goal 2 => subst lt)
      | (extract_lets +onlyGivenNames lt; refine (show Good may s₀ lt.1 → _ from fun hlt => ?_) ?_; (on_goal 1 => clear_value lt); on_goal 2 => subst lt)
      | (extract_lets +onlyGivenNames lt; clear_value lt) | split

theorem State.schedStarts_good {s : State} (takeover : Bool) (p0 : List Nat) (hg : Good may s₀ s) (k_seqs : may .seqs) :
    Good may s₀ (State.schedStarts s takeover p0) := by
  induction p0 generalizing s takeover with
  | nil => unfold State.schedStarts; with_reducible repeat' first | assumption | apply State.schedStart_good | refine Good.ite ?_ ?_ | split
  | cons hd tl ih => unfold State.schedStarts; with_reducible repeat' first
      | assumption | apply ih | apply State.schedStart_good | refine Good.ite ?_ ?_ | split

theorem State.schedStops_good {s : State} (p0 : List Nat) (hg : Good may s₀ s) (k_sig : may .sig) (k_seqs : may .seqs) :
    Good may s₀ (State.schedStops s p0) := by
  induction p0 generalizing s with
  | nil => unfold State.schedStops; with_reducible repeat' first | assumption | apply State.schedStop_good | refine Good.ite ?_ ?_ | split
  | cons hd tl ih => unfold State.schedStops; with_reducible repeat' first
      | assumption | apply ih | apply State.schedStop_good | refine Good.ite ?_ ?_ | split

theorem State.il_good {s : State} (q : Nat) (f : State → Nat → IlResult) (hf : ∀ t, GoodIl may s₀ (f s t))
    (hg : Good may s₀ s) (k_sig : may .sig) (k_seqs : may .seqs) (k_gnt : may .gnt) : Good may s₀ (State.il s q f) := by
  unfold State.il
  split
  · exact hg
  · next t _ =>
    have h := hf t
    split
    · apply State.taskFault_good <;> assumption
    · next e =>
      rw [e] at h
      refine Good.ite ?_ ?_
      · apply State.setTask_good <;> assumption
      · apply State.taskFault_good <;> assumption
    · next e =>
      rw [e] at h
      refine Good.ite ?_ ?_
      · apply State.setTask_good <;> assumption
      · apply State.taskFault_good <;> assumption

theorem State.setAcc_good {s : State} (q : Nat) (t : Nat) (x : Bool) (hg : Good may s₀ s) (k_seqs : may .seqs) :
    Good may s₀ (State.setAcc s q t x) := by
  unfold State.setAcc
  with_reducible repeat' first
      | assumption | apply State.setTask_good | refine Good.ite ?_ ?_
      | (extract_lets +onlyGivenNames lt; refine (show Good may s₀ lt → _ from fun hlt => ?_) ?_; (on_goal 1 => clear_value lt); on_goal 2 => subst lt)
      | (extract_lets +onlyGivenNames lt; clear_value lt) | split

theorem ilCombine_good {s : State} (q : Nat) (o : BitVec 24) (g : Bool → Bool → Bool) (t : Nat) (hg : Good may s₀ s) (k_seqs : may .seqs) :
    GoodIl may s₀ (ilCombine q o g s t) := by
  unfold ilCombine
  with_reducible repeat' first
      | assumption | apply State.setAcc_good | refine Good.ite ?_ ?_ | exact GoodIl.fault | apply GoodIl.next | apply GoodIl.jump
      | refine GoodIl.ite ?_ ?_
      | (extract_lets +onlyGivenNames lt; refine (show Good may s₀ lt → _ from fun hlt => ?_) ?_; (on_goal 1 => clear_value lt); on_goal 2 => subst lt)
      | (extract_lets +onlyGivenNames lt; clear_value lt) | refine Good.of_pair ?_ ‹_› | split

theorem ilStore_good {s : State} (q : Nat) (o : BitVec 24) (g : Bool → Option Bool) (t : Nat) (hg : Good may s₀ s) (k_seqs : may .seqs) :
    GoodIl may s₀ (ilStore q o g s t) := by
  unfold ilStore
  with_reducible repeat' first
      | assumption | apply State.writeBit_good | refine Good.ite ?_ ?_ | exact GoodIl.fault | apply GoodIl.next | apply GoodIl.jump
      | refine GoodIl.ite ?_ ?_
      | (extract_lets +onlyGivenNames lt; refine (show Good may s₀ lt → _ from fun hlt => ?_) ?_; (on_goal 1 => clear_value lt); on_goal 2 => subst lt)
      | (extract_lets +onlyGivenNames lt; refine (show Good may s₀ lt.1 → _ from fun hlt => ?_) ?_; (on_goal 1 => clear_value lt); on_goal 2 => subst lt)
      | (extract_lets +onlyGivenNames lt; clear_value lt) | refine Good.of_pair ?_ ‹_› | split

theorem State.push_good {s u : State} (q t : Nat) (k : SKind) (hg : Good may s₀ s) (h : s.push q t k = some u)
    (k_seqs : may .seqs) : Good may s₀ u := by
  unfold State.push at h
  dsimp only at h
  split at h
  · cases h
  · cases h; exact State.setTask_good _ _ _ hg k_seqs

theorem ilParen_good {s : State} (q : Nat) (o : BitVec 24) (k : SKind) (g : Bool → Bool) (t : Nat)
    (hg : Good may s₀ s) (k_seqs : may .seqs) : GoodIl may s₀ (ilParen q o k g s t) := by
  unfold ilParen
  split
  · trivial
  · split
    · trivial
    · next e =>
      refine GoodIl.next ?_
      apply State.setAcc_good _ _ _ (State.push_good _ _ _ hg e k_seqs) <;> assumption

theorem ilClose_good {s : State} (q : Nat) (t : Nat) (hg : Good may s₀ s) (k_seqs : may .seqs) :
    GoodIl may s₀ (ilClose q s t) := by
  unfold ilClose
  with_reducible repeat' first
      | assumption | apply State.setTask_good | refine Good.ite ?_ ?_ | exact GoodIl.fault | apply GoodIl.next | apply GoodIl.jump
      | refine GoodIl.ite ?_ ?_
      | (extract_lets +onlyGivenNames lt; refine (show Good may s₀ lt → _ from fun hlt => ?_) ?_; (on_goal 1 => clear_value lt); on_goal 2 => subst lt)
      | (extract_lets +onlyGivenNames lt; refine (show Good may s₀ lt.1 → _ from fun hlt => ?_) ?_; (on_goal 1 => clear_value lt); on_goal 2 => subst lt)
      | (extract_lets +onlyGivenNames lt; clear_value lt) | refine Good.of_pair ?_ ‹_› | split

theorem ilTop_good {s : State} (q : Nat) (pop : Bool) (t : Nat) (hg : Good may s₀ s) (k_seqs : may .seqs) :
    GoodIl may s₀ (ilTop q pop s t) := by
  unfold ilTop
  with_reducible repeat' first
      | assumption | apply State.setTask_good | refine Good.ite ?_ ?_ | exact GoodIl.fault | apply GoodIl.next | apply GoodIl.jump
      | refine GoodIl.ite ?_ ?_
      | (extract_lets +onlyGivenNames lt; refine (show Good may s₀ lt → _ from fun hlt => ?_) ?_; (on_goal 1 => clear_value lt); on_goal 2 => subst lt)
      | (extract_lets +onlyGivenNames lt; refine (show Good may s₀ lt.1 → _ from fun hlt => ?_) ?_; (on_goal 1 => clear_value lt); on_goal 2 => subst lt)
      | (extract_lets +onlyGivenNames lt; clear_value lt) | refine Good.of_pair ?_ ‹_› | split

theorem ilNoOperand_good {s : State} (o : BitVec 24) (f : State → Nat → IlResult) (t : Nat)
    (hf : GoodIl may s₀ (f s t)) : GoodIl may s₀ (ilNoOperand o f s t) := GoodIl.ite trivial hf

theorem ilObject_good {s : State} (o : BitVec 24) (f : Nat → State → Nat → IlResult) (t : Nat)
    (hf : ∀ n, GoodIl may s₀ (f n s t)) : GoodIl may s₀ (ilObject o f s t) := GoodIl.ite trivial (hf _)

theorem ilJump_good {s : State} (q : Nat) (o : BitVec 24) (g : Bool → Bool) (t : Nat) (hg : Good may s₀ s) :
    GoodIl may s₀ (ilJump q o g s t) := by
  unfold ilJump
  with_reducible repeat' first
      | assumption | refine Good.ite ?_ ?_ | exact GoodIl.fault | apply GoodIl.next | apply GoodIl.jump | refine GoodIl.ite ?_ ?_ | split

theorem ilEdge_good {s : State} (q : Nat) (fall : Bool) (n : Nat) (t : Nat) (hg : Good may s₀ s) (k_seqs : may .seqs) :
    GoodIl may s₀ (ilEdge q fall n s t) := by
  unfold ilEdge
  with_reducible repeat' first
      | assumption | apply State.setSeq_good | apply State.setTask_good | refine Good.ite ?_ ?_ | exact GoodIl.fault | apply GoodIl.next
      | apply GoodIl.jump | refine GoodIl.ite ?_ ?_
      | (extract_lets +onlyGivenNames lt; refine (show Good may s₀ lt → _ from fun hlt => ?_) ?_; (on_goal 1 => clear_value lt); on_goal 2 => subst lt)
      | (extract_lets +onlyGivenNames lt; refine (show Good may s₀ lt.1 → _ from fun hlt => ?_) ?_; (on_goal 1 => clear_value lt); on_goal 2 => subst lt)
      | (extract_lets +onlyGivenNames lt; clear_value lt) | refine Good.of_pair ?_ ‹_› | split

theorem ilTimer_good {s : State} (q : Nat) (ty : Nat) (n : Nat) (t : Nat) (hg : Good may s₀ s) (k_seqs : may .seqs) :
    GoodIl may s₀ (ilTimer q ty n s t) := by
  unfold ilTimer
  with_reducible repeat' first
      | assumption | apply State.setSeq_good | apply State.setTask_good | refine Good.ite ?_ ?_ | exact GoodIl.fault | apply GoodIl.next
      | apply GoodIl.jump | refine GoodIl.ite ?_ ?_
      | (extract_lets +onlyGivenNames lt; refine (show Good may s₀ lt → _ from fun hlt => ?_) ?_; (on_goal 1 => clear_value lt); on_goal 2 => subst lt)
      | (extract_lets +onlyGivenNames lt; refine (show Good may s₀ lt.1 → _ from fun hlt => ?_) ?_; (on_goal 1 => clear_value lt); on_goal 2 => subst lt)
      | (extract_lets +onlyGivenNames lt; clear_value lt) | refine Good.of_pair ?_ ‹_› | split

theorem ilCounter_good {s : State} (q : Nat) (op : CtrOp) (n : Nat) (t : Nat) (hg : Good may s₀ s) (k_seqs : may .seqs) :
    GoodIl may s₀ (ilCounter q op n s t) := by
  unfold ilCounter
  with_reducible repeat' first
      | assumption | apply State.setSeq_good | apply State.setTask_good | refine Good.ite ?_ ?_ | exact GoodIl.fault | apply GoodIl.next
      | apply GoodIl.jump | refine GoodIl.ite ?_ ?_
      | (extract_lets +onlyGivenNames lt; refine (show Good may s₀ lt → _ from fun hlt => ?_) ?_; (on_goal 1 => clear_value lt); on_goal 2 => subst lt)
      | (extract_lets +onlyGivenNames lt; refine (show Good may s₀ lt.1 → _ from fun hlt => ?_) ?_; (on_goal 1 => clear_value lt); on_goal 2 => subst lt)
      | (extract_lets +onlyGivenNames lt; clear_value lt) | refine Good.of_pair ?_ ‹_› | split

theorem ilCal_good {s : State} (q : Nat) (o : BitVec 24) (g : Bool → Bool) (t : Nat) (hg : Good may s₀ s)
    (k_freshCtr : may .freshCtr) (k_seqs : may .seqs) :
    GoodIl may s₀ (ilCal q o g s t) := by
  unfold ilCal
  with_reducible repeat' first
      | assumption | apply State.setTaskSt_good | apply State.dispatch_good | apply State.setTask_good | refine Good.ite ?_ ?_ | exact GoodIl.fault
      | apply GoodIl.next | apply GoodIl.jump | refine GoodIl.ite ?_ ?_
      | (extract_lets +onlyGivenNames lt; refine (show Good may s₀ lt → _ from fun hlt => ?_) ?_; (on_goal 1 => clear_value lt); on_goal 2 => subst lt)
      | (extract_lets +onlyGivenNames lt; refine (show Good may s₀ lt.1 → _ from fun hlt => ?_) ?_; (on_goal 1 => clear_value lt); on_goal 2 => subst lt)
      | (extract_lets +onlyGivenNames lt; clear_value lt) | refine Good.of_pair ?_ ‹_› | split
      | (apply Good.u_freshCtr; first | assumption | refine Good.ite ?_ ?_ | refine Good.of_pair ?_ ‹_› | apply State.setTaskSt_good | apply State.dispatch_good | apply State.setTask_good)

theorem State.calGoesOn_good {s : State} (q : Nat) (t : Nat) (hg : Good may s₀ s) (k_sig : may .sig) (k_seqs : may .seqs) (k_gnt : may .gnt) :
    Good may s₀ (State.calGoesOn s q t) := by
  unfold State.calGoesOn
  with_reducible repeat' first | assumption | apply State.taskFault_good | refine Good.ite ?_ ?_ | split

theorem State.calReturn_good {s : State} (q : Nat) (t : Nat) (eno : Bool) (l : List CalResult) (hg : Good may s₀ s)
    (k_sig : may .sig) (k_seqs : may .seqs) (k_gnt : may .gnt) :
    Good may s₀ (State.calReturn s q t eno l) := by
  unfold State.calReturn
  with_reducible repeat' first
      | assumption | apply State.setTaskSt_good | apply State.dispatch_good | apply State.setSeq_good | apply State.setTask_good
      | apply State.taskFault_good | apply State.calGoesOn_good | refine Good.ite ?_ ?_
      | (extract_lets +onlyGivenNames lt; refine (show Good may s₀ lt → _ from fun hlt => ?_) ?_; (on_goal 1 => clear_value lt); on_goal 2 => subst lt)
      | (extract_lets +onlyGivenNames lt; refine (show Good may s₀ lt.1 → _ from fun hlt => ?_) ?_; (on_goal 1 => clear_value lt); on_goal 2 => subst lt)
      | (extract_lets +onlyGivenNames lt; clear_value lt) | refine Good.of_pair ?_ ‹_› | split

theorem State.calFailed_good {s : State} (q : Nat) (t : Nat) (hg : Good may s₀ s) (k_sig : may .sig) (k_seqs : may .seqs) (k_gnt : may .gnt) :
    Good may s₀ (State.calFailed s q t) := by
  unfold State.calFailed
  with_reducible repeat' first
      | assumption | apply State.bump_good | apply State.setTaskSt_good | apply State.dispatch_good | apply State.setTask_good
      | apply State.triggerErr_good | apply State.calGoesOn_good | refine Good.ite ?_ ?_
      | (extract_lets +onlyGivenNames lt; refine (show Good may s₀ lt → _ from fun hlt => ?_) ?_; (on_goal 1 => clear_value lt); on_goal 2 => subst lt)
      | (extract_lets +onlyGivenNames lt; refine (show Good may s₀ lt.1 → _ from fun hlt => ?_) ?_; (on_goal 1 => clear_value lt); on_goal 2 => subst lt)
      | (extract_lets +onlyGivenNames lt; clear_value lt) | split

theorem State.postOuts_good {s : State} (q : Nat) (t : Nat) (p0 : List Nat) (hg : Good may s₀ s) (k_sig : may .sig) :
    Good may s₀ (State.postOuts s q t p0) := by
  induction p0 generalizing s q t with
  | nil => unfold State.postOuts; with_reducible repeat' first | assumption | apply State.post_good | refine Good.ite ?_ ?_ | split
  | cons hd tl ih => unfold State.postOuts; with_reducible repeat' first
      | assumption | apply ih | apply State.post_good | refine Good.ite ?_ ?_ | split

theorem State.taskEnd_good {s : State} (q : Nat) (t : Nat) (hg : Good may s₀ s) (k_sig : may .sig) (k_seqs : may .seqs) :
    Good may s₀ (State.taskEnd s q t) := by
  unfold State.taskEnd
  with_reducible repeat' first
      | assumption | apply State.put_good | apply State.setTaskSt_good | apply State.dispatch_good | apply State.setSeq_good
      | apply State.dropCycle_good | apply State.inc_good | apply State.put64_good | apply State.putSat_good | apply State.postOuts_good
      | refine Good.ite ?_ ?_
      | (extract_lets +onlyGivenNames lt; refine (show Good may s₀ lt → _ from fun hlt => ?_) ?_; (on_goal 1 => clear_value lt); on_goal 2 => subst lt)
      | (extract_lets +onlyGivenNames lt; refine (show Good may s₀ lt.1 → _ from fun hlt => ?_) ?_; (on_goal 1 => clear_value lt); on_goal 2 => subst lt)
      | (extract_lets +onlyGivenNames lt; clear_value lt) | split

theorem State.loadDone_good {s : State} (q : Nat) (l : List Byte) (body : ImageBody) (hg : Good may s₀ s) (k_seqs : may .seqs) :
    Good may s₀ (State.loadDone s q l body) := by
  unfold State.loadDone
  with_reducible repeat' first
      | assumption | apply State.put_good | apply State.setSpare_good | refine Good.ite ?_ ?_
      | (extract_lets +onlyGivenNames lt; refine (show Good may s₀ lt → _ from fun hlt => ?_) ?_; (on_goal 1 => clear_value lt); on_goal 2 => subst lt)
      | (extract_lets +onlyGivenNames lt; refine (show Good may s₀ lt.1 → _ from fun hlt => ?_) ?_; (on_goal 1 => clear_value lt); on_goal 2 => subst lt)
      | (extract_lets +onlyGivenNames lt; clear_value lt) | split

theorem State.claimOuts_good {s : State} (q : Nat) (i : SeqImage) (p0 : List Nat) (hg : Good may s₀ s) (k_sig : may .sig) :
    Good may s₀ (State.claimOuts s q i p0) := by
  induction p0 generalizing s q i with
  | nil => unfold State.claimOuts; with_reducible repeat' first
      | assumption | apply State.claim_good | refine Good.ite ?_ ?_ | (refine Good.foldl (fun _ _ _ => ?_) ?_)
      | (extract_lets +onlyGivenNames lt; refine (show Good may s₀ lt → _ from fun hlt => ?_) ?_; (on_goal 1 => clear_value lt); on_goal 2 => subst lt)
      | (extract_lets +onlyGivenNames lt; refine (show Good may s₀ lt.1 → _ from fun hlt => ?_) ?_; (on_goal 1 => clear_value lt); on_goal 2 => subst lt)
      | (extract_lets +onlyGivenNames lt; clear_value lt) | split
  | cons hd tl ih => unfold State.claimOuts; with_reducible repeat' first
      | assumption | apply ih | apply State.claim_good | refine Good.ite ?_ ?_ | (refine Good.foldl (fun _ _ _ => ?_) ?_)
      | (extract_lets +onlyGivenNames lt; refine (show Good may s₀ lt → _ from fun hlt => ?_) ?_; (on_goal 1 => clear_value lt); on_goal 2 => subst lt)
      | (extract_lets +onlyGivenNames lt; refine (show Good may s₀ lt.1 → _ from fun hlt => ?_) ?_; (on_goal 1 => clear_value lt); on_goal 2 => subst lt)
      | (extract_lets +onlyGivenNames lt; clear_value lt) | split

theorem State.freeSlots_good {s : State} (p0 : List Nat) (hg : Good may s₀ s) (k_sig : may .sig) :
    Good may s₀ (State.freeSlots s p0) := by
  induction p0 generalizing s with
  | nil => unfold State.freeSlots; with_reducible repeat' first | assumption | apply State.freeSlot_good | refine Good.ite ?_ ?_ | split
  | cons hd tl ih => unfold State.freeSlots; with_reducible repeat' first
      | assumption | apply ih | apply State.freeSlot_good | refine Good.ite ?_ ?_ | split

theorem State.showTasks_good {s : State} (q : Nat) (i : SeqImage) (p0 : List Nat) (hg : Good may s₀ s) :
    Good may s₀ (State.showTasks s q i p0) := by
  induction p0 generalizing s q i with
  | nil => unfold State.showTasks; with_reducible repeat' first
      | assumption | apply State.put_good | apply State.putB_good | refine Good.ite ?_ ?_
      | (extract_lets +onlyGivenNames lt; refine (show Good may s₀ lt → _ from fun hlt => ?_) ?_; (on_goal 1 => clear_value lt); on_goal 2 => subst lt)
      | (extract_lets +onlyGivenNames lt; refine (show Good may s₀ lt.1 → _ from fun hlt => ?_) ?_; (on_goal 1 => clear_value lt); on_goal 2 => subst lt)
      | (extract_lets +onlyGivenNames lt; clear_value lt) | split
  | cons hd tl ih => unfold State.showTasks; with_reducible repeat' first
      | assumption | apply ih | apply State.put_good | apply State.putB_good | refine Good.ite ?_ ?_
      | (extract_lets +onlyGivenNames lt; refine (show Good may s₀ lt → _ from fun hlt => ?_) ?_; (on_goal 1 => clear_value lt); on_goal 2 => subst lt)
      | (extract_lets +onlyGivenNames lt; refine (show Good may s₀ lt.1 → _ from fun hlt => ?_) ?_; (on_goal 1 => clear_value lt); on_goal 2 => subst lt)
      | (extract_lets +onlyGivenNames lt; clear_value lt) | split

theorem State.rearm_good {s : State} (q : Nat) (i : SeqImage) (p0 : List Nat) (hg : Good may s₀ s) (k_seqs : may .seqs) :
    Good may s₀ (State.rearm s q i p0) := by
  induction p0 generalizing s q i with
  | nil => unfold State.rearm; with_reducible repeat' first
      | assumption | apply State.setTaskSt_good | apply State.setTask_good | refine Good.ite ?_ ?_
      | (extract_lets +onlyGivenNames lt; refine (show Good may s₀ lt → _ from fun hlt => ?_) ?_; (on_goal 1 => clear_value lt); on_goal 2 => subst lt)
      | (extract_lets +onlyGivenNames lt; refine (show Good may s₀ lt.1 → _ from fun hlt => ?_) ?_; (on_goal 1 => clear_value lt); on_goal 2 => subst lt)
      | (extract_lets +onlyGivenNames lt; clear_value lt) | split
  | cons hd tl ih => unfold State.rearm; with_reducible repeat' first
      | assumption | apply ih | apply State.setTaskSt_good | apply State.setTask_good | refine Good.ite ?_ ?_
      | (extract_lets +onlyGivenNames lt; refine (show Good may s₀ lt → _ from fun hlt => ?_) ?_; (on_goal 1 => clear_value lt); on_goal 2 => subst lt)
      | (extract_lets +onlyGivenNames lt; refine (show Good may s₀ lt.1 → _ from fun hlt => ?_) ?_; (on_goal 1 => clear_value lt); on_goal 2 => subst lt)
      | (extract_lets +onlyGivenNames lt; clear_value lt) | split

theorem State.cancelForce_good {s : State} (q : Nat) (f : Nat) (hg : Good may s₀ s) (k_forces : may .forces) (k_seqs : may .seqs) :
    Good may s₀ (State.cancelForce s q f) := by
  unfold State.cancelForce
  with_reducible repeat' first
      | assumption | apply State.put_good | apply State.bump_good | apply State.triggerErr_good | refine Good.ite ?_ ?_
      | (extract_lets +onlyGivenNames lt; refine (show Good may s₀ lt → _ from fun hlt => ?_) ?_; (on_goal 1 => clear_value lt); on_goal 2 => subst lt)
      | (extract_lets +onlyGivenNames lt; refine (show Good may s₀ lt.1 → _ from fun hlt => ?_) ?_; (on_goal 1 => clear_value lt); on_goal 2 => subst lt)
      | (extract_lets +onlyGivenNames lt; clear_value lt) | split
      | (apply Good.u_forces; first | assumption | refine Good.ite ?_ ?_ | refine Good.of_pair ?_ ‹_› | apply State.put_good | apply State.bump_good | apply State.triggerErr_good)

theorem State.cancelForces_good {s : State} (q : Nat) (p0 : List Nat) (hg : Good may s₀ s) (k_forces : may .forces) (k_seqs : may .seqs) :
    Good may s₀ (State.cancelForces s q p0) := by
  induction p0 generalizing s q with
  | nil => unfold State.cancelForces; with_reducible repeat' first | assumption | apply State.cancelForce_good | refine Good.ite ?_ ?_ | split
  | cons hd tl ih => unfold State.cancelForces; with_reducible repeat' first
      | assumption | apply ih | apply State.cancelForce_good | refine Good.ite ?_ ?_ | split

theorem State.activate_good {s : State} (q : Nat) (online : Bool) (hg : Good may s₀ s) (k_sig : may .sig) (k_forces : may .forces)
    (k_seqs : may .seqs) :
    Good may s₀ (State.activate s q online) := by
  unfold State.activate
  with_reducible repeat' first
      | assumption | apply State.put_good | apply State.setSeq_good | apply State.putB_good | apply State.cancelForces_good
      | apply State.claimOuts_good | apply State.freeSlots_good | apply State.put64_good | apply State.rearm_good | apply State.showTasks_good
      | refine Good.ite ?_ ?_
      | (extract_lets +onlyGivenNames lt; refine (show Good may s₀ lt → _ from fun hlt => ?_) ?_; (on_goal 1 => clear_value lt); on_goal 2 => subst lt)
      | (extract_lets +onlyGivenNames lt; refine (show Good may s₀ lt.1 → _ from fun hlt => ?_) ?_; (on_goal 1 => clear_value lt); on_goal 2 => subst lt)
      | (extract_lets +onlyGivenNames lt; clear_value lt) | refine Good.of_pair ?_ ‹_› | split

theorem State.shiftSeqs_good {s : State} (d : BitVec 64) (hg : Good may s₀ s) (k_seqs : may .seqs) :
    Good may s₀ (State.shiftSeqs s d) := by
  unfold State.shiftSeqs
  with_reducible repeat' first
      | assumption | refine Good.ite ?_ ?_
      | (extract_lets +onlyGivenNames lt; refine (show Good may s₀ lt → _ from fun hlt => ?_) ?_; (on_goal 1 => clear_value lt); on_goal 2 => subst lt)
      | (extract_lets +onlyGivenNames lt; clear_value lt) | split
      | (apply Good.u_seqs; first | assumption | refine Good.ite ?_ ?_ | refine Good.of_pair ?_ ‹_›)

/-! ### MplOps -/

theorem State.setMon_good {s : State} (m : Nat) (v : Mon) (hg : Good may s₀ s) (k_mpl : may .mpl) :
    Good may s₀ (State.setMon s m v) := by
  unfold State.setMon
  with_reducible repeat' first
      | assumption | refine Good.ite ?_ ?_
      | (extract_lets +onlyGivenNames lt; refine (show Good may s₀ lt → _ from fun hlt => ?_) ?_; (on_goal 1 => clear_value lt); on_goal 2 => subst lt)
      | (extract_lets +onlyGivenNames lt; clear_value lt) | split
      | (apply Good.u_mpl; first | assumption | refine Good.ite ?_ ?_ | refine Good.of_pair ?_ ‹_›)

theorem State.setFailed_good {s : State} (m : Nat) (b : Bool) (hg : Good may s₀ s) (k_mpl : may .mpl) :
    Good may s₀ (State.setFailed s m b) := by
  unfold State.setFailed
  with_reducible repeat' first
      | assumption | refine Good.ite ?_ ?_
      | (extract_lets +onlyGivenNames lt; refine (show Good may s₀ lt → _ from fun hlt => ?_) ?_; (on_goal 1 => clear_value lt); on_goal 2 => subst lt)
      | (extract_lets +onlyGivenNames lt; refine (show Good may s₀ lt.1 → _ from fun hlt => ?_) ?_; (on_goal 1 => clear_value lt); on_goal 2 => subst lt)
      | (extract_lets +onlyGivenNames lt; clear_value lt) | split
      | (apply Good.u_mpl; first | assumption | refine Good.ite ?_ ?_ | refine Good.of_pair ?_ ‹_›)

theorem State.replan_good {s : State} (low : Option Int) (d : Nat) (hg : Good may s₀ s) (k_mpl : may .mpl) :
    Good may s₀ (State.replan s low d) := by
  unfold State.replan
  with_reducible repeat' first
      | assumption | apply State.put_good | apply State.bump_good | apply State.putBit_good | apply State.setFailed_good | refine Good.ite ?_ ?_
      | (extract_lets +onlyGivenNames lt; refine (show Good may s₀ lt → _ from fun hlt => ?_) ?_; (on_goal 1 => clear_value lt); on_goal 2 => subst lt)
      | (extract_lets +onlyGivenNames lt; refine (show Good may s₀ lt.1 → _ from fun hlt => ?_) ?_; (on_goal 1 => clear_value lt); on_goal 2 => subst lt)
      | (extract_lets +onlyGivenNames lt; clear_value lt) | split
      | (apply Good.u_mpl; first | assumption | refine Good.ite ?_ ?_ | refine Good.of_pair ?_ ‹_› | apply State.put_good | apply State.bump_good | apply State.putBit_good | apply State.setFailed_good)

theorem State.replanAll_good {s : State} (hg : Good may s₀ s) (k_mpl : may .mpl) :
    Good may s₀ (State.replanAll s) := by
  unfold State.replanAll
  with_reducible repeat' first | assumption | apply State.replan_good | refine Good.ite ?_ ?_ | (refine Good.foldl (fun _ _ _ => ?_) ?_) | split

theorem State.gradeApply_good {s : State} (d : Nat) (hg : Good may s₀ s) (k_mpl : may .mpl) :
    Good may s₀ (State.gradeApply s d) := by
  unfold State.gradeApply
  with_reducible repeat' first
      | assumption | apply State.put_good | apply State.bump_good | apply State.putBit_good | refine Good.ite ?_ ?_
      | (extract_lets +onlyGivenNames lt; refine (show Good may s₀ lt → _ from fun hlt => ?_) ?_; (on_goal 1 => clear_value lt); on_goal 2 => subst lt)
      | (extract_lets +onlyGivenNames lt; refine (show Good may s₀ lt.1 → _ from fun hlt => ?_) ?_; (on_goal 1 => clear_value lt); on_goal 2 => subst lt)
      | (extract_lets +onlyGivenNames lt; clear_value lt) | split
      | (apply Good.u_mpl; first | assumption | refine Good.ite ?_ ?_ | refine Good.of_pair ?_ ‹_› | apply State.put_good | apply State.bump_good | apply State.putBit_good)

theorem State.gradeRetry_good {s : State} (d : Nat) (hg : Good may s₀ s) (k_tku : may .tku) (k_mpl : may .mpl) :
    Good may s₀ (State.gradeRetry s d) := by
  unfold State.gradeRetry
  with_reducible repeat' first
      | assumption | apply State.untilMono_good | apply State.putBit_good | refine Good.ite ?_ ?_
      | (extract_lets +onlyGivenNames lt; refine (show Good may s₀ lt → _ from fun hlt => ?_) ?_; (on_goal 1 => clear_value lt); on_goal 2 => subst lt)
      | (extract_lets +onlyGivenNames lt; refine (show Good may s₀ lt.1 → _ from fun hlt => ?_) ?_; (on_goal 1 => clear_value lt); on_goal 2 => subst lt)
      | (extract_lets +onlyGivenNames lt; clear_value lt) | refine Good.of_pair ?_ ‹_› | split
      | (apply Good.u_mpl; first | assumption | refine Good.ite ?_ ?_ | refine Good.of_pair ?_ ‹_› | apply State.untilMono_good | apply State.putBit_good)

theorem State.pfPick_good {s : State} (c : Nat) (hg : Good may s₀ s) (k_freshCtr : may .freshCtr) :
    Good may s₀ (State.pfPick s c).1 := by
  unfold State.pfPick
  with_reducible repeat' first
      | assumption | apply State.free_good | refine Good.ite ?_ ?_ | refine Good.ite1 ?_ ?_
      | (extract_lets +onlyGivenNames lt; refine (show Good may s₀ lt → _ from fun hlt => ?_) ?_; (on_goal 1 => clear_value lt); on_goal 2 => subst lt)
      | (extract_lets +onlyGivenNames lt; clear_value lt) | refine Good.of_pair ?_ ‹_› | split

theorem State.capResult_good {s : State} (c : Nat) (hg : Good may s₀ s) (k_freshCtr : may .freshCtr) (k_mpl : may .mpl) :
    Good may s₀ (State.capResult s c) := by
  unfold State.capResult
  with_reducible repeat' first
      | assumption | apply State.put_good | apply State.putSat_good | apply State.pfPick_good | refine Good.ite ?_ ?_
      | (extract_lets +onlyGivenNames lt; refine (show Good may s₀ lt → _ from fun hlt => ?_) ?_; (on_goal 1 => clear_value lt); on_goal 2 => subst lt)
      | (extract_lets +onlyGivenNames lt; refine (show Good may s₀ lt.1 → _ from fun hlt => ?_) ?_; (on_goal 1 => clear_value lt); on_goal 2 => subst lt)
      | (extract_lets +onlyGivenNames lt; clear_value lt) | refine Good.of_pair ?_ ‹_› | split
      | (apply Good.u_mpl; first | assumption | refine Good.ite ?_ ?_ | refine Good.of_pair ?_ ‹_› | apply State.put_good | apply State.putSat_good | apply State.pfPick_good)

theorem State.capPfwClear_good {s : State} (hg : Good may s₀ s) (k_mpl : may .mpl) :
    Good may s₀ (State.capPfwClear s) := by
  unfold State.capPfwClear
  with_reducible repeat' first
      | assumption | apply State.put_good | refine Good.ite ?_ ?_
      | (extract_lets +onlyGivenNames lt; refine (show Good may s₀ lt → _ from fun hlt => ?_) ?_; (on_goal 1 => clear_value lt); on_goal 2 => subst lt)
      | (extract_lets +onlyGivenNames lt; clear_value lt) | refine Good.of_pair ?_ ‹_› | split
      | (apply Good.u_mpl; first | assumption | refine Good.ite ?_ ?_ | refine Good.of_pair ?_ ‹_› | apply State.put_good)

theorem State.capAbandon_good {s : State} (hg : Good may s₀ s) :
    Good may s₀ (State.capAbandon s) := by
  unfold State.capAbandon
  with_reducible repeat' first | assumption | apply State.put_good | apply State.bump_good | refine Good.ite ?_ ?_ | split

theorem State.monTake_good {s : State} (m : Nat) (v : Int) (hg : Good may s₀ s) (k_mpl : may .mpl) :
    Good may s₀ (State.monTake s m v) := by
  unfold State.monTake
  with_reducible repeat' first
      | assumption | apply State.put_good | apply State.replan_good | apply State.setMon_good | refine Good.ite ?_ ?_
      | (extract_lets +onlyGivenNames lt; refine (show Good may s₀ lt → _ from fun hlt => ?_) ?_; (on_goal 1 => clear_value lt); on_goal 2 => subst lt)
      | (extract_lets +onlyGivenNames lt; refine (show Good may s₀ lt.1 → _ from fun hlt => ?_) ?_; (on_goal 1 => clear_value lt); on_goal 2 => subst lt)
      | (extract_lets +onlyGivenNames lt; clear_value lt) | refine Good.of_pair ?_ ‹_› | split

theorem State.trioTake_good {s : State} (m : Nat) (a : Int) (b : Int) (c : Int) (hg : Good may s₀ s) (k_mpl : may .mpl) :
    Good may s₀ (State.trioTake s m a b c) := by
  unfold State.trioTake
  with_reducible repeat' first
      | assumption | apply State.put_good | apply State.putB_good | apply State.setFailed_good | apply State.monTake_good | refine Good.ite ?_ ?_
      | (extract_lets +onlyGivenNames lt; refine (show Good may s₀ lt → _ from fun hlt => ?_) ?_; (on_goal 1 => clear_value lt); on_goal 2 => subst lt)
      | (extract_lets +onlyGivenNames lt; refine (show Good may s₀ lt.1 → _ from fun hlt => ?_) ?_; (on_goal 1 => clear_value lt); on_goal 2 => subst lt)
      | (extract_lets +onlyGivenNames lt; clear_value lt) | refine Good.of_pair ?_ ‹_› | split

theorem State.expose_good {s : State} (m : Nat) (t : Int) (hg : Good may s₀ s) (k_mpl : may .mpl) :
    Good may s₀ (State.expose s m t) := by
  unfold State.expose
  with_reducible repeat' first
      | assumption | apply State.setMon_good | apply State.monTake_good | refine Good.ite ?_ ?_
      | (extract_lets +onlyGivenNames lt; refine (show Good may s₀ lt → _ from fun hlt => ?_) ?_; (on_goal 1 => clear_value lt); on_goal 2 => subst lt)
      | (extract_lets +onlyGivenNames lt; refine (show Good may s₀ lt.1 → _ from fun hlt => ?_) ?_; (on_goal 1 => clear_value lt); on_goal 2 => subst lt)
      | (extract_lets +onlyGivenNames lt; clear_value lt) | split

theorem State.readMon_good {s : State} (m : Nat) (v : Int) (refs : List Int) (hg : Good may s₀ s) (k_freshCtr : may .freshCtr) (k_mpl : may .mpl) :
    Good may s₀ (State.readMon s m v refs) := by
  unfold State.readMon
  with_reducible repeat' first
      | assumption | apply State.putSat_good | apply State.capResult_good | apply State.monTake_good | apply State.expose_good
      | apply State.trioTake_good | refine Good.ite ?_ ?_ | split

theorem State.measureMon_good {s : State} (m : Nat) (v : Int) (refs : List Int) (hg : Good may s₀ s) (k_freshCtr : may .freshCtr)
    (k_tku : may .tku) (k_mpl : may .mpl) :
    Good may s₀ (State.measureMon s m v refs) := by
  unfold State.measureMon
  with_reducible repeat' first
      | assumption | apply State.untilMono_good | apply State.setMon_good | apply State.readMon_good | refine Good.ite ?_ ?_
      | (extract_lets +onlyGivenNames lt; refine (show Good may s₀ lt → _ from fun hlt => ?_) ?_; (on_goal 1 => clear_value lt); on_goal 2 => subst lt)
      | (extract_lets +onlyGivenNames lt; refine (show Good may s₀ lt.1 → _ from fun hlt => ?_) ?_; (on_goal 1 => clear_value lt); on_goal 2 => subst lt)
      | (extract_lets +onlyGivenNames lt; clear_value lt) | refine Good.of_pair ?_ ‹_› | split

theorem State.capDone_good {s : State} (c : Nat) (hg : Good may s₀ s) (k_freshCtr : may .freshCtr) (k_tku : may .tku) (k_mpl : may .mpl) :
    Good may s₀ (State.capDone s c) := by
  unfold State.capDone
  with_reducible repeat' first
      | assumption | apply State.put_good | apply State.untilMono_good | apply State.capResult_good | apply State.monTake_good | refine Good.ite ?_ ?_
      | split

theorem State.recalibrate_good {s : State} (b : Nat) (med : Int) (hg : Good may s₀ s) (k_tku : may .tku) (k_mpl : may .mpl) :
    Good may s₀ (State.recalibrate s b med) := by
  unfold State.recalibrate
  with_reducible repeat' first
      | assumption | apply State.put_good | apply State.untilMono_good | refine Good.ite ?_ ?_
      | (extract_lets +onlyGivenNames lt; refine (show Good may s₀ lt → _ from fun hlt => ?_) ?_; (on_goal 1 => clear_value lt); on_goal 2 => subst lt)
      | (extract_lets +onlyGivenNames lt; refine (show Good may s₀ lt.1 → _ from fun hlt => ?_) ?_; (on_goal 1 => clear_value lt); on_goal 2 => subst lt)
      | (extract_lets +onlyGivenNames lt; clear_value lt) | refine Good.of_pair ?_ ‹_› | split
      | (apply Good.u_mpl; first | assumption | refine Good.ite ?_ ?_ | refine Good.of_pair ?_ ‹_› | apply State.put_good | apply State.untilMono_good)

theorem State.mplStart_good {s : State} (hg : Good may s₀ s) (k_mpl : may .mpl) :
    Good may s₀ (State.mplStart s) := by
  unfold State.mplStart
  with_reducible repeat' first
      | assumption | apply State.put_good | refine Good.ite ?_ ?_
      | (extract_lets +onlyGivenNames lt; refine (show Good may s₀ lt → _ from fun hlt => ?_) ?_; (on_goal 1 => clear_value lt); on_goal 2 => subst lt)
      | (extract_lets +onlyGivenNames lt; clear_value lt) | split
      | (apply Good.u_mpl; first | assumption | refine Good.ite ?_ ?_ | refine Good.of_pair ?_ ‹_› | apply State.put_good)

theorem State.learnMeans_good {s : State} (p0 : List Nat) (hg : Good may s₀ s) (k_mpl : may .mpl) :
    Good may s₀ (State.learnMeans s p0) := by
  induction p0 generalizing s with
  | nil => unfold State.learnMeans; with_reducible repeat' first
      | assumption | apply State.put_good | apply State.setMon_good | refine Good.ite ?_ ?_
      | (extract_lets +onlyGivenNames lt; refine (show Good may s₀ lt → _ from fun hlt => ?_) ?_; (on_goal 1 => clear_value lt); on_goal 2 => subst lt)
      | (extract_lets +onlyGivenNames lt; refine (show Good may s₀ lt.1 → _ from fun hlt => ?_) ?_; (on_goal 1 => clear_value lt); on_goal 2 => subst lt)
      | (extract_lets +onlyGivenNames lt; clear_value lt) | split
  | cons hd tl ih => unfold State.learnMeans; with_reducible repeat' first
      | assumption | apply ih | apply State.put_good | apply State.setMon_good | refine Good.ite ?_ ?_
      | (extract_lets +onlyGivenNames lt; refine (show Good may s₀ lt → _ from fun hlt => ?_) ?_; (on_goal 1 => clear_value lt); on_goal 2 => subst lt)
      | (extract_lets +onlyGivenNames lt; refine (show Good may s₀ lt.1 → _ from fun hlt => ?_) ?_; (on_goal 1 => clear_value lt); on_goal 2 => subst lt)
      | (extract_lets +onlyGivenNames lt; clear_value lt) | split

theorem State.learnEnd_good {s : State} (hg : Good may s₀ s) (k_tku : may .tku) (k_mpl : may .mpl) :
    Good may s₀ (State.learnEnd s) := by
  unfold State.learnEnd
  with_reducible repeat' first
      | assumption | apply State.put_good | apply State.untilMono_good | apply State.learnMeans_good | refine Good.ite ?_ ?_
      | (extract_lets +onlyGivenNames lt; refine (show Good may s₀ lt → _ from fun hlt => ?_) ?_; (on_goal 1 => clear_value lt); on_goal 2 => subst lt)
      | (extract_lets +onlyGivenNames lt; refine (show Good may s₀ lt.1 → _ from fun hlt => ?_) ?_; (on_goal 1 => clear_value lt); on_goal 2 => subst lt)
      | (extract_lets +onlyGivenNames lt; clear_value lt) | refine Good.of_pair ?_ ‹_› | split

theorem State.monDay_good {s : State} (m : Nat) (hg : Good may s₀ s) (k_mpl : may .mpl) :
    Good may s₀ (State.monDay s m) := by
  unfold State.monDay
  with_reducible repeat' first
      | assumption | apply State.setMon_good | refine Good.ite ?_ ?_
      | (extract_lets +onlyGivenNames lt; refine (show Good may s₀ lt → _ from fun hlt => ?_) ?_; (on_goal 1 => clear_value lt); on_goal 2 => subst lt)
      | (extract_lets +onlyGivenNames lt; refine (show Good may s₀ lt.1 → _ from fun hlt => ?_) ?_; (on_goal 1 => clear_value lt); on_goal 2 => subst lt)
      | (extract_lets +onlyGivenNames lt; clear_value lt) | refine Good.of_pair ?_ ‹_› | split

theorem State.mplDay_good {s : State} (hg : Good may s₀ s) (k_mpl : may .mpl) :
    Good may s₀ (State.mplDay s) := by
  unfold State.mplDay
  with_reducible repeat' first
      | assumption | apply State.replanAll_good | apply State.monDay_good | refine Good.ite ?_ ?_ | (refine Good.foldl (fun _ _ _ => ?_) ?_)
      | (extract_lets +onlyGivenNames lt; refine (show Good may s₀ lt → _ from fun hlt => ?_) ?_; (on_goal 1 => clear_value lt); on_goal 2 => subst lt)
      | (extract_lets +onlyGivenNames lt; refine (show Good may s₀ lt.1 → _ from fun hlt => ?_) ?_; (on_goal 1 => clear_value lt); on_goal 2 => subst lt)
      | (extract_lets +onlyGivenNames lt; clear_value lt) | split
      | (apply Good.u_mpl; first | assumption | refine Good.ite ?_ ?_ | refine Good.of_pair ?_ ‹_› | apply State.replanAll_good | apply State.monDay_good)

theorem State.mplCmd_good {s : State} (v : Nat) (m : Nat) (hg : Good may s₀ s) (k_mpl : may .mpl) :
    Good may s₀ (State.mplCmd s v m) := by
  unfold State.mplCmd
  with_reducible repeat' first
      | assumption | apply State.put_good | apply State.lost_good | apply State.badAccess_good | apply State.capAbandon_good
      | apply State.replanAll_good | refine Good.ite ?_ ?_
      | (extract_lets +onlyGivenNames lt; refine (show Good may s₀ lt → _ from fun hlt => ?_) ?_; (on_goal 1 => clear_value lt); on_goal 2 => subst lt)
      | (extract_lets +onlyGivenNames lt; refine (show Good may s₀ lt.1 → _ from fun hlt => ?_) ?_; (on_goal 1 => clear_value lt); on_goal 2 => subst lt)
      | (extract_lets +onlyGivenNames lt; clear_value lt) | split
      | (apply Good.u_mpl; first | assumption | refine Good.ite ?_ ?_ | refine Good.of_pair ?_ ‹_› | apply State.put_good | apply State.lost_good | apply State.badAccess_good | apply State.capAbandon_good | apply State.replanAll_good)

end Sys2Proof.Machine
end

