-- ==== Sys2Proof/Laws/KeepStation.lean ====
section
/-! SUPPORT. What every operation keeps (`Good`), operation by operation: Cascade's solver, the CAN controllers and station redundancy. -/

set_option linter.all false

namespace Sys2Proof.Machine

variable {may : Part → Prop} {s₀ : State}

/-! ### CasSolve -/

theorem State.putVec'_good {s : State} (k : Nat) (i : Nat) (l : List Int) (hg : Good may s₀ s) (k_mem : may .mem) :
    Good may s₀ (State.putVec' s k i l) := by
  unfold State.putVec'
  with_reducible repeat' first | assumption | apply State.putVecI_good | refine Good.ite ?_ ?_ | split

theorem State.casBreach_good {s : State} (k : Nat) (cls : Nat) (idx : Nat) (hg : Good may s₀ s) (k_cas : may .cas) :
    Good may s₀ (State.casBreach s k cls idx) := by
  unfold State.casBreach
  with_reducible repeat' first
      | assumption | apply State.put_good | apply State.setCas_good | apply State.bump_good | refine Good.ite ?_ ?_
      | (extract_lets +onlyGivenNames lt; refine (show Good may s₀ lt → _ from fun hlt => ?_) ?_; (on_goal 1 => clear_value lt); on_goal 2 => subst lt)
      | (extract_lets +onlyGivenNames lt; refine (show Good may s₀ lt.1 → _ from fun hlt => ?_) ?_; (on_goal 1 => clear_value lt); on_goal 2 => subst lt)
      | (extract_lets +onlyGivenNames lt; clear_value lt) | split

theorem State.breaches_good {s : State} (k : Nat) (cls : Nat) (l : List Res) (hg : Good may s₀ s) (k_cas : may .cas) :
    Good may s₀ (State.breaches s k cls l) := by
  unfold State.breaches
  with_reducible repeat' first
      | assumption | apply State.casBreach_good | refine Good.ite ?_ ?_ | (refine Good.foldl (fun _ _ _ => ?_) ?_)
      | (extract_lets +onlyGivenNames lt; refine (show Good may s₀ lt → _ from fun hlt => ?_) ?_; (on_goal 1 => clear_value lt); on_goal 2 => subst lt)
      | (extract_lets +onlyGivenNames lt; refine (show Good may s₀ lt.1 → _ from fun hlt => ?_) ?_; (on_goal 1 => clear_value lt); on_goal 2 => subst lt)
      | (extract_lets +onlyGivenNames lt; clear_value lt) | split

theorem State.sumBreach_good {s : State} (k : Nat) (l : List Int) (hg : Good may s₀ s) (k_cas : may .cas) :
    Good may s₀ (State.sumBreach s k l) := by
  unfold State.sumBreach
  with_reducible repeat' first | assumption | apply State.casBreach_good | refine Good.ite ?_ ?_ | split

theorem State.noteSat_good {s : State} (k : Nat) (l : List Res) (hg : Good may s₀ s) (k_cas : may .cas) :
    Good may s₀ (State.noteSat s k l) := by
  unfold State.noteSat
  with_reducible repeat' first
      | assumption | apply State.setCas_good | refine Good.ite ?_ ?_
      | (extract_lets +onlyGivenNames lt; refine (show Good may s₀ lt → _ from fun hlt => ?_) ?_; (on_goal 1 => clear_value lt); on_goal 2 => subst lt)
      | (extract_lets +onlyGivenNames lt; refine (show Good may s₀ lt.1 → _ from fun hlt => ?_) ?_; (on_goal 1 => clear_value lt); on_goal 2 => subst lt)
      | (extract_lets +onlyGivenNames lt; clear_value lt) | split

theorem State.applyPrecond_good {s : State} (k : Nat) (r : List Int) (hg : Good may s₀ s) (k_mem : may .mem) (k_cas : may .cas) :
    Good may s₀ (State.applyPrecond s k r).1 := by
  unfold State.applyPrecond
  with_reducible repeat' first
      | assumption | apply State.breaches_good | apply State.putVec'_good | refine Good.ite ?_ ?_ | refine Good.ite1 ?_ ?_
      | (extract_lets +onlyGivenNames lt; refine (show Good may s₀ lt → _ from fun hlt => ?_) ?_; (on_goal 1 => clear_value lt); on_goal 2 => subst lt)
      | (extract_lets +onlyGivenNames lt; refine (show Good may s₀ lt.1 → _ from fun hlt => ?_) ?_; (on_goal 1 => clear_value lt); on_goal 2 => subst lt)
      | (extract_lets +onlyGivenNames lt; clear_value lt) | split

theorem State.activateFactor_good {s : State} (k : Nat) (hg : Good may s₀ s) (k_cas : may .cas) :
    Good may s₀ (State.activateFactor s k) := by
  unfold State.activateFactor
  with_reducible repeat' first
      | assumption | apply State.put_good | apply State.setCas_good | apply State.putB_good | refine Good.ite ?_ ?_
      | (extract_lets +onlyGivenNames lt; refine (show Good may s₀ lt → _ from fun hlt => ?_) ?_; (on_goal 1 => clear_value lt); on_goal 2 => subst lt)
      | (extract_lets +onlyGivenNames lt; refine (show Good may s₀ lt.1 → _ from fun hlt => ?_) ?_; (on_goal 1 => clear_value lt); on_goal 2 => subst lt)
      | (extract_lets +onlyGivenNames lt; clear_value lt) | split

theorem State.casStart_good {s : State} (k : Nat) (hg : Good may s₀ s) (k_mem : may .mem) (k_cas : may .cas) :
    Good may s₀ (State.casStart s k) := by
  unfold State.casStart
  with_reducible repeat' first
      | assumption | apply State.put_good | apply State.setCasSt_good | apply State.setCas_good | apply State.bump_good
      | apply State.activateFactor_good | apply State.putVec'_good | apply State.takeBatches_good | refine Good.ite ?_ ?_
      | (extract_lets +onlyGivenNames lt; refine (show Good may s₀ lt → _ from fun hlt => ?_) ?_; (on_goal 1 => clear_value lt); on_goal 2 => subst lt)
      | (extract_lets +onlyGivenNames lt; refine (show Good may s₀ lt.1 → _ from fun hlt => ?_) ?_; (on_goal 1 => clear_value lt); on_goal 2 => subst lt)
      | (extract_lets +onlyGivenNames lt; clear_value lt) | refine Good.of_pair ?_ ‹_› | split

theorem State.casStarts_good {s : State} (p0 : List Nat) (hg : Good may s₀ s) (k_mem : may .mem) (k_cas : may .cas) :
    Good may s₀ (State.casStarts s p0) := by
  induction p0 generalizing s with
  | nil => unfold State.casStarts; with_reducible repeat' first | assumption | apply State.casStart_good | refine Good.ite ?_ ?_ | split
  | cons hd tl ih => unfold State.casStarts; with_reducible repeat' first
      | assumption | apply ih | apply State.casStart_good | refine Good.ite ?_ ?_ | split

theorem State.casSnapshot_good {s : State} (hg : Good may s₀ s) (k_mem : may .mem) (k_cas : may .cas) :
    Good may s₀ (State.casSnapshot s) := by
  unfold State.casSnapshot
  with_reducible repeat' first | assumption | apply State.casStarts_good | refine Good.ite ?_ ?_ | split

theorem State.setPhase_good {s : State} (k : Nat) (ph : Nat) (hg : Good may s₀ s) (k_cas : may .cas) :
    Good may s₀ (State.setPhase s k ph) := by
  unfold State.setPhase
  with_reducible repeat' first
      | assumption | apply State.setCas_good | refine Good.ite ?_ ?_
      | (extract_lets +onlyGivenNames lt; refine (show Good may s₀ lt → _ from fun hlt => ?_) ?_; (on_goal 1 => clear_value lt); on_goal 2 => subst lt)
      | (extract_lets +onlyGivenNames lt; clear_value lt) | split

theorem State.endOuter_good {s : State} (k : Nat) (hg : Good may s₀ s) (k_mem : may .mem) (k_cas : may .cas) :
    Good may s₀ (State.endOuter s k) := by
  unfold State.endOuter
  with_reducible repeat' first
      | assumption | apply State.setCas_good | apply State.breaches_good | apply State.putVec'_good | apply State.noteSat_good
      | apply State.setPhase_good | refine Good.ite ?_ ?_
      | (extract_lets +onlyGivenNames lt; refine (show Good may s₀ lt → _ from fun hlt => ?_) ?_; (on_goal 1 => clear_value lt); on_goal 2 => subst lt)
      | (extract_lets +onlyGivenNames lt; refine (show Good may s₀ lt.1 → _ from fun hlt => ?_) ?_; (on_goal 1 => clear_value lt); on_goal 2 => subst lt)
      | (extract_lets +onlyGivenNames lt; clear_value lt) | split

theorem State.truncate_good {s : State} (k : Nat) (partial' : Bool) (hg : Good may s₀ s) (k_mem : may .mem) (k_cas : may .cas) :
    Good may s₀ (State.truncate s k partial') := by
  unfold State.truncate
  with_reducible repeat' first
      | assumption | apply State.setCas_good | apply State.setPhase_good | apply State.endOuter_good | refine Good.ite ?_ ?_
      | (extract_lets +onlyGivenNames lt; refine (show Good may s₀ lt → _ from fun hlt => ?_) ?_; (on_goal 1 => clear_value lt); on_goal 2 => subst lt)
      | (extract_lets +onlyGivenNames lt; refine (show Good may s₀ lt.1 → _ from fun hlt => ?_) ?_; (on_goal 1 => clear_value lt); on_goal 2 => subst lt)
      | (extract_lets +onlyGivenNames lt; clear_value lt) | split

theorem State.outerCheck_good {s : State} (k : Nat) (hg : Good may s₀ s) (k_mem : may .mem) (k_cas : may .cas) :
    Good may s₀ (State.outerCheck s k) := by
  unfold State.outerCheck
  with_reducible repeat' first
      | assumption | apply State.put_good | apply State.setCasSt_good | apply State.setCas_good | apply State.setPhase_good
      | apply State.truncate_good | refine Good.ite ?_ ?_
      | (extract_lets +onlyGivenNames lt; refine (show Good may s₀ lt → _ from fun hlt => ?_) ?_; (on_goal 1 => clear_value lt); on_goal 2 => subst lt)
      | (extract_lets +onlyGivenNames lt; refine (show Good may s₀ lt.1 → _ from fun hlt => ?_) ?_; (on_goal 1 => clear_value lt); on_goal 2 => subst lt)
      | (extract_lets +onlyGivenNames lt; clear_value lt) | split

theorem State.preamble_good {s : State} (k : Nat) (hg : Good may s₀ s) (k_mem : may .mem) (k_cas : may .cas) :
    Good may s₀ (State.preamble s k) := by
  unfold State.preamble
  with_reducible repeat' first
      | assumption | apply State.wr_good | apply State.setCas_good | apply State.breaches_good | apply State.putVecI_good | apply State.putVec'_good
      | apply State.applyPrecond_good | apply State.sumBreach_good | refine Good.ite ?_ ?_
      | (extract_lets +onlyGivenNames lt; refine (show Good may s₀ lt → _ from fun hlt => ?_) ?_; (on_goal 1 => clear_value lt); on_goal 2 => subst lt)
      | (extract_lets +onlyGivenNames lt; refine (show Good may s₀ lt.1 → _ from fun hlt => ?_) ?_; (on_goal 1 => clear_value lt); on_goal 2 => subst lt)
      | (extract_lets +onlyGivenNames lt; clear_value lt) | refine Good.of_pair ?_ ‹_› | split

theorem State.innerStep_good {s : State} (k : Nat) (hg : Good may s₀ s) (k_mem : may .mem) (k_cas : may .cas) :
    Good may s₀ (State.innerStep s k) := by
  unfold State.innerStep
  with_reducible repeat' first
      | assumption | apply State.setCas_good | apply State.bump_good | apply State.breaches_good | apply State.putVec'_good
      | apply State.applyPrecond_good | apply State.noteSat_good | apply State.endOuter_good | apply State.sumBreach_good | refine Good.ite ?_ ?_
      | (extract_lets +onlyGivenNames lt; refine (show Good may s₀ lt → _ from fun hlt => ?_) ?_; (on_goal 1 => clear_value lt); on_goal 2 => subst lt)
      | (extract_lets +onlyGivenNames lt; refine (show Good may s₀ lt.1 → _ from fun hlt => ?_) ?_; (on_goal 1 => clear_value lt); on_goal 2 => subst lt)
      | (extract_lets +onlyGivenNames lt; clear_value lt) | refine Good.of_pair ?_ ‹_› | split

theorem State.innerUnit_good {s : State} (k : Nat) (hg : Good may s₀ s) (k_mem : may .mem) (k_cas : may .cas) :
    Good may s₀ (State.innerUnit s k) := by
  unfold State.innerUnit
  with_reducible repeat' first | assumption | apply State.innerStep_good | apply State.truncate_good | refine Good.ite ?_ ?_ | split

theorem State.postSolution_good {s : State} (k : Nat) (age : Nat) (valid : Bool) (p0 : List (Nat × Word × Bool))
    (hg : Good may s₀ s) (k_sig : may .sig) :
    Good may s₀ (State.postSolution s k age valid p0) := by
  induction p0 generalizing s k age valid with
  | nil => unfold State.postSolution; with_reducible repeat' first | assumption | apply State.post_good | refine Good.ite ?_ ?_ | split
  | cons hd tl ih => unfold State.postSolution; with_reducible repeat' first
      | assumption | apply ih | apply State.post_good | refine Good.ite ?_ ?_ | split

theorem State.casCode_good {s : State} (k : Nat) (code : Nat) (hg : Good may s₀ s) :
    Good may s₀ (State.casCode s k code) := by
  unfold State.casCode
  with_reducible repeat' first | assumption | apply State.bump_good | refine Good.ite ?_ ?_ | split

theorem State.casReq_good {s : State} (k : Nat) (hg : Good may s₀ s) (k_cas : may .cas) :
    Good may s₀ (State.casReq s k) := by
  unfold State.casReq
  with_reducible repeat' first
      | assumption | apply State.setCas_good | refine Good.ite ?_ ?_
      | (extract_lets +onlyGivenNames lt; refine (show Good may s₀ lt → _ from fun hlt => ?_) ?_; (on_goal 1 => clear_value lt); on_goal 2 => subst lt)
      | (extract_lets +onlyGivenNames lt; clear_value lt) | split

theorem State.casEvery_good {s : State} (k : Nat) (hg : Good may s₀ s) (k_cas : may .cas) :
    Good may s₀ (State.casEvery s k) := by
  unfold State.casEvery
  with_reducible repeat' first
      | assumption | apply State.setCas_good | apply State.casReq_good | refine Good.ite ?_ ?_
      | (extract_lets +onlyGivenNames lt; refine (show Good may s₀ lt → _ from fun hlt => ?_) ?_; (on_goal 1 => clear_value lt); on_goal 2 => subst lt)
      | (extract_lets +onlyGivenNames lt; refine (show Good may s₀ lt.1 → _ from fun hlt => ?_) ?_; (on_goal 1 => clear_value lt); on_goal 2 => subst lt)
      | (extract_lets +onlyGivenNames lt; clear_value lt) | split

theorem State.casPost_good {s : State} (k : Nat) (hg : Good may s₀ s) (k_mem : may .mem) (k_sig : may .sig) (k_cas : may .cas) :
    Good may s₀ (State.casPost s k) := by
  unfold State.casPost
  with_reducible repeat' first
      | assumption | apply State.put_good | apply State.setCasSt_good | apply State.casFreed_good | apply State.setCas_good | apply State.post_good
      | apply State.inc_good | apply State.casBreach_good | apply State.putVec'_good | apply State.putSat_good | apply State.casCode_good
      | apply State.casEvery_good | apply State.postSolution_good | refine Good.ite ?_ ?_ | (refine Good.foldl (fun _ _ _ => ?_) ?_)
      | (extract_lets +onlyGivenNames lt; refine (show Good may s₀ lt → _ from fun hlt => ?_) ?_; (on_goal 1 => clear_value lt); on_goal 2 => subst lt)
      | (extract_lets +onlyGivenNames lt; refine (show Good may s₀ lt.1 → _ from fun hlt => ?_) ?_; (on_goal 1 => clear_value lt); on_goal 2 => subst lt)
      | (extract_lets +onlyGivenNames lt; clear_value lt) | split

theorem State.casUnit_good {s : State} (k : Nat) (ns : Nat) (hg : Good may s₀ s) (k_mem : may .mem) (k_sig : may .sig)
    (k_tku : may .tku) (k_cas : may .cas) (k_casBusy : may .casBusy) :
    Good may s₀ (State.casUnit s k ns).1 := by
  unfold State.casUnit
  with_reducible repeat' first
      | assumption | apply State.untilMono_good | apply State.casPost_good | apply State.setPhase_good | apply State.innerStep_good
      | apply State.truncate_good | apply State.outerCheck_good | apply State.preamble_good | refine Good.ite ?_ ?_ | refine Good.ite1 ?_ ?_
      | (extract_lets +onlyGivenNames lt; refine (show Good may s₀ lt → _ from fun hlt => ?_) ?_; (on_goal 1 => clear_value lt); on_goal 2 => subst lt)
      | (extract_lets +onlyGivenNames lt; refine (show Good may s₀ lt.1 → _ from fun hlt => ?_) ?_; (on_goal 1 => clear_value lt); on_goal 2 => subst lt)
      | (extract_lets +onlyGivenNames lt; clear_value lt) | split
      | (apply Good.u_casBusy; first | assumption | refine Good.ite ?_ ?_ | refine Good.of_pair ?_ ‹_› | apply State.untilMono_good | apply State.casPost_good | apply State.setPhase_good | apply State.innerStep_good | apply State.truncate_good | apply State.outerCheck_good | apply State.preamble_good)

theorem State.casDispatch_good {s : State} (ns : Nat) (hg : Good may s₀ s) (k_mem : may .mem) (k_sig : may .sig)
    (k_tku : may .tku) (k_cas : may .cas) (k_casBusy : may .casBusy) :
    Good may s₀ (State.casDispatch s ns).1 := by
  unfold State.casDispatch
  with_reducible repeat' first
      | assumption | apply State.casUnit_good | refine Good.ite ?_ ?_ | refine Good.ite1 ?_ ?_
      | (extract_lets +onlyGivenNames lt; refine (show Good may s₀ lt → _ from fun hlt => ?_) ?_; (on_goal 1 => clear_value lt); on_goal 2 => subst lt)
      | (extract_lets +onlyGivenNames lt; refine (show Good may s₀ lt.1 → _ from fun hlt => ?_) ?_; (on_goal 1 => clear_value lt); on_goal 2 => subst lt)
      | (extract_lets +onlyGivenNames lt; clear_value lt) | refine Good.of_pair ?_ ‹_› | split

theorem State.casLinCommit_good {s : State} (k : Nat) (hg : Good may s₀ s) (k_mem : may .mem) (k_cas : may .cas) :
    Good may s₀ (State.casLinCommit s k) := by
  unfold State.casLinCommit
  with_reducible repeat' first
      | assumption | apply State.setCasSt_good | apply State.setPhase_good | apply State.takeBatches_good | refine Good.ite ?_ ?_
      | (extract_lets +onlyGivenNames lt; refine (show Good may s₀ lt → _ from fun hlt => ?_) ?_; (on_goal 1 => clear_value lt); on_goal 2 => subst lt)
      | (extract_lets +onlyGivenNames lt; refine (show Good may s₀ lt.1 → _ from fun hlt => ?_) ?_; (on_goal 1 => clear_value lt); on_goal 2 => subst lt)
      | (extract_lets +onlyGivenNames lt; clear_value lt) | refine Good.of_pair ?_ ‹_› | split

theorem State.casLinTimeout_good {s : State} (k : Nat) (hg : Good may s₀ s) (k_tku : may .tku) (k_cas : may .cas) :
    Good may s₀ (State.casLinTimeout s k) := by
  unfold State.casLinTimeout
  with_reducible repeat' first
      | assumption | apply State.setCasSt_good | apply State.setCas_good | apply State.untilMono_good | refine Good.ite ?_ ?_
      | (extract_lets +onlyGivenNames lt; refine (show Good may s₀ lt → _ from fun hlt => ?_) ?_; (on_goal 1 => clear_value lt); on_goal 2 => subst lt)
      | (extract_lets +onlyGivenNames lt; refine (show Good may s₀ lt.1 → _ from fun hlt => ?_) ?_; (on_goal 1 => clear_value lt); on_goal 2 => subst lt)
      | (extract_lets +onlyGivenNames lt; clear_value lt) | split

theorem State.putHalves_good {s : State} (a : Nat) (p0 : List Int) (hg : Good may s₀ s) (k_mem : may .mem) :
    Good may s₀ (State.putHalves s a p0) := by
  induction p0 generalizing s a with
  | nil => unfold State.putHalves; with_reducible repeat' first | assumption | apply State.setLE_good | refine Good.ite ?_ ?_ | split
  | cons hd tl ih => unfold State.putHalves; with_reducible repeat' first
      | assumption | apply ih | apply State.setLE_good | refine Good.ite ?_ ?_ | split

theorem State.casRefreshStart_good {s : State} (k : Nat) (hg : Good may s₀ s) (k_cas : may .cas) :
    Good may s₀ (State.casRefreshStart s k) := by
  unfold State.casRefreshStart
  with_reducible repeat' first
      | assumption | apply State.put_good | apply State.setCas_good | refine Good.ite ?_ ?_
      | (extract_lets +onlyGivenNames lt; refine (show Good may s₀ lt → _ from fun hlt => ?_) ?_; (on_goal 1 => clear_value lt); on_goal 2 => subst lt)
      | (extract_lets +onlyGivenNames lt; refine (show Good may s₀ lt.1 → _ from fun hlt => ?_) ?_; (on_goal 1 => clear_value lt); on_goal 2 => subst lt)
      | (extract_lets +onlyGivenNames lt; clear_value lt) | split

theorem State.factFail_good {s : State} (k : Nat) (hg : Good may s₀ s) :
    Good may s₀ (State.factFail s k) := by
  unfold State.factFail
  with_reducible repeat' first | assumption | apply State.bump_good | refine Good.ite ?_ ?_ | split

theorem State.factBreach_good {s : State} (k : Nat) (j : Nat) (hg : Good may s₀ s) :
    Good may s₀ (State.factBreach s k j) := by
  unfold State.factBreach
  with_reducible repeat' first
      | assumption | apply State.put_good | apply State.bump_good | apply State.factFail_good | refine Good.ite ?_ ?_
      | (extract_lets +onlyGivenNames lt; refine (show Good may s₀ lt → _ from fun hlt => ?_) ?_; (on_goal 1 => clear_value lt); on_goal 2 => subst lt)
      | (extract_lets +onlyGivenNames lt; refine (show Good may s₀ lt.1 → _ from fun hlt => ?_) ?_; (on_goal 1 => clear_value lt); on_goal 2 => subst lt)
      | (extract_lets +onlyGivenNames lt; clear_value lt) | split

theorem State.casRefreshDone_good {s : State} (k : Nat) (hg : Good may s₀ s) (k_mem : may .mem) (k_freshCtr : may .freshCtr)
    (k_cas : may .cas) (k_casBusy : may .casBusy) :
    Good may s₀ (State.casRefreshDone s k) := by
  unfold State.casRefreshDone
  with_reducible repeat' first
      | assumption | apply State.put_good | apply State.setCas_good | apply State.free_good | apply State.putSat_good | apply State.factFail_good
      | apply State.factBreach_good | apply State.putHalves_good | refine Good.ite ?_ ?_
      | (extract_lets +onlyGivenNames lt; refine (show Good may s₀ lt → _ from fun hlt => ?_) ?_; (on_goal 1 => clear_value lt); on_goal 2 => subst lt)
      | (extract_lets +onlyGivenNames lt; refine (show Good may s₀ lt.1 → _ from fun hlt => ?_) ?_; (on_goal 1 => clear_value lt); on_goal 2 => subst lt)
      | (extract_lets +onlyGivenNames lt; clear_value lt) | refine Good.of_pair ?_ ‹_› | split
      | (apply Good.u_casBusy; first | assumption | refine Good.ite ?_ ?_ | refine Good.of_pair ?_ ‹_› | apply State.put_good | apply State.setCas_good | apply State.free_good | apply State.putSat_good | apply State.factFail_good | apply State.factBreach_good | apply State.putHalves_good)

theorem State.casShift_good {s : State} (d : BitVec 64) (hg : Good may s₀ s) (k_cas : may .cas) :
    Good may s₀ (State.casShift s d) := by
  unfold State.casShift
  with_reducible repeat' first
      | assumption | refine Good.ite ?_ ?_
      | (extract_lets +onlyGivenNames lt; refine (show Good may s₀ lt → _ from fun hlt => ?_) ?_; (on_goal 1 => clear_value lt); on_goal 2 => subst lt)
      | (extract_lets +onlyGivenNames lt; clear_value lt) | split
      | (apply Good.u_cas; first | assumption | refine Good.ite ?_ ?_ | refine Good.of_pair ?_ ‹_›)

theorem State.restoreRecs_good {s : State} (k : Nat) (p0 : List (Word × Word)) (hg : Good may s₀ s) (k_mem : may .mem) :
    Good may s₀ (State.restoreRecs s k p0) := by
  induction p0 generalizing s k with
  | nil => unfold State.restoreRecs; with_reducible repeat' first
      | assumption | apply State.setLE_good | refine Good.ite ?_ ?_
      | (extract_lets +onlyGivenNames lt; refine (show Good may s₀ lt → _ from fun hlt => ?_) ?_; (on_goal 1 => clear_value lt); on_goal 2 => subst lt)
      | (extract_lets +onlyGivenNames lt; clear_value lt) | refine Good.of_pair ?_ ‹_› | split
  | cons hd tl ih => unfold State.restoreRecs; with_reducible repeat' first
      | assumption | apply ih | apply State.setLE_good | refine Good.ite ?_ ?_
      | (extract_lets +onlyGivenNames lt; refine (show Good may s₀ lt → _ from fun hlt => ?_) ?_; (on_goal 1 => clear_value lt); on_goal 2 => subst lt)
      | (extract_lets +onlyGivenNames lt; clear_value lt) | refine Good.of_pair ?_ ‹_› | split

theorem State.casRestore_good {s : State} (k : Nat) (x : List Int) (sig : BitVec 64) (seq : Nat) (posted : Bool) (recs : List
    (Word × Word)) (hg : Good may s₀ s) (k_mem : may .mem) (k_cas : may .cas) :
    Good may s₀ (State.casRestore s k x sig seq posted recs) := by
  unfold State.casRestore
  with_reducible repeat' first
      | assumption | apply State.put_good | apply State.setCas_good | apply State.putVec'_good | apply State.restoreRecs_good | refine Good.ite ?_ ?_
      | (extract_lets +onlyGivenNames lt; refine (show Good may s₀ lt → _ from fun hlt => ?_) ?_; (on_goal 1 => clear_value lt); on_goal 2 => subst lt)
      | (extract_lets +onlyGivenNames lt; refine (show Good may s₀ lt.1 → _ from fun hlt => ?_) ?_; (on_goal 1 => clear_value lt); on_goal 2 => subst lt)
      | (extract_lets +onlyGivenNames lt; clear_value lt) | split

/-! ### CanOps -/

theorem State.canAdvance_good {s : State} (n : Nat) (l : List (Nat × Bool)) (hg : Good may s₀ s) :
    Good may s₀ (s.canAdvance n l) := by
  induction l generalizing s with
  | nil => exact State.setCan_good _ _ hg
  | cons e t ih =>
    obtain ⟨a, b⟩ := e
    cases b
    · exact State.setCan_good _ _ hg
    · exact ih (State.consumeOne_good _ hg)

theorem State.canDone_good {s : State} (n : Nat) (idx : Nat) (status : Nat) (xinfo : Nat) (sof : Option (Nat × Bool))
    (aborted : Bool) (hg : Good may s₀ s) (k_mem : may .mem) :
    Good may s₀ (State.canDone s n idx status xinfo sof aborted) := by
  unfold State.canDone
  with_reducible repeat' first
      | assumption | apply State.putDesc_good | apply State.canAdvance_good | refine Good.ite ?_ ?_
      | (extract_lets +onlyGivenNames lt; refine (show Good may s₀ lt → _ from fun hlt => ?_) ?_; (on_goal 1 => clear_value lt); on_goal 2 => subst lt)
      | (extract_lets +onlyGivenNames lt; refine (show Good may s₀ lt.1 → _ from fun hlt => ?_) ?_; (on_goal 1 => clear_value lt); on_goal 2 => subst lt)
      | (extract_lets +onlyGivenNames lt; clear_value lt) | refine Good.of_pair ?_ ‹_› | split

theorem State.canApplyMode_good {s : State} (n : Nat) (hg : Good may s₀ s) :
    Good may s₀ (State.canApplyMode s n) := by
  unfold State.canApplyMode
  with_reducible repeat' first
      | assumption | apply State.setCan_good | refine Good.ite ?_ ?_
      | (extract_lets +onlyGivenNames lt; refine (show Good may s₀ lt → _ from fun hlt => ?_) ?_; (on_goal 1 => clear_value lt); on_goal 2 => subst lt)
      | (extract_lets +onlyGivenNames lt; refine (show Good may s₀ lt.1 → _ from fun hlt => ?_) ?_; (on_goal 1 => clear_value lt); on_goal 2 => subst lt)
      | (extract_lets +onlyGivenNames lt; clear_value lt) | refine Good.of_pair ?_ ‹_› | split

theorem State.bufDone_good {s : State} (n : Nat) (b : Nat) (status : Nat) (late : Bool) (aborted : Bool) (hg : Good may s₀ s) (k_mem : may .mem) :
    Good may s₀ (State.bufDone s n b status late aborted) := by
  unfold State.bufDone
  with_reducible repeat' first
      | assumption | apply State.setCan_good | apply State.canApplyMode_good | apply State.canDone_good | refine Good.ite ?_ ?_
      | (extract_lets +onlyGivenNames lt; refine (show Good may s₀ lt → _ from fun hlt => ?_) ?_; (on_goal 1 => clear_value lt); on_goal 2 => subst lt)
      | (extract_lets +onlyGivenNames lt; refine (show Good may s₀ lt.1 → _ from fun hlt => ?_) ?_; (on_goal 1 => clear_value lt); on_goal 2 => subst lt)
      | (extract_lets +onlyGivenNames lt; clear_value lt) | refine Good.of_pair ?_ ‹_› | split

theorem State.canFetch_good {s : State} (n : Nat) (hg : Good may s₀ s) (k_mem : may .mem) :
    Good may s₀ (State.canFetch s n) := by
  unfold State.canFetch
  with_reducible repeat' first
      | assumption | apply State.bump_good | apply State.putDesc_good | apply State.setCan_good | apply State.canAdvance_good
      | apply State.canDone_good | refine Good.ite ?_ ?_
      | (extract_lets +onlyGivenNames lt; refine (show Good may s₀ lt → _ from fun hlt => ?_) ?_; (on_goal 1 => clear_value lt); on_goal 2 => subst lt)
      | (extract_lets +onlyGivenNames lt; refine (show Good may s₀ lt.1 → _ from fun hlt => ?_) ?_; (on_goal 1 => clear_value lt); on_goal 2 => subst lt)
      | (extract_lets +onlyGivenNames lt; clear_value lt) | refine Good.of_pair ?_ ‹_› | split

theorem State.loadSse_good {s : State} (n : Nat) (hg : Good may s₀ s) :
    Good may s₀ (State.loadSse s n) := by
  unfold State.loadSse
  with_reducible repeat' first
      | assumption | apply State.setCan_good | refine Good.ite ?_ ?_
      | (extract_lets +onlyGivenNames lt; refine (show Good may s₀ lt → _ from fun hlt => ?_) ?_; (on_goal 1 => clear_value lt); on_goal 2 => subst lt)
      | (extract_lets +onlyGivenNames lt; refine (show Good may s₀ lt.1 → _ from fun hlt => ?_) ?_; (on_goal 1 => clear_value lt); on_goal 2 => subst lt)
      | (extract_lets +onlyGivenNames lt; clear_value lt) | refine Good.of_pair ?_ ‹_› | split

theorem State.canSof_good {s : State} (n : Nat) (hg : Good may s₀ s) :
    Good may s₀ (State.canSof s n) := by
  unfold State.canSof
  with_reducible repeat' first
      | assumption | apply State.put_good | apply State.bump_good | apply State.setCan_good | apply State.loadSse_good | refine Good.ite ?_ ?_
      | (refine Good.foldl (fun _ _ _ => ?_) ?_)
      | (extract_lets +onlyGivenNames lt; refine (show Good may s₀ lt → _ from fun hlt => ?_) ?_; (on_goal 1 => clear_value lt); on_goal 2 => subst lt)
      | (extract_lets +onlyGivenNames lt; refine (show Good may s₀ lt.1 → _ from fun hlt => ?_) ?_; (on_goal 1 => clear_value lt); on_goal 2 => subst lt)
      | (extract_lets +onlyGivenNames lt; clear_value lt) | refine Good.of_pair ?_ ‹_› | split

theorem State.canState_good {s : State} (n : Nat) (hg : Good may s₀ s) :
    Good may s₀ (State.canState s n) := by
  unfold State.canState
  with_reducible repeat' first
      | assumption | apply State.put_good | apply State.bump_good | refine Good.ite ?_ ?_
      | (extract_lets +onlyGivenNames lt; refine (show Good may s₀ lt → _ from fun hlt => ?_) ?_; (on_goal 1 => clear_value lt); on_goal 2 => subst lt)
      | (extract_lets +onlyGivenNames lt; refine (show Good may s₀ lt.1 → _ from fun hlt => ?_) ?_; (on_goal 1 => clear_value lt); on_goal 2 => subst lt)
      | (extract_lets +onlyGivenNames lt; clear_value lt) | split

theorem State.recGood_good {s : State} (n : Nat) (hg : Good may s₀ s) (k_freshCtr : may .freshCtr) :
    Good may s₀ (State.recGood s n) := by
  unfold State.recGood
  with_reducible repeat' first
      | assumption | apply State.put_good | apply State.free_good | apply State.canState_good | refine Good.ite ?_ ?_
      | (extract_lets +onlyGivenNames lt; refine (show Good may s₀ lt → _ from fun hlt => ?_) ?_; (on_goal 1 => clear_value lt); on_goal 2 => subst lt)
      | (extract_lets +onlyGivenNames lt; refine (show Good may s₀ lt.1 → _ from fun hlt => ?_) ?_; (on_goal 1 => clear_value lt); on_goal 2 => subst lt)
      | (extract_lets +onlyGivenNames lt; clear_value lt) | refine Good.of_pair ?_ ‹_› | split

theorem State.canTxEnd_good {s : State} (n : Nat) (hg : Good may s₀ s) (k_mem : may .mem) :
    Good may s₀ (State.canTxEnd s n) := by
  unfold State.canTxEnd
  with_reducible repeat' first
      | assumption | apply State.put_good | apply State.bump_good | apply State.inc_good | apply State.bufDone_good | apply State.canState_good
      | refine Good.ite ?_ ?_
      | (extract_lets +onlyGivenNames lt; refine (show Good may s₀ lt → _ from fun hlt => ?_) ?_; (on_goal 1 => clear_value lt); on_goal 2 => subst lt)
      | (extract_lets +onlyGivenNames lt; refine (show Good may s₀ lt.1 → _ from fun hlt => ?_) ?_; (on_goal 1 => clear_value lt); on_goal 2 => subst lt)
      | (extract_lets +onlyGivenNames lt; clear_value lt) | refine Good.of_pair ?_ ‹_› | split
      | (apply Good.u_sent; first | assumption | refine Good.ite ?_ ?_ | refine Good.of_pair ?_ ‹_› | apply State.put_good | apply State.bump_good | apply State.inc_good | apply State.bufDone_good | apply State.canState_good)

theorem State.canFail_good {s : State} (n : Nat) (hg : Good may s₀ s) (k_mem : may .mem) :
    Good may s₀ (State.canFail s n) := by
  unfold State.canFail
  with_reducible repeat' first
      | assumption | apply State.setCan_good | apply State.canApplyMode_good | apply State.bufDone_good | refine Good.ite ?_ ?_
      | (extract_lets +onlyGivenNames lt; refine (show Good may s₀ lt → _ from fun hlt => ?_) ?_; (on_goal 1 => clear_value lt); on_goal 2 => subst lt)
      | (extract_lets +onlyGivenNames lt; clear_value lt) | refine Good.of_pair ?_ ‹_› | split

theorem State.canArbLost_good {s : State} (n : Nat) (hg : Good may s₀ s) (k_mem : may .mem) :
    Good may s₀ (State.canArbLost s n) := by
  unfold State.canArbLost
  with_reducible repeat' first | assumption | apply State.canFail_good | refine Good.ite ?_ ?_ | split

theorem State.canWindow_good {s : State} (n : Nat) (b : Nat) (hg : Good may s₀ s) (k_mem : may .mem) (k_tku : may .tku) :
    Good may s₀ (State.canWindow s n b) := by
  unfold State.canWindow
  with_reducible repeat' first
      | assumption | apply State.bump_good | apply State.bufDone_good | apply State.untilTime_good | refine Good.ite ?_ ?_
      | (extract_lets +onlyGivenNames lt; refine (show Good may s₀ lt → _ from fun hlt => ?_) ?_; (on_goal 1 => clear_value lt); on_goal 2 => subst lt)
      | (extract_lets +onlyGivenNames lt; refine (show Good may s₀ lt.1 → _ from fun hlt => ?_) ?_; (on_goal 1 => clear_value lt); on_goal 2 => subst lt)
      | (extract_lets +onlyGivenNames lt; clear_value lt) | refine Good.of_pair ?_ ‹_› | split

theorem State.canLaunch_good {s : State} (n : Nat) (b : Nat) (hg : Good may s₀ s) (k_tku : may .tku) :
    Good may s₀ (State.canLaunch s n b) := by
  unfold State.canLaunch
  with_reducible repeat' first
      | assumption | apply State.setCan_good | apply State.untilTime_good | refine Good.ite ?_ ?_
      | (extract_lets +onlyGivenNames lt; refine (show Good may s₀ lt → _ from fun hlt => ?_) ?_; (on_goal 1 => clear_value lt); on_goal 2 => subst lt)
      | (extract_lets +onlyGivenNames lt; refine (show Good may s₀ lt.1 → _ from fun hlt => ?_) ?_; (on_goal 1 => clear_value lt); on_goal 2 => subst lt)
      | (extract_lets +onlyGivenNames lt; clear_value lt) | refine Good.of_pair ?_ ‹_› | split

theorem State.canCancel_good {s : State} (n : Nat) (b : Nat) (flush : Bool) (hg : Good may s₀ s) (k_mem : may .mem) :
    Good may s₀ (State.canCancel s n b flush) := by
  unfold State.canCancel
  with_reducible repeat' first
      | assumption | apply State.setCan_good | apply State.bufDone_good | refine Good.ite ?_ ?_
      | (extract_lets +onlyGivenNames lt; refine (show Good may s₀ lt → _ from fun hlt => ?_) ?_; (on_goal 1 => clear_value lt); on_goal 2 => subst lt)
      | (extract_lets +onlyGivenNames lt; clear_value lt) | refine Good.of_pair ?_ ‹_› | split

theorem State.canFlushRing_good {s : State} (n : Nat) (status : Nat) (aborted : Bool) (p0 : Nat) (hg : Good may s₀ s) (k_mem : may .mem) :
    Good may s₀ (State.canFlushRing s n status aborted p0) := by
  induction p0 generalizing s n status aborted with
  | zero => unfold State.canFlushRing; with_reducible repeat' first
      | assumption | apply State.setCan_good | apply State.canDone_good | refine Good.ite ?_ ?_
      | (extract_lets +onlyGivenNames lt; refine (show Good may s₀ lt → _ from fun hlt => ?_) ?_; (on_goal 1 => clear_value lt); on_goal 2 => subst lt)
      | (extract_lets +onlyGivenNames lt; refine (show Good may s₀ lt.1 → _ from fun hlt => ?_) ?_; (on_goal 1 => clear_value lt); on_goal 2 => subst lt)
      | (extract_lets +onlyGivenNames lt; clear_value lt) | split
  | succ k ih => unfold State.canFlushRing; with_reducible repeat' first
      | assumption | apply ih | apply State.setCan_good | apply State.canDone_good | refine Good.ite ?_ ?_
      | (extract_lets +onlyGivenNames lt; refine (show Good may s₀ lt → _ from fun hlt => ?_) ?_; (on_goal 1 => clear_value lt); on_goal 2 => subst lt)
      | (extract_lets +onlyGivenNames lt; refine (show Good may s₀ lt.1 → _ from fun hlt => ?_) ?_; (on_goal 1 => clear_value lt); on_goal 2 => subst lt)
      | (extract_lets +onlyGivenNames lt; clear_value lt) | split

theorem State.canCancelAll_good {s : State} (n : Nat) (hg : Good may s₀ s) (k_mem : may .mem) :
    Good may s₀ (State.canCancelAll s n) := by
  unfold State.canCancelAll
  with_reducible repeat' first
      | assumption | apply State.canCancel_good | apply State.canFlushRing_good | refine Good.ite ?_ ?_ | (refine Good.foldl (fun _ _ _ => ?_) ?_)
      | (extract_lets +onlyGivenNames lt; refine (show Good may s₀ lt → _ from fun hlt => ?_) ?_; (on_goal 1 => clear_value lt); on_goal 2 => subst lt)
      | (extract_lets +onlyGivenNames lt; refine (show Good may s₀ lt.1 → _ from fun hlt => ?_) ?_; (on_goal 1 => clear_value lt); on_goal 2 => subst lt)
      | (extract_lets +onlyGivenNames lt; clear_value lt) | split

theorem State.canEndAll_good {s : State} (n : Nat) (status : Nat) (hg : Good may s₀ s) (k_mem : may .mem) :
    Good may s₀ (State.canEndAll s n status) := by
  unfold State.canEndAll
  with_reducible repeat' first
      | assumption | apply State.bufDone_good | refine Good.ite ?_ ?_ | (refine Good.foldl (fun _ _ _ => ?_) ?_)
      | (extract_lets +onlyGivenNames lt; refine (show Good may s₀ lt → _ from fun hlt => ?_) ?_; (on_goal 1 => clear_value lt); on_goal 2 => subst lt)
      | (extract_lets +onlyGivenNames lt; clear_value lt) | refine Good.of_pair ?_ ‹_› | split

theorem State.canHush_good {s : State} (p0 : List Nat) (hg : Good may s₀ s) (k_mem : may .mem) :
    Good may s₀ (State.canHush s p0) := by
  induction p0 generalizing s with
  | nil => unfold State.canHush; with_reducible repeat' first
      | assumption | apply State.setCan_good | apply State.canEndAll_good | refine Good.ite ?_ ?_
      | (extract_lets +onlyGivenNames lt; refine (show Good may s₀ lt → _ from fun hlt => ?_) ?_; (on_goal 1 => clear_value lt); on_goal 2 => subst lt)
      | (extract_lets +onlyGivenNames lt; refine (show Good may s₀ lt.1 → _ from fun hlt => ?_) ?_; (on_goal 1 => clear_value lt); on_goal 2 => subst lt)
      | (extract_lets +onlyGivenNames lt; clear_value lt) | split
  | cons hd tl ih => unfold State.canHush; with_reducible repeat' first
      | assumption | apply ih | apply State.setCan_good | apply State.canEndAll_good | refine Good.ite ?_ ?_
      | (extract_lets +onlyGivenNames lt; refine (show Good may s₀ lt → _ from fun hlt => ?_) ?_; (on_goal 1 => clear_value lt); on_goal 2 => subst lt)
      | (extract_lets +onlyGivenNames lt; refine (show Good may s₀ lt.1 → _ from fun hlt => ?_) ?_; (on_goal 1 => clear_value lt); on_goal 2 => subst lt)
      | (extract_lets +onlyGivenNames lt; clear_value lt) | split

theorem State.detTry_good {s : State} (n : Nat) (k : Nat) (hg : Good may s₀ s) :
    Good may s₀ (State.detTry s n k) := by
  unfold State.detTry
  with_reducible repeat' first
      | assumption | apply State.put_good | apply State.setCan_good | refine Good.ite ?_ ?_
      | (extract_lets +onlyGivenNames lt; refine (show Good may s₀ lt → _ from fun hlt => ?_) ?_; (on_goal 1 => clear_value lt); on_goal 2 => subst lt)
      | (extract_lets +onlyGivenNames lt; clear_value lt) | split

theorem State.detStart_good {s : State} (n : Nat) (hg : Good may s₀ s) :
    Good may s₀ (State.detStart s n) := by
  unfold State.detStart
  with_reducible repeat' first
      | assumption | apply State.put_good | apply State.detTry_good | refine Good.ite ?_ ?_
      | (extract_lets +onlyGivenNames lt; refine (show Good may s₀ lt → _ from fun hlt => ?_) ?_; (on_goal 1 => clear_value lt); on_goal 2 => subst lt)
      | (extract_lets +onlyGivenNames lt; refine (show Good may s₀ lt.1 → _ from fun hlt => ?_) ?_; (on_goal 1 => clear_value lt); on_goal 2 => subst lt)
      | (extract_lets +onlyGivenNames lt; clear_value lt) | refine Good.of_pair ?_ ‹_› | split

theorem State.detNext_good {s : State} (n : Nat) (hg : Good may s₀ s) :
    Good may s₀ (State.detNext s n) := by
  unfold State.detNext
  with_reducible repeat' first
      | assumption | apply State.bump_good | apply State.detTry_good | refine Good.ite ?_ ?_
      | (extract_lets +onlyGivenNames lt; refine (show Good may s₀ lt → _ from fun hlt => ?_) ?_; (on_goal 1 => clear_value lt); on_goal 2 => subst lt)
      | (extract_lets +onlyGivenNames lt; refine (show Good may s₀ lt.1 → _ from fun hlt => ?_) ?_; (on_goal 1 => clear_value lt); on_goal 2 => subst lt)
      | (extract_lets +onlyGivenNames lt; clear_value lt) | refine Good.of_pair ?_ ‹_› | split

theorem State.frameTime_good {s : State} (n : Nat) (hg : Good may s₀ s) :
    Good may s₀ (State.frameTime s n) := by
  unfold State.frameTime
  with_reducible repeat' first
      | assumption | apply State.put_good | refine Good.ite ?_ ?_
      | (extract_lets +onlyGivenNames lt; refine (show Good may s₀ lt → _ from fun hlt => ?_) ?_; (on_goal 1 => clear_value lt); on_goal 2 => subst lt)
      | (extract_lets +onlyGivenNames lt; refine (show Good may s₀ lt.1 → _ from fun hlt => ?_) ?_; (on_goal 1 => clear_value lt); on_goal 2 => subst lt)
      | (extract_lets +onlyGivenNames lt; clear_value lt) | split

theorem State.detFrame_good {s : State} (n : Nat) (brs : Bool) (hg : Good may s₀ s) :
    Good may s₀ (State.detFrame s n brs) := by
  unfold State.detFrame
  with_reducible repeat' first
      | assumption | apply State.wr_good | apply State.put_good | apply State.putB_good | apply State.setCan_good | apply State.frameTime_good
      | refine Good.ite ?_ ?_
      | (extract_lets +onlyGivenNames lt; refine (show Good may s₀ lt → _ from fun hlt => ?_) ?_; (on_goal 1 => clear_value lt); on_goal 2 => subst lt)
      | (extract_lets +onlyGivenNames lt; refine (show Good may s₀ lt.1 → _ from fun hlt => ?_) ?_; (on_goal 1 => clear_value lt); on_goal 2 => subst lt)
      | (extract_lets +onlyGivenNames lt; clear_value lt) | split

theorem State.canSetMode_good {s : State} (n : Nat) (m : Nat) (hg : Good may s₀ s) (k_mem : may .mem) :
    Good may s₀ (State.canSetMode s n m) := by
  unfold State.canSetMode
  with_reducible repeat' first
      | assumption | apply State.put_good | apply State.setCan_good | apply State.canApplyMode_good | apply State.canCancelAll_good
      | apply State.detStart_good | refine Good.ite ?_ ?_
      | (extract_lets +onlyGivenNames lt; refine (show Good may s₀ lt → _ from fun hlt => ?_) ?_; (on_goal 1 => clear_value lt); on_goal 2 => subst lt)
      | (extract_lets +onlyGivenNames lt; refine (show Good may s₀ lt.1 → _ from fun hlt => ?_) ?_; (on_goal 1 => clear_value lt); on_goal 2 => subst lt)
      | (extract_lets +onlyGivenNames lt; clear_value lt) | split

theorem State.canBusOff_good {s : State} (n : Nat) (hg : Good may s₀ s) (k_mem : may .mem) :
    Good may s₀ (State.canBusOff s n) := by
  unfold State.canBusOff
  with_reducible repeat' first
      | assumption | apply State.put_good | apply State.bump_good | apply State.setCan_good | apply State.canApplyMode_good
      | apply State.canEndAll_good | refine Good.ite ?_ ?_
      | (extract_lets +onlyGivenNames lt; refine (show Good may s₀ lt → _ from fun hlt => ?_) ?_; (on_goal 1 => clear_value lt); on_goal 2 => subst lt)
      | (extract_lets +onlyGivenNames lt; refine (show Good may s₀ lt.1 → _ from fun hlt => ?_) ?_; (on_goal 1 => clear_value lt); on_goal 2 => subst lt)
      | (extract_lets +onlyGivenNames lt; clear_value lt) | split

theorem State.canException_good {s : State} (n : Nat) (hg : Good may s₀ s) :
    Good may s₀ (State.canException s n) := by
  unfold State.canException
  with_reducible repeat' first | assumption | apply State.put_good | apply State.bump_good | refine Good.ite ?_ ?_ | split

theorem State.canError_good {s : State} (n : Nat) (c : Nat) (tec : Nat) (rec' : Nat) (tx : Bool) (hg : Good may s₀ s) (k_mem : may .mem) :
    Good may s₀ (State.canError s n c tec rec' tx) := by
  unfold State.canError
  with_reducible repeat' first
      | assumption | apply State.put_good | apply State.bump_good | apply State.canFail_good | apply State.canBusOff_good | apply State.canState_good
      | apply State.detNext_good | refine Good.ite ?_ ?_
      | (extract_lets +onlyGivenNames lt; refine (show Good may s₀ lt → _ from fun hlt => ?_) ?_; (on_goal 1 => clear_value lt); on_goal 2 => subst lt)
      | (extract_lets +onlyGivenNames lt; refine (show Good may s₀ lt.1 → _ from fun hlt => ?_) ?_; (on_goal 1 => clear_value lt); on_goal 2 => subst lt)
      | (extract_lets +onlyGivenNames lt; clear_value lt) | split

theorem State.canRecover_good {s : State} (n : Nat) (hg : Good may s₀ s) :
    Good may s₀ (State.canRecover s n) := by
  unfold State.canRecover
  with_reducible repeat' first
      | assumption | apply State.setCan_good | refine Good.ite ?_ ?_
      | (extract_lets +onlyGivenNames lt; refine (show Good may s₀ lt → _ from fun hlt => ?_) ?_; (on_goal 1 => clear_value lt); on_goal 2 => subst lt)
      | (extract_lets +onlyGivenNames lt; clear_value lt) | split

theorem State.canRecovered_good {s : State} (n : Nat) (hg : Good may s₀ s) :
    Good may s₀ (State.canRecovered s n) := by
  unfold State.canRecovered
  with_reducible repeat' first
      | assumption | apply State.put_good | apply State.setCan_good | refine Good.ite ?_ ?_
      | (extract_lets +onlyGivenNames lt; refine (show Good may s₀ lt → _ from fun hlt => ?_) ?_; (on_goal 1 => clear_value lt); on_goal 2 => subst lt)
      | (extract_lets +onlyGivenNames lt; refine (show Good may s₀ lt.1 → _ from fun hlt => ?_) ?_; (on_goal 1 => clear_value lt); on_goal 2 => subst lt)
      | (extract_lets +onlyGivenNames lt; clear_value lt) | split

theorem State.canDeliver_good {s : State} (n : Nat) (ring : Nat) (k : Nat) (w0 : Word) (w1 : Word) (data : List Byte)
    (stamp : Stamp) (hg : Good may s₀ s) (k_mem : may .mem) (k_clo : may .clo) (k_ringPosted : may .ringPosted)
    (k_pairs : may .pairs) :
    Good may s₀ (State.canDeliver s n ring k w0 w1 data stamp) := by
  unfold State.canDeliver
  with_reducible repeat' first
      | assumption | apply State.bump_good | apply State.inc_good | apply State.ringPost_good | refine Good.ite ?_ ?_
      | (extract_lets +onlyGivenNames lt; refine (show Good may s₀ lt → _ from fun hlt => ?_) ?_; (on_goal 1 => clear_value lt); on_goal 2 => subst lt)
      | (extract_lets +onlyGivenNames lt; refine (show Good may s₀ lt.1 → _ from fun hlt => ?_) ?_; (on_goal 1 => clear_value lt); on_goal 2 => subst lt)
      | (extract_lets +onlyGivenNames lt; clear_value lt) | refine Good.of_pair ?_ ‹_› | split

theorem State.canReceive_good {s : State} (n : Nat) (w0 : Word) (w1 : Word) (data : List Byte) (stamp : Stamp)
    (hg : Good may s₀ s) (k_mem : may .mem) (k_freshCtr : may .freshCtr) (k_clo : may .clo) (k_ringPosted : may .ringPosted)
    (k_pairs : may .pairs) :
    Good may s₀ (State.canReceive s n w0 w1 data stamp).1 := by
  unfold State.canReceive
  with_reducible repeat' first
      | assumption | apply State.put_good | apply State.done_good | apply State.canDeliver_good | apply State.detFrame_good | apply State.recGood_good
      | refine Good.ite ?_ ?_ | refine Good.ite1 ?_ ?_
      | (extract_lets +onlyGivenNames lt; refine (show Good may s₀ lt → _ from fun hlt => ?_) ?_; (on_goal 1 => clear_value lt); on_goal 2 => subst lt)
      | (extract_lets +onlyGivenNames lt; refine (show Good may s₀ lt.1 → _ from fun hlt => ?_) ?_; (on_goal 1 => clear_value lt); on_goal 2 => subst lt)
      | (extract_lets +onlyGivenNames lt; clear_value lt) | refine Good.of_pair ?_ ‹_› | split

theorem State.canDisable_good {s : State} (n : Nat) (hg : Good may s₀ s) (k_mem : may .mem) :
    Good may s₀ (State.canDisable s n) := by
  unfold State.canDisable
  with_reducible repeat' first
      | assumption | apply State.setCan_good | apply State.canCancelAll_good | refine Good.ite ?_ ?_
      | (extract_lets +onlyGivenNames lt; refine (show Good may s₀ lt → _ from fun hlt => ?_) ?_; (on_goal 1 => clear_value lt); on_goal 2 => subst lt)
      | (extract_lets +onlyGivenNames lt; refine (show Good may s₀ lt.1 → _ from fun hlt => ?_) ?_; (on_goal 1 => clear_value lt); on_goal 2 => subst lt)
      | (extract_lets +onlyGivenNames lt; clear_value lt) | split

theorem State.canShift_good {s : State} (d : BitVec 64) (hg : Good may s₀ s) :
    Good may s₀ (State.canShift s d) := by
  unfold State.canShift
  with_reducible repeat' first
      | assumption | refine Good.ite ?_ ?_
      | (extract_lets +onlyGivenNames lt; refine (show Good may s₀ lt → _ from fun hlt => ?_) ?_; (on_goal 1 => clear_value lt); on_goal 2 => subst lt)
      | (extract_lets +onlyGivenNames lt; clear_value lt) | split
      | (apply Good.u_cans; first | assumption | refine Good.ite ?_ ?_ | refine Good.of_pair ?_ ‹_›)

/-! ### StationOps -/

theorem State.trackReady_good {s : State} (hg : Good may s₀ s) (k_rdc : may .rdc) :
    Good may s₀ (State.trackReady s) := by
  unfold State.trackReady
  with_reducible repeat' first
      | assumption | apply State.put_good | refine Good.ite ?_ ?_
      | (extract_lets +onlyGivenNames lt; refine (show Good may s₀ lt → _ from fun hlt => ?_) ?_; (on_goal 1 => clear_value lt); on_goal 2 => subst lt)
      | (extract_lets +onlyGivenNames lt; clear_value lt) | split
      | (apply Good.u_rdc; first | assumption | refine Good.ite ?_ ?_ | refine Good.of_pair ?_ ‹_› | apply State.put_good)

theorem State.rdcEmit_good {s : State} (t : RdcTo) (body : List Byte) (hg : Good may s₀ s) :
    Good may s₀ (State.rdcEmit s t body) := by
  unfold State.rdcEmit
  with_reducible repeat' first
      | assumption | apply State.ethQueue_good | apply State.sscSend_good | refine Good.ite ?_ ?_
      | (extract_lets +onlyGivenNames lt; refine (show Good may s₀ lt → _ from fun hlt => ?_) ?_; (on_goal 1 => clear_value lt); on_goal 2 => subst lt)
      | (extract_lets +onlyGivenNames lt; refine (show Good may s₀ lt.1 → _ from fun hlt => ?_) ?_; (on_goal 1 => clear_value lt); on_goal 2 => subst lt)
      | (extract_lets +onlyGivenNames lt; clear_value lt) | refine Good.of_pair ?_ ‹_› | split

theorem State.rdcSend_good {s : State} (t : RdcTo) (typ : Nat) (arg : Nat) (arg2 : Nat) (hg : Good may s₀ s) (k_rdc : may .rdc) :
    Good may s₀ (State.rdcSend s t typ arg arg2) := by
  unfold State.rdcSend
  with_reducible repeat' first
      | assumption | apply State.rdcEmit_good | refine Good.ite ?_ ?_
      | (extract_lets +onlyGivenNames lt; refine (show Good may s₀ lt → _ from fun hlt => ?_) ?_; (on_goal 1 => clear_value lt); on_goal 2 => subst lt)
      | (extract_lets +onlyGivenNames lt; refine (show Good may s₀ lt.1 → _ from fun hlt => ?_) ?_; (on_goal 1 => clear_value lt); on_goal 2 => subst lt)
      | (extract_lets +onlyGivenNames lt; clear_value lt) | refine Good.of_pair ?_ ‹_› | split
      | (apply Good.u_rdc; first | assumption | refine Good.ite ?_ ?_ | refine Good.of_pair ?_ ‹_› | apply State.rdcEmit_good)

theorem State.noteLink_good {s : State} (k : Nat) (from' : Nat) (typ : Nat) (hg : Good may s₀ s) (k_rdc : may .rdc) :
    Good may s₀ (State.noteLink s k from' typ) := by
  unfold State.noteLink
  with_reducible repeat' first
      | assumption | apply State.put_good | refine Good.ite ?_ ?_
      | (extract_lets +onlyGivenNames lt; refine (show Good may s₀ lt → _ from fun hlt => ?_) ?_; (on_goal 1 => clear_value lt); on_goal 2 => subst lt)
      | (extract_lets +onlyGivenNames lt; refine (show Good may s₀ lt.1 → _ from fun hlt => ?_) ?_; (on_goal 1 => clear_value lt); on_goal 2 => subst lt)
      | (extract_lets +onlyGivenNames lt; clear_value lt) | split
      | (apply Good.u_rdc; first | assumption | refine Good.ite ?_ ?_ | refine Good.of_pair ?_ ‹_› | apply State.put_good)

theorem State.noteSeq_good {s : State} (from' : Nat) (seq : Nat) (hg : Good may s₀ s) (k_rdc : may .rdc) :
    Good may s₀ (State.noteSeq s from' seq) := by
  unfold State.noteSeq
  with_reducible repeat' first
      | assumption | refine Good.ite ?_ ?_
      | (extract_lets +onlyGivenNames lt; refine (show Good may s₀ lt → _ from fun hlt => ?_) ?_; (on_goal 1 => clear_value lt); on_goal 2 => subst lt)
      | (extract_lets +onlyGivenNames lt; refine (show Good may s₀ lt.1 → _ from fun hlt => ?_) ?_; (on_goal 1 => clear_value lt); on_goal 2 => subst lt)
      | (extract_lets +onlyGivenNames lt; clear_value lt) | split
      | (apply Good.u_rdc; first | assumption | refine Good.ite ?_ ?_ | refine Good.of_pair ?_ ‹_›)

theorem State.stopProducers_good {s : State} (p0 : List Nat) (hg : Good may s₀ s) :
    Good may s₀ (State.stopProducers s p0) := by
  induction p0 generalizing s with
  | nil => unfold State.stopProducers; with_reducible repeat' first
      | assumption | apply State.setSess_good | refine Good.ite ?_ ?_
      | (extract_lets +onlyGivenNames lt; refine (show Good may s₀ lt → _ from fun hlt => ?_) ?_; (on_goal 1 => clear_value lt); on_goal 2 => subst lt)
      | (extract_lets +onlyGivenNames lt; clear_value lt) | split
  | cons hd tl ih => unfold State.stopProducers; with_reducible repeat' first
      | assumption | apply ih | apply State.setSess_good | refine Good.ite ?_ ?_
      | (extract_lets +onlyGivenNames lt; refine (show Good may s₀ lt → _ from fun hlt => ?_) ?_; (on_goal 1 => clear_value lt); on_goal 2 => subst lt)
      | (extract_lets +onlyGivenNames lt; clear_value lt) | split

theorem State.quietLinks_good {s : State} (hg : Good may s₀ s) (k_mem : may .mem) :
    Good may s₀ (State.quietLinks s) := by
  unfold State.quietLinks
  with_reducible repeat' first | assumption | apply State.canHush_good | apply State.stopProducers_good | refine Good.ite ?_ ?_ | split

theorem State.reloadSeq_good {s : State} (q : Nat) (hg : Good may s₀ s) (k_seqs : may .seqs) :
    Good may s₀ (State.reloadSeq s q) := by
  unfold State.reloadSeq
  with_reducible repeat' first
      | assumption | apply State.setSeq_good | refine Good.ite ?_ ?_
      | (extract_lets +onlyGivenNames lt; refine (show Good may s₀ lt → _ from fun hlt => ?_) ?_; (on_goal 1 => clear_value lt); on_goal 2 => subst lt)
      | (extract_lets +onlyGivenNames lt; refine (show Good may s₀ lt.1 → _ from fun hlt => ?_) ?_; (on_goal 1 => clear_value lt); on_goal 2 => subst lt)
      | (extract_lets +onlyGivenNames lt; clear_value lt) | refine Good.of_pair ?_ ‹_› | split

theorem State.reloadLoop_good {s : State} (c : Nat) (hg : Good may s₀ s) (k_mem : may .mem) :
    Good may s₀ (State.reloadLoop s c) := by
  unfold State.reloadLoop
  with_reducible repeat' first | assumption | apply State.setBytes_good | refine Good.ite ?_ ?_ | split

theorem State.reloadCas_good {s : State} (k : Nat) (hg : Good may s₀ s) (k_sig : may .sig) (k_cas : may .cas) :
    Good may s₀ (State.reloadCas s k) := by
  unfold State.reloadCas
  with_reducible repeat' first
      | assumption | apply State.put_good | apply State.setCas_good | apply State.casAbort_good | refine Good.ite ?_ ?_
      | (extract_lets +onlyGivenNames lt; refine (show Good may s₀ lt → _ from fun hlt => ?_) ?_; (on_goal 1 => clear_value lt); on_goal 2 => subst lt)
      | (extract_lets +onlyGivenNames lt; refine (show Good may s₀ lt.1 → _ from fun hlt => ?_) ?_; (on_goal 1 => clear_value lt); on_goal 2 => subst lt)
      | (extract_lets +onlyGivenNames lt; clear_value lt) | split

theorem State.resetDomains_good {s : State} (hg : Good may s₀ s) (k_mem : may .mem) (k_sig : may .sig) (k_seqs : may .seqs)
    (k_loops : may .loops) (k_cas : may .cas) :
    Good may s₀ (State.resetDomains s) := by
  unfold State.resetDomains
  with_reducible repeat' first
      | assumption | apply State.schedStops_good | apply State.loopsOff_good | apply State.reloadCas_good | apply State.reloadLoop_good
      | apply State.reloadSeq_good | refine Good.ite ?_ ?_ | (refine Good.foldl (fun _ _ _ => ?_) ?_)
      | (extract_lets +onlyGivenNames lt; refine (show Good may s₀ lt → _ from fun hlt => ?_) ?_; (on_goal 1 => clear_value lt); on_goal 2 => subst lt)
      | (extract_lets +onlyGivenNames lt; refine (show Good may s₀ lt.1 → _ from fun hlt => ?_) ?_; (on_goal 1 => clear_value lt); on_goal 2 => subst lt)
      | (extract_lets +onlyGivenNames lt; clear_value lt) | split

theorem State.becomeStandby_good {s : State} (hg : Good may s₀ s) (k_mem : may .mem) (k_sig : may .sig) (k_clo : may .clo)
    (k_seqs : may .seqs) (k_loops : may .loops) (k_cas : may .cas) (k_rdc : may .rdc) (k_slu : may .slu) (k_pairs : may .pairs) :
    Good may s₀ (State.becomeStandby s) := by
  unfold State.becomeStandby
  with_reducible repeat' first
      | assumption | apply State.put_good | apply State.applyR468_good | apply State.quietLinks_good | apply State.resetDomains_good
      | refine Good.ite ?_ ?_
      | (extract_lets +onlyGivenNames lt; refine (show Good may s₀ lt → _ from fun hlt => ?_) ?_; (on_goal 1 => clear_value lt); on_goal 2 => subst lt)
      | (extract_lets +onlyGivenNames lt; refine (show Good may s₀ lt.1 → _ from fun hlt => ?_) ?_; (on_goal 1 => clear_value lt); on_goal 2 => subst lt)
      | (extract_lets +onlyGivenNames lt; clear_value lt) | split
      | (apply Good.u_rdc_slu; first | assumption | refine Good.ite ?_ ?_ | refine Good.of_pair ?_ ‹_› | apply State.put_good | apply State.applyR468_good | apply State.quietLinks_good | apply State.resetDomains_good)

theorem State.becomeActive_good {s : State} (since : Nat) (hg : Good may s₀ s) (k_seqs : may .seqs) (k_rdc : may .rdc) (k_slu : may .slu) :
    Good may s₀ (State.becomeActive s since) := by
  unfold State.becomeActive
  with_reducible repeat' first
      | assumption | apply State.put_good | apply State.peerHandover_good | apply State.schedStarts_good | refine Good.ite ?_ ?_
      | (extract_lets +onlyGivenNames lt; refine (show Good may s₀ lt → _ from fun hlt => ?_) ?_; (on_goal 1 => clear_value lt); on_goal 2 => subst lt)
      | (extract_lets +onlyGivenNames lt; refine (show Good may s₀ lt.1 → _ from fun hlt => ?_) ?_; (on_goal 1 => clear_value lt); on_goal 2 => subst lt)
      | (extract_lets +onlyGivenNames lt; clear_value lt) | split
      | (apply Good.u_rdc_slu; first | assumption | refine Good.ite ?_ ?_ | refine Good.of_pair ?_ ‹_› | apply State.put_good | apply State.peerHandover_good | apply State.schedStarts_good)

theorem State.lapse_good {s : State} (hg : Good may s₀ s) (k_mem : may .mem) (k_rdc : may .rdc) :
    Good may s₀ (State.lapse s) := by
  unfold State.lapse
  with_reducible repeat' first
      | assumption | apply State.put_good | apply State.bump_good | apply State.putB_good | apply State.quietLinks_good | refine Good.ite ?_ ?_
      | (extract_lets +onlyGivenNames lt; refine (show Good may s₀ lt → _ from fun hlt => ?_) ?_; (on_goal 1 => clear_value lt); on_goal 2 => subst lt)
      | (extract_lets +onlyGivenNames lt; refine (show Good may s₀ lt.1 → _ from fun hlt => ?_) ?_; (on_goal 1 => clear_value lt); on_goal 2 => subst lt)
      | (extract_lets +onlyGivenNames lt; clear_value lt) | refine Good.of_pair ?_ ‹_› | split
      | (apply Good.u_rdc; first | assumption | refine Good.ite ?_ ?_ | refine Good.of_pair ?_ ‹_› | apply State.put_good | apply State.bump_good | apply State.putB_good | apply State.quietLinks_good)

theorem State.regain_good {s : State} (hg : Good may s₀ s) (k_rdc : may .rdc) :
    Good may s₀ (State.regain s) := by
  unfold State.regain
  with_reducible repeat' first
      | assumption | apply State.put_good | refine Good.ite ?_ ?_
      | (extract_lets +onlyGivenNames lt; refine (show Good may s₀ lt → _ from fun hlt => ?_) ?_; (on_goal 1 => clear_value lt); on_goal 2 => subst lt)
      | (extract_lets +onlyGivenNames lt; refine (show Good may s₀ lt.1 → _ from fun hlt => ?_) ?_; (on_goal 1 => clear_value lt); on_goal 2 => subst lt)
      | (extract_lets +onlyGivenNames lt; clear_value lt) | split
      | (apply Good.u_rdc; first | assumption | refine Good.ite ?_ ?_ | refine Good.of_pair ?_ ‹_› | apply State.put_good)

theorem State.heartbeatSend_good {s : State} (hg : Good may s₀ s) (k_tku : may .tku) (k_rdc : may .rdc) :
    Good may s₀ (State.heartbeatSend s) := by
  unfold State.heartbeatSend
  with_reducible repeat' first
      | assumption | apply State.untilMono_good | apply State.rdcSend_good | apply State.trackReady_good | refine Good.ite ?_ ?_
      | (refine Good.foldl (fun _ _ _ => ?_) ?_)
      | (extract_lets +onlyGivenNames lt; refine (show Good may s₀ lt → _ from fun hlt => ?_) ?_; (on_goal 1 => clear_value lt); on_goal 2 => subst lt)
      | (extract_lets +onlyGivenNames lt; refine (show Good may s₀ lt.1 → _ from fun hlt => ?_) ?_; (on_goal 1 => clear_value lt); on_goal 2 => subst lt)
      | (extract_lets +onlyGivenNames lt; clear_value lt) | split
      | (apply Good.u_rdc; first | assumption | refine Good.ite ?_ ?_ | refine Good.of_pair ?_ ‹_› | apply State.untilMono_good | apply State.rdcSend_good | apply State.trackReady_good)

theorem State.leaseReq_good {s : State} (hg : Good may s₀ s) (k_rdc : may .rdc) :
    Good may s₀ (State.leaseReq s) := by
  unfold State.leaseReq
  with_reducible repeat' first
      | assumption | apply State.rdcSend_good | refine Good.ite ?_ ?_
      | (extract_lets +onlyGivenNames lt; refine (show Good may s₀ lt → _ from fun hlt => ?_) ?_; (on_goal 1 => clear_value lt); on_goal 2 => subst lt)
      | (extract_lets +onlyGivenNames lt; refine (show Good may s₀ lt.1 → _ from fun hlt => ?_) ?_; (on_goal 1 => clear_value lt); on_goal 2 => subst lt)
      | (extract_lets +onlyGivenNames lt; clear_value lt) | split
      | (apply Good.u_rdc; first | assumption | refine Good.ite ?_ ?_ | refine Good.of_pair ?_ ‹_› | apply State.rdcSend_good)

theorem State.leaseRenew_good {s : State} (hg : Good may s₀ s) (k_tku : may .tku) (k_rdc : may .rdc) :
    Good may s₀ (State.leaseRenew s) := by
  unfold State.leaseRenew
  with_reducible repeat' first
      | assumption | apply State.untilMono_good | apply State.rdcSend_good | apply State.leaseReq_good | refine Good.ite ?_ ?_
      | (extract_lets +onlyGivenNames lt; refine (show Good may s₀ lt → _ from fun hlt => ?_) ?_; (on_goal 1 => clear_value lt); on_goal 2 => subst lt)
      | (extract_lets +onlyGivenNames lt; refine (show Good may s₀ lt.1 → _ from fun hlt => ?_) ?_; (on_goal 1 => clear_value lt); on_goal 2 => subst lt)
      | (extract_lets +onlyGivenNames lt; clear_value lt) | split
      | (apply Good.u_rdc; first | assumption | refine Good.ite ?_ ?_ | refine Good.of_pair ?_ ‹_› | apply State.untilMono_good | apply State.rdcSend_good | apply State.leaseReq_good)

theorem State.standbyReq_good {s : State} (hg : Good may s₀ s) (k_tku : may .tku) (k_rdc : may .rdc) :
    Good may s₀ (State.standbyReq s) := by
  unfold State.standbyReq
  with_reducible repeat' first
      | assumption | apply State.untilMono_good | apply State.leaseReq_good | refine Good.ite ?_ ?_
      | (extract_lets +onlyGivenNames lt; refine (show Good may s₀ lt → _ from fun hlt => ?_) ?_; (on_goal 1 => clear_value lt); on_goal 2 => subst lt)
      | (extract_lets +onlyGivenNames lt; refine (show Good may s₀ lt.1 → _ from fun hlt => ?_) ?_; (on_goal 1 => clear_value lt); on_goal 2 => subst lt)
      | (extract_lets +onlyGivenNames lt; clear_value lt) | split

theorem State.leaseGrant_good {s : State} (seq : Nat) (hg : Good may s₀ s) (k_seqs : may .seqs) (k_rdc : may .rdc) (k_slu : may .slu) :
    Good may s₀ (State.leaseGrant s seq) := by
  unfold State.leaseGrant
  with_reducible repeat' first
      | assumption | apply State.becomeActive_good | apply State.regain_good | refine Good.ite ?_ ?_
      | (extract_lets +onlyGivenNames lt; refine (show Good may s₀ lt → _ from fun hlt => ?_) ?_; (on_goal 1 => clear_value lt); on_goal 2 => subst lt)
      | (extract_lets +onlyGivenNames lt; refine (show Good may s₀ lt.1 → _ from fun hlt => ?_) ?_; (on_goal 1 => clear_value lt); on_goal 2 => subst lt)
      | (extract_lets +onlyGivenNames lt; clear_value lt) | refine Good.of_pair ?_ ‹_› | split
      | (apply Good.u_rdc; first | assumption | refine Good.ite ?_ ?_ | refine Good.of_pair ?_ ‹_› | apply State.becomeActive_good | apply State.regain_good)

theorem State.leaseRefused_good {s : State} (hg : Good may s₀ s) (k_rdc : may .rdc) :
    Good may s₀ (State.leaseRefused s) := by
  unfold State.leaseRefused
  with_reducible repeat' first
      | assumption | apply State.bump_good | refine Good.ite ?_ ?_
      | (extract_lets +onlyGivenNames lt; refine (show Good may s₀ lt → _ from fun hlt => ?_) ?_; (on_goal 1 => clear_value lt); on_goal 2 => subst lt)
      | (extract_lets +onlyGivenNames lt; clear_value lt) | split
      | (apply Good.u_rdc; first | assumption | refine Good.ite ?_ ?_ | refine Good.of_pair ?_ ‹_› | apply State.bump_good)

theorem State.peerReq_good {s : State} (seq : Nat) (hg : Good may s₀ s) (k_rdc : may .rdc) :
    Good may s₀ (State.peerReq s seq) := by
  unfold State.peerReq
  with_reducible repeat' first
      | assumption | apply State.rdcSend_good | refine Good.ite ?_ ?_
      | (extract_lets +onlyGivenNames lt; refine (show Good may s₀ lt → _ from fun hlt => ?_) ?_; (on_goal 1 => clear_value lt); on_goal 2 => subst lt)
      | (extract_lets +onlyGivenNames lt; refine (show Good may s₀ lt.1 → _ from fun hlt => ?_) ?_; (on_goal 1 => clear_value lt); on_goal 2 => subst lt)
      | (extract_lets +onlyGivenNames lt; clear_value lt) | split
      | (apply Good.u_rdc; first | assumption | refine Good.ite ?_ ?_ | refine Good.of_pair ?_ ‹_› | apply State.rdcSend_good)

theorem State.peerGrant_good {s : State} (seq : Nat) (hg : Good may s₀ s) (k_rdc : may .rdc) :
    Good may s₀ (State.peerGrant s seq) := by
  unfold State.peerGrant
  with_reducible repeat' first
      | assumption | refine Good.ite ?_ ?_
      | (extract_lets +onlyGivenNames lt; refine (show Good may s₀ lt → _ from fun hlt => ?_) ?_; (on_goal 1 => clear_value lt); on_goal 2 => subst lt)
      | (extract_lets +onlyGivenNames lt; clear_value lt) | refine Good.of_pair ?_ ‹_› | split
      | (apply Good.u_rdc; first | assumption | refine Good.ite ?_ ?_ | refine Good.of_pair ?_ ‹_›)

theorem State.leaseExpiry_good {s : State} (hg : Good may s₀ s) (k_mem : may .mem) (k_tku : may .tku) (k_rdc : may .rdc) :
    Good may s₀ (State.leaseExpiry s) := by
  unfold State.leaseExpiry
  with_reducible repeat' first | assumption | apply State.untilMono_good | apply State.lapse_good | refine Good.ite ?_ ?_ | split

theorem State.signEnd_good {s : State} (hg : Good may s₀ s) (k_tku : may .tku) (k_rdc : may .rdc) :
    Good may s₀ (State.signEnd s) := by
  unfold State.signEnd
  with_reducible repeat' first
      | assumption | apply State.untilMono_good | refine Good.ite ?_ ?_
      | (extract_lets +onlyGivenNames lt; refine (show Good may s₀ lt → _ from fun hlt => ?_) ?_; (on_goal 1 => clear_value lt); on_goal 2 => subst lt)
      | (extract_lets +onlyGivenNames lt; refine (show Good may s₀ lt.1 → _ from fun hlt => ?_) ?_; (on_goal 1 => clear_value lt); on_goal 2 => subst lt)
      | (extract_lets +onlyGivenNames lt; clear_value lt) | refine Good.of_pair ?_ ‹_› | split
      | (apply Good.u_rdc; first | assumption | refine Good.ite ?_ ?_ | refine Good.of_pair ?_ ‹_› | apply State.untilMono_good)

theorem State.linkTimeout_good {s : State} (k : Nat) (hg : Good may s₀ s) (k_tku : may .tku) (k_rdc : may .rdc) :
    Good may s₀ (State.linkTimeout s k) := by
  unfold State.linkTimeout
  with_reducible repeat' first
      | assumption | apply State.bump_good | apply State.untilMono_good | apply State.trackReady_good | refine Good.ite ?_ ?_
      | (extract_lets +onlyGivenNames lt; refine (show Good may s₀ lt → _ from fun hlt => ?_) ?_; (on_goal 1 => clear_value lt); on_goal 2 => subst lt)
      | (extract_lets +onlyGivenNames lt; refine (show Good may s₀ lt.1 → _ from fun hlt => ?_) ?_; (on_goal 1 => clear_value lt); on_goal 2 => subst lt)
      | (extract_lets +onlyGivenNames lt; clear_value lt) | refine Good.of_pair ?_ ‹_› | split
      | (apply Good.u_rdc; first | assumption | refine Good.ite ?_ ?_ | refine Good.of_pair ?_ ‹_› | apply State.bump_good | apply State.untilMono_good | apply State.trackReady_good)

theorem State.peerHeartbeat_good {s : State} (flags : Nat) (hg : Good may s₀ s) (k_mem : may .mem) (k_sig : may .sig)
    (k_clo : may .clo) (k_seqs : may .seqs) (k_loops : may .loops) (k_cas : may .cas) (k_rdc : may .rdc) (k_slu : may .slu)
    (k_pairs : may .pairs) :
    Good may s₀ (State.peerHeartbeat s flags) := by
  unfold State.peerHeartbeat
  dsimp only
  have h1 := fun v => Good.u_rdc v hg k_rdc
  refine Good.ite ?_ ?_
  · apply State.becomeStandby_good (Good.ite (Good.u_rdc _ (h1 _) k_rdc) (h1 _)) <;> assumption
  · apply State.trackReady_good (Good.ite (Good.u_rdc _ (h1 _) k_rdc) (h1 _)) <;> assumption

theorem State.setWm_good {s : State} (w : Nat) (v : WmRt) (hg : Good may s₀ s) (k_rdc : may .rdc) :
    Good may s₀ (State.setWm s w v) := by
  unfold State.setWm
  with_reducible repeat' first
      | assumption | refine Good.ite ?_ ?_
      | (extract_lets +onlyGivenNames lt; refine (show Good may s₀ lt → _ from fun hlt => ?_) ?_; (on_goal 1 => clear_value lt); on_goal 2 => subst lt)
      | (extract_lets +onlyGivenNames lt; clear_value lt) | split
      | (apply Good.u_rdc; first | assumption | refine Good.ite ?_ ?_ | refine Good.of_pair ?_ ‹_›)

theorem State.setLease_good {s : State} (stn : Nat) (v : Lease) (hg : Good may s₀ s) (k_rdc : may .rdc) :
    Good may s₀ (State.setLease s stn v) := by
  unfold State.setLease
  with_reducible repeat' first
      | assumption | refine Good.ite ?_ ?_
      | (extract_lets +onlyGivenNames lt; refine (show Good may s₀ lt → _ from fun hlt => ?_) ?_; (on_goal 1 => clear_value lt); on_goal 2 => subst lt)
      | (extract_lets +onlyGivenNames lt; clear_value lt) | split
      | (apply Good.u_rdc; first | assumption | refine Good.ite ?_ ?_ | refine Good.of_pair ?_ ‹_›)

theorem State.lapseLease_good {s : State} (stn : Nat) (hg : Good may s₀ s) (k_rdc : may .rdc) :
    Good may s₀ (State.lapseLease s stn) := by
  unfold State.lapseLease
  with_reducible repeat' first
      | assumption | apply State.setLease_good | refine Good.ite ?_ ?_
      | (extract_lets +onlyGivenNames lt; refine (show Good may s₀ lt → _ from fun hlt => ?_) ?_; (on_goal 1 => clear_value lt); on_goal 2 => subst lt)
      | (extract_lets +onlyGivenNames lt; refine (show Good may s₀ lt.1 → _ from fun hlt => ?_) ?_; (on_goal 1 => clear_value lt); on_goal 2 => subst lt)
      | (extract_lets +onlyGivenNames lt; clear_value lt) | refine Good.of_pair ?_ ‹_› | split

theorem State.relinquished_good {s : State} (w : Nat) (hg : Good may s₀ s) (k_rdc : may .rdc) :
    Good may s₀ (State.relinquished s w) := by
  unfold State.relinquished
  with_reducible repeat' first
      | assumption | apply State.setLease_good | apply State.lapseLease_good | refine Good.ite ?_ ?_
      | (extract_lets +onlyGivenNames lt; refine (show Good may s₀ lt → _ from fun hlt => ?_) ?_; (on_goal 1 => clear_value lt); on_goal 2 => subst lt)
      | (extract_lets +onlyGivenNames lt; refine (show Good may s₀ lt.1 → _ from fun hlt => ?_) ?_; (on_goal 1 => clear_value lt); on_goal 2 => subst lt)
      | (extract_lets +onlyGivenNames lt; clear_value lt) | split

theorem State.grant_good {s : State} (w : Nat) (seq : Nat) (hg : Good may s₀ s) (k_rdc : may .rdc) :
    Good may s₀ (State.grant s w seq) := by
  unfold State.grant
  with_reducible repeat' first
      | assumption | apply State.bump_good | apply State.rdcSend_good | apply State.setLease_good | apply State.setWm_good | refine Good.ite ?_ ?_
      | (extract_lets +onlyGivenNames lt; refine (show Good may s₀ lt → _ from fun hlt => ?_) ?_; (on_goal 1 => clear_value lt); on_goal 2 => subst lt)
      | (extract_lets +onlyGivenNames lt; refine (show Good may s₀ lt.1 → _ from fun hlt => ?_) ?_; (on_goal 1 => clear_value lt); on_goal 2 => subst lt)
      | (extract_lets +onlyGivenNames lt; clear_value lt) | split

theorem State.refuse_good {s : State} (w : Nat) (hg : Good may s₀ s) (k_freshCtr : may .freshCtr) (k_rdc : may .rdc) :
    Good may s₀ (State.refuse s w) := by
  unfold State.refuse
  with_reducible repeat' first
      | assumption | apply State.bump_good | apply State.free_good | apply State.rdcSend_good | refine Good.ite ?_ ?_
      | (extract_lets +onlyGivenNames lt; refine (show Good may s₀ lt → _ from fun hlt => ?_) ?_; (on_goal 1 => clear_value lt); on_goal 2 => subst lt)
      | (extract_lets +onlyGivenNames lt; refine (show Good may s₀ lt.1 → _ from fun hlt => ?_) ?_; (on_goal 1 => clear_value lt); on_goal 2 => subst lt)
      | (extract_lets +onlyGivenNames lt; clear_value lt) | refine Good.of_pair ?_ ‹_› | split

theorem State.judgeReq_good {s : State} (w : Nat) (seq : Nat) (flags : Nat) (hg : Good may s₀ s) (k_freshCtr : may .freshCtr) (k_rdc : may .rdc) :
    Good may s₀ (State.judgeReq s w seq flags) := by
  unfold State.judgeReq
  with_reducible repeat' first
      | assumption | apply State.free_good | apply State.lapseLease_good | apply State.setWm_good | apply State.grant_good | apply State.refuse_good
      | refine Good.ite ?_ ?_
      | (extract_lets +onlyGivenNames lt; refine (show Good may s₀ lt → _ from fun hlt => ?_) ?_; (on_goal 1 => clear_value lt); on_goal 2 => subst lt)
      | (extract_lets +onlyGivenNames lt; refine (show Good may s₀ lt.1 → _ from fun hlt => ?_) ?_; (on_goal 1 => clear_value lt); on_goal 2 => subst lt)
      | (extract_lets +onlyGivenNames lt; clear_value lt) | refine Good.of_pair ?_ ‹_› | split

theorem State.grantNext_good {s : State} (stn : Nat) (last : Option Nat) (hg : Good may s₀ s) (k_rdc : may .rdc) :
    Good may s₀ (State.grantNext s stn last) := by
  unfold State.grantNext
  with_reducible repeat' first
      | assumption | apply State.grant_good | refine Good.ite ?_ ?_
      | (extract_lets +onlyGivenNames lt; refine (show Good may s₀ lt → _ from fun hlt => ?_) ?_; (on_goal 1 => clear_value lt); on_goal 2 => subst lt)
      | (extract_lets +onlyGivenNames lt; refine (show Good may s₀ lt.1 → _ from fun hlt => ?_) ?_; (on_goal 1 => clear_value lt); on_goal 2 => subst lt)
      | (extract_lets +onlyGivenNames lt; clear_value lt) | refine Good.of_pair ?_ ‹_› | split

theorem State.guardEnd_good {s : State} (stn : Nat) (hg : Good may s₀ s) (k_tku : may .tku) (k_rdc : may .rdc) : Good may s₀ (s.guardEnd stn) := by
  unfold State.guardEnd
  dsimp only
  generalize (s.leaseOf stn).last = c
  generalize (s.leaseOf stn).holder = x
  generalize (s.leaseOf stn).ended = y
  cases x with
  | some _ => exact hg
  | none =>
    cases y with
    | none => exact hg
    | some t =>
      dsimp only
      generalize t + ms 2 = z
      apply State.grantNext_good _ _ (State.untilMono_good _ hg k_tku) <;> assumption

theorem State.dutyHold_good {s : State} (hg : Good may s₀ s) (k_tku : may .tku) :
    Good may s₀ (State.dutyHold s) := by
  unfold State.dutyHold
  with_reducible repeat' first
      | assumption | apply State.untilMono_good | refine Good.ite ?_ ?_
      | (extract_lets +onlyGivenNames lt; refine (show Good may s₀ lt → _ from fun hlt => ?_) ?_; (on_goal 1 => clear_value lt); on_goal 2 => subst lt)
      | (extract_lets +onlyGivenNames lt; clear_value lt) | refine Good.of_pair ?_ ‹_› | split

theorem State.coldWait_good {s : State} (stn : Nat) (hg : Good may s₀ s) (k_tku : may .tku) :
    Good may s₀ (State.coldWait s stn) := by
  unfold State.coldWait
  with_reducible repeat' first
      | assumption | apply State.untilMono_good | refine Good.ite ?_ ?_
      | (extract_lets +onlyGivenNames lt; refine (show Good may s₀ lt → _ from fun hlt => ?_) ?_; (on_goal 1 => clear_value lt); on_goal 2 => subst lt)
      | (extract_lets +onlyGivenNames lt; clear_value lt) | refine Good.of_pair ?_ ‹_› | split

theorem State.memberHeartbeat_good {s : State} (w : Nat) (flags : Nat) (hg : Good may s₀ s) (k_rdc : may .rdc) :
    Good may s₀ (State.memberHeartbeat s w flags) := by
  unfold State.memberHeartbeat
  with_reducible repeat' first
      | assumption | apply State.setLease_good | apply State.lapseLease_good | apply State.setWm_good | refine Good.ite ?_ ?_
      | (extract_lets +onlyGivenNames lt; refine (show Good may s₀ lt → _ from fun hlt => ?_) ?_; (on_goal 1 => clear_value lt); on_goal 2 => subst lt)
      | (extract_lets +onlyGivenNames lt; refine (show Good may s₀ lt.1 → _ from fun hlt => ?_) ?_; (on_goal 1 => clear_value lt); on_goal 2 => subst lt)
      | (extract_lets +onlyGivenNames lt; clear_value lt) | split

theorem State.trackDuty_good {s : State} (hg : Good may s₀ s) (k_rdc : may .rdc) :
    Good may s₀ (State.trackDuty s) := by
  unfold State.trackDuty
  with_reducible repeat' first
      | assumption | refine Good.ite ?_ ?_
      | (extract_lets +onlyGivenNames lt; refine (show Good may s₀ lt → _ from fun hlt => ?_) ?_; (on_goal 1 => clear_value lt); on_goal 2 => subst lt)
      | (extract_lets +onlyGivenNames lt; clear_value lt) | split
      | (apply Good.u_rdc; first | assumption | refine Good.ite ?_ ?_ | refine Good.of_pair ?_ ‹_›)

theorem State.timeStart_good {s : State} (t1 : BitVec 32) (hg : Good may s₀ s) (k_tku : may .tku) (k_rdc : may .rdc) :
    Good may s₀ (State.timeStart s t1) := by
  unfold State.timeStart
  with_reducible repeat' first
      | assumption | apply State.untilMono_good | apply State.rdcSend_good | refine Good.ite ?_ ?_
      | (extract_lets +onlyGivenNames lt; refine (show Good may s₀ lt → _ from fun hlt => ?_) ?_; (on_goal 1 => clear_value lt); on_goal 2 => subst lt)
      | (extract_lets +onlyGivenNames lt; refine (show Good may s₀ lt.1 → _ from fun hlt => ?_) ?_; (on_goal 1 => clear_value lt); on_goal 2 => subst lt)
      | (extract_lets +onlyGivenNames lt; clear_value lt) | split
      | (apply Good.u_rdc; first | assumption | refine Good.ite ?_ ?_ | refine Good.of_pair ?_ ‹_› | apply State.untilMono_good | apply State.rdcSend_good)

theorem State.timeReq_good {s : State} (k : Nat) (seq : Nat) (t2 : Nat) (t3 : Nat) (hg : Good may s₀ s) (k_rdc : may .rdc) :
    Good may s₀ (State.timeReq s k seq t2 t3) := by
  unfold State.timeReq
  with_reducible repeat' first
      | assumption | apply State.rdcSend_good | refine Good.ite ?_ ?_
      | (extract_lets +onlyGivenNames lt; refine (show Good may s₀ lt → _ from fun hlt => ?_) ?_; (on_goal 1 => clear_value lt); on_goal 2 => subst lt)
      | (extract_lets +onlyGivenNames lt; refine (show Good may s₀ lt.1 → _ from fun hlt => ?_) ?_; (on_goal 1 => clear_value lt); on_goal 2 => subst lt)
      | (extract_lets +onlyGivenNames lt; clear_value lt) | split

theorem State.timeResp_good {s : State} (seq : Nat) (arg : Nat) (arg2 : Nat) (t4 : BitVec 32) (hg : Good may s₀ s)
    (k_resp : may .resp) (k_rdc : may .rdc) :
    Good may s₀ (State.timeResp s seq arg arg2 t4) := by
  unfold State.timeResp
  with_reducible repeat' first
      | assumption | refine Good.ite ?_ ?_
      | (extract_lets +onlyGivenNames lt; refine (show Good may s₀ lt → _ from fun hlt => ?_) ?_; (on_goal 1 => clear_value lt); on_goal 2 => subst lt)
      | (extract_lets +onlyGivenNames lt; clear_value lt) | refine Good.of_pair ?_ ‹_› | split
      | (apply Good.u_rdc; first | assumption | refine Good.ite ?_ ?_ | refine Good.of_pair ?_ ‹_›)
      | (apply Good.u_resp; first | assumption | refine Good.ite ?_ ?_ | refine Good.of_pair ?_ ‹_›)

theorem State.timeFup_good {s : State} (arg : Nat) (arg2 : Nat) (hg : Good may s₀ s) (k_freshCtr : may .freshCtr)
    (k_tku : may .tku) (k_rdc : may .rdc) :
    Good may s₀ (State.timeFup s arg arg2) := by
  unfold State.timeFup
  with_reducible repeat' first
      | assumption | apply State.free_good | apply State.offsetCommit_good | refine Good.ite ?_ ?_
      | (extract_lets +onlyGivenNames lt; refine (show Good may s₀ lt → _ from fun hlt => ?_) ?_; (on_goal 1 => clear_value lt); on_goal 2 => subst lt)
      | (extract_lets +onlyGivenNames lt; refine (show Good may s₀ lt.1 → _ from fun hlt => ?_) ?_; (on_goal 1 => clear_value lt); on_goal 2 => subst lt)
      | (extract_lets +onlyGivenNames lt; clear_value lt) | refine Good.of_pair ?_ ‹_› | split
      | (apply Good.u_rdc; first | assumption | refine Good.ite ?_ ?_ | refine Good.of_pair ?_ ‹_› | apply State.free_good | apply State.offsetCommit_good)

theorem State.timeTimeout_good {s : State} (hg : Good may s₀ s) (k_tku : may .tku) (k_rdc : may .rdc) :
    Good may s₀ (State.timeTimeout s) := by
  unfold State.timeTimeout
  with_reducible repeat' first
      | assumption | apply State.untilMono_good | refine Good.ite ?_ ?_
      | (extract_lets +onlyGivenNames lt; refine (show Good may s₀ lt → _ from fun hlt => ?_) ?_; (on_goal 1 => clear_value lt); on_goal 2 => subst lt)
      | (extract_lets +onlyGivenNames lt; refine (show Good may s₀ lt.1 → _ from fun hlt => ?_) ?_; (on_goal 1 => clear_value lt); on_goal 2 => subst lt)
      | (extract_lets +onlyGivenNames lt; clear_value lt) | refine Good.of_pair ?_ ‹_› | split
      | (apply Good.u_rdc; first | assumption | refine Good.ite ?_ ?_ | refine Good.of_pair ?_ ‹_› | apply State.untilMono_good)

theorem State.startHandover_good {s : State} (cause : Nat) (hg : Good may s₀ s) (k_rdc : may .rdc) :
    Good may s₀ (State.startHandover s cause) := by
  unfold State.startHandover
  with_reducible repeat' first
      | assumption | apply State.rdcSend_good | refine Good.ite ?_ ?_
      | (extract_lets +onlyGivenNames lt; refine (show Good may s₀ lt → _ from fun hlt => ?_) ?_; (on_goal 1 => clear_value lt); on_goal 2 => subst lt)
      | (extract_lets +onlyGivenNames lt; refine (show Good may s₀ lt.1 → _ from fun hlt => ?_) ?_; (on_goal 1 => clear_value lt); on_goal 2 => subst lt)
      | (extract_lets +onlyGivenNames lt; clear_value lt) | split
      | (apply Good.u_rdc; first | assumption | refine Good.ite ?_ ?_ | refine Good.of_pair ?_ ‹_› | apply State.rdcSend_good)

theorem State.handoverReq_good {s : State} (m : Nat) (hg : Good may s₀ s) (k_rdc : may .rdc) :
    Good may s₀ (State.handoverReq s m) := by
  unfold State.handoverReq
  with_reducible repeat' first | assumption | apply State.lost_good | apply State.startHandover_good | refine Good.ite ?_ ?_ | split

theorem State.handoverTick_good {s : State} (hg : Good may s₀ s) (k_mem : may .mem) (k_sig : may .sig) (k_tku : may .tku)
    (k_clo : may .clo) (k_seqs : may .seqs) (k_loops : may .loops) (k_cas : may .cas) (k_rdc : may .rdc) (k_slu : may .slu)
    (k_pairs : may .pairs) :
    Good may s₀ (State.handoverTick s) := by
  unfold State.handoverTick
  with_reducible repeat' first
      | assumption | apply State.bump_good | apply State.becomeStandby_good | apply State.rdcSend_good | apply State.untilTime_good
      | refine Good.ite ?_ ?_
      | (extract_lets +onlyGivenNames lt; refine (show Good may s₀ lt → _ from fun hlt => ?_) ?_; (on_goal 1 => clear_value lt); on_goal 2 => subst lt)
      | (extract_lets +onlyGivenNames lt; refine (show Good may s₀ lt.1 → _ from fun hlt => ?_) ?_; (on_goal 1 => clear_value lt); on_goal 2 => subst lt)
      | (extract_lets +onlyGivenNames lt; clear_value lt) | refine Good.of_pair ?_ ‹_› | split
      | (apply Good.u_rdc; first | assumption | refine Good.ite ?_ ?_ | refine Good.of_pair ?_ ‹_› | apply State.bump_good | apply State.becomeStandby_good | apply State.rdcSend_good | apply State.untilTime_good)

theorem State.peerRelinquish_good {s : State} (hg : Good may s₀ s) (k_rdc : may .rdc) :
    Good may s₀ (State.peerRelinquish s) := by
  unfold State.peerRelinquish
  with_reducible repeat' first
      | assumption | refine Good.ite ?_ ?_
      | (extract_lets +onlyGivenNames lt; refine (show Good may s₀ lt → _ from fun hlt => ?_) ?_; (on_goal 1 => clear_value lt); on_goal 2 => subst lt)
      | (extract_lets +onlyGivenNames lt; clear_value lt) | split
      | (apply Good.u_rdc; first | assumption | refine Good.ite ?_ ?_ | refine Good.of_pair ?_ ‹_›)

theorem State.peerHandover_good {s : State} (hg : Good may s₀ s) (k_rdc : may .rdc) :
    Good may s₀ (State.peerHandover s) := by
  unfold State.peerHandover
  with_reducible repeat' first
      | assumption | refine Good.ite ?_ ?_
      | (extract_lets +onlyGivenNames lt; refine (show Good may s₀ lt → _ from fun hlt => ?_) ?_; (on_goal 1 => clear_value lt); on_goal 2 => subst lt)
      | (extract_lets +onlyGivenNames lt; clear_value lt) | split
      | (apply Good.u_rdc; first | assumption | refine Good.ite ?_ ?_ | refine Good.of_pair ?_ ‹_›)

theorem State.revertHoldoff_good {s : State} (hg : Good may s₀ s) (k_tku : may .tku) :
    Good may s₀ (State.revertHoldoff s) := by
  unfold State.revertHoldoff
  with_reducible repeat' first
      | assumption | apply State.put_good | apply State.untilMono_good | refine Good.ite ?_ ?_
      | (extract_lets +onlyGivenNames lt; refine (show Good may s₀ lt → _ from fun hlt => ?_) ?_; (on_goal 1 => clear_value lt); on_goal 2 => subst lt)
      | (extract_lets +onlyGivenNames lt; clear_value lt) | refine Good.of_pair ?_ ‹_› | split

theorem State.revertStart_good {s : State} (hg : Good may s₀ s) (k_rdc : may .rdc) :
    Good may s₀ (State.revertStart s) := by
  unfold State.revertStart
  with_reducible repeat' first | assumption | apply State.bump_good | apply State.startHandover_good | refine Good.ite ?_ ?_ | split

theorem State.startDriving_good {s : State} (hg : Good may s₀ s) (k_rdc : may .rdc) :
    Good may s₀ (State.startDriving s) := by
  unfold State.startDriving
  with_reducible repeat' first
      | assumption | apply State.put_good | apply State.bump_good | apply State.put64_good | apply State.putSat_good | refine Good.ite ?_ ?_
      | (extract_lets +onlyGivenNames lt; refine (show Good may s₀ lt → _ from fun hlt => ?_) ?_; (on_goal 1 => clear_value lt); on_goal 2 => subst lt)
      | (extract_lets +onlyGivenNames lt; refine (show Good may s₀ lt.1 → _ from fun hlt => ?_) ?_; (on_goal 1 => clear_value lt); on_goal 2 => subst lt)
      | (extract_lets +onlyGivenNames lt; clear_value lt) | split
      | (apply Good.u_rdc; first | assumption | refine Good.ite ?_ ?_ | refine Good.of_pair ?_ ‹_› | apply State.put_good | apply State.bump_good | apply State.put64_good | apply State.putSat_good)

end Sys2Proof.Machine
end

