-- ==== Sys2Proof/Laws/KeepPorts.lean ====
section
/-! SUPPORT. What every operation keeps (`Good`), operation by operation: the recorder store, the panel, Ethernet and remote I/O. -/

set_option linter.all false

namespace Sys2Proof.Machine

variable {may : Part → Prop} {s₀ : State}

/-! ### CisOps -/

theorem State.setCis_good {s : State} (c : Cis) (hg : Good may s₀ s) (k_cis : may .cis) :
    Good may s₀ (State.setCis s c) := by
  unfold State.setCis
  with_reducible repeat' first
      | assumption | refine Good.ite ?_ ?_
      | (extract_lets +onlyGivenNames lt; refine (show Good may s₀ lt → _ from fun hlt => ?_) ?_; (on_goal 1 => clear_value lt); on_goal 2 => subst lt)
      | (extract_lets +onlyGivenNames lt; clear_value lt) | split
      | (apply Good.u_cis; first | assumption | refine Good.ite ?_ ?_ | refine Good.of_pair ?_ ‹_›)

theorem State.cisMetric_good {s : State} (k : Nat) (i : Nat) (hg : Good may s₀ s) (k_freshCtr : may .freshCtr) :
    Good may s₀ (State.cisMetric s k i).1 := by
  unfold State.cisMetric
  with_reducible repeat' first
      | assumption | apply State.free_good | refine Good.ite ?_ ?_ | refine Good.ite1 ?_ ?_
      | (extract_lets +onlyGivenNames lt; refine (show Good may s₀ lt → _ from fun hlt => ?_) ?_; (on_goal 1 => clear_value lt); on_goal 2 => subst lt)
      | (extract_lets +onlyGivenNames lt; refine (show Good may s₀ lt.1 → _ from fun hlt => ?_) ?_; (on_goal 1 => clear_value lt); on_goal 2 => subst lt)
      | (extract_lets +onlyGivenNames lt; clear_value lt) | refine Good.of_pair ?_ ‹_› | split

theorem State.cisSource_good {s : State} (t : Nat) (hg : Good may s₀ s) (k_freshCtr : may .freshCtr) :
    Good may s₀ (State.cisSource s t).1 := by
  unfold State.cisSource
  with_reducible repeat' first
      | assumption | apply State.cisMetric_good | refine Good.ite ?_ ?_ | refine Good.ite1 ?_ ?_
      | (extract_lets +onlyGivenNames lt; refine (show Good may s₀ lt → _ from fun hlt => ?_) ?_; (on_goal 1 => clear_value lt); on_goal 2 => subst lt)
      | (extract_lets +onlyGivenNames lt; refine (show Good may s₀ lt.1 → _ from fun hlt => ?_) ?_; (on_goal 1 => clear_value lt); on_goal 2 => subst lt)
      | (extract_lets +onlyGivenNames lt; clear_value lt) | refine Good.of_pair ?_ ‹_› | split

theorem State.cisSample_good {s : State} (t : Nat) (hg : Good may s₀ s) (k_freshCtr : may .freshCtr) (k_cis : may .cis) :
    Good may s₀ (State.cisSample s t) := by
  unfold State.cisSample
  with_reducible repeat' first
      | assumption | apply State.setCis_good | apply State.cisSource_good | refine Good.ite ?_ ?_
      | (extract_lets +onlyGivenNames lt; refine (show Good may s₀ lt → _ from fun hlt => ?_) ?_; (on_goal 1 => clear_value lt); on_goal 2 => subst lt)
      | (extract_lets +onlyGivenNames lt; refine (show Good may s₀ lt.1 → _ from fun hlt => ?_) ?_; (on_goal 1 => clear_value lt); on_goal 2 => subst lt)
      | (extract_lets +onlyGivenNames lt; clear_value lt) | refine Good.of_pair ?_ ‹_› | split

theorem State.cisSamples_good {s : State} (hg : Good may s₀ s) (k_freshCtr : may .freshCtr) (k_cis : may .cis) :
    Good may s₀ (State.cisSamples s) := by
  unfold State.cisSamples
  with_reducible repeat' first | assumption | apply State.cisSample_good | refine Good.ite ?_ ?_ | (refine Good.foldl (fun _ _ _ => ?_) ?_) | split

theorem State.cisExport_good {s : State} (hg : Good may s₀ s) (k_mem : may .mem) (k_clo : may .clo)
    (k_ringPosted : may .ringPosted) (k_pairs : may .pairs) :
    Good may s₀ (State.cisExport s) := by
  unfold State.cisExport
  with_reducible repeat' first
      | assumption | apply State.put_good | apply State.bump_good | apply State.ringPost_good | refine Good.ite ?_ ?_
      | (extract_lets +onlyGivenNames lt; refine (show Good may s₀ lt → _ from fun hlt => ?_) ?_; (on_goal 1 => clear_value lt); on_goal 2 => subst lt)
      | (extract_lets +onlyGivenNames lt; refine (show Good may s₀ lt.1 → _ from fun hlt => ?_) ?_; (on_goal 1 => clear_value lt); on_goal 2 => subst lt)
      | (extract_lets +onlyGivenNames lt; clear_value lt) | refine Good.of_pair ?_ ‹_› | split

theorem State.cisNote_good {s : State} (r : CisRec) (hg : Good may s₀ s) (k_mem : may .mem) (k_clo : may .clo)
    (k_ringPosted : may .ringPosted) (k_cis : may .cis) (k_pairs : may .pairs) :
    Good may s₀ (State.cisNote s r) := by
  unfold State.cisNote
  with_reducible repeat' first
      | assumption | apply State.lost_good | apply State.setCis_good | apply State.bumpBy_good | apply State.cisExport_good | refine Good.ite ?_ ?_
      | (extract_lets +onlyGivenNames lt; refine (show Good may s₀ lt → _ from fun hlt => ?_) ?_; (on_goal 1 => clear_value lt); on_goal 2 => subst lt)
      | (extract_lets +onlyGivenNames lt; refine (show Good may s₀ lt.1 → _ from fun hlt => ?_) ?_; (on_goal 1 => clear_value lt); on_goal 2 => subst lt)
      | (extract_lets +onlyGivenNames lt; clear_value lt) | split

theorem State.cisWrite_good {s : State} (typ : Nat) (t : Nat) (part : Bool) (rest : Bool) (closeOps : Nat) (crc : Nat)
    (a : CisAcc) (hg : Good may s₀ s) (k_mem : may .mem) (k_clo : may .clo) (k_ringPosted : may .ringPosted) (k_cis : may .cis)
    (k_pairs : may .pairs) :
    Good may s₀ (State.cisWrite s typ t part rest closeOps crc a) := by
  unfold State.cisWrite
  with_reducible repeat' first
      | assumption | apply State.put_good | apply State.setBytes_good | apply State.cisNote_good | refine Good.ite ?_ ?_
      | (extract_lets +onlyGivenNames lt; refine (show Good may s₀ lt → _ from fun hlt => ?_) ?_; (on_goal 1 => clear_value lt); on_goal 2 => subst lt)
      | (extract_lets +onlyGivenNames lt; refine (show Good may s₀ lt.1 → _ from fun hlt => ?_) ?_; (on_goal 1 => clear_value lt); on_goal 2 => subst lt)
      | (extract_lets +onlyGivenNames lt; clear_value lt) | split

theorem State.putLife_good {s : State} (t : Nat) (a : CisAcc) (hg : Good may s₀ s) (k_mem : may .mem) :
    Good may s₀ (State.putLife s t a) := by
  unfold State.putLife
  with_reducible repeat' first | assumption | apply State.setBytes_good | refine Good.ite ?_ ?_ | split

theorem State.cisFlush_good {s : State} (hg : Good may s₀ s) (k_cis : may .cis) :
    Good may s₀ (State.cisFlush s) := by
  unfold State.cisFlush
  with_reducible repeat' first
      | assumption | apply State.put_good | apply State.setCis_good | refine Good.ite ?_ ?_
      | (extract_lets +onlyGivenNames lt; refine (show Good may s₀ lt → _ from fun hlt => ?_) ?_; (on_goal 1 => clear_value lt); on_goal 2 => subst lt)
      | (extract_lets +onlyGivenNames lt; refine (show Good may s₀ lt.1 → _ from fun hlt => ?_) ?_; (on_goal 1 => clear_value lt); on_goal 2 => subst lt)
      | (extract_lets +onlyGivenNames lt; clear_value lt) | refine Good.of_pair ?_ ‹_› | split

theorem State.putLives_good {s : State} (p0 : List (Nat × CisTrk)) (hg : Good may s₀ s) (k_mem : may .mem) :
    Good may s₀ (State.putLives s p0) := by
  induction p0 generalizing s with
  | nil => unfold State.putLives; with_reducible repeat' first | assumption | apply State.putLife_good | refine Good.ite ?_ ?_ | split
  | cons hd tl ih => unfold State.putLives; with_reducible repeat' first
      | assumption | apply ih | apply State.putLife_good | refine Good.ite ?_ ?_ | split

theorem State.eraseRec_good {s : State} (r : CisRec) (hg : Good may s₀ s) (k_mem : may .mem) :
    Good may s₀ (State.eraseRec s r) := by
  unfold State.eraseRec
  with_reducible repeat' first | assumption | apply State.setBytes_good | refine Good.ite ?_ ?_ | split

theorem State.renewLife_good {s : State} (t : Nat) (defChanged : Bool) (hg : Good may s₀ s) (k_cis : may .cis) :
    Good may s₀ (State.renewLife s t defChanged) := by
  unfold State.renewLife
  with_reducible repeat' first
      | assumption | apply State.put_good | apply State.setCis_good | refine Good.ite ?_ ?_
      | (extract_lets +onlyGivenNames lt; refine (show Good may s₀ lt → _ from fun hlt => ?_) ?_; (on_goal 1 => clear_value lt); on_goal 2 => subst lt)
      | (extract_lets +onlyGivenNames lt; refine (show Good may s₀ lt.1 → _ from fun hlt => ?_) ?_; (on_goal 1 => clear_value lt); on_goal 2 => subst lt)
      | (extract_lets +onlyGivenNames lt; clear_value lt) | split

theorem State.eraseLives_good {s : State} (p0 : List Nat) (hg : Good may s₀ s) (k_mem : may .mem) (k_cis : may .cis) :
    Good may s₀ (State.eraseLives s p0) := by
  induction p0 generalizing s with
  | nil => unfold State.eraseLives; with_reducible repeat' first
      | assumption | apply State.setBytes_good | apply State.renewLife_good | refine Good.ite ?_ ?_ | split
  | cons hd tl ih => unfold State.eraseLives; with_reducible repeat' first
      | assumption | apply ih | apply State.setBytes_good | apply State.renewLife_good | refine Good.ite ?_ ?_ | split

theorem State.cisErase_good {s : State} (stores : Nat) (mask : Nat) (hg : Good may s₀ s) (k_mem : may .mem) (k_clo : may .clo)
    (k_ringPosted : may .ringPosted) (k_cis : may .cis) (k_pairs : may .pairs) :
    Good may s₀ (State.cisErase s stores mask) := by
  unfold State.cisErase
  with_reducible repeat' first
      | assumption | apply State.put_good | apply State.setBytes_good | apply State.putB_good | apply State.setCis_good | apply State.cisNote_good
      | apply State.eraseLives_good | apply State.eraseRec_good | refine Good.ite ?_ ?_ | (refine Good.foldl (fun _ _ _ => ?_) ?_)
      | (extract_lets +onlyGivenNames lt; refine (show Good may s₀ lt → _ from fun hlt => ?_) ?_; (on_goal 1 => clear_value lt); on_goal 2 => subst lt)
      | (extract_lets +onlyGivenNames lt; refine (show Good may s₀ lt.1 → _ from fun hlt => ?_) ?_; (on_goal 1 => clear_value lt); on_goal 2 => subst lt)
      | (extract_lets +onlyGivenNames lt; clear_value lt) | split

theorem State.cisFlushDone_good {s : State} (hg : Good may s₀ s) (k_mem : may .mem) (k_clo : may .clo)
    (k_ringPosted : may .ringPosted) (k_cis : may .cis) (k_pairs : may .pairs) :
    Good may s₀ (State.cisFlushDone s) := by
  unfold State.cisFlushDone
  with_reducible repeat' first
      | assumption | apply State.put_good | apply State.setCis_good | apply State.cisErase_good | apply State.putLives_good | refine Good.ite ?_ ?_
      | (extract_lets +onlyGivenNames lt; refine (show Good may s₀ lt → _ from fun hlt => ?_) ?_; (on_goal 1 => clear_value lt); on_goal 2 => subst lt)
      | (extract_lets +onlyGivenNames lt; refine (show Good may s₀ lt.1 → _ from fun hlt => ?_) ?_; (on_goal 1 => clear_value lt); on_goal 2 => subst lt)
      | (extract_lets +onlyGivenNames lt; clear_value lt) | refine Good.of_pair ?_ ‹_› | split

theorem State.cisTorn_good {s : State} (hg : Good may s₀ s) (k_cis : may .cis) :
    Good may s₀ (State.cisTorn s) := by
  unfold State.cisTorn
  with_reducible repeat' first
      | assumption | apply State.setCis_good | refine Good.ite ?_ ?_
      | (extract_lets +onlyGivenNames lt; refine (show Good may s₀ lt → _ from fun hlt => ?_) ?_; (on_goal 1 => clear_value lt); on_goal 2 => subst lt)
      | (extract_lets +onlyGivenNames lt; refine (show Good may s₀ lt.1 → _ from fun hlt => ?_) ?_; (on_goal 1 => clear_value lt); on_goal 2 => subst lt)
      | (extract_lets +onlyGivenNames lt; clear_value lt) | refine Good.of_pair ?_ ‹_› | split

theorem State.closeHour_good {s : State} (part : Bool) (t : Nat) (hg : Good may s₀ s) (k_mem : may .mem) (k_clo : may .clo)
    (k_ringPosted : may .ringPosted) (k_cis : may .cis) (k_pairs : may .pairs) :
    Good may s₀ (State.closeHour s part t) := by
  unfold State.closeHour
  with_reducible repeat' first
      | assumption | apply State.setCis_good | apply State.cisWrite_good | refine Good.ite ?_ ?_
      | (extract_lets +onlyGivenNames lt; refine (show Good may s₀ lt → _ from fun hlt => ?_) ?_; (on_goal 1 => clear_value lt); on_goal 2 => subst lt)
      | (extract_lets +onlyGivenNames lt; refine (show Good may s₀ lt.1 → _ from fun hlt => ?_) ?_; (on_goal 1 => clear_value lt); on_goal 2 => subst lt)
      | (extract_lets +onlyGivenNames lt; clear_value lt) | refine Good.of_pair ?_ ‹_› | split

theorem State.closeDay_good {s : State} (part : Bool) (life : Bool) (t : Nat) (hg : Good may s₀ s) (k_mem : may .mem)
    (k_clo : may .clo) (k_ringPosted : may .ringPosted) (k_cis : may .cis) (k_pairs : may .pairs) :
    Good may s₀ (State.closeDay s part life t) := by
  unfold State.closeDay
  with_reducible repeat' first
      | assumption | apply State.setCis_good | apply State.cisWrite_good | refine Good.ite ?_ ?_
      | (extract_lets +onlyGivenNames lt; refine (show Good may s₀ lt → _ from fun hlt => ?_) ?_; (on_goal 1 => clear_value lt); on_goal 2 => subst lt)
      | (extract_lets +onlyGivenNames lt; refine (show Good may s₀ lt.1 → _ from fun hlt => ?_) ?_; (on_goal 1 => clear_value lt); on_goal 2 => subst lt)
      | (extract_lets +onlyGivenNames lt; clear_value lt) | refine Good.of_pair ?_ ‹_› | split

theorem State.cisEpochs_good {s : State} (hg : Good may s₀ s) (k_mem : may .mem) (k_clo : may .clo)
    (k_ringPosted : may .ringPosted) (k_cis : may .cis) (k_pairs : may .pairs) :
    Good may s₀ (State.cisEpochs s) := by
  unfold State.cisEpochs
  with_reducible repeat' first
      | assumption | apply State.setCis_good | apply State.cisFlush_good | apply State.closeDay_good | apply State.closeHour_good
      | refine Good.ite ?_ ?_ | (refine Good.foldl (fun _ _ _ => ?_) ?_)
      | (extract_lets +onlyGivenNames lt; refine (show Good may s₀ lt → _ from fun hlt => ?_) ?_; (on_goal 1 => clear_value lt); on_goal 2 => subst lt)
      | (extract_lets +onlyGivenNames lt; refine (show Good may s₀ lt.1 → _ from fun hlt => ?_) ?_; (on_goal 1 => clear_value lt); on_goal 2 => subst lt)
      | (extract_lets +onlyGivenNames lt; clear_value lt) | split

theorem State.cisSnapshot_good {s : State} (hg : Good may s₀ s) (k_freshCtr : may .freshCtr) (k_cis : may .cis) :
    Good may s₀ (State.cisSnapshot s) := by
  unfold State.cisSnapshot
  with_reducible repeat' first
      | assumption | apply State.setCis_good | apply State.cisFlush_good | apply State.cisSamples_good | refine Good.ite ?_ ?_
      | (extract_lets +onlyGivenNames lt; refine (show Good may s₀ lt → _ from fun hlt => ?_) ?_; (on_goal 1 => clear_value lt); on_goal 2 => subst lt)
      | (extract_lets +onlyGivenNames lt; refine (show Good may s₀ lt.1 → _ from fun hlt => ?_) ?_; (on_goal 1 => clear_value lt); on_goal 2 => subst lt)
      | (extract_lets +onlyGivenNames lt; clear_value lt) | split

theorem State.trkOpen_good {s : State} (t : Nat) (hg : Good may s₀ s) (k_mem : may .mem) (k_clo : may .clo)
    (k_ringPosted : may .ringPosted) (k_cis : may .cis) (k_pairs : may .pairs) :
    Good may s₀ (State.trkOpen s t) := by
  unfold State.trkOpen
  with_reducible repeat' first
      | assumption | apply State.put_good | apply State.setCis_good | apply State.cisWrite_good | refine Good.ite ?_ ?_
      | (extract_lets +onlyGivenNames lt; refine (show Good may s₀ lt → _ from fun hlt => ?_) ?_; (on_goal 1 => clear_value lt); on_goal 2 => subst lt)
      | (extract_lets +onlyGivenNames lt; refine (show Good may s₀ lt.1 → _ from fun hlt => ?_) ?_; (on_goal 1 => clear_value lt); on_goal 2 => subst lt)
      | (extract_lets +onlyGivenNames lt; clear_value lt) | refine Good.of_pair ?_ ‹_› | split

theorem State.trkClose_good {s : State} (t : Nat) (hg : Good may s₀ s) (k_mem : may .mem) (k_clo : may .clo)
    (k_ringPosted : may .ringPosted) (k_cis : may .cis) (k_pairs : may .pairs) :
    Good may s₀ (State.trkClose s t) := by
  unfold State.trkClose
  with_reducible repeat' first
      | assumption | apply State.setCis_good | apply State.cisFlush_good | apply State.closeDay_good | apply State.closeHour_good
      | apply State.putLife_good | refine Good.ite ?_ ?_
      | (extract_lets +onlyGivenNames lt; refine (show Good may s₀ lt → _ from fun hlt => ?_) ?_; (on_goal 1 => clear_value lt); on_goal 2 => subst lt)
      | (extract_lets +onlyGivenNames lt; refine (show Good may s₀ lt.1 → _ from fun hlt => ?_) ?_; (on_goal 1 => clear_value lt); on_goal 2 => subst lt)
      | (extract_lets +onlyGivenNames lt; clear_value lt) | refine Good.of_pair ?_ ‹_› | split

theorem State.cisRestoreTrk_good {s : State} (k : Option CisCkpt) (t : Nat) (hg : Good may s₀ s) (k_mem : may .mem)
    (k_clo : may .clo) (k_ringPosted : may .ringPosted) (k_cis : may .cis) (k_pairs : may .pairs) :
    Good may s₀ (State.cisRestoreTrk s k t) := by
  unfold State.cisRestoreTrk
  with_reducible repeat' first
      | assumption | apply State.put_good | apply State.setCis_good | apply State.cisWrite_good | apply State.trkOpen_good | refine Good.ite ?_ ?_
      | (extract_lets +onlyGivenNames lt; refine (show Good may s₀ lt → _ from fun hlt => ?_) ?_; (on_goal 1 => clear_value lt); on_goal 2 => subst lt)
      | (extract_lets +onlyGivenNames lt; refine (show Good may s₀ lt.1 → _ from fun hlt => ?_) ?_; (on_goal 1 => clear_value lt); on_goal 2 => subst lt)
      | (extract_lets +onlyGivenNames lt; clear_value lt) | refine Good.of_pair ?_ ‹_› | split

theorem State.cisRestore_good {s : State} (hg : Good may s₀ s) (k_mem : may .mem) (k_clo : may .clo)
    (k_ringPosted : may .ringPosted) (k_cis : may .cis) (k_pairs : may .pairs) :
    Good may s₀ (State.cisRestore s) := by
  unfold State.cisRestore
  with_reducible repeat' first
      | assumption | apply State.put_good | apply State.bump_good | apply State.setCis_good | apply State.cisFlush_good
      | apply State.cisRestoreTrk_good | refine Good.ite ?_ ?_ | (refine Good.foldl (fun _ _ _ => ?_) ?_)
      | (extract_lets +onlyGivenNames lt; refine (show Good may s₀ lt → _ from fun hlt => ?_) ?_; (on_goal 1 => clear_value lt); on_goal 2 => subst lt)
      | (extract_lets +onlyGivenNames lt; refine (show Good may s₀ lt.1 → _ from fun hlt => ?_) ?_; (on_goal 1 => clear_value lt); on_goal 2 => subst lt)
      | (extract_lets +onlyGivenNames lt; clear_value lt) | refine Good.of_pair ?_ ‹_› | split

theorem State.cisClear_good {s : State} (m : Nat) (hg : Good may s₀ s) (k_mem : may .mem) (k_freshCtr : may .freshCtr)
    (k_clo : may .clo) (k_ringPosted : may .ringPosted) (k_credFails : may .credFails) (k_credLockTo : may .credLockTo)
    (k_chalAt : may .chalAt) (k_cis : may .cis) (k_pairs : may .pairs) :
    Good may s₀ (State.cisClear s m) := by
  unfold State.cisClear
  with_reducible repeat' first
      | assumption | apply State.bump_good | apply State.lost_good | apply State.setCis_good | apply State.cisErase_good | apply State.credSubmit_good
      | refine Good.ite ?_ ?_
      | (extract_lets +onlyGivenNames lt; refine (show Good may s₀ lt → _ from fun hlt => ?_) ?_; (on_goal 1 => clear_value lt); on_goal 2 => subst lt)
      | (extract_lets +onlyGivenNames lt; refine (show Good may s₀ lt.1 → _ from fun hlt => ?_) ?_; (on_goal 1 => clear_value lt); on_goal 2 => subst lt)
      | (extract_lets +onlyGivenNames lt; clear_value lt) | refine Good.of_pair ?_ ‹_› | split

theorem State.cisCmd_good {s : State} (v : Nat) (m : Nat) (hg : Good may s₀ s) (k_mem : may .mem) (k_freshCtr : may .freshCtr)
    (k_clo : may .clo) (k_ringPosted : may .ringPosted) (k_credFails : may .credFails) (k_credLockTo : may .credLockTo)
    (k_chalAt : may .chalAt) (k_cis : may .cis) (k_pairs : may .pairs) :
    Good may s₀ (State.cisCmd s v m) := by
  unfold State.cisCmd
  with_reducible repeat' first
      | assumption | apply State.badAccess_good | apply State.cisFlush_good | apply State.cisClear_good | refine Good.ite ?_ ?_ | split

/-! ### PnlOps -/

theorem State.panelTemp_good {s : State} (t : Int) (hg : Good may s₀ s) :
    Good may s₀ (State.panelTemp s t) := by
  unfold State.panelTemp
  with_reducible repeat' first
      | assumption | apply State.put_good | apply State.putB_good | refine Good.ite ?_ ?_
      | (extract_lets +onlyGivenNames lt; refine (show Good may s₀ lt → _ from fun hlt => ?_) ?_; (on_goal 1 => clear_value lt); on_goal 2 => subst lt)
      | (extract_lets +onlyGivenNames lt; refine (show Good may s₀ lt.1 → _ from fun hlt => ?_) ?_; (on_goal 1 => clear_value lt); on_goal 2 => subst lt)
      | (extract_lets +onlyGivenNames lt; clear_value lt) | split

theorem State.setPnl_good {s : State} (p : Pnl) (hg : Good may s₀ s) (k_pnl : may .pnl) :
    Good may s₀ (State.setPnl s p) := by
  unfold State.setPnl
  with_reducible repeat' first
      | assumption | refine Good.ite ?_ ?_
      | (extract_lets +onlyGivenNames lt; refine (show Good may s₀ lt → _ from fun hlt => ?_) ?_; (on_goal 1 => clear_value lt); on_goal 2 => subst lt)
      | (extract_lets +onlyGivenNames lt; clear_value lt) | split
      | (apply Good.u_pnl; first | assumption | refine Good.ite ?_ ?_ | refine Good.of_pair ?_ ‹_›)

theorem State.bandCompare_good {s : State} (hg : Good may s₀ s) :
    Good may s₀ (State.bandCompare s) := by
  unfold State.bandCompare
  with_reducible repeat' first
      | assumption | apply State.put_good | refine Good.ite ?_ ?_
      | (extract_lets +onlyGivenNames lt; refine (show Good may s₀ lt → _ from fun hlt => ?_) ?_; (on_goal 1 => clear_value lt); on_goal 2 => subst lt)
      | (extract_lets +onlyGivenNames lt; refine (show Good may s₀ lt.1 → _ from fun hlt => ?_) ?_; (on_goal 1 => clear_value lt); on_goal 2 => subst lt)
      | (extract_lets +onlyGivenNames lt; clear_value lt) | split

theorem State.waveStart_good {s : State} (step : Nat) (hg : Good may s₀ s) (k_tku : may .tku) (k_pnl : may .pnl) :
    Good may s₀ (State.waveStart s step) := by
  unfold State.waveStart
  with_reducible repeat' first
      | assumption | apply State.put_good | apply State.setPnl_good | refine Good.ite ?_ ?_
      | (extract_lets +onlyGivenNames lt; refine (show Good may s₀ lt → _ from fun hlt => ?_) ?_; (on_goal 1 => clear_value lt); on_goal 2 => subst lt)
      | (extract_lets +onlyGivenNames lt; refine (show Good may s₀ lt.1 → _ from fun hlt => ?_) ?_; (on_goal 1 => clear_value lt); on_goal 2 => subst lt)
      | (extract_lets +onlyGivenNames lt; clear_value lt) | split

theorem State.updateStart_good {s : State} (t : Int) (hg : Good may s₀ s) (k_tku : may .tku) (k_pnl : may .pnl) :
    Good may s₀ (State.updateStart s t) := by
  unfold State.updateStart
  with_reducible repeat' first
      | assumption | apply State.put_good | apply State.bump_good | apply State.setPnl_good | apply State.untilMono_good | apply State.panelTemp_good
      | apply State.waveStart_good | refine Good.ite ?_ ?_
      | (extract_lets +onlyGivenNames lt; refine (show Good may s₀ lt → _ from fun hlt => ?_) ?_; (on_goal 1 => clear_value lt); on_goal 2 => subst lt)
      | (extract_lets +onlyGivenNames lt; refine (show Good may s₀ lt.1 → _ from fun hlt => ?_) ?_; (on_goal 1 => clear_value lt); on_goal 2 => subst lt)
      | (extract_lets +onlyGivenNames lt; clear_value lt) | refine Good.of_pair ?_ ‹_› | split

theorem State.countWave_good {s : State} (n : Nat) (hg : Good may s₀ s) :
    Good may s₀ (State.countWave s n) := by
  unfold State.countWave
  with_reducible repeat' first | assumption | apply State.putSat_good | refine Good.ite ?_ ?_ | split

theorem State.updateDone_good {s : State} (hg : Good may s₀ s) (k_pnl : may .pnl) :
    Good may s₀ (State.updateDone s) := by
  unfold State.updateDone
  with_reducible repeat' first
      | assumption | apply State.put_good | apply State.setPnl_good | refine Good.ite ?_ ?_
      | (extract_lets +onlyGivenNames lt; refine (show Good may s₀ lt → _ from fun hlt => ?_) ?_; (on_goal 1 => clear_value lt); on_goal 2 => subst lt)
      | (extract_lets +onlyGivenNames lt; refine (show Good may s₀ lt.1 → _ from fun hlt => ?_) ?_; (on_goal 1 => clear_value lt); on_goal 2 => subst lt)
      | (extract_lets +onlyGivenNames lt; clear_value lt) | refine Good.of_pair ?_ ‹_› | split

theorem State.bandDone_good {s : State} (t : Int) (hg : Good may s₀ s) (k_tku : may .tku) (k_pnl : may .pnl) :
    Good may s₀ (State.bandDone s t) := by
  unfold State.bandDone
  with_reducible repeat' first
      | assumption | apply State.put_good | apply State.untilMono_good | apply State.bandCompare_good | apply State.countWave_good
      | apply State.panelTemp_good | apply State.waveStart_good | refine Good.ite ?_ ?_
      | (extract_lets +onlyGivenNames lt; refine (show Good may s₀ lt → _ from fun hlt => ?_) ?_; (on_goal 1 => clear_value lt); on_goal 2 => subst lt)
      | (extract_lets +onlyGivenNames lt; refine (show Good may s₀ lt.1 → _ from fun hlt => ?_) ?_; (on_goal 1 => clear_value lt); on_goal 2 => subst lt)
      | (extract_lets +onlyGivenNames lt; clear_value lt) | split

theorem State.imageDone_good {s : State} (t : Int) (hg : Good may s₀ s) (k_tku : may .tku) (k_pnl : may .pnl) :
    Good may s₀ (State.imageDone s t) := by
  unfold State.imageDone
  with_reducible repeat' first
      | assumption | apply State.untilMono_good | apply State.bandCompare_good | apply State.countWave_good | apply State.panelTemp_good
      | apply State.updateDone_good | refine Good.ite ?_ ?_
      | (extract_lets +onlyGivenNames lt; refine (show Good may s₀ lt → _ from fun hlt => ?_) ?_; (on_goal 1 => clear_value lt); on_goal 2 => subst lt)
      | (extract_lets +onlyGivenNames lt; refine (show Good may s₀ lt.1 → _ from fun hlt => ?_) ?_; (on_goal 1 => clear_value lt); on_goal 2 => subst lt)
      | (extract_lets +onlyGivenNames lt; clear_value lt) | split

theorem State.clearDone_good {s : State} (t : Int) (hg : Good may s₀ s) (k_tku : may .tku) (k_pnl : may .pnl) :
    Good may s₀ (State.clearDone s t) := by
  unfold State.clearDone
  with_reducible repeat' first
      | assumption | apply State.untilMono_good | apply State.bandCompare_good | apply State.countWave_good | apply State.panelTemp_good
      | apply State.updateDone_good | refine Good.ite ?_ ?_
      | (extract_lets +onlyGivenNames lt; refine (show Good may s₀ lt → _ from fun hlt => ?_) ?_; (on_goal 1 => clear_value lt); on_goal 2 => subst lt)
      | (extract_lets +onlyGivenNames lt; refine (show Good may s₀ lt.1 → _ from fun hlt => ?_) ?_; (on_goal 1 => clear_value lt); on_goal 2 => subst lt)
      | (extract_lets +onlyGivenNames lt; clear_value lt) | split

theorem State.pnlAbort_good {s : State} (hg : Good may s₀ s) (k_pnl : may .pnl) :
    Good may s₀ (State.pnlAbort s) := by
  unfold State.pnlAbort
  with_reducible repeat' first
      | assumption | apply State.put_good | apply State.bump_good | apply State.setPnl_good | refine Good.ite ?_ ?_
      | (extract_lets +onlyGivenNames lt; refine (show Good may s₀ lt → _ from fun hlt => ?_) ?_; (on_goal 1 => clear_value lt); on_goal 2 => subst lt)
      | (extract_lets +onlyGivenNames lt; refine (show Good may s₀ lt.1 → _ from fun hlt => ?_) ?_; (on_goal 1 => clear_value lt); on_goal 2 => subst lt)
      | (extract_lets +onlyGivenNames lt; clear_value lt) | split

theorem State.pnlStart_good {s : State} (hg : Good may s₀ s) (k_pnl : may .pnl) :
    Good may s₀ (State.pnlStart s) := by
  unfold State.pnlStart
  with_reducible repeat' first
      | assumption | apply State.bump_good | apply State.setPnl_good | refine Good.ite ?_ ?_
      | (extract_lets +onlyGivenNames lt; refine (show Good may s₀ lt → _ from fun hlt => ?_) ?_; (on_goal 1 => clear_value lt); on_goal 2 => subst lt)
      | (extract_lets +onlyGivenNames lt; clear_value lt) | split

theorem State.pnlCmd_good {s : State} (v : Nat) (m : Nat) (hg : Good may s₀ s) (k_pnl : may .pnl) :
    Good may s₀ (State.pnlCmd s v m) := by
  unfold State.pnlCmd
  with_reducible repeat' first
      | assumption | apply State.setPnl_good | apply State.lost_good | apply State.badAccess_good | refine Good.ite ?_ ?_
      | (extract_lets +onlyGivenNames lt; refine (show Good may s₀ lt → _ from fun hlt => ?_) ?_; (on_goal 1 => clear_value lt); on_goal 2 => subst lt)
      | (extract_lets +onlyGivenNames lt; clear_value lt) | split

theorem State.lampDone_good {s : State} (hg : Good may s₀ s) (k_tku : may .tku) (k_pnl : may .pnl) :
    Good may s₀ (State.lampDone s) := by
  unfold State.lampDone
  with_reducible repeat' first
      | assumption | apply State.setPnl_good | apply State.untilMono_good | refine Good.ite ?_ ?_
      | (extract_lets +onlyGivenNames lt; refine (show Good may s₀ lt → _ from fun hlt => ?_) ?_; (on_goal 1 => clear_value lt); on_goal 2 => subst lt)
      | (extract_lets +onlyGivenNames lt; refine (show Good may s₀ lt.1 → _ from fun hlt => ?_) ?_; (on_goal 1 => clear_value lt); on_goal 2 => subst lt)
      | (extract_lets +onlyGivenNames lt; clear_value lt) | refine Good.of_pair ?_ ‹_› | split

theorem State.blinkToggle_good {s : State} (hg : Good may s₀ s) (k_tku : may .tku) (k_pnl : may .pnl) :
    Good may s₀ (State.blinkToggle s) := by
  unfold State.blinkToggle
  with_reducible repeat' first
      | assumption | apply State.put_good | apply State.setPnl_good | apply State.untilMono_good | apply State.countWave_good | refine Good.ite ?_ ?_
      | (extract_lets +onlyGivenNames lt; refine (show Good may s₀ lt → _ from fun hlt => ?_) ?_; (on_goal 1 => clear_value lt); on_goal 2 => subst lt)
      | (extract_lets +onlyGivenNames lt; refine (show Good may s₀ lt.1 → _ from fun hlt => ?_) ?_; (on_goal 1 => clear_value lt); on_goal 2 => subst lt)
      | (extract_lets +onlyGivenNames lt; clear_value lt) | split

theorem State.crackCheck_good {s : State} (ohm : Nat) (hg : Good may s₀ s) (k_tku : may .tku) (k_pnl : may .pnl) :
    Good may s₀ (State.crackCheck s ohm) := by
  unfold State.crackCheck
  with_reducible repeat' first
      | assumption | apply State.setPnl_good | apply State.putB_good | apply State.untilMono_good | apply State.putSat_good | refine Good.ite ?_ ?_
      | (extract_lets +onlyGivenNames lt; refine (show Good may s₀ lt → _ from fun hlt => ?_) ?_; (on_goal 1 => clear_value lt); on_goal 2 => subst lt)
      | (extract_lets +onlyGivenNames lt; refine (show Good may s₀ lt.1 → _ from fun hlt => ?_) ?_; (on_goal 1 => clear_value lt); on_goal 2 => subst lt)
      | (extract_lets +onlyGivenNames lt; clear_value lt) | refine Good.of_pair ?_ ‹_› | split

theorem State.frameCheck_good {s : State} (match_ : Bool) (hg : Good may s₀ s) (k_pnl : may .pnl) :
    Good may s₀ (State.frameCheck s match_) := by
  unfold State.frameCheck
  with_reducible repeat' first
      | assumption | apply State.put_good | apply State.bump_good | apply State.setPnl_good | refine Good.ite ?_ ?_
      | (extract_lets +onlyGivenNames lt; refine (show Good may s₀ lt → _ from fun hlt => ?_) ?_; (on_goal 1 => clear_value lt); on_goal 2 => subst lt)
      | (extract_lets +onlyGivenNames lt; refine (show Good may s₀ lt.1 → _ from fun hlt => ?_) ?_; (on_goal 1 => clear_value lt); on_goal 2 => subst lt)
      | (extract_lets +onlyGivenNames lt; clear_value lt) | refine Good.of_pair ?_ ‹_› | split

theorem State.pnlDay_good {s : State} (hg : Good may s₀ s) :
    Good may s₀ (State.pnlDay s) := by
  unfold State.pnlDay
  with_reducible repeat' first | assumption | apply State.put_good | refine Good.ite ?_ ?_ | split

theorem State.epochs_good {s : State} (hg : Good may s₀ s) (k_mem : may .mem) (k_clo : may .clo) (k_ringPosted : may .ringPosted)
    (k_cis : may .cis) (k_mpl : may .mpl) (k_pairs : may .pairs) :
    Good may s₀ (State.epochs s) := by
  unfold State.epochs
  with_reducible repeat' first
      | assumption | apply State.cisEpochs_good | apply State.mplDay_good | apply State.pnlDay_good | refine Good.ite ?_ ?_
      | (extract_lets +onlyGivenNames lt; refine (show Good may s₀ lt → _ from fun hlt => ?_) ?_; (on_goal 1 => clear_value lt); on_goal 2 => subst lt)
      | (extract_lets +onlyGivenNames lt; refine (show Good may s₀ lt.1 → _ from fun hlt => ?_) ?_; (on_goal 1 => clear_value lt); on_goal 2 => subst lt)
      | (extract_lets +onlyGivenNames lt; clear_value lt) | split

/-! ### EthOps -/

theorem State.discardRing_good {s : State} (r : Nat) (p0 : Nat) (hg : Good may s₀ s) (k_mem : may .mem) :
    Good may s₀ (State.discardRing s r p0) := by
  induction p0 generalizing s r with
  | zero => unfold State.discardRing; with_reducible repeat' first | assumption | apply State.ringDone_good | refine Good.ite ?_ ?_ | split
  | succ k ih => unfold State.discardRing; with_reducible repeat' first
      | assumption | apply ih | apply State.ringDone_good | refine Good.ite ?_ ?_ | split

theorem State.discardRings_good {s : State} (p0 : List Nat) (hg : Good may s₀ s) (k_mem : may .mem) :
    Good may s₀ (State.discardRings s p0) := by
  induction p0 generalizing s with
  | nil => unfold State.discardRings; with_reducible repeat' first | assumption | apply State.discardRing_good | refine Good.ite ?_ ?_ | split
  | cons hd tl ih => unfold State.discardRings; with_reducible repeat' first
      | assumption | apply ih | apply State.discardRing_good | refine Good.ite ?_ ?_ | split

theorem State.ethStart_good {s : State} (p : Nat) (hg : Good may s₀ s) (k_mem : may .mem) :
    Good may s₀ (State.ethStart s p) := by
  unfold State.ethStart
  with_reducible repeat' first
      | assumption | apply State.putDesc_good | apply State.setEth_good | apply State.ringDone_good | apply State.ringRefuse_good
      | refine Good.ite ?_ ?_
      | (extract_lets +onlyGivenNames lt; refine (show Good may s₀ lt → _ from fun hlt => ?_) ?_; (on_goal 1 => clear_value lt); on_goal 2 => subst lt)
      | (extract_lets +onlyGivenNames lt; refine (show Good may s₀ lt.1 → _ from fun hlt => ?_) ?_; (on_goal 1 => clear_value lt); on_goal 2 => subst lt)
      | (extract_lets +onlyGivenNames lt; clear_value lt) | refine Good.of_pair ?_ ‹_› | split

theorem State.sentOn_good {s : State} (l : List (Nat × List Byte)) (hg : Good may s₀ s) :
    Good may s₀ (State.sentOn s l) := by
  unfold State.sentOn
  with_reducible repeat' first
      | assumption | refine Good.ite ?_ ?_
      | (extract_lets +onlyGivenNames lt; refine (show Good may s₀ lt → _ from fun hlt => ?_) ?_; (on_goal 1 => clear_value lt); on_goal 2 => subst lt)
      | (extract_lets +onlyGivenNames lt; clear_value lt) | split
      | (apply Good.u_sent; first | assumption | refine Good.ite ?_ ?_ | refine Good.of_pair ?_ ‹_›)

theorem State.emitEth_good {s : State} (p : Nat) (sel : Nat) (f : List Byte) (g : List Byte) (hg : Good may s₀ s) :
    Good may s₀ (State.emitEth s p sel f g) := by
  unfold State.emitEth
  with_reducible repeat' first
      | assumption | apply State.setEth_good | apply State.sentOn_good | refine Good.ite ?_ ?_
      | (extract_lets +onlyGivenNames lt; refine (show Good may s₀ lt → _ from fun hlt => ?_) ?_; (on_goal 1 => clear_value lt); on_goal 2 => subst lt)
      | (extract_lets +onlyGivenNames lt; refine (show Good may s₀ lt.1 → _ from fun hlt => ?_) ?_; (on_goal 1 => clear_value lt); on_goal 2 => subst lt)
      | (extract_lets +onlyGivenNames lt; clear_value lt) | split

theorem State.ethDone_good {s : State} (p : Nat) (ago : Nat) (ago2 : Nat) (hg : Good may s₀ s) (k_mem : may .mem) :
    Good may s₀ (State.ethDone s p ago ago2) := by
  unfold State.ethDone
  with_reducible repeat' first
      | assumption | apply State.setEth_good | apply State.inc_good | apply State.ringDone_good | apply State.sentOn_good | apply State.emitEth_good
      | refine Good.ite ?_ ?_
      | (extract_lets +onlyGivenNames lt; refine (show Good may s₀ lt → _ from fun hlt => ?_) ?_; (on_goal 1 => clear_value lt); on_goal 2 => subst lt)
      | (extract_lets +onlyGivenNames lt; refine (show Good may s₀ lt.1 → _ from fun hlt => ?_) ?_; (on_goal 1 => clear_value lt); on_goal 2 => subst lt)
      | (extract_lets +onlyGivenNames lt; clear_value lt) | refine Good.of_pair ?_ ‹_› | split

theorem State.linkLost_good {s : State} (p : Nat) (hg : Good may s₀ s) (k_mem : may .mem) :
    Good may s₀ (State.linkLost s p) := by
  unfold State.linkLost
  with_reducible repeat' first
      | assumption | apply State.put_good | apply State.bump_good | apply State.setEth_good | apply State.ringDone_good
      | apply State.discardRings_good | refine Good.ite ?_ ?_
      | (extract_lets +onlyGivenNames lt; refine (show Good may s₀ lt → _ from fun hlt => ?_) ?_; (on_goal 1 => clear_value lt); on_goal 2 => subst lt)
      | (extract_lets +onlyGivenNames lt; refine (show Good may s₀ lt.1 → _ from fun hlt => ?_) ?_; (on_goal 1 => clear_value lt); on_goal 2 => subst lt)
      | (extract_lets +onlyGivenNames lt; clear_value lt) | refine Good.of_pair ?_ ‹_› | split

theorem State.supSend_good {s : State} (p : Nat) (hg : Good may s₀ s) :
    Good may s₀ (State.supSend s p) := by
  unfold State.supSend
  with_reducible repeat' first
      | assumption | apply State.setEth_good | apply State.inc_good | apply State.emitEth_good | refine Good.ite ?_ ?_
      | (extract_lets +onlyGivenNames lt; refine (show Good may s₀ lt → _ from fun hlt => ?_) ?_; (on_goal 1 => clear_value lt); on_goal 2 => subst lt)
      | (extract_lets +onlyGivenNames lt; refine (show Good may s₀ lt.1 → _ from fun hlt => ?_) ?_; (on_goal 1 => clear_value lt); on_goal 2 => subst lt)
      | (extract_lets +onlyGivenNames lt; clear_value lt) | split

theorem State.ethPost_good {s : State} (p : Nat) (r : Nat) (f : List Byte) (stamp : Option Stamp) (xinfo : Nat)
    (hg : Good may s₀ s) (k_mem : may .mem) (k_clo : may .clo) (k_ringPosted : may .ringPosted) (k_pairs : may .pairs) :
    Good may s₀ (State.ethPost s p r f stamp xinfo).1 := by
  unfold State.ethPost
  with_reducible repeat' first
      | assumption | apply State.bump_good | apply State.inc_good | apply State.ringPost_good | refine Good.ite ?_ ?_ | refine Good.ite1 ?_ ?_
      | (extract_lets +onlyGivenNames lt; refine (show Good may s₀ lt → _ from fun hlt => ?_) ?_; (on_goal 1 => clear_value lt); on_goal 2 => subst lt)
      | (extract_lets +onlyGivenNames lt; refine (show Good may s₀ lt.1 → _ from fun hlt => ?_) ?_; (on_goal 1 => clear_value lt); on_goal 2 => subst lt)
      | (extract_lets +onlyGivenNames lt; clear_value lt) | refine Good.of_pair ?_ ‹_› | split

theorem State.ethProto_good {s : State} (p : Nat) (f : List Byte) (stamp : Option Stamp) (xinfo : Nat) (hg : Good may s₀ s)
    (k_mem : may .mem) (k_clo : may .clo) (k_ringPosted : may .ringPosted) (k_pairs : may .pairs) :
    Good may s₀ (State.ethProto s p f stamp xinfo).1 := by
  unfold State.ethProto
  with_reducible repeat' first
      | assumption | apply State.done_good | apply State.ethPost_good | refine Good.ite ?_ ?_ | refine Good.ite1 ?_ ?_
      | (extract_lets +onlyGivenNames lt; refine (show Good may s₀ lt → _ from fun hlt => ?_) ?_; (on_goal 1 => clear_value lt); on_goal 2 => subst lt)
      | (extract_lets +onlyGivenNames lt; refine (show Good may s₀ lt.1 → _ from fun hlt => ?_) ?_; (on_goal 1 => clear_value lt); on_goal 2 => subst lt)
      | (extract_lets +onlyGivenNames lt; clear_value lt) | refine Good.of_pair ?_ ‹_› | split

theorem State.ethSteps_good {s : State} (p : Nat) (f : List Byte) (stamp : Option Stamp) (x : Nat) (hg : Good may s₀ s)
    (k_mem : may .mem) (k_clo : may .clo) (k_ringPosted : may .ringPosted) (k_pairs : may .pairs) :
    Good may s₀ (State.ethSteps s p f stamp x).1 := by
  unfold State.ethSteps
  with_reducible repeat' first
      | assumption | apply State.bump_good | apply State.inc_good | apply State.done_good | apply State.ethPost_good | apply State.ethProto_good
      | refine Good.ite ?_ ?_ | refine Good.ite1 ?_ ?_
      | (extract_lets +onlyGivenNames lt; refine (show Good may s₀ lt → _ from fun hlt => ?_) ?_; (on_goal 1 => clear_value lt); on_goal 2 => subst lt)
      | (extract_lets +onlyGivenNames lt; refine (show Good may s₀ lt.1 → _ from fun hlt => ?_) ?_; (on_goal 1 => clear_value lt); on_goal 2 => subst lt)
      | (extract_lets +onlyGivenNames lt; clear_value lt) | refine Good.of_pair ?_ ‹_› | split

theorem State.ethRx_good {s : State} (port : Nat) (f : List Byte) (fcsOk : Bool) (arr : Stamp) (hg : Good may s₀ s)
    (k_mem : may .mem) (k_clo : may .clo) (k_ringPosted : may .ringPosted) (k_pairs : may .pairs) :
    Good may s₀ (State.ethRx s port f fcsOk arr).1 := by
  unfold State.ethRx
  with_reducible repeat' first
      | assumption | apply State.bump_good | apply State.setEth_good | apply State.done_good | apply State.ethPost_good | apply State.ethSteps_good
      | refine Good.ite ?_ ?_ | refine Good.ite1 ?_ ?_
      | (extract_lets +onlyGivenNames lt; refine (show Good may s₀ lt → _ from fun hlt => ?_) ?_; (on_goal 1 => clear_value lt); on_goal 2 => subst lt)
      | (extract_lets +onlyGivenNames lt; refine (show Good may s₀ lt.1 → _ from fun hlt => ?_) ?_; (on_goal 1 => clear_value lt); on_goal 2 => subst lt)
      | (extract_lets +onlyGivenNames lt; clear_value lt) | split

/-! ### RixOps -/

theorem State.setRix_good {s : State} (st : Nat) (v : Rix) (hg : Good may s₀ s) (k_rix : may .rix) :
    Good may s₀ (State.setRix s st v) := by
  unfold State.setRix
  with_reducible repeat' first
      | assumption | refine Good.ite ?_ ?_
      | (extract_lets +onlyGivenNames lt; refine (show Good may s₀ lt → _ from fun hlt => ?_) ?_; (on_goal 1 => clear_value lt); on_goal 2 => subst lt)
      | (extract_lets +onlyGivenNames lt; clear_value lt) | split
      | (apply Good.u_rix; first | assumption | refine Good.ite ?_ ?_ | refine Good.of_pair ?_ ‹_›)

theorem State.rixExchange_good {s : State} (st : Nat) (hg : Good may s₀ s) (k_mem : may .mem) (k_freshCtr : may .freshCtr)
    (k_tku : may .tku) (k_clo : may .clo) (k_ringPosted : may .ringPosted) (k_rix : may .rix) (k_pairs : may .pairs) :
    Good may s₀ (State.rixExchange s st) := by
  unfold State.rixExchange
  with_reducible repeat' first
      | assumption | apply State.bump_good | apply State.untilMono_good | apply State.free_good | apply State.ringPost_good | apply State.setRix_good
      | refine Good.ite ?_ ?_
      | (extract_lets +onlyGivenNames lt; refine (show Good may s₀ lt → _ from fun hlt => ?_) ?_; (on_goal 1 => clear_value lt); on_goal 2 => subst lt)
      | (extract_lets +onlyGivenNames lt; refine (show Good may s₀ lt.1 → _ from fun hlt => ?_) ?_; (on_goal 1 => clear_value lt); on_goal 2 => subst lt)
      | (extract_lets +onlyGivenNames lt; clear_value lt) | refine Good.of_pair ?_ ‹_› | split

theorem State.rixPost_good {s : State} (st : Nat) (d : List Byte) (age : Nat) (p0 : List (Nat × Nat)) (hg : Good may s₀ s) (k_sig : may .sig) :
    Good may s₀ (State.rixPost s st d age p0) := by
  induction p0 generalizing s st d age with
  | nil => unfold State.rixPost; with_reducible repeat' first
      | assumption | apply State.post_good | refine Good.ite ?_ ?_
      | (extract_lets +onlyGivenNames lt; refine (show Good may s₀ lt → _ from fun hlt => ?_) ?_; (on_goal 1 => clear_value lt); on_goal 2 => subst lt)
      | (extract_lets +onlyGivenNames lt; refine (show Good may s₀ lt.1 → _ from fun hlt => ?_) ?_; (on_goal 1 => clear_value lt); on_goal 2 => subst lt)
      | (extract_lets +onlyGivenNames lt; clear_value lt) | split
  | cons hd tl ih => unfold State.rixPost; with_reducible repeat' first
      | assumption | apply ih | apply State.post_good | refine Good.ite ?_ ?_
      | (extract_lets +onlyGivenNames lt; refine (show Good may s₀ lt → _ from fun hlt => ?_) ?_; (on_goal 1 => clear_value lt); on_goal 2 => subst lt)
      | (extract_lets +onlyGivenNames lt; refine (show Good may s₀ lt.1 → _ from fun hlt => ?_) ?_; (on_goal 1 => clear_value lt); on_goal 2 => subst lt)
      | (extract_lets +onlyGivenNames lt; clear_value lt) | split

theorem State.rixInput_good {s : State} (st : Nat) (d : List Byte) (arr : Nat) (hg : Good may s₀ s) (k_sig : may .sig)
    (k_seqs : may .seqs) (k_rix : may .rix) :
    Good may s₀ (State.rixInput s st d arr) := by
  unfold State.rixInput
  with_reducible repeat' first
      | assumption | apply State.put_good | apply State.triggerErr_good | apply State.putSat_good | apply State.setRix_good | apply State.rixPost_good
      | refine Good.ite ?_ ?_
      | (extract_lets +onlyGivenNames lt; refine (show Good may s₀ lt → _ from fun hlt => ?_) ?_; (on_goal 1 => clear_value lt); on_goal 2 => subst lt)
      | (extract_lets +onlyGivenNames lt; refine (show Good may s₀ lt.1 → _ from fun hlt => ?_) ?_; (on_goal 1 => clear_value lt); on_goal 2 => subst lt)
      | (extract_lets +onlyGivenNames lt; clear_value lt) | split

theorem State.rixFromPort_good {s : State} (q : Nat) (ring : Nat) (f : List Byte) (arr : Nat) (hg : Good may s₀ s)
    (k_sig : may .sig) (k_seqs : may .seqs) (k_rix : may .rix) :
    Good may s₀ (State.rixFromPort s q ring f arr) := by
  unfold State.rixFromPort
  with_reducible repeat' first
      | assumption | apply State.consumeOne_good | apply State.rixInput_good | refine Good.ite ?_ ?_
      | (extract_lets +onlyGivenNames lt; refine (show Good may s₀ lt → _ from fun hlt => ?_) ?_; (on_goal 1 => clear_value lt); on_goal 2 => subst lt)
      | (extract_lets +onlyGivenNames lt; refine (show Good may s₀ lt.1 → _ from fun hlt => ?_) ?_; (on_goal 1 => clear_value lt); on_goal 2 => subst lt)
      | (extract_lets +onlyGivenNames lt; clear_value lt) | split

theorem State.rixLate_good {s : State} (st : Nat) (hg : Good may s₀ s) (k_sig : may .sig) (k_tku : may .tku) (k_rix : may .rix) :
    Good may s₀ (State.rixLate s st) := by
  unfold State.rixLate
  with_reducible repeat' first
      | assumption | apply State.put_good | apply State.bump_good | apply State.lateSlots_good | apply State.untilMono_good | apply State.setRix_good
      | refine Good.ite ?_ ?_
      | (extract_lets +onlyGivenNames lt; refine (show Good may s₀ lt → _ from fun hlt => ?_) ?_; (on_goal 1 => clear_value lt); on_goal 2 => subst lt)
      | (extract_lets +onlyGivenNames lt; refine (show Good may s₀ lt.1 → _ from fun hlt => ?_) ?_; (on_goal 1 => clear_value lt); on_goal 2 => subst lt)
      | (extract_lets +onlyGivenNames lt; clear_value lt) | split

theorem State.rixLoss_good {s : State} (st : Nat) (hg : Good may s₀ s) (k_tku : may .tku) (k_seqs : may .seqs) (k_rix : may .rix) :
    Good may s₀ (State.rixLoss s st) := by
  unfold State.rixLoss
  with_reducible repeat' first
      | assumption | apply State.put_good | apply State.bump_good | apply State.untilMono_good | apply State.triggerErr_good | apply State.setRix_good
      | refine Good.ite ?_ ?_
      | (extract_lets +onlyGivenNames lt; refine (show Good may s₀ lt → _ from fun hlt => ?_) ?_; (on_goal 1 => clear_value lt); on_goal 2 => subst lt)
      | (extract_lets +onlyGivenNames lt; refine (show Good may s₀ lt.1 → _ from fun hlt => ?_) ?_; (on_goal 1 => clear_value lt); on_goal 2 => subst lt)
      | (extract_lets +onlyGivenNames lt; clear_value lt) | split

theorem State.judgeStations_good {s : State} (p0 : List Nat) (hg : Good may s₀ s) (k_tku : may .tku) (k_seqs : may .seqs) (k_rix : may .rix) :
    Good may s₀ (State.judgeStations s p0) := by
  induction p0 generalizing s with
  | nil => unfold State.judgeStations; with_reducible repeat' first
      | assumption | apply State.setRix_good | apply State.rixLoss_good | refine Good.ite ?_ ?_
      | (extract_lets +onlyGivenNames lt; refine (show Good may s₀ lt → _ from fun hlt => ?_) ?_; (on_goal 1 => clear_value lt); on_goal 2 => subst lt)
      | (extract_lets +onlyGivenNames lt; clear_value lt) | split
  | cons hd tl ih => unfold State.judgeStations; with_reducible repeat' first
      | assumption | apply ih | apply State.setRix_good | apply State.rixLoss_good | refine Good.ite ?_ ?_
      | (extract_lets +onlyGivenNames lt; refine (show Good may s₀ lt → _ from fun hlt => ?_) ?_; (on_goal 1 => clear_value lt); on_goal 2 => subst lt)
      | (extract_lets +onlyGivenNames lt; clear_value lt) | split

theorem State.substSlots_good {s : State} (st : Nat) (mode : Nat) (p0 : List (Nat × Nat)) (hg : Good may s₀ s) (k_sig : may .sig) :
    Good may s₀ (State.substSlots s st mode p0) := by
  induction p0 generalizing s st mode with
  | nil => unfold State.substSlots; with_reducible repeat' first
      | assumption | apply State.setSlot_good | refine Good.ite ?_ ?_
      | (extract_lets +onlyGivenNames lt; refine (show Good may s₀ lt → _ from fun hlt => ?_) ?_; (on_goal 1 => clear_value lt); on_goal 2 => subst lt)
      | (extract_lets +onlyGivenNames lt; refine (show Good may s₀ lt.1 → _ from fun hlt => ?_) ?_; (on_goal 1 => clear_value lt); on_goal 2 => subst lt)
      | (extract_lets +onlyGivenNames lt; clear_value lt) | split
  | cons hd tl ih => unfold State.substSlots; with_reducible repeat' first
      | assumption | apply ih | apply State.setSlot_good | refine Good.ite ?_ ?_
      | (extract_lets +onlyGivenNames lt; refine (show Good may s₀ lt → _ from fun hlt => ?_) ?_; (on_goal 1 => clear_value lt); on_goal 2 => subst lt)
      | (extract_lets +onlyGivenNames lt; refine (show Good may s₀ lt.1 → _ from fun hlt => ?_) ?_; (on_goal 1 => clear_value lt); on_goal 2 => subst lt)
      | (extract_lets +onlyGivenNames lt; clear_value lt) | split

theorem State.rixSubst_good {s : State} (st : Nat) (hg : Good may s₀ s) (k_sig : may .sig) (k_rix : may .rix) :
    Good may s₀ (State.rixSubst s st) := by
  unfold State.rixSubst
  with_reducible repeat' first
      | assumption | apply State.setRix_good | apply State.substSlots_good | refine Good.ite ?_ ?_
      | (extract_lets +onlyGivenNames lt; refine (show Good may s₀ lt → _ from fun hlt => ?_) ?_; (on_goal 1 => clear_value lt); on_goal 2 => subst lt)
      | (extract_lets +onlyGivenNames lt; clear_value lt) | refine Good.of_pair ?_ ‹_› | split

theorem State.claims_good {s : State} (cls : Nat) (id : Nat) (p0 : List Nat) (hg : Good may s₀ s) (k_sig : may .sig) :
    Good may s₀ (State.claims s cls id p0) := by
  induction p0 generalizing s cls id with
  | nil => unfold State.claims; with_reducible repeat' first | assumption | apply State.claim_good | refine Good.ite ?_ ?_ | split
  | cons hd tl ih => unfold State.claims; with_reducible repeat' first
      | assumption | apply ih | apply State.claim_good | refine Good.ite ?_ ?_ | split

theorem State.stnEnable_good {s : State} (st : Nat) (hg : Good may s₀ s) (k_sig : may .sig) (k_rix : may .rix) :
    Good may s₀ (State.stnEnable s st) := by
  unfold State.stnEnable
  with_reducible repeat' first
      | assumption | apply State.put_good | apply State.lateSlots_good | apply State.setRix_good | apply State.claims_good | refine Good.ite ?_ ?_
      | (extract_lets +onlyGivenNames lt; refine (show Good may s₀ lt → _ from fun hlt => ?_) ?_; (on_goal 1 => clear_value lt); on_goal 2 => subst lt)
      | (extract_lets +onlyGivenNames lt; refine (show Good may s₀ lt.1 → _ from fun hlt => ?_) ?_; (on_goal 1 => clear_value lt); on_goal 2 => subst lt)
      | (extract_lets +onlyGivenNames lt; clear_value lt) | split

theorem State.stnDisable_good {s : State} (st : Nat) (hg : Good may s₀ s) (k_sig : may .sig) (k_rix : may .rix) :
    Good may s₀ (State.stnDisable s st) := by
  unfold State.stnDisable
  with_reducible repeat' first
      | assumption | apply State.put_good | apply State.freeSlots_good | apply State.setRix_good | refine Good.ite ?_ ?_ | split

theorem State.forceSet_good {s : State} (f : Nat) (m : Nat) (hg : Good may s₀ s) (k_forces : may .forces) :
    Good may s₀ (State.forceSet s f m) := by
  unfold State.forceSet
  with_reducible repeat' first
      | assumption | apply State.put_good | apply State.lost_good | refine Good.ite ?_ ?_
      | (extract_lets +onlyGivenNames lt; refine (show Good may s₀ lt → _ from fun hlt => ?_) ?_; (on_goal 1 => clear_value lt); on_goal 2 => subst lt)
      | (extract_lets +onlyGivenNames lt; refine (show Good may s₀ lt.1 → _ from fun hlt => ?_) ?_; (on_goal 1 => clear_value lt); on_goal 2 => subst lt)
      | (extract_lets +onlyGivenNames lt; clear_value lt) | split
      | (apply Good.u_forces; first | assumption | refine Good.ite ?_ ?_ | refine Good.of_pair ?_ ‹_› | apply State.put_good | apply State.lost_good)

theorem State.forceRemove_good {s : State} (f : Nat) (hg : Good may s₀ s) (k_forces : may .forces) :
    Good may s₀ (State.forceRemove s f) := by
  unfold State.forceRemove
  with_reducible repeat' first
      | assumption | apply State.put_good | refine Good.ite ?_ ?_
      | (extract_lets +onlyGivenNames lt; refine (show Good may s₀ lt → _ from fun hlt => ?_) ?_; (on_goal 1 => clear_value lt); on_goal 2 => subst lt)
      | (extract_lets +onlyGivenNames lt; clear_value lt) | split
      | (apply Good.u_forces; first | assumption | refine Good.ite ?_ ?_ | refine Good.of_pair ?_ ‹_› | apply State.put_good)

theorem State.forceRemoves_good {s : State} (p0 : List Nat) (hg : Good may s₀ s) (k_forces : may .forces) :
    Good may s₀ (State.forceRemoves s p0) := by
  induction p0 generalizing s with
  | nil => unfold State.forceRemoves; with_reducible repeat' first | assumption | apply State.forceRemove_good | refine Good.ite ?_ ?_ | split
  | cons hd tl ih => unfold State.forceRemoves; with_reducible repeat' first
      | assumption | apply ih | apply State.forceRemove_good | refine Good.ite ?_ ?_ | split

theorem State.forceCmd_good {s : State} (v : Nat) (m : Nat) (hg : Good may s₀ s) (k_forces : may .forces) :
    Good may s₀ (State.forceCmd s v m) := by
  unfold State.forceCmd
  with_reducible repeat' first
      | assumption | apply State.forceRemove_good | apply State.forceRemoves_good | apply State.forceSet_good | refine Good.ite ?_ ?_
      | (extract_lets +onlyGivenNames lt; refine (show Good may s₀ lt → _ from fun hlt => ?_) ?_; (on_goal 1 => clear_value lt); on_goal 2 => subst lt)
      | (extract_lets +onlyGivenNames lt; refine (show Good may s₀ lt.1 → _ from fun hlt => ?_) ?_; (on_goal 1 => clear_value lt); on_goal 2 => subst lt)
      | (extract_lets +onlyGivenNames lt; clear_value lt) | split

theorem State.forceAuthSubmit_good {s : State} (m : Nat) (hg : Good may s₀ s) (k_freshCtr : may .freshCtr)
    (k_credFails : may .credFails) (k_credLockTo : may .credLockTo) (k_chalAt : may .chalAt) (k_forceAuth : may .forceAuth) :
    Good may s₀ (State.forceAuthSubmit s m) := by
  unfold State.forceAuthSubmit
  with_reducible repeat' first
      | assumption | apply State.credSubmit_good | refine Good.ite ?_ ?_
      | (extract_lets +onlyGivenNames lt; refine (show Good may s₀ lt → _ from fun hlt => ?_) ?_; (on_goal 1 => clear_value lt); on_goal 2 => subst lt)
      | (extract_lets +onlyGivenNames lt; refine (show Good may s₀ lt.1 → _ from fun hlt => ?_) ?_; (on_goal 1 => clear_value lt); on_goal 2 => subst lt)
      | (extract_lets +onlyGivenNames lt; clear_value lt) | refine Good.of_pair ?_ ‹_› | split
      | (apply Good.u_forceAuth; first | assumption | refine Good.ite ?_ ?_ | refine Good.of_pair ?_ ‹_› | apply State.credSubmit_good)

theorem State.forceAuthEnd_good {s : State} (hg : Good may s₀ s) (k_tku : may .tku) (k_forceAuth : may .forceAuth) :
    Good may s₀ (State.forceAuthEnd s) := by
  unfold State.forceAuthEnd
  with_reducible repeat' first
      | assumption | apply State.untilMono_good | refine Good.ite ?_ ?_
      | (extract_lets +onlyGivenNames lt; refine (show Good may s₀ lt → _ from fun hlt => ?_) ?_; (on_goal 1 => clear_value lt); on_goal 2 => subst lt)
      | (extract_lets +onlyGivenNames lt; clear_value lt) | refine Good.of_pair ?_ ‹_› | split
      | (apply Good.u_forceAuth; first | assumption | refine Good.ite ?_ ?_ | refine Good.of_pair ?_ ‹_› | apply State.untilMono_good)

end Sys2Proof.Machine
end

