-- ==== Sys2Proof/Laws/KeepReset.lean ====
section
/-! SUPPORT. What every operation keeps (`Good`), operation by operation: Sluice, HART, serial, aborts and resets. -/

set_option linter.all false

namespace Sys2Proof.Machine

variable {may : Part → Prop} {s₀ : State}

/-! ### SluiceOps -/

theorem State.sluiceSend_good {s : State} (typ : Nat) (key : Nat) (off : Nat) (payload : List Byte) (hg : Good may s₀ s)
    (k_mem : may .mem) (k_clo : may .clo) (k_ringPosted : may .ringPosted) (k_slu : may .slu) (k_pairs : may .pairs) :
    Good may s₀ (State.sluiceSend s typ key off payload) := by
  unfold State.sluiceSend
  with_reducible repeat' first
      | assumption | apply State.put_good | apply State.bump_good | apply State.ringPost_good | refine Good.ite ?_ ?_
      | (extract_lets +onlyGivenNames lt; refine (show Good may s₀ lt → _ from fun hlt => ?_) ?_; (on_goal 1 => clear_value lt); on_goal 2 => subst lt)
      | (extract_lets +onlyGivenNames lt; refine (show Good may s₀ lt.1 → _ from fun hlt => ?_) ?_; (on_goal 1 => clear_value lt); on_goal 2 => subst lt)
      | (extract_lets +onlyGivenNames lt; clear_value lt) | refine Good.of_pair ?_ ‹_› | split
      | (apply Good.u_slu; first | assumption | refine Good.ite ?_ ?_ | refine Good.of_pair ?_ ‹_› | apply State.put_good | apply State.bump_good | apply State.ringPost_good)

theorem State.sendData_good {s : State} (key : Nat) (p0 : List (Nat × List Byte)) (hg : Good may s₀ s) (k_mem : may .mem)
    (k_clo : may .clo) (k_ringPosted : may .ringPosted) (k_slu : may .slu) (k_pairs : may .pairs) :
    Good may s₀ (State.sendData s key p0) := by
  induction p0 generalizing s key with
  | nil => unfold State.sendData; with_reducible repeat' first | assumption | apply State.sluiceSend_good | refine Good.ite ?_ ?_ | split
  | cons hd tl ih => unfold State.sendData; with_reducible repeat' first
      | assumption | apply ih | apply State.sluiceSend_good | refine Good.ite ?_ ?_ | split

theorem State.noteSent_good {s : State} (key : Nat) (l : List Byte) (hg : Good may s₀ s) (k_slu : may .slu) :
    Good may s₀ (State.noteSent s key l) := by
  unfold State.noteSent
  with_reducible repeat' first
      | assumption | refine Good.ite ?_ ?_
      | (extract_lets +onlyGivenNames lt; refine (show Good may s₀ lt → _ from fun hlt => ?_) ?_; (on_goal 1 => clear_value lt); on_goal 2 => subst lt)
      | (extract_lets +onlyGivenNames lt; clear_value lt) | split
      | (apply Good.u_slu; first | assumption | refine Good.ite ?_ ?_ | refine Good.of_pair ?_ ‹_›)

theorem State.sendDeltas_good {s : State} (p0 : List (Nat × List Byte)) (hg : Good may s₀ s) (k_mem : may .mem) (k_clo : may .clo)
    (k_ringPosted : may .ringPosted) (k_slu : may .slu) (k_pairs : may .pairs) :
    Good may s₀ (State.sendDeltas s p0) := by
  induction p0 generalizing s with
  | nil => unfold State.sendDeltas; with_reducible repeat' first
      | assumption | apply State.noteSent_good | apply State.sendData_good | refine Good.ite ?_ ?_ | split
  | cons hd tl ih => unfold State.sendDeltas; with_reducible repeat' first
      | assumption | apply ih | apply State.noteSent_good | apply State.sendData_good | refine Good.ite ?_ ?_ | split

theorem State.sendBlocks_good {s : State} (p0 : List (Nat × Nat × Nat)) (hg : Good may s₀ s) (k_mem : may .mem) (k_clo : may .clo)
    (k_ringPosted : may .ringPosted) (k_slu : may .slu) (k_pairs : may .pairs) :
    Good may s₀ (State.sendBlocks s p0) := by
  induction p0 generalizing s with
  | nil => unfold State.sendBlocks; with_reducible repeat' first
      | assumption | apply State.noteSent_good | apply State.sendData_good | refine Good.ite ?_ ?_ | split
  | cons hd tl ih => unfold State.sendBlocks; with_reducible repeat' first
      | assumption | apply ih | apply State.noteSent_good | apply State.sendData_good | refine Good.ite ?_ ?_ | split

theorem State.sluiceDelta_good {s : State} (keys : List Nat) (hg : Good may s₀ s) (k_mem : may .mem) (k_clo : may .clo)
    (k_ringPosted : may .ringPosted) (k_slu : may .slu) (k_pairs : may .pairs) :
    Good may s₀ (State.sluiceDelta s keys) := by
  unfold State.sluiceDelta
  with_reducible repeat' first
      | assumption | apply State.sluiceSend_good | apply State.sendBlocks_good | apply State.sendDeltas_good | refine Good.ite ?_ ?_
      | (extract_lets +onlyGivenNames lt; refine (show Good may s₀ lt → _ from fun hlt => ?_) ?_; (on_goal 1 => clear_value lt); on_goal 2 => subst lt)
      | (extract_lets +onlyGivenNames lt; refine (show Good may s₀ lt.1 → _ from fun hlt => ?_) ?_; (on_goal 1 => clear_value lt); on_goal 2 => subst lt)
      | (extract_lets +onlyGivenNames lt; clear_value lt) | split
      | (apply Good.u_slu; first | assumption | refine Good.ite ?_ ?_ | refine Good.of_pair ?_ ‹_› | apply State.sluiceSend_good | apply State.sendBlocks_good | apply State.sendDeltas_good)

theorem State.fullStart_good {s : State} (hg : Good may s₀ s) (k_mem : may .mem) (k_clo : may .clo)
    (k_ringPosted : may .ringPosted) (k_slu : may .slu) (k_pairs : may .pairs) :
    Good may s₀ (State.fullStart s) := by
  unfold State.fullStart
  with_reducible repeat' first
      | assumption | apply State.put_good | apply State.sluiceSend_good | apply State.noteSent_good | apply State.sendData_good
      | refine Good.ite ?_ ?_ | (refine Good.foldl (fun _ _ _ => ?_) ?_)
      | (extract_lets +onlyGivenNames lt; refine (show Good may s₀ lt → _ from fun hlt => ?_) ?_; (on_goal 1 => clear_value lt); on_goal 2 => subst lt)
      | (extract_lets +onlyGivenNames lt; refine (show Good may s₀ lt.1 → _ from fun hlt => ?_) ?_; (on_goal 1 => clear_value lt); on_goal 2 => subst lt)
      | (extract_lets +onlyGivenNames lt; clear_value lt) | split
      | (apply Good.u_slu; first | assumption | refine Good.ite ?_ ?_ | refine Good.of_pair ?_ ‹_› | apply State.put_good | apply State.sluiceSend_good | apply State.noteSent_good | apply State.sendData_good)

theorem State.fullEnd_good {s : State} (hg : Good may s₀ s) (k_mem : may .mem) (k_clo : may .clo) (k_ringPosted : may .ringPosted)
    (k_slu : may .slu) (k_pairs : may .pairs) :
    Good may s₀ (State.fullEnd s) := by
  unfold State.fullEnd
  with_reducible repeat' first
      | assumption | apply State.put_good | apply State.inc_good | apply State.putSat_good | apply State.sluiceSend_good | refine Good.ite ?_ ?_
      | (extract_lets +onlyGivenNames lt; refine (show Good may s₀ lt → _ from fun hlt => ?_) ?_; (on_goal 1 => clear_value lt); on_goal 2 => subst lt)
      | (extract_lets +onlyGivenNames lt; refine (show Good may s₀ lt.1 → _ from fun hlt => ?_) ?_; (on_goal 1 => clear_value lt); on_goal 2 => subst lt)
      | (extract_lets +onlyGivenNames lt; clear_value lt) | split

theorem State.sluiceSecond_good {s : State} (hg : Good may s₀ s) (k_slu : may .slu) :
    Good may s₀ (State.sluiceSecond s) := by
  unfold State.sluiceSecond
  with_reducible repeat' first
      | assumption | apply State.put_good | refine Good.ite ?_ ?_
      | (extract_lets +onlyGivenNames lt; refine (show Good may s₀ lt → _ from fun hlt => ?_) ?_; (on_goal 1 => clear_value lt); on_goal 2 => subst lt)
      | (extract_lets +onlyGivenNames lt; clear_value lt) | split
      | (apply Good.u_slu; first | assumption | refine Good.ite ?_ ?_ | refine Good.of_pair ?_ ‹_› | apply State.put_good)

theorem State.sluiceAbort_good {s : State} (hg : Good may s₀ s) :
    Good may s₀ (State.sluiceAbort s) := by
  unfold State.sluiceAbort
  with_reducible repeat' first | assumption | apply State.put_good | refine Good.ite ?_ ?_ | split

theorem State.followActivation_good {s : State} (p0 : List Nat) (hg : Good may s₀ s) (k_sig : may .sig) (k_forces : may .forces)
    (k_seqs : may .seqs) :
    Good may s₀ (State.followActivation s p0) := by
  induction p0 generalizing s with
  | nil => unfold State.followActivation; with_reducible repeat' first
      | assumption | apply State.activate_good | refine Good.ite ?_ ?_
      | (extract_lets +onlyGivenNames lt; refine (show Good may s₀ lt → _ from fun hlt => ?_) ?_; (on_goal 1 => clear_value lt); on_goal 2 => subst lt)
      | (extract_lets +onlyGivenNames lt; refine (show Good may s₀ lt.1 → _ from fun hlt => ?_) ?_; (on_goal 1 => clear_value lt); on_goal 2 => subst lt)
      | (extract_lets +onlyGivenNames lt; clear_value lt) | refine Good.of_pair ?_ ‹_› | split
  | cons hd tl ih => unfold State.followActivation; with_reducible repeat' first
      | assumption | apply ih | apply State.activate_good | refine Good.ite ?_ ?_
      | (extract_lets +onlyGivenNames lt; refine (show Good may s₀ lt → _ from fun hlt => ?_) ?_; (on_goal 1 => clear_value lt); on_goal 2 => subst lt)
      | (extract_lets +onlyGivenNames lt; refine (show Good may s₀ lt.1 → _ from fun hlt => ?_) ?_; (on_goal 1 => clear_value lt); on_goal 2 => subst lt)
      | (extract_lets +onlyGivenNames lt; clear_value lt) | refine Good.of_pair ?_ ‹_› | split

theorem State.sluiceApply_good {s : State} (typ : Nat) (key : Nat) (q : Nat) (off : Nat) (b : List Byte) (hg : Good may s₀ s)
    (k_mem : may .mem) (k_sig : may .sig) (k_forces : may .forces) (k_clo : may .clo) (k_ringPosted : may .ringPosted)
    (k_seqs : may .seqs) (k_rdc : may .rdc) (k_slu : may .slu) (k_pairs : may .pairs) :
    Good may s₀ (State.sluiceApply s typ key q off b) := by
  unfold State.sluiceApply
  with_reducible repeat' first
      | assumption | apply State.put_good | apply State.inc_good | apply State.trackReady_good | apply State.fullEnd_good
      | apply State.followActivation_good | refine Good.ite ?_ ?_
      | (extract_lets +onlyGivenNames lt; refine (show Good may s₀ lt → _ from fun hlt => ?_) ?_; (on_goal 1 => clear_value lt); on_goal 2 => subst lt)
      | (extract_lets +onlyGivenNames lt; refine (show Good may s₀ lt.1 → _ from fun hlt => ?_) ?_; (on_goal 1 => clear_value lt); on_goal 2 => subst lt)
      | (extract_lets +onlyGivenNames lt; clear_value lt) | refine Good.of_pair ?_ ‹_› | split
      | (apply Good.u_slu; first | assumption | refine Good.ite ?_ ?_ | refine Good.of_pair ?_ ‹_› | apply State.put_good | apply State.inc_good | apply State.trackReady_good | apply State.fullEnd_good | apply State.followActivation_good)
      | (apply Good.u_rdc_slu; first | assumption | refine Good.ite ?_ ?_ | refine Good.of_pair ?_ ‹_› | apply State.put_good | apply State.inc_good | apply State.trackReady_good | apply State.fullEnd_good | apply State.followActivation_good)

theorem State.sluiceTake_good {s : State} (l : List Byte) (hg : Good may s₀ s) (k_mem : may .mem) (k_sig : may .sig)
    (k_forces : may .forces) (k_clo : may .clo) (k_ringPosted : may .ringPosted) (k_seqs : may .seqs) (k_rdc : may .rdc)
    (k_slu : may .slu) (k_pairs : may .pairs) :
    Good may s₀ (State.sluiceTake s l) := by
  unfold State.sluiceTake
  with_reducible repeat' first
      | assumption | apply State.put_good | apply State.bump_good | apply State.fullEnd_good | apply State.sluiceApply_good | refine Good.ite ?_ ?_
      | (extract_lets +onlyGivenNames lt; refine (show Good may s₀ lt → _ from fun hlt => ?_) ?_; (on_goal 1 => clear_value lt); on_goal 2 => subst lt)
      | (extract_lets +onlyGivenNames lt; refine (show Good may s₀ lt.1 → _ from fun hlt => ?_) ?_; (on_goal 1 => clear_value lt); on_goal 2 => subst lt)
      | (extract_lets +onlyGivenNames lt; clear_value lt) | refine Good.of_pair ?_ ‹_› | split
      | (apply Good.u_slu; first | assumption | refine Good.ite ?_ ?_ | refine Good.of_pair ?_ ‹_› | apply State.put_good | apply State.bump_good | apply State.fullEnd_good | apply State.sluiceApply_good)

theorem State.sluiceFromPort_good {s : State} (ring : Nat) (f : List Byte) (hg : Good may s₀ s) (k_mem : may .mem)
    (k_sig : may .sig) (k_forces : may .forces) (k_clo : may .clo) (k_ringPosted : may .ringPosted) (k_seqs : may .seqs)
    (k_rdc : may .rdc) (k_slu : may .slu) (k_pairs : may .pairs) :
    Good may s₀ (State.sluiceFromPort s ring f) := by
  unfold State.sluiceFromPort
  with_reducible repeat' first | assumption | apply State.consumeOne_good | apply State.sluiceTake_good | refine Good.ite ?_ ?_ | split

theorem State.ckptLimit_good {s : State} (hg : Good may s₀ s) (k_tku : may .tku) (k_rdc : may .rdc) :
    Good may s₀ (State.ckptLimit s) := by
  unfold State.ckptLimit
  with_reducible repeat' first
      | assumption | apply State.untilMono_good | apply State.trackReady_good | refine Good.ite ?_ ?_
      | (extract_lets +onlyGivenNames lt; refine (show Good may s₀ lt → _ from fun hlt => ?_) ?_; (on_goal 1 => clear_value lt); on_goal 2 => subst lt)
      | (extract_lets +onlyGivenNames lt; clear_value lt) | refine Good.of_pair ?_ ‹_› | split

theorem State.restoreTask_good {s : State} (q : Nat) (t : Nat) (hg : Good may s₀ s) (k_sig : may .sig) (k_seqs : may .seqs) :
    Good may s₀ (State.restoreTask s q t) := by
  unfold State.restoreTask
  with_reducible repeat' first
      | assumption | apply State.put_good | apply State.post_good | apply State.setSeq_good | refine Good.ite ?_ ?_
      | (refine Good.foldl (fun _ _ _ => ?_) ?_)
      | (extract_lets +onlyGivenNames lt; refine (show Good may s₀ lt → _ from fun hlt => ?_) ?_; (on_goal 1 => clear_value lt); on_goal 2 => subst lt)
      | (extract_lets +onlyGivenNames lt; refine (show Good may s₀ lt.1 → _ from fun hlt => ?_) ?_; (on_goal 1 => clear_value lt); on_goal 2 => subst lt)
      | (extract_lets +onlyGivenNames lt; clear_value lt) | split

theorem State.restoreObjs_good {s : State} (q : Nat) (hg : Good may s₀ s) (k_seqs : may .seqs) :
    Good may s₀ (State.restoreObjs s q) := by
  unfold State.restoreObjs
  with_reducible repeat' first
      | assumption | apply State.setSeq_good | refine Good.ite ?_ ?_ | (refine Good.foldl (fun _ _ _ => ?_) ?_)
      | (extract_lets +onlyGivenNames lt; refine (show Good may s₀ lt → _ from fun hlt => ?_) ?_; (on_goal 1 => clear_value lt); on_goal 2 => subst lt)
      | (extract_lets +onlyGivenNames lt; refine (show Good may s₀ lt.1 → _ from fun hlt => ?_) ?_; (on_goal 1 => clear_value lt); on_goal 2 => subst lt)
      | (extract_lets +onlyGivenNames lt; clear_value lt) | split

theorem State.restoreLoop_good {s : State} (c : Nat) (hg : Good may s₀ s) (k_mem : may .mem) (k_sig : may .sig) (k_loops : may .loops) :
    Good may s₀ (State.restoreLoop s c) := by
  unfold State.restoreLoop
  with_reducible repeat' first
      | assumption | apply State.wr_good | apply State.put_good | apply State.setLoop_good | apply State.setBytes_good | apply State.prime_good
      | refine Good.ite ?_ ?_
      | (extract_lets +onlyGivenNames lt; refine (show Good may s₀ lt → _ from fun hlt => ?_) ?_; (on_goal 1 => clear_value lt); on_goal 2 => subst lt)
      | (extract_lets +onlyGivenNames lt; refine (show Good may s₀ lt.1 → _ from fun hlt => ?_) ?_; (on_goal 1 => clear_value lt); on_goal 2 => subst lt)
      | (extract_lets +onlyGivenNames lt; clear_value lt) | split

theorem State.restoreCas_good {s : State} (k : Nat) (hg : Good may s₀ s) (k_mem : may .mem) (k_cas : may .cas) :
    Good may s₀ (State.restoreCas s k) := by
  unfold State.restoreCas
  with_reducible repeat' first
      | assumption | apply State.casRestore_good | refine Good.ite ?_ ?_
      | (extract_lets +onlyGivenNames lt; refine (show Good may s₀ lt → _ from fun hlt => ?_) ?_; (on_goal 1 => clear_value lt); on_goal 2 => subst lt)
      | (extract_lets +onlyGivenNames lt; refine (show Good may s₀ lt.1 → _ from fun hlt => ?_) ?_; (on_goal 1 => clear_value lt); on_goal 2 => subst lt)
      | (extract_lets +onlyGivenNames lt; clear_value lt) | split

theorem State.restoreForces_good {s : State} (p0 : List Nat) (hg : Good may s₀ s) (k_forces : may .forces) :
    Good may s₀ (State.restoreForces s p0) := by
  induction p0 generalizing s with
  | nil => unfold State.restoreForces; with_reducible repeat' first
      | assumption | apply State.put_good | apply State.putB_good | refine Good.ite ?_ ?_
      | (extract_lets +onlyGivenNames lt; refine (show Good may s₀ lt → _ from fun hlt => ?_) ?_; (on_goal 1 => clear_value lt); on_goal 2 => subst lt)
      | (extract_lets +onlyGivenNames lt; refine (show Good may s₀ lt.1 → _ from fun hlt => ?_) ?_; (on_goal 1 => clear_value lt); on_goal 2 => subst lt)
      | (extract_lets +onlyGivenNames lt; clear_value lt) | split
      | (apply Good.u_forces; first | assumption | refine Good.ite ?_ ?_ | refine Good.of_pair ?_ ‹_› | apply State.put_good | apply State.putB_good)
  | cons hd tl ih => unfold State.restoreForces; with_reducible repeat' first
      | assumption | apply ih | apply State.put_good | apply State.putB_good | refine Good.ite ?_ ?_
      | (extract_lets +onlyGivenNames lt; refine (show Good may s₀ lt → _ from fun hlt => ?_) ?_; (on_goal 1 => clear_value lt); on_goal 2 => subst lt)
      | (extract_lets +onlyGivenNames lt; refine (show Good may s₀ lt.1 → _ from fun hlt => ?_) ?_; (on_goal 1 => clear_value lt); on_goal 2 => subst lt)
      | (extract_lets +onlyGivenNames lt; clear_value lt) | split
      | (apply Good.u_forces; first | assumption | refine Good.ite ?_ ?_ | refine Good.of_pair ?_ ‹_› | apply State.put_good | apply State.putB_good)

theorem State.restoreApp_good {s : State} (p0 : List (Nat × Nat × Nat)) (hg : Good may s₀ s) (k_mem : may .mem) :
    Good may s₀ (State.restoreApp s p0) := by
  induction p0 generalizing s with
  | nil => unfold State.restoreApp; with_reducible repeat' first | assumption | apply State.setBytes_good | refine Good.ite ?_ ?_ | split
  | cons hd tl ih => unfold State.restoreApp; with_reducible repeat' first
      | assumption | apply ih | apply State.setBytes_good | refine Good.ite ?_ ?_ | split

theorem State.restoreDone_good {s : State} (hg : Good may s₀ s) (k_mem : may .mem) (k_sig : may .sig) (k_forces : may .forces)
    (k_seqs : may .seqs) (k_loops : may .loops) (k_cas : may .cas) :
    Good may s₀ (State.restoreDone s) := by
  unfold State.restoreDone
  with_reducible repeat' first
      | assumption | apply State.put_good | apply State.putSat_good | apply State.schedStarts_good | apply State.restoreApp_good
      | apply State.restoreCas_good | apply State.restoreForces_good | apply State.restoreLoop_good | apply State.restoreObjs_good
      | apply State.restoreTask_good | refine Good.ite ?_ ?_ | (refine Good.foldl (fun _ _ _ => ?_) ?_)
      | (extract_lets +onlyGivenNames lt; refine (show Good may s₀ lt → _ from fun hlt => ?_) ?_; (on_goal 1 => clear_value lt); on_goal 2 => subst lt)
      | (extract_lets +onlyGivenNames lt; refine (show Good may s₀ lt.1 → _ from fun hlt => ?_) ?_; (on_goal 1 => clear_value lt); on_goal 2 => subst lt)
      | (extract_lets +onlyGivenNames lt; clear_value lt) | split

/-! ### HartOps -/

theorem State.hartRecord_good {s : State} (ch : Nat) (result : Nat) (tag : Nat) (attempts : Nat) (burst : Bool)
    (at0 : Option Stamp) (frame : List Byte) (hg : Good may s₀ s) (k_freshCtr : may .freshCtr) :
    Good may s₀ (State.hartRecord s ch result tag attempts burst at0 frame).1 := by
  unfold State.hartRecord
  with_reducible repeat' first
      | assumption | apply State.free_good | refine Good.ite ?_ ?_ | refine Good.ite1 ?_ ?_
      | (extract_lets +onlyGivenNames lt; refine (show Good may s₀ lt → _ from fun hlt => ?_) ?_; (on_goal 1 => clear_value lt); on_goal 2 => subst lt)
      | (extract_lets +onlyGivenNames lt; refine (show Good may s₀ lt.1 → _ from fun hlt => ?_) ?_; (on_goal 1 => clear_value lt); on_goal 2 => subst lt)
      | (extract_lets +onlyGivenNames lt; clear_value lt) | refine Good.of_pair ?_ ‹_› | split

theorem State.hartDeliver_good {s : State} (b : Nat) (ch : Nat) (result : Nat) (tag : Nat) (attempts : Nat) (burst : Bool)
    (at0 : Option Stamp) (frame : List Byte) (hg : Good may s₀ s) (k_mem : may .mem) (k_freshCtr : may .freshCtr)
    (k_clo : may .clo) (k_ringPosted : may .ringPosted) (k_pairs : may .pairs) :
    Good may s₀ (State.hartDeliver s b ch result tag attempts burst at0 frame) := by
  unfold State.hartDeliver
  with_reducible repeat' first
      | assumption | apply State.ringPost_good | apply State.hartRecord_good | refine Good.ite ?_ ?_
      | (extract_lets +onlyGivenNames lt; refine (show Good may s₀ lt → _ from fun hlt => ?_) ?_; (on_goal 1 => clear_value lt); on_goal 2 => subst lt)
      | (extract_lets +onlyGivenNames lt; refine (show Good may s₀ lt.1 → _ from fun hlt => ?_) ?_; (on_goal 1 => clear_value lt); on_goal 2 => subst lt)
      | (extract_lets +onlyGivenNames lt; clear_value lt) | refine Good.of_pair ?_ ‹_› | split

theorem State.hartBusy_good {s : State} (ch : Nat) (hg : Good may s₀ s) :
    Good may s₀ (State.hartBusy s ch) := by
  unfold State.hartBusy
  with_reducible repeat' first
      | assumption | apply State.putB_good | apply State.putBit_good | refine Good.ite ?_ ?_
      | (extract_lets +onlyGivenNames lt; refine (show Good may s₀ lt → _ from fun hlt => ?_) ?_; (on_goal 1 => clear_value lt); on_goal 2 => subst lt)
      | (extract_lets +onlyGivenNames lt; refine (show Good may s₀ lt.1 → _ from fun hlt => ?_) ?_; (on_goal 1 => clear_value lt); on_goal 2 => subst lt)
      | (extract_lets +onlyGivenNames lt; clear_value lt) | split

theorem State.hartEnd_good {s : State} (ch : Nat) (result : Nat) (at0 : Option Stamp) (frame : List Byte) (hg : Good may s₀ s)
    (k_mem : may .mem) (k_freshCtr : may .freshCtr) (k_clo : may .clo) (k_ringPosted : may .ringPosted) (k_chans : may .chans)
    (k_pairs : may .pairs) :
    Good may s₀ (State.hartEnd s ch result at0 frame) := by
  unfold State.hartEnd
  with_reducible repeat' first
      | assumption | apply State.bump_good | apply State.setChan_good | apply State.hartBusy_good | apply State.hartDeliver_good
      | refine Good.ite ?_ ?_
      | (extract_lets +onlyGivenNames lt; refine (show Good may s₀ lt → _ from fun hlt => ?_) ?_; (on_goal 1 => clear_value lt); on_goal 2 => subst lt)
      | (extract_lets +onlyGivenNames lt; refine (show Good may s₀ lt.1 → _ from fun hlt => ?_) ?_; (on_goal 1 => clear_value lt); on_goal 2 => subst lt)
      | (extract_lets +onlyGivenNames lt; clear_value lt) | refine Good.of_pair ?_ ‹_› | split

theorem State.hartFail_good {s : State} (ch : Nat) (result : Nat) (at0 : Option Stamp) (hg : Good may s₀ s) (k_mem : may .mem)
    (k_freshCtr : may .freshCtr) (k_clo : may .clo) (k_ringPosted : may .ringPosted) (k_chans : may .chans)
    (k_pairs : may .pairs) :
    Good may s₀ (State.hartFail s ch result at0) := by
  unfold State.hartFail
  with_reducible repeat' first
      | assumption | apply State.bump_good | apply State.setChan_good | apply State.hartEnd_good | refine Good.ite ?_ ?_
      | (extract_lets +onlyGivenNames lt; refine (show Good may s₀ lt → _ from fun hlt => ?_) ?_; (on_goal 1 => clear_value lt); on_goal 2 => subst lt)
      | (extract_lets +onlyGivenNames lt; refine (show Good may s₀ lt.1 → _ from fun hlt => ?_) ?_; (on_goal 1 => clear_value lt); on_goal 2 => subst lt)
      | (extract_lets +onlyGivenNames lt; clear_value lt) | refine Good.of_pair ?_ ‹_› | split

theorem State.hartEndAll_good {s : State} (ch : Nat) (result : Nat) (p0 : Nat) (hg : Good may s₀ s) (k_mem : may .mem)
    (k_freshCtr : may .freshCtr) (k_clo : may .clo) (k_ringPosted : may .ringPosted) (k_chans : may .chans)
    (k_pairs : may .pairs) :
    Good may s₀ (State.hartEndAll s ch result p0) := by
  induction p0 generalizing s ch result with
  | zero => unfold State.hartEndAll; with_reducible repeat' first | assumption | apply State.hartEnd_good | refine Good.ite ?_ ?_ | split
  | succ k ih => unfold State.hartEndAll; with_reducible repeat' first
      | assumption | apply ih | apply State.hartEnd_good | refine Good.ite ?_ ?_ | split

theorem State.hartDrop_good {s : State} (result : Nat) (p0 : List Nat) (hg : Good may s₀ s) (k_mem : may .mem)
    (k_freshCtr : may .freshCtr) (k_clo : may .clo) (k_ringPosted : may .ringPosted) (k_chans : may .chans)
    (k_pairs : may .pairs) :
    Good may s₀ (State.hartDrop s result p0) := by
  induction p0 generalizing s result with
  | nil => unfold State.hartDrop; with_reducible repeat' first | assumption | apply State.hartEndAll_good | refine Good.ite ?_ ?_ | split
  | cons hd tl ih => unfold State.hartDrop; with_reducible repeat' first
      | assumption | apply ih | apply State.hartEndAll_good | refine Good.ite ?_ ?_ | split

theorem State.hartLinks_good {s : State} (old : State) (p0 : List Nat) (hg : Good may s₀ s) (k_mem : may .mem)
    (k_freshCtr : may .freshCtr) (k_clo : may .clo) (k_ringPosted : may .ringPosted) (k_chans : may .chans)
    (k_pairs : may .pairs) :
    Good may s₀ (State.hartLinks s old p0) := by
  induction p0 generalizing s old with
  | nil => unfold State.hartLinks; with_reducible repeat' first | assumption | apply State.hartDrop_good | refine Good.ite ?_ ?_ | split
  | cons hd tl ih => unfold State.hartLinks; with_reducible repeat' first
      | assumption | apply ih | apply State.hartDrop_good | refine Good.ite ?_ ?_ | split

theorem State.hartTake_good {s : State} (b : Nat) (hg : Good may s₀ s) (k_mem : may .mem) (k_freshCtr : may .freshCtr)
    (k_clo : may .clo) (k_ringPosted : may .ringPosted) (k_chans : may .chans) (k_pairs : may .pairs) :
    Good may s₀ (State.hartTake s b) := by
  unfold State.hartTake
  with_reducible repeat' first
      | assumption | apply State.bump_good | apply State.ringDone_good | apply State.setChan_good | apply State.ringRefuse_good
      | apply State.hartBusy_good | apply State.hartDeliver_good | refine Good.ite ?_ ?_
      | (extract_lets +onlyGivenNames lt; refine (show Good may s₀ lt → _ from fun hlt => ?_) ?_; (on_goal 1 => clear_value lt); on_goal 2 => subst lt)
      | (extract_lets +onlyGivenNames lt; refine (show Good may s₀ lt.1 → _ from fun hlt => ?_) ?_; (on_goal 1 => clear_value lt); on_goal 2 => subst lt)
      | (extract_lets +onlyGivenNames lt; clear_value lt) | refine Good.of_pair ?_ ‹_› | split

theorem State.hartTransmit_good {s : State} (ch : Nat) (hg : Good may s₀ s) (k_mem : may .mem) (k_freshCtr : may .freshCtr)
    (k_tku : may .tku) (k_clo : may .clo) (k_ringPosted : may .ringPosted) (k_chans : may .chans) (k_pairs : may .pairs) :
    Good may s₀ (State.hartTransmit s ch) := by
  unfold State.hartTransmit
  with_reducible repeat' first
      | assumption | apply State.untilMono_good | apply State.setChan_good | apply State.hartEnd_good | refine Good.ite ?_ ?_
      | (extract_lets +onlyGivenNames lt; refine (show Good may s₀ lt → _ from fun hlt => ?_) ?_; (on_goal 1 => clear_value lt); on_goal 2 => subst lt)
      | (extract_lets +onlyGivenNames lt; refine (show Good may s₀ lt.1 → _ from fun hlt => ?_) ?_; (on_goal 1 => clear_value lt); on_goal 2 => subst lt)
      | (extract_lets +onlyGivenNames lt; clear_value lt) | refine Good.of_pair ?_ ‹_› | split
      | (apply Good.u_sent; first | assumption | refine Good.ite ?_ ?_ | refine Good.of_pair ?_ ‹_› | apply State.untilMono_good | apply State.setChan_good | apply State.hartEnd_good)

theorem State.hartHeard_good {s : State} (ch : Nat) (hg : Good may s₀ s) (k_chans : may .chans) :
    Good may s₀ (State.hartHeard s ch) := by
  unfold State.hartHeard
  with_reducible repeat' first
      | assumption | apply State.setChan_good | refine Good.ite ?_ ?_
      | (extract_lets +onlyGivenNames lt; refine (show Good may s₀ lt → _ from fun hlt => ?_) ?_; (on_goal 1 => clear_value lt); on_goal 2 => subst lt)
      | (extract_lets +onlyGivenNames lt; clear_value lt) | split

theorem State.hartResponse_good {s : State} (ch : Nat) (ago : Nat) (e : HartErr) (frame : List Byte) (hg : Good may s₀ s)
    (k_mem : may .mem) (k_freshCtr : may .freshCtr) (k_clo : may .clo) (k_ringPosted : may .ringPosted) (k_chans : may .chans)
    (k_pairs : may .pairs) :
    Good may s₀ (State.hartResponse s ch ago e frame) := by
  unfold State.hartResponse
  with_reducible repeat' first
      | assumption | apply State.hartEnd_good | apply State.hartHeard_good | apply State.hartFail_good | refine Good.ite ?_ ?_
      | (extract_lets +onlyGivenNames lt; refine (show Good may s₀ lt → _ from fun hlt => ?_) ?_; (on_goal 1 => clear_value lt); on_goal 2 => subst lt)
      | (extract_lets +onlyGivenNames lt; refine (show Good may s₀ lt.1 → _ from fun hlt => ?_) ?_; (on_goal 1 => clear_value lt); on_goal 2 => subst lt)
      | (extract_lets +onlyGivenNames lt; clear_value lt) | refine Good.of_pair ?_ ‹_› | split

theorem State.hartBurst_good {s : State} (ch : Nat) (ago : Nat) (frame : List Byte) (hg : Good may s₀ s) (k_mem : may .mem)
    (k_freshCtr : may .freshCtr) (k_clo : may .clo) (k_ringPosted : may .ringPosted) (k_chans : may .chans)
    (k_pairs : may .pairs) :
    Good may s₀ (State.hartBurst s ch ago frame) := by
  unfold State.hartBurst
  with_reducible repeat' first
      | assumption | apply State.bump_good | apply State.hartDeliver_good | apply State.hartHeard_good | refine Good.ite ?_ ?_
      | (extract_lets +onlyGivenNames lt; refine (show Good may s₀ lt → _ from fun hlt => ?_) ?_; (on_goal 1 => clear_value lt); on_goal 2 => subst lt)
      | (extract_lets +onlyGivenNames lt; refine (show Good may s₀ lt.1 → _ from fun hlt => ?_) ?_; (on_goal 1 => clear_value lt); on_goal 2 => subst lt)
      | (extract_lets +onlyGivenNames lt; clear_value lt) | split

/-! ### SerOps -/

theorem State.setSer_good {s : State} (n : Nat) (v : SerPort) (hg : Good may s₀ s) (k_sers : may .sers) :
    Good may s₀ (State.setSer s n v) := by
  unfold State.setSer
  with_reducible repeat' first
      | assumption | refine Good.ite ?_ ?_
      | (extract_lets +onlyGivenNames lt; refine (show Good may s₀ lt → _ from fun hlt => ?_) ?_; (on_goal 1 => clear_value lt); on_goal 2 => subst lt)
      | (extract_lets +onlyGivenNames lt; clear_value lt) | split
      | (apply Good.u_sers; first | assumption | refine Good.ite ?_ ?_ | refine Good.of_pair ?_ ‹_›)

theorem State.serStart_good {s : State} (n : Nat) (hg : Good may s₀ s) (k_mem : may .mem) (k_sers : may .sers) :
    Good may s₀ (State.serStart s n) := by
  unfold State.serStart
  with_reducible repeat' first
      | assumption | apply State.setSer_good | apply State.ringRefuse_good | refine Good.ite ?_ ?_
      | (extract_lets +onlyGivenNames lt; refine (show Good may s₀ lt → _ from fun hlt => ?_) ?_; (on_goal 1 => clear_value lt); on_goal 2 => subst lt)
      | (extract_lets +onlyGivenNames lt; refine (show Good may s₀ lt.1 → _ from fun hlt => ?_) ?_; (on_goal 1 => clear_value lt); on_goal 2 => subst lt)
      | (extract_lets +onlyGivenNames lt; clear_value lt) | refine Good.of_pair ?_ ‹_› | split
      | (apply Good.u_sent; first | assumption | refine Good.ite ?_ ?_ | refine Good.of_pair ?_ ‹_› | apply State.setSer_good | apply State.ringRefuse_good)

theorem State.serSent_good {s : State} (n : Nat) (hg : Good may s₀ s) (k_mem : may .mem) (k_sers : may .sers) :
    Good may s₀ (State.serSent s n) := by
  unfold State.serSent
  with_reducible repeat' first
      | assumption | apply State.writeDone_good | apply State.setSer_good | apply State.ringDone_good | refine Good.ite ?_ ?_
      | (extract_lets +onlyGivenNames lt; refine (show Good may s₀ lt → _ from fun hlt => ?_) ?_; (on_goal 1 => clear_value lt); on_goal 2 => subst lt)
      | (extract_lets +onlyGivenNames lt; refine (show Good may s₀ lt.1 → _ from fun hlt => ?_) ?_; (on_goal 1 => clear_value lt); on_goal 2 => subst lt)
      | (extract_lets +onlyGivenNames lt; clear_value lt) | refine Good.of_pair ?_ ‹_› | split

theorem State.serCount_good {s : State} (n : Nat) (status : Nat) (hg : Good may s₀ s) :
    Good may s₀ (State.serCount s n status) := by
  unfold State.serCount
  with_reducible repeat' first
      | assumption | apply State.bump_good | refine Good.ite ?_ ?_
      | (extract_lets +onlyGivenNames lt; refine (show Good may s₀ lt → _ from fun hlt => ?_) ?_; (on_goal 1 => clear_value lt); on_goal 2 => subst lt)
      | (extract_lets +onlyGivenNames lt; refine (show Good may s₀ lt.1 → _ from fun hlt => ?_) ?_; (on_goal 1 => clear_value lt); on_goal 2 => subst lt)
      | (extract_lets +onlyGivenNames lt; clear_value lt) | split

theorem State.serDeliver_good {s : State} (n : Nat) (l : List Byte) (status : Nat) (stamp : Option Stamp) (tag : Nat)
    (hg : Good may s₀ s) (k_mem : may .mem) (k_clo : may .clo) (k_ringPosted : may .ringPosted) (k_pairs : may .pairs) :
    Good may s₀ (State.serDeliver s n l status stamp tag) := by
  unfold State.serDeliver
  with_reducible repeat' first
      | assumption | apply State.bump_good | apply State.inc_good | apply State.ringPost_good | apply State.serCount_good | refine Good.ite ?_ ?_
      | (extract_lets +onlyGivenNames lt; refine (show Good may s₀ lt → _ from fun hlt => ?_) ?_; (on_goal 1 => clear_value lt); on_goal 2 => subst lt)
      | (extract_lets +onlyGivenNames lt; refine (show Good may s₀ lt.1 → _ from fun hlt => ?_) ?_; (on_goal 1 => clear_value lt); on_goal 2 => subst lt)
      | (extract_lets +onlyGivenNames lt; clear_value lt) | refine Good.of_pair ?_ ‹_› | split

theorem State.serRecord_good {s : State} (n : Nat) (l : List Byte) (line : Nat) (stamp : Stamp) (hg : Good may s₀ s)
    (k_mem : may .mem) (k_clo : may .clo) (k_ringPosted : may .ringPosted) (k_pairs : may .pairs) :
    Good may s₀ (State.serRecord s n l line stamp) := by
  unfold State.serRecord
  with_reducible repeat' first
      | assumption | apply State.serDeliver_good | refine Good.ite ?_ ?_
      | (extract_lets +onlyGivenNames lt; refine (show Good may s₀ lt → _ from fun hlt => ?_) ?_; (on_goal 1 => clear_value lt); on_goal 2 => subst lt)
      | (extract_lets +onlyGivenNames lt; clear_value lt) | refine Good.of_pair ?_ ‹_› | split

theorem State.modbusTimeout_good {s : State} (n : Nat) (hg : Good may s₀ s) (k_mem : may .mem) (k_tku : may .tku)
    (k_clo : may .clo) (k_ringPosted : may .ringPosted) (k_sers : may .sers) (k_pairs : may .pairs) :
    Good may s₀ (State.modbusTimeout s n) := by
  unfold State.modbusTimeout
  with_reducible repeat' first
      | assumption | apply State.bump_good | apply State.setSer_good | apply State.consumeOne_good | apply State.untilMono_good
      | apply State.serDeliver_good | refine Good.ite ?_ ?_
      | (extract_lets +onlyGivenNames lt; refine (show Good may s₀ lt → _ from fun hlt => ?_) ?_; (on_goal 1 => clear_value lt); on_goal 2 => subst lt)
      | (extract_lets +onlyGivenNames lt; refine (show Good may s₀ lt.1 → _ from fun hlt => ?_) ?_; (on_goal 1 => clear_value lt); on_goal 2 => subst lt)
      | (extract_lets +onlyGivenNames lt; clear_value lt) | refine Good.of_pair ?_ ‹_› | split

theorem State.modbusFrame_good {s : State} (n : Nat) (l : List Byte) (line : Nat) (gap : Bool) (stamp : Stamp)
    (hg : Good may s₀ s) (k_mem : may .mem) (k_tku : may .tku) (k_clo : may .clo) (k_ringPosted : may .ringPosted)
    (k_sers : may .sers) (k_pairs : may .pairs) :
    Good may s₀ (State.modbusFrame s n l line gap stamp) := by
  unfold State.modbusFrame
  with_reducible repeat' first
      | assumption | apply State.bump_good | apply State.setSer_good | apply State.consumeOne_good | apply State.serDeliver_good
      | apply State.modbusTimeout_good | refine Good.ite ?_ ?_
      | (extract_lets +onlyGivenNames lt; refine (show Good may s₀ lt → _ from fun hlt => ?_) ?_; (on_goal 1 => clear_value lt); on_goal 2 => subst lt)
      | (extract_lets +onlyGivenNames lt; refine (show Good may s₀ lt.1 → _ from fun hlt => ?_) ?_; (on_goal 1 => clear_value lt); on_goal 2 => subst lt)
      | (extract_lets +onlyGivenNames lt; clear_value lt) | refine Good.of_pair ?_ ‹_› | split

theorem State.modbusTurn_good {s : State} (n : Nat) (hg : Good may s₀ s) (k_tku : may .tku) (k_sers : may .sers) :
    Good may s₀ (State.modbusTurn s n) := by
  unfold State.modbusTurn
  with_reducible repeat' first
      | assumption | apply State.setSer_good | apply State.consumeOne_good | apply State.untilMono_good | refine Good.ite ?_ ?_
      | (extract_lets +onlyGivenNames lt; refine (show Good may s₀ lt → _ from fun hlt => ?_) ?_; (on_goal 1 => clear_value lt); on_goal 2 => subst lt)
      | (extract_lets +onlyGivenNames lt; refine (show Good may s₀ lt.1 → _ from fun hlt => ?_) ?_; (on_goal 1 => clear_value lt); on_goal 2 => subst lt)
      | (extract_lets +onlyGivenNames lt; clear_value lt) | refine Good.of_pair ?_ ‹_› | split

theorem State.serEnd_good {s : State} (n : Nat) (hg : Good may s₀ s) (k_mem : may .mem) (k_sers : may .sers) :
    Good may s₀ (State.serEnd s n) := by
  unfold State.serEnd
  with_reducible repeat' first
      | assumption | apply State.writeDone_good | apply State.setSer_good | apply State.consumeOne_good | refine Good.ite ?_ ?_
      | (extract_lets +onlyGivenNames lt; refine (show Good may s₀ lt → _ from fun hlt => ?_) ?_; (on_goal 1 => clear_value lt); on_goal 2 => subst lt)
      | (extract_lets +onlyGivenNames lt; refine (show Good may s₀ lt.1 → _ from fun hlt => ?_) ?_; (on_goal 1 => clear_value lt); on_goal 2 => subst lt)
      | (extract_lets +onlyGivenNames lt; clear_value lt) | split

/-! ### AbortOps -/

theorem State.ringDrop_good {s : State} (r : Nat) (hg : Good may s₀ s) (k_sers : may .sers) :
    Good may s₀ (State.ringDrop s r) := by
  unfold State.ringDrop
  with_reducible repeat' first
      | assumption | apply State.setEth_good | apply State.setSer_good | refine Good.ite ?_ ?_
      | (extract_lets +onlyGivenNames lt; refine (show Good may s₀ lt → _ from fun hlt => ?_) ?_; (on_goal 1 => clear_value lt); on_goal 2 => subst lt)
      | (extract_lets +onlyGivenNames lt; refine (show Good may s₀ lt.1 → _ from fun hlt => ?_) ?_; (on_goal 1 => clear_value lt); on_goal 2 => subst lt)
      | (extract_lets +onlyGivenNames lt; clear_value lt) | split

theorem State.abortEnds_good {s : State} (p : Nat) (u : Nat) (hg : Good may s₀ s) (k_mem : may .mem) (k_sig : may .sig)
    (k_seqs : may .seqs) (k_loops : may .loops) (k_cas : may .cas) (k_sers : may .sers) (k_pnl : may .pnl) :
    Good may s₀ (State.abortEnds s p u) := by
  unfold State.abortEnds
  with_reducible repeat' first
      | assumption | apply State.casAbort_good | apply State.loopAborted_good | apply State.pnlAbort_good | apply State.ringAbort_good
      | apply State.ringDrop_good | apply State.sluiceAbort_good | apply State.sscAbort_good | apply State.taskAbort_good | refine Good.ite ?_ ?_
      | split

theorem State.abortStarts_good {s : State} (p : Nat) (u : Nat) (hg : Good may s₀ s) (k_mem : may .mem) (k_loops : may .loops) :
    Good may s₀ (State.abortStarts s p u) := by
  unfold State.abortStarts
  with_reducible repeat' first
      | assumption | apply State.put_good | apply State.canCancel_good | apply State.canCancelAll_good | apply State.loopAbort_good
      | refine Good.ite ?_ ?_ | split

theorem State.abortDone_good {s : State} (p : Nat) (u : Nat) (since : Nat) (hg : Good may s₀ s) (k_mem : may .mem)
    (k_sig : may .sig) (k_aborts : may .aborts) (k_seqs : may .seqs) (k_loops : may .loops) (k_cas : may .cas)
    (k_sers : may .sers) (k_pnl : may .pnl) :
    Good may s₀ (State.abortDone s p u since) := by
  unfold State.abortDone
  with_reducible repeat' first
      | assumption | apply State.put_good | apply State.abortEnds_good | apply State.putB_good | refine Good.ite ?_ ?_
      | (extract_lets +onlyGivenNames lt; refine (show Good may s₀ lt → _ from fun hlt => ?_) ?_; (on_goal 1 => clear_value lt); on_goal 2 => subst lt)
      | (extract_lets +onlyGivenNames lt; refine (show Good may s₀ lt.1 → _ from fun hlt => ?_) ?_; (on_goal 1 => clear_value lt); on_goal 2 => subst lt)
      | (extract_lets +onlyGivenNames lt; clear_value lt) | split
      | (apply Good.u_aborts; first | assumption | refine Good.ite ?_ ?_ | refine Good.of_pair ?_ ‹_› | apply State.put_good | apply State.abortEnds_good | apply State.putB_good)

theorem State.abort_good {s : State} (r : Nat) (p : Nat) (u : Nat) (hg : Good may s₀ s) (k_mem : may .mem) (k_sig : may .sig)
    (k_aborts : may .aborts) (k_seqs : may .seqs) (k_loops : may .loops) (k_cas : may .cas) (k_sers : may .sers)
    (k_pnl : may .pnl) :
    Good may s₀ (State.abort s r p u) := by
  unfold State.abort
  with_reducible repeat' first
      | assumption | apply State.put_good | apply State.abortDone_good | apply State.abortStarts_good | refine Good.ite ?_ ?_
      | (extract_lets +onlyGivenNames lt; refine (show Good may s₀ lt → _ from fun hlt => ?_) ?_; (on_goal 1 => clear_value lt); on_goal 2 => subst lt)
      | (extract_lets +onlyGivenNames lt; refine (show Good may s₀ lt.1 → _ from fun hlt => ?_) ?_; (on_goal 1 => clear_value lt); on_goal 2 => subst lt)
      | (extract_lets +onlyGivenNames lt; clear_value lt) | split
      | (apply Good.u_aborts; first | assumption | refine Good.ite ?_ ?_ | refine Good.of_pair ?_ ‹_› | apply State.put_good | apply State.abortDone_good | apply State.abortStarts_good)

theorem State.abortAll_good {s : State} (r : Nat) (p : Nat) (hg : Good may s₀ s) (k_mem : may .mem) (k_sig : may .sig)
    (k_aborts : may .aborts) (k_seqs : may .seqs) (k_loops : may .loops) (k_cas : may .cas) (k_sers : may .sers)
    (k_pnl : may .pnl) :
    Good may s₀ (State.abortAll s r p) := by
  unfold State.abortAll
  with_reducible repeat' first | assumption | apply State.abort_good | refine Good.ite ?_ ?_ | (refine Good.foldl (fun _ _ _ => ?_) ?_) | split

theorem State.abortComplete_good {s : State} (p : Nat) (u : Nat) (hg : Good may s₀ s) (k_mem : may .mem) (k_sig : may .sig)
    (k_aborts : may .aborts) (k_seqs : may .seqs) (k_loops : may .loops) (k_cas : may .cas) (k_sers : may .sers)
    (k_pnl : may .pnl) :
    Good may s₀ (State.abortComplete s p u) := by
  unfold State.abortComplete
  with_reducible repeat' first
      | assumption | apply State.abortDone_good | refine Good.ite ?_ ?_
      | (extract_lets +onlyGivenNames lt; refine (show Good may s₀ lt → _ from fun hlt => ?_) ?_; (on_goal 1 => clear_value lt); on_goal 2 => subst lt)
      | (extract_lets +onlyGivenNames lt; clear_value lt) | refine Good.of_pair ?_ ‹_› | split

theorem State.abortLate_good {s : State} (p : Nat) (u : Nat) (hg : Good may s₀ s) (k_tku : may .tku) :
    Good may s₀ (State.abortLate s p u) := by
  unfold State.abortLate
  with_reducible repeat' first
      | assumption | apply State.put_good | apply State.untilMono_good | refine Good.ite ?_ ?_
      | (extract_lets +onlyGivenNames lt; refine (show Good may s₀ lt → _ from fun hlt => ?_) ?_; (on_goal 1 => clear_value lt); on_goal 2 => subst lt)
      | (extract_lets +onlyGivenNames lt; clear_value lt) | refine Good.of_pair ?_ ‹_› | split

theorem State.clearAborted_good {s : State} (old : State) (hg : Good may s₀ s) :
    Good may s₀ (State.clearAborted s old) := by
  unfold State.clearAborted
  with_reducible repeat' first
      | assumption | apply State.put_good | refine Good.ite ?_ ?_ | (refine Good.foldl (fun _ _ _ => ?_) ?_)
      | (extract_lets +onlyGivenNames lt; refine (show Good may s₀ lt → _ from fun hlt => ?_) ?_; (on_goal 1 => clear_value lt); on_goal 2 => subst lt)
      | (extract_lets +onlyGivenNames lt; refine (show Good may s₀ lt.1 → _ from fun hlt => ?_) ?_; (on_goal 1 => clear_value lt); on_goal 2 => subst lt)
      | (extract_lets +onlyGivenNames lt; clear_value lt) | split

theorem State.stopAll_good {s : State} (hg : Good may s₀ s) (k_mem : may .mem) (k_sig : may .sig) (k_aborts : may .aborts)
    (k_pwr : may .pwr) (k_clo : may .clo) (k_seqs : may .seqs) (k_loops : may .loops) (k_cas : may .cas) (k_sers : may .sers)
    (k_rdc : may .rdc) (k_cis : may .cis) (k_pnl : may .pnl) (k_pairs : may .pairs) :
    Good may s₀ (State.stopAll s) := by
  unfold State.stopAll
  with_reducible repeat' first
      | assumption | apply State.put_good | apply State.abortAll_good | apply State.applyR468_good | apply State.cisFlush_good
      | apply State.quietLinks_good | apply State.schedStops_good | refine Good.ite ?_ ?_ | (refine Good.foldl (fun _ _ _ => ?_) ?_)
      | (extract_lets +onlyGivenNames lt; refine (show Good may s₀ lt → _ from fun hlt => ?_) ?_; (on_goal 1 => clear_value lt); on_goal 2 => subst lt)
      | (extract_lets +onlyGivenNames lt; refine (show Good may s₀ lt.1 → _ from fun hlt => ?_) ?_; (on_goal 1 => clear_value lt); on_goal 2 => subst lt)
      | (extract_lets +onlyGivenNames lt; clear_value lt) | split
      | (apply Good.u_pwr_rdc; first | assumption | refine Good.ite ?_ ?_ | refine Good.of_pair ?_ ‹_› | apply State.put_good | apply State.abortAll_good | apply State.applyR468_good | apply State.cisFlush_good | apply State.quietLinks_good | apply State.schedStops_good)

theorem State.safeHold_good {s : State} (c : Nat) (hg : Good may s₀ s) (k_mem : may .mem) (k_sig : may .sig)
    (k_aborts : may .aborts) (k_pwr : may .pwr) (k_clo : may .clo) (k_seqs : may .seqs) (k_loops : may .loops) (k_cas : may .cas)
    (k_sers : may .sers) (k_rdc : may .rdc) (k_cis : may .cis) (k_pnl : may .pnl) (k_pairs : may .pairs) :
    Good may s₀ (State.safeHold s c) := by
  unfold State.safeHold
  with_reducible repeat' first
      | assumption | apply State.put_good | apply State.setMstate_good | apply State.stopAll_good | apply State.trackDuty_good | refine Good.ite ?_ ?_
      | (extract_lets +onlyGivenNames lt; refine (show Good may s₀ lt → _ from fun hlt => ?_) ?_; (on_goal 1 => clear_value lt); on_goal 2 => subst lt)
      | (extract_lets +onlyGivenNames lt; refine (show Good may s₀ lt.1 → _ from fun hlt => ?_) ?_; (on_goal 1 => clear_value lt); on_goal 2 => subst lt)
      | (extract_lets +onlyGivenNames lt; clear_value lt) | split
      | (apply Good.u_pwr; first | assumption | refine Good.ite ?_ ?_ | refine Good.of_pair ?_ ‹_› | apply State.put_good | apply State.setMstate_good | apply State.stopAll_good | apply State.trackDuty_good)

theorem State.halt_good {s : State} (c : Nat) (hg : Good may s₀ s) (k_mem : may .mem) (k_sig : may .sig) (k_aborts : may .aborts)
    (k_pwr : may .pwr) (k_clo : may .clo) (k_seqs : may .seqs) (k_loops : may .loops) (k_cas : may .cas) (k_sers : may .sers)
    (k_rdc : may .rdc) (k_cis : may .cis) (k_pnl : may .pnl) (k_pairs : may .pairs) :
    Good may s₀ (State.halt s c) := by
  unfold State.halt
  with_reducible repeat' first
      | assumption | apply State.put_good | apply State.setMstate_good | apply State.stopAll_good | apply State.trackDuty_good | refine Good.ite ?_ ?_
      | split

theorem State.resetKeep_good {s : State} (mask : Nat → Word) (hg : Good may s₀ s) (ka : ∀ p, may p) : Good may s₀ (s.resetKeep mask) :=
  ⟨hg.1, fun h => ⟨mapWf_map _ (hg.2.1 h).1, mapWf_filter _ (hg.2.1 h).2.1, rfl⟩, fun p hp => absurd (ka p) hp⟩

theorem State.enterBoot_good {s : State} (cause : Nat) (code : Nat) (hg : Good may s₀ s) (ka : ∀ p, may p) :
    Good may s₀ (State.enterBoot s cause code) := by
  unfold State.enterBoot
  with_reducible repeat' first
      | assumption | exact ka _ | apply State.put_good | apply State.wakeDomain_good | apply State.setMstate_good | apply State.applyR468_good
      | apply State.evalSeal_good | apply State.pnlStart_good | apply State.renewChal_good | apply State.resetKeep_good | refine Good.ite ?_ ?_
      | (refine Good.foldl (fun _ _ _ => ?_) ?_)
      | (extract_lets +onlyGivenNames lt; refine (show Good may s₀ lt → _ from fun hlt => ?_) ?_; (on_goal 1 => clear_value lt); on_goal 2 => subst lt)
      | (extract_lets +onlyGivenNames lt; refine (show Good may s₀ lt.1 → _ from fun hlt => ?_) ?_; (on_goal 1 => clear_value lt); on_goal 2 => subst lt)
      | (extract_lets +onlyGivenNames lt; clear_value lt) | split
      | (apply Good.u_pwr; first | assumption | refine Good.ite ?_ ?_ | refine Good.of_pair ?_ ‹_› | apply State.put_good | apply State.wakeDomain_good | apply State.setMstate_good | apply State.applyR468_good | apply State.evalSeal_good | apply State.pnlStart_good | apply State.renewChal_good | apply State.resetKeep_good)

theorem State.enterPowerOn_good {s : State} (brown : Bool) (hg : Good may s₀ s) (ka : ∀ p, may p) :
    Good may s₀ (State.enterPowerOn s brown) := by
  unfold State.enterPowerOn
  with_reducible repeat' first
      | assumption | exact ka _ | apply State.put_good | apply State.resetKeep_good | refine Good.ite ?_ ?_
      | (extract_lets +onlyGivenNames lt; refine (show Good may s₀ lt → _ from fun hlt => ?_) ?_; (on_goal 1 => clear_value lt); on_goal 2 => subst lt)
      | (extract_lets +onlyGivenNames lt; refine (show Good may s₀ lt.1 → _ from fun hlt => ?_) ?_; (on_goal 1 => clear_value lt); on_goal 2 => subst lt)
      | (extract_lets +onlyGivenNames lt; clear_value lt) | split
      | (apply Good.u_tku_pwr_clo; first | assumption | refine Good.ite ?_ ?_ | refine Good.of_pair ?_ ‹_› | apply State.put_good | apply State.resetKeep_good)

end Sys2Proof.Machine
end

