-- ==== Sys2Proof/Laws/KeepPower.lean ====
section
/-! SUPPORT. What every operation keeps (`Good`), operation by operation: the scan of the Gauntlet, power and the machine state. -/

set_option linter.all false

namespace Sys2Proof.Machine

variable {may : Part → Prop} {s₀ : State}

/-! ### GntScan -/

theorem State.setGnt_good {s : State} (g : Gnt) (hg : Good may s₀ s) (k_gnt : may .gnt) :
    Good may s₀ (State.setGnt s g) := by
  unfold State.setGnt
  with_reducible repeat' first
      | assumption | refine Good.ite ?_ ?_
      | (extract_lets +onlyGivenNames lt; refine (show Good may s₀ lt → _ from fun hlt => ?_) ?_; (on_goal 1 => clear_value lt); on_goal 2 => subst lt)
      | (extract_lets +onlyGivenNames lt; clear_value lt) | split
      | (apply Good.u_gnt; first | assumption | refine Good.ite ?_ ?_ | refine Good.of_pair ?_ ‹_›)

theorem State.setGin_good {s : State} (i : Nat) (v : GIn) (hg : Good may s₀ s) (k_gnt : may .gnt) :
    Good may s₀ (State.setGin s i v) := by
  unfold State.setGin
  with_reducible repeat' first
      | assumption | apply State.setGnt_good | refine Good.ite ?_ ?_
      | (extract_lets +onlyGivenNames lt; refine (show Good may s₀ lt → _ from fun hlt => ?_) ?_; (on_goal 1 => clear_value lt); on_goal 2 => subst lt)
      | (extract_lets +onlyGivenNames lt; clear_value lt) | split

theorem State.gntFault_good {s : State} (c : Nat) (hg : Good may s₀ s) (k_mem : may .mem) (k_sig : may .sig)
    (k_aborts : may .aborts) (k_pwr : may .pwr) (k_clo : may .clo) (k_seqs : may .seqs) (k_loops : may .loops) (k_cas : may .cas)
    (k_sers : may .sers) (k_rdc : may .rdc) (k_cis : may .cis) (k_pnl : may .pnl) (k_pairs : may .pairs) :
    Good may s₀ (State.gntFault s c) := by
  unfold State.gntFault
  with_reducible repeat' first
      | assumption | apply State.put_good | apply State.safeHold_good | refine Good.ite ?_ ?_
      | (extract_lets +onlyGivenNames lt; refine (show Good may s₀ lt → _ from fun hlt => ?_) ?_; (on_goal 1 => clear_value lt); on_goal 2 => subst lt)
      | (extract_lets +onlyGivenNames lt; refine (show Good may s₀ lt.1 → _ from fun hlt => ?_) ?_; (on_goal 1 => clear_value lt); on_goal 2 => subst lt)
      | (extract_lets +onlyGivenNames lt; clear_value lt) | split

theorem State.gntSupply_good {s : State} (hg : Good may s₀ s) (k_mem : may .mem) (k_sig : may .sig) (k_aborts : may .aborts)
    (k_pwr : may .pwr) (k_clo : may .clo) (k_seqs : may .seqs) (k_gnt : may .gnt) (k_loops : may .loops) (k_cas : may .cas)
    (k_sers : may .sers) (k_rdc : may .rdc) (k_cis : may .cis) (k_pnl : may .pnl) (k_pairs : may .pairs) :
    Good may s₀ (State.gntSupply s) := by
  unfold State.gntSupply
  with_reducible repeat' first
      | assumption | apply State.put_good | apply State.putBit_good | apply State.safeHold_good | apply State.setGnt_good | refine Good.ite ?_ ?_
      | (extract_lets +onlyGivenNames lt; refine (show Good may s₀ lt → _ from fun hlt => ?_) ?_; (on_goal 1 => clear_value lt); on_goal 2 => subst lt)
      | (extract_lets +onlyGivenNames lt; refine (show Good may s₀ lt.1 → _ from fun hlt => ?_) ?_; (on_goal 1 => clear_value lt); on_goal 2 => subst lt)
      | (extract_lets +onlyGivenNames lt; clear_value lt) | split

theorem State.gntOsc_good {s : State} (khz : Nat) (hg : Good may s₀ s) (k_mem : may .mem) (k_sig : may .sig)
    (k_aborts : may .aborts) (k_pwr : may .pwr) (k_clo : may .clo) (k_seqs : may .seqs) (k_loops : may .loops) (k_cas : may .cas)
    (k_sers : may .sers) (k_rdc : may .rdc) (k_cis : may .cis) (k_pnl : may .pnl) (k_pairs : may .pairs) :
    Good may s₀ (State.gntOsc s khz) := by
  unfold State.gntOsc
  with_reducible repeat' first
      | assumption | apply State.putSat_good | apply State.gntFault_good | refine Good.ite ?_ ?_
      | (extract_lets +onlyGivenNames lt; refine (show Good may s₀ lt → _ from fun hlt => ?_) ?_; (on_goal 1 => clear_value lt); on_goal 2 => subst lt)
      | (extract_lets +onlyGivenNames lt; refine (show Good may s₀ lt.1 → _ from fun hlt => ?_) ?_; (on_goal 1 => clear_value lt); on_goal 2 => subst lt)
      | (extract_lets +onlyGivenNames lt; clear_value lt) | split

theorem State.stest_good {s : State} (i : Nat) (was : Bool) (ok : Bool) (st : Bool) (hg : Good may s₀ s) (k_gnt : may .gnt) :
    Good may s₀ (State.stest s i was ok st) := by
  unfold State.stest
  with_reducible repeat' first
      | assumption | apply State.put_good | apply State.putBit_good | apply State.setGin_good | refine Good.ite ?_ ?_
      | (extract_lets +onlyGivenNames lt; refine (show Good may s₀ lt → _ from fun hlt => ?_) ?_; (on_goal 1 => clear_value lt); on_goal 2 => subst lt)
      | (extract_lets +onlyGivenNames lt; refine (show Good may s₀ lt.1 → _ from fun hlt => ?_) ?_; (on_goal 1 => clear_value lt); on_goal 2 => subst lt)
      | (extract_lets +onlyGivenNames lt; clear_value lt) | split

theorem State.resetFault_good {s : State} (i : Nat) (hg : Good may s₀ s) (k_gnt : may .gnt) :
    Good may s₀ (State.resetFault s i) := by
  unfold State.resetFault
  with_reducible repeat' first
      | assumption | apply State.put_good | apply State.bump_good | apply State.setGin_good | refine Good.ite ?_ ?_
      | (extract_lets +onlyGivenNames lt; refine (show Good may s₀ lt → _ from fun hlt => ?_) ?_; (on_goal 1 => clear_value lt); on_goal 2 => subst lt)
      | (extract_lets +onlyGivenNames lt; refine (show Good may s₀ lt.1 → _ from fun hlt => ?_) ?_; (on_goal 1 => clear_value lt); on_goal 2 => subst lt)
      | (extract_lets +onlyGivenNames lt; clear_value lt) | split

theorem State.resetArm_good {s : State} (i : Nat) (hg : Good may s₀ s) :
    Good may s₀ (State.resetArm s i) := by
  unfold State.resetArm
  with_reducible repeat' first
      | assumption | apply State.put_good | refine Good.ite ?_ ?_
      | (extract_lets +onlyGivenNames lt; refine (show Good may s₀ lt → _ from fun hlt => ?_) ?_; (on_goal 1 => clear_value lt); on_goal 2 => subst lt)
      | (extract_lets +onlyGivenNames lt; clear_value lt) | refine Good.of_pair ?_ ‹_› | split

theorem State.resetStuck_good {s : State} (i : Nat) (hg : Good may s₀ s) (k_gnt : may .gnt) :
    Good may s₀ (State.resetStuck s i) := by
  unfold State.resetStuck
  with_reducible repeat' first
      | assumption | apply State.resetFault_good | refine Good.ite ?_ ?_
      | (extract_lets +onlyGivenNames lt; refine (show Good may s₀ lt → _ from fun hlt => ?_) ?_; (on_goal 1 => clear_value lt); on_goal 2 => subst lt)
      | (extract_lets +onlyGivenNames lt; clear_value lt) | refine Good.of_pair ?_ ‹_› | split

theorem State.resetIn_good {s : State} (i : Nat) (was : Bool) (ok : Bool) (st : Bool) (prev : Bool) (hg : Good may s₀ s) (k_gnt : may .gnt) :
    Good may s₀ (State.resetIn s i was ok st prev).1 := by
  unfold State.resetIn
  with_reducible repeat' first
      | assumption | apply State.put_good | apply State.resetArm_good | apply State.setGin_good | apply State.resetFault_good
      | apply State.resetStuck_good | refine Good.ite ?_ ?_ | refine Good.ite1 ?_ ?_
      | (extract_lets +onlyGivenNames lt; refine (show Good may s₀ lt → _ from fun hlt => ?_) ?_; (on_goal 1 => clear_value lt); on_goal 2 => subst lt)
      | (extract_lets +onlyGivenNames lt; refine (show Good may s₀ lt.1 → _ from fun hlt => ?_) ?_; (on_goal 1 => clear_value lt); on_goal 2 => subst lt)
      | (extract_lets +onlyGivenNames lt; clear_value lt) | refine Good.of_pair ?_ ‹_› | split

theorem State.scanIn_good {s : State} (i : Nat) (hg : Good may s₀ s) (k_gnt : may .gnt) :
    Good may s₀ (State.scanIn s i).1 := by
  unfold State.scanIn
  with_reducible repeat' first
      | assumption | apply State.putB_good | apply State.setGin_good | apply State.resetIn_good | apply State.stest_good | refine Good.ite ?_ ?_
      | refine Good.ite1 ?_ ?_
      | (extract_lets +onlyGivenNames lt; refine (show Good may s₀ lt → _ from fun hlt => ?_) ?_; (on_goal 1 => clear_value lt); on_goal 2 => subst lt)
      | (extract_lets +onlyGivenNames lt; refine (show Good may s₀ lt.1 → _ from fun hlt => ?_) ?_; (on_goal 1 => clear_value lt); on_goal 2 => subst lt)
      | (extract_lets +onlyGivenNames lt; clear_value lt) | split

theorem State.scanIns_good {s : State} (p0 : List Nat) (p1 : List Nat) (hg : Good may s₀ s) (k_gnt : may .gnt) :
    Good may s₀ (State.scanIns s p0 p1).1 := by
  induction p0 generalizing s p1 with
  | nil => unfold State.scanIns; with_reducible repeat' first
      | assumption | apply State.scanIn_good | refine Good.ite ?_ ?_ | refine Good.ite1 ?_ ?_
      | (extract_lets +onlyGivenNames lt; refine (show Good may s₀ lt → _ from fun hlt => ?_) ?_; (on_goal 1 => clear_value lt); on_goal 2 => subst lt)
      | (extract_lets +onlyGivenNames lt; refine (show Good may s₀ lt.1 → _ from fun hlt => ?_) ?_; (on_goal 1 => clear_value lt); on_goal 2 => subst lt)
      | (extract_lets +onlyGivenNames lt; clear_value lt) | refine Good.of_pair ?_ ‹_› | split
  | cons hd tl ih => unfold State.scanIns; with_reducible repeat' first
      | assumption | apply ih | apply State.scanIn_good | refine Good.ite ?_ ?_ | refine Good.ite1 ?_ ?_
      | (extract_lets +onlyGivenNames lt; refine (show Good may s₀ lt → _ from fun hlt => ?_) ?_; (on_goal 1 => clear_value lt); on_goal 2 => subst lt)
      | (extract_lets +onlyGivenNames lt; refine (show Good may s₀ lt.1 → _ from fun hlt => ?_) ?_; (on_goal 1 => clear_value lt); on_goal 2 => subst lt)
      | (extract_lets +onlyGivenNames lt; clear_value lt) | refine Good.of_pair ?_ ‹_› | split

theorem State.discReach_good {s : State} (j : Nat) (g : Nat) (hg : Good may s₀ s) (k_gnt : may .gnt) :
    Good may s₀ (State.discReach s j g) := by
  unfold State.discReach
  with_reducible repeat' first
      | assumption | apply State.put_good | apply State.bump_good | apply State.setGnt_good | refine Good.ite ?_ ?_
      | (extract_lets +onlyGivenNames lt; refine (show Good may s₀ lt → _ from fun hlt => ?_) ?_; (on_goal 1 => clear_value lt); on_goal 2 => subst lt)
      | (extract_lets +onlyGivenNames lt; refine (show Good may s₀ lt.1 → _ from fun hlt => ?_) ?_; (on_goal 1 => clear_value lt); on_goal 2 => subst lt)
      | (extract_lets +onlyGivenNames lt; clear_value lt) | split

theorem State.discCheck_good {s : State} (j : Nat) (g : Nat) (hg : Good may s₀ s) (k_gnt : may .gnt) :
    Good may s₀ (State.discCheck s j g) := by
  unfold State.discCheck
  with_reducible repeat' first
      | assumption | apply State.put_good | apply State.setGnt_good | apply State.discReach_good | refine Good.ite ?_ ?_
      | (extract_lets +onlyGivenNames lt; refine (show Good may s₀ lt → _ from fun hlt => ?_) ?_; (on_goal 1 => clear_value lt); on_goal 2 => subst lt)
      | (extract_lets +onlyGivenNames lt; refine (show Good may s₀ lt.1 → _ from fun hlt => ?_) ?_; (on_goal 1 => clear_value lt); on_goal 2 => subst lt)
      | (extract_lets +onlyGivenNames lt; clear_value lt) | refine Good.of_pair ?_ ‹_› | split

theorem State.scanOut_good {s : State} (hits : List Nat) (j : Nat) (hg : Good may s₀ s) (k_gnt : may .gnt) :
    Good may s₀ (State.scanOut s hits j) := by
  unfold State.scanOut
  with_reducible repeat' first
      | assumption | apply State.putB_good | apply State.putBit_good | apply State.discCheck_good | refine Good.ite ?_ ?_
      | (refine Good.foldl (fun _ _ _ => ?_) ?_)
      | (extract_lets +onlyGivenNames lt; refine (show Good may s₀ lt → _ from fun hlt => ?_) ?_; (on_goal 1 => clear_value lt); on_goal 2 => subst lt)
      | (extract_lets +onlyGivenNames lt; refine (show Good may s₀ lt.1 → _ from fun hlt => ?_) ?_; (on_goal 1 => clear_value lt); on_goal 2 => subst lt)
      | (extract_lets +onlyGivenNames lt; clear_value lt) | split

theorem State.voteExpire_good {s : State} (hg : Good may s₀ s) :
    Good may s₀ (State.voteExpire s) := by
  unfold State.voteExpire
  with_reducible repeat' first
      | assumption | apply State.put_good | apply State.bump_good | apply State.put64_good | refine Good.ite ?_ ?_
      | (extract_lets +onlyGivenNames lt; refine (show Good may s₀ lt → _ from fun hlt => ?_) ?_; (on_goal 1 => clear_value lt); on_goal 2 => subst lt)
      | (extract_lets +onlyGivenNames lt; refine (show Good may s₀ lt.1 → _ from fun hlt => ?_) ?_; (on_goal 1 => clear_value lt); on_goal 2 => subst lt)
      | (extract_lets +onlyGivenNames lt; clear_value lt) | split

theorem State.voteCheck_good {s : State} (hg : Good may s₀ s) :
    Good may s₀ (State.voteCheck s) := by
  unfold State.voteCheck
  with_reducible repeat' first
      | assumption | apply State.voteHold_good | apply State.voteExpire_good | refine Good.ite ?_ ?_
      | (extract_lets +onlyGivenNames lt; refine (show Good may s₀ lt → _ from fun hlt => ?_) ?_; (on_goal 1 => clear_value lt); on_goal 2 => subst lt)
      | (extract_lets +onlyGivenNames lt; refine (show Good may s₀ lt.1 → _ from fun hlt => ?_) ?_; (on_goal 1 => clear_value lt); on_goal 2 => subst lt)
      | (extract_lets +onlyGivenNames lt; clear_value lt) | refine Good.of_pair ?_ ‹_› | split

theorem State.voteLoss_good {s : State} (hg : Good may s₀ s) (k_tku : may .tku) :
    Good may s₀ (State.voteLoss s) := by
  unfold State.voteLoss
  with_reducible repeat' first
      | assumption | apply State.untilMono_good | apply State.voteHold_good | refine Good.ite ?_ ?_
      | (extract_lets +onlyGivenNames lt; refine (show Good may s₀ lt → _ from fun hlt => ?_) ?_; (on_goal 1 => clear_value lt); on_goal 2 => subst lt)
      | (extract_lets +onlyGivenNames lt; clear_value lt) | refine Good.of_pair ?_ ‹_› | split

theorem State.graceEnd_good {s : State} (hg : Good may s₀ s) (k_tku : may .tku) :
    Good may s₀ (State.graceEnd s) := by
  unfold State.graceEnd
  with_reducible repeat' first
      | assumption | apply State.untilMono_good | apply State.voteExpire_good | refine Good.ite ?_ ?_
      | (extract_lets +onlyGivenNames lt; refine (show Good may s₀ lt → _ from fun hlt => ?_) ?_; (on_goal 1 => clear_value lt); on_goal 2 => subst lt)
      | (extract_lets +onlyGivenNames lt; clear_value lt) | refine Good.of_pair ?_ ‹_› | split

theorem State.voteTick_good {s : State} (hg : Good may s₀ s) (k_tku : may .tku) (k_gnt : may .gnt) :
    Good may s₀ (State.voteTick s) := by
  unfold State.voteTick
  with_reducible repeat' first | assumption | apply State.untilMono_good | apply State.voteRepeat_good | refine Good.ite ?_ ?_ | split

theorem State.sendTrips_good {s : State} (hg : Good may s₀ s) (k_gnt : may .gnt) :
    Good may s₀ (State.sendTrips s) := by
  unfold State.sendTrips
  with_reducible repeat' first
      | assumption | refine Good.ite ?_ ?_
      | (extract_lets +onlyGivenNames lt; refine (show Good may s₀ lt → _ from fun hlt => ?_) ?_; (on_goal 1 => clear_value lt); on_goal 2 => subst lt)
      | (extract_lets +onlyGivenNames lt; refine (show Good may s₀ lt.1 → _ from fun hlt => ?_) ?_; (on_goal 1 => clear_value lt); on_goal 2 => subst lt)
      | (extract_lets +onlyGivenNames lt; clear_value lt) | split
      | (apply Good.u_sent_gnt; first | assumption | refine Good.ite ?_ ?_ | refine Good.of_pair ?_ ‹_›)

theorem State.clearPolls_good {s : State} (hg : Good may s₀ s) (k_banks : may .banks) :
    Good may s₀ (State.clearPolls s) := by
  unfold State.clearPolls
  with_reducible repeat' first
      | assumption | apply State.setBank_good | refine Good.ite ?_ ?_ | (refine Good.foldl (fun _ _ _ => ?_) ?_)
      | (extract_lets +onlyGivenNames lt; refine (show Good may s₀ lt → _ from fun hlt => ?_) ?_; (on_goal 1 => clear_value lt); on_goal 2 => subst lt)
      | (extract_lets +onlyGivenNames lt; clear_value lt) | split

theorem State.gntScan_good {s : State} (t : GntTest) (hg : Good may s₀ s) (ka : ∀ p, may p) :
    Good may s₀ (State.gntScan s t) := by
  unfold State.gntScan
  with_reducible repeat' first
      | assumption | exact ka _ | apply State.put_good | apply State.putB_good | apply State.inc_good | apply State.untilMono_good
      | apply State.putSat_good | apply State.bumpBy_good | apply State.clearPolls_good | apply State.setGnt_good | apply State.gntFault_good
      | apply State.scanIns_good | apply State.scanOut_good | apply State.sendTrips_good | apply State.voteCheck_good | refine Good.ite ?_ ?_
      | (refine Good.foldl (fun _ _ _ => ?_) ?_)
      | (extract_lets +onlyGivenNames lt; refine (show Good may s₀ lt → _ from fun hlt => ?_) ?_; (on_goal 1 => clear_value lt); on_goal 2 => subst lt)
      | (extract_lets +onlyGivenNames lt; refine (show Good may s₀ lt.1 → _ from fun hlt => ?_) ?_; (on_goal 1 => clear_value lt); on_goal 2 => subst lt)
      | (extract_lets +onlyGivenNames lt; clear_value lt) | refine Good.of_pair ?_ ‹_› | split

theorem State.showIn_good {s : State} (i : Nat) (hg : Good may s₀ s) :
    Good may s₀ (State.showIn s i) := by
  unfold State.showIn
  with_reducible repeat' first
      | assumption | apply State.put_good | apply State.putBit_good | refine Good.ite ?_ ?_
      | (extract_lets +onlyGivenNames lt; refine (show Good may s₀ lt → _ from fun hlt => ?_) ?_; (on_goal 1 => clear_value lt); on_goal 2 => subst lt)
      | (extract_lets +onlyGivenNames lt; refine (show Good may s₀ lt.1 → _ from fun hlt => ?_) ?_; (on_goal 1 => clear_value lt); on_goal 2 => subst lt)
      | (extract_lets +onlyGivenNames lt; clear_value lt) | split

theorem State.showOut_good {s : State} (j : Nat) (hg : Good may s₀ s) :
    Good may s₀ (State.showOut s j) := by
  unfold State.showOut
  with_reducible repeat' first
      | assumption | apply State.put_good | apply State.putB_good | apply State.putBit_good | refine Good.ite ?_ ?_
      | (extract_lets +onlyGivenNames lt; refine (show Good may s₀ lt → _ from fun hlt => ?_) ?_; (on_goal 1 => clear_value lt); on_goal 2 => subst lt)
      | (extract_lets +onlyGivenNames lt; refine (show Good may s₀ lt.1 → _ from fun hlt => ?_) ?_; (on_goal 1 => clear_value lt); on_goal 2 => subst lt)
      | (extract_lets +onlyGivenNames lt; clear_value lt) | split

theorem State.showCfg_good {s : State} (hg : Good may s₀ s) :
    Good may s₀ (State.showCfg s) := by
  unfold State.showCfg
  with_reducible repeat' first
      | assumption | apply State.put_good | refine Good.ite ?_ ?_
      | (extract_lets +onlyGivenNames lt; refine (show Good may s₀ lt → _ from fun hlt => ?_) ?_; (on_goal 1 => clear_value lt); on_goal 2 => subst lt)
      | (extract_lets +onlyGivenNames lt; refine (show Good may s₀ lt.1 → _ from fun hlt => ?_) ?_; (on_goal 1 => clear_value lt); on_goal 2 => subst lt)
      | (extract_lets +onlyGivenNames lt; clear_value lt) | split

theorem State.cfgIn_good {s : State} (l : List Byte) (i : Nat) (hg : Good may s₀ s) (k_chans : may .chans) :
    Good may s₀ (State.cfgIn s l i) := by
  unfold State.cfgIn
  with_reducible repeat' first
      | assumption | apply State.put_good | apply State.putB_good | apply State.chFresh_good | apply State.setChan_good | refine Good.ite ?_ ?_
      | (extract_lets +onlyGivenNames lt; refine (show Good may s₀ lt → _ from fun hlt => ?_) ?_; (on_goal 1 => clear_value lt); on_goal 2 => subst lt)
      | (extract_lets +onlyGivenNames lt; refine (show Good may s₀ lt.1 → _ from fun hlt => ?_) ?_; (on_goal 1 => clear_value lt); on_goal 2 => subst lt)
      | (extract_lets +onlyGivenNames lt; clear_value lt) | split

theorem State.cfgOut_good {s : State} (l : List Byte) (j : Nat) (hg : Good may s₀ s) :
    Good may s₀ (State.cfgOut s l j) := by
  unfold State.cfgOut
  with_reducible repeat' first
      | assumption | apply State.put_good | refine Good.ite ?_ ?_
      | (extract_lets +onlyGivenNames lt; refine (show Good may s₀ lt → _ from fun hlt => ?_) ?_; (on_goal 1 => clear_value lt); on_goal 2 => subst lt)
      | (extract_lets +onlyGivenNames lt; refine (show Good may s₀ lt.1 → _ from fun hlt => ?_) ?_; (on_goal 1 => clear_value lt); on_goal 2 => subst lt)
      | (extract_lets +onlyGivenNames lt; clear_value lt) | split

theorem State.uncfg_good {s : State} (ch : Nat) (hg : Good may s₀ s) (k_sig : may .sig) (k_chans : may .chans) :
    Good may s₀ (State.uncfg s ch) := by
  unfold State.uncfg
  with_reducible repeat' first
      | assumption | apply State.freeSlot_good | apply State.wr_good | apply State.setChan_good | refine Good.ite ?_ ?_
      | (extract_lets +onlyGivenNames lt; refine (show Good may s₀ lt → _ from fun hlt => ?_) ?_; (on_goal 1 => clear_value lt); on_goal 2 => subst lt)
      | (extract_lets +onlyGivenNames lt; refine (show Good may s₀ lt.1 → _ from fun hlt => ?_) ?_; (on_goal 1 => clear_value lt); on_goal 2 => subst lt)
      | (extract_lets +onlyGivenNames lt; clear_value lt) | split

theorem State.claimDiag_good {s : State} (hg : Good may s₀ s) (k_sig : may .sig) :
    Good may s₀ (State.claimDiag s) := by
  unfold State.claimDiag
  with_reducible repeat' first
      | assumption | apply State.claim_good | refine Good.ite ?_ ?_ | (refine Good.foldl (fun _ _ _ => ?_) ?_)
      | (extract_lets +onlyGivenNames lt; refine (show Good may s₀ lt → _ from fun hlt => ?_) ?_; (on_goal 1 => clear_value lt); on_goal 2 => subst lt)
      | (extract_lets +onlyGivenNames lt; refine (show Good may s₀ lt.1 → _ from fun hlt => ?_) ?_; (on_goal 1 => clear_value lt); on_goal 2 => subst lt)
      | (extract_lets +onlyGivenNames lt; clear_value lt) | split

theorem State.applySet_good {s : State} (old : List Byte) (hg : Good may s₀ s) (k_sig : may .sig) (k_chans : may .chans) :
    Good may s₀ (State.applySet s old) := by
  unfold State.applySet
  with_reducible repeat' first
      | assumption | apply State.cfgIn_good | apply State.cfgOut_good | apply State.claimDiag_good | apply State.uncfg_good | refine Good.ite ?_ ?_
      | (refine Good.foldl (fun _ _ _ => ?_) ?_)
      | (extract_lets +onlyGivenNames lt; refine (show Good may s₀ lt → _ from fun hlt => ?_) ?_; (on_goal 1 => clear_value lt); on_goal 2 => subst lt)
      | (extract_lets +onlyGivenNames lt; refine (show Good may s₀ lt.1 → _ from fun hlt => ?_) ?_; (on_goal 1 => clear_value lt); on_goal 2 => subst lt)
      | (extract_lets +onlyGivenNames lt; clear_value lt) | split

theorem State.gntStart_good {s : State} (hg : Good may s₀ s) (k_sig : may .sig) (k_gnt : may .gnt) :
    Good may s₀ (State.gntStart s) := by
  unfold State.gntStart
  with_reducible repeat' first
      | assumption | apply State.put_good | apply State.claimDiag_good | apply State.showCfg_good | apply State.evalCommissioned_good
      | apply State.setGnt_good | apply State.showIn_good | apply State.showOut_good | refine Good.ite ?_ ?_
      | (refine Good.foldl (fun _ _ _ => ?_) ?_)
      | (extract_lets +onlyGivenNames lt; refine (show Good may s₀ lt → _ from fun hlt => ?_) ?_; (on_goal 1 => clear_value lt); on_goal 2 => subst lt)
      | (extract_lets +onlyGivenNames lt; refine (show Good may s₀ lt.1 → _ from fun hlt => ?_) ?_; (on_goal 1 => clear_value lt); on_goal 2 => subst lt)
      | (extract_lets +onlyGivenNames lt; clear_value lt) | split

theorem State.psetLoad_good {s : State} (v : Nat) (m : Nat) (hg : Good may s₀ s) :
    Good may s₀ (State.psetLoad s v m) := by
  unfold State.psetLoad
  with_reducible repeat' first
      | assumption | apply State.put_good | apply State.lost_good | apply State.badAccess_good | refine Good.ite ?_ ?_
      | (extract_lets +onlyGivenNames lt; refine (show Good may s₀ lt → _ from fun hlt => ?_) ?_; (on_goal 1 => clear_value lt); on_goal 2 => subst lt)
      | (extract_lets +onlyGivenNames lt; refine (show Good may s₀ lt.1 → _ from fun hlt => ?_) ?_; (on_goal 1 => clear_value lt); on_goal 2 => subst lt)
      | (extract_lets +onlyGivenNames lt; clear_value lt) | split

theorem State.psetDone_good {s : State} (hg : Good may s₀ s) (k_sig : may .sig) (k_gnt : may .gnt) (k_chans : may .chans) :
    Good may s₀ (State.psetDone s) := by
  unfold State.psetDone
  with_reducible repeat' first
      | assumption | apply State.put_good | apply State.applySet_good | apply State.showCfg_good | apply State.evalCommissioned_good
      | apply State.setGnt_good | refine Good.ite ?_ ?_
      | (extract_lets +onlyGivenNames lt; refine (show Good may s₀ lt → _ from fun hlt => ?_) ?_; (on_goal 1 => clear_value lt); on_goal 2 => subst lt)
      | (extract_lets +onlyGivenNames lt; refine (show Good may s₀ lt.1 → _ from fun hlt => ?_) ?_; (on_goal 1 => clear_value lt); on_goal 2 => subst lt)
      | (extract_lets +onlyGivenNames lt; clear_value lt) | split

theorem State.commission_good {s : State} (v : Nat) (m : Nat) (hg : Good may s₀ s) (k_freshCtr : may .freshCtr)
    (k_credFails : may .credFails) (k_credLockTo : may .credLockTo) (k_chalAt : may .chalAt) (k_gnt : may .gnt) :
    Good may s₀ (State.commission s v m) := by
  unfold State.commission
  with_reducible repeat' first
      | assumption | apply State.put_good | apply State.lost_good | apply State.put64_good | apply State.credSubmit_good
      | apply State.evalCommissioned_good | refine Good.ite ?_ ?_
      | (extract_lets +onlyGivenNames lt; refine (show Good may s₀ lt → _ from fun hlt => ?_) ?_; (on_goal 1 => clear_value lt); on_goal 2 => subst lt)
      | (extract_lets +onlyGivenNames lt; refine (show Good may s₀ lt.1 → _ from fun hlt => ?_) ?_; (on_goal 1 => clear_value lt); on_goal 2 => subst lt)
      | (extract_lets +onlyGivenNames lt; clear_value lt) | refine Good.of_pair ?_ ‹_› | split
      | (apply Good.u_gnt; first | assumption | refine Good.ite ?_ ?_ | refine Good.of_pair ?_ ‹_› | apply State.put_good | apply State.lost_good | apply State.put64_good | apply State.credSubmit_good | apply State.evalCommissioned_good)

theorem State.credChange_good {s : State} (p : Nat) (m : Nat) (hg : Good may s₀ s) (k_freshCtr : may .freshCtr)
    (k_creds : may .creds) (k_credFails : may .credFails) (k_credLockTo : may .credLockTo) (k_chalAt : may .chalAt) :
    Good may s₀ (State.credChange s p m) := by
  unfold State.credChange
  with_reducible repeat' first
      | assumption | apply State.lost_good | apply State.badAccess_good | apply State.credSubmit_good | refine Good.ite ?_ ?_
      | (extract_lets +onlyGivenNames lt; refine (show Good may s₀ lt → _ from fun hlt => ?_) ?_; (on_goal 1 => clear_value lt); on_goal 2 => subst lt)
      | (extract_lets +onlyGivenNames lt; refine (show Good may s₀ lt.1 → _ from fun hlt => ?_) ?_; (on_goal 1 => clear_value lt); on_goal 2 => subst lt)
      | (extract_lets +onlyGivenNames lt; clear_value lt) | refine Good.of_pair ?_ ‹_› | split
      | (apply Good.u_creds; first | assumption | refine Good.ite ?_ ?_ | refine Good.of_pair ?_ ‹_› | apply State.lost_good | apply State.badAccess_good | apply State.credSubmit_good)

theorem State.lockoutEnd_good {s : State} (p : Nat) (hg : Good may s₀ s) (k_tku : may .tku) :
    Good may s₀ (State.lockoutEnd s p) := by
  unfold State.lockoutEnd
  with_reducible repeat' first | assumption | apply State.untilMono_good | refine Good.ite ?_ ?_ | split

theorem State.sealChange_good {s : State} (addr : Nat) (compat : Bool) (lock : Bool) (hg : Good may s₀ s) (k_dev : may .dev) :
    Good may s₀ (State.sealChange s addr compat lock) := by
  unfold State.sealChange
  with_reducible repeat' first
      | assumption | apply State.put_good | apply State.evalCommissioned_good | refine Good.ite ?_ ?_
      | (extract_lets +onlyGivenNames lt; refine (show Good may s₀ lt → _ from fun hlt => ?_) ?_; (on_goal 1 => clear_value lt); on_goal 2 => subst lt)
      | (extract_lets +onlyGivenNames lt; refine (show Good may s₀ lt.1 → _ from fun hlt => ?_) ?_; (on_goal 1 => clear_value lt); on_goal 2 => subst lt)
      | (extract_lets +onlyGivenNames lt; clear_value lt) | split
      | (apply Good.u_dev; first | assumption | refine Good.ite ?_ ?_ | refine Good.of_pair ?_ ‹_› | apply State.put_good | apply State.evalCommissioned_good)

/-! ### PowerOps -/

theorem State.feedFlags_good {s : State} (hg : Good may s₀ s) :
    Good may s₀ (State.feedFlags s) := by
  unfold State.feedFlags
  with_reducible repeat' first
      | assumption | apply State.putB_good | refine Good.ite ?_ ?_
      | (extract_lets +onlyGivenNames lt; refine (show Good may s₀ lt → _ from fun hlt => ?_) ?_; (on_goal 1 => clear_value lt); on_goal 2 => subst lt)
      | (extract_lets +onlyGivenNames lt; refine (show Good may s₀ lt.1 → _ from fun hlt => ?_) ?_; (on_goal 1 => clear_value lt); on_goal 2 => subst lt)
      | (extract_lets +onlyGivenNames lt; clear_value lt) | split

theorem State.mainsMeas_good {s : State} (vrms : Nat) (freq : Nat) (hg : Good may s₀ s) :
    Good may s₀ (State.mainsMeas s vrms freq) := by
  unfold State.mainsMeas
  with_reducible repeat' first | assumption | apply State.put_good | refine Good.ite ?_ ?_ | split

theorem State.mainsChange_good {s : State} (vrms : Nat) (freq : Nat) (hg : Good may s₀ s) :
    Good may s₀ (State.mainsChange s vrms freq) := by
  unfold State.mainsChange
  with_reducible repeat' first
      | assumption | apply State.put_good | apply State.bump_good | apply State.capAbandon_good | apply State.feedFlags_good
      | apply State.mainsMeas_good | refine Good.ite ?_ ?_
      | (extract_lets +onlyGivenNames lt; refine (show Good may s₀ lt → _ from fun hlt => ?_) ?_; (on_goal 1 => clear_value lt); on_goal 2 => subst lt)
      | (extract_lets +onlyGivenNames lt; refine (show Good may s₀ lt.1 → _ from fun hlt => ?_) ?_; (on_goal 1 => clear_value lt); on_goal 2 => subst lt)
      | (extract_lets +onlyGivenNames lt; clear_value lt) | split

theorem State.auxChange_good {s : State} (mv : Nat) (ma : Nat) (hg : Good may s₀ s) :
    Good may s₀ (State.auxChange s mv ma) := by
  unfold State.auxChange
  with_reducible repeat' first
      | assumption | apply State.put_good | apply State.bump_good | apply State.capAbandon_good | apply State.feedFlags_good | refine Good.ite ?_ ?_
      | (extract_lets +onlyGivenNames lt; refine (show Good may s₀ lt → _ from fun hlt => ?_) ?_; (on_goal 1 => clear_value lt); on_goal 2 => subst lt)
      | (extract_lets +onlyGivenNames lt; refine (show Good may s₀ lt.1 → _ from fun hlt => ?_) ?_; (on_goal 1 => clear_value lt); on_goal 2 => subst lt)
      | (extract_lets +onlyGivenNames lt; clear_value lt) | split

theorem State.pfwAssert_good {s : State} (bulk : Nat) (hg : Good may s₀ s) (k_pwr : may .pwr) (k_clo : may .clo)
    (k_cis : may .cis) (k_pairs : may .pairs) :
    Good may s₀ (State.pfwAssert s bulk) := by
  unfold State.pfwAssert
  with_reducible repeat' first
      | assumption | apply State.put_good | apply State.bump_good | apply State.wakeDomain_good | apply State.cisFlush_good
      | apply State.capAbandon_good | refine Good.ite ?_ ?_ | (refine Good.foldl (fun _ _ _ => ?_) ?_)
      | (extract_lets +onlyGivenNames lt; refine (show Good may s₀ lt → _ from fun hlt => ?_) ?_; (on_goal 1 => clear_value lt); on_goal 2 => subst lt)
      | (extract_lets +onlyGivenNames lt; refine (show Good may s₀ lt.1 → _ from fun hlt => ?_) ?_; (on_goal 1 => clear_value lt); on_goal 2 => subst lt)
      | (extract_lets +onlyGivenNames lt; clear_value lt) | split
      | (apply Good.u_pwr; first | assumption | refine Good.ite ?_ ?_ | refine Good.of_pair ?_ ‹_› | apply State.put_good | apply State.bump_good | apply State.wakeDomain_good | apply State.cisFlush_good | apply State.capAbandon_good)

theorem State.pfwClear_good {s : State} (bulk : Nat) (hg : Good may s₀ s) (k_mpl : may .mpl) :
    Good may s₀ (State.pfwClear s bulk) := by
  unfold State.pfwClear
  with_reducible repeat' first
      | assumption | apply State.put_good | apply State.bump_good | apply State.capPfwClear_good | refine Good.ite ?_ ?_
      | (extract_lets +onlyGivenNames lt; refine (show Good may s₀ lt → _ from fun hlt => ?_) ?_; (on_goal 1 => clear_value lt); on_goal 2 => subst lt)
      | (extract_lets +onlyGivenNames lt; refine (show Good may s₀ lt.1 → _ from fun hlt => ?_) ?_; (on_goal 1 => clear_value lt); on_goal 2 => subst lt)
      | (extract_lets +onlyGivenNames lt; clear_value lt) | split

theorem State.opsKept_good {s : State} (hg : Good may s₀ s) (k_freshCtr : may .freshCtr) :
    Good may s₀ (State.opsKept s).1 := by
  unfold State.opsKept
  with_reducible repeat' first
      | assumption | apply State.free_good | refine Good.ite ?_ ?_ | refine Good.ite1 ?_ ?_
      | (extract_lets +onlyGivenNames lt; refine (show Good may s₀ lt → _ from fun hlt => ?_) ?_; (on_goal 1 => clear_value lt); on_goal 2 => subst lt)
      | (extract_lets +onlyGivenNames lt; refine (show Good may s₀ lt.1 → _ from fun hlt => ?_) ?_; (on_goal 1 => clear_value lt); on_goal 2 => subst lt)
      | (extract_lets +onlyGivenNames lt; clear_value lt) | refine Good.of_pair ?_ ‹_› | split

theorem State.tearComm_good {s : State} (hg : Good may s₀ s) (k_freshCtr : may .freshCtr) :
    Good may s₀ (State.tearComm s) := by
  unfold State.tearComm
  with_reducible repeat' first
      | assumption | apply State.put_good | apply State.put64_good | apply State.free_good | refine Good.ite ?_ ?_
      | (extract_lets +onlyGivenNames lt; refine (show Good may s₀ lt → _ from fun hlt => ?_) ?_; (on_goal 1 => clear_value lt); on_goal 2 => subst lt)
      | (extract_lets +onlyGivenNames lt; refine (show Good may s₀ lt.1 → _ from fun hlt => ?_) ?_; (on_goal 1 => clear_value lt); on_goal 2 => subst lt)
      | (extract_lets +onlyGivenNames lt; clear_value lt) | refine Good.of_pair ?_ ‹_› | split

theorem State.powerDown_good {s : State} (hg : Good may s₀ s) (ka : ∀ p, may p) :
    Good may s₀ (State.powerDown s) := by
  unfold State.powerDown
  with_reducible repeat' first
      | assumption | exact ka _ | apply State.wr_good | apply State.enterPowerOn_good | apply State.opsKept_good | apply State.tearComm_good
      | refine Good.ite ?_ ?_
      | (extract_lets +onlyGivenNames lt; refine (show Good may s₀ lt → _ from fun hlt => ?_) ?_; (on_goal 1 => clear_value lt); on_goal 2 => subst lt)
      | (extract_lets +onlyGivenNames lt; refine (show Good may s₀ lt.1 → _ from fun hlt => ?_) ?_; (on_goal 1 => clear_value lt); on_goal 2 => subst lt)
      | (extract_lets +onlyGivenNames lt; clear_value lt) | refine Good.of_pair ?_ ‹_› | split

theorem State.railFault_good {s : State} (r : Nat) (below : Bool) (hg : Good may s₀ s) (ka : ∀ p, may p) :
    Good may s₀ (State.railFault s r below) := by
  unfold State.railFault
  with_reducible repeat' first
      | assumption | exact ka _ | apply State.putBit_good | apply State.safeHold_good | apply State.gntSupply_good | apply State.powerDown_good
      | refine Good.ite ?_ ?_
      | (extract_lets +onlyGivenNames lt; refine (show Good may s₀ lt → _ from fun hlt => ?_) ?_; (on_goal 1 => clear_value lt); on_goal 2 => subst lt)
      | (extract_lets +onlyGivenNames lt; refine (show Good may s₀ lt.1 → _ from fun hlt => ?_) ?_; (on_goal 1 => clear_value lt); on_goal 2 => subst lt)
      | (extract_lets +onlyGivenNames lt; clear_value lt) | split

theorem State.suppliesGood_good {s : State} (bulk : Nat) (hg : Good may s₀ s) (ka : ∀ p, may p) :
    Good may s₀ (State.suppliesGood s bulk) := by
  unfold State.suppliesGood
  with_reducible repeat' first
      | assumption | exact ka _ | apply State.put_good | apply State.inc_good | apply State.enterBoot_good | refine Good.ite ?_ ?_
      | (extract_lets +onlyGivenNames lt; refine (show Good may s₀ lt → _ from fun hlt => ?_) ?_; (on_goal 1 => clear_value lt); on_goal 2 => subst lt)
      | (extract_lets +onlyGivenNames lt; refine (show Good may s₀ lt.1 → _ from fun hlt => ?_) ?_; (on_goal 1 => clear_value lt); on_goal 2 => subst lt)
      | (extract_lets +onlyGivenNames lt; clear_value lt) | split
      | (apply Good.u_pwr; first | assumption | refine Good.ite ?_ ?_ | refine Good.of_pair ?_ ‹_› | apply State.put_good | apply State.inc_good | apply State.enterBoot_good)

theorem State.tryImage_good {s : State} (n : Nat) (hg : Good may s₀ s) :
    Good may s₀ (State.tryImage s n).1 := by
  unfold State.tryImage
  with_reducible repeat' first
      | assumption | apply State.put_good | refine Good.ite ?_ ?_ | refine Good.ite1 ?_ ?_
      | (extract_lets +onlyGivenNames lt; refine (show Good may s₀ lt → _ from fun hlt => ?_) ?_; (on_goal 1 => clear_value lt); on_goal 2 => subst lt)
      | (extract_lets +onlyGivenNames lt; refine (show Good may s₀ lt.1 → _ from fun hlt => ?_) ?_; (on_goal 1 => clear_value lt); on_goal 2 => subst lt)
      | (extract_lets +onlyGivenNames lt; clear_value lt) | split

theorem State.enterConfig_good {s : State} (n : Nat) (hg : Good may s₀ s) (k_mem : may .mem) (k_sig : may .sig) (k_clo : may .clo)
    (k_ringPosted : may .ringPosted) (k_chans : may .chans) (k_cis : may .cis) (k_mpl : may .mpl) (k_pairs : may .pairs) :
    Good may s₀ (State.enterConfig s n) := by
  unfold State.enterConfig
  with_reducible repeat' first
      | assumption | apply State.put_good | apply State.putB_good | apply State.wakeDomain_good | apply State.wakeHeld_good
      | apply State.setMstate_good | apply State.applySet_good | apply State.cisRestore_good | apply State.mplStart_good | apply State.showCfg_good
      | refine Good.ite ?_ ?_ | (refine Good.foldl (fun _ _ _ => ?_) ?_)
      | (extract_lets +onlyGivenNames lt; refine (show Good may s₀ lt → _ from fun hlt => ?_) ?_; (on_goal 1 => clear_value lt); on_goal 2 => subst lt)
      | (extract_lets +onlyGivenNames lt; refine (show Good may s₀ lt.1 → _ from fun hlt => ?_) ?_; (on_goal 1 => clear_value lt); on_goal 2 => subst lt)
      | (extract_lets +onlyGivenNames lt; clear_value lt) | split

theorem State.appSlots_good {s : State} (p0 : List (Fin 8192 × Fin 8)) (hg : Good may s₀ s) (k_sig : may .sig) :
    Good may s₀ (State.appSlots s p0) := by
  induction p0 generalizing s with
  | nil => unfold State.appSlots; with_reducible repeat' first | assumption | apply State.claim_good | refine Good.ite ?_ ?_ | split
  | cons hd tl ih => unfold State.appSlots; with_reducible repeat' first
      | assumption | apply ih | apply State.claim_good | refine Good.ite ?_ ?_ | split

theorem State.bootDone_good {s : State} (apps : List (Fin 8192 × Fin 8)) (hg : Good may s₀ s) (ka : ∀ p, may p) :
    Good may s₀ (State.bootDone s apps) := by
  unfold State.bootDone
  with_reducible repeat' first
      | assumption | exact ka _ | apply State.put_good | apply State.halt_good | apply State.appSlots_good | apply State.enterConfig_good
      | apply State.tryImage_good | refine Good.ite ?_ ?_
      | (extract_lets +onlyGivenNames lt; refine (show Good may s₀ lt → _ from fun hlt => ?_) ?_; (on_goal 1 => clear_value lt); on_goal 2 => subst lt)
      | (extract_lets +onlyGivenNames lt; refine (show Good may s₀ lt.1 → _ from fun hlt => ?_) ?_; (on_goal 1 => clear_value lt); on_goal 2 => subst lt)
      | (extract_lets +onlyGivenNames lt; clear_value lt) | refine Good.of_pair ?_ ‹_› | split

theorem State.comparatorPassed_good {s : State} (p : Nat) (hg : Good may s₀ s) :
    Good may s₀ (State.comparatorPassed s p) := by
  unfold State.comparatorPassed
  with_reducible repeat' first | assumption | apply State.put_good | apply State.inc_good | refine Good.ite ?_ ?_ | split

theorem State.enterRun_good {s : State} (hg : Good may s₀ s) (k_clo : may .clo) (k_seqs : may .seqs) (k_rdc : may .rdc) (k_pairs : may .pairs) :
    Good may s₀ (State.enterRun s) := by
  unfold State.enterRun
  with_reducible repeat' first
      | assumption | apply State.put_good | apply State.wakeHeld_good | apply State.setMstate_good | apply State.applyR468_good
      | apply State.trackDuty_good | apply State.schedStarts_good | refine Good.ite ?_ ?_
      | (extract_lets +onlyGivenNames lt; refine (show Good may s₀ lt → _ from fun hlt => ?_) ?_; (on_goal 1 => clear_value lt); on_goal 2 => subst lt)
      | (extract_lets +onlyGivenNames lt; refine (show Good may s₀ lt.1 → _ from fun hlt => ?_) ?_; (on_goal 1 => clear_value lt); on_goal 2 => subst lt)
      | (extract_lets +onlyGivenNames lt; clear_value lt) | split

theorem State.startupDone_good {s : State} (r : StartupTest) (hg : Good may s₀ s) (k_mem : may .mem) (k_sig : may .sig)
    (k_aborts : may .aborts) (k_pwr : may .pwr) (k_clo : may .clo) (k_seqs : may .seqs) (k_gnt : may .gnt) (k_loops : may .loops)
    (k_cas : may .cas) (k_sers : may .sers) (k_rdc : may .rdc) (k_cis : may .cis) (k_pnl : may .pnl) (k_pairs : may .pairs) :
    Good may s₀ (State.startupDone s r) := by
  unfold State.startupDone
  with_reducible repeat' first
      | assumption | apply State.put_good | apply State.inc_good | apply State.halt_good | apply State.comparatorPassed_good
      | apply State.enterRun_good | apply State.gntStart_good | refine Good.ite ?_ ?_ | (refine Good.foldl (fun _ _ _ => ?_) ?_)
      | (extract_lets +onlyGivenNames lt; refine (show Good may s₀ lt → _ from fun hlt => ?_) ?_; (on_goal 1 => clear_value lt); on_goal 2 => subst lt)
      | (extract_lets +onlyGivenNames lt; refine (show Good may s₀ lt.1 → _ from fun hlt => ?_) ?_; (on_goal 1 => clear_value lt); on_goal 2 => subst lt)
      | (extract_lets +onlyGivenNames lt; clear_value lt) | refine Good.of_pair ?_ ‹_› | split

theorem State.featCommit_good {s : State} (v : Nat) (m : Nat) (hg : Good may s₀ s) :
    Good may s₀ (State.featCommit s v m) := by
  unfold State.featCommit
  with_reducible repeat' first
      | assumption | apply State.put_good | apply State.putB_good | apply State.lost_good | apply State.badAccess_good | refine Good.ite ?_ ?_
      | (refine Good.foldl (fun _ _ _ => ?_) ?_)
      | (extract_lets +onlyGivenNames lt; refine (show Good may s₀ lt → _ from fun hlt => ?_) ?_; (on_goal 1 => clear_value lt); on_goal 2 => subst lt)
      | (extract_lets +onlyGivenNames lt; refine (show Good may s₀ lt.1 → _ from fun hlt => ?_) ?_; (on_goal 1 => clear_value lt); on_goal 2 => subst lt)
      | (extract_lets +onlyGivenNames lt; clear_value lt) | split

theorem State.restartHandover_good {s : State} (why : Nat) (hg : Good may s₀ s) (k_pwr : may .pwr) (k_rdc : may .rdc) :
    Good may s₀ (State.restartHandover s why) := by
  unfold State.restartHandover
  with_reducible repeat' first
      | assumption | apply State.startHandover_good | refine Good.ite ?_ ?_
      | (extract_lets +onlyGivenNames lt; refine (show Good may s₀ lt → _ from fun hlt => ?_) ?_; (on_goal 1 => clear_value lt); on_goal 2 => subst lt)
      | (extract_lets +onlyGivenNames lt; refine (show Good may s₀ lt.1 → _ from fun hlt => ?_) ?_; (on_goal 1 => clear_value lt); on_goal 2 => subst lt)
      | (extract_lets +onlyGivenNames lt; clear_value lt) | split
      | (apply Good.u_pwr; first | assumption | refine Good.ite ?_ ?_ | refine Good.of_pair ?_ ‹_› | apply State.startHandover_good)

theorem State.stateReq_good {s : State} (v : Nat) (m : Nat) (hg : Good may s₀ s) (ka : ∀ p, may p) :
    Good may s₀ (State.stateReq s v m) := by
  unfold State.stateReq
  with_reducible repeat' first
      | assumption | exact ka _ | apply State.put_good | apply State.lost_good | apply State.badAccess_good | apply State.setMstate_good
      | apply State.applyR468_good | apply State.enterBoot_good | apply State.restartHandover_good | refine Good.ite ?_ ?_
      | (extract_lets +onlyGivenNames lt; refine (show Good may s₀ lt → _ from fun hlt => ?_) ?_; (on_goal 1 => clear_value lt); on_goal 2 => subst lt)
      | (extract_lets +onlyGivenNames lt; refine (show Good may s₀ lt.1 → _ from fun hlt => ?_) ?_; (on_goal 1 => clear_value lt); on_goal 2 => subst lt)
      | (extract_lets +onlyGivenNames lt; clear_value lt) | split

theorem State.imgUpdStart_good {s : State} (v : Nat) (m : Nat) (hg : Good may s₀ s) (k_dev : may .dev) :
    Good may s₀ (State.imgUpdStart s v m) := by
  unfold State.imgUpdStart
  with_reducible repeat' first
      | assumption | apply State.put_good | apply State.lost_good | apply State.badAccess_good | refine Good.ite ?_ ?_
      | (extract_lets +onlyGivenNames lt; refine (show Good may s₀ lt → _ from fun hlt => ?_) ?_; (on_goal 1 => clear_value lt); on_goal 2 => subst lt)
      | (extract_lets +onlyGivenNames lt; refine (show Good may s₀ lt.1 → _ from fun hlt => ?_) ?_; (on_goal 1 => clear_value lt); on_goal 2 => subst lt)
      | (extract_lets +onlyGivenNames lt; clear_value lt) | split
      | (apply Good.u_dev; first | assumption | refine Good.ite ?_ ?_ | refine Good.of_pair ?_ ‹_› | apply State.put_good | apply State.lost_good | apply State.badAccess_good)

theorem State.imgUpdDone_good {s : State} (hg : Good may s₀ s) (k_dev : may .dev) :
    Good may s₀ (State.imgUpdDone s) := by
  unfold State.imgUpdDone
  with_reducible repeat' first
      | assumption | apply State.put_good | refine Good.ite ?_ ?_
      | (extract_lets +onlyGivenNames lt; refine (show Good may s₀ lt → _ from fun hlt => ?_) ?_; (on_goal 1 => clear_value lt); on_goal 2 => subst lt)
      | (extract_lets +onlyGivenNames lt; refine (show Good may s₀ lt.1 → _ from fun hlt => ?_) ?_; (on_goal 1 => clear_value lt); on_goal 2 => subst lt)
      | (extract_lets +onlyGivenNames lt; clear_value lt) | refine Good.of_pair ?_ ‹_› | split
      | (apply Good.u_dev; first | assumption | refine Good.ite ?_ ?_ | refine Good.of_pair ?_ ‹_› | apply State.put_good)

theorem State.bootSelect_good {s : State} (v : Nat) (m : Nat) (hg : Good may s₀ s) :
    Good may s₀ (State.bootSelect s v m) := by
  unfold State.bootSelect
  with_reducible repeat' first | assumption | apply State.put_good | apply State.badAccess_good | refine Good.ite ?_ ?_ | split

theorem State.handoverWon_good {s : State} (hg : Good may s₀ s) (ka : ∀ p, may p) :
    Good may s₀ (State.handoverWon s) := by
  unfold State.handoverWon
  with_reducible repeat' first | assumption | exact ka _ | apply State.enterBoot_good | refine Good.ite ?_ ?_ | split

theorem State.handoverFailed_good {s : State} (hg : Good may s₀ s) (k_pwr : may .pwr) (k_rdc : may .rdc) :
    Good may s₀ (State.handoverFailed s) := by
  unfold State.handoverFailed
  with_reducible repeat' first
      | assumption | apply State.put_good | refine Good.ite ?_ ?_
      | (extract_lets +onlyGivenNames lt; refine (show Good may s₀ lt → _ from fun hlt => ?_) ?_; (on_goal 1 => clear_value lt); on_goal 2 => subst lt)
      | (extract_lets +onlyGivenNames lt; refine (show Good may s₀ lt.1 → _ from fun hlt => ?_) ?_; (on_goal 1 => clear_value lt); on_goal 2 => subst lt)
      | (extract_lets +onlyGivenNames lt; clear_value lt) | split
      | (apply Good.u_pwr_rdc; first | assumption | refine Good.ite ?_ ?_ | refine Good.of_pair ?_ ‹_› | apply State.put_good)

theorem State.handoverTimeout_good {s : State} (hg : Good may s₀ s) (k_tku : may .tku) (k_pwr : may .pwr) (k_rdc : may .rdc) :
    Good may s₀ (State.handoverTimeout s) := by
  unfold State.handoverTimeout
  with_reducible repeat' first
      | assumption | apply State.untilMono_good | apply State.handoverFailed_good | refine Good.ite ?_ ?_
      | (extract_lets +onlyGivenNames lt; refine (show Good may s₀ lt → _ from fun hlt => ?_) ?_; (on_goal 1 => clear_value lt); on_goal 2 => subst lt)
      | (extract_lets +onlyGivenNames lt; clear_value lt) | refine Good.of_pair ?_ ‹_› | split

theorem State.buttonPress_good {s : State} (hg : Good may s₀ s) (k_pwr : may .pwr) :
    Good may s₀ (State.buttonPress s) := by
  unfold State.buttonPress
  with_reducible repeat' first
      | assumption | apply State.put_good | refine Good.ite ?_ ?_
      | (extract_lets +onlyGivenNames lt; refine (show Good may s₀ lt → _ from fun hlt => ?_) ?_; (on_goal 1 => clear_value lt); on_goal 2 => subst lt)
      | (extract_lets +onlyGivenNames lt; clear_value lt) | split
      | (apply Good.u_pwr; first | assumption | refine Good.ite ?_ ?_ | refine Good.of_pair ?_ ‹_› | apply State.put_good)

theorem State.buttonAct_good {s : State} (n : Nat) (hg : Good may s₀ s) (ka : ∀ p, may p) :
    Good may s₀ (State.buttonAct s n) := by
  unfold State.buttonAct
  with_reducible repeat' first
      | assumption | exact ka _ | apply State.put_good | apply State.enterBoot_good | apply State.restartHandover_good | refine Good.ite ?_ ?_ | split

theorem State.buttonStick_good {s : State} (hg : Good may s₀ s) :
    Good may s₀ (State.buttonStick s) := by
  unfold State.buttonStick
  with_reducible repeat' first | assumption | apply State.put_good | refine Good.ite ?_ ?_ | split

theorem State.buttonRelease_good {s : State} (n : Nat) (hg : Good may s₀ s) (ka : ∀ p, may p) :
    Good may s₀ (State.buttonRelease s n) := by
  unfold State.buttonRelease
  with_reducible repeat' first
      | assumption | exact ka _ | apply State.put_good | apply State.untilMono_good | apply State.putSat_good | apply State.buttonAct_good
      | apply State.buttonStick_good | refine Good.ite ?_ ?_
      | (extract_lets +onlyGivenNames lt; refine (show Good may s₀ lt → _ from fun hlt => ?_) ?_; (on_goal 1 => clear_value lt); on_goal 2 => subst lt)
      | (extract_lets +onlyGivenNames lt; refine (show Good may s₀ lt.1 → _ from fun hlt => ?_) ?_; (on_goal 1 => clear_value lt); on_goal 2 => subst lt)
      | (extract_lets +onlyGivenNames lt; clear_value lt) | refine Good.of_pair ?_ ‹_› | split
      | (apply Good.u_pwr; first | assumption | refine Good.ite ?_ ?_ | refine Good.of_pair ?_ ‹_› | apply State.put_good | apply State.untilMono_good | apply State.putSat_good | apply State.buttonAct_good | apply State.buttonStick_good)

theorem State.buttonStuck_good {s : State} (hg : Good may s₀ s) (k_tku : may .tku) :
    Good may s₀ (State.buttonStuck s) := by
  unfold State.buttonStuck
  with_reducible repeat' first
      | assumption | apply State.untilMono_good | apply State.buttonStick_good | refine Good.ite ?_ ?_
      | (extract_lets +onlyGivenNames lt; refine (show Good may s₀ lt → _ from fun hlt => ?_) ?_; (on_goal 1 => clear_value lt); on_goal 2 => subst lt)
      | (extract_lets +onlyGivenNames lt; clear_value lt) | refine Good.of_pair ?_ ‹_› | split

theorem State.buttonRearm_good {s : State} (hg : Good may s₀ s) (k_tku : may .tku) :
    Good may s₀ (State.buttonRearm s) := by
  unfold State.buttonRearm
  with_reducible repeat' first | assumption | apply State.put_good | apply State.untilMono_good | refine Good.ite ?_ ?_ | split

theorem State.autoRestart_good {s : State} (hg : Good may s₀ s) (ka : ∀ p, may p) :
    Good may s₀ (State.autoRestart s) := by
  unfold State.autoRestart
  with_reducible repeat' first
      | assumption | exact ka _ | apply State.untilMono_good | apply State.enterBoot_good | refine Good.ite ?_ ?_
      | (extract_lets +onlyGivenNames lt; refine (show Good may s₀ lt → _ from fun hlt => ?_) ?_; (on_goal 1 => clear_value lt); on_goal 2 => subst lt)
      | (extract_lets +onlyGivenNames lt; refine (show Good may s₀ lt.1 → _ from fun hlt => ?_) ?_; (on_goal 1 => clear_value lt); on_goal 2 => subst lt)
      | (extract_lets +onlyGivenNames lt; clear_value lt) | split
      | (apply Good.u_pwr; first | assumption | refine Good.ite ?_ ?_ | refine Good.of_pair ?_ ‹_› | apply State.untilMono_good | apply State.enterBoot_good)

end Sys2Proof.Machine
end

