-- ==== Sys2Proof/Laws/KeepPairs.lean ====
section
/-! SUPPORT. What every operation keeps (`Good`), operation by operation: the lockstep pairs, the network, waking and enables. -/

set_option linter.all false

namespace Sys2Proof.Machine

variable {may : Part → Prop} {s₀ : State}

/-! ### PairOps -/

theorem State.setPair_good {s : State} (p : Nat) (v : Pair) (hg : Good may s₀ s) (k_pairs : may .pairs) :
    Good may s₀ (State.setPair s p v) := by
  unfold State.setPair
  with_reducible repeat' first
      | assumption | refine Good.ite ?_ ?_
      | (extract_lets +onlyGivenNames lt; refine (show Good may s₀ lt → _ from fun hlt => ?_) ?_; (on_goal 1 => clear_value lt); on_goal 2 => subst lt)
      | (extract_lets +onlyGivenNames lt; clear_value lt) | split
      | (apply Good.u_pairs; first | assumption | refine Good.ite ?_ ?_ | refine Good.of_pair ?_ ‹_›)

theorem State.pairFault_good {s : State} (p : Nat) (kind : Nat) (input : Nat) (pc : Nat) (addr : Nat) (cause : Nat)
    (hg : Good may s₀ s) (k_mem : may .mem) (k_sig : may .sig) (k_aborts : may .aborts) (k_pwr : may .pwr) (k_clo : may .clo)
    (k_seqs : may .seqs) (k_loops : may .loops) (k_cas : may .cas) (k_sers : may .sers) (k_rdc : may .rdc) (k_cis : may .cis)
    (k_pnl : may .pnl) (k_pairs : may .pairs) :
    Good may s₀ (State.pairFault s p kind input pc addr cause) := by
  unfold State.pairFault
  with_reducible repeat' first
      | assumption | apply State.put_good | apply State.put64_good | apply State.safeHold_good | refine Good.ite ?_ ?_
      | (extract_lets +onlyGivenNames lt; refine (show Good may s₀ lt → _ from fun hlt => ?_) ?_; (on_goal 1 => clear_value lt); on_goal 2 => subst lt)
      | (extract_lets +onlyGivenNames lt; refine (show Good may s₀ lt.1 → _ from fun hlt => ?_) ?_; (on_goal 1 => clear_value lt); on_goal 2 => subst lt)
      | (extract_lets +onlyGivenNames lt; clear_value lt) | split

theorem State.lsqFault_good {s : State} (q : Nat) (cause : Nat) (hg : Good may s₀ s) (k_mem : may .mem) (k_sig : may .sig)
    (k_aborts : may .aborts) (k_pwr : may .pwr) (k_clo : may .clo) (k_seqs : may .seqs) (k_loops : may .loops) (k_cas : may .cas)
    (k_sers : may .sers) (k_rdc : may .rdc) (k_cis : may .cis) (k_pnl : may .pnl) (k_pairs : may .pairs) :
    Good may s₀ (State.lsqFault s q cause) := by
  unfold State.lsqFault
  with_reducible repeat' first
      | assumption | apply State.setSeq_good | apply State.safeHold_good | refine Good.ite ?_ ?_
      | (extract_lets +onlyGivenNames lt; refine (show Good may s₀ lt → _ from fun hlt => ?_) ?_; (on_goal 1 => clear_value lt); on_goal 2 => subst lt)
      | (extract_lets +onlyGivenNames lt; clear_value lt) | split

theorem State.mismatch_good {s : State} (u : Nat) (lead : CopyOut) (trail : CopyOut) (pc : Nat) (hg : Good may s₀ s)
    (k_mem : may .mem) (k_sig : may .sig) (k_aborts : may .aborts) (k_pwr : may .pwr) (k_clo : may .clo) (k_seqs : may .seqs)
    (k_loops : may .loops) (k_cas : may .cas) (k_sers : may .sers) (k_rdc : may .rdc) (k_cis : may .cis) (k_pnl : may .pnl)
    (k_pairs : may .pairs) :
    Good may s₀ (State.mismatch s u lead trail pc) := by
  unfold State.mismatch
  with_reducible repeat' first
      | assumption | apply State.pairFault_good | apply State.lsqFault_good | refine Good.ite ?_ ?_
      | (extract_lets +onlyGivenNames lt; refine (show Good may s₀ lt → _ from fun hlt => ?_) ?_; (on_goal 1 => clear_value lt); on_goal 2 => subst lt)
      | (extract_lets +onlyGivenNames lt; refine (show Good may s₀ lt.1 → _ from fun hlt => ?_) ?_; (on_goal 1 => clear_value lt); on_goal 2 => subst lt)
      | (extract_lets +onlyGivenNames lt; clear_value lt) | refine Good.of_pair ?_ ‹_› | split

theorem State.pairTestFails_good {s : State} (p : Nat) (pc : Nat) (hg : Good may s₀ s) (k_mem : may .mem) (k_sig : may .sig)
    (k_aborts : may .aborts) (k_pwr : may .pwr) (k_clo : may .clo) (k_seqs : may .seqs) (k_loops : may .loops) (k_cas : may .cas)
    (k_sers : may .sers) (k_rdc : may .rdc) (k_cis : may .cis) (k_pnl : may .pnl) (k_pairs : may .pairs) :
    Good may s₀ (State.pairTestFails s p pc) := by
  unfold State.pairTestFails
  with_reducible repeat' first
      | assumption | apply State.put_good | apply State.put64_good | apply State.halt_good | apply State.pairFault_good | refine Good.ite ?_ ?_
      | (extract_lets +onlyGivenNames lt; refine (show Good may s₀ lt → _ from fun hlt => ?_) ?_; (on_goal 1 => clear_value lt); on_goal 2 => subst lt)
      | (extract_lets +onlyGivenNames lt; refine (show Good may s₀ lt.1 → _ from fun hlt => ?_) ?_; (on_goal 1 => clear_value lt); on_goal 2 => subst lt)
      | (extract_lets +onlyGivenNames lt; clear_value lt) | split

theorem State.comparatorTest_good {s : State} (u : Nat) (r : LaneTest) (pc : Nat) (hg : Good may s₀ s) (k_mem : may .mem)
    (k_sig : may .sig) (k_aborts : may .aborts) (k_tku : may .tku) (k_pwr : may .pwr) (k_clo : may .clo) (k_seqs : may .seqs)
    (k_loops : may .loops) (k_cas : may .cas) (k_sers : may .sers) (k_rdc : may .rdc) (k_cis : may .cis) (k_pnl : may .pnl)
    (k_pairs : may .pairs) (k_lsqTest : may .lsqTest) :
    Good may s₀ (State.comparatorTest s u r pc) := by
  unfold State.comparatorTest
  with_reducible repeat' first
      | assumption | apply State.setSeq_good | apply State.untilMono_good | apply State.halt_good | apply State.setPair_good
      | apply State.comparatorPassed_good | apply State.lsqFault_good | apply State.pairTestFails_good | refine Good.ite ?_ ?_
      | (extract_lets +onlyGivenNames lt; refine (show Good may s₀ lt → _ from fun hlt => ?_) ?_; (on_goal 1 => clear_value lt); on_goal 2 => subst lt)
      | (extract_lets +onlyGivenNames lt; refine (show Good may s₀ lt.1 → _ from fun hlt => ?_) ?_; (on_goal 1 => clear_value lt); on_goal 2 => subst lt)
      | (extract_lets +onlyGivenNames lt; clear_value lt) | split
      | (apply Good.u_lsqTest; first | assumption | refine Good.ite ?_ ?_ | refine Good.of_pair ?_ ‹_› | apply State.setSeq_good | apply State.untilMono_good | apply State.halt_good | apply State.setPair_good | apply State.comparatorPassed_good | apply State.lsqFault_good | apply State.pairTestFails_good)

theorem State.delayParity_good {s : State} (u : Nat) (pc : Nat) (addr : Nat) (hg : Good may s₀ s) (k_mem : may .mem)
    (k_sig : may .sig) (k_aborts : may .aborts) (k_pwr : may .pwr) (k_clo : may .clo) (k_seqs : may .seqs) (k_loops : may .loops)
    (k_cas : may .cas) (k_sers : may .sers) (k_rdc : may .rdc) (k_cis : may .cis) (k_pnl : may .pnl) (k_pairs : may .pairs) :
    Good may s₀ (State.delayParity s u pc addr) := by
  unfold State.delayParity
  with_reducible repeat' first | assumption | apply State.pairFault_good | apply State.lsqFault_good | refine Good.ite ?_ ?_ | split

theorem State.irqAssert_good {s : State} (page : Nat) (hg : Good may s₀ s) (k_clo : may .clo) (k_pairs : may .pairs) :
    Good may s₀ (State.irqAssert s page) := by
  unfold State.irqAssert
  with_reducible repeat' first | assumption | apply State.wakeDomain_good | refine Good.ite ?_ ?_ | (refine Good.foldl (fun _ _ _ => ?_) ?_) | split

theorem State.mtimecmp_good {s : State} (p : Nat) (second : Bool) (hg : Good may s₀ s) (k_tku : may .tku) (k_clo : may .clo) (k_pairs : may .pairs) :
    Good may s₀ (State.mtimecmp s p second) := by
  unfold State.mtimecmp
  with_reducible repeat' first
      | assumption | apply State.wakeDomain_good | apply State.untilTime_good | refine Good.ite ?_ ?_
      | (extract_lets +onlyGivenNames lt; refine (show Good may s₀ lt → _ from fun hlt => ?_) ?_; (on_goal 1 => clear_value lt); on_goal 2 => subst lt)
      | (extract_lets +onlyGivenNames lt; refine (show Good may s₀ lt.1 → _ from fun hlt => ?_) ?_; (on_goal 1 => clear_value lt); on_goal 2 => subst lt)
      | (extract_lets +onlyGivenNames lt; clear_value lt) | split

theorem State.weirNote_good {s : State} (p : Nat) (i : Nat) (differs : Bool) (hg : Good may s₀ s) (k_pairs : may .pairs) :
    Good may s₀ (State.weirNote s p i differs) := by
  unfold State.weirNote
  with_reducible repeat' first
      | assumption | apply State.put_good | apply State.setPair_good | refine Good.ite ?_ ?_
      | (extract_lets +onlyGivenNames lt; refine (show Good may s₀ lt → _ from fun hlt => ?_) ?_; (on_goal 1 => clear_value lt); on_goal 2 => subst lt)
      | (extract_lets +onlyGivenNames lt; refine (show Good may s₀ lt.1 → _ from fun hlt => ?_) ?_; (on_goal 1 => clear_value lt); on_goal 2 => subst lt)
      | (extract_lets +onlyGivenNames lt; clear_value lt) | split

theorem State.weirBit_good {s : State} (p : Nat) (i : Nat) (sample : Bool) (differs : Bool) (hg : Good may s₀ s) (k_pairs : may .pairs) :
    Good may s₀ (State.weirBit s p i sample differs) := by
  unfold State.weirBit
  with_reducible repeat' first
      | assumption | apply State.bump_good | apply State.setPair_good | apply State.weirNote_good | refine Good.ite ?_ ?_
      | (extract_lets +onlyGivenNames lt; refine (show Good may s₀ lt → _ from fun hlt => ?_) ?_; (on_goal 1 => clear_value lt); on_goal 2 => subst lt)
      | (extract_lets +onlyGivenNames lt; refine (show Good may s₀ lt.1 → _ from fun hlt => ?_) ?_; (on_goal 1 => clear_value lt); on_goal 2 => subst lt)
      | (extract_lets +onlyGivenNames lt; clear_value lt) | split

theorem State.weirVec_good {s : State} (p : Nat) (d0 : BitVec 64) (hg : Good may s₀ s) (k_pairs : may .pairs) :
    Good may s₀ (State.weirVec s p d0) := by
  unfold State.weirVec
  with_reducible repeat' first
      | assumption | apply State.bump_good | apply State.put64_good | apply State.weirNote_good | refine Good.ite ?_ ?_
      | (extract_lets +onlyGivenNames lt; refine (show Good may s₀ lt → _ from fun hlt => ?_) ?_; (on_goal 1 => clear_value lt); on_goal 2 => subst lt)
      | (extract_lets +onlyGivenNames lt; refine (show Good may s₀ lt.1 → _ from fun hlt => ?_) ?_; (on_goal 1 => clear_value lt); on_goal 2 => subst lt)
      | (extract_lets +onlyGivenNames lt; clear_value lt) | split

theorem State.weirTime_good {s : State} (p : Nat) (dt : Nat) (hg : Good may s₀ s) (k_pairs : may .pairs) :
    Good may s₀ (State.weirTime s p dt) := by
  unfold State.weirTime
  with_reducible repeat' first
      | assumption | apply State.bump_good | apply State.weirNote_good | refine Good.ite ?_ ?_
      | (extract_lets +onlyGivenNames lt; refine (show Good may s₀ lt → _ from fun hlt => ?_) ?_; (on_goal 1 => clear_value lt); on_goal 2 => subst lt)
      | (extract_lets +onlyGivenNames lt; refine (show Good may s₀ lt.1 → _ from fun hlt => ?_) ?_; (on_goal 1 => clear_value lt); on_goal 2 => subst lt)
      | (extract_lets +onlyGivenNames lt; clear_value lt) | split

theorem State.weirRead_good {s : State} (p : Nat) (kind : AgreeKind) (hg : Good may s₀ s) (k_pairs : may .pairs) :
    Good may s₀ (State.weirRead s p kind) := by
  unfold State.weirRead
  with_reducible repeat' first
      | assumption | apply State.setPair_good | refine Good.ite ?_ ?_
      | (extract_lets +onlyGivenNames lt; refine (show Good may s₀ lt → _ from fun hlt => ?_) ?_; (on_goal 1 => clear_value lt); on_goal 2 => subst lt)
      | (extract_lets +onlyGivenNames lt; refine (show Good may s₀ lt.1 → _ from fun hlt => ?_) ?_; (on_goal 1 => clear_value lt); on_goal 2 => subst lt)
      | (extract_lets +onlyGivenNames lt; clear_value lt) | refine Good.of_pair ?_ ‹_› | split

theorem State.weirSeen_good {s : State} (p : Nat) (i : Nat) (sampled : Bool) (hg : Good may s₀ s) (k_pairs : may .pairs) :
    Good may s₀ (State.weirSeen s p i sampled) := by
  unfold State.weirSeen
  with_reducible repeat' first
      | assumption | apply State.setPair_good | refine Good.ite ?_ ?_
      | (extract_lets +onlyGivenNames lt; refine (show Good may s₀ lt → _ from fun hlt => ?_) ?_; (on_goal 1 => clear_value lt); on_goal 2 => subst lt)
      | (extract_lets +onlyGivenNames lt; refine (show Good may s₀ lt.1 → _ from fun hlt => ?_) ?_; (on_goal 1 => clear_value lt); on_goal 2 => subst lt)
      | (extract_lets +onlyGivenNames lt; clear_value lt) | split

theorem State.weirTrap_good {s : State} (p : Nat) (i : Nat) (hg : Good may s₀ s) (k_pairs : may .pairs) :
    Good may s₀ (State.weirTrap s p i) := by
  unfold State.weirTrap
  with_reducible repeat' first
      | assumption | apply State.put_good | apply State.setPair_good | refine Good.ite ?_ ?_
      | (extract_lets +onlyGivenNames lt; refine (show Good may s₀ lt → _ from fun hlt => ?_) ?_; (on_goal 1 => clear_value lt); on_goal 2 => subst lt)
      | (extract_lets +onlyGivenNames lt; refine (show Good may s₀ lt.1 → _ from fun hlt => ?_) ?_; (on_goal 1 => clear_value lt); on_goal 2 => subst lt)
      | (extract_lets +onlyGivenNames lt; clear_value lt) | refine Good.of_pair ?_ ‹_› | split

theorem State.weirFault_good {s : State} (p : Nat) (pc : Nat) (hg : Good may s₀ s) (k_mem : may .mem) (k_sig : may .sig)
    (k_aborts : may .aborts) (k_pwr : may .pwr) (k_clo : may .clo) (k_seqs : may .seqs) (k_loops : may .loops) (k_cas : may .cas)
    (k_sers : may .sers) (k_rdc : may .rdc) (k_cis : may .cis) (k_pnl : may .pnl) (k_pairs : may .pairs) :
    Good may s₀ (State.weirFault s p pc) := by
  unfold State.weirFault
  with_reducible repeat' first
      | assumption | apply State.pairFault_good | refine Good.ite ?_ ?_
      | (extract_lets +onlyGivenNames lt; refine (show Good may s₀ lt → _ from fun hlt => ?_) ?_; (on_goal 1 => clear_value lt); on_goal 2 => subst lt)
      | (extract_lets +onlyGivenNames lt; clear_value lt) | refine Good.of_pair ?_ ‹_› | split

theorem State.safetyFaults_good {s : State} (q : Nat) (hg : Good may s₀ s) (k_gnt : may .gnt) :
    Good may s₀ (State.safetyFaults s q) := by
  unfold State.safetyFaults
  with_reducible repeat' first | assumption | apply State.voteFault_good | refine Good.ite ?_ ?_ | (refine Good.foldl (fun _ _ _ => ?_) ?_) | split

theorem State.haltTaken_good {s : State} (p : Nat) (h : Nat) (hg : Good may s₀ s) (k_gnt : may .gnt) (k_pairs : may .pairs) :
    Good may s₀ (State.haltTaken s p h) := by
  unfold State.haltTaken
  with_reducible repeat' first
      | assumption | apply State.put_good | apply State.putBit_good | apply State.safetyFaults_good | apply State.setPair_good | refine Good.ite ?_ ?_
      | (extract_lets +onlyGivenNames lt; refine (show Good may s₀ lt → _ from fun hlt => ?_) ?_; (on_goal 1 => clear_value lt); on_goal 2 => subst lt)
      | (extract_lets +onlyGivenNames lt; refine (show Good may s₀ lt.1 → _ from fun hlt => ?_) ?_; (on_goal 1 => clear_value lt); on_goal 2 => subst lt)
      | (extract_lets +onlyGivenNames lt; clear_value lt) | split

theorem State.debugHalt_good {s : State} (h : Nat) (hg : Good may s₀ s) (k_gnt : may .gnt) (k_pairs : may .pairs) :
    Good may s₀ (State.debugHalt s h) := by
  unfold State.debugHalt
  with_reducible repeat' first
      | assumption | apply State.put_good | apply State.setPair_good | apply State.haltTaken_good | refine Good.ite ?_ ?_
      | (extract_lets +onlyGivenNames lt; refine (show Good may s₀ lt → _ from fun hlt => ?_) ?_; (on_goal 1 => clear_value lt); on_goal 2 => subst lt)
      | (extract_lets +onlyGivenNames lt; refine (show Good may s₀ lt.1 → _ from fun hlt => ?_) ?_; (on_goal 1 => clear_value lt); on_goal 2 => subst lt)
      | (extract_lets +onlyGivenNames lt; clear_value lt) | split

theorem State.agreement_good {s : State} (p : Nat) (kind : AgreeKind) (n : Nat) (pc : Nat) (d0 : BitVec 64) (d1 : Bool)
    (d3 : Bool) (d4 : Bool) (dt : Nat) (ext : Bool) (tim : Bool) (hg : Good may s₀ s) (k_mem : may .mem) (k_sig : may .sig)
    (k_aborts : may .aborts) (k_pwr : may .pwr) (k_clo : may .clo) (k_seqs : may .seqs) (k_gnt : may .gnt) (k_loops : may .loops)
    (k_cas : may .cas) (k_sers : may .sers) (k_rdc : may .rdc) (k_cis : may .cis) (k_pnl : may .pnl) (k_pairs : may .pairs) :
    Good may s₀ (State.agreement s p kind n pc d0 d1 d3 d4 dt ext tim) := by
  unfold State.agreement
  with_reducible repeat' first
      | assumption | apply State.inc_good | apply State.put64_good | apply State.halt_good | apply State.setPair_good | apply State.haltTaken_good
      | apply State.weirBit_good | apply State.weirFault_good | apply State.weirRead_good | apply State.weirSeen_good | apply State.weirTime_good
      | apply State.weirTrap_good | apply State.weirVec_good | refine Good.ite ?_ ?_ | (refine Good.foldl (fun _ _ _ => ?_) ?_)
      | (extract_lets +onlyGivenNames lt; refine (show Good may s₀ lt → _ from fun hlt => ?_) ?_; (on_goal 1 => clear_value lt); on_goal 2 => subst lt)
      | (extract_lets +onlyGivenNames lt; refine (show Good may s₀ lt.1 → _ from fun hlt => ?_) ?_; (on_goal 1 => clear_value lt); on_goal 2 => subst lt)
      | (extract_lets +onlyGivenNames lt; clear_value lt) | refine Good.of_pair ?_ ‹_› | split

theorem State.eccNote_good {s : State} (m : EccMem) (a : Nat) (ue : Bool) (hg : Good may s₀ s) :
    Good may s₀ (State.eccNote s m a ue) := by
  unfold State.eccNote
  with_reducible repeat' first
      | assumption | apply State.put_good | apply State.bump_good | apply State.putB_good | refine Good.ite ?_ ?_
      | (extract_lets +onlyGivenNames lt; refine (show Good may s₀ lt → _ from fun hlt => ?_) ?_; (on_goal 1 => clear_value lt); on_goal 2 => subst lt)
      | (extract_lets +onlyGivenNames lt; refine (show Good may s₀ lt.1 → _ from fun hlt => ?_) ?_; (on_goal 1 => clear_value lt); on_goal 2 => subst lt)
      | (extract_lets +onlyGivenNames lt; clear_value lt) | refine Good.of_pair ?_ ‹_› | split

theorem State.coreFault_good {s : State} (h : Nat) (hg : Good may s₀ s) (k_coreFaults : may .coreFaults) :
    Good may s₀ (State.coreFault s h) := by
  unfold State.coreFault
  with_reducible repeat' first
      | assumption | refine Good.ite ?_ ?_
      | (extract_lets +onlyGivenNames lt; refine (show Good may s₀ lt → _ from fun hlt => ?_) ?_; (on_goal 1 => clear_value lt); on_goal 2 => subst lt)
      | (extract_lets +onlyGivenNames lt; clear_value lt) | split
      | (apply Good.u_coreFaults; first | assumption | refine Good.ite ?_ ?_ | refine Good.of_pair ?_ ‹_›)

theorem State.eccDouble_good {s : State} (m : EccMem) (a : Nat) (who : EccMaster) (pc : Nat) (hg : Good may s₀ s)
    (k_mem : may .mem) (k_sig : may .sig) (k_aborts : may .aborts) (k_resp : may .resp) (k_coreFaults : may .coreFaults)
    (k_pwr : may .pwr) (k_clo : may .clo) (k_seqs : may .seqs) (k_loops : may .loops) (k_cas : may .cas) (k_sers : may .sers)
    (k_rdc : may .rdc) (k_cis : may .cis) (k_pnl : may .pnl) (k_pairs : may .pairs) :
    Good may s₀ (State.eccDouble s m a who pc) := by
  unfold State.eccDouble
  with_reducible repeat' first
      | assumption | apply State.put_good | apply State.pairFault_good | apply State.coreFault_good | apply State.eccNote_good | refine Good.ite ?_ ?_
      | (extract_lets +onlyGivenNames lt; refine (show Good may s₀ lt → _ from fun hlt => ?_) ?_; (on_goal 1 => clear_value lt); on_goal 2 => subst lt)
      | (extract_lets +onlyGivenNames lt; refine (show Good may s₀ lt.1 → _ from fun hlt => ?_) ?_; (on_goal 1 => clear_value lt); on_goal 2 => subst lt)
      | (extract_lets +onlyGivenNames lt; clear_value lt) | refine Good.of_pair ?_ ‹_› | split
      | (apply Good.u_resp; first | assumption | refine Good.ite ?_ ?_ | refine Good.of_pair ?_ ‹_› | apply State.put_good | apply State.pairFault_good | apply State.coreFault_good | apply State.eccNote_good)

theorem State.scrubStep_good {s : State} (m : EccMem) (o : Nat) (hg : Good may s₀ s) (k_scrubs : may .scrubs) :
    Good may s₀ (State.scrubStep s m o) := by
  unfold State.scrubStep
  with_reducible repeat' first
      | assumption | apply State.put_good | apply State.inc_good | refine Good.ite ?_ ?_
      | (extract_lets +onlyGivenNames lt; refine (show Good may s₀ lt → _ from fun hlt => ?_) ?_; (on_goal 1 => clear_value lt); on_goal 2 => subst lt)
      | (extract_lets +onlyGivenNames lt; refine (show Good may s₀ lt.1 → _ from fun hlt => ?_) ?_; (on_goal 1 => clear_value lt); on_goal 2 => subst lt)
      | (extract_lets +onlyGivenNames lt; clear_value lt) | refine Good.of_pair ?_ ‹_› | split
      | (apply Good.u_scrubs; first | assumption | refine Good.ite ?_ ?_ | refine Good.of_pair ?_ ‹_› | apply State.put_good | apply State.inc_good)

theorem State.scrub_good {s : State} (m : EccMem) (a : Nat) (f : ScrubFind) (hg : Good may s₀ s) (k_tku : may .tku) (k_scrubs : may .scrubs) :
    Good may s₀ (State.scrub s m a f) := by
  unfold State.scrub
  with_reducible repeat' first
      | assumption | apply State.untilMono_good | apply State.eccNote_good | apply State.scrubStep_good | refine Good.ite ?_ ?_
      | (extract_lets +onlyGivenNames lt; refine (show Good may s₀ lt → _ from fun hlt => ?_) ?_; (on_goal 1 => clear_value lt); on_goal 2 => subst lt)
      | (extract_lets +onlyGivenNames lt; refine (show Good may s₀ lt.1 → _ from fun hlt => ?_) ?_; (on_goal 1 => clear_value lt); on_goal 2 => subst lt)
      | (extract_lets +onlyGivenNames lt; clear_value lt) | refine Good.of_pair ?_ ‹_› | split

theorem State.dmcontrol_good {s : State} (w : Word) (hg : Good may s₀ s) (k_gnt : may .gnt) (k_pairs : may .pairs) (k_dmod : may .dmod) :
    Good may s₀ (State.dmcontrol s w).1 := by
  unfold State.dmcontrol
  with_reducible repeat' first
      | assumption | apply State.put_good | apply State.putBit_good | apply State.debugHalt_good | refine Good.ite ?_ ?_ | refine Good.ite1 ?_ ?_
      | (extract_lets +onlyGivenNames lt; refine (show Good may s₀ lt → _ from fun hlt => ?_) ?_; (on_goal 1 => clear_value lt); on_goal 2 => subst lt)
      | (extract_lets +onlyGivenNames lt; refine (show Good may s₀ lt.1 → _ from fun hlt => ?_) ?_; (on_goal 1 => clear_value lt); on_goal 2 => subst lt)
      | (extract_lets +onlyGivenNames lt; clear_value lt) | split
      | (apply Good.u_dmod; first | assumption | refine Good.ite ?_ ?_ | refine Good.of_pair ?_ ‹_› | apply State.put_good | apply State.putBit_good | apply State.debugHalt_good)

theorem State.dmiOp_good {s : State} (v : Nat) (m : Nat) (hg : Good may s₀ s) (k_dmi : may .dmi) :
    Good may s₀ (State.dmiOp s v m) := by
  unfold State.dmiOp
  with_reducible repeat' first
      | assumption | apply State.put_good | apply State.lost_good | apply State.badAccess_good | refine Good.ite ?_ ?_
      | (extract_lets +onlyGivenNames lt; refine (show Good may s₀ lt → _ from fun hlt => ?_) ?_; (on_goal 1 => clear_value lt); on_goal 2 => subst lt)
      | (extract_lets +onlyGivenNames lt; clear_value lt) | split
      | (apply Good.u_dmi; first | assumption | refine Good.ite ?_ ?_ | refine Good.of_pair ?_ ‹_› | apply State.put_good | apply State.lost_good | apply State.badAccess_good)

theorem State.dbgAuthSubmit_good {s : State} (v : Nat) (m : Nat) (hg : Good may s₀ s) (k_freshCtr : may .freshCtr)
    (k_credFails : may .credFails) (k_credLockTo : may .credLockTo) (k_chalAt : may .chalAt) (k_dbgAuth : may .dbgAuth) :
    Good may s₀ (State.dbgAuthSubmit s v m) := by
  unfold State.dbgAuthSubmit
  with_reducible repeat' first
      | assumption | apply State.badAccess_good | apply State.credSubmit_good | refine Good.ite ?_ ?_
      | (extract_lets +onlyGivenNames lt; refine (show Good may s₀ lt → _ from fun hlt => ?_) ?_; (on_goal 1 => clear_value lt); on_goal 2 => subst lt)
      | (extract_lets +onlyGivenNames lt; refine (show Good may s₀ lt.1 → _ from fun hlt => ?_) ?_; (on_goal 1 => clear_value lt); on_goal 2 => subst lt)
      | (extract_lets +onlyGivenNames lt; clear_value lt) | refine Good.of_pair ?_ ‹_› | split
      | (apply Good.u_dbgAuth; first | assumption | refine Good.ite ?_ ?_ | refine Good.of_pair ?_ ‹_› | apply State.badAccess_good | apply State.credSubmit_good)

theorem State.dbgAuthEnd_good {s : State} (hg : Good may s₀ s) (k_tku : may .tku) (k_dbgAuth : may .dbgAuth) :
    Good may s₀ (State.dbgAuthEnd s) := by
  unfold State.dbgAuthEnd
  with_reducible repeat' first
      | assumption | apply State.untilMono_good | refine Good.ite ?_ ?_
      | (extract_lets +onlyGivenNames lt; refine (show Good may s₀ lt → _ from fun hlt => ?_) ?_; (on_goal 1 => clear_value lt); on_goal 2 => subst lt)
      | (extract_lets +onlyGivenNames lt; clear_value lt) | refine Good.of_pair ?_ ‹_› | split
      | (apply Good.u_dbgAuth; first | assumption | refine Good.ite ?_ ?_ | refine Good.of_pair ?_ ‹_› | apply State.untilMono_good)

theorem State.dbgOff_good {s : State} (hg : Good may s₀ s) (k_dbgAuth : may .dbgAuth) (k_dmod : may .dmod) :
    Good may s₀ (State.dbgOff s) := by
  unfold State.dbgOff
  with_reducible repeat' first
      | assumption | apply State.put_good | refine Good.ite ?_ ?_
      | (extract_lets +onlyGivenNames lt; refine (show Good may s₀ lt → _ from fun hlt => ?_) ?_; (on_goal 1 => clear_value lt); on_goal 2 => subst lt)
      | (extract_lets +onlyGivenNames lt; clear_value lt) | split
      | (apply Good.u_dbgAuth_dmod; first | assumption | refine Good.ite ?_ ?_ | refine Good.of_pair ?_ ‹_› | apply State.put_good)

/-! ### NetOps -/

theorem State.heartbeatFrom_good {s : State} (who : Nat) (flags : Nat) (hg : Good may s₀ s) (ka : ∀ p, may p) :
    Good may s₀ (State.heartbeatFrom s who flags) := by
  unfold State.heartbeatFrom
  with_reducible repeat' first
      | assumption | exact ka _ | apply State.handoverWon_good | apply State.memberHeartbeat_good | apply State.trackReady_good
      | apply State.peerHeartbeat_good | refine Good.ite ?_ ?_
      | (extract_lets +onlyGivenNames lt; refine (show Good may s₀ lt → _ from fun hlt => ?_) ?_; (on_goal 1 => clear_value lt); on_goal 2 => subst lt)
      | (extract_lets +onlyGivenNames lt; refine (show Good may s₀ lt.1 → _ from fun hlt => ?_) ?_; (on_goal 1 => clear_value lt); on_goal 2 => subst lt)
      | (extract_lets +onlyGivenNames lt; clear_value lt) | split

theorem State.rdcAct_good {s : State} (who : Nat) (k : Nat) (r : RdcRec) (arr : Nat) (dep : Nat) (hg : Good may s₀ s) (ka : ∀ p, may p) :
    Good may s₀ (State.rdcAct s who k r arr dep) := by
  unfold State.rdcAct
  with_reducible repeat' first
      | assumption | exact ka _ | apply State.peerHandover_good | apply State.relinquished_good | apply State.heartbeatFrom_good
      | apply State.judgeReq_good | apply State.leaseGrant_good | apply State.leaseRefused_good | apply State.peerGrant_good
      | apply State.peerRelinquish_good | apply State.peerReq_good | apply State.timeFup_good | apply State.timeReq_good | apply State.timeResp_good
      | refine Good.ite ?_ ?_ | split

theorem State.rdcReceive_good {s : State} (k : Nat) (l : List Byte) (arr : Nat) (dep : Nat) (hg : Good may s₀ s) (ka : ∀ p, may p) :
    Good may s₀ (State.rdcReceive s k l arr dep) := by
  unfold State.rdcReceive
  with_reducible repeat' first
      | assumption | exact ka _ | apply State.bump_good | apply State.noteLink_good | apply State.noteSeq_good | apply State.rdcAct_good
      | refine Good.ite ?_ ?_
      | (extract_lets +onlyGivenNames lt; refine (show Good may s₀ lt → _ from fun hlt => ?_) ?_; (on_goal 1 => clear_value lt); on_goal 2 => subst lt)
      | (extract_lets +onlyGivenNames lt; refine (show Good may s₀ lt.1 → _ from fun hlt => ?_) ?_; (on_goal 1 => clear_value lt); on_goal 2 => subst lt)
      | (extract_lets +onlyGivenNames lt; clear_value lt) | refine Good.of_pair ?_ ‹_› | split

theorem State.rdcTyped_good {s : State} (typ : Nat) (k : Nat) (l : List Byte) (arr : Nat) (dep : Nat) (hg : Good may s₀ s) (ka : ∀ p, may p) :
    Good may s₀ (State.rdcTyped s typ k l arr dep) := by
  unfold State.rdcTyped
  with_reducible repeat' first | assumption | exact ka _ | apply State.rdcReceive_good | refine Good.ite ?_ ?_ | split

theorem State.sscPass_good {s : State} (e : Nat) (f : List Byte) (arr : Nat) (hg : Good may s₀ s) (ka : ∀ p, may p) :
    Good may s₀ (State.sscPass s e f arr) := by
  unfold State.sscPass
  with_reducible repeat' first
      | assumption | exact ka _ | apply State.voteAccept_good | apply State.rdcReceive_good | apply State.voteSafe_good | refine Good.ite ?_ ?_
      | (extract_lets +onlyGivenNames lt; refine (show Good may s₀ lt → _ from fun hlt => ?_) ?_; (on_goal 1 => clear_value lt); on_goal 2 => subst lt)
      | (extract_lets +onlyGivenNames lt; refine (show Good may s₀ lt.1 → _ from fun hlt => ?_) ?_; (on_goal 1 => clear_value lt); on_goal 2 => subst lt)
      | (extract_lets +onlyGivenNames lt; clear_value lt) | refine Good.of_pair ?_ ‹_› | split

theorem State.sscTake_good {s : State} (e : Nat) (f : List Byte) (arr : Nat) (hg : Good may s₀ s) (ka : ∀ p, may p) :
    Good may s₀ (State.sscTake s e f arr) := by
  unfold State.sscTake
  with_reducible repeat' first
      | assumption | exact ka _ | apply State.voteSafe_good | apply State.sscPass_good | apply State.sscReceive_good | refine Good.ite ?_ ?_
      | (extract_lets +onlyGivenNames lt; refine (show Good may s₀ lt → _ from fun hlt => ?_) ?_; (on_goal 1 => clear_value lt); on_goal 2 => subst lt)
      | (extract_lets +onlyGivenNames lt; refine (show Good may s₀ lt.1 → _ from fun hlt => ?_) ?_; (on_goal 1 => clear_value lt); on_goal 2 => subst lt)
      | (extract_lets +onlyGivenNames lt; clear_value lt) | refine Good.of_pair ?_ ‹_› | split

theorem State.sscArrive_good {s : State} (tr : Nat) (src : Nat) (f : List Byte) (arr : Nat) (hg : Good may s₀ s) (ka : ∀ p, may p) :
    Good may s₀ (State.sscArrive s tr src f arr) := by
  unfold State.sscArrive
  with_reducible repeat' first
      | assumption | exact ka _ | apply State.sscTake_good | refine Good.ite ?_ ?_
      | (extract_lets +onlyGivenNames lt; refine (show Good may s₀ lt → _ from fun hlt => ?_) ?_; (on_goal 1 => clear_value lt); on_goal 2 => subst lt)
      | (extract_lets +onlyGivenNames lt; refine (show Good may s₀ lt.1 → _ from fun hlt => ?_) ?_; (on_goal 1 => clear_value lt); on_goal 2 => subst lt)
      | (extract_lets +onlyGivenNames lt; clear_value lt) | split

theorem State.sscWatchdog_good {s : State} (e : Nat) (hg : Good may s₀ s) (k_sig : may .sig) (k_tku : may .tku) :
    Good may s₀ (State.sscWatchdog s e) := by
  unfold State.sscWatchdog
  with_reducible repeat' first
      | assumption | apply State.sscFail_good | apply State.untilMono_good | apply State.voteSafe_good | refine Good.ite ?_ ?_
      | (extract_lets +onlyGivenNames lt; refine (show Good may s₀ lt → _ from fun hlt => ?_) ?_; (on_goal 1 => clear_value lt); on_goal 2 => subst lt)
      | (extract_lets +onlyGivenNames lt; refine (show Good may s₀ lt.1 → _ from fun hlt => ?_) ?_; (on_goal 1 => clear_value lt); on_goal 2 => subst lt)
      | (extract_lets +onlyGivenNames lt; clear_value lt) | split

theorem State.sessAck_good {s : State} (v : Nat) (m : Nat) (hg : Good may s₀ s) :
    Good may s₀ (State.sessAck s v m) := by
  unfold State.sessAck
  with_reducible repeat' first
      | assumption | apply State.put_good | apply State.lost_good | apply State.badAccess_good | apply State.setSess_good | refine Good.ite ?_ ?_
      | (extract_lets +onlyGivenNames lt; refine (show Good may s₀ lt → _ from fun hlt => ?_) ?_; (on_goal 1 => clear_value lt); on_goal 2 => subst lt)
      | (extract_lets +onlyGivenNames lt; refine (show Good may s₀ lt.1 → _ from fun hlt => ?_) ?_; (on_goal 1 => clear_value lt); on_goal 2 => subst lt)
      | (extract_lets +onlyGivenNames lt; clear_value lt) | split

theorem State.sscData_good {s : State} (e : Nat) (hg : Good may s₀ s) :
    Good may s₀ (State.sscData s e) := by
  unfold State.sscData
  with_reducible repeat' first
      | assumption | apply State.sscSend_good | refine Good.ite ?_ ?_
      | (extract_lets +onlyGivenNames lt; refine (show Good may s₀ lt → _ from fun hlt => ?_) ?_; (on_goal 1 => clear_value lt); on_goal 2 => subst lt)
      | (extract_lets +onlyGivenNames lt; refine (show Good may s₀ lt.1 → _ from fun hlt => ?_) ?_; (on_goal 1 => clear_value lt); on_goal 2 => subst lt)
      | (extract_lets +onlyGivenNames lt; clear_value lt) | split

theorem State.sscPosted_good {s : State} (hg : Good may s₀ s) :
    Good may s₀ (State.sscPosted s) := by
  unfold State.sscPosted
  with_reducible repeat' first
      | assumption | apply State.sscData_good | refine Good.ite ?_ ?_ | (refine Good.foldl (fun _ _ _ => ?_) ?_)
      | (extract_lets +onlyGivenNames lt; refine (show Good may s₀ lt → _ from fun hlt => ?_) ?_; (on_goal 1 => clear_value lt); on_goal 2 => subst lt)
      | (extract_lets +onlyGivenNames lt; refine (show Good may s₀ lt.1 → _ from fun hlt => ?_) ?_; (on_goal 1 => clear_value lt); on_goal 2 => subst lt)
      | (extract_lets +onlyGivenNames lt; clear_value lt) | split
      | (apply Good.u_posted; first | assumption | refine Good.ite ?_ ?_ | refine Good.of_pair ?_ ‹_› | apply State.sscData_good)

theorem State.settle_good {s : State} (old : State) (hg : Good may s₀ s) :
    Good may s₀ (State.settle s old) := by
  unfold State.settle
  with_reducible repeat' first | assumption | apply State.clearAborted_good | apply State.sscPosted_good | refine Good.ite ?_ ?_ | split

theorem State.taskPost_good {s : State} (q : Nat) (t : Nat) (hg : Good may s₀ s) (k_mem : may .mem) (k_sig : may .sig)
    (k_tku : may .tku) (k_clo : may .clo) (k_ringPosted : may .ringPosted) (k_seqs : may .seqs) (k_rix : may .rix)
    (k_gnt : may .gnt) (k_slu : may .slu) (k_pairs : may .pairs) :
    Good may s₀ (State.taskPost s q t) := by
  unfold State.taskPost
  with_reducible repeat' first
      | assumption | apply State.voteSend_good | apply State.judgeStations_good | apply State.sluiceDelta_good | apply State.taskEnd_good
      | refine Good.ite ?_ ?_
      | (extract_lets +onlyGivenNames lt; refine (show Good may s₀ lt → _ from fun hlt => ?_) ?_; (on_goal 1 => clear_value lt); on_goal 2 => subst lt)
      | (extract_lets +onlyGivenNames lt; refine (show Good may s₀ lt.1 → _ from fun hlt => ?_) ?_; (on_goal 1 => clear_value lt); on_goal 2 => subst lt)
      | (extract_lets +onlyGivenNames lt; clear_value lt) | split

theorem State.sscRepeat_good {s : State} (e : Nat) (hg : Good may s₀ s) (k_tku : may .tku) :
    Good may s₀ (State.sscRepeat s e) := by
  unfold State.sscRepeat
  with_reducible repeat' first | assumption | apply State.untilMono_good | apply State.sscData_good | refine Good.ite ?_ ?_ | split

theorem State.ethFrame_good {s : State} (p : Nat) (f : List Byte) (fcsOk : Bool) (arr : Stamp) (hg : Good may s₀ s) (ka : ∀ p, may p) :
    Good may s₀ (State.ethFrame s p f fcsOk arr) := by
  unfold State.ethFrame
  with_reducible repeat' first
      | assumption | exact ka _ | apply State.done_good | apply State.rdcReceive_good | apply State.sscArrive_good | apply State.ethRx_good
      | apply State.rixFromPort_good | apply State.sluiceFromPort_good | refine Good.ite ?_ ?_
      | (extract_lets +onlyGivenNames lt; refine (show Good may s₀ lt → _ from fun hlt => ?_) ?_; (on_goal 1 => clear_value lt); on_goal 2 => subst lt)
      | (extract_lets +onlyGivenNames lt; refine (show Good may s₀ lt.1 → _ from fun hlt => ?_) ?_; (on_goal 1 => clear_value lt); on_goal 2 => subst lt)
      | (extract_lets +onlyGivenNames lt; clear_value lt) | refine Good.of_pair ?_ ‹_› | split

theorem State.canFrame_good {s : State} (n : Nat) (w0 : Word) (w1 : Word) (data : List Byte) (stamp : Stamp) (hg : Good may s₀ s) (ka : ∀ p, may p) :
    Good may s₀ (State.canFrame s n w0 w1 data stamp) := by
  unfold State.canFrame
  with_reducible repeat' first
      | assumption | exact ka _ | apply State.done_good | apply State.canReceive_good | apply State.sscArrive_good | refine Good.ite ?_ ?_
      | (extract_lets +onlyGivenNames lt; refine (show Good may s₀ lt → _ from fun hlt => ?_) ?_; (on_goal 1 => clear_value lt); on_goal 2 => subst lt)
      | (extract_lets +onlyGivenNames lt; refine (show Good may s₀ lt.1 → _ from fun hlt => ?_) ?_; (on_goal 1 => clear_value lt); on_goal 2 => subst lt)
      | (extract_lets +onlyGivenNames lt; clear_value lt) | refine Good.of_pair ?_ ‹_› | split

theorem State.linkRises_good {s : State} (p : Nat) (speed : Nat) (hg : Good may s₀ s) :
    Good may s₀ (State.linkRises s p speed) := by
  unfold State.linkRises
  with_reducible repeat' first
      | assumption | apply State.put_good | refine Good.ite ?_ ?_
      | (extract_lets +onlyGivenNames lt; refine (show Good may s₀ lt → _ from fun hlt => ?_) ?_; (on_goal 1 => clear_value lt); on_goal 2 => subst lt)
      | (extract_lets +onlyGivenNames lt; refine (show Good may s₀ lt.1 → _ from fun hlt => ?_) ?_; (on_goal 1 => clear_value lt); on_goal 2 => subst lt)
      | (extract_lets +onlyGivenNames lt; clear_value lt) | split

theorem State.sfpChange_good {s : State} (k : Nat) (present : Bool) (sr : Bool) (hg : Good may s₀ s) (k_mem : may .mem) (k_dev : may .dev) :
    Good may s₀ (State.sfpChange s k present sr) := by
  unfold State.sfpChange
  with_reducible repeat' first
      | assumption | apply State.putB_good | apply State.linkLost_good | refine Good.ite ?_ ?_
      | (extract_lets +onlyGivenNames lt; refine (show Good may s₀ lt → _ from fun hlt => ?_) ?_; (on_goal 1 => clear_value lt); on_goal 2 => subst lt)
      | (extract_lets +onlyGivenNames lt; refine (show Good may s₀ lt.1 → _ from fun hlt => ?_) ?_; (on_goal 1 => clear_value lt); on_goal 2 => subst lt)
      | (extract_lets +onlyGivenNames lt; clear_value lt) | split
      | (apply Good.u_dev; first | assumption | refine Good.ite ?_ ?_ | refine Good.of_pair ?_ ‹_› | apply State.putB_good | apply State.linkLost_good)

/-! ### WakeOps -/

theorem State.wakeAhead_good {s : State} (d : Nat) (hg : Good may s₀ s) (k_clo : may .clo) (k_pairs : may .pairs) :
    Good may s₀ (State.wakeAhead s d) := by
  unfold State.wakeAhead
  with_reducible repeat' first
      | assumption | apply State.wakeDomain_good | refine Good.ite ?_ ?_
      | (extract_lets +onlyGivenNames lt; refine (show Good may s₀ lt → _ from fun hlt => ?_) ?_; (on_goal 1 => clear_value lt); on_goal 2 => subst lt)
      | (extract_lets +onlyGivenNames lt; refine (show Good may s₀ lt.1 → _ from fun hlt => ?_) ?_; (on_goal 1 => clear_value lt); on_goal 2 => subst lt)
      | (extract_lets +onlyGivenNames lt; clear_value lt) | refine Good.of_pair ?_ ‹_› | split
      | (apply Good.u_clo; first | assumption | refine Good.ite ?_ ?_ | refine Good.of_pair ?_ ‹_› | apply State.wakeDomain_good)

theorem State.wakesDue_good {s : State} (hg : Good may s₀ s) (k_clo : may .clo) (k_pairs : may .pairs) :
    Good may s₀ (State.wakesDue s) := by
  unfold State.wakesDue
  with_reducible repeat' first | assumption | apply State.wakeAhead_good | refine Good.ite ?_ ?_ | (refine Good.foldl (fun _ _ _ => ?_) ?_) | split

theorem State.lockForWork_good {s : State} (d : Nat) (hg : Good may s₀ s) :
    Good may s₀ (State.lockForWork s d) := by
  unfold State.lockForWork
  with_reducible repeat' first | assumption | apply State.putBit_good | refine Good.ite ?_ ?_ | split

theorem State.clocksForWork_good {s : State} (hg : Good may s₀ s) (k_clo : may .clo) (k_pairs : may .pairs) :
    Good may s₀ (State.clocksForWork s) := by
  unfold State.clocksForWork
  with_reducible repeat' first
      | assumption | apply State.lockForWork_good | apply State.wakesDue_good | refine Good.ite ?_ ?_ | (refine Good.foldl (fun _ _ _ => ?_) ?_)
      | split

/-! ### Enables -/

theorem State.ctxEnWrite_good {s : State} (c : Nat) (nv : Nat) (hg : Good may s₀ s) (k_sig : may .sig) (k_loops : may .loops) :
    Good may s₀ (State.ctxEnWrite s c nv).1 := by
  unfold State.ctxEnWrite
  with_reducible repeat' first
      | assumption | apply State.put_good | apply State.bump_good | apply State.loopDisable_good | apply State.loopEnable_good | refine Good.ite ?_ ?_
      | refine Good.ite1 ?_ ?_
      | (extract_lets +onlyGivenNames lt; refine (show Good may s₀ lt → _ from fun hlt => ?_) ?_; (on_goal 1 => clear_value lt); on_goal 2 => subst lt)
      | (extract_lets +onlyGivenNames lt; refine (show Good may s₀ lt.1 → _ from fun hlt => ?_) ?_; (on_goal 1 => clear_value lt); on_goal 2 => subst lt)
      | (extract_lets +onlyGivenNames lt; clear_value lt) | split

theorem State.slotEnWrite_good {s : State} (k : Nat) (nv : Nat) (hg : Good may s₀ s) (k_sig : may .sig) :
    Good may s₀ (State.slotEnWrite s k nv).1 := by
  unfold State.slotEnWrite
  with_reducible repeat' first
      | assumption | apply State.put_good | apply State.bump_good | apply State.casDisable_good | apply State.casEnable_good | refine Good.ite ?_ ?_
      | refine Good.ite1 ?_ ?_
      | (extract_lets +onlyGivenNames lt; refine (show Good may s₀ lt → _ from fun hlt => ?_) ?_; (on_goal 1 => clear_value lt); on_goal 2 => subst lt)
      | (extract_lets +onlyGivenNames lt; refine (show Good may s₀ lt.1 → _ from fun hlt => ?_) ?_; (on_goal 1 => clear_value lt); on_goal 2 => subst lt)
      | (extract_lets +onlyGivenNames lt; clear_value lt) | split

theorem State.chEnWrite_good {s : State} (ch : Nat) (nv : Nat) (hg : Good may s₀ s) (k_mem : may .mem) (k_sig : may .sig)
    (k_freshCtr : may .freshCtr) (k_clo : may .clo) (k_ringPosted : may .ringPosted) (k_chans : may .chans)
    (k_pairs : may .pairs) :
    Good may s₀ (State.chEnWrite s ch nv).1 := by
  unfold State.chEnWrite
  with_reducible repeat' first
      | assumption | apply State.freeAll_good | apply State.put_good | apply State.chClear_good | apply State.chFresh_good | apply State.setChan_good
      | apply State.killPulse_good | apply State.claimAll_good | apply State.hartEndAll_good | refine Good.ite ?_ ?_ | refine Good.ite1 ?_ ?_
      | (extract_lets +onlyGivenNames lt; refine (show Good may s₀ lt → _ from fun hlt => ?_) ?_; (on_goal 1 => clear_value lt); on_goal 2 => subst lt)
      | (extract_lets +onlyGivenNames lt; refine (show Good may s₀ lt.1 → _ from fun hlt => ?_) ?_; (on_goal 1 => clear_value lt); on_goal 2 => subst lt)
      | (extract_lets +onlyGivenNames lt; clear_value lt) | split

theorem State.stnEnWrite_good {s : State} (st : Nat) (nv : Nat) (hg : Good may s₀ s) (k_sig : may .sig) (k_rix : may .rix) :
    Good may s₀ (State.stnEnWrite s st nv).1 := by
  unfold State.stnEnWrite
  with_reducible repeat' first
      | assumption | apply State.put_good | apply State.stnDisable_good | apply State.stnEnable_good | refine Good.ite ?_ ?_ | refine Good.ite1 ?_ ?_
      | (extract_lets +onlyGivenNames lt; refine (show Good may s₀ lt → _ from fun hlt => ?_) ?_; (on_goal 1 => clear_value lt); on_goal 2 => subst lt)
      | (extract_lets +onlyGivenNames lt; refine (show Good may s₀ lt.1 → _ from fun hlt => ?_) ?_; (on_goal 1 => clear_value lt); on_goal 2 => subst lt)
      | (extract_lets +onlyGivenNames lt; clear_value lt) | split

theorem State.sessEnWrite_good {s : State} (e : Nat) (nv : Nat) (hg : Good may s₀ s) (k_sig : may .sig) :
    Good may s₀ (State.sessEnWrite s e nv).1 := by
  unfold State.sessEnWrite
  with_reducible repeat' first
      | assumption | apply State.freeAll_good | apply State.wr_good | apply State.put_good | apply State.postFailSafe_good | apply State.setSess_good
      | apply State.claimAll_good | refine Good.ite ?_ ?_ | refine Good.ite1 ?_ ?_
      | (extract_lets +onlyGivenNames lt; refine (show Good may s₀ lt → _ from fun hlt => ?_) ?_; (on_goal 1 => clear_value lt); on_goal 2 => subst lt)
      | (extract_lets +onlyGivenNames lt; refine (show Good may s₀ lt.1 → _ from fun hlt => ?_) ?_; (on_goal 1 => clear_value lt); on_goal 2 => subst lt)
      | (extract_lets +onlyGivenNames lt; clear_value lt) | split

theorem State.ringEnWrite_good {s : State} (r : Nat) (nv : Nat) (hg : Good may s₀ s) (k_mem : may .mem) (k_loops : may .loops) (k_sers : may .sers) :
    Good may s₀ (State.ringEnWrite s r nv).1 := by
  unfold State.ringEnWrite
  with_reducible repeat' first
      | assumption | apply State.put_good | apply State.ringAbort_good | apply State.ringDrop_good | apply State.abortStarts_good
      | refine Good.ite ?_ ?_ | refine Good.ite1 ?_ ?_ | split

theorem State.wmEnWrite_good {s : State} (w : Nat) (nv : Nat) (hg : Good may s₀ s) (k_rdc : may .rdc) :
    Good may s₀ (State.wmEnWrite s w nv).1 := by
  unfold State.wmEnWrite
  with_reducible repeat' first
      | assumption | apply State.put_good | apply State.trackDuty_good | apply State.relinquished_good | apply State.setWm_good
      | refine Good.ite ?_ ?_ | refine Good.ite1 ?_ ?_ | split

theorem State.trkEnWrite_good {s : State} (t : Nat) (nv : Nat) (hg : Good may s₀ s) (k_mem : may .mem) (k_clo : may .clo)
    (k_ringPosted : may .ringPosted) (k_cis : may .cis) (k_pairs : may .pairs) :
    Good may s₀ (State.trkEnWrite s t nv).1 := by
  unfold State.trkEnWrite
  with_reducible repeat' first
      | assumption | apply State.put_good | apply State.trkOpen_good | apply State.trkClose_good | refine Good.ite ?_ ?_ | refine Good.ite1 ?_ ?_
      | split

theorem State.serModeWrite_good {s : State} (n : Nat) (nv : Nat) (hg : Good may s₀ s) (k_mem : may .mem) (k_sers : may .sers) :
    Good may s₀ (State.serModeWrite s n nv).1 := by
  unfold State.serModeWrite
  with_reducible repeat' first | assumption | apply State.put_good | apply State.serEnd_good | refine Good.ite ?_ ?_ | refine Good.ite1 ?_ ?_ | split

theorem State.enableWrite_good {s : State} (p : Nat) (u : Nat) (i : Nat) (nv : Nat) (hg : Good may s₀ s) (k_mem : may .mem)
    (k_sig : may .sig) (k_freshCtr : may .freshCtr) (k_clo : may .clo) (k_ringPosted : may .ringPosted) (k_rix : may .rix)
    (k_chans : may .chans) (k_loops : may .loops) (k_sers : may .sers) (k_rdc : may .rdc) (k_cis : may .cis)
    (k_pairs : may .pairs) :
    Good may s₀ (State.enableWrite s p u i nv).1 := by
  unfold State.enableWrite
  with_reducible repeat' first
      | assumption | apply State.canSetMode_good | apply State.chEnWrite_good | apply State.ctxEnWrite_good | apply State.ringEnWrite_good
      | apply State.serModeWrite_good | apply State.sessEnWrite_good | apply State.slotEnWrite_good | apply State.stnEnWrite_good
      | apply State.trkEnWrite_good | apply State.wmEnWrite_good | refine Good.ite ?_ ?_ | refine Good.ite1 ?_ ?_
      | (extract_lets +onlyGivenNames lt; refine (show Good may s₀ lt → _ from fun hlt => ?_) ?_; (on_goal 1 => clear_value lt); on_goal 2 => subst lt)
      | (extract_lets +onlyGivenNames lt; clear_value lt) | refine Good.of_pair ?_ ‹_› | split

theorem State.abortsIdle_good {s : State} (p : Nat) (hg : Good may s₀ s) (k_mem : may .mem) (k_sig : may .sig)
    (k_aborts : may .aborts) (k_seqs : may .seqs) (k_loops : may .loops) (k_cas : may .cas) (k_sers : may .sers)
    (k_pnl : may .pnl) :
    Good may s₀ (State.abortsIdle s p) := by
  unfold State.abortsIdle
  with_reducible repeat' first
      | assumption | apply State.abortDone_good | refine Good.ite ?_ ?_ | (refine Good.foldl (fun _ _ _ => ?_) ?_)
      | (extract_lets +onlyGivenNames lt; refine (show Good may s₀ lt → _ from fun hlt => ?_) ?_; (on_goal 1 => clear_value lt); on_goal 2 => subst lt)
      | (extract_lets +onlyGivenNames lt; clear_value lt) | refine Good.of_pair ?_ ‹_› | split

theorem State.disabled_good {s : State} (p : Nat) (hg : Good may s₀ s) (k_mem : may .mem) (k_sig : may .sig)
    (k_aborts : may .aborts) (k_dbgAuth : may .dbgAuth) (k_seqs : may .seqs) (k_chans : may .chans) (k_loops : may .loops)
    (k_cas : may .cas) (k_sers : may .sers) (k_pnl : may .pnl) (k_dmod : may .dmod) :
    Good may s₀ (State.disabled s p) := by
  unfold State.disabled
  with_reducible repeat' first
      | assumption | apply State.put_good | apply State.abortsIdle_good | apply State.stopDomain_good | apply State.releaseBank_good
      | apply State.invalidBank_good | apply State.loopsOff_good | apply State.canDisable_good | apply State.casOff_good | apply State.dbgOff_good
      | refine Good.ite ?_ ?_
      | (extract_lets +onlyGivenNames lt; refine (show Good may s₀ lt → _ from fun hlt => ?_) ?_; (on_goal 1 => clear_value lt); on_goal 2 => subst lt)
      | (extract_lets +onlyGivenNames lt; clear_value lt) | refine Good.of_pair ?_ ‹_› | split

theorem State.enabledNow_good {s : State} (p : Nat) (hg : Good may s₀ s) (k_clo : may .clo) (k_seqs : may .seqs) (k_pairs : may .pairs) :
    Good may s₀ (State.enabledNow s p) := by
  unfold State.enabledNow
  with_reducible repeat' first
      | assumption | apply State.schedStart_good | apply State.wakeDomain_good | refine Good.ite ?_ ?_
      | (extract_lets +onlyGivenNames lt; refine (show Good may s₀ lt → _ from fun hlt => ?_) ?_; (on_goal 1 => clear_value lt); on_goal 2 => subst lt)
      | (extract_lets +onlyGivenNames lt; clear_value lt) | refine Good.of_pair ?_ ‹_› | split

theorem State.putEnable_good {s : State} (b : Bool) (p0 : List Nat) (hg : Good may s₀ s) :
    Good may s₀ (State.putEnable s b p0) := by
  induction p0 generalizing s b with
  | nil => unfold State.putEnable; with_reducible repeat' first | assumption | apply State.putB_good | refine Good.ite ?_ ?_ | split
  | cons hd tl ih => unfold State.putEnable; with_reducible repeat' first
      | assumption | apply ih | apply State.putB_good | refine Good.ite ?_ ?_ | split

theorem State.abortOff_good {s : State} (p0 : List Nat) (hg : Good may s₀ s) (k_mem : may .mem) (k_sig : may .sig)
    (k_aborts : may .aborts) (k_seqs : may .seqs) (k_loops : may .loops) (k_cas : may .cas) (k_sers : may .sers)
    (k_pnl : may .pnl) :
    Good may s₀ (State.abortOff s p0) := by
  induction p0 generalizing s with
  | nil => unfold State.abortOff; with_reducible repeat' first | assumption | apply State.abortAll_good | refine Good.ite ?_ ?_ | split
  | cons hd tl ih => unfold State.abortOff; with_reducible repeat' first
      | assumption | apply ih | apply State.abortAll_good | refine Good.ite ?_ ?_ | split

theorem State.resetPages_good {s : State} (l : List Nat) (hg : Good may s₀ s) : Good may s₀ (s.resetPages l) :=
  ⟨hg.1, fun h => ⟨mapWf_map _ (hg.2.1 h).1, (hg.2.1 h).2⟩, fun p hp => by have h := hg.2.2 p hp; cases p <;> exact h⟩

theorem State.safetyCfg_good {s : State} (b : Nat) (hg : Good may s₀ s) (k_chans : may .chans) :
    Good may s₀ (State.safetyCfg s b) := by
  unfold State.safetyCfg
  with_reducible repeat' first
      | assumption | apply State.cfgIn_good | apply State.cfgOut_good | refine Good.ite ?_ ?_ | (refine Good.foldl (fun _ _ _ => ?_) ?_)
      | (extract_lets +onlyGivenNames lt; refine (show Good may s₀ lt → _ from fun hlt => ?_) ?_; (on_goal 1 => clear_value lt); on_goal 2 => subst lt)
      | (extract_lets +onlyGivenNames lt; refine (show Good may s₀ lt.1 → _ from fun hlt => ?_) ?_; (on_goal 1 => clear_value lt); on_goal 2 => subst lt)
      | (extract_lets +onlyGivenNames lt; clear_value lt) | split

theorem State.freeClass_good {s : State} (cls : Nat) (f : Nat → Bool) (hg : Good may s₀ s) (k_sig : may .sig) : Good may s₀ (s.freeClass cls f) :=
  ⟨hg.1, fun h => ⟨(hg.2.1 h).1, (hg.2.1 h).2.1, mapWf_map _ (hg.2.1 h).2.2⟩,
    fun p hp => by have h := hg.2.2 p hp; cases p <;> first | exact absurd k_sig hp | exact h⟩

theorem State.resetBlock_good {s : State} (p : Nat) (hg : Good may s₀ s) (ka : ∀ p, may p) :
    Good may s₀ (State.resetBlock s p) := by
  unfold State.resetBlock
  with_reducible repeat' first
      | assumption | exact ka _ | apply State.setPnl_good | apply State.setEth_good | apply State.setSer_good | apply State.setSeq_good
      | apply State.setCan_good | apply State.linkLost_good | apply State.setPair_good | apply State.setBank_good | apply State.casEmpty_good
      | apply State.freeClass_good | apply State.loopsClear_good | apply State.serEnd_good | refine Good.ite ?_ ?_
      | (extract_lets +onlyGivenNames lt; refine (show Good may s₀ lt → _ from fun hlt => ?_) ?_; (on_goal 1 => clear_value lt); on_goal 2 => subst lt)
      | (extract_lets +onlyGivenNames lt; refine (show Good may s₀ lt.1 → _ from fun hlt => ?_) ?_; (on_goal 1 => clear_value lt); on_goal 2 => subst lt)
      | (extract_lets +onlyGivenNames lt; clear_value lt) | refine Good.of_pair ?_ ‹_› | split
      | (apply Good.u_chans; first | assumption | refine Good.ite ?_ ?_ | refine Good.of_pair ?_ ‹_› | apply State.setPnl_good | apply State.setEth_good | apply State.setSer_good | apply State.setSeq_good | apply State.setCan_good | apply State.linkLost_good | apply State.setPair_good | apply State.setBank_good | apply State.casEmpty_good | apply State.freeClass_good | apply State.loopsClear_good | apply State.serEnd_good)
      | (apply Good.u_rix; first | assumption | refine Good.ite ?_ ?_ | refine Good.of_pair ?_ ‹_› | apply State.setPnl_good | apply State.setEth_good | apply State.setSer_good | apply State.setSeq_good | apply State.setCan_good | apply State.linkLost_good | apply State.setPair_good | apply State.setBank_good | apply State.casEmpty_good | apply State.freeClass_good | apply State.loopsClear_good | apply State.serEnd_good)
      | (apply Good.u_forces_forceAuth; first | assumption | refine Good.ite ?_ ?_ | refine Good.of_pair ?_ ‹_› | apply State.setPnl_good | apply State.setEth_good | apply State.setSer_good | apply State.setSeq_good | apply State.setCan_good | apply State.linkLost_good | apply State.setPair_good | apply State.setBank_good | apply State.casEmpty_good | apply State.freeClass_good | apply State.loopsClear_good | apply State.serEnd_good)
      | (apply Good.u_sess; first | assumption | refine Good.ite ?_ ?_ | refine Good.of_pair ?_ ‹_› | apply State.setPnl_good | apply State.setEth_good | apply State.setSer_good | apply State.setSeq_good | apply State.setCan_good | apply State.linkLost_good | apply State.setPair_good | apply State.setBank_good | apply State.casEmpty_good | apply State.freeClass_good | apply State.loopsClear_good | apply State.serEnd_good)
      | (apply Good.u_ringPosted; first | assumption | refine Good.ite ?_ ?_ | refine Good.of_pair ?_ ‹_› | apply State.setPnl_good | apply State.setEth_good | apply State.setSer_good | apply State.setSeq_good | apply State.setCan_good | apply State.linkLost_good | apply State.setPair_good | apply State.setBank_good | apply State.casEmpty_good | apply State.freeClass_good | apply State.loopsClear_good | apply State.serEnd_good)
      | (apply Good.u_rdc; first | assumption | refine Good.ite ?_ ?_ | refine Good.of_pair ?_ ‹_› | apply State.setPnl_good | apply State.setEth_good | apply State.setSer_good | apply State.setSeq_good | apply State.setCan_good | apply State.linkLost_good | apply State.setPair_good | apply State.setBank_good | apply State.casEmpty_good | apply State.freeClass_good | apply State.loopsClear_good | apply State.serEnd_good)
      | (apply Good.u_slu; first | assumption | refine Good.ite ?_ ?_ | refine Good.of_pair ?_ ‹_› | apply State.setPnl_good | apply State.setEth_good | apply State.setSer_good | apply State.setSeq_good | apply State.setCan_good | apply State.linkLost_good | apply State.setPair_good | apply State.setBank_good | apply State.casEmpty_good | apply State.freeClass_good | apply State.loopsClear_good | apply State.serEnd_good)
      | (apply Good.u_dmod; first | assumption | refine Good.ite ?_ ?_ | refine Good.of_pair ?_ ‹_› | apply State.setPnl_good | apply State.setEth_good | apply State.setSer_good | apply State.setSeq_good | apply State.setCan_good | apply State.linkLost_good | apply State.setPair_good | apply State.setBank_good | apply State.casEmpty_good | apply State.freeClass_good | apply State.loopsClear_good | apply State.serEnd_good)
      | (apply Good.u_mpl; first | assumption | refine Good.ite ?_ ?_ | refine Good.of_pair ?_ ‹_› | apply State.setPnl_good | apply State.setEth_good | apply State.setSer_good | apply State.setSeq_good | apply State.setCan_good | apply State.linkLost_good | apply State.setPair_good | apply State.setBank_good | apply State.casEmpty_good | apply State.freeClass_good | apply State.loopsClear_good | apply State.serEnd_good)
      | (apply Good.u_cis; first | assumption | refine Good.ite ?_ ?_ | refine Good.of_pair ?_ ‹_› | apply State.setPnl_good | apply State.setEth_good | apply State.setSer_good | apply State.setSeq_good | apply State.setCan_good | apply State.linkLost_good | apply State.setPair_good | apply State.setBank_good | apply State.casEmpty_good | apply State.freeClass_good | apply State.loopsClear_good | apply State.serEnd_good)

theorem State.softReset_good {s : State} (p : Nat) (hg : Good may s₀ s) (ka : ∀ p, may p) :
    Good may s₀ (State.softReset s p) := by
  unfold State.softReset
  with_reducible repeat' first
      | assumption | exact ka _ | apply State.putB_good | apply State.showDemand_good | apply State.resetBlock_good | apply State.resetPages_good
      | apply State.safetyCfg_good | refine Good.ite ?_ ?_
      | (extract_lets +onlyGivenNames lt; refine (show Good may s₀ lt → _ from fun hlt => ?_) ?_; (on_goal 1 => clear_value lt); on_goal 2 => subst lt)
      | (extract_lets +onlyGivenNames lt; refine (show Good may s₀ lt.1 → _ from fun hlt => ?_) ?_; (on_goal 1 => clear_value lt); on_goal 2 => subst lt)
      | (extract_lets +onlyGivenNames lt; clear_value lt) | refine Good.of_pair ?_ ‹_› | split

theorem State.ctrlWrite_good {s : State} (p : Nat) (v : Word) (m : Nat) (hg : Good may s₀ s) (ka : ∀ p, may p) :
    Good may s₀ (State.ctrlWrite s p v m) := by
  unfold State.ctrlWrite
  with_reducible repeat' first
      | assumption | exact ka _ | apply State.lost_good | apply State.abortOff_good | apply State.disabled_good | apply State.enabledNow_good
      | apply State.putEnable_good | apply State.softReset_good | refine Good.ite ?_ ?_
      | (extract_lets +onlyGivenNames lt; refine (show Good may s₀ lt → _ from fun hlt => ?_) ?_; (on_goal 1 => clear_value lt); on_goal 2 => subst lt)
      | (extract_lets +onlyGivenNames lt; refine (show Good may s₀ lt.1 → _ from fun hlt => ?_) ?_; (on_goal 1 => clear_value lt); on_goal 2 => subst lt)
      | (extract_lets +onlyGivenNames lt; clear_value lt) | split

end Sys2Proof.Machine
end

