-- ==== Sys2Proof/Laws/KeepBus.lean ====
section
/-! SUPPORT. What every operation keeps (`Good`), operation by operation: commits, the bus and the ticks. -/

set_option linter.all false

namespace Sys2Proof.Machine

variable {may : Part → Prop} {s₀ : State}

/-! ### Commits -/

theorem State.stepPermit_good {s : State} (v : Nat) (hg : Good may s₀ s) (k_tku : may .tku) :
    Good may s₀ (State.stepPermit s v) := by
  unfold State.stepPermit
  with_reducible repeat' first
      | assumption | apply State.put_good | refine Good.ite ?_ ?_
      | (extract_lets +onlyGivenNames lt; refine (show Good may s₀ lt → _ from fun hlt => ?_) ?_; (on_goal 1 => clear_value lt); on_goal 2 => subst lt)
      | (extract_lets +onlyGivenNames lt; clear_value lt) | split
      | (apply Good.u_tku; first | assumption | refine Good.ite ?_ ?_ | refine Good.of_pair ?_ ‹_› | apply State.put_good)

theorem State.progLoad_good {s : State} (q : Nat) (v : Nat) (m : Nat) (hg : Good may s₀ s) :
    Good may s₀ (State.progLoad s q v m) := by
  unfold State.progLoad
  with_reducible repeat' first
      | assumption | apply State.put_good | apply State.lost_good | apply State.badAccess_good | refine Good.ite ?_ ?_
      | (extract_lets +onlyGivenNames lt; refine (show Good may s₀ lt → _ from fun hlt => ?_) ?_; (on_goal 1 => clear_value lt); on_goal 2 => subst lt)
      | (extract_lets +onlyGivenNames lt; refine (show Good may s₀ lt.1 → _ from fun hlt => ?_) ?_; (on_goal 1 => clear_value lt); on_goal 2 => subst lt)
      | (extract_lets +onlyGivenNames lt; clear_value lt) | split

theorem State.activateRefuse_good {s : State} (q : Nat) (r : Nat) (m : Nat) (hg : Good may s₀ s) :
    Good may s₀ (State.activateRefuse s q r m) := by
  unfold State.activateRefuse
  with_reducible repeat' first | assumption | apply State.put_good | apply State.lost_good | refine Good.ite ?_ ?_ | split

theorem State.activateCmd_good {s : State} (q : Nat) (v : Nat) (m : Nat) (hg : Good may s₀ s) (k_sig : may .sig)
    (k_forces : may .forces) (k_freshCtr : may .freshCtr) (k_seqs : may .seqs) :
    Good may s₀ (State.activateCmd s q v m) := by
  unfold State.activateCmd
  with_reducible repeat' first
      | assumption | apply State.put_good | apply State.setSeq_good | apply State.lost_good | apply State.badAccess_good | apply State.activate_good
      | apply State.activateRefuse_good | apply State.free_good | apply State.schedStart_good | refine Good.ite ?_ ?_
      | (extract_lets +onlyGivenNames lt; refine (show Good may s₀ lt → _ from fun hlt => ?_) ?_; (on_goal 1 => clear_value lt); on_goal 2 => subst lt)
      | (extract_lets +onlyGivenNames lt; refine (show Good may s₀ lt.1 → _ from fun hlt => ?_) ?_; (on_goal 1 => clear_value lt); on_goal 2 => subst lt)
      | (extract_lets +onlyGivenNames lt; clear_value lt) | refine Good.of_pair ?_ ‹_› | split

theorem State.resumeTasks_good {s : State} (q : Nat) (p0 : List Nat) (hg : Good may s₀ s) (k_seqs : may .seqs) :
    Good may s₀ (State.resumeTasks s q p0) := by
  induction p0 generalizing s q with
  | nil => unfold State.resumeTasks; with_reducible repeat' first
      | assumption | apply State.put_good | apply State.setTaskSt_good | apply State.setTask_good | refine Good.ite ?_ ?_
      | (extract_lets +onlyGivenNames lt; refine (show Good may s₀ lt → _ from fun hlt => ?_) ?_; (on_goal 1 => clear_value lt); on_goal 2 => subst lt)
      | (extract_lets +onlyGivenNames lt; refine (show Good may s₀ lt.1 → _ from fun hlt => ?_) ?_; (on_goal 1 => clear_value lt); on_goal 2 => subst lt)
      | (extract_lets +onlyGivenNames lt; clear_value lt) | split
  | cons hd tl ih => unfold State.resumeTasks; with_reducible repeat' first
      | assumption | apply ih | apply State.put_good | apply State.setTaskSt_good | apply State.setTask_good | refine Good.ite ?_ ?_
      | (extract_lets +onlyGivenNames lt; refine (show Good may s₀ lt → _ from fun hlt => ?_) ?_; (on_goal 1 => clear_value lt); on_goal 2 => subst lt)
      | (extract_lets +onlyGivenNames lt; refine (show Good may s₀ lt.1 → _ from fun hlt => ?_) ?_; (on_goal 1 => clear_value lt); on_goal 2 => subst lt)
      | (extract_lets +onlyGivenNames lt; clear_value lt) | split

theorem State.taskResume_good {s : State} (q : Nat) (v : Nat) (m : Nat) (hg : Good may s₀ s) (k_seqs : may .seqs) :
    Good may s₀ (State.taskResume s q v m) := by
  unfold State.taskResume
  with_reducible repeat' first
      | assumption | apply State.lost_good | apply State.resumeTasks_good | refine Good.ite ?_ ?_
      | (extract_lets +onlyGivenNames lt; refine (show Good may s₀ lt → _ from fun hlt => ?_) ?_; (on_goal 1 => clear_value lt); on_goal 2 => subst lt)
      | (extract_lets +onlyGivenNames lt; refine (show Good may s₀ lt.1 → _ from fun hlt => ?_) ?_; (on_goal 1 => clear_value lt); on_goal 2 => subst lt)
      | (extract_lets +onlyGivenNames lt; clear_value lt) | split

theorem State.ctxCmd_good {s : State} (v : Nat) (m : Nat) (hg : Good may s₀ s) (k_loops : may .loops) :
    Good may s₀ (State.ctxCmd s v m) := by
  unfold State.ctxCmd
  with_reducible repeat' first
      | assumption | apply State.lost_good | apply State.badAccess_good | apply State.loopCommand_good | refine Good.ite ?_ ?_
      | (extract_lets +onlyGivenNames lt; refine (show Good may s₀ lt → _ from fun hlt => ?_) ?_; (on_goal 1 => clear_value lt); on_goal 2 => subst lt)
      | (extract_lets +onlyGivenNames lt; refine (show Good may s₀ lt.1 → _ from fun hlt => ?_) ?_; (on_goal 1 => clear_value lt); on_goal 2 => subst lt)
      | (extract_lets +onlyGivenNames lt; clear_value lt) | split

theorem State.slotCmd_good {s : State} (v : Nat) (m : Nat) (hg : Good may s₀ s) (k_cas : may .cas) :
    Good may s₀ (State.slotCmd s v m) := by
  unfold State.slotCmd
  with_reducible repeat' first
      | assumption | apply State.put_good | apply State.casClear_good | apply State.lost_good | apply State.badAccess_good | apply State.casLoad_good
      | apply State.casReq_good | refine Good.ite ?_ ?_
      | (extract_lets +onlyGivenNames lt; refine (show Good may s₀ lt → _ from fun hlt => ?_) ?_; (on_goal 1 => clear_value lt); on_goal 2 => subst lt)
      | (extract_lets +onlyGivenNames lt; refine (show Good may s₀ lt.1 → _ from fun hlt => ?_) ?_; (on_goal 1 => clear_value lt); on_goal 2 => subst lt)
      | (extract_lets +onlyGivenNames lt; clear_value lt) | split

theorem State.revertInhibit_good {s : State} (v : Nat) (m : Nat) (hg : Good may s₀ s) (k_freshCtr : may .freshCtr)
    (k_credFails : may .credFails) (k_credLockTo : may .credLockTo) (k_chalAt : may .chalAt) :
    Good may s₀ (State.revertInhibit s v m) := by
  unfold State.revertInhibit
  with_reducible repeat' first
      | assumption | apply State.putB_good | apply State.badAccess_good | apply State.credSubmit_good | refine Good.ite ?_ ?_
      | (extract_lets +onlyGivenNames lt; refine (show Good may s₀ lt → _ from fun hlt => ?_) ?_; (on_goal 1 => clear_value lt); on_goal 2 => subst lt)
      | (extract_lets +onlyGivenNames lt; refine (show Good may s₀ lt.1 → _ from fun hlt => ?_) ?_; (on_goal 1 => clear_value lt); on_goal 2 => subst lt)
      | (extract_lets +onlyGivenNames lt; clear_value lt) | refine Good.of_pair ?_ ‹_› | split

theorem State.guarded_good {s : State} (p : Nat) (off : Nat) (v : Nat) (m : Nat) (hg : Good may s₀ s) (ka : ∀ p, may p) :
    Good may s₀ (State.guarded s p off v m) := by
  unfold State.guarded
  with_reducible repeat' first
      | assumption | exact ka _ | apply State.badAccess_good | apply State.activateCmd_good | apply State.bootSelect_good | apply State.cisCmd_good
      | apply State.commission_good | apply State.credChange_good | apply State.ctxCmd_good | apply State.dbgAuthSubmit_good
      | apply State.featCommit_good | apply State.forceAuthSubmit_good | apply State.forceCmd_good | apply State.handoverReq_good
      | apply State.imgUpdStart_good | apply State.mplCmd_good | apply State.pnlCmd_good | apply State.progLoad_good | apply State.psetLoad_good
      | apply State.revertInhibit_good | apply State.sessAck_good | apply State.slotCmd_good | apply State.stateReq_good | apply State.stepPermit_good
      | apply State.taskResume_good | refine Good.ite ?_ ?_
      | (extract_lets +onlyGivenNames lt; refine (show Good may s₀ lt → _ from fun hlt => ?_) ?_; (on_goal 1 => clear_value lt); on_goal 2 => subst lt)
      | (extract_lets +onlyGivenNames lt; refine (show Good may s₀ lt.1 → _ from fun hlt => ?_) ?_; (on_goal 1 => clear_value lt); on_goal 2 => subst lt)
      | (extract_lets +onlyGivenNames lt; clear_value lt) | refine Good.of_pair ?_ ‹_› | split

theorem State.guardCommit_good {s : State} (p : Nat) (off : Nat) (v : Word) (m : Nat) (hg : Good may s₀ s) (ka : ∀ p, may p) :
    Good may s₀ (State.guardCommit s p off v m) := by
  unfold State.guardCommit
  with_reducible repeat' first
      | assumption | exact ka _ | apply State.wr_good | apply State.put_good | apply State.guarded_good | refine Good.ite ?_ ?_
      | (extract_lets +onlyGivenNames lt; refine (show Good may s₀ lt → _ from fun hlt => ?_) ?_; (on_goal 1 => clear_value lt); on_goal 2 => subst lt)
      | (extract_lets +onlyGivenNames lt; refine (show Good may s₀ lt.1 → _ from fun hlt => ?_) ?_; (on_goal 1 => clear_value lt); on_goal 2 => subst lt)
      | (extract_lets +onlyGivenNames lt; clear_value lt) | split

theorem State.servoCtrl_good {s : State} (old : State) (v : Word) (hg : Good may s₀ s) (k_tku : may .tku) :
    Good may s₀ (State.servoCtrl s old v) := by
  unfold State.servoCtrl
  with_reducible repeat' first
      | assumption | apply State.put_good | refine Good.ite ?_ ?_
      | (extract_lets +onlyGivenNames lt; refine (show Good may s₀ lt → _ from fun hlt => ?_) ?_; (on_goal 1 => clear_value lt); on_goal 2 => subst lt)
      | (extract_lets +onlyGivenNames lt; refine (show Good may s₀ lt.1 → _ from fun hlt => ?_) ?_; (on_goal 1 => clear_value lt); on_goal 2 => subst lt)
      | (extract_lets +onlyGivenNames lt; clear_value lt) | split
      | (apply Good.u_tku; first | assumption | refine Good.ite ?_ ?_ | refine Good.of_pair ?_ ‹_› | apply State.put_good)

theorem State.afterWrite_good {s : State} (old : State) (p : Nat) (off : Nat) (v : Word) (m : Nat) (hg : Good may s₀ s)
    (k_mem : may .mem) (k_sig : may .sig) (k_tku : may .tku) (k_clo : may .clo) (k_chans : may .chans)
    (k_lpeQuery : may .lpeQuery) (k_casQuery : may .casQuery) (k_pairs : may .pairs) (k_dmi : may .dmi) :
    Good may s₀ (State.afterWrite s old p off v m) := by
  unfold State.afterWrite
  with_reducible repeat' first
      | assumption | apply State.freeSlot_good | apply State.wr_good | apply State.put_good | apply State.claim_good | apply State.canRecover_good
      | apply State.chFresh_good | apply State.dmiOp_good | apply State.frameTime_good | apply State.linkLost_good | apply State.reloadFilt_good
      | apply State.servoCtrl_good | apply State.showDO_good | apply State.wakeHeld_good | refine Good.ite ?_ ?_
      | (extract_lets +onlyGivenNames lt; refine (show Good may s₀ lt → _ from fun hlt => ?_) ?_; (on_goal 1 => clear_value lt); on_goal 2 => subst lt)
      | (extract_lets +onlyGivenNames lt; refine (show Good may s₀ lt.1 → _ from fun hlt => ?_) ?_; (on_goal 1 => clear_value lt); on_goal 2 => subst lt)
      | (extract_lets +onlyGivenNames lt; clear_value lt) | refine Good.of_pair ?_ ‹_› | split
      | (apply Good.u_lpeQuery; first | assumption | refine Good.ite ?_ ?_ | refine Good.of_pair ?_ ‹_› | apply State.freeSlot_good | apply State.wr_good | apply State.put_good | apply State.claim_good | apply State.canRecover_good | apply State.chFresh_good | apply State.dmiOp_good | apply State.frameTime_good | apply State.linkLost_good | apply State.reloadFilt_good | apply State.servoCtrl_good | apply State.showDO_good | apply State.wakeHeld_good)
      | (apply Good.u_casQuery; first | assumption | refine Good.ite ?_ ?_ | refine Good.of_pair ?_ ‹_› | apply State.freeSlot_good | apply State.wr_good | apply State.put_good | apply State.claim_good | apply State.canRecover_good | apply State.chFresh_good | apply State.dmiOp_good | apply State.frameTime_good | apply State.linkLost_good | apply State.reloadFilt_good | apply State.servoCtrl_good | apply State.showDO_good | apply State.wakeHeld_good)

theorem State.notePosts_good {s : State} (r : Nat) (from' : Nat) (p0 : Nat) (hg : Good may s₀ s) (k_ringPosted : may .ringPosted) :
    Good may s₀ (State.notePosts s r from' p0) := by
  induction p0 generalizing s r from' with
  | zero => unfold State.notePosts; with_reducible repeat' first
      | assumption | refine Good.ite ?_ ?_
      | (extract_lets +onlyGivenNames lt; refine (show Good may s₀ lt → _ from fun hlt => ?_) ?_; (on_goal 1 => clear_value lt); on_goal 2 => subst lt)
      | (extract_lets +onlyGivenNames lt; clear_value lt) | split
      | (apply Good.u_ringPosted; first | assumption | refine Good.ite ?_ ?_ | refine Good.of_pair ?_ ‹_›)
  | succ k ih => unfold State.notePosts; with_reducible repeat' first
      | assumption | apply ih | refine Good.ite ?_ ?_
      | (extract_lets +onlyGivenNames lt; refine (show Good may s₀ lt → _ from fun hlt => ?_) ?_; (on_goal 1 => clear_value lt); on_goal 2 => subst lt)
      | (extract_lets +onlyGivenNames lt; clear_value lt) | split
      | (apply Good.u_ringPosted; first | assumption | refine Good.ite ?_ ?_ | refine Good.of_pair ?_ ‹_›)

theorem State.ringIndex_good {s : State} (r : Nat) (prod : Bool) (v : Nat) (m : Nat) (hg : Good may s₀ s) (k_ringPosted : may .ringPosted) :
    Good may s₀ (State.ringIndex s r prod v m) := by
  unfold State.ringIndex
  with_reducible repeat' first
      | assumption | apply State.put_good | apply State.lost_good | apply State.badAccess_good | apply State.notePosts_good | refine Good.ite ?_ ?_
      | (extract_lets +onlyGivenNames lt; refine (show Good may s₀ lt → _ from fun hlt => ?_) ?_; (on_goal 1 => clear_value lt); on_goal 2 => subst lt)
      | (extract_lets +onlyGivenNames lt; refine (show Good may s₀ lt.1 → _ from fun hlt => ?_) ?_; (on_goal 1 => clear_value lt); on_goal 2 => subst lt)
      | (extract_lets +onlyGivenNames lt; clear_value lt) | split

/-! ### Bus -/

theorem State.errorResponse_good {s : State} (m : Nat) (hg : Good may s₀ s) (k_resp : may .resp) (k_coreFaults : may .coreFaults) :
    Good may s₀ (State.errorResponse s m) := by
  unfold State.errorResponse
  with_reducible repeat' first
      | assumption | apply State.coreFault_good | refine Good.ite ?_ ?_
      | (extract_lets +onlyGivenNames lt; refine (show Good may s₀ lt → _ from fun hlt => ?_) ?_; (on_goal 1 => clear_value lt); on_goal 2 => subst lt)
      | (extract_lets +onlyGivenNames lt; refine (show Good may s₀ lt.1 → _ from fun hlt => ?_) ?_; (on_goal 1 => clear_value lt); on_goal 2 => subst lt)
      | (extract_lets +onlyGivenNames lt; clear_value lt) | split
      | (apply Good.u_resp; first | assumption | refine Good.ite ?_ ?_ | refine Good.of_pair ?_ ‹_› | apply State.coreFault_good)

theorem State.busError_good {s : State} (m : Nat) (hg : Good may s₀ s) (k_resp : may .resp) (k_coreFaults : may .coreFaults) :
    Good may s₀ (State.busError s m) := by
  unfold State.busError
  with_reducible repeat' first
      | assumption | apply State.bump_good | apply State.errorResponse_good | refine Good.ite ?_ ?_
      | (extract_lets +onlyGivenNames lt; refine (show Good may s₀ lt → _ from fun hlt => ?_) ?_; (on_goal 1 => clear_value lt); on_goal 2 => subst lt)
      | (extract_lets +onlyGivenNames lt; refine (show Good may s₀ lt.1 → _ from fun hlt => ?_) ?_; (on_goal 1 => clear_value lt); on_goal 2 => subst lt)
      | (extract_lets +onlyGivenNames lt; clear_value lt) | split

theorem State.guardClose_good {s : State} (p : Nat) (hg : Good may s₀ s) (k_guards : may .guards) :
    Good may s₀ (State.guardClose s p) := by
  unfold State.guardClose
  with_reducible repeat' first
      | assumption | refine Good.ite ?_ ?_
      | (extract_lets +onlyGivenNames lt; refine (show Good may s₀ lt → _ from fun hlt => ?_) ?_; (on_goal 1 => clear_value lt); on_goal 2 => subst lt)
      | (extract_lets +onlyGivenNames lt; clear_value lt) | split
      | (apply Good.u_guards; first | assumption | refine Good.ite ?_ ?_ | refine Good.of_pair ?_ ‹_›)

theorem State.guardExpire_good {s : State} (p : Nat) (hg : Good may s₀ s) (k_guards : may .guards) :
    Good may s₀ (State.guardExpire s p) := by
  unfold State.guardExpire
  with_reducible repeat' first
      | assumption | apply State.badGuard_good | apply State.guardClose_good | refine Good.ite ?_ ?_
      | (extract_lets +onlyGivenNames lt; refine (show Good may s₀ lt → _ from fun hlt => ?_) ?_; (on_goal 1 => clear_value lt); on_goal 2 => subst lt)
      | (extract_lets +onlyGivenNames lt; clear_value lt) | refine Good.of_pair ?_ ‹_› | split

theorem State.guardBreak_good {s : State} (p : Nat) (off : Nat) (m : Nat) (hg : Good may s₀ s) (k_guards : may .guards) :
    Good may s₀ (State.guardBreak s p off m) := by
  unfold State.guardBreak
  with_reducible repeat' first
      | assumption | apply State.badGuard_good | apply State.guardClose_good | refine Good.ite ?_ ?_
      | (extract_lets +onlyGivenNames lt; refine (show Good may s₀ lt → _ from fun hlt => ?_) ?_; (on_goal 1 => clear_value lt); on_goal 2 => subst lt)
      | (extract_lets +onlyGivenNames lt; clear_value lt) | refine Good.of_pair ?_ ‹_› | split

theorem State.guardOpen_good {s : State} (p : Nat) (off : Nat) (v : Word) (m : Nat) (hg : Good may s₀ s) (k_guards : may .guards) :
    Good may s₀ (State.guardOpen s p off v m) := by
  unfold State.guardOpen
  with_reducible repeat' first
      | assumption | apply State.guardBreak_good | refine Good.ite ?_ ?_
      | (extract_lets +onlyGivenNames lt; refine (show Good may s₀ lt → _ from fun hlt => ?_) ?_; (on_goal 1 => clear_value lt); on_goal 2 => subst lt)
      | (extract_lets +onlyGivenNames lt; refine (show Good may s₀ lt.1 → _ from fun hlt => ?_) ?_; (on_goal 1 => clear_value lt); on_goal 2 => subst lt)
      | (extract_lets +onlyGivenNames lt; clear_value lt) | split
      | (apply Good.u_guards; first | assumption | refine Good.ite ?_ ?_ | refine Good.of_pair ?_ ‹_› | apply State.guardBreak_good)

theorem State.guardComplement_good {s : State} (p : Nat) (off : Nat) (v : Word) (m : Nat) (hg : Good may s₀ s) (ka : ∀ p, may p) :
    Good may s₀ (State.guardComplement s p off v m) := by
  unfold State.guardComplement
  with_reducible repeat' first
      | assumption | exact ka _ | apply State.badGuard_good | apply State.guardClose_good | apply State.guardBreak_good | apply State.guardCommit_good
      | refine Good.ite ?_ ?_
      | (extract_lets +onlyGivenNames lt; refine (show Good may s₀ lt → _ from fun hlt => ?_) ?_; (on_goal 1 => clear_value lt); on_goal 2 => subst lt)
      | (extract_lets +onlyGivenNames lt; clear_value lt) | refine Good.of_pair ?_ ‹_› | split

theorem State.setRsh_good {s : State} (k : Nat) (v : Word) (hg : Good may s₀ s) (k_rshadow : may .rshadow) :
    Good may s₀ (State.setRsh s k v) := by
  unfold State.setRsh
  with_reducible repeat' first
      | assumption | refine Good.ite ?_ ?_
      | (extract_lets +onlyGivenNames lt; refine (show Good may s₀ lt → _ from fun hlt => ?_) ?_; (on_goal 1 => clear_value lt); on_goal 2 => subst lt)
      | (extract_lets +onlyGivenNames lt; clear_value lt) | split
      | (apply Good.u_rshadow; first | assumption | refine Good.ite ?_ ?_ | refine Good.of_pair ?_ ‹_›)

theorem State.setWsh_good {s : State} (k : Nat) (v : Option Word) (hg : Good may s₀ s) (k_wshadow : may .wshadow) :
    Good may s₀ (State.setWsh s k v) := by
  unfold State.setWsh
  with_reducible repeat' first
      | assumption | refine Good.ite ?_ ?_
      | (extract_lets +onlyGivenNames lt; refine (show Good may s₀ lt → _ from fun hlt => ?_) ?_; (on_goal 1 => clear_value lt); on_goal 2 => subst lt)
      | (extract_lets +onlyGivenNames lt; clear_value lt) | split
      | (apply Good.u_wshadow; first | assumption | refine Good.ite ?_ ?_ | refine Good.of_pair ?_ ‹_›)

theorem State.emptyWsh_good {s : State} (m : Nat) (p : Nat) (p0 : List Nat) (hg : Good may s₀ s) (k_wshadow : may .wshadow) :
    Good may s₀ (State.emptyWsh s m p p0) := by
  induction p0 generalizing s m p with
  | nil => unfold State.emptyWsh; with_reducible repeat' first | assumption | apply State.setWsh_good | refine Good.ite ?_ ?_ | split
  | cons hd tl ih => unfold State.emptyWsh; with_reducible repeat' first
      | assumption | apply ih | apply State.setWsh_good | refine Good.ite ?_ ?_ | split

theorem State.wrWords_good {s : State} (p : Nat) (u : Nat) (p0 : List (Nat × Word)) (hg : Good may s₀ s) :
    Good may s₀ (State.wrWords s p u p0) := by
  induction p0 generalizing s p u with
  | nil => unfold State.wrWords; with_reducible repeat' first | assumption | apply State.wr_good | refine Good.ite ?_ ?_ | split
  | cons hd tl ih => unfold State.wrWords; with_reducible repeat' first | assumption | apply ih | apply State.wr_good | refine Good.ite ?_ ?_ | split

theorem State.groupWrite_good {s : State} (p : Nat) (off : Nat) (v : Word) (m : Nat) (hg : Good may s₀ s)
    (k_wshadow : may .wshadow) (k_freshCtr : may .freshCtr) (k_tku : may .tku) :
    Good may s₀ (State.groupWrite s p off v m) := by
  unfold State.groupWrite
  with_reducible repeat' first
      | assumption | apply State.lost_good | apply State.badAccess_good | apply State.emptyWsh_good | apply State.offsetCommit_good
      | apply State.wrWords_good | refine Good.ite ?_ ?_
      | (extract_lets +onlyGivenNames lt; refine (show Good may s₀ lt → _ from fun hlt => ?_) ?_; (on_goal 1 => clear_value lt); on_goal 2 => subst lt)
      | (extract_lets +onlyGivenNames lt; refine (show Good may s₀ lt.1 → _ from fun hlt => ?_) ?_; (on_goal 1 => clear_value lt); on_goal 2 => subst lt)
      | (extract_lets +onlyGivenNames lt; clear_value lt) | refine Good.of_pair ?_ ‹_› | split

theorem State.fieldsWrite_good {s : State} (p : Nat) (off : Nat) (v : Word) (m : Nat) (hg : Good may s₀ s) (ka : ∀ p, may p) :
    Good may s₀ (State.fieldsWrite s p off v m) := by
  unfold State.fieldsWrite
  with_reducible repeat' first
      | assumption | exact ka _ | apply State.wr_good | apply State.lost_good | apply State.badAccess_good | apply State.afterWrite_good
      | apply State.enableWrite_good | refine Good.ite ?_ ?_
      | (extract_lets +onlyGivenNames lt; refine (show Good may s₀ lt → _ from fun hlt => ?_) ?_; (on_goal 1 => clear_value lt); on_goal 2 => subst lt)
      | (extract_lets +onlyGivenNames lt; refine (show Good may s₀ lt.1 → _ from fun hlt => ?_) ?_; (on_goal 1 => clear_value lt); on_goal 2 => subst lt)
      | (extract_lets +onlyGivenNames lt; clear_value lt) | refine Good.of_pair ?_ ‹_› | split

theorem State.loadCnt_good {s : State} (f : Fld) (n : Nat) (hg : Good may s₀ s) :
    Good may s₀ (State.loadCnt s f n) := by
  unfold State.loadCnt
  with_reducible repeat' first | assumption | apply State.put_good | refine Good.ite ?_ ?_ | split

theorem State.loadCntPlus_good {s : State} (f : Fld) (n : Nat) (hg : Good may s₀ s) :
    Good may s₀ (State.loadCntPlus s f n) := by
  unfold State.loadCntPlus
  with_reducible repeat' first | assumption | apply State.put_good | refine Good.ite ?_ ?_ | split

theorem State.errCntWrite_good {s : State} (p : Nat) (v : Word) (broke : Bool) (hg : Good may s₀ s) :
    Good may s₀ (State.errCntWrite s p v broke) := by
  unfold State.errCntWrite
  with_reducible repeat' first
      | assumption | apply State.loadCnt_good | apply State.loadCntPlus_good | refine Good.ite ?_ ?_
      | (extract_lets +onlyGivenNames lt; refine (show Good may s₀ lt → _ from fun hlt => ?_) ?_; (on_goal 1 => clear_value lt); on_goal 2 => subst lt)
      | (extract_lets +onlyGivenNames lt; refine (show Good may s₀ lt.1 → _ from fun hlt => ?_) ?_; (on_goal 1 => clear_value lt); on_goal 2 => subst lt)
      | (extract_lets +onlyGivenNames lt; clear_value lt) | split

theorem State.abortWrite_good {s : State} (p : Nat) (v : Word) (m : Nat) (hg : Good may s₀ s) (k_mem : may .mem)
    (k_sig : may .sig) (k_aborts : may .aborts) (k_seqs : may .seqs) (k_loops : may .loops) (k_cas : may .cas)
    (k_sers : may .sers) (k_pnl : may .pnl) :
    Good may s₀ (State.abortWrite s p v m) := by
  unfold State.abortWrite
  with_reducible repeat' first | assumption | apply State.abort_good | apply State.badAccess_good | refine Good.ite ?_ ?_ | split

theorem State.plainWrite_good {s : State} (p : Nat) (off : Nat) (v : Word) (m : Nat) (broke : Bool) (hg : Good may s₀ s) (ka : ∀ p, may p) :
    Good may s₀ (State.plainWrite s p off v m broke) := by
  unfold State.plainWrite
  with_reducible repeat' first
      | assumption | exact ka _ | apply State.abortWrite_good | apply State.ctrlWrite_good | apply State.errCntWrite_good
      | apply State.fieldsWrite_good | apply State.setWsh_good | apply State.groupWrite_good | apply State.ringIndex_good | refine Good.ite ?_ ?_
      | split

theorem State.pageWrite_good {s : State} (p : Nat) (off : Nat) (v : Word) (m : Nat) (hg : Good may s₀ s) (ka : ∀ p, may p) :
    Good may s₀ (State.pageWrite s p off v m) := by
  unfold State.pageWrite
  with_reducible repeat' first
      | assumption | exact ka _ | apply State.lost_good | apply State.guardExpire_good | apply State.guardBreak_good
      | apply State.guardComplement_good | apply State.guardOpen_good | apply State.plainWrite_good | refine Good.ite ?_ ?_
      | (extract_lets +onlyGivenNames lt; refine (show Good may s₀ lt → _ from fun hlt => ?_) ?_; (on_goal 1 => clear_value lt); on_goal 2 => subst lt)
      | (extract_lets +onlyGivenNames lt; refine (show Good may s₀ lt.1 → _ from fun hlt => ?_) ?_; (on_goal 1 => clear_value lt); on_goal 2 => subst lt)
      | (extract_lets +onlyGivenNames lt; clear_value lt) | split

theorem State.guardedWrite_good {s : State} (p : Nat) (off : Nat) (v : Word) (m : Nat) (hg : Good may s₀ s) (ka : ∀ p, may p) :
    Good may s₀ (State.guardedWrite s p off v m) := by
  unfold State.guardedWrite
  with_reducible repeat' first | assumption | exact ka _ | apply State.pageWrite_good | refine Good.ite ?_ ?_ | split

theorem State.latch_good {s : State} (m : Nat) (p : Nat) (off : Nat) (p0 : List Nat) (hg : Good may s₀ s) (k_rshadow : may .rshadow) :
    Good may s₀ (State.latch s m p off p0) := by
  induction p0 generalizing s m p off with
  | nil => unfold State.latch; with_reducible repeat' first | assumption | apply State.setRsh_good | refine Good.ite ?_ ?_ | split
  | cons hd tl ih => unfold State.latch; with_reducible repeat' first
      | assumption | apply ih | apply State.setRsh_good | refine Good.ite ?_ ?_ | split

theorem State.pageRead_good {s : State} (p : Nat) (off : Nat) (m : Nat) (latch : Bool) (hg : Good may s₀ s)
    (k_rshadow : may .rshadow) (k_guards : may .guards) (k_freshCtr : may .freshCtr) :
    Good may s₀ (State.pageRead s p off m latch).1 := by
  unfold State.pageRead
  with_reducible repeat' first
      | assumption | apply State.latch_good | apply State.guardExpire_good | refine Good.ite ?_ ?_ | refine Good.ite1 ?_ ?_
      | (extract_lets +onlyGivenNames lt; refine (show Good may s₀ lt → _ from fun hlt => ?_) ?_; (on_goal 1 => clear_value lt); on_goal 2 => subst lt)
      | (extract_lets +onlyGivenNames lt; refine (show Good may s₀ lt.1 → _ from fun hlt => ?_) ?_; (on_goal 1 => clear_value lt); on_goal 2 => subst lt)
      | (extract_lets +onlyGivenNames lt; clear_value lt) | split
      | (apply Good.u_freshCtr; first | assumption | refine Good.ite ?_ ?_ | refine Good.of_pair ?_ ‹_› | apply State.latch_good | apply State.guardExpire_good)

theorem State.sigRefused_good {s : State} (n : Nat) (m : Nat) (hg : Good may s₀ s) :
    Good may s₀ (State.sigRefused s n m) := by
  unfold State.sigRefused
  with_reducible repeat' first | assumption | apply State.sigRefuse_good | refine Good.ite ?_ ?_ | split

theorem State.sigTag_good {s : State} (n : Nat) (v : Word) (m : Nat) (hg : Good may s₀ s) (k_wshadow : may .wshadow) :
    Good may s₀ (State.sigTag s n v m) := by
  unfold State.sigTag
  with_reducible repeat' first | assumption | apply State.setWsh_good | apply State.sigRefused_good | refine Good.ite ?_ ?_ | split

theorem State.sigValue_good {s : State} (n : Nat) (v : Word) (m : Nat) (hg : Good may s₀ s) (k_sig : may .sig) (k_wshadow : may .wshadow) :
    Good may s₀ (State.sigValue s n v m) := by
  unfold State.sigValue
  with_reducible repeat' first
      | assumption | apply State.setSlot_good | apply State.post_good | apply State.setWsh_good | apply State.sigRefused_good | refine Good.ite ?_ ?_
      | (extract_lets +onlyGivenNames lt; refine (show Good may s₀ lt → _ from fun hlt => ?_) ?_; (on_goal 1 => clear_value lt); on_goal 2 => subst lt)
      | (extract_lets +onlyGivenNames lt; refine (show Good may s₀ lt.1 → _ from fun hlt => ?_) ?_; (on_goal 1 => clear_value lt); on_goal 2 => subst lt)
      | (extract_lets +onlyGivenNames lt; clear_value lt) | refine Good.of_pair ?_ ‹_› | split

theorem State.sigRead_good {s : State} (o : Nat) (m : Nat) (latch : Bool) (hg : Good may s₀ s) (k_rshadow : may .rshadow) :
    Good may s₀ (State.sigRead s o m latch).1 := by
  unfold State.sigRead
  with_reducible repeat' first
      | assumption | apply State.setRsh_good | apply State.latch_good | refine Good.ite ?_ ?_ | refine Good.ite1 ?_ ?_
      | (extract_lets +onlyGivenNames lt; refine (show Good may s₀ lt → _ from fun hlt => ?_) ?_; (on_goal 1 => clear_value lt); on_goal 2 => subst lt)
      | (extract_lets +onlyGivenNames lt; refine (show Good may s₀ lt.1 → _ from fun hlt => ?_) ?_; (on_goal 1 => clear_value lt); on_goal 2 => subst lt)
      | (extract_lets +onlyGivenNames lt; clear_value lt) | split

theorem State.refuseAccess_good {s : State} (r : Region) (a : Nat) (cause : Nat) (m : Nat) (hg : Good may s₀ s)
    (k_resp : may .resp) (k_coreFaults : may .coreFaults) :
    Good may s₀ (State.refuseAccess s r a cause m) := by
  unfold State.refuseAccess
  with_reducible repeat' first
      | assumption | apply State.badAccess_good | apply State.errorResponse_good | apply State.busError_good | refine Good.ite ?_ ?_
      | (extract_lets +onlyGivenNames lt; refine (show Good may s₀ lt → _ from fun hlt => ?_) ?_; (on_goal 1 => clear_value lt); on_goal 2 => subst lt)
      | (extract_lets +onlyGivenNames lt; clear_value lt) | refine Good.of_pair ?_ ‹_› | split

theorem State.markApp_good {s : State} (a : Nat) (hg : Good may s₀ s) (k_slu : may .slu) :
    Good may s₀ (State.markApp s a) := by
  unfold State.markApp
  with_reducible repeat' first
      | assumption | refine Good.ite ?_ ?_
      | (extract_lets +onlyGivenNames lt; refine (show Good may s₀ lt → _ from fun hlt => ?_) ?_; (on_goal 1 => clear_value lt); on_goal 2 => subst lt)
      | (extract_lets +onlyGivenNames lt; clear_value lt) | split
      | (apply Good.u_slu; first | assumption | refine Good.ite ?_ ?_ | refine Good.of_pair ?_ ‹_›)

theorem State.casWrite_good {s : State} (a : Nat) (v : Word) (m : Nat) (hg : Good may s₀ s) (k_mem : may .mem) :
    Good may s₀ (State.casWrite s a v m) := by
  unfold State.casWrite
  with_reducible repeat' first
      | assumption | apply State.setLE_good | apply State.casRefused_good | refine Good.ite ?_ ?_
      | (extract_lets +onlyGivenNames lt; refine (show Good may s₀ lt → _ from fun hlt => ?_) ?_; (on_goal 1 => clear_value lt); on_goal 2 => subst lt)
      | (extract_lets +onlyGivenNames lt; clear_value lt) | refine Good.of_pair ?_ ‹_› | split

theorem State.wordWrite_good {s : State} (r : Region) (a : Nat) (v : Word) (m : Nat) (hg : Good may s₀ s) (ka : ∀ p, may p) :
    Good may s₀ (State.wordWrite s r a v m) := by
  unfold State.wordWrite
  with_reducible repeat' first
      | assumption | exact ka _ | apply State.apertureWrite_good | apply State.casWrite_good | apply State.pageWrite_good | apply State.sigTag_good
      | apply State.sigValue_good | refine Good.ite ?_ ?_
      | (extract_lets +onlyGivenNames lt; refine (show Good may s₀ lt → _ from fun hlt => ?_) ?_; (on_goal 1 => clear_value lt); on_goal 2 => subst lt)
      | (extract_lets +onlyGivenNames lt; refine (show Good may s₀ lt.1 → _ from fun hlt => ?_) ?_; (on_goal 1 => clear_value lt); on_goal 2 => subst lt)
      | (extract_lets +onlyGivenNames lt; clear_value lt) | refine Good.of_pair ?_ ‹_› | split

theorem State.wordRead_good {s : State} (r : Region) (a : Nat) (m : Nat) (latch : Bool) (hg : Good may s₀ s)
    (k_rshadow : may .rshadow) (k_guards : may .guards) (k_freshCtr : may .freshCtr) :
    Good may s₀ (State.wordRead s r a m latch).1 := by
  unfold State.wordRead
  with_reducible repeat' first
      | assumption | apply State.latch_good | apply State.pageRead_good | apply State.sigRead_good | refine Good.ite ?_ ?_ | refine Good.ite1 ?_ ?_
      | (extract_lets +onlyGivenNames lt; refine (show Good may s₀ lt → _ from fun hlt => ?_) ?_; (on_goal 1 => clear_value lt); on_goal 2 => subst lt)
      | (extract_lets +onlyGivenNames lt; clear_value lt) | refine Good.of_pair ?_ ‹_› | split

theorem State.busWrite_good {s : State} (m : Nat) (a : Nat) (size : Nat) (v : BitVec 64) (hg : Good may s₀ s) (ka : ∀ p, may p) :
    Good may s₀ (State.busWrite s m a size v) := by
  unfold State.busWrite
  with_reducible repeat' first
      | assumption | exact ka _ | apply State.setLE_good | apply State.lost_good | apply State.busError_good | apply State.refuseAccess_good
      | apply State.done_good | apply State.markApp_good | apply State.wordWrite_good | refine Good.ite ?_ ?_
      | (extract_lets +onlyGivenNames lt; refine (show Good may s₀ lt → _ from fun hlt => ?_) ?_; (on_goal 1 => clear_value lt); on_goal 2 => subst lt)
      | (extract_lets +onlyGivenNames lt; refine (show Good may s₀ lt.1 → _ from fun hlt => ?_) ?_; (on_goal 1 => clear_value lt); on_goal 2 => subst lt)
      | (extract_lets +onlyGivenNames lt; clear_value lt) | refine Good.of_pair ?_ ‹_› | split
      | (apply Good.u_resp; first | assumption | refine Good.ite ?_ ?_ | refine Good.of_pair ?_ ‹_› | apply State.setLE_good | apply State.lost_good | apply State.busError_good | apply State.refuseAccess_good | apply State.done_good | apply State.markApp_good | apply State.wordWrite_good)

theorem State.busRead_good {s : State} (m : Nat) (a : Nat) (size : Nat) (hg : Good may s₀ s) (k_rshadow : may .rshadow)
    (k_guards : may .guards) (k_resp : may .resp) (k_coreFaults : may .coreFaults) (k_freshCtr : may .freshCtr) :
    Good may s₀ (State.busRead s m a size) := by
  unfold State.busRead
  with_reducible repeat' first
      | assumption | apply State.busError_good | apply State.refuseAccess_good | apply State.wordRead_good | refine Good.ite ?_ ?_
      | (extract_lets +onlyGivenNames lt; refine (show Good may s₀ lt → _ from fun hlt => ?_) ?_; (on_goal 1 => clear_value lt); on_goal 2 => subst lt)
      | (extract_lets +onlyGivenNames lt; refine (show Good may s₀ lt.1 → _ from fun hlt => ?_) ?_; (on_goal 1 => clear_value lt); on_goal 2 => subst lt)
      | (extract_lets +onlyGivenNames lt; clear_value lt) | refine Good.of_pair ?_ ‹_› | split
      | (apply Good.u_resp; first | assumption | refine Good.ite ?_ ?_ | refine Good.of_pair ?_ ‹_› | apply State.busError_good | apply State.refuseAccess_good | apply State.wordRead_good)
      | (apply Good.u_resp_freshCtr; first | assumption | refine Good.ite ?_ ?_ | refine Good.of_pair ?_ ‹_› | apply State.busError_good | apply State.refuseAccess_good | apply State.wordRead_good)

theorem State.masterWrite_good {s : State} (m : Master) (a : Nat) (size : Nat) (v : BitVec 64) (hg : Good may s₀ s) (ka : ∀ p, may p) :
    Good may s₀ (State.masterWrite s m a size v) := by
  unfold State.masterWrite
  with_reducible repeat' first | assumption | exact ka _ | apply State.busError_good | apply State.busWrite_good | refine Good.ite ?_ ?_ | split

theorem State.masterRead_good {s : State} (m : Master) (a : Nat) (size : Nat) (hg : Good may s₀ s) (k_rshadow : may .rshadow)
    (k_guards : may .guards) (k_resp : may .resp) (k_coreFaults : may .coreFaults) (k_freshCtr : may .freshCtr) :
    Good may s₀ (State.masterRead s m a size) := by
  unfold State.masterRead
  with_reducible repeat' first | assumption | apply State.busError_good | apply State.busRead_good | refine Good.ite ?_ ?_ | split

/-! ### Ticks -/

theorem State.done_good {s : State} (old : State) (hg : Good may s₀ s) : ∃ u, State.done s old = .next u ∧ Good may s₀ u :=
  ⟨_, rfl, State.settle_good old hg⟩

theorem State.tickOver_good {s : State} (hg : Good may s₀ s) (k_tku : may .tku) :
    Good may s₀ (State.tickOver s) := by
  unfold State.tickOver
  with_reducible repeat' first
      | assumption | apply State.untilTime_good | refine Good.ite ?_ ?_
      | (extract_lets +onlyGivenNames lt; refine (show Good may s₀ lt → _ from fun hlt => ?_) ?_; (on_goal 1 => clear_value lt); on_goal 2 => subst lt)
      | (extract_lets +onlyGivenNames lt; refine (show Good may s₀ lt.1 → _ from fun hlt => ?_) ?_; (on_goal 1 => clear_value lt); on_goal 2 => subst lt)
      | (extract_lets +onlyGivenNames lt; clear_value lt) | split
      | (apply Good.u_tku; first | assumption | refine Good.ite ?_ ?_ | refine Good.of_pair ?_ ‹_› | apply State.untilTime_good)

theorem State.loadOver_good {s : State} (hg : Good may s₀ s) (k_lpeBusy : may .lpeBusy) (k_casBusy : may .casBusy) :
    Good may s₀ (State.loadOver s) := by
  unfold State.loadOver
  with_reducible repeat' first
      | assumption | apply State.put_good | refine Good.ite ?_ ?_
      | (extract_lets +onlyGivenNames lt; refine (show Good may s₀ lt → _ from fun hlt => ?_) ?_; (on_goal 1 => clear_value lt); on_goal 2 => subst lt)
      | (extract_lets +onlyGivenNames lt; refine (show Good may s₀ lt.1 → _ from fun hlt => ?_) ?_; (on_goal 1 => clear_value lt); on_goal 2 => subst lt)
      | (extract_lets +onlyGivenNames lt; clear_value lt) | split
      | (apply Good.u_lpeBusy_casBusy; first | assumption | refine Good.ite ?_ ?_ | refine Good.of_pair ?_ ‹_› | apply State.put_good)

theorem State.leaseTick_good {s : State} (hg : Good may s₀ s) (k_mem : may .mem) (k_rdc : may .rdc) :
    Good may s₀ (State.leaseTick s) := by
  unfold State.leaseTick
  with_reducible repeat' first | assumption | apply State.lapse_good | refine Good.ite ?_ ?_ | split

theorem State.rdcTick_good {s : State} (hg : Good may s₀ s) (k_mem : may .mem) (k_rdc : may .rdc) :
    Good may s₀ (State.rdcTick s) := by
  unfold State.rdcTick
  with_reducible repeat' first
      | assumption | apply State.trackReady_good | apply State.leaseTick_good | apply State.startDriving_good | refine Good.ite ?_ ?_
      | (extract_lets +onlyGivenNames lt; refine (show Good may s₀ lt → _ from fun hlt => ?_) ?_; (on_goal 1 => clear_value lt); on_goal 2 => subst lt)
      | (extract_lets +onlyGivenNames lt; refine (show Good may s₀ lt.1 → _ from fun hlt => ?_) ?_; (on_goal 1 => clear_value lt); on_goal 2 => subst lt)
      | (extract_lets +onlyGivenNames lt; clear_value lt) | split
      | (apply Good.u_rdc; first | assumption | refine Good.ite ?_ ?_ | refine Good.of_pair ?_ ‹_› | apply State.trackReady_good | apply State.leaseTick_good | apply State.startDriving_good)

theorem State.releaseLoop_good {s : State} (c : Nat) (done : Bool) (hg : Good may s₀ s) (k_mem : may .mem) (k_sig : may .sig)
    (k_freshCtr : may .freshCtr) (k_clo : may .clo) (k_ringPosted : may .ringPosted) (k_loops : may .loops) (k_slu : may .slu)
    (k_pairs : may .pairs) :
    Good may s₀ (State.releaseLoop s c done) := by
  unfold State.releaseLoop
  with_reducible repeat' first
      | assumption | apply State.done_good | apply State.loopRelease_good | apply State.sluiceDelta_good | refine Good.ite ?_ ?_ | split

theorem State.releasesLeft_good {s : State} (p0 : List Nat) (hg : Good may s₀ s) (k_mem : may .mem) (k_sig : may .sig)
    (k_freshCtr : may .freshCtr) (k_clo : may .clo) (k_ringPosted : may .ringPosted) (k_loops : may .loops) (k_slu : may .slu)
    (k_pairs : may .pairs) :
    Good may s₀ (State.releasesLeft s p0) := by
  induction p0 generalizing s with
  | nil => unfold State.releasesLeft; with_reducible repeat' first | assumption | apply State.releaseLoop_good | refine Good.ite ?_ ?_ | split
  | cons hd tl ih => unfold State.releasesLeft; with_reducible repeat' first
      | assumption | apply ih | apply State.releaseLoop_good | refine Good.ite ?_ ?_ | split

theorem State.loopAborts_good {s : State} (hg : Good may s₀ s) (k_mem : may .mem) (k_sig : may .sig) (k_aborts : may .aborts)
    (k_seqs : may .seqs) (k_loops : may .loops) (k_cas : may .cas) (k_sers : may .sers) (k_pnl : may .pnl) :
    Good may s₀ (State.loopAborts s) := by
  unfold State.loopAborts
  with_reducible repeat' first
      | assumption | apply State.abortComplete_good | refine Good.ite ?_ ?_ | (refine Good.foldl (fun _ _ _ => ?_) ?_)
      | (extract_lets +onlyGivenNames lt; refine (show Good may s₀ lt.1 → _ from fun hlt => ?_) ?_; (on_goal 1 => clear_value lt); on_goal 2 => subst lt)
      | split

theorem execTickBoundary_good {s : State} (field : List FieldSample) (hg : Good may s₀ s) (ka : ∀ p, may p) :
    ∃ u, execTickBoundary field s = .next u ∧ Good may s₀ u := by
  unfold execTickBoundary
  refine State.done_good _ ?_
  with_reducible repeat' first
      | assumption | exact ka _ | apply State.ageAll_good | apply State.bankTicks_good | apply State.done_good | apply State.wakesDue_good
      | apply State.epochs_good | apply State.hartLinks_good | apply State.loadOver_good | apply State.loopAborts_good | apply State.measureAll_good
      | apply State.rdcTick_good | apply State.releasesLeft_good | apply State.sluiceSecond_good | apply State.tickOver_good | refine Good.ite ?_ ?_
      | split

theorem State.snapshot_good {s : State} (hg : Good may s₀ s) (k_mem : may .mem) (k_sig : may .sig) (k_freshCtr : may .freshCtr)
    (k_tku : may .tku) (k_clo : may .clo) (k_seqs : may .seqs) (k_loops : may .loops) (k_cas : may .cas)
    (k_lpeBusy : may .lpeBusy) (k_cis : may .cis) (k_pairs : may .pairs) :
    Good may s₀ (State.snapshot s) := by
  unfold State.snapshot
  with_reducible repeat' first
      | assumption | apply State.untilTime_good | apply State.casSnapshot_good | apply State.cisSnapshot_good | apply State.clocksForWork_good
      | apply State.lpeSnapshot_good | apply State.seqSnapshots_good | refine Good.ite ?_ ?_
      | (extract_lets +onlyGivenNames lt; refine (show Good may s₀ lt → _ from fun hlt => ?_) ?_; (on_goal 1 => clear_value lt); on_goal 2 => subst lt)
      | (extract_lets +onlyGivenNames lt; refine (show Good may s₀ lt.1 → _ from fun hlt => ?_) ?_; (on_goal 1 => clear_value lt); on_goal 2 => subst lt)
      | (extract_lets +onlyGivenNames lt; clear_value lt) | split
      | (apply Good.u_tku; first | assumption | refine Good.ite ?_ ?_ | refine Good.of_pair ?_ ‹_› | apply State.untilTime_good | apply State.casSnapshot_good | apply State.cisSnapshot_good | apply State.clocksForWork_good | apply State.lpeSnapshot_good | apply State.seqSnapshots_good)

theorem execSnapshotInstant_good {s : State} (hg : Good may s₀ s) (k_mem : may .mem) (k_sig : may .sig)
    (k_freshCtr : may .freshCtr) (k_tku : may .tku) (k_clo : may .clo) (k_seqs : may .seqs) (k_loops : may .loops)
    (k_cas : may .cas) (k_lpeBusy : may .lpeBusy) (k_cis : may .cis) (k_pairs : may .pairs) :
    ∃ u, execSnapshotInstant s = .next u ∧ Good may s₀ u := by
  unfold execSnapshotInstant
  refine State.done_good _ ?_
  with_reducible repeat' first | assumption | apply State.done_good | apply State.snapshot_good | refine Good.ite ?_ ?_ | split

theorem execStageCutoff_good {s : State} (hg : Good may s₀ s) (k_mem : may .mem) (k_sig : may .sig) (k_freshCtr : may .freshCtr)
    (k_tku : may .tku) (k_clo : may .clo) (k_ringPosted : may .ringPosted) (k_chans : may .chans) (k_loops : may .loops)
    (k_slu : may .slu) (k_pairs : may .pairs) :
    ∃ u, execStageCutoff s = .next u ∧ Good may s₀ u := by
  unfold execStageCutoff
  refine State.done_good _ ?_
  with_reducible repeat' first
      | assumption | apply State.done_good | apply State.untilTime_good | apply State.wakesDue_good | apply State.releasesLeft_good
      | apply State.stageBanks_good | refine Good.ite ?_ ?_
      | (extract_lets +onlyGivenNames lt; refine (show Good may s₀ lt → _ from fun hlt => ?_) ?_; (on_goal 1 => clear_value lt); on_goal 2 => subst lt)
      | (extract_lets +onlyGivenNames lt; refine (show Good may s₀ lt.1 → _ from fun hlt => ?_) ?_; (on_goal 1 => clear_value lt); on_goal 2 => subst lt)
      | (extract_lets +onlyGivenNames lt; clear_value lt) | split
      | (apply Good.u_tku; first | assumption | refine Good.ite ?_ ?_ | refine Good.of_pair ?_ ‹_› | apply State.done_good | apply State.untilTime_good | apply State.wakesDue_good | apply State.releasesLeft_good | apply State.stageBanks_good)

theorem execDomainWake_good {s : State} (d : Fin 10) (hg : Good may s₀ s) (k_tku : may .tku) (k_clo : may .clo) (k_pairs : may .pairs) :
    ∃ u, execDomainWake d s = .next u ∧ Good may s₀ u := by
  unfold execDomainWake
  refine State.done_good _ ?_
  with_reducible repeat' first
      | assumption | apply State.wakeDomain_good | apply State.done_good | apply State.untilTime_good | refine Good.ite ?_ ?_
      | (extract_lets +onlyGivenNames lt; refine (show Good may s₀ lt → _ from fun hlt => ?_) ?_; (on_goal 1 => clear_value lt); on_goal 2 => subst lt)
      | (extract_lets +onlyGivenNames lt; refine (show Good may s₀ lt.1 → _ from fun hlt => ?_) ?_; (on_goal 1 => clear_value lt); on_goal 2 => subst lt)
      | (extract_lets +onlyGivenNames lt; clear_value lt) | refine Good.of_pair ?_ ‹_› | split

theorem State.clockLocked_good {s : State} (d : Nat) (hg : Good may s₀ s) :
    Good may s₀ (State.clockLocked s d) := by
  unfold State.clockLocked
  with_reducible repeat' first
      | assumption | apply State.bump_good | apply State.putBit_good | refine Good.ite ?_ ?_
      | (extract_lets +onlyGivenNames lt; refine (show Good may s₀ lt → _ from fun hlt => ?_) ?_; (on_goal 1 => clear_value lt); on_goal 2 => subst lt)
      | (extract_lets +onlyGivenNames lt; refine (show Good may s₀ lt.1 → _ from fun hlt => ?_) ?_; (on_goal 1 => clear_value lt); on_goal 2 => subst lt)
      | (extract_lets +onlyGivenNames lt; clear_value lt) | split

theorem execClockLocked_good {s : State} (d : Fin 11) (hg : Good may s₀ s) :
    ∃ u, execClockLocked d s = .next u ∧ Good may s₀ u := by
  unfold execClockLocked
  refine State.done_good _ ?_
  with_reducible repeat' first | assumption | apply State.done_good | apply State.clockLocked_good | refine Good.ite ?_ ?_ | split

theorem execDomainSleep_good {s : State} (d : Fin 10) (hg : Good may s₀ s) :
    ∃ u, execDomainSleep d s = .next u ∧ Good may s₀ u := by
  unfold execDomainSleep
  refine State.done_good _ ?_
  with_reducible repeat' first | assumption | apply State.stopDomain_good | apply State.done_good | refine Good.ite ?_ ?_ | split

theorem execFclkLockTimeout_good {s : State} (d : Fin 10) (hg : Good may s₀ s) (k_tku : may .tku) :
    ∃ u, execFclkLockTimeout d s = .next u ∧ Good may s₀ u := by
  unfold execFclkLockTimeout
  refine State.done_good _ ?_
  with_reducible repeat' first
      | assumption | apply State.untilMono_good | apply State.putBit_good | apply State.done_good | refine Good.ite ?_ ?_ | split

theorem execFclkLock1msTimeout_good {s : State} (d : Fin 10) (hg : Good may s₀ s) (k_mem : may .mem) (k_sig : may .sig)
    (k_aborts : may .aborts) (k_tku : may .tku) (k_pwr : may .pwr) (k_clo : may .clo) (k_seqs : may .seqs) (k_loops : may .loops)
    (k_cas : may .cas) (k_sers : may .sers) (k_rdc : may .rdc) (k_cis : may .cis) (k_pnl : may .pnl) (k_pairs : may .pairs) :
    ∃ u, execFclkLock1msTimeout d s = .next u ∧ Good may s₀ u := by
  unfold execFclkLock1msTimeout
  refine State.done_good _ ?_
  with_reducible repeat' first
      | assumption | apply State.untilMono_good | apply State.safeHold_good | apply State.done_good | refine Good.ite ?_ ?_ | split

theorem State.judgeClock_good {s : State} (d : Nat) (ppm : Int) (hg : Good may s₀ s) :
    Good may s₀ (State.judgeClock s d ppm) := by
  unfold State.judgeClock
  with_reducible repeat' first
      | assumption | apply State.bump_good | apply State.putBit_good | refine Good.ite ?_ ?_
      | (extract_lets +onlyGivenNames lt; refine (show Good may s₀ lt → _ from fun hlt => ?_) ?_; (on_goal 1 => clear_value lt); on_goal 2 => subst lt)
      | (extract_lets +onlyGivenNames lt; refine (show Good may s₀ lt.1 → _ from fun hlt => ?_) ?_; (on_goal 1 => clear_value lt); on_goal 2 => subst lt)
      | (extract_lets +onlyGivenNames lt; clear_value lt) | split

theorem State.judgeEach_good {s : State} (p0 : List (Fin 11 × Int)) (hg : Good may s₀ s) :
    Good may s₀ (State.judgeEach s p0) := by
  induction p0 generalizing s with
  | nil => unfold State.judgeEach; with_reducible repeat' first | assumption | apply State.judgeClock_good | refine Good.ite ?_ ?_ | split
  | cons hd tl ih => unfold State.judgeEach; with_reducible repeat' first
      | assumption | apply ih | apply State.judgeClock_good | refine Good.ite ?_ ?_ | split

theorem State.judgeClocks_good {s : State} (l : List (Fin 11 × Int)) (hg : Good may s₀ s) (k_mem : may .mem) (k_sig : may .sig)
    (k_aborts : may .aborts) (k_pwr : may .pwr) (k_clo : may .clo) (k_seqs : may .seqs) (k_loops : may .loops) (k_cas : may .cas)
    (k_sers : may .sers) (k_rdc : may .rdc) (k_cis : may .cis) (k_pnl : may .pnl) (k_pairs : may .pairs) :
    Good may s₀ (State.judgeClocks s l) := by
  unfold State.judgeClocks
  with_reducible repeat' first
      | assumption | apply State.safeHold_good | apply State.judgeEach_good | refine Good.ite ?_ ?_
      | (extract_lets +onlyGivenNames lt; refine (show Good may s₀ lt → _ from fun hlt => ?_) ?_; (on_goal 1 => clear_value lt); on_goal 2 => subst lt)
      | (extract_lets +onlyGivenNames lt; refine (show Good may s₀ lt.1 → _ from fun hlt => ?_) ?_; (on_goal 1 => clear_value lt); on_goal 2 => subst lt)
      | (extract_lets +onlyGivenNames lt; clear_value lt) | split

theorem execFclkMonitorWindow_good {s : State} (dev : List (Fin 11 × Int)) (hg : Good may s₀ s) (k_mem : may .mem)
    (k_sig : may .sig) (k_aborts : may .aborts) (k_pwr : may .pwr) (k_clo : may .clo) (k_seqs : may .seqs) (k_loops : may .loops)
    (k_cas : may .cas) (k_sers : may .sers) (k_rdc : may .rdc) (k_cis : may .cis) (k_pnl : may .pnl) (k_pairs : may .pairs) :
    ∃ u, execFclkMonitorWindow dev s = .next u ∧ Good may s₀ u := by
  unfold execFclkMonitorWindow
  refine State.done_good _ ?_
  with_reducible repeat' first | assumption | apply State.done_good | apply State.judgeClocks_good | refine Good.ite ?_ ?_ | split

theorem execTcxoCheckWindow_good {s : State} (ppb : Int) (hg : Good may s₀ s) (k_tku : may .tku) :
    ∃ u, execTcxoCheckWindow ppb s = .next u ∧ Good may s₀ u := by
  unfold execTcxoCheckWindow
  refine State.done_good _ ?_
  with_reducible repeat' first
      | assumption | apply State.putB_good | apply State.untilMono_good | apply State.done_good | refine Good.ite ?_ ?_
      | (extract_lets +onlyGivenNames lt; refine (show Good may s₀ lt → _ from fun hlt => ?_) ?_; (on_goal 1 => clear_value lt); on_goal 2 => subst lt)
      | (extract_lets +onlyGivenNames lt; refine (show Good may s₀ lt.1 → _ from fun hlt => ?_) ?_; (on_goal 1 => clear_value lt); on_goal 2 => subst lt)
      | (extract_lets +onlyGivenNames lt; clear_value lt) | split
      | (apply Good.u_tku; first | assumption | refine Good.ite ?_ ?_ | refine Good.of_pair ?_ ‹_› | apply State.putB_good | apply State.untilMono_good | apply State.done_good)

theorem execHoldoverTimeout_good {s : State} (hg : Good may s₀ s) (k_freshCtr : may .freshCtr) (k_tku : may .tku) :
    ∃ u, execHoldoverTimeout s = .next u ∧ Good may s₀ u := by
  unfold execHoldoverTimeout
  refine State.done_good _ ?_
  with_reducible repeat' first
      | assumption | apply State.untilMono_good | apply State.done_good | apply State.enterHoldover_good | refine Good.ite ?_ ?_
      | (extract_lets +onlyGivenNames lt; refine (show Good may s₀ lt → _ from fun hlt => ?_) ?_; (on_goal 1 => clear_value lt); on_goal 2 => subst lt)
      | (extract_lets +onlyGivenNames lt; clear_value lt) | refine Good.of_pair ?_ ‹_› | split

theorem State.handoverShift_good {s : State} (d : BitVec 64) (hg : Good may s₀ s) (k_rdc : may .rdc) :
    Good may s₀ (State.handoverShift s d) := by
  unfold State.handoverShift
  with_reducible repeat' first
      | assumption | refine Good.ite ?_ ?_
      | (extract_lets +onlyGivenNames lt; refine (show Good may s₀ lt → _ from fun hlt => ?_) ?_; (on_goal 1 => clear_value lt); on_goal 2 => subst lt)
      | (extract_lets +onlyGivenNames lt; clear_value lt) | split
      | (apply Good.u_rdc; first | assumption | refine Good.ite ?_ ?_ | refine Good.of_pair ?_ ‹_›)

theorem State.stepTime_good {s : State} (o : BitVec 64) (hg : Good may s₀ s) (k_tku : may .tku) :
    Good may s₀ (State.stepTime s o) := by
  unfold State.stepTime
  with_reducible repeat' first
      | assumption | refine Good.ite ?_ ?_
      | (extract_lets +onlyGivenNames lt; refine (show Good may s₀ lt → _ from fun hlt => ?_) ?_; (on_goal 1 => clear_value lt); on_goal 2 => subst lt)
      | (extract_lets +onlyGivenNames lt; refine (show Good may s₀ lt.1 → _ from fun hlt => ?_) ?_; (on_goal 1 => clear_value lt); on_goal 2 => subst lt)
      | (extract_lets +onlyGivenNames lt; clear_value lt) | split
      | (apply Good.u_tku; first | assumption | refine Good.ite ?_ ?_ | refine Good.of_pair ?_ ‹_›)

theorem State.applyStep_good {s : State} (o : BitVec 64) (hg : Good may s₀ s) (k_tku : may .tku) (k_seqs : may .seqs)
    (k_cas : may .cas) (k_rdc : may .rdc) :
    Good may s₀ (State.applyStep s o) := by
  unfold State.applyStep
  with_reducible repeat' first
      | assumption | apply State.put_good | apply State.inc_good | apply State.put64_good | apply State.canShift_good | apply State.casShift_good
      | apply State.handoverShift_good | apply State.offsetAccepted_good | apply State.shiftSeqs_good | apply State.stepTime_good
      | refine Good.ite ?_ ?_
      | (extract_lets +onlyGivenNames lt; refine (show Good may s₀ lt → _ from fun hlt => ?_) ?_; (on_goal 1 => clear_value lt); on_goal 2 => subst lt)
      | (extract_lets +onlyGivenNames lt; refine (show Good may s₀ lt.1 → _ from fun hlt => ?_) ?_; (on_goal 1 => clear_value lt); on_goal 2 => subst lt)
      | (extract_lets +onlyGivenNames lt; clear_value lt) | split

theorem execStepApply_good {s : State} (hg : Good may s₀ s) (k_tku : may .tku) (k_seqs : may .seqs) (k_cas : may .cas) (k_rdc : may .rdc) :
    ∃ u, execStepApply s = .next u ∧ Good may s₀ u := by
  unfold execStepApply
  refine State.done_good _ ?_
  with_reducible repeat' first
      | assumption | apply State.applyStep_good | apply State.done_good | refine Good.ite ?_ ?_
      | (extract_lets +onlyGivenNames lt; refine (show Good may s₀ lt → _ from fun hlt => ?_) ?_; (on_goal 1 => clear_value lt); on_goal 2 => subst lt)
      | (extract_lets +onlyGivenNames lt; clear_value lt) | refine Good.of_pair ?_ ‹_› | split

end Sys2Proof.Machine
end

