-- ==== Sys2Proof/Laws/KeepAccess.lean ====
section
/-! SUPPORT. What every operation keeps (`Good`), operation by operation: the commands of Access, Logic, Remote and Loops. -/

set_option linter.all false

namespace Sys2Proof.Machine

variable {may : Part → Prop} {s₀ : State}

/-! ### Access -/

theorem State.cmdWrite_good {s : State} (m : Master) (p : Nat) (off : Nat) (v : BitVec 32) (hg : Good may s₀ s) (ka : ∀ p, may p) :
    Good may s₀ (State.cmdWrite s m p off v) := by
  unfold State.cmdWrite
  with_reducible repeat' first | assumption | exact ka _ | apply State.masterWrite_good | refine Good.ite ?_ ?_ | split

theorem State.cmdGuard_good {s : State} (m : Master) (p : Nat) (off : Nat) (v : BitVec 32) (hg : Good may s₀ s) (ka : ∀ p, may p) :
    Good may s₀ (State.cmdGuard s m p off v) := by
  unfold State.cmdGuard
  with_reducible repeat' first | assumption | exact ka _ | apply State.cmdWrite_good | refine Good.ite ?_ ?_ | split

theorem execUnmappedAccess_good {s : State} (m : Master) (addr : BitVec 32) (size : Nat) (uwr3 : Bool) (hg : Good may s₀ s)
    (k_resp : may .resp) (k_coreFaults : may .coreFaults) :
    ∃ u, execUnmappedAccess m addr size uwr3 s = .next u ∧ Good may s₀ u := by
  unfold execUnmappedAccess
  refine State.done_good _ ?_
  with_reducible repeat' first
      | assumption | apply State.busError_good | apply State.done_good | refine Good.ite ?_ ?_
      | (extract_lets +onlyGivenNames lt; refine (show Good may s₀ lt → _ from fun hlt => ?_) ?_; (on_goal 1 => clear_value lt); on_goal 2 => subst lt)
      | (extract_lets +onlyGivenNames lt; refine (show Good may s₀ lt.1 → _ from fun hlt => ?_) ?_; (on_goal 1 => clear_value lt); on_goal 2 => subst lt)
      | (extract_lets +onlyGivenNames lt; clear_value lt) | split

theorem execRegisterWrite_good {s : State} (m : Master) (addr : BitVec 32) (size : Nat) (v : BitVec 64) (hg : Good may s₀ s) (ka : ∀ p, may p) :
    ∃ u, execRegisterWrite m addr size v s = .next u ∧ Good may s₀ u := by
  unfold execRegisterWrite
  refine State.done_good _ ?_
  with_reducible repeat' first | assumption | exact ka _ | apply State.done_good | apply State.masterWrite_good | refine Good.ite ?_ ?_ | split

theorem execLowWordRead_good {s : State} (m : Master) (addr : BitVec 32) (size : Nat) (hg : Good may s₀ s)
    (k_rshadow : may .rshadow) (k_guards : may .guards) (k_resp : may .resp) (k_coreFaults : may .coreFaults)
    (k_freshCtr : may .freshCtr) :
    ∃ u, execLowWordRead m addr size s = .next u ∧ Good may s₀ u := by
  unfold execLowWordRead
  refine State.done_good _ ?_
  with_reducible repeat' first | assumption | apply State.done_good | apply State.masterRead_good | refine Good.ite ?_ ?_ | split

theorem execHighWordWrite_good {s : State} (m : Master) (addr : BitVec 32) (v : BitVec 32) (hg : Good may s₀ s) (ka : ∀ p, may p) :
    ∃ u, execHighWordWrite m addr v s = .next u ∧ Good may s₀ u := by
  unfold execHighWordWrite
  refine State.done_good _ ?_
  with_reducible repeat' first | assumption | exact ka _ | apply State.done_good | apply State.masterWrite_good | refine Good.ite ?_ ?_ | split

theorem execLowWordWrite_good {s : State} (m : Master) (addr : BitVec 32) (v : BitVec 32) (hg : Good may s₀ s) (ka : ∀ p, may p) :
    ∃ u, execLowWordWrite m addr v s = .next u ∧ Good may s₀ u := by
  unfold execLowWordWrite
  refine State.done_good _ ?_
  with_reducible repeat' first | assumption | exact ka _ | apply State.done_good | apply State.masterWrite_good | refine Good.ite ?_ ?_ | split

theorem execSigimgTagWrite_good {s : State} (m : Master) (slot : Fin 8192) (v : BitVec 32) (hg : Good may s₀ s) (ka : ∀ p, may p) :
    ∃ u, execSigimgTagWrite m slot v s = .next u ∧ Good may s₀ u := by
  unfold execSigimgTagWrite
  refine State.done_good _ ?_
  with_reducible repeat' first | assumption | exact ka _ | apply State.done_good | apply State.masterWrite_good | refine Good.ite ?_ ?_ | split

theorem execSigimgValueWrite_good {s : State} (m : Master) (slot : Fin 8192) (v : BitVec 32) (hg : Good may s₀ s) (ka : ∀ p, may p) :
    ∃ u, execSigimgValueWrite m slot v s = .next u ∧ Good may s₀ u := by
  unfold execSigimgValueWrite
  refine State.done_good _ ?_
  with_reducible repeat' first | assumption | exact ka _ | apply State.done_good | apply State.masterWrite_good | refine Good.ite ?_ ?_ | split

theorem execErrCntWrite_good {s : State} (m : Master) (page : Fin 256) (v : BitVec 32) (hg : Good may s₀ s) (ka : ∀ p, may p) :
    ∃ u, execErrCntWrite m page v s = .next u ∧ Good may s₀ u := by
  unfold execErrCntWrite
  refine State.done_good _ ?_
  with_reducible repeat' first | assumption | exact ka _ | apply State.done_good | apply State.cmdWrite_good | refine Good.ite ?_ ?_ | split

theorem execEnableClear_good {s : State} (m : Master) (page : Fin 256) (v : BitVec 32) (hg : Good may s₀ s) (ka : ∀ p, may p) :
    ∃ u, execEnableClear m page v s = .next u ∧ Good may s₀ u := by
  unfold execEnableClear
  refine State.done_good _ ?_
  with_reducible repeat' first | assumption | exact ka _ | apply State.done_good | apply State.cmdWrite_good | refine Good.ite ?_ ?_ | split

theorem execSoftReset_good {s : State} (m : Master) (page : Fin 256) (v : BitVec 32) (hg : Good may s₀ s) (ka : ∀ p, may p) :
    ∃ u, execSoftReset m page v s = .next u ∧ Good may s₀ u := by
  unfold execSoftReset
  refine State.done_good _ ?_
  with_reducible repeat' first | assumption | exact ka _ | apply State.done_good | apply State.cmdWrite_good | refine Good.ite ?_ ?_ | split

theorem execAbort_good {s : State} (m : Master) (page : Fin 256) (v : BitVec 32) (hg : Good may s₀ s) (ka : ∀ p, may p) :
    ∃ u, execAbort m page v s = .next u ∧ Good may s₀ u := by
  unfold execAbort
  refine State.done_good _ ?_
  with_reducible repeat' first | assumption | exact ka _ | apply State.done_good | apply State.cmdWrite_good | refine Good.ite ?_ ?_ | split

theorem execAbortComplete_good {s : State} (page : Fin 256) (unit : Fin 128) (hg : Good may s₀ s) (k_mem : may .mem)
    (k_sig : may .sig) (k_aborts : may .aborts) (k_seqs : may .seqs) (k_loops : may .loops) (k_cas : may .cas)
    (k_sers : may .sers) (k_pnl : may .pnl) :
    ∃ u, execAbortComplete page unit s = .next u ∧ Good may s₀ u := by
  unfold execAbortComplete
  refine State.done_good _ ?_
  with_reducible repeat' first
      | assumption | apply State.abortComplete_good | apply State.done_good | refine Good.ite ?_ ?_
      | (extract_lets +onlyGivenNames lt; refine (show Good may s₀ lt.1 → _ from fun hlt => ?_) ?_; (on_goal 1 => clear_value lt); on_goal 2 => subst lt)
      | split

theorem execAbortOverBound_good {s : State} (page : Fin 256) (unit : Fin 128) (hg : Good may s₀ s) (k_tku : may .tku) :
    ∃ u, execAbortOverBound page unit s = .next u ∧ Good may s₀ u := by
  unfold execAbortOverBound
  refine State.done_good _ ?_
  with_reducible repeat' first | assumption | apply State.abortLate_good | apply State.done_good | refine Good.ite ?_ ?_ | split

theorem execLoopAbortFallback_good {s : State} (c : Fin 128) (hg : Good may s₀ s) (k_mem : may .mem) (k_sig : may .sig)
    (k_aborts : may .aborts) (k_seqs : may .seqs) (k_loops : may .loops) (k_cas : may .cas) (k_sers : may .sers)
    (k_pnl : may .pnl) :
    ∃ u, execLoopAbortFallback c s = .next u ∧ Good may s₀ u := by
  unfold execLoopAbortFallback
  refine State.done_good _ ?_
  with_reducible repeat' first
      | assumption | apply State.abortComplete_good | apply State.done_good | refine Good.ite ?_ ?_
      | (extract_lets +onlyGivenNames lt; refine (show Good may s₀ lt.1 → _ from fun hlt => ?_) ?_; (on_goal 1 => clear_value lt); on_goal 2 => subst lt)
      | split

theorem execGuardedValueWrite_good {s : State} (m : Master) (page : Fin 256) (off : BitVec 12) (v : BitVec 32)
    (hg : Good may s₀ s) (ka : ∀ p, may p) :
    ∃ u, execGuardedValueWrite m page off v s = .next u ∧ Good may s₀ u := by
  unfold execGuardedValueWrite
  refine State.done_good _ ?_
  with_reducible repeat' first | assumption | exact ka _ | apply State.done_good | apply State.cmdWrite_good | refine Good.ite ?_ ?_ | split

theorem execGuardTimeout_good {s : State} (page : Fin 256) (hg : Good may s₀ s) (k_guards : may .guards) (k_tku : may .tku) :
    ∃ u, execGuardTimeout page s = .next u ∧ Good may s₀ u := by
  unfold execGuardTimeout
  refine State.done_good _ ?_
  with_reducible repeat' first
      | assumption | apply State.untilMono_good | apply State.guardExpire_good | apply State.done_good | refine Good.ite ?_ ?_
      | (extract_lets +onlyGivenNames lt; refine (show Good may s₀ lt → _ from fun hlt => ?_) ?_; (on_goal 1 => clear_value lt); on_goal 2 => subst lt)
      | (extract_lets +onlyGivenNames lt; clear_value lt) | refine Good.of_pair ?_ ‹_› | split

theorem execFeatCommit_good {s : State} (m : Master) (v : BitVec 32) (hg : Good may s₀ s) (ka : ∀ p, may p) :
    ∃ u, execFeatCommit m v s = .next u ∧ Good may s₀ u := by
  unfold execFeatCommit
  refine State.done_good _ ?_
  with_reducible repeat' first | assumption | exact ka _ | apply State.done_good | apply State.cmdGuard_good | refine Good.ite ?_ ?_ | split

theorem execStateReqRun_good {s : State} (m : Master) (hg : Good may s₀ s) (ka : ∀ p, may p) :
    ∃ u, execStateReqRun m s = .next u ∧ Good may s₀ u := by
  unfold execStateReqRun
  refine State.done_good _ ?_
  with_reducible repeat' first | assumption | exact ka _ | apply State.done_good | apply State.cmdGuard_good | refine Good.ite ?_ ?_ | split

theorem execStateReqRestart_good {s : State} (m : Master) (hg : Good may s₀ s) (ka : ∀ p, may p) :
    ∃ u, execStateReqRestart m s = .next u ∧ Good may s₀ u := by
  unfold execStateReqRestart
  refine State.done_good _ ?_
  with_reducible repeat' first | assumption | exact ka _ | apply State.done_good | apply State.cmdGuard_good | refine Good.ite ?_ ?_ | split

theorem execImgUpdStart_good {s : State} (m : Master) (v : BitVec 32) (hg : Good may s₀ s) (ka : ∀ p, may p) :
    ∃ u, execImgUpdStart m v s = .next u ∧ Good may s₀ u := by
  unfold execImgUpdStart
  refine State.done_good _ ?_
  with_reducible repeat' first | assumption | exact ka _ | apply State.done_good | apply State.cmdGuard_good | refine Good.ite ?_ ?_ | split

theorem execImageUpdateDone_good {s : State} (hg : Good may s₀ s) (k_dev : may .dev) :
    ∃ u, execImageUpdateDone s = .next u ∧ Good may s₀ u := by
  unfold execImageUpdateDone
  refine State.done_good _ ?_
  with_reducible repeat' first | assumption | apply State.done_good | apply State.imgUpdDone_good | refine Good.ite ?_ ?_ | split

theorem execBootSelect_good {s : State} (m : Master) (v : BitVec 32) (hg : Good may s₀ s) (ka : ∀ p, may p) :
    ∃ u, execBootSelect m v s = .next u ∧ Good may s₀ u := by
  unfold execBootSelect
  refine State.done_good _ ?_
  with_reducible repeat' first | assumption | exact ka _ | apply State.done_good | apply State.cmdGuard_good | refine Good.ite ?_ ?_ | split

theorem execServoOffsetWrite_good {s : State} (m : Master) (v : BitVec 32) (hg : Good may s₀ s) (ka : ∀ p, may p) :
    ∃ u, execServoOffsetWrite m v s = .next u ∧ Good may s₀ u := by
  unfold execServoOffsetWrite
  refine State.done_good _ ?_
  with_reducible repeat' first | assumption | exact ka _ | apply State.done_good | apply State.cmdWrite_good | refine Good.ite ?_ ?_ | split

theorem execAddendFracWrite_good {s : State} (m : Master) (v : BitVec 32) (hg : Good may s₀ s) (ka : ∀ p, may p) :
    ∃ u, execAddendFracWrite m v s = .next u ∧ Good may s₀ u := by
  unfold execAddendFracWrite
  refine State.done_good _ ?_
  with_reducible repeat' first | assumption | exact ka _ | apply State.done_good | apply State.cmdWrite_good | refine Good.ite ?_ ?_ | split

theorem execIntegClr_good {s : State} (m : Master) (hg : Good may s₀ s) (ka : ∀ p, may p) :
    ∃ u, execIntegClr m s = .next u ∧ Good may s₀ u := by
  unfold execIntegClr
  refine State.done_good _ ?_
  with_reducible repeat' first | assumption | exact ka _ | apply State.done_good | apply State.cmdWrite_good | refine Good.ite ?_ ?_ | split

theorem execStepPermit_good {s : State} (m : Master) (v : BitVec 32) (hg : Good may s₀ s) (ka : ∀ p, may p) :
    ∃ u, execStepPermit m v s = .next u ∧ Good may s₀ u := by
  unfold execStepPermit
  refine State.done_good _ ?_
  with_reducible repeat' first | assumption | exact ka _ | apply State.done_good | apply State.cmdGuard_good | refine Good.ite ?_ ?_ | split

/-! ### Logic -/

theorem State.ilRun_good {s : State} (q op : Nat) (o : BitVec 24) (f : State → Nat → IlResult)
    (hf : ∀ t, GoodIl may s₀ (f s t)) (hg : Good may s₀ s) (k_sig : may .sig) (k_seqs : may .seqs)
    (k_gnt : may .gnt) : ∃ u, s.ilRun q op o f = .next u ∧ Good may s₀ u := by
  refine State.done_good _ (Good.ite ?_ hg)
  apply State.il_good <;> assumption

theorem execNop_good {s : State} (q : Fin 4) (o : BitVec 24) (hg : Good may s₀ s) (k_sig : may .sig) (k_seqs : may .seqs) (k_gnt : may .gnt) :
    ∃ u, execNop q o s = .next u ∧ Good may s₀ u := by
  unfold execNop
  refine State.ilRun_good _ _ _ _ (fun _ => ?_) hg ?_ ?_ ?_
  with_reducible repeat' first
      | assumption | apply State.ilRun_good | apply ilNoOperand_good | refine Good.ite ?_ ?_ | exact GoodIl.fault | apply GoodIl.next
      | apply GoodIl.jump | refine GoodIl.ite ?_ ?_ | split

theorem execLd_good {s : State} (q : Fin 4) (o : BitVec 24) (hg : Good may s₀ s) (k_sig : may .sig) (k_seqs : may .seqs) (k_gnt : may .gnt) :
    ∃ u, execLd q o s = .next u ∧ Good may s₀ u := by
  unfold execLd
  refine State.ilRun_good _ _ _ _ (fun _ => ?_) hg ?_ ?_ ?_
  with_reducible repeat' first
      | assumption | apply State.ilRun_good | apply ilCombine_good | refine Good.ite ?_ ?_ | exact GoodIl.fault | apply GoodIl.next
      | apply GoodIl.jump | refine GoodIl.ite ?_ ?_ | split

theorem execLdn_good {s : State} (q : Fin 4) (o : BitVec 24) (hg : Good may s₀ s) (k_sig : may .sig) (k_seqs : may .seqs) (k_gnt : may .gnt) :
    ∃ u, execLdn q o s = .next u ∧ Good may s₀ u := by
  unfold execLdn
  refine State.ilRun_good _ _ _ _ (fun _ => ?_) hg ?_ ?_ ?_
  with_reducible repeat' first
      | assumption | apply State.ilRun_good | apply ilCombine_good | refine Good.ite ?_ ?_ | exact GoodIl.fault | apply GoodIl.next
      | apply GoodIl.jump | refine GoodIl.ite ?_ ?_ | split

theorem execSt_good {s : State} (q : Fin 4) (o : BitVec 24) (hg : Good may s₀ s) (k_sig : may .sig) (k_seqs : may .seqs) (k_gnt : may .gnt) :
    ∃ u, execSt q o s = .next u ∧ Good may s₀ u := by
  unfold execSt
  refine State.ilRun_good _ _ _ _ (fun _ => ?_) hg ?_ ?_ ?_
  with_reducible repeat' first
      | assumption | apply State.ilRun_good | apply ilStore_good | refine Good.ite ?_ ?_ | exact GoodIl.fault | apply GoodIl.next | apply GoodIl.jump
      | refine GoodIl.ite ?_ ?_ | split

theorem execStn_good {s : State} (q : Fin 4) (o : BitVec 24) (hg : Good may s₀ s) (k_sig : may .sig) (k_seqs : may .seqs) (k_gnt : may .gnt) :
    ∃ u, execStn q o s = .next u ∧ Good may s₀ u := by
  unfold execStn
  refine State.ilRun_good _ _ _ _ (fun _ => ?_) hg ?_ ?_ ?_
  with_reducible repeat' first
      | assumption | apply State.ilRun_good | apply ilStore_good | refine Good.ite ?_ ?_ | exact GoodIl.fault | apply GoodIl.next | apply GoodIl.jump
      | refine GoodIl.ite ?_ ?_ | split

theorem execSetOp_good {s : State} (q : Fin 4) (o : BitVec 24) (hg : Good may s₀ s) (k_sig : may .sig) (k_seqs : may .seqs) (k_gnt : may .gnt) :
    ∃ u, execSetOp q o s = .next u ∧ Good may s₀ u := by
  unfold execSetOp
  refine State.ilRun_good _ _ _ _ (fun _ => ?_) hg ?_ ?_ ?_
  with_reducible repeat' first
      | assumption | apply State.ilRun_good | apply ilStore_good | refine Good.ite ?_ ?_ | exact GoodIl.fault | apply GoodIl.next | apply GoodIl.jump
      | refine GoodIl.ite ?_ ?_ | split

theorem execResetOp_good {s : State} (q : Fin 4) (o : BitVec 24) (hg : Good may s₀ s) (k_sig : may .sig) (k_seqs : may .seqs) (k_gnt : may .gnt) :
    ∃ u, execResetOp q o s = .next u ∧ Good may s₀ u := by
  unfold execResetOp
  refine State.ilRun_good _ _ _ _ (fun _ => ?_) hg ?_ ?_ ?_
  with_reducible repeat' first
      | assumption | apply State.ilRun_good | apply ilStore_good | refine Good.ite ?_ ?_ | exact GoodIl.fault | apply GoodIl.next | apply GoodIl.jump
      | refine GoodIl.ite ?_ ?_ | split

theorem execAndOp_good {s : State} (q : Fin 4) (o : BitVec 24) (hg : Good may s₀ s) (k_sig : may .sig) (k_seqs : may .seqs) (k_gnt : may .gnt) :
    ∃ u, execAndOp q o s = .next u ∧ Good may s₀ u := by
  unfold execAndOp
  refine State.ilRun_good _ _ _ _ (fun _ => ?_) hg ?_ ?_ ?_
  with_reducible repeat' first
      | assumption | apply State.ilRun_good | apply ilCombine_good | refine Good.ite ?_ ?_ | exact GoodIl.fault | apply GoodIl.next
      | apply GoodIl.jump | refine GoodIl.ite ?_ ?_ | split

theorem execAndn_good {s : State} (q : Fin 4) (o : BitVec 24) (hg : Good may s₀ s) (k_sig : may .sig) (k_seqs : may .seqs) (k_gnt : may .gnt) :
    ∃ u, execAndn q o s = .next u ∧ Good may s₀ u := by
  unfold execAndn
  refine State.ilRun_good _ _ _ _ (fun _ => ?_) hg ?_ ?_ ?_
  with_reducible repeat' first
      | assumption | apply State.ilRun_good | apply ilCombine_good | refine Good.ite ?_ ?_ | exact GoodIl.fault | apply GoodIl.next
      | apply GoodIl.jump | refine GoodIl.ite ?_ ?_ | split

theorem execOrOp_good {s : State} (q : Fin 4) (o : BitVec 24) (hg : Good may s₀ s) (k_sig : may .sig) (k_seqs : may .seqs) (k_gnt : may .gnt) :
    ∃ u, execOrOp q o s = .next u ∧ Good may s₀ u := by
  unfold execOrOp
  refine State.ilRun_good _ _ _ _ (fun _ => ?_) hg ?_ ?_ ?_
  with_reducible repeat' first
      | assumption | apply State.ilRun_good | apply ilCombine_good | refine Good.ite ?_ ?_ | exact GoodIl.fault | apply GoodIl.next
      | apply GoodIl.jump | refine GoodIl.ite ?_ ?_ | split

theorem execOrn_good {s : State} (q : Fin 4) (o : BitVec 24) (hg : Good may s₀ s) (k_sig : may .sig) (k_seqs : may .seqs) (k_gnt : may .gnt) :
    ∃ u, execOrn q o s = .next u ∧ Good may s₀ u := by
  unfold execOrn
  refine State.ilRun_good _ _ _ _ (fun _ => ?_) hg ?_ ?_ ?_
  with_reducible repeat' first
      | assumption | apply State.ilRun_good | apply ilCombine_good | refine Good.ite ?_ ?_ | exact GoodIl.fault | apply GoodIl.next
      | apply GoodIl.jump | refine GoodIl.ite ?_ ?_ | split

theorem execXorOp_good {s : State} (q : Fin 4) (o : BitVec 24) (hg : Good may s₀ s) (k_sig : may .sig) (k_seqs : may .seqs) (k_gnt : may .gnt) :
    ∃ u, execXorOp q o s = .next u ∧ Good may s₀ u := by
  unfold execXorOp
  refine State.ilRun_good _ _ _ _ (fun _ => ?_) hg ?_ ?_ ?_
  with_reducible repeat' first
      | assumption | apply State.ilRun_good | apply ilCombine_good | refine Good.ite ?_ ?_ | exact GoodIl.fault | apply GoodIl.next
      | apply GoodIl.jump | refine GoodIl.ite ?_ ?_ | split

theorem execXorn_good {s : State} (q : Fin 4) (o : BitVec 24) (hg : Good may s₀ s) (k_sig : may .sig) (k_seqs : may .seqs) (k_gnt : may .gnt) :
    ∃ u, execXorn q o s = .next u ∧ Good may s₀ u := by
  unfold execXorn
  refine State.ilRun_good _ _ _ _ (fun _ => ?_) hg ?_ ?_ ?_
  with_reducible repeat' first
      | assumption | apply State.ilRun_good | apply ilCombine_good | refine Good.ite ?_ ?_ | exact GoodIl.fault | apply GoodIl.next
      | apply GoodIl.jump | refine GoodIl.ite ?_ ?_ | split

theorem execNotOp_good {s : State} (q : Fin 4) (o : BitVec 24) (hg : Good may s₀ s) (k_sig : may .sig) (k_seqs : may .seqs) (k_gnt : may .gnt) :
    ∃ u, execNotOp q o s = .next u ∧ Good may s₀ u := by
  unfold execNotOp
  refine State.ilRun_good _ _ _ _ (fun _ => ?_) hg ?_ ?_ ?_
  with_reducible repeat' first
      | assumption | apply State.ilRun_good | apply State.setAcc_good | apply ilNoOperand_good | refine Good.ite ?_ ?_ | exact GoodIl.fault
      | apply GoodIl.next | apply GoodIl.jump | refine GoodIl.ite ?_ ?_ | split

theorem execAndParen_good {s : State} (q : Fin 4) (o : BitVec 24) (hg : Good may s₀ s) (k_sig : may .sig) (k_seqs : may .seqs) (k_gnt : may .gnt) :
    ∃ u, execAndParen q o s = .next u ∧ Good may s₀ u := by
  unfold execAndParen
  refine State.ilRun_good _ _ _ _ (fun _ => ?_) hg ?_ ?_ ?_
  with_reducible repeat' first
      | assumption | apply State.ilRun_good | apply ilParen_good | refine Good.ite ?_ ?_ | exact GoodIl.fault | apply GoodIl.next | apply GoodIl.jump
      | refine GoodIl.ite ?_ ?_ | split

theorem execAndnParen_good {s : State} (q : Fin 4) (o : BitVec 24) (hg : Good may s₀ s) (k_sig : may .sig) (k_seqs : may .seqs) (k_gnt : may .gnt) :
    ∃ u, execAndnParen q o s = .next u ∧ Good may s₀ u := by
  unfold execAndnParen
  refine State.ilRun_good _ _ _ _ (fun _ => ?_) hg ?_ ?_ ?_
  with_reducible repeat' first
      | assumption | apply State.ilRun_good | apply ilParen_good | refine Good.ite ?_ ?_ | exact GoodIl.fault | apply GoodIl.next | apply GoodIl.jump
      | refine GoodIl.ite ?_ ?_ | split

theorem execOrParen_good {s : State} (q : Fin 4) (o : BitVec 24) (hg : Good may s₀ s) (k_sig : may .sig) (k_seqs : may .seqs) (k_gnt : may .gnt) :
    ∃ u, execOrParen q o s = .next u ∧ Good may s₀ u := by
  unfold execOrParen
  refine State.ilRun_good _ _ _ _ (fun _ => ?_) hg ?_ ?_ ?_
  with_reducible repeat' first
      | assumption | apply State.ilRun_good | apply ilParen_good | refine Good.ite ?_ ?_ | exact GoodIl.fault | apply GoodIl.next | apply GoodIl.jump
      | refine GoodIl.ite ?_ ?_ | split

theorem execOrnParen_good {s : State} (q : Fin 4) (o : BitVec 24) (hg : Good may s₀ s) (k_sig : may .sig) (k_seqs : may .seqs) (k_gnt : may .gnt) :
    ∃ u, execOrnParen q o s = .next u ∧ Good may s₀ u := by
  unfold execOrnParen
  refine State.ilRun_good _ _ _ _ (fun _ => ?_) hg ?_ ?_ ?_
  with_reducible repeat' first
      | assumption | apply State.ilRun_good | apply ilParen_good | refine Good.ite ?_ ?_ | exact GoodIl.fault | apply GoodIl.next | apply GoodIl.jump
      | refine GoodIl.ite ?_ ?_ | split

theorem execXorParen_good {s : State} (q : Fin 4) (o : BitVec 24) (hg : Good may s₀ s) (k_sig : may .sig) (k_seqs : may .seqs) (k_gnt : may .gnt) :
    ∃ u, execXorParen q o s = .next u ∧ Good may s₀ u := by
  unfold execXorParen
  refine State.ilRun_good _ _ _ _ (fun _ => ?_) hg ?_ ?_ ?_
  with_reducible repeat' first
      | assumption | apply State.ilRun_good | apply ilParen_good | refine Good.ite ?_ ?_ | exact GoodIl.fault | apply GoodIl.next | apply GoodIl.jump
      | refine GoodIl.ite ?_ ?_ | split

theorem execXornParen_good {s : State} (q : Fin 4) (o : BitVec 24) (hg : Good may s₀ s) (k_sig : may .sig) (k_seqs : may .seqs) (k_gnt : may .gnt) :
    ∃ u, execXornParen q o s = .next u ∧ Good may s₀ u := by
  unfold execXornParen
  refine State.ilRun_good _ _ _ _ (fun _ => ?_) hg ?_ ?_ ?_
  with_reducible repeat' first
      | assumption | apply State.ilRun_good | apply ilParen_good | refine Good.ite ?_ ?_ | exact GoodIl.fault | apply GoodIl.next | apply GoodIl.jump
      | refine GoodIl.ite ?_ ?_ | split

theorem execCloseParen_good {s : State} (q : Fin 4) (o : BitVec 24) (hg : Good may s₀ s) (k_sig : may .sig) (k_seqs : may .seqs) (k_gnt : may .gnt) :
    ∃ u, execCloseParen q o s = .next u ∧ Good may s₀ u := by
  unfold execCloseParen
  refine State.ilRun_good _ _ _ _ (fun _ => ?_) hg ?_ ?_ ?_
  with_reducible repeat' first
      | assumption | apply State.ilRun_good | apply ilClose_good | apply ilNoOperand_good | refine Good.ite ?_ ?_ | exact GoodIl.fault
      | apply GoodIl.next | apply GoodIl.jump | refine GoodIl.ite ?_ ?_ | split

theorem execMps_good {s : State} (q : Fin 4) (o : BitVec 24) (hg : Good may s₀ s) (k_sig : may .sig) (k_seqs : may .seqs) (k_gnt : may .gnt) :
    ∃ u, execMps q o s = .next u ∧ Good may s₀ u := by
  unfold execMps
  refine State.ilRun_good _ _ _ _ (fun _ => ?_) hg ?_ ?_ ?_
  with_reducible repeat' first
      | assumption | apply State.ilRun_good | apply State.push_good | apply ilNoOperand_good | refine Good.ite ?_ ?_ | exact GoodIl.fault
      | apply GoodIl.next | apply GoodIl.jump | refine GoodIl.ite ?_ ?_
      | (extract_lets +onlyGivenNames lt; refine (show Good may s₀ lt → _ from fun hlt => ?_) ?_; (on_goal 1 => clear_value lt); on_goal 2 => subst lt)
      | (extract_lets +onlyGivenNames lt; clear_value lt) | refine Good.of_pair ?_ ‹_› | split

theorem execMrd_good {s : State} (q : Fin 4) (o : BitVec 24) (hg : Good may s₀ s) (k_sig : may .sig) (k_seqs : may .seqs) (k_gnt : may .gnt) :
    ∃ u, execMrd q o s = .next u ∧ Good may s₀ u := by
  unfold execMrd
  refine State.ilRun_good _ _ _ _ (fun _ => ?_) hg ?_ ?_ ?_
  with_reducible repeat' first
      | assumption | apply State.ilRun_good | apply ilNoOperand_good | apply ilTop_good | refine Good.ite ?_ ?_ | exact GoodIl.fault
      | apply GoodIl.next | apply GoodIl.jump | refine GoodIl.ite ?_ ?_ | split

theorem execMpp_good {s : State} (q : Fin 4) (o : BitVec 24) (hg : Good may s₀ s) (k_sig : may .sig) (k_seqs : may .seqs) (k_gnt : may .gnt) :
    ∃ u, execMpp q o s = .next u ∧ Good may s₀ u := by
  unfold execMpp
  refine State.ilRun_good _ _ _ _ (fun _ => ?_) hg ?_ ?_ ?_
  with_reducible repeat' first
      | assumption | apply State.ilRun_good | apply ilNoOperand_good | apply ilTop_good | refine Good.ite ?_ ?_ | exact GoodIl.fault
      | apply GoodIl.next | apply GoodIl.jump | refine GoodIl.ite ?_ ?_ | split

theorem execEdgr_good {s : State} (q : Fin 4) (o : BitVec 24) (hg : Good may s₀ s) (k_sig : may .sig) (k_seqs : may .seqs) (k_gnt : may .gnt) :
    ∃ u, execEdgr q o s = .next u ∧ Good may s₀ u := by
  unfold execEdgr
  refine State.ilRun_good _ _ _ _ (fun _ => ?_) hg ?_ ?_ ?_
  with_reducible repeat' first
      | assumption | apply State.ilRun_good | apply ilObject_good | apply ilEdge_good | refine Good.ite ?_ ?_ | exact GoodIl.fault | apply GoodIl.next
      | apply GoodIl.jump | refine GoodIl.ite ?_ ?_ | split | intro

theorem execEdgf_good {s : State} (q : Fin 4) (o : BitVec 24) (hg : Good may s₀ s) (k_sig : may .sig) (k_seqs : may .seqs) (k_gnt : may .gnt) :
    ∃ u, execEdgf q o s = .next u ∧ Good may s₀ u := by
  unfold execEdgf
  refine State.ilRun_good _ _ _ _ (fun _ => ?_) hg ?_ ?_ ?_
  with_reducible repeat' first
      | assumption | apply State.ilRun_good | apply ilObject_good | apply ilEdge_good | refine Good.ite ?_ ?_ | exact GoodIl.fault | apply GoodIl.next
      | apply GoodIl.jump | refine GoodIl.ite ?_ ?_ | split | intro

theorem execTon_good {s : State} (q : Fin 4) (o : BitVec 24) (hg : Good may s₀ s) (k_sig : may .sig) (k_seqs : may .seqs) (k_gnt : may .gnt) :
    ∃ u, execTon q o s = .next u ∧ Good may s₀ u := by
  unfold execTon
  refine State.ilRun_good _ _ _ _ (fun _ => ?_) hg ?_ ?_ ?_
  with_reducible repeat' first
      | assumption | apply State.ilRun_good | apply ilObject_good | apply ilTimer_good | refine Good.ite ?_ ?_ | exact GoodIl.fault
      | apply GoodIl.next | apply GoodIl.jump | refine GoodIl.ite ?_ ?_ | split | intro

theorem execTof_good {s : State} (q : Fin 4) (o : BitVec 24) (hg : Good may s₀ s) (k_sig : may .sig) (k_seqs : may .seqs) (k_gnt : may .gnt) :
    ∃ u, execTof q o s = .next u ∧ Good may s₀ u := by
  unfold execTof
  refine State.ilRun_good _ _ _ _ (fun _ => ?_) hg ?_ ?_ ?_
  with_reducible repeat' first
      | assumption | apply State.ilRun_good | apply ilObject_good | apply ilTimer_good | refine Good.ite ?_ ?_ | exact GoodIl.fault
      | apply GoodIl.next | apply GoodIl.jump | refine GoodIl.ite ?_ ?_ | split | intro

theorem execTp_good {s : State} (q : Fin 4) (o : BitVec 24) (hg : Good may s₀ s) (k_sig : may .sig) (k_seqs : may .seqs) (k_gnt : may .gnt) :
    ∃ u, execTp q o s = .next u ∧ Good may s₀ u := by
  unfold execTp
  refine State.ilRun_good _ _ _ _ (fun _ => ?_) hg ?_ ?_ ?_
  with_reducible repeat' first
      | assumption | apply State.ilRun_good | apply ilObject_good | apply ilTimer_good | refine Good.ite ?_ ?_ | exact GoodIl.fault
      | apply GoodIl.next | apply GoodIl.jump | refine GoodIl.ite ?_ ?_ | split | intro

theorem execCtu_good {s : State} (q : Fin 4) (o : BitVec 24) (hg : Good may s₀ s) (k_sig : may .sig) (k_seqs : may .seqs) (k_gnt : may .gnt) :
    ∃ u, execCtu q o s = .next u ∧ Good may s₀ u := by
  unfold execCtu
  refine State.ilRun_good _ _ _ _ (fun _ => ?_) hg ?_ ?_ ?_
  with_reducible repeat' first
      | assumption | apply State.ilRun_good | apply ilCounter_good | apply ilObject_good | refine Good.ite ?_ ?_ | exact GoodIl.fault
      | apply GoodIl.next | apply GoodIl.jump | refine GoodIl.ite ?_ ?_ | split | intro

theorem execCtd_good {s : State} (q : Fin 4) (o : BitVec 24) (hg : Good may s₀ s) (k_sig : may .sig) (k_seqs : may .seqs) (k_gnt : may .gnt) :
    ∃ u, execCtd q o s = .next u ∧ Good may s₀ u := by
  unfold execCtd
  refine State.ilRun_good _ _ _ _ (fun _ => ?_) hg ?_ ?_ ?_
  with_reducible repeat' first
      | assumption | apply State.ilRun_good | apply ilCounter_good | apply ilObject_good | refine Good.ite ?_ ?_ | exact GoodIl.fault
      | apply GoodIl.next | apply GoodIl.jump | refine GoodIl.ite ?_ ?_ | split | intro

theorem execCres_good {s : State} (q : Fin 4) (o : BitVec 24) (hg : Good may s₀ s) (k_sig : may .sig) (k_seqs : may .seqs) (k_gnt : may .gnt) :
    ∃ u, execCres q o s = .next u ∧ Good may s₀ u := by
  unfold execCres
  refine State.ilRun_good _ _ _ _ (fun _ => ?_) hg ?_ ?_ ?_
  with_reducible repeat' first
      | assumption | apply State.ilRun_good | apply ilCounter_good | apply ilObject_good | refine Good.ite ?_ ?_ | exact GoodIl.fault
      | apply GoodIl.next | apply GoodIl.jump | refine GoodIl.ite ?_ ?_ | split | intro

theorem execCload_good {s : State} (q : Fin 4) (o : BitVec 24) (hg : Good may s₀ s) (k_sig : may .sig) (k_seqs : may .seqs) (k_gnt : may .gnt) :
    ∃ u, execCload q o s = .next u ∧ Good may s₀ u := by
  unfold execCload
  refine State.ilRun_good _ _ _ _ (fun _ => ?_) hg ?_ ?_ ?_
  with_reducible repeat' first
      | assumption | apply State.ilRun_good | apply ilCounter_good | apply ilObject_good | refine Good.ite ?_ ?_ | exact GoodIl.fault
      | apply GoodIl.next | apply GoodIl.jump | refine GoodIl.ite ?_ ?_ | split | intro

theorem execJmp_good {s : State} (q : Fin 4) (o : BitVec 24) (hg : Good may s₀ s) (k_sig : may .sig) (k_seqs : may .seqs) (k_gnt : may .gnt) :
    ∃ u, execJmp q o s = .next u ∧ Good may s₀ u := by
  unfold execJmp
  refine State.ilRun_good _ _ _ _ (fun _ => ?_) hg ?_ ?_ ?_
  with_reducible repeat' first
      | assumption | apply State.ilRun_good | apply ilJump_good | refine Good.ite ?_ ?_ | exact GoodIl.fault | apply GoodIl.next | apply GoodIl.jump
      | refine GoodIl.ite ?_ ?_ | split

theorem execJmpc_good {s : State} (q : Fin 4) (o : BitVec 24) (hg : Good may s₀ s) (k_sig : may .sig) (k_seqs : may .seqs) (k_gnt : may .gnt) :
    ∃ u, execJmpc q o s = .next u ∧ Good may s₀ u := by
  unfold execJmpc
  refine State.ilRun_good _ _ _ _ (fun _ => ?_) hg ?_ ?_ ?_
  with_reducible repeat' first
      | assumption | apply State.ilRun_good | apply ilJump_good | refine Good.ite ?_ ?_ | exact GoodIl.fault | apply GoodIl.next | apply GoodIl.jump
      | refine GoodIl.ite ?_ ?_ | split

theorem execJmpcn_good {s : State} (q : Fin 4) (o : BitVec 24) (hg : Good may s₀ s) (k_sig : may .sig) (k_seqs : may .seqs) (k_gnt : may .gnt) :
    ∃ u, execJmpcn q o s = .next u ∧ Good may s₀ u := by
  unfold execJmpcn
  refine State.ilRun_good _ _ _ _ (fun _ => ?_) hg ?_ ?_ ?_
  with_reducible repeat' first
      | assumption | apply State.ilRun_good | apply ilJump_good | refine Good.ite ?_ ?_ | exact GoodIl.fault | apply GoodIl.next | apply GoodIl.jump
      | refine GoodIl.ite ?_ ?_ | split

theorem execCal_good {s : State} (q : Fin 4) (o : BitVec 24) (hg : Good may s₀ s) (k_sig : may .sig) (k_freshCtr : may .freshCtr)
    (k_seqs : may .seqs) (k_gnt : may .gnt) :
    ∃ u, execCal q o s = .next u ∧ Good may s₀ u := by
  unfold execCal
  refine State.ilRun_good _ _ _ _ (fun _ => ?_) hg ?_ ?_ ?_
  with_reducible repeat' first
      | assumption | apply State.ilRun_good | apply ilCal_good | refine Good.ite ?_ ?_ | exact GoodIl.fault | apply GoodIl.next | apply GoodIl.jump
      | refine GoodIl.ite ?_ ?_ | split

theorem execCalc_good {s : State} (q : Fin 4) (o : BitVec 24) (hg : Good may s₀ s) (k_sig : may .sig) (k_freshCtr : may .freshCtr)
    (k_seqs : may .seqs) (k_gnt : may .gnt) :
    ∃ u, execCalc q o s = .next u ∧ Good may s₀ u := by
  unfold execCalc
  refine State.ilRun_good _ _ _ _ (fun _ => ?_) hg ?_ ?_ ?_
  with_reducible repeat' first
      | assumption | apply State.ilRun_good | apply ilCal_good | refine Good.ite ?_ ?_ | exact GoodIl.fault | apply GoodIl.next | apply GoodIl.jump
      | refine GoodIl.ite ?_ ?_ | split

theorem execCalcn_good {s : State} (q : Fin 4) (o : BitVec 24) (hg : Good may s₀ s) (k_sig : may .sig)
    (k_freshCtr : may .freshCtr) (k_seqs : may .seqs) (k_gnt : may .gnt) :
    ∃ u, execCalcn q o s = .next u ∧ Good may s₀ u := by
  unfold execCalcn
  refine State.ilRun_good _ _ _ _ (fun _ => ?_) hg ?_ ?_ ?_
  with_reducible repeat' first
      | assumption | apply State.ilRun_good | apply ilCal_good | refine Good.ite ?_ ?_ | exact GoodIl.fault | apply GoodIl.next | apply GoodIl.jump
      | refine GoodIl.ite ?_ ?_ | split

theorem execEndOp_good {s : State} (q : Fin 4) (o : BitVec 24) (hg : Good may s₀ s) (k_mem : may .mem) (k_sig : may .sig)
    (k_tku : may .tku) (k_clo : may .clo) (k_ringPosted : may .ringPosted) (k_seqs : may .seqs) (k_rix : may .rix)
    (k_gnt : may .gnt) (k_slu : may .slu) (k_pairs : may .pairs) :
    ∃ u, execEndOp q o s = .next u ∧ Good may s₀ u := by
  unfold execEndOp
  refine State.done_good _ ?_
  with_reducible repeat' first
      | assumption | apply State.done_good | apply State.taskFault_good | apply State.taskPost_good | refine Good.ite ?_ ?_
      | (extract_lets +onlyGivenNames lt; refine (show Good may s₀ lt → _ from fun hlt => ?_) ?_; (on_goal 1 => clear_value lt); on_goal 2 => subst lt)
      | (extract_lets +onlyGivenNames lt; clear_value lt) | refine Good.of_pair ?_ ‹_› | split

theorem execUndefinedInstruction_good {s : State} (q : Fin 4) (w : BitVec 32) (hg : Good may s₀ s) (k_sig : may .sig)
    (k_seqs : may .seqs) (k_gnt : may .gnt) :
    ∃ u, execUndefinedInstruction q w s = .next u ∧ Good may s₀ u := by
  refine State.done_good _ (Good.ite ?_ hg)
  refine State.il_good q.val (fun _ _ => .fault 1) (fun _ => GoodIl.fault) hg ?_ ?_ ?_ <;> assumption

theorem execCycleBoundary_good {s : State} (q : Fin 4) (t : Fin 8) (hg : Good may s₀ s) (k_sig : may .sig) (k_seqs : may .seqs) (k_gnt : may .gnt) :
    ∃ u, execCycleBoundary q t s = .next u ∧ Good may s₀ u := by
  unfold execCycleBoundary
  refine State.done_good _ ?_
  with_reducible repeat' first | assumption | apply State.done_good | apply State.cycleBoundary_good | refine Good.ite ?_ ?_ | split

theorem execCalReturn_good {s : State} (q : Fin 4) (t : Fin 10) (eno : Bool) (res : List CalResult) (hg : Good may s₀ s)
    (k_sig : may .sig) (k_seqs : may .seqs) (k_gnt : may .gnt) :
    ∃ u, execCalReturn q t eno res s = .next u ∧ Good may s₀ u := by
  unfold execCalReturn
  refine State.done_good _ ?_
  with_reducible repeat' first
      | assumption | apply State.done_good | apply State.calReturn_good | refine Good.ite ?_ ?_
      | (extract_lets +onlyGivenNames lt; refine (show Good may s₀ lt → _ from fun hlt => ?_) ?_; (on_goal 1 => clear_value lt); on_goal 2 => subst lt)
      | (extract_lets +onlyGivenNames lt; refine (show Good may s₀ lt.1 → _ from fun hlt => ?_) ?_; (on_goal 1 => clear_value lt); on_goal 2 => subst lt)
      | (extract_lets +onlyGivenNames lt; clear_value lt) | split

theorem execCalTimeout_good {s : State} (q : Fin 4) (t : Fin 10) (hg : Good may s₀ s) (k_sig : may .sig) (k_tku : may .tku)
    (k_seqs : may .seqs) (k_gnt : may .gnt) :
    ∃ u, execCalTimeout q t s = .next u ∧ Good may s₀ u := by
  unfold execCalTimeout
  refine State.done_good _ ?_
  with_reducible repeat' first
      | assumption | apply State.untilMono_good | apply State.done_good | apply State.calFailed_good | refine Good.ite ?_ ?_
      | (extract_lets +onlyGivenNames lt; refine (show Good may s₀ lt → _ from fun hlt => ?_) ?_; (on_goal 1 => clear_value lt); on_goal 2 => subst lt)
      | (extract_lets +onlyGivenNames lt; refine (show Good may s₀ lt.1 → _ from fun hlt => ?_) ?_; (on_goal 1 => clear_value lt); on_goal 2 => subst lt)
      | (extract_lets +onlyGivenNames lt; clear_value lt) | split

theorem execTaskResume_good {s : State} (m : Master) (q : Fin 4) (v : BitVec 32) (hg : Good may s₀ s) (ka : ∀ p, may p) :
    ∃ u, execTaskResume m q v s = .next u ∧ Good may s₀ u := by
  unfold execTaskResume
  refine State.done_good _ ?_
  with_reducible repeat' first | assumption | exact ka _ | apply State.done_good | apply State.cmdGuard_good | refine Good.ite ?_ ?_ | split

theorem execStartupTaskTimeout_good {s : State} (q : Fin 4) (hg : Good may s₀ s) (k_sig : may .sig) (k_tku : may .tku)
    (k_seqs : may .seqs) (k_gnt : may .gnt) :
    ∃ u, execStartupTaskTimeout q s = .next u ∧ Good may s₀ u := by
  unfold execStartupTaskTimeout
  refine State.done_good _ ?_
  with_reducible repeat' first
      | assumption | apply State.untilMono_good | apply State.done_good | apply State.taskFault_good | refine Good.ite ?_ ?_
      | (extract_lets +onlyGivenNames lt; refine (show Good may s₀ lt → _ from fun hlt => ?_) ?_; (on_goal 1 => clear_value lt); on_goal 2 => subst lt)
      | (extract_lets +onlyGivenNames lt; clear_value lt) | refine Good.of_pair ?_ ‹_› | split

theorem execProgLoad_good {s : State} (m : Master) (q : Fin 4) (hg : Good may s₀ s) (ka : ∀ p, may p) :
    ∃ u, execProgLoad m q s = .next u ∧ Good may s₀ u := by
  unfold execProgLoad
  refine State.done_good _ ?_
  with_reducible repeat' first | assumption | exact ka _ | apply State.done_good | apply State.cmdGuard_good | refine Good.ite ?_ ?_ | split

theorem execProgLoadDone_good {s : State} (q : Fin 4) (body : ImageBody) (hg : Good may s₀ s) (k_seqs : may .seqs) :
    ∃ u, execProgLoadDone q body s = .next u ∧ Good may s₀ u := by
  unfold execProgLoadDone
  refine State.done_good _ ?_
  with_reducible repeat' first | assumption | apply State.done_good | apply State.loadDone_good | refine Good.ite ?_ ?_ | split

theorem execActivate_good {s : State} (m : Master) (q : Fin 4) (hg : Good may s₀ s) (ka : ∀ p, may p) :
    ∃ u, execActivate m q s = .next u ∧ Good may s₀ u := by
  unfold execActivate
  refine State.done_good _ ?_
  with_reducible repeat' first | assumption | exact ka _ | apply State.done_good | apply State.cmdGuard_good | refine Good.ite ?_ ?_ | split

theorem execActivationTick_good {s : State} (q : Fin 4) (hg : Good may s₀ s) (k_mem : may .mem) (k_sig : may .sig)
    (k_forces : may .forces) (k_clo : may .clo) (k_ringPosted : may .ringPosted) (k_seqs : may .seqs) (k_slu : may .slu)
    (k_pairs : may .pairs) :
    ∃ u, execActivationTick q s = .next u ∧ Good may s₀ u := by
  unfold execActivationTick
  refine State.done_good _ ?_
  with_reducible repeat' first
      | assumption | apply State.activate_good | apply State.done_good | apply State.sluiceDelta_good | refine Good.ite ?_ ?_
      | (extract_lets +onlyGivenNames lt; refine (show Good may s₀ lt → _ from fun hlt => ?_) ?_; (on_goal 1 => clear_value lt); on_goal 2 => subst lt)
      | (extract_lets +onlyGivenNames lt; clear_value lt) | refine Good.of_pair ?_ ‹_› | split

theorem execActivationTimeout_good {s : State} (q : Fin 4) (hg : Good may s₀ s) (k_tku : may .tku) (k_seqs : may .seqs) :
    ∃ u, execActivationTimeout q s = .next u ∧ Good may s₀ u := by
  unfold execActivationTimeout
  refine State.done_good _ ?_
  with_reducible repeat' first
      | assumption | apply State.put_good | apply State.setSeq_good | apply State.untilMono_good | apply State.done_good | refine Good.ite ?_ ?_
      | (extract_lets +onlyGivenNames lt; refine (show Good may s₀ lt → _ from fun hlt => ?_) ?_; (on_goal 1 => clear_value lt); on_goal 2 => subst lt)
      | (extract_lets +onlyGivenNames lt; refine (show Good may s₀ lt.1 → _ from fun hlt => ?_) ?_; (on_goal 1 => clear_value lt); on_goal 2 => subst lt)
      | (extract_lets +onlyGivenNames lt; clear_value lt) | refine Good.of_pair ?_ ‹_› | split

/-! ### Remote -/

theorem execRixExchangeInterval_good {s : State} (st : Fin 64) (hg : Good may s₀ s) (k_mem : may .mem)
    (k_freshCtr : may .freshCtr) (k_tku : may .tku) (k_clo : may .clo) (k_ringPosted : may .ringPosted) (k_rix : may .rix)
    (k_pairs : may .pairs) :
    ∃ u, execRixExchangeInterval st s = .next u ∧ Good may s₀ u := by
  unfold execRixExchangeInterval
  refine State.done_good _ ?_
  with_reducible repeat' first | assumption | apply State.done_good | apply State.rixExchange_good | refine Good.ite ?_ ?_ | split

theorem execRixInputFrame_good {s : State} (st : Fin 64) (frame : List (BitVec 8)) (ago : BitVec 32) (hg : Good may s₀ s)
    (k_sig : may .sig) (k_seqs : may .seqs) (k_rix : may .rix) :
    ∃ u, execRixInputFrame st frame ago s = .next u ∧ Good may s₀ u := by
  unfold execRixInputFrame
  refine State.done_good _ ?_
  with_reducible repeat' first | assumption | apply State.done_good | apply State.rixInput_good | refine Good.ite ?_ ?_ | split

theorem execRixLateTimeout_good {s : State} (st : Fin 64) (hg : Good may s₀ s) (k_sig : may .sig) (k_tku : may .tku) (k_rix : may .rix) :
    ∃ u, execRixLateTimeout st s = .next u ∧ Good may s₀ u := by
  unfold execRixLateTimeout
  refine State.done_good _ ?_
  with_reducible repeat' first | assumption | apply State.done_good | apply State.rixLate_good | refine Good.ite ?_ ?_ | split

theorem execRixLossTimeout_good {s : State} (st : Fin 64) (hg : Good may s₀ s) (k_tku : may .tku) (k_seqs : may .seqs) (k_rix : may .rix) :
    ∃ u, execRixLossTimeout st s = .next u ∧ Good may s₀ u := by
  unfold execRixLossTimeout
  refine State.done_good _ ?_
  with_reducible repeat' first | assumption | apply State.done_good | apply State.rixLoss_good | refine Good.ite ?_ ?_ | split

theorem execRixSubstPost_good {s : State} (st : Fin 64) (hg : Good may s₀ s) (k_sig : may .sig) (k_rix : may .rix) :
    ∃ u, execRixSubstPost st s = .next u ∧ Good may s₀ u := by
  unfold execRixSubstPost
  refine State.done_good _ ?_
  with_reducible repeat' first | assumption | apply State.done_good | apply State.rixSubst_good | refine Good.ite ?_ ?_ | split

theorem execForceSet_good {s : State} (m : Master) (hg : Good may s₀ s) (ka : ∀ p, may p) :
    ∃ u, execForceSet m s = .next u ∧ Good may s₀ u := by
  unfold execForceSet
  refine State.done_good _ ?_
  with_reducible repeat' first | assumption | exact ka _ | apply State.done_good | apply State.cmdGuard_good | refine Good.ite ?_ ?_ | split

theorem execForceRemove_good {s : State} (m : Master) (hg : Good may s₀ s) (ka : ∀ p, may p) :
    ∃ u, execForceRemove m s = .next u ∧ Good may s₀ u := by
  unfold execForceRemove
  refine State.done_good _ ?_
  with_reducible repeat' first | assumption | exact ka _ | apply State.done_good | apply State.cmdGuard_good | refine Good.ite ?_ ?_ | split

theorem execForceRemoveAll_good {s : State} (m : Master) (hg : Good may s₀ s) (ka : ∀ p, may p) :
    ∃ u, execForceRemoveAll m s = .next u ∧ Good may s₀ u := by
  unfold execForceRemoveAll
  refine State.done_good _ ?_
  with_reducible repeat' first | assumption | exact ka _ | apply State.done_good | apply State.cmdGuard_good | refine Good.ite ?_ ?_ | split

theorem execForceAuthSubmit_good {s : State} (m : Master) (hg : Good may s₀ s) (ka : ∀ p, may p) :
    ∃ u, execForceAuthSubmit m s = .next u ∧ Good may s₀ u := by
  unfold execForceAuthSubmit
  refine State.done_good _ ?_
  with_reducible repeat' first | assumption | exact ka _ | apply State.done_good | apply State.cmdGuard_good | refine Good.ite ?_ ?_ | split

theorem execForceAuthTimeout_good {s : State} (hg : Good may s₀ s) (k_tku : may .tku) (k_forceAuth : may .forceAuth) :
    ∃ u, execForceAuthTimeout s = .next u ∧ Good may s₀ u := by
  unfold execForceAuthTimeout
  refine State.done_good _ ?_
  with_reducible repeat' first | assumption | apply State.done_good | apply State.forceAuthEnd_good | refine Good.ite ?_ ?_ | split

theorem execChallengeRenewal_good {s : State} (set : Fin 5) (hg : Good may s₀ s) (k_freshCtr : may .freshCtr) (k_tku : may .tku)
    (k_chalAt : may .chalAt) :
    ∃ u, execChallengeRenewal set s = .next u ∧ Good may s₀ u := by
  unfold execChallengeRenewal
  refine State.done_good _ ?_
  with_reducible repeat' first
      | assumption | apply State.untilMono_good | apply State.renewChal_good | apply State.done_good | refine Good.ite ?_ ?_
      | (extract_lets +onlyGivenNames lt; refine (show Good may s₀ lt → _ from fun hlt => ?_) ?_; (on_goal 1 => clear_value lt); on_goal 2 => subst lt)
      | (extract_lets +onlyGivenNames lt; refine (show Good may s₀ lt.1 → _ from fun hlt => ?_) ?_; (on_goal 1 => clear_value lt); on_goal 2 => subst lt)
      | (extract_lets +onlyGivenNames lt; clear_value lt) | split

/-! ### Loops -/

theorem execLoopRelease_good {s : State} (c : Fin 128) (done : Bool) (hg : Good may s₀ s) (k_mem : may .mem) (k_sig : may .sig)
    (k_freshCtr : may .freshCtr) (k_tku : may .tku) (k_clo : may .clo) (k_ringPosted : may .ringPosted) (k_loops : may .loops)
    (k_slu : may .slu) (k_pairs : may .pairs) :
    ∃ u, execLoopRelease c done s = .next u ∧ Good may s₀ u := by
  unfold execLoopRelease
  refine State.done_good _ ?_
  with_reducible repeat' first
      | assumption | apply State.done_good | apply State.untilTime_good | apply State.releaseLoop_good | refine Good.ite ?_ ?_ | split

theorem execCtxCmdClose_good {s : State} (m : Master) (hg : Good may s₀ s) (ka : ∀ p, may p) :
    ∃ u, execCtxCmdClose m s = .next u ∧ Good may s₀ u := by
  unfold execCtxCmdClose
  refine State.done_good _ ?_
  with_reducible repeat' first | assumption | exact ka _ | apply State.done_good | apply State.cmdGuard_good | refine Good.ite ?_ ?_ | split

theorem execCtxCmdOpen_good {s : State} (m : Master) (hg : Good may s₀ s) (ka : ∀ p, may p) :
    ∃ u, execCtxCmdOpen m s = .next u ∧ Good may s₀ u := by
  unfold execCtxCmdOpen
  refine State.done_good _ ?_
  with_reducible repeat' first | assumption | exact ka _ | apply State.done_good | apply State.cmdGuard_good | refine Good.ite ?_ ?_ | split

theorem execCtxCmdFallback_good {s : State} (m : Master) (hg : Good may s₀ s) (ka : ∀ p, may p) :
    ∃ u, execCtxCmdFallback m s = .next u ∧ Good may s₀ u := by
  unfold execCtxCmdFallback
  refine State.done_good _ ?_
  with_reducible repeat' first | assumption | exact ka _ | apply State.done_good | apply State.cmdGuard_good | refine Good.ite ?_ ?_ | split

theorem execCtxEnable_good {s : State} (m : Master) (v : BitVec 32) (hg : Good may s₀ s) (ka : ∀ p, may p) :
    ∃ u, execCtxEnable m v s = .next u ∧ Good may s₀ u := by
  unfold execCtxEnable
  refine State.done_good _ ?_
  with_reducible repeat' first | assumption | exact ka _ | apply State.done_good | apply State.cmdWrite_good | refine Good.ite ?_ ?_ | split

theorem execCtxDisable_good {s : State} (m : Master) (v : BitVec 32) (hg : Good may s₀ s) (ka : ∀ p, may p) :
    ∃ u, execCtxDisable m v s = .next u ∧ Good may s₀ u := by
  unfold execCtxDisable
  refine State.done_good _ ?_
  with_reducible repeat' first | assumption | exact ka _ | apply State.done_good | apply State.cmdWrite_good | refine Good.ite ?_ ?_ | split

theorem execLpeQuery_good {s : State} (m : Master) (v : BitVec 32) (hg : Good may s₀ s) (ka : ∀ p, may p) :
    ∃ u, execLpeQuery m v s = .next u ∧ Good may s₀ u := by
  unfold execLpeQuery
  refine State.done_good _ ?_
  with_reducible repeat' first | assumption | exact ka _ | apply State.done_good | apply State.cmdWrite_good | refine Good.ite ?_ ?_ | split

theorem execLpeQueryDone_good {s : State} (hg : Good may s₀ s) (k_lpeQuery : may .lpeQuery) :
    ∃ u, execLpeQueryDone s = .next u ∧ Good may s₀ u := by
  unfold execLpeQueryDone
  refine State.done_good _ ?_
  with_reducible repeat' first | assumption | apply State.done_good | apply State.lpeQueryDone_good | refine Good.ite ?_ ?_ | split

theorem execLpeApertureWrite_good {s : State} (m : Master) (addr : BitVec 32) (v : BitVec 32) (hg : Good may s₀ s) (ka : ∀ p, may p) :
    ∃ u, execLpeApertureWrite m addr v s = .next u ∧ Good may s₀ u := by
  unfold execLpeApertureWrite
  refine State.done_good _ ?_
  with_reducible repeat' first | assumption | exact ka _ | apply State.done_good | apply State.masterWrite_good | refine Good.ite ?_ ?_ | split

end Sys2Proof.Machine
end

