-- ==== Sys2Proof/Laws/KeepUnits.lean ====
section
/-! SUPPORT. What every operation keeps (`Good`), operation by operation: the commands of Cascade, the banks, HART, debug, the pairs and the Gauntlet. -/

set_option linter.all false

namespace Sys2Proof.Machine

variable {may : Part → Prop} {s₀ : State}

/-! ### Cascade -/

theorem execCasLoad_good {s : State} (m : Master) (hg : Good may s₀ s) (ka : ∀ p, may p) :
    ∃ u, execCasLoad m s = .next u ∧ Good may s₀ u := by
  unfold execCasLoad
  refine State.done_good _ ?_
  with_reducible repeat' first | assumption | exact ka _ | apply State.done_good | apply State.cmdGuard_good | refine Good.ite ?_ ?_ | split

theorem execCasLoadDone_good {s : State} (k : Fin 16) (hg : Good may s₀ s) (k_mem : may .mem) (k_freshCtr : may .freshCtr) (k_cas : may .cas) :
    ∃ u, execCasLoadDone k s = .next u ∧ Good may s₀ u := by
  unfold execCasLoadDone
  refine State.done_good _ ?_
  with_reducible repeat' first | assumption | apply State.done_good | apply State.casLoadDone_good | refine Good.ite ?_ ?_ | split

theorem execCasUnload_good {s : State} (m : Master) (hg : Good may s₀ s) (ka : ∀ p, may p) :
    ∃ u, execCasUnload m s = .next u ∧ Good may s₀ u := by
  unfold execCasUnload
  refine State.done_good _ ?_
  with_reducible repeat' first | assumption | exact ka _ | apply State.done_good | apply State.cmdGuard_good | refine Good.ite ?_ ?_ | split

theorem execCasRefresh_good {s : State} (m : Master) (hg : Good may s₀ s) (ka : ∀ p, may p) :
    ∃ u, execCasRefresh m s = .next u ∧ Good may s₀ u := by
  unfold execCasRefresh
  refine State.done_good _ ?_
  with_reducible repeat' first | assumption | exact ka _ | apply State.done_good | apply State.cmdGuard_good | refine Good.ite ?_ ?_ | split

theorem execCasCold_good {s : State} (m : Master) (hg : Good may s₀ s) (ka : ∀ p, may p) :
    ∃ u, execCasCold m s = .next u ∧ Good may s₀ u := by
  unfold execCasCold
  refine State.done_good _ ?_
  with_reducible repeat' first | assumption | exact ka _ | apply State.done_good | apply State.cmdGuard_good | refine Good.ite ?_ ?_ | split

theorem execCasSlotEnable_good {s : State} (m : Master) (v : BitVec 32) (hg : Good may s₀ s) (ka : ∀ p, may p) :
    ∃ u, execCasSlotEnable m v s = .next u ∧ Good may s₀ u := by
  unfold execCasSlotEnable
  refine State.done_good _ ?_
  with_reducible repeat' first | assumption | exact ka _ | apply State.done_good | apply State.cmdWrite_good | refine Good.ite ?_ ?_ | split

theorem execCasSlotDisable_good {s : State} (m : Master) (v : BitVec 32) (hg : Good may s₀ s) (ka : ∀ p, may p) :
    ∃ u, execCasSlotDisable m v s = .next u ∧ Good may s₀ u := by
  unfold execCasSlotDisable
  refine State.done_good _ ?_
  with_reducible repeat' first | assumption | exact ka _ | apply State.done_good | apply State.cmdWrite_good | refine Good.ite ?_ ?_ | split

theorem execCasDispatch_good {s : State} (ns : Nat) (hg : Good may s₀ s) (k_mem : may .mem) (k_sig : may .sig) (k_tku : may .tku)
    (k_clo : may .clo) (k_ringPosted : may .ringPosted) (k_cas : may .cas) (k_casBusy : may .casBusy) (k_slu : may .slu)
    (k_pairs : may .pairs) :
    ∃ u, execCasDispatch ns s = .next u ∧ Good may s₀ u := by
  unfold execCasDispatch
  refine State.done_good _ ?_
  with_reducible repeat' first
      | assumption | apply State.done_good | apply State.casDispatch_good | apply State.sluiceDelta_good | refine Good.ite ?_ ?_
      | (extract_lets +onlyGivenNames lt; refine (show Good may s₀ lt → _ from fun hlt => ?_) ?_; (on_goal 1 => clear_value lt); on_goal 2 => subst lt)
      | (extract_lets +onlyGivenNames lt; clear_value lt) | refine Good.of_pair ?_ ‹_› | split

theorem execCasLinCommit_good {s : State} (k : Fin 16) (hg : Good may s₀ s) (k_mem : may .mem) (k_cas : may .cas) :
    ∃ u, execCasLinCommit k s = .next u ∧ Good may s₀ u := by
  unfold execCasLinCommit
  refine State.done_good _ ?_
  with_reducible repeat' first | assumption | apply State.done_good | apply State.casLinCommit_good | refine Good.ite ?_ ?_ | split

theorem execCasLinTimeout_good {s : State} (k : Fin 16) (hg : Good may s₀ s) (k_tku : may .tku) (k_cas : may .cas) :
    ∃ u, execCasLinTimeout k s = .next u ∧ Good may s₀ u := by
  unfold execCasLinTimeout
  refine State.done_good _ ?_
  with_reducible repeat' first | assumption | apply State.done_good | apply State.casLinTimeout_good | refine Good.ite ?_ ?_ | split

theorem execCasRefreshStart_good {s : State} (k : Fin 16) (hg : Good may s₀ s) (k_cas : may .cas) :
    ∃ u, execCasRefreshStart k s = .next u ∧ Good may s₀ u := by
  unfold execCasRefreshStart
  refine State.done_good _ ?_
  with_reducible repeat' first | assumption | apply State.done_good | apply State.casRefreshStart_good | refine Good.ite ?_ ?_ | split

theorem execCasRefreshDone_good {s : State} (k : Fin 16) (hg : Good may s₀ s) (k_mem : may .mem) (k_freshCtr : may .freshCtr)
    (k_cas : may .cas) (k_casBusy : may .casBusy) :
    ∃ u, execCasRefreshDone k s = .next u ∧ Good may s₀ u := by
  unfold execCasRefreshDone
  refine State.done_good _ ?_
  with_reducible repeat' first | assumption | apply State.done_good | apply State.casRefreshDone_good | refine Good.ite ?_ ?_ | split

theorem execCasQuery_good {s : State} (m : Master) (v : BitVec 32) (hg : Good may s₀ s) (ka : ∀ p, may p) :
    ∃ u, execCasQuery m v s = .next u ∧ Good may s₀ u := by
  unfold execCasQuery
  refine State.done_good _ ?_
  with_reducible repeat' first | assumption | exact ka _ | apply State.done_good | apply State.cmdWrite_good | refine Good.ite ?_ ?_ | split

theorem execCasQueryDone_good {s : State} (hg : Good may s₀ s) (k_casQuery : may .casQuery) :
    ∃ u, execCasQueryDone s = .next u ∧ Good may s₀ u := by
  unfold execCasQueryDone
  refine State.done_good _ ?_
  with_reducible repeat' first | assumption | apply State.done_good | apply State.casQueryDone_good | refine Good.ite ?_ ?_ | split

theorem execCasMemoryWrite_good {s : State} (m : Master) (addr : BitVec 32) (size : Nat) (v : BitVec 64) (hg : Good may s₀ s) (ka : ∀ p, may p) :
    ∃ u, execCasMemoryWrite m addr size v s = .next u ∧ Good may s₀ u := by
  unfold execCasMemoryWrite
  refine State.done_good _ ?_
  with_reducible repeat' first | assumption | exact ka _ | apply State.done_good | apply State.masterWrite_good | refine Good.ite ?_ ?_ | split

/-! ### Banks -/

theorem State.outFrame_good {s : State} (b : Nat) (m : Nat) (hg : Good may s₀ s) (k_banks : may .banks) :
    Good may s₀ (State.outFrame s b m) := by
  unfold State.outFrame
  with_reducible repeat' first
      | assumption | apply State.put_good | apply State.put64_good | apply State.setBank_good | refine Good.ite ?_ ?_
      | (extract_lets +onlyGivenNames lt; refine (show Good may s₀ lt → _ from fun hlt => ?_) ?_; (on_goal 1 => clear_value lt); on_goal 2 => subst lt)
      | (extract_lets +onlyGivenNames lt; refine (show Good may s₀ lt.1 → _ from fun hlt => ?_) ?_; (on_goal 1 => clear_value lt); on_goal 2 => subst lt)
      | (extract_lets +onlyGivenNames lt; clear_value lt) | split

theorem execBankOutputFrame_good {s : State} (b : Fin 16) (f : BankFrame) (hg : Good may s₀ s) (k_banks : may .banks) :
    ∃ u, execBankOutputFrame b f s = .next u ∧ Good may s₀ u := by
  unfold execBankOutputFrame
  refine State.done_good _ ?_
  with_reducible repeat' first
      | assumption | apply State.bump_good | apply State.setBank_good | apply State.done_good | apply State.outFrame_good | refine Good.ite ?_ ?_
      | (extract_lets +onlyGivenNames lt; refine (show Good may s₀ lt → _ from fun hlt => ?_) ?_; (on_goal 1 => clear_value lt); on_goal 2 => subst lt)
      | (extract_lets +onlyGivenNames lt; refine (show Good may s₀ lt.1 → _ from fun hlt => ?_) ?_; (on_goal 1 => clear_value lt); on_goal 2 => subst lt)
      | (extract_lets +onlyGivenNames lt; clear_value lt) | refine Good.of_pair ?_ ‹_› | split

theorem execBankInputFrame_good {s : State} (b : Fin 16) (f : BankFrame) (hg : Good may s₀ s) (k_sig : may .sig)
    (k_freshCtr : may .freshCtr) (k_chans : may .chans) (k_banks : may .banks) :
    ∃ u, execBankInputFrame b f s = .next u ∧ Good may s₀ u := by
  unfold execBankInputFrame
  refine State.done_good _ ?_
  with_reducible repeat' first
      | assumption | apply State.put_good | apply State.setBank_good | apply State.done_good | apply State.postChs_good | refine Good.ite ?_ ?_
      | (extract_lets +onlyGivenNames lt; refine (show Good may s₀ lt → _ from fun hlt => ?_) ?_; (on_goal 1 => clear_value lt); on_goal 2 => subst lt)
      | (extract_lets +onlyGivenNames lt; refine (show Good may s₀ lt.1 → _ from fun hlt => ?_) ?_; (on_goal 1 => clear_value lt); on_goal 2 => subst lt)
      | (extract_lets +onlyGivenNames lt; clear_value lt) | split

theorem execLogicSilence_good {s : State} (b : Fin 16) (hg : Good may s₀ s) (k_mem : may .mem) (k_freshCtr : may .freshCtr)
    (k_tku : may .tku) (k_clo : may .clo) (k_ringPosted : may .ringPosted) (k_chans : may .chans) (k_pairs : may .pairs) :
    ∃ u, execLogicSilence b s = .next u ∧ Good may s₀ u := by
  unfold execLogicSilence
  refine State.done_good _ ?_
  with_reducible repeat' first
      | assumption | apply State.untilMono_good | apply State.silence_good | apply State.done_good | apply State.untilTime_good
      | apply State.hartLinks_good | refine Good.ite ?_ ?_
      | (extract_lets +onlyGivenNames lt; refine (show Good may s₀ lt → _ from fun hlt => ?_) ?_; (on_goal 1 => clear_value lt); on_goal 2 => subst lt)
      | (extract_lets +onlyGivenNames lt; refine (show Good may s₀ lt.1 → _ from fun hlt => ?_) ?_; (on_goal 1 => clear_value lt); on_goal 2 => subst lt)
      | (extract_lets +onlyGivenNames lt; clear_value lt) | refine Good.of_pair ?_ ‹_› | split

theorem execInputLost_good {s : State} (b : Fin 16) (hg : Good may s₀ s) (k_mem : may .mem) (k_sig : may .sig)
    (k_freshCtr : may .freshCtr) (k_tku : may .tku) (k_clo : may .clo) (k_ringPosted : may .ringPosted) (k_chans : may .chans)
    (k_pairs : may .pairs) :
    ∃ u, execInputLost b s = .next u ∧ Good may s₀ u := by
  unfold execInputLost
  refine State.done_good _ ?_
  with_reducible repeat' first
      | assumption | apply State.untilMono_good | apply State.inputLost_good | apply State.done_good | apply State.hartLinks_good
      | refine Good.ite ?_ ?_
      | (extract_lets +onlyGivenNames lt; refine (show Good may s₀ lt → _ from fun hlt => ?_) ?_; (on_goal 1 => clear_value lt); on_goal 2 => subst lt)
      | (extract_lets +onlyGivenNames lt; refine (show Good may s₀ lt.1 → _ from fun hlt => ?_) ?_; (on_goal 1 => clear_value lt); on_goal 2 => subst lt)
      | (extract_lets +onlyGivenNames lt; clear_value lt) | split

theorem execReleaseHoldExpiry_good {s : State} (b : Fin 16) (hg : Good may s₀ s) (k_tku : may .tku) (k_chans : may .chans) :
    ∃ u, execReleaseHoldExpiry b s = .next u ∧ Good may s₀ u := by
  unfold execReleaseHoldExpiry
  refine State.done_good _ ?_
  with_reducible repeat' first
      | assumption | apply State.untilMono_good | apply State.releaseBank_good | apply State.done_good | refine Good.ite ?_ ?_
      | (extract_lets +onlyGivenNames lt; refine (show Good may s₀ lt → _ from fun hlt => ?_) ?_; (on_goal 1 => clear_value lt); on_goal 2 => subst lt)
      | (extract_lets +onlyGivenNames lt; refine (show Good may s₀ lt.1 → _ from fun hlt => ?_) ?_; (on_goal 1 => clear_value lt); on_goal 2 => subst lt)
      | (extract_lets +onlyGivenNames lt; clear_value lt) | refine Good.of_pair ?_ ‹_› | split

theorem execTimedSafeTimeout_good {s : State} (ch : Fin 256) (hg : Good may s₀ s) (k_tku : may .tku) (k_chans : may .chans) :
    ∃ u, execTimedSafeTimeout ch s = .next u ∧ Good may s₀ u := by
  unfold execTimedSafeTimeout
  refine State.done_good _ ?_
  with_reducible repeat' first
      | assumption | apply State.untilMono_good | apply State.timedSafe_good | apply State.done_good | refine Good.ite ?_ ?_
      | (extract_lets +onlyGivenNames lt; refine (show Good may s₀ lt → _ from fun hlt => ?_) ?_; (on_goal 1 => clear_value lt); on_goal 2 => subst lt)
      | (extract_lets +onlyGivenNames lt; refine (show Good may s₀ lt.1 → _ from fun hlt => ?_) ?_; (on_goal 1 => clear_value lt); on_goal 2 => subst lt)
      | (extract_lets +onlyGivenNames lt; clear_value lt) | refine Good.of_pair ?_ ‹_› | split

theorem State.fvMeas_good {s : State} (b : Nat) (mv : Int) (ma : Nat) (hg : Good may s₀ s) :
    Good may s₀ (State.fvMeas s b mv ma) := by
  unfold State.fvMeas
  with_reducible repeat' first | assumption | apply State.put_good | refine Good.ite ?_ ?_ | split

theorem execFvFault_good {s : State} (b : Fin 16) (mv : Int) (ma : BitVec 16) (hg : Good may s₀ s) (k_chans : may .chans) (k_banks : may .banks) :
    ∃ u, execFvFault b mv ma s = .next u ∧ Good may s₀ u := by
  unfold execFvFault
  refine State.done_good _ ?_
  with_reducible repeat' first
      | assumption | apply State.done_good | apply State.fvBad_good | apply State.fvMeas_good | refine Good.ite ?_ ?_
      | (extract_lets +onlyGivenNames lt; refine (show Good may s₀ lt → _ from fun hlt => ?_) ?_; (on_goal 1 => clear_value lt); on_goal 2 => subst lt)
      | (extract_lets +onlyGivenNames lt; refine (show Good may s₀ lt.1 → _ from fun hlt => ?_) ?_; (on_goal 1 => clear_value lt); on_goal 2 => subst lt)
      | (extract_lets +onlyGivenNames lt; clear_value lt) | split

theorem execFvRecovery_good {s : State} (b : Fin 16) (mv : BitVec 16) (ma : BitVec 16) (hg : Good may s₀ s) (k_banks : may .banks) :
    ∃ u, execFvRecovery b mv ma s = .next u ∧ Good may s₀ u := by
  unfold execFvRecovery
  refine State.done_good _ ?_
  with_reducible repeat' first
      | assumption | apply State.put_good | apply State.setBank_good | apply State.done_good | apply State.fvMeas_good | refine Good.ite ?_ ?_
      | (extract_lets +onlyGivenNames lt; refine (show Good may s₀ lt → _ from fun hlt => ?_) ?_; (on_goal 1 => clear_value lt); on_goal 2 => subst lt)
      | (extract_lets +onlyGivenNames lt; refine (show Good may s₀ lt.1 → _ from fun hlt => ?_) ?_; (on_goal 1 => clear_value lt); on_goal 2 => subst lt)
      | (extract_lets +onlyGivenNames lt; clear_value lt) | split

theorem execBankSupplyLoss_good {s : State} (b : Fin 16) (hg : Good may s₀ s) (k_chans : may .chans) (k_banks : may .banks) :
    ∃ u, execBankSupplyLoss b s = .next u ∧ Good may s₀ u := by
  unfold execBankSupplyLoss
  refine State.done_good _ ?_
  with_reducible repeat' first | assumption | apply State.bankOff_good | apply State.done_good | refine Good.ite ?_ ?_ | split

theorem execDiSample_good {s : State} (ch : Fin 256) (raw : Bool) (hg : Good may s₀ s) (k_tku : may .tku) (k_chans : may .chans) :
    ∃ u, execDiSample ch raw s = .next u ∧ Good may s₀ u := by
  unfold execDiSample
  refine State.done_good _ ?_
  with_reducible repeat' first
      | assumption | apply State.done_good | apply State.untilTime_good | apply State.diSample_good | refine Good.ite ?_ ?_ | split

theorem execFoldBack_good {s : State} (ch : Fin 256) (hg : Good may s₀ s) (k_tku : may .tku) (k_chans : may .chans) :
    ∃ u, execFoldBack ch s = .next u ∧ Good may s₀ u := by
  unfold execFoldBack
  refine State.done_good _ ?_
  with_reducible repeat' first
      | assumption | apply State.put_good | apply State.bump_good | apply State.untilMono_good | apply State.setChan_good | apply State.showDO_good
      | apply State.killPulse_good | apply State.done_good | refine Good.ite ?_ ?_
      | (extract_lets +onlyGivenNames lt; refine (show Good may s₀ lt → _ from fun hlt => ?_) ?_; (on_goal 1 => clear_value lt); on_goal 2 => subst lt)
      | (extract_lets +onlyGivenNames lt; refine (show Good may s₀ lt.1 → _ from fun hlt => ?_) ?_; (on_goal 1 => clear_value lt); on_goal 2 => subst lt)
      | (extract_lets +onlyGivenNames lt; clear_value lt) | refine Good.of_pair ?_ ‹_› | split

theorem execFoldbackRetry_good {s : State} (ch : Fin 256) (limited : Bool) (hg : Good may s₀ s) (k_tku : may .tku) (k_chans : may .chans) :
    ∃ u, execFoldbackRetry ch limited s = .next u ∧ Good may s₀ u := by
  unfold execFoldbackRetry
  refine State.done_good _ ?_
  with_reducible repeat' first
      | assumption | apply State.put_good | apply State.putB_good | apply State.untilMono_good | apply State.setChan_good | apply State.showDO_good
      | apply State.done_good | refine Good.ite ?_ ?_
      | (extract_lets +onlyGivenNames lt; refine (show Good may s₀ lt → _ from fun hlt => ?_) ?_; (on_goal 1 => clear_value lt); on_goal 2 => subst lt)
      | (extract_lets +onlyGivenNames lt; refine (show Good may s₀ lt.1 → _ from fun hlt => ?_) ?_; (on_goal 1 => clear_value lt); on_goal 2 => subst lt)
      | (extract_lets +onlyGivenNames lt; clear_value lt) | refine Good.of_pair ?_ ‹_› | split

theorem execReadbackErr_good {s : State} (ch : Fin 256) (term : Bool) (bad : Bool) (hg : Good may s₀ s) (k_tku : may .tku) (k_chans : may .chans) :
    ∃ u, execReadbackErr ch term bad s = .next u ∧ Good may s₀ u := by
  unfold execReadbackErr
  refine State.done_good _ ?_
  with_reducible repeat' first
      | assumption | apply State.put_good | apply State.putB_good | apply State.untilMono_good | apply State.chFault_good | apply State.setChan_good
      | apply State.done_good | refine Good.ite ?_ ?_
      | (extract_lets +onlyGivenNames lt; refine (show Good may s₀ lt → _ from fun hlt => ?_) ?_; (on_goal 1 => clear_value lt); on_goal 2 => subst lt)
      | (extract_lets +onlyGivenNames lt; refine (show Good may s₀ lt.1 → _ from fun hlt => ?_) ?_; (on_goal 1 => clear_value lt); on_goal 2 => subst lt)
      | (extract_lets +onlyGivenNames lt; clear_value lt) | refine Good.of_pair ?_ ‹_› | split

theorem execOpenLoad_good {s : State} (ch : Fin 256) (low : Bool) (hg : Good may s₀ s) (k_tku : may .tku) (k_chans : may .chans) :
    ∃ u, execOpenLoad ch low s = .next u ∧ Good may s₀ u := by
  unfold execOpenLoad
  refine State.done_good _ ?_
  with_reducible repeat' first
      | assumption | apply State.put_good | apply State.untilMono_good | apply State.chFault_good | apply State.setChan_good | apply State.done_good
      | refine Good.ite ?_ ?_
      | (extract_lets +onlyGivenNames lt; refine (show Good may s₀ lt → _ from fun hlt => ?_) ?_; (on_goal 1 => clear_value lt); on_goal 2 => subst lt)
      | (extract_lets +onlyGivenNames lt; refine (show Good may s₀ lt.1 → _ from fun hlt => ?_) ?_; (on_goal 1 => clear_value lt); on_goal 2 => subst lt)
      | (extract_lets +onlyGivenNames lt; clear_value lt) | refine Good.of_pair ?_ ‹_› | split

theorem execLineFault_good {s : State} (ch : Fin 256) (ua : BitVec 16) (hg : Good may s₀ s) :
    ∃ u, execLineFault ch ua s = .next u ∧ Good may s₀ u := by
  unfold execLineFault
  refine State.done_good _ ?_
  with_reducible repeat' first
      | assumption | apply State.putB_good | apply State.chFault_good | apply State.done_good | refine Good.ite ?_ ?_
      | (extract_lets +onlyGivenNames lt; refine (show Good may s₀ lt → _ from fun hlt => ?_) ?_; (on_goal 1 => clear_value lt); on_goal 2 => subst lt)
      | (extract_lets +onlyGivenNames lt; refine (show Good may s₀ lt.1 → _ from fun hlt => ?_) ?_; (on_goal 1 => clear_value lt); on_goal 2 => subst lt)
      | (extract_lets +onlyGivenNames lt; clear_value lt) | split

theorem execTestPulseStart_good {s : State} (ch : Fin 256) (hg : Good may s₀ s) (k_chans : may .chans) :
    ∃ u, execTestPulseStart ch s = .next u ∧ Good may s₀ u := by
  unfold execTestPulseStart
  refine State.done_good _ ?_
  with_reducible repeat' first | assumption | apply State.done_good | apply State.pulseStart_good | refine Good.ite ?_ ?_ | split

theorem execPulseVerdict_good {s : State} (ch : Fin 256) (high : Bool) (raws : BitVec 16) (hg : Good may s₀ s) (k_tku : may .tku)
    (k_chans : may .chans) :
    ∃ u, execPulseVerdict ch high raws s = .next u ∧ Good may s₀ u := by
  unfold execPulseVerdict
  refine State.done_good _ ?_
  with_reducible repeat' first
      | assumption | apply State.untilMono_good | apply State.done_good | apply State.pulseVerdict_good | refine Good.ite ?_ ?_
      | (extract_lets +onlyGivenNames lt; refine (show Good may s₀ lt → _ from fun hlt => ?_) ?_; (on_goal 1 => clear_value lt); on_goal 2 => subst lt)
      | (extract_lets +onlyGivenNames lt; refine (show Good may s₀ lt.1 → _ from fun hlt => ?_) ?_; (on_goal 1 => clear_value lt); on_goal 2 => subst lt)
      | (extract_lets +onlyGivenNames lt; clear_value lt) | refine Good.of_pair ?_ ‹_› | split

theorem execTestPulseEnd_good {s : State} (ch : Fin 256) (hg : Good may s₀ s) (k_tku : may .tku) (k_chans : may .chans) :
    ∃ u, execTestPulseEnd ch s = .next u ∧ Good may s₀ u := by
  unfold execTestPulseEnd
  refine State.done_good _ ?_
  with_reducible repeat' first
      | assumption | apply State.untilMono_good | apply State.done_good | apply State.pulseEnd_good | refine Good.ite ?_ ?_
      | (extract_lets +onlyGivenNames lt; refine (show Good may s₀ lt → _ from fun hlt => ?_) ?_; (on_goal 1 => clear_value lt); on_goal 2 => subst lt)
      | (extract_lets +onlyGivenNames lt; refine (show Good may s₀ lt.1 → _ from fun hlt => ?_) ?_; (on_goal 1 => clear_value lt); on_goal 2 => subst lt)
      | (extract_lets +onlyGivenNames lt; clear_value lt) | refine Good.of_pair ?_ ‹_› | split

theorem execSafetyPoll_good {s : State} (b : Fin 16) (hg : Good may s₀ s) (k_chans : may .chans) (k_banks : may .banks) :
    ∃ u, execSafetyPoll b s = .next u ∧ Good may s₀ u := by
  unfold execSafetyPoll
  refine State.done_good _ ?_
  with_reducible repeat' first
      | assumption | apply State.setBank_good | apply State.done_good | apply State.pollAll_good | refine Good.ite ?_ ?_
      | (extract_lets +onlyGivenNames lt; refine (show Good may s₀ lt → _ from fun hlt => ?_) ?_; (on_goal 1 => clear_value lt); on_goal 2 => subst lt)
      | (extract_lets +onlyGivenNames lt; refine (show Good may s₀ lt.1 → _ from fun hlt => ?_) ?_; (on_goal 1 => clear_value lt); on_goal 2 => subst lt)
      | (extract_lets +onlyGivenNames lt; clear_value lt) | split

theorem execTripWord_good {s : State} (b : Fin 16) (w : BitVec 16) (c : BitVec 16) (seq : BitVec 8) (hg : Good may s₀ s)
    (k_chans : may .chans) (k_banks : may .banks) :
    ∃ u, execTripWord b w c seq s = .next u ∧ Good may s₀ u := by
  unfold execTripWord
  refine State.done_good _ ?_
  with_reducible repeat' first | assumption | apply State.done_good | apply State.tripWord_good | refine Good.ite ?_ ?_ | split

theorem execTripWordTimeout_good {s : State} (b : Fin 16) (hg : Good may s₀ s) (k_tku : may .tku) (k_chans : may .chans) :
    ∃ u, execTripWordTimeout b s = .next u ∧ Good may s₀ u := by
  unfold execTripWordTimeout
  refine State.done_good _ ?_
  with_reducible repeat' first
      | assumption | apply State.untilMono_good | apply State.done_good | apply State.tripLoss_good | refine Good.ite ?_ ?_
      | (extract_lets +onlyGivenNames lt; refine (show Good may s₀ lt → _ from fun hlt => ?_) ?_; (on_goal 1 => clear_value lt); on_goal 2 => subst lt)
      | (extract_lets +onlyGivenNames lt; refine (show Good may s₀ lt.1 → _ from fun hlt => ?_) ?_; (on_goal 1 => clear_value lt); on_goal 2 => subst lt)
      | (extract_lets +onlyGivenNames lt; clear_value lt) | split

theorem State.rangeFlags_good {s : State} (ch : Nat) (hg : Good may s₀ s) (k_chans : may .chans) :
    Good may s₀ (State.rangeFlags s ch) := by
  unfold State.rangeFlags
  with_reducible repeat' first
      | assumption | apply State.bump_good | apply State.putB_good | apply State.setChan_good | apply State.anMirror_good | refine Good.ite ?_ ?_
      | (extract_lets +onlyGivenNames lt; refine (show Good may s₀ lt → _ from fun hlt => ?_) ?_; (on_goal 1 => clear_value lt); on_goal 2 => subst lt)
      | (extract_lets +onlyGivenNames lt; refine (show Good may s₀ lt.1 → _ from fun hlt => ?_) ?_; (on_goal 1 => clear_value lt); on_goal 2 => subst lt)
      | (extract_lets +onlyGivenNames lt; clear_value lt) | split

theorem execAiRangeTimer_good {s : State} (ch : Fin 256) (hg : Good may s₀ s) (k_tku : may .tku) (k_chans : may .chans) :
    ∃ u, execAiRangeTimer ch s = .next u ∧ Good may s₀ u := by
  unfold execAiRangeTimer
  refine State.done_good _ ?_
  with_reducible repeat' first
      | assumption | apply State.untilMono_good | apply State.done_good | apply State.rangeFlags_good | refine Good.ite ?_ ?_
      | (extract_lets +onlyGivenNames lt; refine (show Good may s₀ lt → _ from fun hlt => ?_) ?_; (on_goal 1 => clear_value lt); on_goal 2 => subst lt)
      | (extract_lets +onlyGivenNames lt; refine (show Good may s₀ lt.1 → _ from fun hlt => ?_) ?_; (on_goal 1 => clear_value lt); on_goal 2 => subst lt)
      | (extract_lets +onlyGivenNames lt; clear_value lt) | refine Good.of_pair ?_ ‹_› | split

theorem execSupplyLimit_good {s : State} (ch : Fin 256) (limited : Bool) (hg : Good may s₀ s) (k_tku : may .tku) (k_chans : may .chans) :
    ∃ u, execSupplyLimit ch limited s = .next u ∧ Good may s₀ u := by
  unfold execSupplyLimit
  refine State.done_good _ ?_
  with_reducible repeat' first
      | assumption | apply State.putB_good | apply State.untilMono_good | apply State.setChan_good | apply State.anMirror_good | apply State.done_good
      | refine Good.ite ?_ ?_
      | (extract_lets +onlyGivenNames lt; refine (show Good may s₀ lt → _ from fun hlt => ?_) ?_; (on_goal 1 => clear_value lt); on_goal 2 => subst lt)
      | (extract_lets +onlyGivenNames lt; refine (show Good may s₀ lt.1 → _ from fun hlt => ?_) ?_; (on_goal 1 => clear_value lt); on_goal 2 => subst lt)
      | (extract_lets +onlyGivenNames lt; clear_value lt) | refine Good.of_pair ?_ ‹_› | split

theorem execCompliance_good {s : State} (ch : Fin 256) (short : Bool) (mv : BitVec 16) (hg : Good may s₀ s) (k_chans : may .chans) :
    ∃ u, execCompliance ch short mv s = .next u ∧ Good may s₀ u := by
  unfold execCompliance
  refine State.done_good _ ?_
  with_reducible repeat' first
      | assumption | apply State.put_good | apply State.bump_good | apply State.setChan_good | apply State.complEnds_good | apply State.done_good
      | refine Good.ite ?_ ?_
      | (extract_lets +onlyGivenNames lt; refine (show Good may s₀ lt → _ from fun hlt => ?_) ?_; (on_goal 1 => clear_value lt); on_goal 2 => subst lt)
      | (extract_lets +onlyGivenNames lt; refine (show Good may s₀ lt.1 → _ from fun hlt => ?_) ?_; (on_goal 1 => clear_value lt); on_goal 2 => subst lt)
      | (extract_lets +onlyGivenNames lt; clear_value lt) | split

theorem execComplFault_good {s : State} (ch : Fin 256) (hg : Good may s₀ s) (k_tku : may .tku) :
    ∃ u, execComplFault ch s = .next u ∧ Good may s₀ u := by
  unfold execComplFault
  refine State.done_good _ ?_
  with_reducible repeat' first
      | assumption | apply State.put_good | apply State.bump_good | apply State.untilMono_good | apply State.anMirror_good | apply State.done_good
      | refine Good.ite ?_ ?_
      | (extract_lets +onlyGivenNames lt; refine (show Good may s₀ lt → _ from fun hlt => ?_) ?_; (on_goal 1 => clear_value lt); on_goal 2 => subst lt)
      | (extract_lets +onlyGivenNames lt; refine (show Good may s₀ lt.1 → _ from fun hlt => ?_) ?_; (on_goal 1 => clear_value lt); on_goal 2 => subst lt)
      | (extract_lets +onlyGivenNames lt; clear_value lt) | refine Good.of_pair ?_ ‹_› | split

theorem State.setJoin_good {s : State} (ch : Nat) (j : Nat) (hg : Good may s₀ s) (k_chans : may .chans) :
    Good may s₀ (State.setJoin s ch j) := by
  unfold State.setJoin
  with_reducible repeat' first
      | assumption | apply State.put_good | apply State.setChan_good | apply State.regulate_good | refine Good.ite ?_ ?_
      | (extract_lets +onlyGivenNames lt; refine (show Good may s₀ lt → _ from fun hlt => ?_) ?_; (on_goal 1 => clear_value lt); on_goal 2 => subst lt)
      | (extract_lets +onlyGivenNames lt; refine (show Good may s₀ lt.1 → _ from fun hlt => ?_) ?_; (on_goal 1 => clear_value lt); on_goal 2 => subst lt)
      | (extract_lets +onlyGivenNames lt; clear_value lt) | split

theorem execJoinToSole_good {s : State} (ch : Fin 256) (hg : Good may s₀ s) (k_tku : may .tku) (k_chans : may .chans) :
    ∃ u, execJoinToSole ch s = .next u ∧ Good may s₀ u := by
  unfold execJoinToSole
  refine State.done_good _ ?_
  with_reducible repeat' first
      | assumption | apply State.untilMono_good | apply State.done_good | apply State.setJoin_good | refine Good.ite ?_ ?_
      | (extract_lets +onlyGivenNames lt; refine (show Good may s₀ lt → _ from fun hlt => ?_) ?_; (on_goal 1 => clear_value lt); on_goal 2 => subst lt)
      | (extract_lets +onlyGivenNames lt; refine (show Good may s₀ lt.1 → _ from fun hlt => ?_) ?_; (on_goal 1 => clear_value lt); on_goal 2 => subst lt)
      | (extract_lets +onlyGivenNames lt; clear_value lt) | refine Good.of_pair ?_ ‹_› | split

theorem execSoleToJoin_good {s : State} (ch : Fin 256) (hg : Good may s₀ s) (k_tku : may .tku) (k_chans : may .chans) :
    ∃ u, execSoleToJoin ch s = .next u ∧ Good may s₀ u := by
  unfold execSoleToJoin
  refine State.done_good _ ?_
  with_reducible repeat' first
      | assumption | apply State.untilMono_good | apply State.done_good | apply State.setJoin_good | refine Good.ite ?_ ?_
      | (extract_lets +onlyGivenNames lt; refine (show Good may s₀ lt → _ from fun hlt => ?_) ?_; (on_goal 1 => clear_value lt); on_goal 2 => subst lt)
      | (extract_lets +onlyGivenNames lt; refine (show Good may s₀ lt.1 → _ from fun hlt => ?_) ?_; (on_goal 1 => clear_value lt); on_goal 2 => subst lt)
      | (extract_lets +onlyGivenNames lt; clear_value lt) | refine Good.of_pair ?_ ‹_› | split

/-! ### Hart -/

theorem execHartRequest_good {s : State} (b : Fin 16) (hg : Good may s₀ s) (k_mem : may .mem) (k_freshCtr : may .freshCtr)
    (k_clo : may .clo) (k_ringPosted : may .ringPosted) (k_chans : may .chans) (k_pairs : may .pairs) :
    ∃ u, execHartRequest b s = .next u ∧ Good may s₀ u := by
  unfold execHartRequest
  refine State.done_good _ ?_
  with_reducible repeat' first | assumption | apply State.done_good | apply State.hartTake_good | refine Good.ite ?_ ?_ | split

theorem execHartTransmit_good {s : State} (ch : Fin 256) (hg : Good may s₀ s) (k_mem : may .mem) (k_freshCtr : may .freshCtr)
    (k_tku : may .tku) (k_clo : may .clo) (k_ringPosted : may .ringPosted) (k_chans : may .chans) (k_pairs : may .pairs) :
    ∃ u, execHartTransmit ch s = .next u ∧ Good may s₀ u := by
  unfold execHartTransmit
  refine State.done_good _ ?_
  with_reducible repeat' first | assumption | apply State.done_good | apply State.hartTransmit_good | refine Good.ite ?_ ?_ | split

theorem execHartResponse_good {s : State} (ch : Fin 256) (err : HartErr) (frame : HartHeard) (hg : Good may s₀ s)
    (k_mem : may .mem) (k_freshCtr : may .freshCtr) (k_clo : may .clo) (k_ringPosted : may .ringPosted) (k_chans : may .chans)
    (k_pairs : may .pairs) :
    ∃ u, execHartResponse ch err frame s = .next u ∧ Good may s₀ u := by
  unfold execHartResponse
  refine State.done_good _ ?_
  with_reducible repeat' first | assumption | apply State.done_good | apply State.hartResponse_good | refine Good.ite ?_ ?_ | split

theorem execHartTimeout_good {s : State} (ch : Fin 256) (hg : Good may s₀ s) (k_mem : may .mem) (k_freshCtr : may .freshCtr)
    (k_tku : may .tku) (k_clo : may .clo) (k_ringPosted : may .ringPosted) (k_chans : may .chans) (k_pairs : may .pairs) :
    ∃ u, execHartTimeout ch s = .next u ∧ Good may s₀ u := by
  unfold execHartTimeout
  refine State.done_good _ ?_
  with_reducible repeat' first
      | assumption | apply State.untilMono_good | apply State.done_good | apply State.hartFail_good | refine Good.ite ?_ ?_
      | (extract_lets +onlyGivenNames lt; refine (show Good may s₀ lt → _ from fun hlt => ?_) ?_; (on_goal 1 => clear_value lt); on_goal 2 => subst lt)
      | (extract_lets +onlyGivenNames lt; refine (show Good may s₀ lt.1 → _ from fun hlt => ?_) ?_; (on_goal 1 => clear_value lt); on_goal 2 => subst lt)
      | (extract_lets +onlyGivenNames lt; clear_value lt) | refine Good.of_pair ?_ ‹_› | split

theorem execHartBurst_good {s : State} (ch : Fin 256) (frame : HartHeard) (hg : Good may s₀ s) (k_mem : may .mem)
    (k_freshCtr : may .freshCtr) (k_clo : may .clo) (k_ringPosted : may .ringPosted) (k_chans : may .chans)
    (k_pairs : may .pairs) :
    ∃ u, execHartBurst ch frame s = .next u ∧ Good may s₀ u := by
  unfold execHartBurst
  refine State.done_good _ ?_
  with_reducible repeat' first | assumption | apply State.done_good | apply State.hartBurst_good | refine Good.ite ?_ ?_ | split

/-! ### DebugOps -/

theorem State.dmMemory_good {s : State} (w : Word) (hg : Good may s₀ s) (ka : ∀ p, may p) :
    Good may s₀ (State.dmMemory s w) := by
  unfold State.dmMemory
  with_reducible repeat' first
      | assumption | exact ka _ | apply State.busRead_good | apply State.busWrite_good | refine Good.ite ?_ ?_
      | (extract_lets +onlyGivenNames lt; refine (show Good may s₀ lt → _ from fun hlt => ?_) ?_; (on_goal 1 => clear_value lt); on_goal 2 => subst lt)
      | (extract_lets +onlyGivenNames lt; refine (show Good may s₀ lt.1 → _ from fun hlt => ?_) ?_; (on_goal 1 => clear_value lt); on_goal 2 => subst lt)
      | (extract_lets +onlyGivenNames lt; clear_value lt) | refine Good.of_pair ?_ ‹_› | split
      | (apply Good.u_dmod; first | assumption | refine Good.ite ?_ ?_ | refine Good.of_pair ?_ ‹_› | apply State.busRead_good | apply State.busWrite_good)

theorem State.trigWrite_good {s : State} (h : Nat) (r : Nat) (v : Word) (hg : Good may s₀ s) (k_dmod : may .dmod) :
    Good may s₀ (State.trigWrite s h r v) := by
  unfold State.trigWrite
  with_reducible repeat' first
      | assumption | refine Good.ite ?_ ?_
      | (extract_lets +onlyGivenNames lt; refine (show Good may s₀ lt → _ from fun hlt => ?_) ?_; (on_goal 1 => clear_value lt); on_goal 2 => subst lt)
      | (extract_lets +onlyGivenNames lt; refine (show Good may s₀ lt.1 → _ from fun hlt => ?_) ?_; (on_goal 1 => clear_value lt); on_goal 2 => subst lt)
      | (extract_lets +onlyGivenNames lt; clear_value lt) | split
      | (apply Good.u_dmod; first | assumption | refine Good.ite ?_ ?_ | refine Good.of_pair ?_ ‹_›)

theorem State.dmRegister_good {s : State} (w : Word) (x : Word) (hg : Good may s₀ s) (k_dmod : may .dmod) :
    Good may s₀ (State.dmRegister s w x) := by
  unfold State.dmRegister
  with_reducible repeat' first
      | assumption | apply State.trigWrite_good | refine Good.ite ?_ ?_
      | (extract_lets +onlyGivenNames lt; refine (show Good may s₀ lt → _ from fun hlt => ?_) ?_; (on_goal 1 => clear_value lt); on_goal 2 => subst lt)
      | (extract_lets +onlyGivenNames lt; refine (show Good may s₀ lt.1 → _ from fun hlt => ?_) ?_; (on_goal 1 => clear_value lt); on_goal 2 => subst lt)
      | (extract_lets +onlyGivenNames lt; clear_value lt) | split
      | (apply Good.u_dmod; first | assumption | refine Good.ite ?_ ?_ | refine Good.of_pair ?_ ‹_› | apply State.trigWrite_good)

theorem State.dmWrite_good {s : State} (a : Nat) (d : Word) (x : Word) (hg : Good may s₀ s) (ka : ∀ p, may p) :
    Good may s₀ (State.dmWrite s a d x).1 := by
  unfold State.dmWrite
  with_reducible repeat' first
      | assumption | exact ka _ | apply State.dmMemory_good | apply State.dmRegister_good | apply State.dmcontrol_good | refine Good.ite ?_ ?_
      | refine Good.ite1 ?_ ?_
      | (extract_lets +onlyGivenNames lt; refine (show Good may s₀ lt → _ from fun hlt => ?_) ?_; (on_goal 1 => clear_value lt); on_goal 2 => subst lt)
      | (extract_lets +onlyGivenNames lt; clear_value lt) | split
      | (apply Good.u_dmod; first | assumption | refine Good.ite ?_ ?_ | refine Good.of_pair ?_ ‹_› | apply State.dmMemory_good | apply State.dmRegister_good | apply State.dmcontrol_good)

theorem State.dmiDone_good {s : State} (failed : Bool) (x : Word) (hg : Good may s₀ s) (ka : ∀ p, may p) :
    Good may s₀ (State.dmiDone s failed x) := by
  unfold State.dmiDone
  with_reducible repeat' first
      | assumption | exact ka _ | apply State.wr_good | apply State.put_good | apply State.putB_good | apply State.dmWrite_good
      | refine Good.ite ?_ ?_
      | (extract_lets +onlyGivenNames lt; refine (show Good may s₀ lt → _ from fun hlt => ?_) ?_; (on_goal 1 => clear_value lt); on_goal 2 => subst lt)
      | (extract_lets +onlyGivenNames lt; refine (show Good may s₀ lt.1 → _ from fun hlt => ?_) ?_; (on_goal 1 => clear_value lt); on_goal 2 => subst lt)
      | (extract_lets +onlyGivenNames lt; clear_value lt) | refine Good.of_pair ?_ ‹_› | split
      | (apply Good.u_dmi; first | assumption | refine Good.ite ?_ ?_ | refine Good.of_pair ?_ ‹_› | apply State.wr_good | apply State.put_good | apply State.putB_good | apply State.dmWrite_good)

/-! ### Pairs -/

theorem execComparatorMismatch_good {s : State} (u : Fin 8) (lead : CopyOut) (trail : CopyOut) (pc : BitVec 32)
    (hg : Good may s₀ s) (k_mem : may .mem) (k_sig : may .sig) (k_aborts : may .aborts) (k_pwr : may .pwr) (k_clo : may .clo)
    (k_seqs : may .seqs) (k_loops : may .loops) (k_cas : may .cas) (k_sers : may .sers) (k_rdc : may .rdc) (k_cis : may .cis)
    (k_pnl : may .pnl) (k_pairs : may .pairs) :
    ∃ w, execComparatorMismatch u lead trail pc s = .next w ∧ Good may s₀ w := by
  unfold execComparatorMismatch
  refine State.done_good _ ?_
  with_reducible repeat' first
      | assumption | apply State.done_good | apply State.mismatch_good | refine Good.ite ?_ ?_ | refine Good.of_pair ?_ ‹_› | split

theorem execComparatorTest_good {s : State} (u : Fin 8) (r : LaneTest) (pc : BitVec 32) (hg : Good may s₀ s) (k_mem : may .mem)
    (k_sig : may .sig) (k_aborts : may .aborts) (k_tku : may .tku) (k_pwr : may .pwr) (k_clo : may .clo) (k_seqs : may .seqs)
    (k_loops : may .loops) (k_cas : may .cas) (k_sers : may .sers) (k_rdc : may .rdc) (k_cis : may .cis) (k_pnl : may .pnl)
    (k_pairs : may .pairs) (k_lsqTest : may .lsqTest) :
    ∃ w, execComparatorTest u r pc s = .next w ∧ Good may s₀ w := by
  unfold execComparatorTest
  refine State.done_good _ ?_
  with_reducible repeat' first | assumption | apply State.done_good | apply State.comparatorTest_good | refine Good.ite ?_ ?_ | split

theorem execDelayParityError_good {s : State} (u : Fin 8) (pc : BitVec 32) (addr : BitVec 32) (hg : Good may s₀ s)
    (k_mem : may .mem) (k_sig : may .sig) (k_aborts : may .aborts) (k_pwr : may .pwr) (k_clo : may .clo) (k_seqs : may .seqs)
    (k_loops : may .loops) (k_cas : may .cas) (k_sers : may .sers) (k_rdc : may .rdc) (k_cis : may .cis) (k_pnl : may .pnl)
    (k_pairs : may .pairs) :
    ∃ w, execDelayParityError u pc addr s = .next w ∧ Good may s₀ w := by
  unfold execDelayParityError
  refine State.done_good _ ?_
  with_reducible repeat' first | assumption | apply State.done_good | apply State.delayParity_good | refine Good.ite ?_ ?_ | split

theorem execAgreementPoint_good {s : State} (p : Fin 4) (point : AgreePoint) (pc : BitVec 32) (d0 : BitVec 64) (d1 : Bool)
    (d3 : Bool) (d4 : Bool) (dt : Nat) (ext : Bool) (tim : Bool) (hg : Good may s₀ s) (k_mem : may .mem) (k_sig : may .sig)
    (k_aborts : may .aborts) (k_pwr : may .pwr) (k_clo : may .clo) (k_seqs : may .seqs) (k_gnt : may .gnt) (k_loops : may .loops)
    (k_cas : may .cas) (k_sers : may .sers) (k_rdc : may .rdc) (k_cis : may .cis) (k_pnl : may .pnl) (k_pairs : may .pairs) :
    ∃ u, execAgreementPoint p point pc d0 d1 d3 d4 dt ext tim s = .next u ∧ Good may s₀ u := by
  unfold execAgreementPoint
  refine State.done_good _ ?_
  with_reducible repeat' first | assumption | apply State.agreement_good | apply State.done_good | refine Good.ite ?_ ?_ | split

theorem execIrqAssert_good {s : State} (page : Fin 256) (hg : Good may s₀ s) (k_clo : may .clo) (k_pairs : may .pairs) :
    ∃ u, execIrqAssert page s = .next u ∧ Good may s₀ u := by
  unfold execIrqAssert
  refine State.done_good _ ?_
  with_reducible repeat' first | assumption | apply State.done_good | apply State.irqAssert_good | refine Good.ite ?_ ?_ | split

theorem execMtimecmpReached_good {s : State} (p : Fin 4) (second : Bool) (hg : Good may s₀ s) (k_tku : may .tku)
    (k_clo : may .clo) (k_pairs : may .pairs) :
    ∃ u, execMtimecmpReached p second s = .next u ∧ Good may s₀ u := by
  unfold execMtimecmpReached
  refine State.done_good _ ?_
  with_reducible repeat' first | assumption | apply State.done_good | apply State.mtimecmp_good | refine Good.ite ?_ ?_ | split

theorem execEccSingleBit_good {s : State} (mem : EccMem) (addr : BitVec 32) (hg : Good may s₀ s) :
    ∃ u, execEccSingleBit mem addr s = .next u ∧ Good may s₀ u := by
  unfold execEccSingleBit
  refine State.done_good _ ?_
  with_reducible repeat' first | assumption | apply State.done_good | apply State.eccNote_good | refine Good.ite ?_ ?_ | split

theorem execEccDoubleBit_good {s : State} (mem : EccMem) (addr : BitVec 32) (who : EccMaster) (pc : BitVec 32)
    (hg : Good may s₀ s) (k_mem : may .mem) (k_sig : may .sig) (k_aborts : may .aborts) (k_resp : may .resp)
    (k_coreFaults : may .coreFaults) (k_pwr : may .pwr) (k_clo : may .clo) (k_seqs : may .seqs) (k_loops : may .loops)
    (k_cas : may .cas) (k_sers : may .sers) (k_rdc : may .rdc) (k_cis : may .cis) (k_pnl : may .pnl) (k_pairs : may .pairs) :
    ∃ u, execEccDoubleBit mem addr who pc s = .next u ∧ Good may s₀ u := by
  unfold execEccDoubleBit
  refine State.done_good _ ?_
  with_reducible repeat' first | assumption | apply State.done_good | apply State.eccDouble_good | refine Good.ite ?_ ?_ | split

theorem execScrubWord_good {s : State} (mem : EccMem) (addr : BitVec 32) (found : ScrubFind) (hg : Good may s₀ s)
    (k_tku : may .tku) (k_scrubs : may .scrubs) :
    ∃ u, execScrubWord mem addr found s = .next u ∧ Good may s₀ u := by
  unfold execScrubWord
  refine State.done_good _ ?_
  with_reducible repeat' first | assumption | apply State.done_good | apply State.scrub_good | refine Good.ite ?_ ?_ | split

theorem execDmiRead_good {s : State} (m : Master) (hg : Good may s₀ s) (ka : ∀ p, may p) :
    ∃ u, execDmiRead m s = .next u ∧ Good may s₀ u := by
  unfold execDmiRead
  refine State.done_good _ ?_
  with_reducible repeat' first | assumption | exact ka _ | apply State.done_good | apply State.cmdWrite_good | refine Good.ite ?_ ?_ | split

theorem execDmiWrite_good {s : State} (m : Master) (hg : Good may s₀ s) (ka : ∀ p, may p) :
    ∃ u, execDmiWrite m s = .next u ∧ Good may s₀ u := by
  unfold execDmiWrite
  refine State.done_good _ ?_
  with_reducible repeat' first | assumption | exact ka _ | apply State.done_good | apply State.cmdWrite_good | refine Good.ite ?_ ?_ | split

theorem execDmiDone_good {s : State} (failed : Bool) (rdata : BitVec 32) (hg : Good may s₀ s) (ka : ∀ p, may p) :
    ∃ u, execDmiDone failed rdata s = .next u ∧ Good may s₀ u := by
  unfold execDmiDone
  refine State.done_good _ ?_
  with_reducible repeat' first | assumption | exact ka _ | apply State.done_good | apply State.dmiDone_good | refine Good.ite ?_ ?_ | split

theorem execDbgAuthSubmit_good {s : State} (m : Master) (hg : Good may s₀ s) (ka : ∀ p, may p) :
    ∃ u, execDbgAuthSubmit m s = .next u ∧ Good may s₀ u := by
  unfold execDbgAuthSubmit
  refine State.done_good _ ?_
  with_reducible repeat' first | assumption | exact ka _ | apply State.done_good | apply State.cmdGuard_good | refine Good.ite ?_ ?_ | split

theorem execDbgAuthTimeout_good {s : State} (hg : Good may s₀ s) (k_tku : may .tku) (k_dbgAuth : may .dbgAuth) :
    ∃ u, execDbgAuthTimeout s = .next u ∧ Good may s₀ u := by
  unfold execDbgAuthTimeout
  refine State.done_good _ ?_
  with_reducible repeat' first | assumption | apply State.done_good | apply State.dbgAuthEnd_good | refine Good.ite ?_ ?_ | split

/-! ### Gauntlet -/

theorem execGauntletScan_good {s : State} (t : GntTest) (hg : Good may s₀ s) (ka : ∀ p, may p) :
    ∃ u, execGauntletScan t s = .next u ∧ Good may s₀ u := by
  unfold execGauntletScan
  refine State.done_good _ ?_
  with_reducible repeat' first | assumption | exact ka _ | apply State.done_good | apply State.gntScan_good | refine Good.ite ?_ ?_ | split

theorem execDiscrepancyTimeout_good {s : State} (j : Fin 64) (g : Fin 4) (hg : Good may s₀ s) (k_tku : may .tku) (k_gnt : may .gnt) :
    ∃ u, execDiscrepancyTimeout j g s = .next u ∧ Good may s₀ u := by
  unfold execDiscrepancyTimeout
  refine State.done_good _ ?_
  with_reducible repeat' first
      | assumption | apply State.untilMono_good | apply State.done_good | apply State.discReach_good | refine Good.ite ?_ ?_
      | (extract_lets +onlyGivenNames lt; refine (show Good may s₀ lt → _ from fun hlt => ?_) ?_; (on_goal 1 => clear_value lt); on_goal 2 => subst lt)
      | (extract_lets +onlyGivenNames lt; clear_value lt) | refine Good.of_pair ?_ ‹_› | split

theorem execResetArm_good {s : State} (i : Fin 128) (hg : Good may s₀ s) (k_tku : may .tku) :
    ∃ u, execResetArm i s = .next u ∧ Good may s₀ u := by
  unfold execResetArm
  refine State.done_good _ ?_
  with_reducible repeat' first
      | assumption | apply State.untilMono_good | apply State.done_good | apply State.resetArm_good | refine Good.ite ?_ ?_
      | (extract_lets +onlyGivenNames lt; refine (show Good may s₀ lt → _ from fun hlt => ?_) ?_; (on_goal 1 => clear_value lt); on_goal 2 => subst lt)
      | (extract_lets +onlyGivenNames lt; clear_value lt) | refine Good.of_pair ?_ ‹_› | split

theorem execResetPressTimeout_good {s : State} (i : Fin 128) (hg : Good may s₀ s) (k_tku : may .tku) (k_gnt : may .gnt) :
    ∃ u, execResetPressTimeout i s = .next u ∧ Good may s₀ u := by
  unfold execResetPressTimeout
  refine State.done_good _ ?_
  with_reducible repeat' first
      | assumption | apply State.untilMono_good | apply State.done_good | apply State.resetStuck_good | refine Good.ite ?_ ?_
      | (extract_lets +onlyGivenNames lt; refine (show Good may s₀ lt → _ from fun hlt => ?_) ?_; (on_goal 1 => clear_value lt); on_goal 2 => subst lt)
      | (extract_lets +onlyGivenNames lt; clear_value lt) | refine Good.of_pair ?_ ‹_› | split

theorem execParamCheck_good {s : State} (ok : Bool) (hg : Good may s₀ s) (k_mem : may .mem) (k_sig : may .sig)
    (k_aborts : may .aborts) (k_pwr : may .pwr) (k_clo : may .clo) (k_seqs : may .seqs) (k_loops : may .loops) (k_cas : may .cas)
    (k_sers : may .sers) (k_rdc : may .rdc) (k_cis : may .cis) (k_pnl : may .pnl) (k_pairs : may .pairs) :
    ∃ u, execParamCheck ok s = .next u ∧ Good may s₀ u := by
  unfold execParamCheck
  refine State.done_good _ ?_
  with_reducible repeat' first | assumption | apply State.done_good | apply State.gntFault_good | refine Good.ite ?_ ?_ | split

theorem execGntOscWindow_good {s : State} (khz : BitVec 16) (hg : Good may s₀ s) (k_mem : may .mem) (k_sig : may .sig)
    (k_aborts : may .aborts) (k_pwr : may .pwr) (k_clo : may .clo) (k_seqs : may .seqs) (k_loops : may .loops) (k_cas : may .cas)
    (k_sers : may .sers) (k_rdc : may .rdc) (k_cis : may .cis) (k_pnl : may .pnl) (k_pairs : may .pairs) :
    ∃ u, execGntOscWindow khz s = .next u ∧ Good may s₀ u := by
  unfold execGntOscWindow
  refine State.done_good _ ?_
  with_reducible repeat' first | assumption | apply State.done_good | apply State.gntOsc_good | refine Good.ite ?_ ?_ | split

theorem execGntSupplyFault_good {s : State} (hg : Good may s₀ s) (k_mem : may .mem) (k_sig : may .sig) (k_aborts : may .aborts)
    (k_pwr : may .pwr) (k_clo : may .clo) (k_seqs : may .seqs) (k_gnt : may .gnt) (k_loops : may .loops) (k_cas : may .cas)
    (k_sers : may .sers) (k_rdc : may .rdc) (k_cis : may .cis) (k_pnl : may .pnl) (k_pairs : may .pairs) :
    ∃ u, execGntSupplyFault s = .next u ∧ Good may s₀ u := by
  unfold execGntSupplyFault
  refine State.done_good _ ?_
  with_reducible repeat' first | assumption | apply State.done_good | apply State.gntSupply_good | refine Good.ite ?_ ?_ | split

theorem execVoteRepeat_good {s : State} (hg : Good may s₀ s) (k_tku : may .tku) (k_gnt : may .gnt) :
    ∃ u, execVoteRepeat s = .next u ∧ Good may s₀ u := by
  unfold execVoteRepeat
  refine State.done_good _ ?_
  with_reducible repeat' first | assumption | apply State.done_good | apply State.voteTick_good | refine Good.ite ?_ ?_ | split

theorem execVoteLoss_good {s : State} (hg : Good may s₀ s) (k_tku : may .tku) :
    ∃ u, execVoteLoss s = .next u ∧ Good may s₀ u := by
  unfold execVoteLoss
  refine State.done_good _ ?_
  with_reducible repeat' first | assumption | apply State.done_good | apply State.voteLoss_good | refine Good.ite ?_ ?_ | split

theorem execVoteGraceExpiry_good {s : State} (hg : Good may s₀ s) (k_tku : may .tku) :
    ∃ u, execVoteGraceExpiry s = .next u ∧ Good may s₀ u := by
  unfold execVoteGraceExpiry
  refine State.done_good _ ?_
  with_reducible repeat' first | assumption | apply State.done_good | apply State.graceEnd_good | refine Good.ite ?_ ?_ | split

theorem execPsetLoad_good {s : State} (m : Master) (v : BitVec 32) (hg : Good may s₀ s) (ka : ∀ p, may p) :
    ∃ u, execPsetLoad m v s = .next u ∧ Good may s₀ u := by
  unfold execPsetLoad
  refine State.done_good _ ?_
  with_reducible repeat' first | assumption | exact ka _ | apply State.done_good | apply State.cmdGuard_good | refine Good.ite ?_ ?_ | split

theorem execPsetLoadDone_good {s : State} (hg : Good may s₀ s) (k_sig : may .sig) (k_gnt : may .gnt) (k_chans : may .chans) :
    ∃ u, execPsetLoadDone s = .next u ∧ Good may s₀ u := by
  unfold execPsetLoadDone
  refine State.done_good _ ?_
  with_reducible repeat' first | assumption | apply State.done_good | apply State.psetDone_good | refine Good.ite ?_ ?_ | split

theorem execCommission_good {s : State} (m : Master) (v : BitVec 32) (hg : Good may s₀ s) (ka : ∀ p, may p) :
    ∃ u, execCommission m v s = .next u ∧ Good may s₀ u := by
  unfold execCommission
  refine State.done_good _ ?_
  with_reducible repeat' first | assumption | exact ka _ | apply State.done_good | apply State.cmdGuard_good | refine Good.ite ?_ ?_ | split

theorem execCredChange_good {s : State} (m : Master) (v : BitVec 32) (hg : Good may s₀ s) (ka : ∀ p, may p) :
    ∃ u, execCredChange m v s = .next u ∧ Good may s₀ u := by
  unfold execCredChange
  refine State.done_good _ ?_
  with_reducible repeat' first | assumption | exact ka _ | apply State.done_good | apply State.cmdGuard_good | refine Good.ite ?_ ?_ | split

theorem execCredLockoutExpiry_good {s : State} (p : Fin 32) (hg : Good may s₀ s) (k_tku : may .tku) :
    ∃ u, execCredLockoutExpiry p s = .next u ∧ Good may s₀ u := by
  unfold execCredLockoutExpiry
  refine State.done_good _ ?_
  with_reducible repeat' first | assumption | apply State.done_good | apply State.lockoutEnd_good | refine Good.ite ?_ ?_ | split

theorem execSealSwitchChange_good {s : State} (addr : BitVec 8) (compat : Bool) (lock : Bool) (hg : Good may s₀ s) (k_dev : may .dev) :
    ∃ u, execSealSwitchChange addr compat lock s = .next u ∧ Good may s₀ u := by
  unfold execSealSwitchChange
  refine State.done_good _ ?_
  with_reducible repeat' first | assumption | apply State.done_good | apply State.sealChange_good | refine Good.ite ?_ ?_ | split

end Sys2Proof.Machine
end

