-- ==== Sys2Proof/Laws/KeepEvents.lean ====
section
/-! SUPPORT. What every operation keeps (`Good`), operation by operation: the commands of SSC, the ports, CAN, the station, power, the recorder and the panel. -/

set_option linter.all false

namespace Sys2Proof.Machine

variable {may : Part → Prop} {s₀ : State}

/-! ### Ssc -/

theorem execSscRepeat_good {s : State} (e : Fin 64) (hg : Good may s₀ s) (k_tku : may .tku) :
    ∃ u, execSscRepeat e s = .next u ∧ Good may s₀ u := by
  unfold execSscRepeat
  refine State.done_good _ ?_
  with_reducible repeat' first | assumption | apply State.done_good | apply State.sscRepeat_good | refine Good.ite ?_ ?_ | split

theorem execSscFrame_good {s : State} (e : Fin 64) (frame : List (BitVec 8)) (ago : BitVec 32) (hg : Good may s₀ s) (ka : ∀ p, may p) :
    ∃ u, execSscFrame e frame ago s = .next u ∧ Good may s₀ u := by
  unfold execSscFrame
  refine State.done_good _ ?_
  with_reducible repeat' first
      | assumption | exact ka _ | apply State.done_good | apply State.sscTake_good | refine Good.ite ?_ ?_
      | (extract_lets +onlyGivenNames lt; refine (show Good may s₀ lt → _ from fun hlt => ?_) ?_; (on_goal 1 => clear_value lt); on_goal 2 => subst lt)
      | (extract_lets +onlyGivenNames lt; refine (show Good may s₀ lt.1 → _ from fun hlt => ?_) ?_; (on_goal 1 => clear_value lt); on_goal 2 => subst lt)
      | (extract_lets +onlyGivenNames lt; clear_value lt) | split

theorem execSscWatchdog_good {s : State} (e : Fin 64) (hg : Good may s₀ s) (k_sig : may .sig) (k_tku : may .tku) :
    ∃ u, execSscWatchdog e s = .next u ∧ Good may s₀ u := by
  unfold execSscWatchdog
  refine State.done_good _ ?_
  with_reducible repeat' first | assumption | apply State.done_good | apply State.sscWatchdog_good | refine Good.ite ?_ ?_ | split

theorem execSessAck_good {s : State} (m : Master) (v : BitVec 32) (hg : Good may s₀ s) (ka : ∀ p, may p) :
    ∃ u, execSessAck m v s = .next u ∧ Good may s₀ u := by
  unfold execSessAck
  refine State.done_good _ ?_
  with_reducible repeat' first | assumption | exact ka _ | apply State.done_good | apply State.cmdGuard_good | refine Good.ite ?_ ?_ | split

theorem execSessEnable_good {s : State} (m : Master) (v : BitVec 32) (hg : Good may s₀ s) (ka : ∀ p, may p) :
    ∃ u, execSessEnable m v s = .next u ∧ Good may s₀ u := by
  unfold execSessEnable
  refine State.done_good _ ?_
  with_reducible repeat' first | assumption | exact ka _ | apply State.done_good | apply State.cmdWrite_good | refine Good.ite ?_ ?_ | split

theorem execSessDisable_good {s : State} (m : Master) (v : BitVec 32) (hg : Good may s₀ s) (ka : ∀ p, may p) :
    ∃ u, execSessDisable m v s = .next u ∧ Good may s₀ u := by
  unfold execSessDisable
  refine State.done_good _ ?_
  with_reducible repeat' first | assumption | exact ka _ | apply State.done_good | apply State.cmdWrite_good | refine Good.ite ?_ ?_ | split

/-! ### Ports -/

theorem execRingProdWrite_good {s : State} (m : Master) (v : BitVec 32) (hg : Good may s₀ s) (ka : ∀ p, may p) :
    ∃ u, execRingProdWrite m v s = .next u ∧ Good may s₀ u := by
  unfold execRingProdWrite
  refine State.done_good _ ?_
  with_reducible repeat' first | assumption | exact ka _ | apply State.done_good | apply State.cmdWrite_good | refine Good.ite ?_ ?_ | split

theorem execRingConsWrite_good {s : State} (m : Master) (v : BitVec 32) (hg : Good may s₀ s) (ka : ∀ p, may p) :
    ∃ u, execRingConsWrite m v s = .next u ∧ Good may s₀ u := by
  unfold execRingConsWrite
  refine State.done_good _ ?_
  with_reducible repeat' first | assumption | exact ka _ | apply State.done_good | apply State.cmdWrite_good | refine Good.ite ?_ ?_ | split

theorem execRingEnable_good {s : State} (m : Master) (v : BitVec 32) (hg : Good may s₀ s) (ka : ∀ p, may p) :
    ∃ u, execRingEnable m v s = .next u ∧ Good may s₀ u := by
  unfold execRingEnable
  refine State.done_good _ ?_
  with_reducible repeat' first | assumption | exact ka _ | apply State.done_good | apply State.cmdWrite_good | refine Good.ite ?_ ?_ | split

theorem execRingDisable_good {s : State} (m : Master) (v : BitVec 32) (hg : Good may s₀ s) (ka : ∀ p, may p) :
    ∃ u, execRingDisable m v s = .next u ∧ Good may s₀ u := by
  unfold execRingDisable
  refine State.done_good _ ?_
  with_reducible repeat' first | assumption | exact ka _ | apply State.done_good | apply State.cmdWrite_good | refine Good.ite ?_ ?_ | split

theorem execRingHoldoff_good {s : State} (r : Fin 64) (hg : Good may s₀ s) (k_tku : may .tku) (k_clo : may .clo) (k_pairs : may .pairs) :
    ∃ u, execRingHoldoff r s = .next u ∧ Good may s₀ u := by
  unfold execRingHoldoff
  refine State.done_good _ ?_
  with_reducible repeat' first
      | assumption | apply State.untilMono_good | apply State.wakeFor_good | apply State.done_good | refine Good.ite ?_ ?_
      | (extract_lets +onlyGivenNames lt; refine (show Good may s₀ lt → _ from fun hlt => ?_) ?_; (on_goal 1 => clear_value lt); on_goal 2 => subst lt)
      | (extract_lets +onlyGivenNames lt; refine (show Good may s₀ lt.1 → _ from fun hlt => ?_) ?_; (on_goal 1 => clear_value lt); on_goal 2 => subst lt)
      | (extract_lets +onlyGivenNames lt; clear_value lt) | split

theorem execEthRxFrame_good {s : State} (p : Fin 12) (frame : List (BitVec 8)) (fcsOk : Bool) (ago : BitVec 32)
    (hg : Good may s₀ s) (ka : ∀ p, may p) :
    ∃ u, execEthRxFrame p frame fcsOk ago s = .next u ∧ Good may s₀ u := by
  unfold execEthRxFrame
  refine State.done_good _ ?_
  with_reducible repeat' first | assumption | exact ka _ | apply State.done_good | apply State.ethFrame_good | refine Good.ite ?_ ?_ | split

theorem execEthTransmit_good {s : State} (p : Fin 12) (hg : Good may s₀ s) (k_mem : may .mem) :
    ∃ u, execEthTransmit p s = .next u ∧ Good may s₀ u := by
  unfold execEthTransmit
  refine State.done_good _ ?_
  with_reducible repeat' first | assumption | apply State.done_good | apply State.ethStart_good | refine Good.ite ?_ ?_ | split

theorem execEthTxDone_good {s : State} (p : Fin 12) (sent : EgressAgo) (hg : Good may s₀ s) (k_mem : may .mem) :
    ∃ u, execEthTxDone p sent s = .next u ∧ Good may s₀ u := by
  unfold execEthTxDone
  refine State.done_good _ ?_
  with_reducible repeat' first | assumption | apply State.done_good | apply State.ethDone_good | refine Good.ite ?_ ?_ | split

theorem execLinkDown_good {s : State} (p : Fin 12) (hg : Good may s₀ s) (k_mem : may .mem) :
    ∃ u, execLinkDown p s = .next u ∧ Good may s₀ u := by
  unfold execLinkDown
  refine State.done_good _ ?_
  with_reducible repeat' first | assumption | apply State.linkLost_good | apply State.done_good | refine Good.ite ?_ ?_ | split

theorem execLinkUp_good {s : State} (p : Fin 12) (speed : BitVec 2) (hg : Good may s₀ s) :
    ∃ u, execLinkUp p speed s = .next u ∧ Good may s₀ u := by
  unfold execLinkUp
  refine State.done_good _ ?_
  with_reducible repeat' first | assumption | apply State.done_good | apply State.linkRises_good | refine Good.ite ?_ ?_ | split

theorem execPortSpeedWrite_good {s : State} (m : Master) (p : Fin 12) (v : BitVec 32) (hg : Good may s₀ s) (ka : ∀ p, may p) :
    ∃ u, execPortSpeedWrite m p v s = .next u ∧ Good may s₀ u := by
  unfold execPortSpeedWrite
  refine State.done_good _ ?_
  with_reducible repeat' first | assumption | exact ka _ | apply State.done_good | apply State.cmdWrite_good | refine Good.ite ?_ ?_ | split

theorem execPrpSupervision_good {s : State} (p : Fin 12) (hg : Good may s₀ s) (k_tku : may .tku) :
    ∃ u, execPrpSupervision p s = .next u ∧ Good may s₀ u := by
  unfold execPrpSupervision
  refine State.done_good _ ?_
  with_reducible repeat' first
      | assumption | apply State.untilMono_good | apply State.done_good | apply State.supSend_good | refine Good.ite ?_ ?_ | split

theorem execSfpModuleInsertion_good {s : State} (k : Fin 2) (present : Bool) (sr : Bool) (hg : Good may s₀ s) (k_mem : may .mem) (k_dev : may .dev) :
    ∃ u, execSfpModuleInsertion k present sr s = .next u ∧ Good may s₀ u := by
  unfold execSfpModuleInsertion
  refine State.done_good _ ?_
  with_reducible repeat' first | assumption | apply State.done_good | apply State.sfpChange_good | refine Good.ite ?_ ?_ | split

theorem execSerTransmit_good {s : State} (n : Fin 32) (hg : Good may s₀ s) (k_mem : may .mem) (k_sers : may .sers) :
    ∃ u, execSerTransmit n s = .next u ∧ Good may s₀ u := by
  unfold execSerTransmit
  refine State.done_good _ ?_
  with_reducible repeat' first | assumption | apply State.done_good | apply State.serStart_good | refine Good.ite ?_ ?_ | split

theorem execSerRecordClose_good {s : State} (n : Fin 32) (bytes : List (BitVec 8)) (parity : Bool) (framing : Bool) (brk : Bool)
    (ago : BitVec 32) (hg : Good may s₀ s) (k_mem : may .mem) (k_clo : may .clo) (k_ringPosted : may .ringPosted)
    (k_pairs : may .pairs) :
    ∃ u, execSerRecordClose n bytes parity framing brk ago s = .next u ∧ Good may s₀ u := by
  unfold execSerRecordClose
  refine State.done_good _ ?_
  with_reducible repeat' first | assumption | apply State.done_good | apply State.serRecord_good | refine Good.ite ?_ ?_ | split

theorem execSerGapTimeout_good {s : State} (n : Fin 32) (bytes : List (BitVec 8)) (parity : Bool) (framing : Bool) (brk : Bool)
    (ago : BitVec 32) (hg : Good may s₀ s) (k_mem : may .mem) (k_clo : may .clo) (k_ringPosted : may .ringPosted)
    (k_pairs : may .pairs) :
    ∃ u, execSerGapTimeout n bytes parity framing brk ago s = .next u ∧ Good may s₀ u := by
  unfold execSerGapTimeout
  refine State.done_good _ ?_
  with_reducible repeat' first | assumption | apply State.done_good | apply State.serRecord_good | refine Good.ite ?_ ?_ | split

theorem execModbusFrameEnd_good {s : State} (n : Fin 32) (bytes : List (BitVec 8)) (parity : Bool) (framing : Bool) (brk : Bool)
    (gap : Bool) (ago : BitVec 32) (hg : Good may s₀ s) (k_mem : may .mem) (k_tku : may .tku) (k_clo : may .clo)
    (k_ringPosted : may .ringPosted) (k_sers : may .sers) (k_pairs : may .pairs) :
    ∃ u, execModbusFrameEnd n bytes parity framing brk gap ago s = .next u ∧ Good may s₀ u := by
  unfold execModbusFrameEnd
  refine State.done_good _ ?_
  with_reducible repeat' first | assumption | apply State.done_good | apply State.modbusFrame_good | refine Good.ite ?_ ?_ | split

theorem execModbusRequest_good {s : State} (n : Fin 32) (hg : Good may s₀ s) (k_mem : may .mem) (k_sers : may .sers) :
    ∃ u, execModbusRequest n s = .next u ∧ Good may s₀ u := by
  unfold execModbusRequest
  refine State.done_good _ ?_
  with_reducible repeat' first | assumption | apply State.done_good | apply State.serStart_good | refine Good.ite ?_ ?_ | split

theorem execModbusRespTimeout_good {s : State} (n : Fin 32) (hg : Good may s₀ s) (k_mem : may .mem) (k_tku : may .tku)
    (k_clo : may .clo) (k_ringPosted : may .ringPosted) (k_sers : may .sers) (k_pairs : may .pairs) :
    ∃ u, execModbusRespTimeout n s = .next u ∧ Good may s₀ u := by
  unfold execModbusRespTimeout
  refine State.done_good _ ?_
  with_reducible repeat' first | assumption | apply State.done_good | apply State.modbusTimeout_good | refine Good.ite ?_ ?_ | split

theorem execModbusTurnaround_good {s : State} (n : Fin 32) (hg : Good may s₀ s) (k_tku : may .tku) (k_sers : may .sers) :
    ∃ u, execModbusTurnaround n s = .next u ∧ Good may s₀ u := by
  unfold execModbusTurnaround
  refine State.done_good _ ?_
  with_reducible repeat' first | assumption | apply State.done_good | apply State.modbusTurn_good | refine Good.ite ?_ ?_ | split

theorem execSerModeOff_good {s : State} (m : Master) (n : Fin 32) (v : BitVec 32) (hg : Good may s₀ s) (ka : ∀ p, may p) :
    ∃ u, execSerModeOff m n v s = .next u ∧ Good may s₀ u := by
  unfold execSerModeOff
  refine State.done_good _ ?_
  with_reducible repeat' first | assumption | exact ka _ | apply State.done_good | apply State.cmdWrite_good | refine Good.ite ?_ ?_ | split

theorem execSerTxEnd_good {s : State} (n : Fin 32) (hg : Good may s₀ s) (k_mem : may .mem) (k_sers : may .sers) :
    ∃ u, execSerTxEnd n s = .next u ∧ Good may s₀ u := by
  unfold execSerTxEnd
  refine State.done_good _ ?_
  with_reducible repeat' first | assumption | apply State.done_good | apply State.serSent_good | refine Good.ite ?_ ?_ | split

/-! ### Can -/

theorem execCanFetch_good {s : State} (n : Fin 20) (hg : Good may s₀ s) (k_mem : may .mem) :
    ∃ u, execCanFetch n s = .next u ∧ Good may s₀ u := by
  unfold execCanFetch
  refine State.done_good _ ?_
  with_reducible repeat' first | assumption | apply State.done_good | apply State.canFetch_good | refine Good.ite ?_ ?_ | split

theorem execCanSof_good {s : State} (n : Fin 20) (hg : Good may s₀ s) :
    ∃ u, execCanSof n s = .next u ∧ Good may s₀ u := by
  unfold execCanSof
  refine State.done_good _ ?_
  with_reducible repeat' first | assumption | apply State.done_good | apply State.canSof_good | refine Good.ite ?_ ?_ | split

theorem execCanTxEnd_good {s : State} (n : Fin 20) (hg : Good may s₀ s) (k_mem : may .mem) :
    ∃ u, execCanTxEnd n s = .next u ∧ Good may s₀ u := by
  unfold execCanTxEnd
  refine State.done_good _ ?_
  with_reducible repeat' first | assumption | apply State.done_good | apply State.canTxEnd_good | refine Good.ite ?_ ?_ | split

theorem execCanArbLost_good {s : State} (n : Fin 20) (hg : Good may s₀ s) (k_mem : may .mem) :
    ∃ u, execCanArbLost n s = .next u ∧ Good may s₀ u := by
  unfold execCanArbLost
  refine State.done_good _ ?_
  with_reducible repeat' first | assumption | apply State.done_good | apply State.canArbLost_good | refine Good.ite ?_ ?_ | split

theorem execCanBusError_good {s : State} (n : Fin 20) (cls : Fin 8) (tec : BitVec 16) (rec : BitVec 8) (tx : Bool)
    (hg : Good may s₀ s) (k_mem : may .mem) :
    ∃ u, execCanBusError n cls tec rec tx s = .next u ∧ Good may s₀ u := by
  unfold execCanBusError
  refine State.done_good _ ?_
  with_reducible repeat' first
      | assumption | apply State.done_good | apply State.canError_good | apply State.canException_good | refine Good.ite ?_ ?_ | split

theorem execCanRecover_good {s : State} (m : Master) (n : Fin 20) (hg : Good may s₀ s) (ka : ∀ p, may p) :
    ∃ u, execCanRecover m n s = .next u ∧ Good may s₀ u := by
  unfold execCanRecover
  refine State.done_good _ ?_
  with_reducible repeat' first | assumption | exact ka _ | apply State.done_good | apply State.cmdWrite_good | refine Good.ite ?_ ?_ | split

theorem execCanRecovered_good {s : State} (n : Fin 20) (hg : Good may s₀ s) :
    ∃ u, execCanRecovered n s = .next u ∧ Good may s₀ u := by
  unfold execCanRecovered
  refine State.done_good _ ?_
  with_reducible repeat' first | assumption | apply State.done_good | apply State.canRecovered_good | refine Good.ite ?_ ?_ | split

theorem execCanLaunchTime_good {s : State} (n : Fin 20) (b : Fin 8) (hg : Good may s₀ s) (k_tku : may .tku) :
    ∃ u, execCanLaunchTime n b s = .next u ∧ Good may s₀ u := by
  unfold execCanLaunchTime
  refine State.done_good _ ?_
  with_reducible repeat' first | assumption | apply State.done_good | apply State.canLaunch_good | refine Good.ite ?_ ?_ | split

theorem execCanAtWindowExpiry_good {s : State} (n : Fin 20) (b : Fin 8) (hg : Good may s₀ s) (k_mem : may .mem) (k_tku : may .tku) :
    ∃ u, execCanAtWindowExpiry n b s = .next u ∧ Good may s₀ u := by
  unfold execCanAtWindowExpiry
  refine State.done_good _ ?_
  with_reducible repeat' first | assumption | apply State.done_good | apply State.canWindow_good | refine Good.ite ?_ ?_ | split

theorem execCanRxFrame_good {s : State} (n : Fin 20) (w0 : BitVec 32) (w1 : BitVec 32) (bytes : List (BitVec 8)) (ago : BitVec 32)
    (hg : Good may s₀ s) (ka : ∀ p, may p) :
    ∃ u, execCanRxFrame n w0 w1 bytes ago s = .next u ∧ Good may s₀ u := by
  unfold execCanRxFrame
  refine State.done_good _ ?_
  with_reducible repeat' first | assumption | exact ka _ | apply State.done_good | apply State.canFrame_good | refine Good.ite ?_ ?_ | split

theorem execCanModeWrite_good {s : State} (m : Master) (n : Fin 20) (v : BitVec 32) (hg : Good may s₀ s) (ka : ∀ p, may p) :
    ∃ u, execCanModeWrite m n v s = .next u ∧ Good may s₀ u := by
  unfold execCanModeWrite
  refine State.done_good _ ?_
  with_reducible repeat' first | assumption | exact ka _ | apply State.done_good | apply State.cmdWrite_good | refine Good.ite ?_ ?_ | split

theorem execNbtWrite_good {s : State} (m : Master) (n : Fin 20) (v : BitVec 32) (hg : Good may s₀ s) (ka : ∀ p, may p) :
    ∃ u, execNbtWrite m n v s = .next u ∧ Good may s₀ u := by
  unfold execNbtWrite
  refine State.done_good _ ?_
  with_reducible repeat' first | assumption | exact ka _ | apply State.done_good | apply State.cmdWrite_good | refine Good.ite ?_ ?_ | split

theorem execCanDetDwell_good {s : State} (n : Fin 20) (hg : Good may s₀ s) (k_tku : may .tku) :
    ∃ u, execCanDetDwell n s = .next u ∧ Good may s₀ u := by
  unfold execCanDetDwell
  refine State.done_good _ ?_
  with_reducible repeat' first
      | assumption | apply State.untilMono_good | apply State.done_good | apply State.detNext_good | refine Good.ite ?_ ?_ | split

/-! ### Station -/

theorem execHeartbeat_good {s : State} (path : Fin 13) (rec : List (BitVec 8)) (ago : BitVec 32) (hg : Good may s₀ s) (ka : ∀ p, may p) :
    ∃ u, execHeartbeat path rec ago s = .next u ∧ Good may s₀ u := by
  unfold execHeartbeat
  refine State.done_good _ ?_
  with_reducible repeat' first | assumption | exact ka _ | apply State.done_good | apply State.rdcTyped_good | refine Good.ite ?_ ?_ | split

theorem execLeaseReq_good {s : State} (path : Fin 13) (rec : List (BitVec 8)) (ago : BitVec 32) (hg : Good may s₀ s) (ka : ∀ p, may p) :
    ∃ u, execLeaseReq path rec ago s = .next u ∧ Good may s₀ u := by
  unfold execLeaseReq
  refine State.done_good _ ?_
  with_reducible repeat' first | assumption | exact ka _ | apply State.done_good | apply State.rdcTyped_good | refine Good.ite ?_ ?_ | split

theorem execLeaseGrant_good {s : State} (path : Fin 13) (rec : List (BitVec 8)) (ago : BitVec 32) (hg : Good may s₀ s) (ka : ∀ p, may p) :
    ∃ u, execLeaseGrant path rec ago s = .next u ∧ Good may s₀ u := by
  unfold execLeaseGrant
  refine State.done_good _ ?_
  with_reducible repeat' first | assumption | exact ka _ | apply State.done_good | apply State.rdcTyped_good | refine Good.ite ?_ ?_ | split

theorem execLeaseRefuse_good {s : State} (path : Fin 13) (rec : List (BitVec 8)) (ago : BitVec 32) (hg : Good may s₀ s) (ka : ∀ p, may p) :
    ∃ u, execLeaseRefuse path rec ago s = .next u ∧ Good may s₀ u := by
  unfold execLeaseRefuse
  refine State.done_good _ ?_
  with_reducible repeat' first | assumption | exact ka _ | apply State.done_good | apply State.rdcTyped_good | refine Good.ite ?_ ?_ | split

theorem execPeerReq_good {s : State} (path : Fin 13) (rec : List (BitVec 8)) (ago : BitVec 32) (hg : Good may s₀ s) (ka : ∀ p, may p) :
    ∃ u, execPeerReq path rec ago s = .next u ∧ Good may s₀ u := by
  unfold execPeerReq
  refine State.done_good _ ?_
  with_reducible repeat' first | assumption | exact ka _ | apply State.done_good | apply State.rdcTyped_good | refine Good.ite ?_ ?_ | split

theorem execPeerGrant_good {s : State} (path : Fin 13) (rec : List (BitVec 8)) (ago : BitVec 32) (hg : Good may s₀ s) (ka : ∀ p, may p) :
    ∃ u, execPeerGrant path rec ago s = .next u ∧ Good may s₀ u := by
  unfold execPeerGrant
  refine State.done_good _ ?_
  with_reducible repeat' first | assumption | exact ka _ | apply State.done_good | apply State.rdcTyped_good | refine Good.ite ?_ ?_ | split

theorem execRelinquish_good {s : State} (path : Fin 13) (rec : List (BitVec 8)) (ago : BitVec 32) (hg : Good may s₀ s) (ka : ∀ p, may p) :
    ∃ u, execRelinquish path rec ago s = .next u ∧ Good may s₀ u := by
  unfold execRelinquish
  refine State.done_good _ ?_
  with_reducible repeat' first | assumption | exact ka _ | apply State.done_good | apply State.rdcTyped_good | refine Good.ite ?_ ?_ | split

theorem execHandover_good {s : State} (path : Fin 13) (rec : List (BitVec 8)) (ago : BitVec 32) (hg : Good may s₀ s) (ka : ∀ p, may p) :
    ∃ u, execHandover path rec ago s = .next u ∧ Good may s₀ u := by
  unfold execHandover
  refine State.done_good _ ?_
  with_reducible repeat' first | assumption | exact ka _ | apply State.done_good | apply State.rdcTyped_good | refine Good.ite ?_ ?_ | split

theorem execTimeReq_good {s : State} (path : Fin 13) (rec : List (BitVec 8)) (ago : BitVec 32) (dep : BitVec 32)
    (hg : Good may s₀ s) (ka : ∀ p, may p) :
    ∃ u, execTimeReq path rec ago dep s = .next u ∧ Good may s₀ u := by
  unfold execTimeReq
  refine State.done_good _ ?_
  with_reducible repeat' first | assumption | exact ka _ | apply State.done_good | apply State.rdcTyped_good | refine Good.ite ?_ ?_ | split

theorem execTimeResp_good {s : State} (path : Fin 13) (rec : List (BitVec 8)) (ago : BitVec 32) (hg : Good may s₀ s) (ka : ∀ p, may p) :
    ∃ u, execTimeResp path rec ago s = .next u ∧ Good may s₀ u := by
  unfold execTimeResp
  refine State.done_good _ ?_
  with_reducible repeat' first | assumption | exact ka _ | apply State.done_good | apply State.rdcTyped_good | refine Good.ite ?_ ?_ | split

theorem execTimeFup_good {s : State} (path : Fin 13) (rec : List (BitVec 8)) (ago : BitVec 32) (hg : Good may s₀ s) (ka : ∀ p, may p) :
    ∃ u, execTimeFup path rec ago s = .next u ∧ Good may s₀ u := by
  unfold execTimeFup
  refine State.done_good _ ?_
  with_reducible repeat' first | assumption | exact ka _ | apply State.done_good | apply State.rdcTyped_good | refine Good.ite ?_ ?_ | split

theorem State.rdcEvent_good {s : State} (f : State → State) (hf : Good may s₀ (f s)) (hg : Good may s₀ s) :
    ∃ u, s.rdcEvent f = .next u ∧ Good may s₀ u := State.done_good _ (Good.ite hf hg)

theorem execHeartbeatSend_good {s : State} (hg : Good may s₀ s) (k_tku : may .tku) (k_rdc : may .rdc) :
    ∃ u, execHeartbeatSend s = .next u ∧ Good may s₀ u := by
  unfold execHeartbeatSend
  refine State.done_good _ ?_
  with_reducible repeat' first | assumption | apply State.heartbeatSend_good | apply State.rdcEvent_good | refine Good.ite ?_ ?_ | split

theorem execTimeExchangeTimeout_good {s : State} (hg : Good may s₀ s) (k_tku : may .tku) (k_rdc : may .rdc) :
    ∃ u, execTimeExchangeTimeout s = .next u ∧ Good may s₀ u := by
  unfold execTimeExchangeTimeout
  refine State.done_good _ ?_
  with_reducible repeat' first | assumption | apply State.rdcEvent_good | apply State.timeTimeout_good | refine Good.ite ?_ ?_ | split

theorem execLeaseRenew_good {s : State} (hg : Good may s₀ s) (k_tku : may .tku) (k_rdc : may .rdc) :
    ∃ u, execLeaseRenew s = .next u ∧ Good may s₀ u := by
  unfold execLeaseRenew
  refine State.done_good _ ?_
  with_reducible repeat' first | assumption | apply State.leaseRenew_good | apply State.rdcEvent_good | refine Good.ite ?_ ?_ | split

theorem execStandbyLeaseReq_good {s : State} (hg : Good may s₀ s) (k_tku : may .tku) (k_rdc : may .rdc) :
    ∃ u, execStandbyLeaseReq s = .next u ∧ Good may s₀ u := by
  unfold execStandbyLeaseReq
  refine State.done_good _ ?_
  with_reducible repeat' first | assumption | apply State.rdcEvent_good | apply State.standbyReq_good | refine Good.ite ?_ ?_ | split

theorem execLeaseExpiry_good {s : State} (hg : Good may s₀ s) (k_mem : may .mem) (k_tku : may .tku) (k_rdc : may .rdc) :
    ∃ u, execLeaseExpiry s = .next u ∧ Good may s₀ u := by
  unfold execLeaseExpiry
  refine State.done_good _ ?_
  with_reducible repeat' first | assumption | apply State.leaseExpiry_good | apply State.rdcEvent_good | refine Good.ite ?_ ?_ | split

theorem execPeerLeaseExpiry_good {s : State} (hg : Good may s₀ s) (k_tku : may .tku) (k_rdc : may .rdc) :
    ∃ u, execPeerLeaseExpiry s = .next u ∧ Good may s₀ u := by
  unfold execPeerLeaseExpiry
  refine State.done_good _ ?_
  with_reducible repeat' first | assumption | apply State.rdcEvent_good | apply State.signEnd_good | refine Good.ite ?_ ?_ | split

theorem execWitnessStartupHold_good {s : State} (hg : Good may s₀ s) (k_tku : may .tku) :
    ∃ u, execWitnessStartupHold s = .next u ∧ Good may s₀ u := by
  unfold execWitnessStartupHold
  refine State.done_good _ ?_
  with_reducible repeat' first | assumption | apply State.dutyHold_good | apply State.rdcEvent_good | refine Good.ite ?_ ?_ | split

theorem execHandoverTick_good {s : State} (hg : Good may s₀ s) (k_mem : may .mem) (k_sig : may .sig) (k_tku : may .tku)
    (k_clo : may .clo) (k_seqs : may .seqs) (k_loops : may .loops) (k_cas : may .cas) (k_rdc : may .rdc) (k_slu : may .slu)
    (k_pairs : may .pairs) :
    ∃ u, execHandoverTick s = .next u ∧ Good may s₀ u := by
  unfold execHandoverTick
  refine State.done_good _ ?_
  with_reducible repeat' first | assumption | apply State.handoverTick_good | apply State.rdcEvent_good | refine Good.ite ?_ ?_ | split

theorem execHandoverTimeout_good {s : State} (hg : Good may s₀ s) (k_tku : may .tku) (k_pwr : may .pwr) (k_rdc : may .rdc) :
    ∃ u, execHandoverTimeout s = .next u ∧ Good may s₀ u := by
  unfold execHandoverTimeout
  refine State.done_good _ ?_
  with_reducible repeat' first | assumption | apply State.handoverTimeout_good | apply State.rdcEvent_good | refine Good.ite ?_ ?_ | split

theorem execRevertHoldoff_good {s : State} (hg : Good may s₀ s) (k_tku : may .tku) :
    ∃ u, execRevertHoldoff s = .next u ∧ Good may s₀ u := by
  unfold execRevertHoldoff
  refine State.done_good _ ?_
  with_reducible repeat' first | assumption | apply State.rdcEvent_good | apply State.revertHoldoff_good | refine Good.ite ?_ ?_ | split

theorem execRevertStart_good {s : State} (hg : Good may s₀ s) (k_rdc : may .rdc) :
    ∃ u, execRevertStart s = .next u ∧ Good may s₀ u := by
  unfold execRevertStart
  refine State.done_good _ ?_
  with_reducible repeat' first | assumption | apply State.rdcEvent_good | apply State.revertStart_good | refine Good.ite ?_ ?_ | split

theorem execHbLinkTimeout_good {s : State} (path : Fin 15) (hg : Good may s₀ s) (k_tku : may .tku) (k_rdc : may .rdc) :
    ∃ u, execHbLinkTimeout path s = .next u ∧ Good may s₀ u := by
  unfold execHbLinkTimeout
  refine State.done_good _ ?_
  with_reducible repeat' first | assumption | apply State.linkTimeout_good | apply State.rdcEvent_good | refine Good.ite ?_ ?_ | split

theorem execTimeExchangeStart_good {s : State} (t1 : BitVec 32) (hg : Good may s₀ s) (k_tku : may .tku) (k_rdc : may .rdc) :
    ∃ u, execTimeExchangeStart t1 s = .next u ∧ Good may s₀ u := by
  unfold execTimeExchangeStart
  refine State.done_good _ ?_
  with_reducible repeat' first | assumption | apply State.rdcEvent_good | apply State.timeStart_good | refine Good.ite ?_ ?_ | split

theorem execWitnessGuardEnd_good {s : State} (station : Fin 256) (hg : Good may s₀ s) (k_tku : may .tku) (k_rdc : may .rdc) :
    ∃ u, execWitnessGuardEnd station s = .next u ∧ Good may s₀ u := by
  unfold execWitnessGuardEnd
  refine State.done_good _ ?_
  with_reducible repeat' first | assumption | apply State.guardEnd_good | apply State.rdcEvent_good | refine Good.ite ?_ ?_ | split

theorem execColdStartWait_good {s : State} (station : Fin 256) (hg : Good may s₀ s) (k_tku : may .tku) :
    ∃ u, execColdStartWait station s = .next u ∧ Good may s₀ u := by
  unfold execColdStartWait
  refine State.done_good _ ?_
  with_reducible repeat' first | assumption | apply State.coldWait_good | apply State.rdcEvent_good | refine Good.ite ?_ ?_ | split

theorem execRestoreDone_good {s : State} (hg : Good may s₀ s) (k_mem : may .mem) (k_sig : may .sig) (k_forces : may .forces)
    (k_seqs : may .seqs) (k_loops : may .loops) (k_cas : may .cas) :
    ∃ u, execRestoreDone s = .next u ∧ Good may s₀ u := by
  unfold execRestoreDone
  refine State.done_good _ ?_
  with_reducible repeat' first | assumption | apply State.done_good | apply State.restoreDone_good | refine Good.ite ?_ ?_ | split

theorem execFullCheckpointStart_good {s : State} (hg : Good may s₀ s) (k_mem : may .mem) (k_clo : may .clo)
    (k_ringPosted : may .ringPosted) (k_slu : may .slu) (k_pairs : may .pairs) :
    ∃ u, execFullCheckpointStart s = .next u ∧ Good may s₀ u := by
  unfold execFullCheckpointStart
  refine State.done_good _ ?_
  with_reducible repeat' first | assumption | apply State.done_good | apply State.fullStart_good | refine Good.ite ?_ ?_ | split

theorem execFullCheckpointEnd_good {s : State} (hg : Good may s₀ s) (k_mem : may .mem) (k_clo : may .clo)
    (k_ringPosted : may .ringPosted) (k_slu : may .slu) (k_pairs : may .pairs) :
    ∃ u, execFullCheckpointEnd s = .next u ∧ Good may s₀ u := by
  unfold execFullCheckpointEnd
  refine State.done_good _ ?_
  with_reducible repeat' first | assumption | apply State.done_good | apply State.fullEnd_good | refine Good.ite ?_ ?_ | split

theorem execSluiceRecord_good {s : State} (rec : List (BitVec 8)) (hg : Good may s₀ s) (k_mem : may .mem) (k_sig : may .sig)
    (k_forces : may .forces) (k_clo : may .clo) (k_ringPosted : may .ringPosted) (k_seqs : may .seqs) (k_rdc : may .rdc)
    (k_slu : may .slu) (k_pairs : may .pairs) :
    ∃ u, execSluiceRecord rec s = .next u ∧ Good may s₀ u := by
  unfold execSluiceRecord
  refine State.done_good _ ?_
  with_reducible repeat' first | assumption | apply State.done_good | apply State.sluiceTake_good | refine Good.ite ?_ ?_ | split

theorem execCheckpointAgeLimit_good {s : State} (hg : Good may s₀ s) (k_tku : may .tku) (k_rdc : may .rdc) :
    ∃ u, execCheckpointAgeLimit s = .next u ∧ Good may s₀ u := by
  unfold execCheckpointAgeLimit
  refine State.done_good _ ?_
  with_reducible repeat' first | assumption | apply State.done_good | apply State.ckptLimit_good | refine Good.ite ?_ ?_ | split

theorem execHandoverReq_good {s : State} (m : Master) (hg : Good may s₀ s) (ka : ∀ p, may p) :
    ∃ u, execHandoverReq m s = .next u ∧ Good may s₀ u := by
  unfold execHandoverReq
  refine State.done_good _ ?_
  with_reducible repeat' first | assumption | exact ka _ | apply State.done_good | apply State.cmdGuard_good | refine Good.ite ?_ ?_ | split

theorem execRevertInhibitSet_good {s : State} (m : Master) (hg : Good may s₀ s) (ka : ∀ p, may p) :
    ∃ u, execRevertInhibitSet m s = .next u ∧ Good may s₀ u := by
  unfold execRevertInhibitSet
  refine State.done_good _ ?_
  with_reducible repeat' first | assumption | exact ka _ | apply State.done_good | apply State.cmdGuard_good | refine Good.ite ?_ ?_ | split

theorem execRevertInhibitClear_good {s : State} (m : Master) (hg : Good may s₀ s) (ka : ∀ p, may p) :
    ∃ u, execRevertInhibitClear m s = .next u ∧ Good may s₀ u := by
  unfold execRevertInhibitClear
  refine State.done_good _ ?_
  with_reducible repeat' first | assumption | exact ka _ | apply State.done_good | apply State.cmdGuard_good | refine Good.ite ?_ ?_ | split

theorem execWmEnable_good {s : State} (m : Master) (w : Fin 8) (v : BitVec 32) (hg : Good may s₀ s) (ka : ∀ p, may p) :
    ∃ u, execWmEnable m w v s = .next u ∧ Good may s₀ u := by
  unfold execWmEnable
  refine State.done_good _ ?_
  with_reducible repeat' first | assumption | exact ka _ | apply State.done_good | apply State.cmdWrite_good | refine Good.ite ?_ ?_ | split

theorem execWmDisable_good {s : State} (m : Master) (w : Fin 8) (v : BitVec 32) (hg : Good may s₀ s) (ka : ∀ p, may p) :
    ∃ u, execWmDisable m w v s = .next u ∧ Good may s₀ u := by
  unfold execWmDisable
  refine State.done_good _ ?_
  with_reducible repeat' first | assumption | exact ka _ | apply State.done_good | apply State.cmdWrite_good | refine Good.ite ?_ ?_ | split

/-! ### Power -/

theorem execMainsLoss_good {s : State} (vrms : BitVec 16) (freq : BitVec 16) (hg : Good may s₀ s) :
    ∃ u, execMainsLoss vrms freq s = .next u ∧ Good may s₀ u := by
  unfold execMainsLoss
  refine State.done_good _ ?_
  with_reducible repeat' first | assumption | apply State.done_good | apply State.mainsChange_good | refine Good.ite ?_ ?_ | split

theorem execMainsReturn_good {s : State} (vrms : BitVec 16) (freq : BitVec 16) (hg : Good may s₀ s) :
    ∃ u, execMainsReturn vrms freq s = .next u ∧ Good may s₀ u := by
  unfold execMainsReturn
  refine State.done_good _ ?_
  with_reducible repeat' first | assumption | apply State.done_good | apply State.mainsChange_good | refine Good.ite ?_ ?_ | split

theorem execAuxLoss_good {s : State} (mv : BitVec 16) (ma : BitVec 16) (hg : Good may s₀ s) :
    ∃ u, execAuxLoss mv ma s = .next u ∧ Good may s₀ u := by
  unfold execAuxLoss
  refine State.done_good _ ?_
  with_reducible repeat' first | assumption | apply State.auxChange_good | apply State.done_good | refine Good.ite ?_ ?_ | split

theorem execAuxReturn_good {s : State} (mv : BitVec 16) (ma : BitVec 16) (hg : Good may s₀ s) :
    ∃ u, execAuxReturn mv ma s = .next u ∧ Good may s₀ u := by
  unfold execAuxReturn
  refine State.done_good _ ?_
  with_reducible repeat' first | assumption | apply State.auxChange_good | apply State.done_good | refine Good.ite ?_ ?_ | split

theorem execPfw_good {s : State} (bulk : BitVec 16) (hg : Good may s₀ s) (k_pwr : may .pwr) (k_clo : may .clo) (k_cis : may .cis)
    (k_pairs : may .pairs) :
    ∃ u, execPfw bulk s = .next u ∧ Good may s₀ u := by
  unfold execPfw
  refine State.done_good _ ?_
  with_reducible repeat' first | assumption | apply State.done_good | apply State.pfwAssert_good | refine Good.ite ?_ ?_ | split

theorem execPfwClear_good {s : State} (bulk : BitVec 16) (hg : Good may s₀ s) (k_mpl : may .mpl) :
    ∃ u, execPfwClear bulk s = .next u ∧ Good may s₀ u := by
  unfold execPfwClear
  refine State.done_good _ ?_
  with_reducible repeat' first | assumption | apply State.done_good | apply State.pfwClear_good | refine Good.ite ?_ ?_ | split

theorem execBrownOut_good {s : State} (hg : Good may s₀ s) (ka : ∀ p, may p) :
    ∃ u, execBrownOut s = .next u ∧ Good may s₀ u := by
  unfold execBrownOut
  refine State.done_good _ ?_
  with_reducible repeat' first | assumption | exact ka _ | apply State.done_good | apply State.powerDown_good | refine Good.ite ?_ ?_ | split

theorem execRailFault_good {s : State} (rail : Fin 7) (below : Bool) (hg : Good may s₀ s) (ka : ∀ p, may p) :
    ∃ u, execRailFault rail below s = .next u ∧ Good may s₀ u := by
  unfold execRailFault
  refine State.done_good _ ?_
  with_reducible repeat' first | assumption | exact ka _ | apply State.done_good | apply State.railFault_good | refine Good.ite ?_ ?_ | split

theorem execSuppliesGood_good {s : State} (bulk : BitVec 16) (hg : Good may s₀ s) (ka : ∀ p, may p) :
    ∃ u, execSuppliesGood bulk s = .next u ∧ Good may s₀ u := by
  unfold execSuppliesGood
  refine State.done_good _ ?_
  with_reducible repeat' first | assumption | exact ka _ | apply State.done_good | apply State.suppliesGood_good | refine Good.ite ?_ ?_ | split

theorem execBootDone_good {s : State} (apps : List (Fin 8192 × Fin 8)) (hg : Good may s₀ s) (ka : ∀ p, may p) :
    ∃ u, execBootDone apps s = .next u ∧ Good may s₀ u := by
  unfold execBootDone
  refine State.done_good _ ?_
  with_reducible repeat' first | assumption | exact ka _ | apply State.bootDone_good | apply State.done_good | refine Good.ite ?_ ?_ | split

theorem execStartupTestDone_good {s : State} (r : StartupTest) (hg : Good may s₀ s) (k_mem : may .mem) (k_sig : may .sig)
    (k_aborts : may .aborts) (k_pwr : may .pwr) (k_clo : may .clo) (k_seqs : may .seqs) (k_gnt : may .gnt) (k_loops : may .loops)
    (k_cas : may .cas) (k_sers : may .sers) (k_rdc : may .rdc) (k_cis : may .cis) (k_pnl : may .pnl) (k_pairs : may .pairs) :
    ∃ u, execStartupTestDone r s = .next u ∧ Good may s₀ u := by
  unfold execStartupTestDone
  refine State.done_good _ ?_
  with_reducible repeat' first | assumption | apply State.done_good | apply State.startupDone_good | refine Good.ite ?_ ?_ | split

theorem execButtonPress_good {s : State} (hg : Good may s₀ s) (k_pwr : may .pwr) :
    ∃ u, execButtonPress s = .next u ∧ Good may s₀ u := by
  unfold execButtonPress
  refine State.done_good _ ?_
  with_reducible repeat' first | assumption | apply State.done_good | apply State.buttonPress_good | refine Good.ite ?_ ?_ | split

theorem execButtonRelease_good {s : State} (ms : Nat) (hg : Good may s₀ s) (ka : ∀ p, may p) :
    ∃ u, execButtonRelease ms s = .next u ∧ Good may s₀ u := by
  unfold execButtonRelease
  refine State.done_good _ ?_
  with_reducible repeat' first | assumption | exact ka _ | apply State.done_good | apply State.buttonRelease_good | refine Good.ite ?_ ?_ | split

theorem execButtonStuck_good {s : State} (hg : Good may s₀ s) (k_tku : may .tku) :
    ∃ u, execButtonStuck s = .next u ∧ Good may s₀ u := by
  unfold execButtonStuck
  refine State.done_good _ ?_
  with_reducible repeat' first | assumption | apply State.done_good | apply State.buttonStuck_good | refine Good.ite ?_ ?_ | split

theorem execButtonRearm_good {s : State} (hg : Good may s₀ s) (k_tku : may .tku) :
    ∃ u, execButtonRearm s = .next u ∧ Good may s₀ u := by
  unfold execButtonRearm
  refine State.done_good _ ?_
  with_reducible repeat' first | assumption | apply State.done_good | apply State.buttonRearm_good | refine Good.ite ?_ ?_ | split

theorem execAutoRestart_good {s : State} (hg : Good may s₀ s) (ka : ∀ p, may p) :
    ∃ u, execAutoRestart s = .next u ∧ Good may s₀ u := by
  unfold execAutoRestart
  refine State.done_good _ ?_
  with_reducible repeat' first | assumption | exact ka _ | apply State.autoRestart_good | apply State.done_good | refine Good.ite ?_ ?_ | split

/-! ### Recorder -/

theorem State.untilOps_good {s : State} (n : Nat) (done : Nat) (hg : Good may s₀ s) (k_tku : may .tku) :
    Good may s₀ (State.untilOps s n done) := by
  unfold State.untilOps
  with_reducible repeat' first | assumption | apply State.untilMono_good | apply State.done_good | refine Good.ite ?_ ?_ | split

theorem execHourClose_good {s : State} (hg : Good may s₀ s) (k_mem : may .mem) (k_tku : may .tku) (k_clo : may .clo)
    (k_ringPosted : may .ringPosted) (k_cis : may .cis) (k_mpl : may .mpl) (k_pairs : may .pairs) :
    ∃ u, execHourClose s = .next u ∧ Good may s₀ u := by
  unfold execHourClose
  refine State.done_good _ ?_
  with_reducible repeat' first
      | assumption | apply State.done_good | apply State.epochs_good | apply State.untilOps_good | refine Good.ite ?_ ?_ | split

theorem execDayClose_good {s : State} (hg : Good may s₀ s) (k_mem : may .mem) (k_tku : may .tku) (k_clo : may .clo)
    (k_ringPosted : may .ringPosted) (k_cis : may .cis) (k_mpl : may .mpl) (k_pairs : may .pairs) :
    ∃ u, execDayClose s = .next u ∧ Good may s₀ u := by
  unfold execDayClose
  refine State.done_good _ ?_
  with_reducible repeat' first
      | assumption | apply State.done_good | apply State.epochs_good | apply State.untilOps_good | refine Good.ite ?_ ?_ | split

theorem execCisFlush_good {s : State} (m : Master) (hg : Good may s₀ s) (ka : ∀ p, may p) :
    ∃ u, execCisFlush m s = .next u ∧ Good may s₀ u := by
  unfold execCisFlush
  refine State.done_good _ ?_
  with_reducible repeat' first | assumption | exact ka _ | apply State.done_good | apply State.cmdGuard_good | refine Good.ite ?_ ?_ | split

theorem execCisFlushDone_good {s : State} (hg : Good may s₀ s) (k_mem : may .mem) (k_clo : may .clo)
    (k_ringPosted : may .ringPosted) (k_cis : may .cis) (k_pairs : may .pairs) :
    ∃ u, execCisFlushDone s = .next u ∧ Good may s₀ u := by
  unfold execCisFlushDone
  refine State.done_good _ ?_
  with_reducible repeat' first | assumption | apply State.done_good | apply State.cisFlushDone_good | refine Good.ite ?_ ?_ | split

theorem execCisClear_good {s : State} (m : Master) (hg : Good may s₀ s) (ka : ∀ p, may p) :
    ∃ u, execCisClear m s = .next u ∧ Good may s₀ u := by
  unfold execCisClear
  refine State.done_good _ ?_
  with_reducible repeat' first | assumption | exact ka _ | apply State.done_good | apply State.cmdGuard_good | refine Good.ite ?_ ?_ | split

theorem execTrackEnable_good {s : State} (m : Master) (v : BitVec 32) (hg : Good may s₀ s) (ka : ∀ p, may p) :
    ∃ u, execTrackEnable m v s = .next u ∧ Good may s₀ u := by
  unfold execTrackEnable
  refine State.done_good _ ?_
  with_reducible repeat' first | assumption | exact ka _ | apply State.done_good | apply State.cmdWrite_good | refine Good.ite ?_ ?_ | split

theorem execTrackDisable_good {s : State} (m : Master) (v : BitVec 32) (hg : Good may s₀ s) (ka : ∀ p, may p) :
    ∃ u, execTrackDisable m v s = .next u ∧ Good may s₀ u := by
  unfold execTrackDisable
  refine State.done_good _ ?_
  with_reducible repeat' first | assumption | exact ka _ | apply State.done_good | apply State.cmdWrite_good | refine Good.ite ?_ ?_ | split

theorem execCisExport_good {s : State} (hg : Good may s₀ s) (k_mem : may .mem) (k_clo : may .clo) (k_ringPosted : may .ringPosted)
    (k_pairs : may .pairs) :
    ∃ u, execCisExport s = .next u ∧ Good may s₀ u := by
  unfold execCisExport
  refine State.done_good _ ?_
  with_reducible repeat' first | assumption | apply State.cisExport_good | apply State.done_good | refine Good.ite ?_ ?_ | split

theorem execMonitorMeasure_good {s : State} (k : Fin 77) (v : Int) (refs : List Int) (hg : Good may s₀ s)
    (k_freshCtr : may .freshCtr) (k_tku : may .tku) (k_mpl : may .mpl) :
    ∃ u, execMonitorMeasure k v refs s = .next u ∧ Good may s₀ u := by
  unfold execMonitorMeasure
  refine State.done_good _ ?_
  with_reducible repeat' first | assumption | apply State.done_good | apply State.measureMon_good | refine Good.ite ?_ ?_ | split

theorem execMplReplan_good {s : State} (m : Master) (hg : Good may s₀ s) (ka : ∀ p, may p) :
    ∃ u, execMplReplan m s = .next u ∧ Good may s₀ u := by
  unfold execMplReplan
  refine State.done_good _ ?_
  with_reducible repeat' first | assumption | exact ka _ | apply State.done_good | apply State.cmdGuard_good | refine Good.ite ?_ ?_ | split

theorem execMplMeasureCap_good {s : State} (m : Master) (hg : Good may s₀ s) (ka : ∀ p, may p) :
    ∃ u, execMplMeasureCap m s = .next u ∧ Good may s₀ u := by
  unfold execMplMeasureCap
  refine State.done_good _ ?_
  with_reducible repeat' first | assumption | exact ka _ | apply State.done_good | apply State.cmdGuard_good | refine Good.ite ?_ ?_ | split

theorem State.mplEvent_good {s : State} (f : State → State) (hf : Good may s₀ (f s)) (hg : Good may s₀ s) :
    ∃ u, s.mplEvent f = .next u ∧ Good may s₀ u := State.done_good _ (Good.ite hf hg)

theorem execCapMeasureDone_good {s : State} (c : BitVec 16) (hg : Good may s₀ s) (k_freshCtr : may .freshCtr) (k_tku : may .tku) (k_mpl : may .mpl) :
    ∃ u, execCapMeasureDone c s = .next u ∧ Good may s₀ u := by
  unfold execCapMeasureDone
  refine State.done_good _ ?_
  with_reducible repeat' first | assumption | apply State.capDone_good | apply State.mplEvent_good | refine Good.ite ?_ ?_ | split

theorem execGradeApply_good {s : State} (d : Fin 10) (hg : Good may s₀ s) (k_mpl : may .mpl) :
    ∃ u, execGradeApply d s = .next u ∧ Good may s₀ u := by
  unfold execGradeApply
  refine State.done_good _ ?_
  with_reducible repeat' first | assumption | apply State.gradeApply_good | apply State.mplEvent_good | refine Good.ite ?_ ?_ | split

theorem execGradeRetry_good {s : State} (d : Fin 10) (hg : Good may s₀ s) (k_tku : may .tku) (k_mpl : may .mpl) :
    ∃ u, execGradeRetry d s = .next u ∧ Good may s₀ u := by
  unfold execGradeRetry
  refine State.done_good _ ?_
  with_reducible repeat' first | assumption | apply State.gradeRetry_good | apply State.mplEvent_good | refine Good.ite ?_ ?_ | split

theorem execLearningEnd_good {s : State} (hg : Good may s₀ s) (k_tku : may .tku) (k_mpl : may .mpl) :
    ∃ u, execLearningEnd s = .next u ∧ Good may s₀ u := by
  unfold execLearningEnd
  refine State.done_good _ ?_
  with_reducible repeat' first | assumption | apply State.learnEnd_good | apply State.mplEvent_good | refine Good.ite ?_ ?_ | split

theorem execRecalibration_good {s : State} (b : Fin 16) (med : Int) (hg : Good may s₀ s) (k_tku : may .tku) (k_mpl : may .mpl) :
    ∃ u, execRecalibration b med s = .next u ∧ Good may s₀ u := by
  unfold execRecalibration
  refine State.done_good _ ?_
  with_reducible repeat' first | assumption | apply State.mplEvent_good | apply State.recalibrate_good | refine Good.ite ?_ ?_ | split

/-! ### Panel -/

theorem State.pnlEvent_good {s : State} (f : State → State) (hf : Good may s₀ (f s)) (hg : Good may s₀ s) :
    ∃ u, s.pnlEvent f = .next u ∧ Good may s₀ u := State.done_good _ (Good.ite hg hf)

theorem execPanelUpdateStart_good {s : State} (temp : Int) (hg : Good may s₀ s) (k_tku : may .tku) (k_pnl : may .pnl) :
    ∃ u, execPanelUpdateStart temp s = .next u ∧ Good may s₀ u := by
  unfold execPanelUpdateStart
  refine State.done_good _ ?_
  with_reducible repeat' first | assumption | apply State.pnlEvent_good | apply State.updateStart_good | refine Good.ite ?_ ?_ | split

theorem execBandWaveformDone_good {s : State} (temp : Int) (hg : Good may s₀ s) (k_tku : may .tku) (k_pnl : may .pnl) :
    ∃ u, execBandWaveformDone temp s = .next u ∧ Good may s₀ u := by
  unfold execBandWaveformDone
  refine State.done_good _ ?_
  with_reducible repeat' first | assumption | apply State.bandDone_good | apply State.pnlEvent_good | refine Good.ite ?_ ?_ | split

theorem execImageWaveformDone_good {s : State} (temp : Int) (hg : Good may s₀ s) (k_tku : may .tku) (k_pnl : may .pnl) :
    ∃ u, execImageWaveformDone temp s = .next u ∧ Good may s₀ u := by
  unfold execImageWaveformDone
  refine State.done_good _ ?_
  with_reducible repeat' first | assumption | apply State.imageDone_good | apply State.pnlEvent_good | refine Good.ite ?_ ?_ | split

theorem execClearingWaveformDone_good {s : State} (temp : Int) (hg : Good may s₀ s) (k_tku : may .tku) (k_pnl : may .pnl) :
    ∃ u, execClearingWaveformDone temp s = .next u ∧ Good may s₀ u := by
  unfold execClearingWaveformDone
  refine State.done_good _ ?_
  with_reducible repeat' first | assumption | apply State.clearDone_good | apply State.pnlEvent_good | refine Good.ite ?_ ?_ | split

theorem execBlinkToggle_good {s : State} (hg : Good may s₀ s) (k_tku : may .tku) (k_pnl : may .pnl) :
    ∃ u, execBlinkToggle s = .next u ∧ Good may s₀ u := by
  unfold execBlinkToggle
  refine State.done_good _ ?_
  with_reducible repeat' first | assumption | apply State.blinkToggle_good | apply State.pnlEvent_good | refine Good.ite ?_ ?_ | split

theorem execCrackCheck_good {s : State} (ohm : BitVec 16) (hg : Good may s₀ s) (k_tku : may .tku) (k_pnl : may .pnl) :
    ∃ u, execCrackCheck ohm s = .next u ∧ Good may s₀ u := by
  unfold execCrackCheck
  refine State.done_good _ ?_
  with_reducible repeat' first | assumption | apply State.crackCheck_good | apply State.pnlEvent_good | refine Good.ite ?_ ?_ | split

theorem execFrameCrcCheck_good {s : State} (ok : Bool) (hg : Good may s₀ s) (k_pnl : may .pnl) :
    ∃ u, execFrameCrcCheck ok s = .next u ∧ Good may s₀ u := by
  unfold execFrameCrcCheck
  refine State.done_good _ ?_
  with_reducible repeat' first | assumption | apply State.frameCheck_good | apply State.pnlEvent_good | refine Good.ite ?_ ?_ | split

theorem execPnlRefresh_good {s : State} (m : Master) (hg : Good may s₀ s) (ka : ∀ p, may p) :
    ∃ u, execPnlRefresh m s = .next u ∧ Good may s₀ u := by
  unfold execPnlRefresh
  refine State.done_good _ ?_
  with_reducible repeat' first | assumption | exact ka _ | apply State.done_good | apply State.cmdGuard_good | refine Good.ite ?_ ?_ | split

theorem execLampTest_good {s : State} (m : Master) (hg : Good may s₀ s) (ka : ∀ p, may p) :
    ∃ u, execLampTest m s = .next u ∧ Good may s₀ u := by
  unfold execLampTest
  refine State.done_good _ ?_
  with_reducible repeat' first | assumption | exact ka _ | apply State.done_good | apply State.cmdGuard_good | refine Good.ite ?_ ?_ | split

theorem execLampTestDone_good {s : State} (hg : Good may s₀ s) (k_tku : may .tku) (k_pnl : may .pnl) :
    ∃ u, execLampTestDone s = .next u ∧ Good may s₀ u := by
  unfold execLampTestDone
  refine State.done_good _ ?_
  with_reducible repeat' first | assumption | apply State.lampDone_good | apply State.pnlEvent_good | refine Good.ite ?_ ?_ | split

end Sys2Proof.Machine
end

