-- ==== Sys2Proof/Laws/Regs.lean ====
section
/-! SUPPORT. The laws of register fields: a field reads what was put into it, and a put leaves every other field alone; an update of
the register store leaves the rest of the state alone. -/

namespace Sys2Proof.Machine

/-! ### Words -/

@[simp] theorem rd_wr_same (s : State) (k : Nat) (v : Word) : (s.wr k v).rd k = v := mapGet_set_same _ _ _

theorem rd_wr_other (s : State) {j k : Nat} (v : Word) (h : j ≠ k) : (s.wr k v).rd j = s.rd j := mapGet_set_other _ _ h

theorem bits_lt (v : Word) (lo w : Nat) : bits v lo w < 2 ^ w := (v.extractLsb' lo w).isLt

/-- A bit of the word with a field replaced. -/
theorem getLsbD_setBits (v : Word) (lo w n i : Nat) (h : lo + w ≤ 32) :
    (setBits v lo w n).getLsbD i = if lo ≤ i ∧ i < lo + w then n.testBit (i - lo) else v.getLsbD i := by
  have hm : ∀ i, (BitVec.ofNat 32 ((2 ^ w - 1) * 2 ^ lo)).getLsbD i = (decide (lo ≤ i) && decide (i < lo + w)) := by
    intro i
    rw [BitVec.getLsbD_ofNat, Nat.testBit_mul_two_pow, Nat.testBit_two_pow_sub_one]
    by_cases h1 : lo ≤ i <;> by_cases h2 : i < lo + w
    · simp [h1, h2, show i < 32 by omega, show i - lo < w by omega]
    · simp [h1, h2, show ¬ i - lo < w by omega]
    · simp [h1]
    · simp [h1]
  unfold setBits
  by_cases h32 : i < 32
  · rw [BitVec.getLsbD_or, BitVec.getLsbD_and, BitVec.getLsbD_and, BitVec.getLsbD_not, hm, BitVec.getLsbD_shiftLeft,
      BitVec.getLsbD_ofNat]
    by_cases h1 : lo ≤ i <;> by_cases h2 : i < lo + w
    · simp [h1, h2, h32, show ¬ i < lo by omega, show i - lo < 32 by omega]
    · simp [h1, h2, h32]
    · simp [h1, h32]
    · simp [h1, h2, h32]
  · have h2 : ¬ (lo ≤ i ∧ i < lo + w) := by omega
    rw [if_neg h2, BitVec.getLsbD_of_ge _ _ (by omega), BitVec.getLsbD_of_ge _ _ (by omega)]

/-- The field just put, in a word wide enough for it. -/
theorem bits_setBits_same (v : Word) (lo w n : Nat) (h : lo + w ≤ 32) : bits (setBits v lo w n) lo w = n % 2 ^ w := by
  apply Nat.eq_of_testBit_eq
  intro i
  rw [Nat.testBit_mod_two_pow]
  unfold bits
  rw [BitVec.testBit_toNat, BitVec.getLsbD_extractLsb', getLsbD_setBits _ _ _ _ _ h]
  by_cases hi : i < w
  · simp [hi]
  · simp [hi]

/-- A field apart from the one just put. -/
theorem bits_setBits_other (v : Word) (lo w n lo' w' : Nat) (h : lo + w ≤ 32) (hd : lo + w ≤ lo' ∨ lo' + w' ≤ lo) :
    bits (setBits v lo w n) lo' w' = bits v lo' w' := by
  apply Nat.eq_of_testBit_eq
  intro i
  unfold bits
  rw [BitVec.testBit_toNat, BitVec.testBit_toNat, BitVec.getLsbD_extractLsb', BitVec.getLsbD_extractLsb',
    getLsbD_setBits _ _ _ _ _ h]
  by_cases hi : i < w'
  · rw [if_neg (by omega)]
  · simp [hi]

/-! ### Fields -/

/-- A field lies inside its word. -/
def Fld.fits (f : Fld) : Prop := f.lo + f.w ≤ 32

/-- Two fields share no bit. -/
def Fld.apart (f g : Fld) : Prop := f.key ≠ g.key ∨ f.lo + f.w ≤ g.lo ∨ g.lo + g.w ≤ f.lo

theorem get_put_same (s : State) (f : Fld) (n : Nat) (h : f.lo + f.w ≤ 32) : (s.put f n).get f = n % 2 ^ f.w := by
  unfold State.get State.put
  rw [rd_wr_same]
  exact bits_setBits_same _ _ _ _ h

theorem get_put_key (s : State) (f g : Fld) (n : Nat) (h : g.key ≠ f.key) : (s.put f n).get g = s.get g := by
  unfold State.get State.put
  rw [rd_wr_other _ _ h]

theorem get_put_bits (s : State) (f g : Fld) (n : Nat) (hf : f.lo + f.w ≤ 32) (h : f.lo + f.w ≤ g.lo ∨ g.lo + g.w ≤ f.lo) :
    (s.put f n).get g = s.get g := by
  by_cases hk : g.key = f.key
  · unfold State.get State.put
    rw [hk, rd_wr_same]
    exact bits_setBits_other _ _ _ _ _ _ hf h
  · exact get_put_key s f g n hk

theorem rd_put_key (s : State) (f : Fld) (n k : Nat) (h : k ≠ f.key) : (s.put f n).rd k = s.rd k := rd_wr_other _ _ h

/-- The offset of a register word, from its key. -/
theorem rkey_mod (p u off : Nat) : rkey p u off % 4096 = off % 4096 := by unfold rkey; omega

/-- The key of a register word tells its page, unit and offset apart. -/
theorem rkey_inj {p u o p' u' o' : Nat} (hu : u < 4096) (ho : o < 4096) (hu' : u' < 4096) (ho' : o' < 4096)
    (h : rkey p u o = rkey p' u' o') : p = p' ∧ u = u' ∧ o = o' := by
  unfold rkey at h
  refine ⟨?_, ?_, ?_⟩ <;> omega

/-! ### Memory -/

@[simp] theorem byte_setByte_same (s : State) (k : Nat) (b : Byte) : (s.setByte k b).byte k = b := mapGet_set_same _ _ _

theorem byte_setByte_other (s : State) {j k : Nat} (b : Byte) (h : j ≠ k) : (s.setByte k b).byte j = s.byte j :=
  mapGet_set_other _ _ h

/-- A list of bytes written from `k` upwards leaves every byte outside alone. -/
theorem byte_setBytes_other (s : State) (k : Nat) (l : List Byte) (j : Nat) (h : j < k ∨ k + l.length ≤ j) :
    (s.setBytes k l).byte j = s.byte j := by
  induction l generalizing s k with
  | nil => rfl
  | cons b t ih =>
    simp only [List.length_cons] at h
    rw [State.setBytes, ih _ _ (by omega), byte_setByte_other _ _ (by omega)]

/-- A list of bytes written from `k` upwards reads back. -/
theorem byte_setBytes_same (s : State) (k : Nat) (l : List Byte) (i : Nat) (h : i < l.length) :
    (s.setBytes k l).byte (k + i) = l[i] := by
  induction l generalizing s k i with
  | nil => simp at h
  | cons b t ih =>
    cases i with
    | zero => rw [State.setBytes, byte_setBytes_other _ _ _ _ (by omega)]; simp
    | succ i =>
      simp only [List.length_cons] at h
      rw [State.setBytes, show k + (i + 1) = k + 1 + i by omega, ih _ _ _ (by omega)]
      rfl

/-! ### The signal image -/

@[simp] theorem slotRaw_setSlot_same (s : State) (k : Nat) (v : SigSlot) : (s.setSlot k v).slotRaw k = v := mapGet_set_same _ _ _

theorem slotRaw_setSlot_other (s : State) {j k : Nat} (v : SigSlot) (h : j ≠ k) : (s.setSlot k v).slotRaw j = s.slotRaw j :=
  mapGet_set_other _ _ h

end Sys2Proof.Machine
end

