-- ==== Sys2Proof/Laws/State.lean ====
section
/-! SUPPORT. What the three basic updates of a state leave alone: one lemma for each field, so that no proof unfolds a record update. -/

namespace Sys2Proof.Machine

/-! ### A register word -/

@[simp] theorem wr_pending (s : State) (k : Nat) (v : Word) : (s.wr k v).pending = s.pending := rfl
@[simp] theorem wr_mem (s : State) (k : Nat) (v : Word) : (s.wr k v).mem = s.mem := rfl
@[simp] theorem wr_sig (s : State) (k : Nat) (v : Word) : (s.wr k v).sig = s.sig := rfl
@[simp] theorem wr_rshadow (s : State) (k : Nat) (v : Word) : (s.wr k v).rshadow = s.rshadow := rfl
@[simp] theorem wr_wshadow (s : State) (k : Nat) (v : Word) : (s.wr k v).wshadow = s.wshadow := rfl
@[simp] theorem wr_guards (s : State) (k : Nat) (v : Word) : (s.wr k v).guards = s.guards := rfl
@[simp] theorem wr_aborts (s : State) (k : Nat) (v : Word) : (s.wr k v).aborts = s.aborts := rfl
@[simp] theorem wr_forces (s : State) (k : Nat) (v : Word) : (s.wr k v).forces = s.forces := rfl
@[simp] theorem wr_resp (s : State) (k : Nat) (v : Word) : (s.wr k v).resp = s.resp := rfl
@[simp] theorem wr_coreFaults (s : State) (k : Nat) (v : Word) : (s.wr k v).coreFaults = s.coreFaults := rfl
@[simp] theorem wr_freshCtr (s : State) (k : Nat) (v : Word) : (s.wr k v).freshCtr = s.freshCtr := rfl
@[simp] theorem wr_tku (s : State) (k : Nat) (v : Word) : (s.wr k v).tku = s.tku := rfl
@[simp] theorem wr_dev (s : State) (k : Nat) (v : Word) : (s.wr k v).dev = s.dev := rfl
@[simp] theorem wr_pwr (s : State) (k : Nat) (v : Word) : (s.wr k v).pwr = s.pwr := rfl
@[simp] theorem wr_clo (s : State) (k : Nat) (v : Word) : (s.wr k v).clo = s.clo := rfl
@[simp] theorem wr_ringPosted (s : State) (k : Nat) (v : Word) : (s.wr k v).ringPosted = s.ringPosted := rfl
@[simp] theorem wr_sent (s : State) (k : Nat) (v : Word) : (s.wr k v).sent = s.sent := rfl
@[simp] theorem wr_posted (s : State) (k : Nat) (v : Word) : (s.wr k v).posted = s.posted := rfl
@[simp] theorem wr_creds (s : State) (k : Nat) (v : Word) : (s.wr k v).creds = s.creds := rfl
@[simp] theorem wr_credFails (s : State) (k : Nat) (v : Word) : (s.wr k v).credFails = s.credFails := rfl
@[simp] theorem wr_credLockTo (s : State) (k : Nat) (v : Word) : (s.wr k v).credLockTo = s.credLockTo := rfl
@[simp] theorem wr_chalAt (s : State) (k : Nat) (v : Word) : (s.wr k v).chalAt = s.chalAt := rfl
@[simp] theorem wr_forceAuth (s : State) (k : Nat) (v : Word) : (s.wr k v).forceAuth = s.forceAuth := rfl
@[simp] theorem wr_dbgAuth (s : State) (k : Nat) (v : Word) : (s.wr k v).dbgAuth = s.dbgAuth := rfl
@[simp] theorem wr_sess (s : State) (k : Nat) (v : Word) : (s.wr k v).sess = s.sess := rfl
@[simp] theorem wr_seqs (s : State) (k : Nat) (v : Word) : (s.wr k v).seqs = s.seqs := rfl
@[simp] theorem wr_rix (s : State) (k : Nat) (v : Word) : (s.wr k v).rix = s.rix := rfl
@[simp] theorem wr_gnt (s : State) (k : Nat) (v : Word) : (s.wr k v).gnt = s.gnt := rfl
@[simp] theorem wr_chans (s : State) (k : Nat) (v : Word) : (s.wr k v).chans = s.chans := rfl
@[simp] theorem wr_banks (s : State) (k : Nat) (v : Word) : (s.wr k v).banks = s.banks := rfl
@[simp] theorem wr_loops (s : State) (k : Nat) (v : Word) : (s.wr k v).loops = s.loops := rfl
@[simp] theorem wr_lpeQuery (s : State) (k : Nat) (v : Word) : (s.wr k v).lpeQuery = s.lpeQuery := rfl
@[simp] theorem wr_cas (s : State) (k : Nat) (v : Word) : (s.wr k v).cas = s.cas := rfl
@[simp] theorem wr_casQuery (s : State) (k : Nat) (v : Word) : (s.wr k v).casQuery = s.casQuery := rfl
@[simp] theorem wr_lpeBusy (s : State) (k : Nat) (v : Word) : (s.wr k v).lpeBusy = s.lpeBusy := rfl
@[simp] theorem wr_casBusy (s : State) (k : Nat) (v : Word) : (s.wr k v).casBusy = s.casBusy := rfl
@[simp] theorem wr_cans (s : State) (k : Nat) (v : Word) : (s.wr k v).cans = s.cans := rfl
@[simp] theorem wr_eths (s : State) (k : Nat) (v : Word) : (s.wr k v).eths = s.eths := rfl
@[simp] theorem wr_sers (s : State) (k : Nat) (v : Word) : (s.wr k v).sers = s.sers := rfl
@[simp] theorem wr_rdc (s : State) (k : Nat) (v : Word) : (s.wr k v).rdc = s.rdc := rfl
@[simp] theorem wr_slu (s : State) (k : Nat) (v : Word) : (s.wr k v).slu = s.slu := rfl
@[simp] theorem wr_cis (s : State) (k : Nat) (v : Word) : (s.wr k v).cis = s.cis := rfl
@[simp] theorem wr_mpl (s : State) (k : Nat) (v : Word) : (s.wr k v).mpl = s.mpl := rfl
@[simp] theorem wr_pnl (s : State) (k : Nat) (v : Word) : (s.wr k v).pnl = s.pnl := rfl
@[simp] theorem wr_pairs (s : State) (k : Nat) (v : Word) : (s.wr k v).pairs = s.pairs := rfl
@[simp] theorem wr_dmi (s : State) (k : Nat) (v : Word) : (s.wr k v).dmi = s.dmi := rfl
@[simp] theorem wr_dmod (s : State) (k : Nat) (v : Word) : (s.wr k v).dmod = s.dmod := rfl
@[simp] theorem wr_scrubs (s : State) (k : Nat) (v : Word) : (s.wr k v).scrubs = s.scrubs := rfl
@[simp] theorem wr_lsqTest (s : State) (k : Nat) (v : Word) : (s.wr k v).lsqTest = s.lsqTest := rfl

/-! ### A register field -/

@[simp] theorem put_pending (s : State) (f : Fld) (n : Nat) : (s.put f n).pending = s.pending := rfl
@[simp] theorem put_mem (s : State) (f : Fld) (n : Nat) : (s.put f n).mem = s.mem := rfl
@[simp] theorem put_sig (s : State) (f : Fld) (n : Nat) : (s.put f n).sig = s.sig := rfl
@[simp] theorem put_rshadow (s : State) (f : Fld) (n : Nat) : (s.put f n).rshadow = s.rshadow := rfl
@[simp] theorem put_wshadow (s : State) (f : Fld) (n : Nat) : (s.put f n).wshadow = s.wshadow := rfl
@[simp] theorem put_guards (s : State) (f : Fld) (n : Nat) : (s.put f n).guards = s.guards := rfl
@[simp] theorem put_aborts (s : State) (f : Fld) (n : Nat) : (s.put f n).aborts = s.aborts := rfl
@[simp] theorem put_forces (s : State) (f : Fld) (n : Nat) : (s.put f n).forces = s.forces := rfl
@[simp] theorem put_resp (s : State) (f : Fld) (n : Nat) : (s.put f n).resp = s.resp := rfl
@[simp] theorem put_coreFaults (s : State) (f : Fld) (n : Nat) : (s.put f n).coreFaults = s.coreFaults := rfl
@[simp] theorem put_freshCtr (s : State) (f : Fld) (n : Nat) : (s.put f n).freshCtr = s.freshCtr := rfl
@[simp] theorem put_tku (s : State) (f : Fld) (n : Nat) : (s.put f n).tku = s.tku := rfl
@[simp] theorem put_dev (s : State) (f : Fld) (n : Nat) : (s.put f n).dev = s.dev := rfl
@[simp] theorem put_pwr (s : State) (f : Fld) (n : Nat) : (s.put f n).pwr = s.pwr := rfl
@[simp] theorem put_clo (s : State) (f : Fld) (n : Nat) : (s.put f n).clo = s.clo := rfl
@[simp] theorem put_ringPosted (s : State) (f : Fld) (n : Nat) : (s.put f n).ringPosted = s.ringPosted := rfl
@[simp] theorem put_sent (s : State) (f : Fld) (n : Nat) : (s.put f n).sent = s.sent := rfl
@[simp] theorem put_posted (s : State) (f : Fld) (n : Nat) : (s.put f n).posted = s.posted := rfl
@[simp] theorem put_creds (s : State) (f : Fld) (n : Nat) : (s.put f n).creds = s.creds := rfl
@[simp] theorem put_credFails (s : State) (f : Fld) (n : Nat) : (s.put f n).credFails = s.credFails := rfl
@[simp] theorem put_credLockTo (s : State) (f : Fld) (n : Nat) : (s.put f n).credLockTo = s.credLockTo := rfl
@[simp] theorem put_chalAt (s : State) (f : Fld) (n : Nat) : (s.put f n).chalAt = s.chalAt := rfl
@[simp] theorem put_forceAuth (s : State) (f : Fld) (n : Nat) : (s.put f n).forceAuth = s.forceAuth := rfl
@[simp] theorem put_dbgAuth (s : State) (f : Fld) (n : Nat) : (s.put f n).dbgAuth = s.dbgAuth := rfl
@[simp] theorem put_sess (s : State) (f : Fld) (n : Nat) : (s.put f n).sess = s.sess := rfl
@[simp] theorem put_seqs (s : State) (f : Fld) (n : Nat) : (s.put f n).seqs = s.seqs := rfl
@[simp] theorem put_rix (s : State) (f : Fld) (n : Nat) : (s.put f n).rix = s.rix := rfl
@[simp] theorem put_gnt (s : State) (f : Fld) (n : Nat) : (s.put f n).gnt = s.gnt := rfl
@[simp] theorem put_chans (s : State) (f : Fld) (n : Nat) : (s.put f n).chans = s.chans := rfl
@[simp] theorem put_banks (s : State) (f : Fld) (n : Nat) : (s.put f n).banks = s.banks := rfl
@[simp] theorem put_loops (s : State) (f : Fld) (n : Nat) : (s.put f n).loops = s.loops := rfl
@[simp] theorem put_lpeQuery (s : State) (f : Fld) (n : Nat) : (s.put f n).lpeQuery = s.lpeQuery := rfl
@[simp] theorem put_cas (s : State) (f : Fld) (n : Nat) : (s.put f n).cas = s.cas := rfl
@[simp] theorem put_casQuery (s : State) (f : Fld) (n : Nat) : (s.put f n).casQuery = s.casQuery := rfl
@[simp] theorem put_lpeBusy (s : State) (f : Fld) (n : Nat) : (s.put f n).lpeBusy = s.lpeBusy := rfl
@[simp] theorem put_casBusy (s : State) (f : Fld) (n : Nat) : (s.put f n).casBusy = s.casBusy := rfl
@[simp] theorem put_cans (s : State) (f : Fld) (n : Nat) : (s.put f n).cans = s.cans := rfl
@[simp] theorem put_eths (s : State) (f : Fld) (n : Nat) : (s.put f n).eths = s.eths := rfl
@[simp] theorem put_sers (s : State) (f : Fld) (n : Nat) : (s.put f n).sers = s.sers := rfl
@[simp] theorem put_rdc (s : State) (f : Fld) (n : Nat) : (s.put f n).rdc = s.rdc := rfl
@[simp] theorem put_slu (s : State) (f : Fld) (n : Nat) : (s.put f n).slu = s.slu := rfl
@[simp] theorem put_cis (s : State) (f : Fld) (n : Nat) : (s.put f n).cis = s.cis := rfl
@[simp] theorem put_mpl (s : State) (f : Fld) (n : Nat) : (s.put f n).mpl = s.mpl := rfl
@[simp] theorem put_pnl (s : State) (f : Fld) (n : Nat) : (s.put f n).pnl = s.pnl := rfl
@[simp] theorem put_pairs (s : State) (f : Fld) (n : Nat) : (s.put f n).pairs = s.pairs := rfl
@[simp] theorem put_dmi (s : State) (f : Fld) (n : Nat) : (s.put f n).dmi = s.dmi := rfl
@[simp] theorem put_dmod (s : State) (f : Fld) (n : Nat) : (s.put f n).dmod = s.dmod := rfl
@[simp] theorem put_scrubs (s : State) (f : Fld) (n : Nat) : (s.put f n).scrubs = s.scrubs := rfl
@[simp] theorem put_lsqTest (s : State) (f : Fld) (n : Nat) : (s.put f n).lsqTest = s.lsqTest := rfl

/-! ### A byte of memory -/

@[simp] theorem setByte_pending (s : State) (a : Nat) (b : Byte) : (s.setByte a b).pending = s.pending := rfl
@[simp] theorem setByte_regs (s : State) (a : Nat) (b : Byte) : (s.setByte a b).regs = s.regs := rfl
@[simp] theorem setByte_sig (s : State) (a : Nat) (b : Byte) : (s.setByte a b).sig = s.sig := rfl
@[simp] theorem setByte_rshadow (s : State) (a : Nat) (b : Byte) : (s.setByte a b).rshadow = s.rshadow := rfl
@[simp] theorem setByte_wshadow (s : State) (a : Nat) (b : Byte) : (s.setByte a b).wshadow = s.wshadow := rfl
@[simp] theorem setByte_guards (s : State) (a : Nat) (b : Byte) : (s.setByte a b).guards = s.guards := rfl
@[simp] theorem setByte_aborts (s : State) (a : Nat) (b : Byte) : (s.setByte a b).aborts = s.aborts := rfl
@[simp] theorem setByte_forces (s : State) (a : Nat) (b : Byte) : (s.setByte a b).forces = s.forces := rfl
@[simp] theorem setByte_resp (s : State) (a : Nat) (b : Byte) : (s.setByte a b).resp = s.resp := rfl
@[simp] theorem setByte_coreFaults (s : State) (a : Nat) (b : Byte) : (s.setByte a b).coreFaults = s.coreFaults := rfl
@[simp] theorem setByte_freshCtr (s : State) (a : Nat) (b : Byte) : (s.setByte a b).freshCtr = s.freshCtr := rfl
@[simp] theorem setByte_tku (s : State) (a : Nat) (b : Byte) : (s.setByte a b).tku = s.tku := rfl
@[simp] theorem setByte_dev (s : State) (a : Nat) (b : Byte) : (s.setByte a b).dev = s.dev := rfl
@[simp] theorem setByte_pwr (s : State) (a : Nat) (b : Byte) : (s.setByte a b).pwr = s.pwr := rfl
@[simp] theorem setByte_clo (s : State) (a : Nat) (b : Byte) : (s.setByte a b).clo = s.clo := rfl
@[simp] theorem setByte_ringPosted (s : State) (a : Nat) (b : Byte) : (s.setByte a b).ringPosted = s.ringPosted := rfl
@[simp] theorem setByte_sent (s : State) (a : Nat) (b : Byte) : (s.setByte a b).sent = s.sent := rfl
@[simp] theorem setByte_posted (s : State) (a : Nat) (b : Byte) : (s.setByte a b).posted = s.posted := rfl
@[simp] theorem setByte_creds (s : State) (a : Nat) (b : Byte) : (s.setByte a b).creds = s.creds := rfl
@[simp] theorem setByte_credFails (s : State) (a : Nat) (b : Byte) : (s.setByte a b).credFails = s.credFails := rfl
@[simp] theorem setByte_credLockTo (s : State) (a : Nat) (b : Byte) : (s.setByte a b).credLockTo = s.credLockTo := rfl
@[simp] theorem setByte_chalAt (s : State) (a : Nat) (b : Byte) : (s.setByte a b).chalAt = s.chalAt := rfl
@[simp] theorem setByte_forceAuth (s : State) (a : Nat) (b : Byte) : (s.setByte a b).forceAuth = s.forceAuth := rfl
@[simp] theorem setByte_dbgAuth (s : State) (a : Nat) (b : Byte) : (s.setByte a b).dbgAuth = s.dbgAuth := rfl
@[simp] theorem setByte_sess (s : State) (a : Nat) (b : Byte) : (s.setByte a b).sess = s.sess := rfl
@[simp] theorem setByte_seqs (s : State) (a : Nat) (b : Byte) : (s.setByte a b).seqs = s.seqs := rfl
@[simp] theorem setByte_rix (s : State) (a : Nat) (b : Byte) : (s.setByte a b).rix = s.rix := rfl
@[simp] theorem setByte_gnt (s : State) (a : Nat) (b : Byte) : (s.setByte a b).gnt = s.gnt := rfl
@[simp] theorem setByte_chans (s : State) (a : Nat) (b : Byte) : (s.setByte a b).chans = s.chans := rfl
@[simp] theorem setByte_banks (s : State) (a : Nat) (b : Byte) : (s.setByte a b).banks = s.banks := rfl
@[simp] theorem setByte_loops (s : State) (a : Nat) (b : Byte) : (s.setByte a b).loops = s.loops := rfl
@[simp] theorem setByte_lpeQuery (s : State) (a : Nat) (b : Byte) : (s.setByte a b).lpeQuery = s.lpeQuery := rfl
@[simp] theorem setByte_cas (s : State) (a : Nat) (b : Byte) : (s.setByte a b).cas = s.cas := rfl
@[simp] theorem setByte_casQuery (s : State) (a : Nat) (b : Byte) : (s.setByte a b).casQuery = s.casQuery := rfl
@[simp] theorem setByte_lpeBusy (s : State) (a : Nat) (b : Byte) : (s.setByte a b).lpeBusy = s.lpeBusy := rfl
@[simp] theorem setByte_casBusy (s : State) (a : Nat) (b : Byte) : (s.setByte a b).casBusy = s.casBusy := rfl
@[simp] theorem setByte_cans (s : State) (a : Nat) (b : Byte) : (s.setByte a b).cans = s.cans := rfl
@[simp] theorem setByte_eths (s : State) (a : Nat) (b : Byte) : (s.setByte a b).eths = s.eths := rfl
@[simp] theorem setByte_sers (s : State) (a : Nat) (b : Byte) : (s.setByte a b).sers = s.sers := rfl
@[simp] theorem setByte_rdc (s : State) (a : Nat) (b : Byte) : (s.setByte a b).rdc = s.rdc := rfl
@[simp] theorem setByte_slu (s : State) (a : Nat) (b : Byte) : (s.setByte a b).slu = s.slu := rfl
@[simp] theorem setByte_cis (s : State) (a : Nat) (b : Byte) : (s.setByte a b).cis = s.cis := rfl
@[simp] theorem setByte_mpl (s : State) (a : Nat) (b : Byte) : (s.setByte a b).mpl = s.mpl := rfl
@[simp] theorem setByte_pnl (s : State) (a : Nat) (b : Byte) : (s.setByte a b).pnl = s.pnl := rfl
@[simp] theorem setByte_pairs (s : State) (a : Nat) (b : Byte) : (s.setByte a b).pairs = s.pairs := rfl
@[simp] theorem setByte_dmi (s : State) (a : Nat) (b : Byte) : (s.setByte a b).dmi = s.dmi := rfl
@[simp] theorem setByte_dmod (s : State) (a : Nat) (b : Byte) : (s.setByte a b).dmod = s.dmod := rfl
@[simp] theorem setByte_scrubs (s : State) (a : Nat) (b : Byte) : (s.setByte a b).scrubs = s.scrubs := rfl
@[simp] theorem setByte_lsqTest (s : State) (a : Nat) (b : Byte) : (s.setByte a b).lsqTest = s.lsqTest := rfl

/-! ### A slot of the signal image -/

@[simp] theorem setSlot_pending (s : State) (n : Nat) (v : SigSlot) : (s.setSlot n v).pending = s.pending := rfl
@[simp] theorem setSlot_regs (s : State) (n : Nat) (v : SigSlot) : (s.setSlot n v).regs = s.regs := rfl
@[simp] theorem setSlot_mem (s : State) (n : Nat) (v : SigSlot) : (s.setSlot n v).mem = s.mem := rfl
@[simp] theorem setSlot_rshadow (s : State) (n : Nat) (v : SigSlot) : (s.setSlot n v).rshadow = s.rshadow := rfl
@[simp] theorem setSlot_wshadow (s : State) (n : Nat) (v : SigSlot) : (s.setSlot n v).wshadow = s.wshadow := rfl
@[simp] theorem setSlot_guards (s : State) (n : Nat) (v : SigSlot) : (s.setSlot n v).guards = s.guards := rfl
@[simp] theorem setSlot_aborts (s : State) (n : Nat) (v : SigSlot) : (s.setSlot n v).aborts = s.aborts := rfl
@[simp] theorem setSlot_forces (s : State) (n : Nat) (v : SigSlot) : (s.setSlot n v).forces = s.forces := rfl
@[simp] theorem setSlot_resp (s : State) (n : Nat) (v : SigSlot) : (s.setSlot n v).resp = s.resp := rfl
@[simp] theorem setSlot_coreFaults (s : State) (n : Nat) (v : SigSlot) : (s.setSlot n v).coreFaults = s.coreFaults := rfl
@[simp] theorem setSlot_freshCtr (s : State) (n : Nat) (v : SigSlot) : (s.setSlot n v).freshCtr = s.freshCtr := rfl
@[simp] theorem setSlot_tku (s : State) (n : Nat) (v : SigSlot) : (s.setSlot n v).tku = s.tku := rfl
@[simp] theorem setSlot_dev (s : State) (n : Nat) (v : SigSlot) : (s.setSlot n v).dev = s.dev := rfl
@[simp] theorem setSlot_pwr (s : State) (n : Nat) (v : SigSlot) : (s.setSlot n v).pwr = s.pwr := rfl
@[simp] theorem setSlot_clo (s : State) (n : Nat) (v : SigSlot) : (s.setSlot n v).clo = s.clo := rfl
@[simp] theorem setSlot_ringPosted (s : State) (n : Nat) (v : SigSlot) : (s.setSlot n v).ringPosted = s.ringPosted := rfl
@[simp] theorem setSlot_sent (s : State) (n : Nat) (v : SigSlot) : (s.setSlot n v).sent = s.sent := rfl
@[simp] theorem setSlot_posted (s : State) (n : Nat) (v : SigSlot) : (s.setSlot n v).posted = s.posted := rfl
@[simp] theorem setSlot_creds (s : State) (n : Nat) (v : SigSlot) : (s.setSlot n v).creds = s.creds := rfl
@[simp] theorem setSlot_credFails (s : State) (n : Nat) (v : SigSlot) : (s.setSlot n v).credFails = s.credFails := rfl
@[simp] theorem setSlot_credLockTo (s : State) (n : Nat) (v : SigSlot) : (s.setSlot n v).credLockTo = s.credLockTo := rfl
@[simp] theorem setSlot_chalAt (s : State) (n : Nat) (v : SigSlot) : (s.setSlot n v).chalAt = s.chalAt := rfl
@[simp] theorem setSlot_forceAuth (s : State) (n : Nat) (v : SigSlot) : (s.setSlot n v).forceAuth = s.forceAuth := rfl
@[simp] theorem setSlot_dbgAuth (s : State) (n : Nat) (v : SigSlot) : (s.setSlot n v).dbgAuth = s.dbgAuth := rfl
@[simp] theorem setSlot_sess (s : State) (n : Nat) (v : SigSlot) : (s.setSlot n v).sess = s.sess := rfl
@[simp] theorem setSlot_seqs (s : State) (n : Nat) (v : SigSlot) : (s.setSlot n v).seqs = s.seqs := rfl
@[simp] theorem setSlot_rix (s : State) (n : Nat) (v : SigSlot) : (s.setSlot n v).rix = s.rix := rfl
@[simp] theorem setSlot_gnt (s : State) (n : Nat) (v : SigSlot) : (s.setSlot n v).gnt = s.gnt := rfl
@[simp] theorem setSlot_chans (s : State) (n : Nat) (v : SigSlot) : (s.setSlot n v).chans = s.chans := rfl
@[simp] theorem setSlot_banks (s : State) (n : Nat) (v : SigSlot) : (s.setSlot n v).banks = s.banks := rfl
@[simp] theorem setSlot_loops (s : State) (n : Nat) (v : SigSlot) : (s.setSlot n v).loops = s.loops := rfl
@[simp] theorem setSlot_lpeQuery (s : State) (n : Nat) (v : SigSlot) : (s.setSlot n v).lpeQuery = s.lpeQuery := rfl
@[simp] theorem setSlot_cas (s : State) (n : Nat) (v : SigSlot) : (s.setSlot n v).cas = s.cas := rfl
@[simp] theorem setSlot_casQuery (s : State) (n : Nat) (v : SigSlot) : (s.setSlot n v).casQuery = s.casQuery := rfl
@[simp] theorem setSlot_lpeBusy (s : State) (n : Nat) (v : SigSlot) : (s.setSlot n v).lpeBusy = s.lpeBusy := rfl
@[simp] theorem setSlot_casBusy (s : State) (n : Nat) (v : SigSlot) : (s.setSlot n v).casBusy = s.casBusy := rfl
@[simp] theorem setSlot_cans (s : State) (n : Nat) (v : SigSlot) : (s.setSlot n v).cans = s.cans := rfl
@[simp] theorem setSlot_eths (s : State) (n : Nat) (v : SigSlot) : (s.setSlot n v).eths = s.eths := rfl
@[simp] theorem setSlot_sers (s : State) (n : Nat) (v : SigSlot) : (s.setSlot n v).sers = s.sers := rfl
@[simp] theorem setSlot_rdc (s : State) (n : Nat) (v : SigSlot) : (s.setSlot n v).rdc = s.rdc := rfl
@[simp] theorem setSlot_slu (s : State) (n : Nat) (v : SigSlot) : (s.setSlot n v).slu = s.slu := rfl
@[simp] theorem setSlot_cis (s : State) (n : Nat) (v : SigSlot) : (s.setSlot n v).cis = s.cis := rfl
@[simp] theorem setSlot_mpl (s : State) (n : Nat) (v : SigSlot) : (s.setSlot n v).mpl = s.mpl := rfl
@[simp] theorem setSlot_pnl (s : State) (n : Nat) (v : SigSlot) : (s.setSlot n v).pnl = s.pnl := rfl
@[simp] theorem setSlot_pairs (s : State) (n : Nat) (v : SigSlot) : (s.setSlot n v).pairs = s.pairs := rfl
@[simp] theorem setSlot_dmi (s : State) (n : Nat) (v : SigSlot) : (s.setSlot n v).dmi = s.dmi := rfl
@[simp] theorem setSlot_dmod (s : State) (n : Nat) (v : SigSlot) : (s.setSlot n v).dmod = s.dmod := rfl
@[simp] theorem setSlot_scrubs (s : State) (n : Nat) (v : SigSlot) : (s.setSlot n v).scrubs = s.scrubs := rfl
@[simp] theorem setSlot_lsqTest (s : State) (n : Nat) (v : SigSlot) : (s.setSlot n v).lsqTest = s.lsqTest := rfl

end Sys2Proof.Machine
end

