-- ==== Sys2Proof/Laws/Settle.lean ====
section
/-! SUPPORT. What ends every command: the sends of R300 that follow a group post, and ABORTED (R35). -/

namespace Sys2Proof.Machine

theorem Good.start (s : State) : Good (fun _ => False) s s := ⟨rfl, id, fun p _ => by cases p <;> rfl⟩

theorem settle_keeps (s old : State) : Good (fun _ => False) s (s.settle old) := State.settle_good old (Good.start s)

@[simp] theorem settle_pending (s old : State) : (s.settle old).pending = s.pending := (settle_keeps s old).1
@[simp] theorem settle_mem (s old : State) : (s.settle old).mem = s.mem := (settle_keeps s old).2.2 .mem id
@[simp] theorem settle_sig (s old : State) : (s.settle old).sig = s.sig := (settle_keeps s old).2.2 .sig id
@[simp] theorem settle_rshadow (s old : State) : (s.settle old).rshadow = s.rshadow := (settle_keeps s old).2.2 .rshadow id
@[simp] theorem settle_wshadow (s old : State) : (s.settle old).wshadow = s.wshadow := (settle_keeps s old).2.2 .wshadow id
@[simp] theorem settle_guards (s old : State) : (s.settle old).guards = s.guards := (settle_keeps s old).2.2 .guards id
@[simp] theorem settle_aborts (s old : State) : (s.settle old).aborts = s.aborts := (settle_keeps s old).2.2 .aborts id
@[simp] theorem settle_forces (s old : State) : (s.settle old).forces = s.forces := (settle_keeps s old).2.2 .forces id
@[simp] theorem settle_resp (s old : State) : (s.settle old).resp = s.resp := (settle_keeps s old).2.2 .resp id
@[simp] theorem settle_coreFaults (s old : State) : (s.settle old).coreFaults = s.coreFaults := (settle_keeps s old).2.2 .coreFaults id
@[simp] theorem settle_freshCtr (s old : State) : (s.settle old).freshCtr = s.freshCtr := (settle_keeps s old).2.2 .freshCtr id
@[simp] theorem settle_tku (s old : State) : (s.settle old).tku = s.tku := (settle_keeps s old).2.2 .tku id
@[simp] theorem settle_dev (s old : State) : (s.settle old).dev = s.dev := (settle_keeps s old).2.2 .dev id
@[simp] theorem settle_pwr (s old : State) : (s.settle old).pwr = s.pwr := (settle_keeps s old).2.2 .pwr id
@[simp] theorem settle_clo (s old : State) : (s.settle old).clo = s.clo := (settle_keeps s old).2.2 .clo id
@[simp] theorem settle_ringPosted (s old : State) : (s.settle old).ringPosted = s.ringPosted := (settle_keeps s old).2.2 .ringPosted id
@[simp] theorem settle_creds (s old : State) : (s.settle old).creds = s.creds := (settle_keeps s old).2.2 .creds id
@[simp] theorem settle_credFails (s old : State) : (s.settle old).credFails = s.credFails := (settle_keeps s old).2.2 .credFails id
@[simp] theorem settle_credLockTo (s old : State) : (s.settle old).credLockTo = s.credLockTo := (settle_keeps s old).2.2 .credLockTo id
@[simp] theorem settle_chalAt (s old : State) : (s.settle old).chalAt = s.chalAt := (settle_keeps s old).2.2 .chalAt id
@[simp] theorem settle_forceAuth (s old : State) : (s.settle old).forceAuth = s.forceAuth := (settle_keeps s old).2.2 .forceAuth id
@[simp] theorem settle_dbgAuth (s old : State) : (s.settle old).dbgAuth = s.dbgAuth := (settle_keeps s old).2.2 .dbgAuth id
@[simp] theorem settle_seqs (s old : State) : (s.settle old).seqs = s.seqs := (settle_keeps s old).2.2 .seqs id
@[simp] theorem settle_rix (s old : State) : (s.settle old).rix = s.rix := (settle_keeps s old).2.2 .rix id
@[simp] theorem settle_gnt (s old : State) : (s.settle old).gnt = s.gnt := (settle_keeps s old).2.2 .gnt id
@[simp] theorem settle_chans (s old : State) : (s.settle old).chans = s.chans := (settle_keeps s old).2.2 .chans id
@[simp] theorem settle_banks (s old : State) : (s.settle old).banks = s.banks := (settle_keeps s old).2.2 .banks id
@[simp] theorem settle_loops (s old : State) : (s.settle old).loops = s.loops := (settle_keeps s old).2.2 .loops id
@[simp] theorem settle_lpeQuery (s old : State) : (s.settle old).lpeQuery = s.lpeQuery := (settle_keeps s old).2.2 .lpeQuery id
@[simp] theorem settle_cas (s old : State) : (s.settle old).cas = s.cas := (settle_keeps s old).2.2 .cas id
@[simp] theorem settle_casQuery (s old : State) : (s.settle old).casQuery = s.casQuery := (settle_keeps s old).2.2 .casQuery id
@[simp] theorem settle_lpeBusy (s old : State) : (s.settle old).lpeBusy = s.lpeBusy := (settle_keeps s old).2.2 .lpeBusy id
@[simp] theorem settle_casBusy (s old : State) : (s.settle old).casBusy = s.casBusy := (settle_keeps s old).2.2 .casBusy id
@[simp] theorem settle_sers (s old : State) : (s.settle old).sers = s.sers := (settle_keeps s old).2.2 .sers id
@[simp] theorem settle_rdc (s old : State) : (s.settle old).rdc = s.rdc := (settle_keeps s old).2.2 .rdc id
@[simp] theorem settle_slu (s old : State) : (s.settle old).slu = s.slu := (settle_keeps s old).2.2 .slu id
@[simp] theorem settle_cis (s old : State) : (s.settle old).cis = s.cis := (settle_keeps s old).2.2 .cis id
@[simp] theorem settle_mpl (s old : State) : (s.settle old).mpl = s.mpl := (settle_keeps s old).2.2 .mpl id
@[simp] theorem settle_pnl (s old : State) : (s.settle old).pnl = s.pnl := (settle_keeps s old).2.2 .pnl id
@[simp] theorem settle_pairs (s old : State) : (s.settle old).pairs = s.pairs := (settle_keeps s old).2.2 .pairs id
@[simp] theorem settle_dmi (s old : State) : (s.settle old).dmi = s.dmi := (settle_keeps s old).2.2 .dmi id
@[simp] theorem settle_dmod (s old : State) : (s.settle old).dmod = s.dmod := (settle_keeps s old).2.2 .dmod id
@[simp] theorem settle_scrubs (s old : State) : (s.settle old).scrubs = s.scrubs := (settle_keeps s old).2.2 .scrubs id
@[simp] theorem settle_lsqTest (s old : State) : (s.settle old).lsqTest = s.lsqTest := (settle_keeps s old).2.2 .lsqTest id

/-- With no slot posted, a command ends with ABORTED alone. -/
theorem settle_quiet {s : State} (old : State) (h : s.posted = []) : s.settle old = s.clearAborted old := by
  unfold State.settle State.sscPosted
  rw [h]
  rfl

/-- A put into one field after another leaves every word of another offset alone. -/
theorem clearAborted_rd (s old : State) {k : Nat} (h : k % 4096 ≠ 0x010) : (s.clearAborted old).rd k = s.rd k := by
  unfold State.clearAborted
  dsimp only
  generalize old.regs.filter _ = l
  induction l generalizing s with
  | nil => rfl
  | cons e t ih =>
    rw [List.foldl_cons, ih]
    split
    · refine rd_put_key _ _ _ _ ?_
      intro hk
      apply h
      rw [hk]
      exact rkey_mod _ _ _
    · rfl

/-- With no slot posted, a command ends with every word but PG_STAT as its effect left it. -/
theorem settle_rd {s : State} (old : State) {k : Nat} (h : s.posted = []) (hk : k % 4096 ≠ 0x010) :
    (s.settle old).rd k = s.rd k := by rw [settle_quiet old h, clearAborted_rd s old hk]

theorem settle_get {s : State} (old : State) {f : Fld} (h : s.posted = []) (hk : f.key % 4096 ≠ 0x010) :
    (s.settle old).get f = s.get f := by unfold State.get; rw [settle_rd old h hk]

/-- A field of one register word. -/
theorem settle_on {s : State} (old : State) {f : Fld} (h : s.posted = []) (hk : f.key % 4096 ≠ 0x010) :
    (s.settle old).on f = s.on f := by unfold State.on; rw [settle_get old h hk]

end Sys2Proof.Machine
end

