-- ==== Sys2Proof/WellFormed.lean ====
section
/-! DEFINITION. Which commands are well formed: the bounds that the manual puts on an operand and its type does not. -/

namespace Sys2Proof

/-- A bus access of 1, 2, 4 or 8 bytes (R49). -/
def accessSizeOk (n : Nat) : Bool := n == 1 || n == 2 || n == 4 || n == 8

/-- A page of the page map (R32). -/
def pageOk (p : Fin 256) : Bool := (Machine.pageKind p.val).isSome

/-- Whether command `i` is well formed. -/
def Instr.wellFormed (i : Instr) : Bool :=
  match i with
  | .tickBoundary field => decide (field.map (fun f => f.ch.val)).Nodup
  | .unmappedAccess _ _ size _ => accessSizeOk size
  | .registerWrite _ _ size _ => accessSizeOk size
  | .lowWordRead _ _ size => accessSizeOk size
  | .casMemoryWrite _ _ size _ => accessSizeOk size
  | .errCntWrite _ page _ => pageOk page
  | .enableClear _ page _ => pageOk page
  | .softReset _ page _ => pageOk page
  | .abort _ page _ => pageOk page
  | .guardedValueWrite _ page _ _ => pageOk page
  | .guardTimeout page => pageOk page
  | .irqAssert page => pageOk page
  | .canRxFrame _ _ _ bytes _ => decide (bytes.length ≤ 64)
  | .fclkMonitorWindow dev => decide (dev.map (fun d => d.1.val)).Nodup
  | .snapshotInstant .. | .stageCutoff .. | .loopRelease .. | .domainWake .. | .clockLocked .. | .domainSleep ..
  | .fclkLockTimeout .. | .fclkLock1msTimeout .. | .tcxoCheckWindow .. | .highWordWrite .. | .lowWordWrite ..
  | .sigimgTagWrite .. | .sigimgValueWrite .. | .abortComplete .. | .abortOverBound .. | .loopAbortFallback ..
  | .featCommit .. | .stateReqRun .. | .stateReqRestart .. | .imgUpdStart .. | .imageUpdateDone .. | .bootSelect ..
  | .servoOffsetWrite .. | .addendFracWrite .. | .integClr .. | .holdoverTimeout .. | .stepPermit .. | .stepApply ..
  | .cycleBoundary .. | .nop .. | .ld .. | .ldn .. | .st .. | .stn .. | .setOp .. | .resetOp .. | .andOp .. | .andn ..
  | .orOp .. | .orn .. | .xorOp .. | .xorn .. | .notOp .. | .andParen .. | .andnParen .. | .orParen .. | .ornParen ..
  | .xorParen .. | .xornParen .. | .closeParen .. | .mps .. | .mrd .. | .mpp .. | .edgr .. | .edgf .. | .ton .. | .tof ..
  | .tp .. | .ctu .. | .ctd .. | .cres .. | .cload .. | .jmp .. | .jmpc .. | .jmpcn .. | .cal .. | .calc .. | .calcn ..
  | .endOp .. | .undefinedInstruction .. | .calReturn .. | .calTimeout .. | .taskResume .. | .startupTaskTimeout ..
  | .rixExchangeInterval .. | .rixInputFrame .. | .rixLateTimeout .. | .rixLossTimeout .. | .rixSubstPost .. | .forceSet ..
  | .forceRemove .. | .forceRemoveAll .. | .forceAuthSubmit .. | .forceAuthTimeout .. | .challengeRenewal .. | .progLoad ..
  | .progLoadDone .. | .activate .. | .activationTick .. | .activationTimeout .. | .ctxCmdClose .. | .ctxCmdOpen ..
  | .ctxCmdFallback .. | .ctxEnable .. | .ctxDisable .. | .lpeQuery .. | .lpeQueryDone .. | .lpeApertureWrite ..
  | .casLoad .. | .casLoadDone .. | .casUnload .. | .casRefresh .. | .casCold .. | .casSlotEnable .. | .casSlotDisable ..
  | .casDispatch .. | .casLinCommit .. | .casLinTimeout .. | .casRefreshStart .. | .casRefreshDone .. | .casQuery ..
  | .casQueryDone .. | .bankOutputFrame .. | .bankInputFrame .. | .logicSilence .. | .inputLost .. | .releaseHoldExpiry ..
  | .timedSafeTimeout .. | .fvFault .. | .fvRecovery .. | .bankSupplyLoss .. | .diSample .. | .foldBack ..
  | .foldbackRetry .. | .readbackErr .. | .openLoad .. | .lineFault .. | .testPulseStart .. | .pulseVerdict ..
  | .testPulseEnd .. | .safetyPoll .. | .tripWord .. | .tripWordTimeout .. | .aiRangeTimer .. | .supplyLimit ..
  | .compliance .. | .complFault .. | .joinToSole .. | .soleToJoin .. | .hartRequest .. | .hartTransmit .. | .hartResponse ..
  | .hartTimeout .. | .hartBurst .. | .comparatorMismatch .. | .comparatorTest .. | .delayParityError .. | .agreementPoint ..
  | .mtimecmpReached .. | .eccSingleBit .. | .eccDoubleBit .. | .scrubWord .. | .dmiRead .. | .dmiWrite .. | .dmiDone ..
  | .dbgAuthSubmit .. | .dbgAuthTimeout .. | .gauntletScan .. | .discrepancyTimeout .. | .resetArm .. | .resetPressTimeout ..
  | .paramCheck .. | .gntOscWindow .. | .gntSupplyFault .. | .voteRepeat .. | .voteLoss .. | .voteGraceExpiry ..
  | .psetLoad .. | .psetLoadDone .. | .commission .. | .credChange .. | .credLockoutExpiry .. | .sealSwitchChange ..
  | .sscRepeat .. | .sscFrame .. | .sscWatchdog .. | .sessAck .. | .sessEnable .. | .sessDisable .. | .ringProdWrite ..
  | .ringConsWrite .. | .ringEnable .. | .ringDisable .. | .ringHoldoff .. | .ethRxFrame .. | .ethTransmit .. | .ethTxDone ..
  | .linkDown .. | .linkUp .. | .portSpeedWrite .. | .prpSupervision .. | .serTransmit .. | .serRecordClose ..
  | .serGapTimeout .. | .modbusFrameEnd .. | .modbusRequest .. | .modbusRespTimeout .. | .modbusTurnaround ..
  | .serModeOff .. | .canFetch .. | .canSof .. | .canTxEnd .. | .canArbLost .. | .canBusError .. | .canRecover ..
  | .canRecovered .. | .canLaunchTime .. | .canAtWindowExpiry .. | .canModeWrite .. | .nbtWrite .. | .canDetDwell ..
  | .heartbeatSend .. | .heartbeat .. | .hbLinkTimeout .. | .leaseReq .. | .leaseGrant .. | .leaseRefuse .. | .peerReq ..
  | .peerGrant .. | .relinquish .. | .handover .. | .timeReq .. | .timeResp .. | .timeFup .. | .timeExchangeStart ..
  | .timeExchangeTimeout .. | .leaseRenew .. | .standbyLeaseReq .. | .leaseExpiry .. | .peerLeaseExpiry ..
  | .witnessGuardEnd .. | .witnessStartupHold .. | .coldStartWait .. | .restoreDone .. | .fullCheckpointStart ..
  | .sluiceRecord .. | .handoverReq .. | .handoverTick .. | .handoverTimeout .. | .revertHoldoff .. | .revertStart ..
  | .revertInhibitSet .. | .revertInhibitClear .. | .wmEnable .. | .wmDisable .. | .mainsLoss .. | .mainsReturn ..
  | .auxLoss .. | .auxReturn .. | .pfw .. | .pfwClear .. | .brownOut .. | .railFault .. | .suppliesGood .. | .bootDone ..
  | .startupTestDone .. | .buttonPress .. | .buttonRelease .. | .buttonStuck .. | .buttonRearm .. | .autoRestart ..
  | .hourClose .. | .dayClose .. | .cisFlush .. | .cisFlushDone .. | .cisClear .. | .trackEnable .. | .trackDisable ..
  | .cisExport .. | .monitorMeasure .. | .mplReplan .. | .mplMeasureCap .. | .capMeasureDone .. | .gradeApply ..
  | .gradeRetry .. | .learningEnd .. | .recalibration .. | .panelUpdateStart .. | .bandWaveformDone ..
  | .imageWaveformDone .. | .clearingWaveformDone .. | .blinkToggle .. | .crackCheck .. | .frameCrcCheck .. | .pnlRefresh ..
  | .lampTest .. | .lampTestDone .. | .checkpointAgeLimit .. | .fullCheckpointEnd .. | .serTxEnd .. | .sfpModuleInsertion .. => true

end Sys2Proof
end

