-- ==== Sys2Proof/Tests/Slice0.lean ====
section
/-! SUPPORT. The model's own tests: ill-formed commands, worked examples of the spec, and for every statement that has
hypotheses a state and operands that meet them, clause by clause. -/

namespace Sys2Proof.Tests

set_option maxRecDepth 100000
set_option linter.unusedVariables false
set_option Elab.async false

open Sys2Proof Sys2Proof.Machine

/-- The reset state with the fields of `l` put. -/
def wP (l : List (Fld × Nat)) : State := l.foldl (fun s x => s.put x.1 x.2) State.reset

/-- The reset state in module state `st` and role SINGLE, with the fields of `l` put. -/
def wS (st : Nat) (l : List (Fld × Nat)) : State := wP ((SYS.MODULE_STATE_STATE, st) :: (RDC.ROLE_ROLE, 0) :: l)

/-- RUN with sequencer `q` scheduled, its clock locked, ten tasks `it` in its image with code `code`, its runtime tasks `ts`. -/
def wSeq (q : Nat) (ts : List (Nat × TaskRt)) (code : List Word) (it : ImgTask) : State :=
  { wS 4 [(LSQ.SEQ_STAT_SCHED_RUN q, 1), (CLO.AWAKE, 2 ^ (4 + q)), (CLO.LOCKED, 2 ^ (4 + q))] with
    seqs := [(q, { Seq.blank with bank0 := some ⟨1, List.replicate 10 it, code, [], [], 0, [], [], []⟩, tasks := ts })] }

/-- Body `b` of a record with the check value that the peer would give it. -/
def wRec (s : State) (b : List Byte) : List Byte := b ++ natLE 4 (recCheck (s.toFold .peer) s.ownFold b)

/-- The registers of a credential submission hold the proof of purpose `p` over `b`. -/
def wProve (s : State) (p : Nat) (b : List Byte) : State :=
  let h := hmacSha256 (s.credential (p % 16)) (s.credMessage p b)
  (List.range 8).foldl (fun s k => s.put (respFld (purposeSet p) k) (leNat ((h.drop (4 * k)).take 4))) s

/-- RUN as a member of a redundant station in role `r`, with the fields of `l` put and the redundancy controller `c`. -/
def wStn (r : Nat) (l : List (Fld × Nat)) (c : Rdc) : State :=
  { wP ([(SYS.MODULE_STATE_STATE, 4), (RDC.ROLE_ROLE, r), (RDC.STN_CFG_REDUNDANT, 1)] ++ l) with rdc := c }

/-- A standby with every condition of READY: the peer's station words as its own with the other MEMBER letter, time in band, a
fresh checkpoint. -/
def wReady : State :=
  let s := wStn 2 [(RDC.REVERT_CFG_HOLDOFF_MIN, 1), (TKU.SERVO_CTRL_SERVO_EN, 1), (GNT.GNT_STAT_COMMISSIONED, 1)] { Rdc.blank with readySince := some 50 }
  let i := s.stationImage
  let i := i.take 148 ++ [i.getD 148 0 ^^^ 2] ++ i.drop 149
  { s with slu := { Slu.blank with ckptAt := some 0, cons := [(srcKey 6 0, i)] }, tku := { s.tku with accepted := true } }

/-- A closed accumulator set of a track with two bins. -/
def wTrk : CisTrk := ⟨CisAcc.opened 0 2 false, CisAcc.opened 0 2 false, CisAcc.opened 0 2 false⟩

/-! ### Ill-formed commands, one per check of `Instr.wellFormed` -/

theorem test_ill_formed_access_size : (Instr.registerWrite .dbg 0x20000000 3 0).wellFormed = false := by decide
theorem test_ill_formed_page : (Instr.softReset .dbg 0x92 2).wellFormed = false := by decide
theorem test_ill_formed_frame : (Instr.canRxFrame 0 0 0 (List.replicate 65 0) 0).wellFormed = false := by decide +kernel
theorem test_ill_formed_samples : (Instr.tickBoundary [⟨3, 0, 0⟩, ⟨3, 1, 1⟩]).wellFormed = false := by decide
theorem test_ill_formed_clocks : (Instr.fclkMonitorWindow [(4, 0), (4, 9)]).wellFormed = false := by decide

/-! ### The invariants have states to start from -/

theorem witness_MapsStayCanonical : ∃ s t : State, s.Canon ∧ step s = .next t :=
  ⟨State.reset, _, by simp only [State.Canon]; decide +kernel, rfl⟩
theorem witness_CommandFrames : ∃ (c : Instr) (s t : State), exec c s = .next t := ⟨.cisExport, State.reset, _, rfl⟩
theorem witness_PostsAreSent : ∃ (c : Instr) (s t : State), exec c s = .next t := ⟨.dayClose, State.reset, _, rfl⟩

/-! ### Worked examples of the spec -/

/-- The state that an outcome goes on with. -/
def goesOn (o : Host.Outcome State Fault Refusal) : State := match o with | .next t => t | _ => State.reset

/-- A module that finds the step of the example of Hull 4480 (03_time_and_ticks.md) pending at T0 = 5 000 000 000. -/
def wStep : State :=
  { wS 2 [] with tku := { State.reset.tku with ns := 5000000000, tickStart := 5000000000, stepPend := some 2437180, stepArmed := true } }

/-- The example of R72 and R73: the counter becomes T0 − 2 437 180 ns, STEP_LAST is −2 437 180, and the seam tick ends 137 180 ns
later. -/
theorem test_step_seam : (goesOn (exec .stepApply wStep)).tku.ns = 4997562820 ∧
    (goesOn (exec .stepApply wStep)).tku.next - (goesOn (exec .stepApply wStep)).tku.ns = 137180 ∧
    (goesOn (exec .stepApply wStep)).get TKU.STEP_LAST_LO = 2 ^ 32 - 2437180 := by decide +kernel

/-- The allocation slot of Hull 4471 (06_cascade_solver.md): n 7, 10 rows, 21 entries of J, 28 of L, 1 supernode, 7 outputs. -/
def wAlloc : State :=
  let b := casMem
  (((((((wS 4 [(SLOT.SLOT_ITER_G 3, 4), (SLOT.SLOT_ITER_K 3, 8), (SLOT.SLOT_DELTA_DELTA_MAX 3, 64)]).setLE (b + 6) 1 2).setLE
    (b + 8) 4 7).setLE (b + 0x0C) 4 10).setLE (b + 0x10) 4 21).setLE (b + 0x14) 4 28).setLE (b + 0x18) 4 1).setLE (b + 0x2C) 2 7

/-- The costs of that example: WCIT 210, T_outer 302, T_apply 356, T_post 136 and C 8 420 cycles. -/
theorem test_alloc_costs : (wAlloc.wcit 3, wAlloc.tOuter 3, wAlloc.tApply 3, wAlloc.tPost 3, wAlloc.casCost 3) =
    (210, 302, 356, 136, 8420) := by decide +kernel

/-- The example of R467: FEAT_COMMIT written with 2 counts as ACCESS with cause 7. -/
theorem test_feat_commit_value : (goesOn (exec (.featCommit .dbg 2) (wS 2 []))).get (HDR.PG_ERR_CNT_ACCESS 0) = 1 ∧
    (goesOn (exec (.featCommit .dbg 2) (wS 2 []))).get (HDR.PG_ERR_ADDR_CAUSE 0) = 7 := by decide +kernel

/-- The example of R467: FEAT_COMMIT written with 1 outside CONFIG counts as LOST with cause 4. -/
theorem test_feat_commit_state : (goesOn (exec (.featCommit .dbg 1) (wS 4 []))).get (HDR.PG_ERR_CNT_LOST 0) = 1 ∧
    (goesOn (exec (.featCommit .dbg 1) (wS 4 []))).get (HDR.PG_ERR_ADDR_CAUSE 0) = 4 := by decide +kernel

/-- The example of R465: one write that clears EN and changes TYPE of an enabled channel clears EN and keeps TYPE. -/
theorem test_channel_write : let s := wS 2 [(FB.CH_CFG_EN 0 0, 1), (FB.CH_CFG_TYPE 0 0, 1)]
    let t := goesOn (exec (.registerWrite .dbg 0x40020800 4 8) s)
    t.get (FB.CH_CFG_EN 0 0) = 0 ∧ t.get (FB.CH_CFG_TYPE 0 0) = 1 := by decide +kernel


/-- The hypotheses of each clause of IdleStepAdvancesCounter are met. -/
theorem witness_IdleStepAdvancesCounter :
    (∃ (s : State), (s.pending = [])) ∧
    (∃ (s : State), (s.pending = [])) :=
  ⟨⟨(State.reset), by decide +kernel⟩,
    ⟨({ wS 4 [(CLO.OP_SECONDS, 9)] with tku := { State.reset.tku with ns := 18446744073709551615, frac := 4294967295, opFrac := 999999980 } }), by decide +kernel⟩⟩

/-- The hypotheses of each clause of UnmappedAccessIsRefused are met. -/
theorem witness_UnmappedAccessIsRefused :
    (∃ (m : Master) (addr : BitVec 32) (size : Nat) (wr : Bool) (s : State), (s.posted = []) ∧ (regionOf (s.masterNo m) addr.toNat = .none ∨ regionOf (s.masterNo m) (addr.toNat + size - 1) = .none)) ∧
    (∃ (m : Master) (addr : BitVec 32) (size : Nat) (wr : Bool) (s : State), (s.posted = []) ∧ (regionOf (s.masterNo m) addr.toNat = .none ∨ regionOf (s.masterNo m) (addr.toNat + size - 1) = .none)) ∧
    (∃ (m : Master) (addr : BitVec 32) (size : Nat) (wr : Bool) (s : State), (s.posted = []) ∧ (regionOf (s.masterNo m) addr.toNat = .none ∨ regionOf (s.masterNo m) (addr.toNat + size - 1) = .none)) ∧
    (∃ (m : Master) (addr : BitVec 32) (size : Nat) (wr : Bool) (s : State), (s.posted = []) ∧ (regionOf (s.masterNo m) addr.toNat = .none ∨ regionOf (s.masterNo m) (addr.toNat + size - 1) = .none)) ∧
    (∃ (m : Master) (addr : BitVec 32) (size : Nat) (wr : Bool) (s : State), (s.posted = []) ∧ (regionOf (s.masterNo m) addr.toNat = .none ∨ regionOf (s.masterNo m) (addr.toNat + size - 1) = .none)) ∧
    (∃ (h : Fin 8) (addr : BitVec 32) (size : Nat) (v : BitVec 64) (s : State), (s.posted = []) ∧ (privRegion (regionOf (s.masterNo (.user h)) addr.toNat) = true)) ∧
    (∃ (h : Fin 8) (addr : BitVec 32) (size : Nat) (v : BitVec 64) (s : State), (s.posted = []) ∧ (privRegion (regionOf (s.masterNo (.user h)) addr.toNat) = true)) ∧
    (∃ (h : Fin 8) (addr : BitVec 32) (size : Nat) (s : State), (s.posted = []) ∧ (privRegion (regionOf (s.masterNo (.user h)) addr.toNat) = true)) :=
  ⟨⟨(.core 0), (0x10000000), (4), (true), (wS 4 []), by decide +kernel⟩,
    ⟨(.dbg), (0x7FFFFFFF), (1), (false), (wS 4 []), by decide +kernel⟩,
    ⟨(.qmg), (0x10000000), (4), (true), (wS 4 [(HDR.PG_ERR_CNT_ACCESS 0x0A, 255)]), by decide +kernel⟩,
    ⟨(.other), (0x20FFFFFF), (2), (true), (wS 4 []), by decide +kernel⟩,
    ⟨(.user 3), (0xFFFFFFFF), (2), (false), (wS 4 []), by decide +kernel⟩,
    ⟨(5), (0x40004060), (4), (9), (wS 4 []), by decide +kernel⟩,
    ⟨(0), (0x70000000), (8), (9), (wS 4 []), by decide +kernel⟩,
    ⟨(5), (0x40004060), (4), (wS 4 []), by decide +kernel⟩⟩

/-- The hypotheses of each clause of PlainMemoryWrite are met. -/
theorem witness_PlainMemoryWrite :
    (∃ (m : Master) (addr : BitVec 32) (size : Nat) (v : BitVec 64) (s : State), (s.posted = []) ∧ ((size = 1 ∨ size = 2 ∨ size = 4 ∨ size = 8)) ∧ (0x20000000 ≤ addr.toNat) ∧ (addr.toNat + size ≤ 0x21000000)) ∧
    (∃ (m : Master) (addr : BitVec 32) (size : Nat) (v : BitVec 64) (s : State), (s.posted = []) ∧ ((size = 1 ∨ size = 2 ∨ size = 4 ∨ size = 8)) ∧ (0x20000000 ≤ addr.toNat) ∧ (addr.toNat + size ≤ 0x21000000)) :=
  ⟨⟨(.core 0), (0x20FFFFF8), (8), (0xFFFE000000000001), (wS 4 []), by decide +kernel⟩,
    ⟨(.dbg), (0x20000000), (1), (0x80), (wS 4 []), by decide +kernel⟩⟩

/-- The hypotheses of each clause of ServoGainWrite are met. -/
theorem witness_ServoGainWrite :
    (∃ (m : Master) (v : BitVec 64) (s : State), (isUser m = false) ∧ (s.posted = []) ∧ (s.guardOf 0x04 = none)) :=
  ⟨(.core 3), (0x87654321), (wS 4 []), by decide +kernel⟩

/-- The hypotheses of each clause of LowWordReadLatches are met. -/
theorem witness_LowWordReadLatches :
    (∃ (m : Master) (p : Nat) (off : Nat) (s : State), (isUser m = false) ∧ ((pageKind p).isSome = true) ∧ (p < 0x91) ∧ (off < 0x600 ∨ 0x800 ≤ off) ∧ (off < 4096) ∧ (off % 4 = 0) ∧ (latsOf p off ≠ []) ∧ (showsFree p off = false) ∧ (s.guardOf p = none)) ∧
    (∃ (m : Master) (p : Nat) (off : Nat) (s : State), (isUser m = false) ∧ ((pageKind p).isSome = true) ∧ (p < 0x91) ∧ (off < 0x600 ∨ 0x800 ≤ off) ∧ (off < 4096) ∧ (off % 4 = 0) ∧ (isLat p off = true) ∧ (s.guardOf p = none)) :=
  ⟨⟨(.core 2), (4), (80), (wS 4 [(TKU.ADDEND_INT, 40)]), by decide +kernel⟩,
    ⟨(.core 2), (16), (124), (wS 4 []), by decide +kernel⟩⟩

/-- The hypotheses of each clause of MultiWordWrite are met. -/
theorem witness_MultiWordWrite :
    (∃ (m : Master) (p : Nat) (off : Nat) (v : BitVec 32) (s : State), (isUser m = false) ∧ (s.posted = []) ∧ ((pageKind p).isSome = true) ∧ (p < 0x91) ∧ ((p ≠ 0x07 ∨ s.gnt.stopped = false)) ∧ (off < 4096) ∧ (off % 4 = 0) ∧ (isLat p off = true) ∧ (s.guardOf p = none)) ∧
    (∃ (m : Master) (p : Nat) (off : Nat) (v : BitVec 32) (s : State), (isUser m = false) ∧ (s.posted = []) ∧ ((pageKind p).isSome = true) ∧ (p < 0x91) ∧ ((p ≠ 0x07 ∨ s.gnt.stopped = false)) ∧ (off < 4096) ∧ (off % 4 = 0) ∧ (latsOf p off ≠ []) ∧ (s.guardOf p = none) ∧ ((rowsAt p off).any (fun r => r.ty == .rw || r.ty == .rwh) = true) ∧ ((p = 0x04 → off = 0x060 → s.offsetRefused = false)) ∧ (s.groupCause p off v ((off, v &&& wordMask p off) :: (latsOf p off).map (fun o => (o, match s.wsh (shKey (s.masterNo m) p o) with | some w => w &&& wordMask p o | none => s.rd (rkey p (s.unitOf p off) o)))) = 0)) :=
  ⟨⟨(.core 2), (16), (124), (0xFFFFFFFF), (wS 4 []), by decide +kernel⟩,
    ⟨(.core 2), (16), (120), (5), (wS 4 []), by decide +kernel⟩⟩

/-- The hypotheses of each clause of SlotPostAndRefusal are met. -/
theorem witness_SlotPostAndRefusal :
    (∃ (m : Master) (n : Fin 8192) (v : BitVec 32) (s : State), (s.masterNo m < 8) ∧ (s.isProducer n.val 7 (s.masterNo m) = true)) ∧
    (∃ (m : Master) (n : Fin 8192) (v : BitVec 32) (s : State), (s.masterNo m < 8) ∧ (s.isProducer n.val 7 (s.masterNo m) = true)) ∧
    (∃ (m : Master) (n : Fin 8192) (v : BitVec 32) (w : BitVec 32) (s : State), (s.masterNo m < 8) ∧ (s.isProducer n.val 7 (s.masterNo m) = true) ∧ (s.wsh (sigKey (s.masterNo m) n.val) = some w)) ∧
    (∃ (m : Master) (n : Fin 8192) (v : BitVec 32) (s : State), (s.masterNo m < 8) ∧ (s.isProducer n.val 7 (s.masterNo m) = true) ∧ (s.wsh (sigKey (s.masterNo m) n.val) = none)) ∧
    (∃ (m : Master) (n : Fin 8192) (v : BitVec 32) (s : State), (s.posted = []) ∧ (8 ≤ s.masterNo m ∨ s.isProducer n.val 7 (s.masterNo m) = false)) ∧
    (∃ (m : Master) (n : Fin 8192) (v : BitVec 32) (s : State), (s.posted = []) ∧ (8 ≤ s.masterNo m ∨ s.isProducer n.val 7 (s.masterNo m) = false)) ∧
    (∃ (m : Master) (n : Fin 8192) (v : BitVec 32) (s : State), (s.posted = []) ∧ (8 ≤ s.masterNo m ∨ s.isProducer n.val 7 (s.masterNo m) = false)) ∧
    (∃ (m : Master) (n : Fin 8192) (v : BitVec 32) (s : State), (s.posted = []) ∧ (8 ≤ s.masterNo m ∨ s.isProducer n.val 7 (s.masterNo m) = false)) :=
  ⟨⟨(.core 2), (8191), (0x80000000), ({ wS 4 [] with sig := [(8191, ⟨0, mkTag true false false false 7 2 0⟩)] }), by decide +kernel⟩,
    ⟨(.user 2), (0), (1), ({ wS 4 [] with sig := [(0, ⟨0, mkTag true false false false 7 2 0⟩)] }), by decide +kernel⟩,
    ⟨(.core 2), (8191), (7), (3), ({ wS 4 [] with wshadow := [(sigKey 2 8191, some 3)], sig := [(8191, ⟨0, mkTag true false false false 7 2 0⟩)] }), by decide +kernel⟩,
    ⟨(.core 2), (0), (7), ({ wS 4 [] with sig := [(0, ⟨0, mkTag true false false false 7 2 0⟩)] }), by decide +kernel⟩,
    ⟨(.dbg), (0), (7), (wS 4 []), by decide +kernel⟩,
    ⟨(.core 2), (8191), (7), ({ wS 4 [] with sig := [(8191, ⟨0, mkTag true false false false 7 1 0⟩)] }), by decide +kernel⟩,
    ⟨(.qmg), (0), (7), (wS 4 []), by decide +kernel⟩,
    ⟨(.core 2), (8191), (7), ({ wS 4 [] with sig := [(8191, ⟨0, mkTag true false false false 7 1 0⟩)] }), by decide +kernel⟩⟩

/-- The hypotheses of each clause of ErrorCounterWrite are met. -/
theorem witness_ErrorCounterWrite :
    (∃ (m : Master) (p : Fin 256) (v : BitVec 32) (s : State), (isUser m = false) ∧ (s.posted = []) ∧ ((pageKind p.val).isSome = true) ∧ ((p.val ≠ 0x07 ∨ s.gnt.stopped = false)) ∧ (s.guardOf p.val = none)) ∧
    (∃ (m : Master) (p : Fin 256) (v : BitVec 32) (s : State), (isUser m = false) ∧ (s.posted = []) ∧ ((pageKind p.val).isSome = true) ∧ ((p.val ≠ 0x07 ∨ s.gnt.stopped = false)) ∧ (s.guardOf p.val = none)) :=
  ⟨⟨(.core 0), (0x90), (0x01FF0300), (wS 4 [(HDR.PG_ERR_CNT_ACCESS 0x90, 9)]), by decide +kernel⟩,
    ⟨(.core 0), (0x07), (0xFFFFFFFF), (wS 4 []), by decide +kernel⟩⟩

/-- The hypotheses of each clause of PageEnableAndSoftReset are met. -/
theorem witness_PageEnableAndSoftReset :
    (∃ (m : Master) (p : Fin 256) (s : State), (isUser m = false) ∧ ((pageKind p.val).isSome = true) ∧ (s.guardOf p.val = none) ∧ (s.enabled p.val = true) ∧ (fixedEnable p.val = false) ∧ (s.enableLocked p.val = false)) ∧
    (∃ (m : Master) (p : Fin 256) (s : State), (isUser m = false) ∧ (s.posted = []) ∧ (s.guardOf p.val = none) ∧ (s.enabled p.val = true) ∧ ((p.val = 0x02 ∨ p.val = 0x05 ∨ p.val = 0x08 ∨ (0x40 ≤ p.val ∧ p.val < 0x4C) ∨ (0x64 ≤ p.val ∧ p.val < 0x84)))) ∧
    (∃ (m : Master) (p : Fin 256) (s : State), (isUser m = false) ∧ (s.posted = []) ∧ (s.guardOf p.val = none) ∧ (s.enabled p.val = true) ∧ ((p.val = 0x02 ∨ p.val = 0x05 ∨ p.val = 0x08 ∨ (0x40 ≤ p.val ∧ p.val < 0x4C) ∨ (0x64 ≤ p.val ∧ p.val < 0x84)))) ∧
    (∃ (m : Master) (p : Fin 256) (s : State), (isUser m = false) ∧ ((pageKind p.val).isSome = true) ∧ (s.guardOf p.val = none) ∧ (s.enabled p.val = false) ∧ (fixedEnable p.val = false)) ∧
    (∃ (m : Master) (p : Fin 256) (s : State), (isUser m = false) ∧ (s.posted = []) ∧ (Regs.wf s.regs = true) ∧ (s.guardOf p.val = none) ∧ (s.enabled p.val = false) ∧ ((p.val = 0x02 ∨ p.val = 0x05 ∨ p.val = 0x06 ∨ (0x08 ≤ p.val ∧ p.val < 0x0B) ∨ p.val = 0x0C ∨ (0x14 ≤ p.val ∧ p.val < 0x18) ∨ (0x40 ≤ p.val ∧ p.val < 0x4C) ∨ (0x50 ≤ p.val ∧ p.val < 0x84) ∨ p.val = 0x90))) ∧
    (∃ (m : Master) (p : Fin 256) (s : State), (isUser m = false) ∧ (s.posted = []) ∧ (Regs.wf s.regs = true) ∧ (s.guardOf p.val = none) ∧ (s.enabled p.val = false) ∧ ((p.val = 0x02 ∨ p.val = 0x05 ∨ p.val = 0x06 ∨ (0x08 ≤ p.val ∧ p.val < 0x0B) ∨ p.val = 0x0C ∨ (0x14 ≤ p.val ∧ p.val < 0x18) ∨ (0x40 ≤ p.val ∧ p.val < 0x4C) ∨ (0x50 ≤ p.val ∧ p.val < 0x84) ∨ p.val = 0x90))) ∧
    (∃ (m : Master) (p : Fin 256) (s : State), (isUser m = false) ∧ (s.posted = []) ∧ ((pageKind p.val).isSome = true) ∧ ((p.val ≠ 0x07 ∨ s.gnt.stopped = false)) ∧ (s.guardOf p.val = none) ∧ (s.enabled p.val = true)) :=
  ⟨⟨(.core 0), (0x09), (wS 4 []), by decide +kernel⟩,
    ⟨(.core 0), (0x83), (wS 4 []), by decide +kernel⟩,
    ⟨(.core 0), (0x02), (wS 4 []), by decide +kernel⟩,
    ⟨(.core 0), (0x09), (wS 4 [(HDR.PG_CTRL_ENABLE 0x09, 0)]), by decide +kernel⟩,
    ⟨(.core 0), (0x02), (wS 4 [(HDR.PG_CTRL_ENABLE 0x02, 0), (MPL.GRADE_FLOOR, 5), (MPL.MPL_CFG_LEAD_DAYS, 60)]), by decide +kernel⟩,
    ⟨(.core 0), (0x90), (wS 4 [(HDR.PG_CTRL_ENABLE 0x90, 0), (HDR.PG_ERR_CNT_LOST 0x90, 9)]), by decide +kernel⟩,
    ⟨(.core 0), (0x0A), (wS 4 [(HDR.PG_ERR_CNT_LOST 0x0A, 255)]), by decide +kernel⟩⟩

/-- The hypotheses of each clause of AbortLifeCycle are met. -/
theorem witness_AbortLifeCycle :
    (∃ (m : Master) (p : Fin 256) (r : Nat) (s : State), (isUser m = false) ∧ (s.posted = []) ∧ (r < 0x80) ∧ ((p.val = 0x09 ∨ p.val = 0x0C ∨ (0x14 ≤ p.val ∧ p.val < 0x18) ∨ p.val = 0x1B)) ∧ (s.guardOf p.val = none) ∧ (s.abortUnit p.val < abortUnits p.val) ∧ (s.abortOf p.val (s.abortUnit p.val) = none) ∧ (s.workInHand p.val (s.abortUnit p.val) = true)) ∧
    (∃ (m : Master) (p : Fin 256) (r : Nat) (s : State), (isUser m = false) ∧ (s.posted = []) ∧ (r < 0x80) ∧ ((p.val = 0x09 ∨ p.val = 0x0C ∨ (0x14 ≤ p.val ∧ p.val < 0x18) ∨ p.val = 0x1B)) ∧ (s.guardOf p.val = none) ∧ (s.abortUnit p.val < abortUnits p.val) ∧ (s.abortOf p.val (s.abortUnit p.val) = none) ∧ (s.workInHand p.val (s.abortUnit p.val) = true)) ∧
    (∃ (m : Master) (p : Fin 256) (r : Nat) (s : State), (isUser m = false) ∧ (r < 0x80) ∧ (abortPage p.val = true) ∧ (p.val < 0x50) ∧ (s.posted = []) ∧ (s.guardOf p.val = none) ∧ (s.abortUnit p.val < abortUnits p.val) ∧ (s.abortOf p.val (s.abortUnit p.val) = none) ∧ (s.workInHand p.val (s.abortUnit p.val) = true)) ∧
    (∃ (m : Master) (p : Fin 256) (r : Nat) (s : State), (isUser m = false) ∧ (r < 0x80) ∧ (abortPage p.val = true) ∧ (p.val < 0x50) ∧ (s.posted = []) ∧ (s.guardOf p.val = none) ∧ (s.abortUnit p.val < abortUnits p.val) ∧ (s.abortOf p.val (s.abortUnit p.val) = none) ∧ (s.workInHand p.val (s.abortUnit p.val) = true)) ∧
    (∃ (m : Master) (p : Fin 256) (r : Nat) (b : TxBuf) (s : State), (isUser m = false) ∧ (r < 0x80) ∧ (0x50 ≤ p.val) ∧ (p.val < 0x64) ∧ (s.posted = []) ∧ (s.guardOf p.val = none) ∧ (s.abortUnit p.val < 8) ∧ (s.abortOf p.val (s.abortUnit p.val) = none) ∧ ((s.can (p.val - 0x50)).buf (s.abortUnit p.val) = some b) ∧ (b.st = 3)) ∧
    (∃ (m : Master) (p : Fin 256) (r : Nat) (s : State), (isUser m = false) ∧ (r < 0x80) ∧ (abortPage p.val = true) ∧ (p.val ≠ 0x0A) ∧ (s.posted = []) ∧ (s.guardOf p.val = none) ∧ (s.abortUnit p.val < abortUnits p.val) ∧ (s.abortOf p.val (s.abortUnit p.val) = none) ∧ (s.workInHand p.val (s.abortUnit p.val) = false)) ∧
    (∃ (m : Master) (p : Fin 256) (r : Nat) (s : State), (isUser m = false) ∧ (r < 0x80) ∧ (abortPage p.val = true) ∧ (p.val ≠ 0x0A) ∧ (s.posted = []) ∧ (s.guardOf p.val = none) ∧ (s.abortUnit p.val < abortUnits p.val) ∧ (s.abortOf p.val (s.abortUnit p.val) = none) ∧ (s.workInHand p.val (s.abortUnit p.val) = false)) ∧
    (∃ (m : Master) (p : Fin 256) (r : Nat) (s : State), (isUser m = false) ∧ (r < 0x80) ∧ (abortPage p.val = true) ∧ (s.posted = []) ∧ (s.guardOf p.val = none) ∧ ((s.abortOf p.val (s.abortUnit p.val)).isSome = true)) ∧
    (∃ (m : Master) (p : Fin 256) (v : BitVec 32) (s : State), (isUser m = false) ∧ (s.posted = []) ∧ ((pageKind p.val).isSome = true) ∧ (p.val ≠ 0x07) ∧ (s.guardOf p.val = none) ∧ ((abortPage p.val = false ∨ v.toNat < 0xAB000000 ∨ 0xAB00007F < v.toNat))) ∧
    (∃ (m : Master) (p : Fin 256) (v : BitVec 32) (s : State), (isUser m = false) ∧ (s.posted = []) ∧ ((pageKind p.val).isSome = true) ∧ (p.val ≠ 0x07) ∧ (s.guardOf p.val = none) ∧ ((abortPage p.val = false ∨ v.toNat < 0xAB000000 ∨ 0xAB00007F < v.toNat))) ∧
    (∃ (p : Fin 256) (u : Fin 128) (r : AbortRec) (s : State), (s.abortOf p.val u.val = some r) ∧ (p.val < 0x50) ∧ ((p.val = 0x19 → s.loopRelPast = false))) ∧
    (∃ (p : Fin 256) (u : Fin 128) (r : AbortRec) (s : State), (s.posted = []) ∧ (s.abortOf p.val u.val = some r)) ∧
    (∃ (c : Fin 128) (r : AbortRec) (s : State), (s.posted = []) ∧ (s.abortOf 0x19 c.val = some r) ∧ ((s.loop c.val).aborting = true) ∧ (s.loopRelPast = false)) :=
  ⟨⟨(.core 0), (0x09), (0x7F), (wS 4 [(PNL.PNL_STAT_UPDATING, 1)]), by decide +kernel⟩,
    ⟨(.core 0), (0x0C), (0), (wS 4 [(SLC.SLC_STAT_FULL_BUSY, 1)]), by decide +kernel⟩,
    ⟨(.core 0), (0x0A), (5), (wS 4 [(QMG.RING_CFG_EN 0, 1), (QMG.RING_EP_CONS_CLASS 0, 3), (QMG.RING_EP_CONS_INST 0, 19), (QMG.RING_PROD_PROD_IDX 0, 1), (QMG.RING_BASE 0, 0x20000000)]), by decide +kernel⟩,
    ⟨(.core 0), (0x19), (0x7F), (wS 4 [(CTX.CTX_MODE_STATE 0, 2)]), by decide +kernel⟩,
    ⟨(.core 0), (0x50), (3), (⟨0, 0, 0, [], none, false, 0, 0, 0, 3, 0, false, 0, false⟩), ({ wS 4 [] with cans := [(0, { CanCtl.blank with bufs := [(0, ⟨0, 0, 0, [], none, false, 0, 0, 0, 3, 0, false, 0, false⟩)] })] }), by decide +kernel⟩,
    ⟨(.core 0), (0x06), (3), (wS 4 [(SSE.SESS_SEL, 63)]), by decide +kernel⟩,
    ⟨(.core 0), (0x50), (3), (wS 4 []), by decide +kernel⟩,
    ⟨(.core 0), (0x1B), (3), ({ wS 4 [(SLOT.SLOT_SEL, 15), (HDR.PG_ABORT_STAT_REASON 0x1B, 9)] with aborts := [(abortKey 0x1B 15, ⟨9, 0⟩)] }), by decide +kernel⟩,
    ⟨(.core 0), (0x09), (0xAB000080), (wS 4 []), by decide +kernel⟩,
    ⟨(.core 0), (0x02), (0xAB000000), (wS 4 []), by decide +kernel⟩,
    ⟨(0x09), (0), (⟨5, 0⟩), ({ wS 4 [(PNL.PNL_STAT_UPDATING, 1)] with aborts := [(abortKey 0x09 0, ⟨5, 0⟩)] }), by decide +kernel⟩,
    ⟨(0x1B), (15), (⟨5, 0⟩), ({ wS 4 [] with aborts := [(abortKey 0x1B 15, ⟨5, 0⟩)] }), by decide +kernel⟩,
    ⟨(127), (⟨5, 0⟩), ({ wS 4 [(CTX.CTX_CFG_EN 127, 1)] with aborts := [(abortKey 0x19 127, ⟨5, 0⟩)], loops := [(127, { LoopCtx.blank with aborting := true })] }), by decide +kernel⟩⟩

/-- The hypotheses of each clause of GuardedWindow are met. -/
theorem witness_GuardedWindow :
    (∃ (m : Master) (p : Fin 256) (off : BitVec 12) (v : BitVec 32) (s : State), (isUser m = false) ∧ (s.posted = []) ∧ ((pageKind p.val).isSome = true) ∧ ((p.val ≠ 0x07 ∨ s.gnt.stopped = false)) ∧ (isGrd p.val off.toNat = true) ∧ (0x400 ≤ off.toNat) ∧ (off.toNat < 0x600) ∧ (off.toNat % 4 = 0) ∧ (s.guardOf p.val = none)) ∧
    (∃ (p : Fin 256) (g : GuardOpen) (s : State), (s.posted = []) ∧ (s.guardOf p.val = some g) ∧ (g.off < 4096)) :=
  ⟨⟨(.core 0), (0x09), (0x400), (1), (wS 4 []), by decide +kernel⟩,
    ⟨(0x09), (⟨0x400, 1, 0, 5⟩), ({ wS 4 [] with guards := [(0x09, ⟨0x400, 1, 0, 5⟩)] }), by decide +kernel⟩⟩

/-- The hypotheses of each clause of FeatureCommit are met. -/
theorem witness_FeatureCommit :
    (∃ (m : Master) (s : State), (isUser m = false) ∧ (s.posted = []) ∧ (s.guardOf 0x00 = none) ∧ (s.mstate = stCONFIG)) ∧
    (∃ (m : Master) (s : State), (isUser m = false) ∧ (s.posted = []) ∧ (s.guardOf 0x00 = none) ∧ (s.mstate ≠ stCONFIG)) :=
  ⟨⟨(.core 0), (wS 2 [(SYS.DRV_FEAT 0, 0xFFFFFFFF), (SYS.FEAT_MAND 7, 1)]), by decide +kernel⟩,
    ⟨(.core 0), (wS 4 []), by decide +kernel⟩⟩

/-- The hypotheses of each clause of StateRequests are met. -/
theorem witness_StateRequests :
    (∃ (m : Master) (s : State), (isUser m = false) ∧ (s.posted = []) ∧ (s.guardOf 0x00 = none) ∧ (s.mstate = stCONFIG) ∧ (s.on SYS.MODULE_STATE_FEAT_COMMITTED = true) ∧ (s.on SYS.MODULE_STATE_MAND_MISSING = false)) ∧
    (∃ (m : Master) (s : State), (isUser m = false) ∧ (s.posted = []) ∧ (s.guardOf 0x00 = none) ∧ (s.mstate = stCONFIG) ∧ (s.on SYS.MODULE_STATE_FEAT_COMMITTED = false)) ∧
    (∃ (m : Master) (s : State), (isUser m = false) ∧ (s.posted = []) ∧ (s.guardOf 0x00 = none) ∧ ((s.mstate = stCONFIG ∨ s.mstate = stRUN ∨ s.mstate = stSAFE ∨ s.mstate = stHALT)) ∧ (Regs.wf s.regs = true) ∧ (s.on SYS.REQ_STAT_HANDOVER_PENDING = false) ∧ (s.readyStandby = false)) ∧
    (∃ (m : Master) (s : State), (isUser m = false) ∧ (s.posted = []) ∧ (s.guardOf 0x00 = none) ∧ ((s.mstate = stCONFIG ∨ s.mstate = stRUN ∨ s.mstate = stSAFE ∨ s.mstate = stHALT)) ∧ (Regs.wf s.regs = true) ∧ (s.on SYS.REQ_STAT_HANDOVER_PENDING = false) ∧ (s.readyStandby = false)) :=
  ⟨⟨(.core 0), (wS 2 [(SYS.MODULE_STATE_FEAT_COMMITTED, 1)]), by decide +kernel⟩,
    ⟨(.core 0), (wS 2 []), by decide +kernel⟩,
    ⟨(.core 0), (wS 6 []), by decide +kernel⟩,
    ⟨(.core 0), (wS 4 []), by decide +kernel⟩⟩

/-- The hypotheses of each clause of ImageUpdate are met. -/
theorem witness_ImageUpdate :
    (∃ (m : Master) (s : State), (isUser m = false) ∧ (s.posted = []) ∧ (s.guardOf 0x00 = none) ∧ (s.on SYS.IMG_STAT_UPD_BUSY = false) ∧ (s.pfw = false) ∧ (s.get SYS.IMG_UPD_LEN ≠ 0) ∧ (s.get SYS.IMG_UPD_LEN ≤ 0x8000000) ∧ (0x80000000 ≤ s.get SYS.IMG_UPD_SRC) ∧ (s.get SYS.IMG_UPD_SRC + s.get SYS.IMG_UPD_LEN ≤ 0x100000000) ∧ (s.get SYS.IMG_UPD_SRC % 4096 = 0)) ∧
    (∃ (l : List Byte) (s : State), (s.posted = []) ∧ (s.dev.upd = some l)) ∧
    (∃ (m : Master) (v : BitVec 32) (s : State), (isUser m = false) ∧ (s.posted = []) ∧ (s.guardOf 0x00 = none) ∧ (v.toNat ≤ 1)) :=
  ⟨⟨(.core 0), (wS 4 [(SYS.IMG_UPD_SRC, 0x80001000), (SYS.IMG_UPD_LEN, 2)]), by decide +kernel⟩,
    ⟨([1, 2]), ({ wS 4 [(SYS.IMG_STAT_UPD_BUSY, 1)] with dev := { State.reset.dev with upd := some [1, 2] } }), by decide +kernel⟩,
    ⟨(.core 0), (1), (wS 4 []), by decide +kernel⟩⟩

/-- The hypotheses of each clause of ServoAndAddend are met. -/
theorem witness_ServoAndAddend :
    (∃ (m : Master) (v : BitVec 32) (s : State), (isUser m = false) ∧ (s.posted = []) ∧ (s.guardOf 0x04 = none) ∧ (s.on TKU.SERVO_CTRL_SERVO_EN = false)) ∧
    (∃ (m : Master) (v : BitVec 32) (s : State), (isUser m = false) ∧ (s.posted = []) ∧ (s.guardOf 0x04 = none) ∧ (s.on TKU.SERVO_CTRL_SERVO_EN = true) ∧ (s.on TKU.SYNC_STAT_STEP_PENDING = false) ∧ (s.on TKU.SYNC_STAT_TIME_VALID = true) ∧ (s.wsh (shKey (s.masterNo m) 0x04 0x064) = some 0) ∧ (v.toNat ≤ s.get TKU.STEP_THRESH)) ∧
    (∃ (m : Master) (v : BitVec 32) (s : State), (isUser m = false) ∧ (s.posted = []) ∧ (s.guardOf 0x04 = none) ∧ (s.on TKU.SERVO_CTRL_SERVO_EN = false) ∧ (s.wsh (shKey (s.masterNo m) 0x04 0x054) = none) ∧ (s.get TKU.ADDEND_INT ≠ 0)) ∧
    (∃ (m : Master) (s : State), (isUser m = false) ∧ (s.posted = []) ∧ (s.guardOf 0x04 = none)) ∧
    (∃ (h : Nat) (s : State), (s.posted = []) ∧ (s.tku.holdSince = some h) ∧ (s.tku.accepted = true) ∧ (s.on TKU.SERVO_CTRL_SERVO_EN = true) ∧ (s.on TKU.SYNC_STAT_HOLDOVER = false)) :=
  ⟨⟨(.core 0), (7), (wS 4 [(TKU.SERVO_CTRL_SERVO_EN, 0)]), by decide +kernel⟩,
    ⟨(.core 0), (7), ({ wS 4 [(TKU.SERVO_CTRL_SERVO_EN, 1), (TKU.SYNC_STAT_TIME_VALID, 1), (TKU.STEP_THRESH, 7), (TKU.SYNC_STAT_HOLDOVER, 1)] with wshadow := [(shKey 0 0x04 0x064, some 0)] }), by decide +kernel⟩,
    ⟨(.core 0), (0xFFFFFFFF), (wS 4 [(TKU.SERVO_CTRL_SERVO_EN, 0), (TKU.ADDEND_INT, 40)]), by decide +kernel⟩,
    ⟨(.core 0), (wS 4 [(TKU.INTEG, 99)]), by decide +kernel⟩,
    ⟨(5), ({ wS 4 [(TKU.SERVO_CTRL_SERVO_EN, 1)] with tku := { State.reset.tku with holdSince := some 5, accepted := true } }), by decide +kernel⟩⟩

/-- The hypotheses of each clause of TimeSteps are met. -/
theorem witness_TimeSteps :
    (∃ (m : Master) (s : State), (isUser m = false) ∧ (s.posted = []) ∧ (s.guardOf 0x04 = none)) ∧
    (∃ (o : BitVec 64) (s : State), (s.posted = []) ∧ (s.tku.stepPend = some o) ∧ (s.tku.stepArmed = true)) ∧
    (∃ (o : BitVec 64) (s : State), (s.posted = []) ∧ (s.tku.stepPend = some o) ∧ (s.tku.stepArmed = true)) :=
  ⟨⟨(.core 0), ({ wS 4 [(TKU.SYNC_STAT_STEP_PENDING, 1)] with tku := { State.reset.tku with stepPend := some 5 } }), by decide +kernel⟩,
    ⟨(5), ({ wS 4 [(TKU.STEP_SEQ, 0xFFFF)] with tku := { State.reset.tku with stepPend := some 5, stepArmed := true } }), by decide +kernel⟩,
    ⟨(0xFFFFFFFFFFFFFFFB), ({ wS 4 [] with tku := { State.reset.tku with stepPend := some 0xFFFFFFFFFFFFFFFB, stepArmed := true } }), by decide +kernel⟩⟩

/-- The hypotheses of each clause of TickPhases are met. -/
theorem witness_TickPhases :
    (∃ (f : List FieldSample) (s : State), (Signals.wf s.sig = true) ∧ (s.mstate < stCONFIG) ∧ ((List.range 16).all (fun b => !s.bankLive b) = true)) ∧
    (∃ (q : Fin 4) (k : Nat) (s : State), (s.tku.snapped = false) ∧ (s.enabled (0x14 + q.val) = true) ∧ (s.schedRun q.val = true) ∧ (k ∈ s.dueTasks q.val)) ∧
    (∃ (s : State), (s.tku.snapped = true)) ∧
    (∃ (ch : Fin 256) (s : State), (s.tku.cut = false) ∧ (s.bankLive (bk ch.val) = true) ∧ (s.enabled (0x20 + bk ch.val) = true) ∧ (s.chEn ch.val = true) ∧ (isOut (s.chType ch.val) = true)) ∧
    (∃ (ch : Fin 256) (s : State), (s.tku.cut = false) ∧ (s.bankLive (bk ch.val) = true) ∧ (s.enabled (0x20 + bk ch.val) = true) ∧ (s.chEn ch.val = true) ∧ (isOut (s.chType ch.val) = true)) ∧
    (∃ (c : Fin 128) (d : Bool) (s : State), (s.posted = []) ∧ (s.tku.snapped = true) ∧ (s.tku.cut = false) ∧ (s.loopRelDue c.val = true) ∧ ((s.loop c.val).aborting = false) ∧ (s.loopSt c.val = lpOPEN) ∧ (s.on (CTX.CTX_CFG_OPEN_ACT c.val) = false) ∧ ((s.loop c.val).job = none)) ∧
    (∃ (c : Fin 128) (j : Job) (s : State), (s.tku.snapped = true) ∧ (s.tku.cut = false) ∧ (s.loopRelDue c.val = true) ∧ ((s.loop c.val).aborting = false) ∧ (loopRuns (s.loopSt c.val) = true) ∧ ((s.loop c.val).job = some j) ∧ (s.domReady 8 = true)) ∧
    (∃ (c : Fin 128) (d : Bool) (s : State), ((s.tku.snapped = false ∨ s.tku.cut = true ∨ s.loopRelDue c.val = false))) ∧
    (∃ (c : Fin 128) (d : Bool) (s : State), ((s.tku.snapped = false ∨ s.tku.cut = true ∨ s.loopRelDue c.val = false))) :=
  ⟨⟨([]), ((wS 0 []).setSlot 5 ⟨7, 0xC0000005⟩), by decide +kernel⟩,
    ⟨(1), (2), (wSeq 1 [(2, { TaskRt.blank with due := true })] [] ⟨true, false, 10, 3, 0, 0, 100, [], []⟩), by decide +kernel⟩,
    ⟨({ State.reset with tku := { State.reset.tku with snapped := true } }), by decide +kernel⟩,
    ⟨(17), (({ wS 4 [(FB.CH_CFG_EN 1 1, 1), (FB.CH_CFG_TYPE 1 1, 4), (FB.CH_SLOT_SLOT 1 1, 40)] with banks := [(1, { Bank.blank with supply := true })] } : State).setSlot 40 ⟨9, 0x84000000⟩), by decide +kernel⟩,
    ⟨(17), (({ wS 4 [(FB.CH_CFG_EN 1 1, 1), (FB.CH_CFG_TYPE 1 1, 4), (FB.CH_SLOT_SLOT 1 1, 40)] with banks := [(1, { Bank.blank with supply := true })] } : State).setSlot 40 ⟨9, 0x04000000⟩), by decide +kernel⟩,
    ⟨(3), (true), ({ wS 4 [(CTX.CTX_CFG_EN 3, 1), (CTX.CTX_PERIOD_PERIOD 3, 1)] with loops := [(3, { LoopCtx.blank with begun := true })], tku := { State.reset.tku with snapped := true } }), by decide +kernel⟩,
    ⟨(3), (⟨[5, -6], [(1, false)], [1], [2], [3], [], [], [0], [0], [0], (false, false, false), false, false, [], 0, 0, 0⟩), ({ wS 4 [(CTX.CTX_CFG_EN 3, 1), (CTX.CTX_PERIOD_PERIOD 3, 1), (CTX.CTX_MODE_STATE 3, 2), (CLO.AWAKE, 0x100), (CLO.LOCKED, 0x100)] with loops := [(3, { LoopCtx.blank with begun := true, job := some ⟨[5, -6], [(1, false)], [1], [2], [3], [], [], [0], [0], [0], (false, false, false), false, false, [], 0, 0, 0⟩ })], tku := { State.reset.tku with snapped := true } }), by decide +kernel⟩,
    ⟨(3), (true), ({ wS 4 [(CTX.CTX_CFG_EN 3, 1), (CTX.CTX_PERIOD_PERIOD 3, 1)] with tku := { State.reset.tku with snapped := true, cut := true } }), by decide +kernel⟩,
    ⟨(3), (false), ({ wS 4 [] with tku := { State.reset.tku with snapped := true } }), by decide +kernel⟩⟩

/-- The hypotheses of each clause of DomainClocks are met. -/
theorem witness_DomainClocks :
    (∃ (d : Fin 10) (s : State), (s.posted = []) ∧ (s.domRuns d.val = true) ∧ (s.bit CLO.AWAKE d.val = false)) ∧
    (∃ (d : Fin 11) (s : State), (s.posted = []) ∧ (d.val < 10) ∧ (s.bit CLO.AWAKE d.val = true) ∧ (s.bit CLO.LOCKED d.val = false)) ∧
    (∃ (d : Fin 11) (s : State), (s.posted = []) ∧ (d.val < 10) ∧ (s.bit CLO.AWAKE d.val = true) ∧ (s.bit CLO.LOCKED d.val = false)) ∧
    (∃ (s : State), (s.posted = []) ∧ (s.feat 4 = true) ∧ (s.mstate ≠ stPOWER_ON)) ∧
    (∃ (d : Fin 10) (s : State), (s.posted = []) ∧ (s.bit CLO.AWAKE d.val = true) ∧ (s.pendingWork d.val = false) ∧ (s.bit CLO.WAKE_HOLD d.val = false) ∧ (s.nextWork d.val = none)) ∧
    (∃ (d : Fin 10) (x : Nat) (s : State), (s.posted = []) ∧ (s.bit CLO.AWAKE d.val = true) ∧ (s.pendingWork d.val = false) ∧ (s.bit CLO.WAKE_HOLD d.val = false) ∧ (s.nextWork d.val = some x) ∧ (50000 < x)) ∧
    (∃ (d : Fin 10) (x : Nat) (s : State), (s.posted = []) ∧ (s.bit CLO.AWAKE d.val = true) ∧ (s.pendingWork d.val = false) ∧ (s.bit CLO.WAKE_HOLD d.val = false) ∧ (s.nextWork d.val = some x) ∧ (50000 < x)) ∧
    (∃ (d : Fin 10) (x : Nat) (s : State), (s.posted = []) ∧ (s.bit CLO.AWAKE d.val = true) ∧ (s.pendingWork d.val = false) ∧ (s.bit CLO.WAKE_HOLD d.val = false) ∧ (s.nextWork d.val = some x) ∧ (50000 < x)) ∧
    (∃ (d : Fin 10) (s : State), (s.posted = []) ∧ ((s.pendingWork d.val = true ∨ s.bit CLO.WAKE_HOLD d.val = true ∨ s.workWithin d.val 50000 = true))) ∧
    (∃ (d : Fin 10) (s : State), (s.posted = []) ∧ ((s.pendingWork d.val = true ∨ s.bit CLO.WAKE_HOLD d.val = true ∨ s.workWithin d.val 50000 = true))) ∧
    (∃ (d : Fin 10) (s : State), (s.posted = []) ∧ (s.unlocked d.val = true)) ∧
    (∃ (d : Fin 10) (s : State), (s.unlocked d.val = true) ∧ (s.mstate = stRUN)) :=
  ⟨⟨(5), (wS 4 [(CLO.DOM_STAT_BIAS 5, 1), (CLO.AWAKE, 0x11)]), by decide +kernel⟩,
    ⟨(5), ({ wS 4 [(CLO.AWAKE, 0x20)] with tku := { State.reset.tku with mono := 40001 } }), by decide +kernel⟩,
    ⟨(9), ({ wS 4 [(CLO.AWAKE, 0x200), (CLO.DOM_CNT_LATE_LOCK 9, 255)] with tku := { State.reset.tku with mono := 40000 } }), by decide +kernel⟩,
    ⟨(wS 4 [(SYS.FEAT_ACTIVE 0, 16)]), by decide +kernel⟩,
    ⟨(5), (wS 4 [(CLO.AWAKE, 0x20), (CLO.LOCKED, 0x20)]), by decide +kernel⟩,
    ⟨(8), (9925000), (wS 4 [(CLO.AWAKE, 0x100), (CLO.LOCKED, 0x100), (CTX.CTX_CFG_EN 3, 1), (CTX.CTX_PERIOD_PERIOD 3, 100), (CTX.CTX_PERIOD_PHASE 3, 99)]), by decide +kernel⟩,
    ⟨(8), (125000), (wS 4 [(CLO.AWAKE, 0x100), (CLO.LOCKED, 0x100), (CTX.CTX_CFG_EN 3, 1), (CTX.CTX_PERIOD_PERIOD 3, 100), (CTX.CTX_PERIOD_PHASE 3, 1)]), by decide +kernel⟩,
    ⟨(8), (1925000), (wS 4 [(CLO.AWAKE, 0x100), (CLO.LOCKED, 0x100), (CTX.CTX_CFG_EN 3, 1), (CTX.CTX_PERIOD_PERIOD 3, 20), (CTX.CTX_PERIOD_PHASE 3, 19)]), by decide +kernel⟩,
    ⟨(8), (wS 4 [(CLO.AWAKE, 0x100), (CLO.LOCKED, 0x100), (CLO.WAKE_HOLD, 0x100)]), by decide +kernel⟩,
    ⟨(8), (wS 4 [(CLO.AWAKE, 0x100), (CLO.LOCKED, 0x100), (CTX.CTX_CFG_EN 3, 1), (CTX.CTX_PERIOD_PERIOD 3, 100)]), by decide +kernel⟩,
    ⟨(2), (wS 4 [(CLO.AWAKE, 4)]), by decide +kernel⟩,
    ⟨(2), (wS 4 [(CLO.AWAKE, 4)]), by decide +kernel⟩⟩

/-- The hypotheses of each clause of ClockChecks are met. -/
theorem witness_ClockChecks :
    (∃ (d : Fin 11) (p : Int) (s : State), (s.posted = []) ∧ (s.clkRuns d.val = true) ∧ (p.natAbs ≤ 50000)) ∧
    (∃ (d : Fin 11) (p : Int) (s : State), (s.posted = []) ∧ (s.clkRuns d.val = true) ∧ (p.natAbs ≤ 50000)) ∧
    (∃ (d : Fin 11) (p : Int) (s : State), (s.clkRuns d.val = true) ∧ (50000 < p.natAbs) ∧ (d.val < 10) ∧ (s.mstate = stRUN)) ∧
    (∃ (p : Int) (s : State), (s.posted = []) ∧ (s.clkRuns 10 = true) ∧ (50000 < p.natAbs)) ∧
    (∃ (d : Fin 11) (p : Int) (s : State), (s.posted = []) ∧ (s.clkRuns d.val = false)) ∧
    (∃ (d : Fin 11) (e : Fin 11) (p : Int) (q : Int) (s : State), (d ≠ e) ∧ (s.clkRuns d.val = true) ∧ (s.clkRuns e.val = true) ∧ (50000 < p.natAbs) ∧ (50000 < q.natAbs)) ∧
    (∃ (p : Int) (s : State), (s.posted = [])) ∧
    (∃ (p : Int) (s : State), (s.posted = [])) :=
  ⟨⟨(10), (-50000), (wS 4 [(SYS.FEAT_ACTIVE 0, 16), (CLO.FCLK_FAULT, 0x7FF)]), by decide +kernel⟩,
    ⟨(0), (50000), (wS 4 [(CLO.AWAKE, 1), (CLO.FCLK_FAULT, 0x7FF)]), by decide +kernel⟩,
    ⟨(3), (50001), (wS 4 [(CLO.AWAKE, 8)]), by decide +kernel⟩,
    ⟨(-60000), (wS 4 [(SYS.FEAT_ACTIVE 0, 16), (CLO.LOCKED, 0x400)]), by decide +kernel⟩,
    ⟨(3), (50001), (wS 4 []), by decide +kernel⟩,
    ⟨(3), (4), (50001), (-70000), (wS 4 [(CLO.AWAKE, 0x18)]), by decide +kernel⟩,
    ⟨(100001), (wS 4 []), by decide +kernel⟩,
    ⟨(-100000), (wS 4 [(CLO.REF_STAT_TCXO_DEV, 1)]), by decide +kernel⟩⟩

/-- The hypotheses of each clause of IlCombine are met. -/
theorem witness_IlCombine :
    (∃ (q : Fin 4) (k : Nat) (o : BitVec 24) (x : Bool) (s : State), (s.posted = []) ∧ (s.atOp q.val k 1 o = true) ∧ (s.readBit q.val k o = .ok x)) ∧
    (∃ (q : Fin 4) (k : Nat) (o : BitVec 24) (x : Bool) (s : State), (s.posted = []) ∧ (s.atOp q.val k 2 o = true) ∧ (s.readBit q.val k o = .ok x)) ∧
    (∃ (q : Fin 4) (k : Nat) (o : BitVec 24) (x : Bool) (s : State), (s.posted = []) ∧ (s.atOp q.val k 8 o = true) ∧ (s.readBit q.val k o = .ok x)) ∧
    (∃ (q : Fin 4) (k : Nat) (o : BitVec 24) (x : Bool) (s : State), (s.posted = []) ∧ (s.atOp q.val k 9 o = true) ∧ (s.readBit q.val k o = .ok x)) ∧
    (∃ (q : Fin 4) (k : Nat) (o : BitVec 24) (x : Bool) (s : State), (s.posted = []) ∧ (s.atOp q.val k 10 o = true) ∧ (s.readBit q.val k o = .ok x)) ∧
    (∃ (q : Fin 4) (k : Nat) (o : BitVec 24) (x : Bool) (s : State), (s.posted = []) ∧ (s.atOp q.val k 11 o = true) ∧ (s.readBit q.val k o = .ok x)) ∧
    (∃ (q : Fin 4) (k : Nat) (o : BitVec 24) (x : Bool) (s : State), (s.posted = []) ∧ (s.atOp q.val k 12 o = true) ∧ (s.readBit q.val k o = .ok x)) ∧
    (∃ (q : Fin 4) (k : Nat) (o : BitVec 24) (x : Bool) (s : State), (s.posted = []) ∧ (s.atOp q.val k 13 o = true) ∧ (s.readBit q.val k o = .ok x)) ∧
    (∃ (q : Fin 4) (k : Nat) (s : State), (s.posted = []) ∧ (s.atOp q.val k 14 0 = true)) ∧
    (∃ (q : Fin 4) (k : Nat) (s : State), (s.posted = []) ∧ (s.atOp q.val k 0 0 = true)) :=
  ⟨⟨(1), (2), (0x600021), (false), ((wSeq 1 [(2, { TaskRt.blank with isOpen := true, pc := 1, acc := true })] [0, ilWord 1 (0x600021), 0, 0] ⟨true, false, 10, 3, 0, 0, 100, [], []⟩).put (LSQ.SEQ_STAT_RUNNING 1) 2), by decide +kernel⟩,
    ⟨(1), (2), (0xE00001), (true), ((wSeq 1 [(2, { TaskRt.blank with isOpen := true, pc := 1, acc := true })] [0, ilWord 2 (0xE00001), 0, 0] ⟨true, false, 10, 3, 0, 0, 100, [], []⟩).put (LSQ.SEQ_STAT_RUNNING 1) 2), by decide +kernel⟩,
    ⟨(1), (2), (0x600021), (false), ((wSeq 1 [(2, { TaskRt.blank with isOpen := true, pc := 1, acc := true })] [0, ilWord 8 (0x600021), 0, 0] ⟨true, false, 10, 3, 0, 0, 100, [], []⟩).put (LSQ.SEQ_STAT_RUNNING 1) 2), by decide +kernel⟩,
    ⟨(1), (2), (0xE00001), (true), ((wSeq 1 [(2, { TaskRt.blank with isOpen := true, pc := 1, acc := true })] [0, ilWord 9 (0xE00001), 0, 0] ⟨true, false, 10, 3, 0, 0, 100, [], []⟩).put (LSQ.SEQ_STAT_RUNNING 1) 2), by decide +kernel⟩,
    ⟨(1), (2), (0x600021), (false), ((wSeq 1 [(2, { TaskRt.blank with isOpen := true, pc := 1, acc := true })] [0, ilWord 10 (0x600021), 0, 0] ⟨true, false, 10, 3, 0, 0, 100, [], []⟩).put (LSQ.SEQ_STAT_RUNNING 1) 2), by decide +kernel⟩,
    ⟨(1), (2), (0xE00001), (true), ((wSeq 1 [(2, { TaskRt.blank with isOpen := true, pc := 1, acc := true })] [0, ilWord 11 (0xE00001), 0, 0] ⟨true, false, 10, 3, 0, 0, 100, [], []⟩).put (LSQ.SEQ_STAT_RUNNING 1) 2), by decide +kernel⟩,
    ⟨(1), (2), (0x600021), (false), ((wSeq 1 [(2, { TaskRt.blank with isOpen := true, pc := 1, acc := true })] [0, ilWord 12 (0x600021), 0, 0] ⟨true, false, 10, 3, 0, 0, 100, [], []⟩).put (LSQ.SEQ_STAT_RUNNING 1) 2), by decide +kernel⟩,
    ⟨(1), (2), (0xE00001), (true), ((wSeq 1 [(2, { TaskRt.blank with isOpen := true, pc := 1, acc := true })] [0, ilWord 13 (0xE00001), 0, 0] ⟨true, false, 10, 3, 0, 0, 100, [], []⟩).put (LSQ.SEQ_STAT_RUNNING 1) 2), by decide +kernel⟩,
    ⟨(1), (2), ((wSeq 1 [(2, { TaskRt.blank with isOpen := true, pc := 1 })] [0, ilWord 14 (0), 0, 0] ⟨true, false, 10, 3, 0, 0, 100, [], []⟩).put (LSQ.SEQ_STAT_RUNNING 1) 2), by decide +kernel⟩,
    ⟨(1), (2), ((wSeq 1 [(2, { TaskRt.blank with isOpen := true, pc := 1 })] [0, ilWord 0 (0), 0, 0] ⟨true, false, 10, 3, 0, 0, 100, [], []⟩).put (LSQ.SEQ_STAT_RUNNING 1) 2), by decide +kernel⟩⟩

/-- The hypotheses of each clause of IlStore are met. -/
theorem witness_IlStore :
    (∃ (q : Fin 4) (k : Nat) (o : BitVec 24) (s : State), (s.posted = []) ∧ (s.atOp q.val k 4 o = true) ∧ (s.storeCause q.val k o = 0)) ∧
    (∃ (q : Fin 4) (k : Nat) (o : BitVec 24) (s : State), (s.posted = []) ∧ (s.atOp q.val k 5 o = true) ∧ (s.storeCause q.val k o = 0)) ∧
    (∃ (q : Fin 4) (k : Nat) (o : BitVec 24) (s : State), (s.posted = []) ∧ (s.atOp q.val k 6 o = true) ∧ (s.storeCause q.val k o = 0)) ∧
    (∃ (q : Fin 4) (k : Nat) (o : BitVec 24) (s : State), (s.posted = []) ∧ (s.atOp q.val k 7 o = true) ∧ (s.storeCause q.val k o = 0)) :=
  ⟨⟨(1), (2), (0x4000A5), ((wSeq 1 [(2, { TaskRt.blank with isOpen := true, pc := 1, acc := true })] [0, ilWord 4 (0x4000A5), 0, 0] ⟨true, false, 10, 3, 0, 0, 100, [], [5]⟩).put (LSQ.SEQ_STAT_RUNNING 1) 2), by decide +kernel⟩,
    ⟨(1), (2), (0x60FFFF), ((wSeq 1 [(2, { TaskRt.blank with isOpen := true, pc := 1, acc := true })] [0, ilWord 5 (0x60FFFF), 0, 0] ⟨true, false, 10, 3, 0, 0, 100, [], [5]⟩).put (LSQ.SEQ_STAT_RUNNING 1) 2), by decide +kernel⟩,
    ⟨(1), (2), (0x4000A5), ((wSeq 1 [(2, { TaskRt.blank with isOpen := true, pc := 1, acc := true })] [0, ilWord 6 (0x4000A5), 0, 0] ⟨true, false, 10, 3, 0, 0, 100, [], [5]⟩).put (LSQ.SEQ_STAT_RUNNING 1) 2), by decide +kernel⟩,
    ⟨(1), (2), (0x60FFFF), ((wSeq 1 [(2, { TaskRt.blank with isOpen := true, pc := 1, acc := true })] [0, ilWord 7 (0x60FFFF), 0, 0] ⟨true, false, 10, 3, 0, 0, 100, [], [5]⟩).put (LSQ.SEQ_STAT_RUNNING 1) 2), by decide +kernel⟩⟩

/-- The hypotheses of each clause of IlBranches are met. -/
theorem witness_IlBranches :
    (∃ (q : Fin 4) (k : Nat) (o : BitVec 24) (x : Bool) (s : State), (s.posted = []) ∧ (s.atOp q.val k 16 o = true) ∧ (s.readBit q.val k o = .ok x) ∧ ((s.task q.val k).stack.length < 16)) ∧
    (∃ (q : Fin 4) (k : Nat) (o : BitVec 24) (x : Bool) (s : State), (s.posted = []) ∧ (s.atOp q.val k 17 o = true) ∧ (s.readBit q.val k o = .ok x) ∧ ((s.task q.val k).stack.length < 16)) ∧
    (∃ (q : Fin 4) (k : Nat) (o : BitVec 24) (x : Bool) (s : State), (s.posted = []) ∧ (s.atOp q.val k 18 o = true) ∧ (s.readBit q.val k o = .ok x) ∧ ((s.task q.val k).stack.length < 16)) ∧
    (∃ (q : Fin 4) (k : Nat) (o : BitVec 24) (x : Bool) (s : State), (s.posted = []) ∧ (s.atOp q.val k 19 o = true) ∧ (s.readBit q.val k o = .ok x) ∧ ((s.task q.val k).stack.length < 16)) ∧
    (∃ (q : Fin 4) (k : Nat) (o : BitVec 24) (x : Bool) (s : State), (s.posted = []) ∧ (s.atOp q.val k 20 o = true) ∧ (s.readBit q.val k o = .ok x) ∧ ((s.task q.val k).stack.length < 16)) ∧
    (∃ (q : Fin 4) (k : Nat) (o : BitVec 24) (x : Bool) (s : State), (s.posted = []) ∧ (s.atOp q.val k 21 o = true) ∧ (s.readBit q.val k o = .ok x) ∧ ((s.task q.val k).stack.length < 16)) ∧
    (∃ (q : Fin 4) (k : Nat) (a : Bool) (d : SKind) (l : List (Bool × SKind)) (s : State), (s.posted = []) ∧ (s.atOp q.val k 22 0 = true) ∧ ((s.task q.val k).stack = (a, d) :: l) ∧ (d ≠ .dash)) ∧
    (∃ (q : Fin 4) (k : Nat) (s : State), (s.posted = []) ∧ (s.atOp q.val k 23 0 = true) ∧ ((s.task q.val k).stack.length < 16)) ∧
    (∃ (q : Fin 4) (k : Nat) (a : Bool) (l : List (Bool × SKind)) (s : State), (s.posted = []) ∧ (s.atOp q.val k 24 0 = true) ∧ ((s.task q.val k).stack = (a, .dash) :: l)) ∧
    (∃ (q : Fin 4) (k : Nat) (a : Bool) (l : List (Bool × SKind)) (s : State), (s.posted = []) ∧ (s.atOp q.val k 25 0 = true) ∧ ((s.task q.val k).stack = (a, .dash) :: l)) ∧
    (∃ (q : Fin 4) (k : Nat) (s : State), (s.posted = []) ∧ (s.atOp q.val k 23 0 = true) ∧ (16 ≤ (s.task q.val k).stack.length)) ∧
    (∃ (q : Fin 4) (k : Nat) (s : State), (s.posted = []) ∧ (s.atOp q.val k 22 0 = true) ∧ ((∀ e ∈ (s.task q.val k).stack[0]?, e.2 = SKind.dash))) ∧
    (∃ (q : Fin 4) (k : Nat) (o : BitVec 24) (x : Bool) (s : State), (s.posted = []) ∧ (s.atOp q.val k 16 o = true) ∧ (s.readBit q.val k o = .ok x) ∧ (16 ≤ (s.task q.val k).stack.length)) ∧
    (∃ (q : Fin 4) (k : Nat) (o : BitVec 24) (x : Bool) (s : State), (s.posted = []) ∧ (s.atOp q.val k 17 o = true) ∧ (s.readBit q.val k o = .ok x) ∧ (16 ≤ (s.task q.val k).stack.length)) ∧
    (∃ (q : Fin 4) (k : Nat) (o : BitVec 24) (x : Bool) (s : State), (s.posted = []) ∧ (s.atOp q.val k 18 o = true) ∧ (s.readBit q.val k o = .ok x) ∧ (16 ≤ (s.task q.val k).stack.length)) ∧
    (∃ (q : Fin 4) (k : Nat) (o : BitVec 24) (x : Bool) (s : State), (s.posted = []) ∧ (s.atOp q.val k 19 o = true) ∧ (s.readBit q.val k o = .ok x) ∧ (16 ≤ (s.task q.val k).stack.length)) ∧
    (∃ (q : Fin 4) (k : Nat) (o : BitVec 24) (x : Bool) (s : State), (s.posted = []) ∧ (s.atOp q.val k 20 o = true) ∧ (s.readBit q.val k o = .ok x) ∧ (16 ≤ (s.task q.val k).stack.length)) ∧
    (∃ (q : Fin 4) (k : Nat) (o : BitVec 24) (x : Bool) (s : State), (s.posted = []) ∧ (s.atOp q.val k 21 o = true) ∧ (s.readBit q.val k o = .ok x) ∧ (16 ≤ (s.task q.val k).stack.length)) ∧
    (∃ (q : Fin 4) (k : Nat) (s : State), (s.posted = []) ∧ (s.atOp q.val k 24 0 = true) ∧ ((∀ e ∈ (s.task q.val k).stack[0]?, e.2 ≠ SKind.dash))) ∧
    (∃ (q : Fin 4) (k : Nat) (s : State), (s.posted = []) ∧ (s.atOp q.val k 24 0 = true) ∧ ((∀ e ∈ (s.task q.val k).stack[0]?, e.2 ≠ SKind.dash))) ∧
    (∃ (q : Fin 4) (k : Nat) (s : State), (s.posted = []) ∧ (s.atOp q.val k 25 0 = true) ∧ ((∀ e ∈ (s.task q.val k).stack[0]?, e.2 ≠ SKind.dash))) ∧
    (∃ (q : Fin 4) (k : Nat) (s : State), (s.posted = []) ∧ (s.atOp q.val k 25 0 = true) ∧ ((∀ e ∈ (s.task q.val k).stack[0]?, e.2 ≠ SKind.dash))) :=
  ⟨⟨(1), (2), (0x600021), (false), ((wSeq 1 [(2, { TaskRt.blank with isOpen := true, pc := 1 })] [0, ilWord 16 (0x600021), 0, 0] ⟨true, false, 10, 3, 0, 0, 100, [], []⟩).put (LSQ.SEQ_STAT_RUNNING 1) 2), by decide +kernel⟩,
    ⟨(1), (2), (0xE00001), (true), ((wSeq 1 [(2, { TaskRt.blank with isOpen := true, pc := 1, stack := List.replicate 15 (false, .kor) })] [0, ilWord 17 (0xE00001), 0, 0] ⟨true, false, 10, 3, 0, 0, 100, [], []⟩).put (LSQ.SEQ_STAT_RUNNING 1) 2), by decide +kernel⟩,
    ⟨(1), (2), (0x600021), (false), ((wSeq 1 [(2, { TaskRt.blank with isOpen := true, pc := 1 })] [0, ilWord 18 (0x600021), 0, 0] ⟨true, false, 10, 3, 0, 0, 100, [], []⟩).put (LSQ.SEQ_STAT_RUNNING 1) 2), by decide +kernel⟩,
    ⟨(1), (2), (0xE00001), (true), ((wSeq 1 [(2, { TaskRt.blank with isOpen := true, pc := 1, stack := List.replicate 15 (false, .kor) })] [0, ilWord 19 (0xE00001), 0, 0] ⟨true, false, 10, 3, 0, 0, 100, [], []⟩).put (LSQ.SEQ_STAT_RUNNING 1) 2), by decide +kernel⟩,
    ⟨(1), (2), (0x600021), (false), ((wSeq 1 [(2, { TaskRt.blank with isOpen := true, pc := 1 })] [0, ilWord 20 (0x600021), 0, 0] ⟨true, false, 10, 3, 0, 0, 100, [], []⟩).put (LSQ.SEQ_STAT_RUNNING 1) 2), by decide +kernel⟩,
    ⟨(1), (2), (0xE00001), (true), ((wSeq 1 [(2, { TaskRt.blank with isOpen := true, pc := 1, stack := List.replicate 15 (false, .kor) })] [0, ilWord 21 (0xE00001), 0, 0] ⟨true, false, 10, 3, 0, 0, 100, [], []⟩).put (LSQ.SEQ_STAT_RUNNING 1) 2), by decide +kernel⟩,
    ⟨(1), (2), (true), (.kxor), ([(true, .dash)]), ((wSeq 1 [(2, { TaskRt.blank with isOpen := true, pc := 1, acc := true, stack := [(true, .kxor), (true, .dash)] })] [0, ilWord 22 (0), 0, 0] ⟨true, false, 10, 3, 0, 0, 100, [], []⟩).put (LSQ.SEQ_STAT_RUNNING 1) 2), by decide +kernel⟩,
    ⟨(1), (2), ((wSeq 1 [(2, { TaskRt.blank with isOpen := true, pc := 1, acc := true })] [0, ilWord 23 (0), 0, 0] ⟨true, false, 10, 3, 0, 0, 100, [], []⟩).put (LSQ.SEQ_STAT_RUNNING 1) 2), by decide +kernel⟩,
    ⟨(1), (2), (true), ([]), ((wSeq 1 [(2, { TaskRt.blank with isOpen := true, pc := 1, stack := [(true, .dash)] })] [0, ilWord 24 (0), 0, 0] ⟨true, false, 10, 3, 0, 0, 100, [], []⟩).put (LSQ.SEQ_STAT_RUNNING 1) 2), by decide +kernel⟩,
    ⟨(1), (2), (true), ([]), ((wSeq 1 [(2, { TaskRt.blank with isOpen := true, pc := 1, stack := [(true, .dash)] })] [0, ilWord 25 (0), 0, 0] ⟨true, false, 10, 3, 0, 0, 100, [], []⟩).put (LSQ.SEQ_STAT_RUNNING 1) 2), by decide +kernel⟩,
    ⟨(1), (2), ((wSeq 1 [(2, { TaskRt.blank with isOpen := true, pc := 1, stack := List.replicate 16 (false, .kor) })] [0, ilWord 23 (0), 0, 0] ⟨true, false, 10, 3, 0, 0, 100, [], []⟩).put (LSQ.SEQ_STAT_RUNNING 1) 2), by decide +kernel⟩,
    ⟨(1), (2), ((wSeq 1 [(2, { TaskRt.blank with isOpen := true, pc := 1 })] [0, ilWord 22 (0), 0, 0] ⟨true, false, 10, 3, 0, 0, 100, [], []⟩).put (LSQ.SEQ_STAT_RUNNING 1) 2), by decide +kernel⟩,
    ⟨(1), (2), (0x600021), (false), ((wSeq 1 [(2, { TaskRt.blank with isOpen := true, pc := 1, stack := List.replicate 16 (false, .kor) })] [0, ilWord 16 (0x600021), 0, 0] ⟨true, false, 10, 3, 0, 0, 100, [], []⟩).put (LSQ.SEQ_STAT_RUNNING 1) 2), by decide +kernel⟩,
    ⟨(1), (2), (0x600021), (false), ((wSeq 1 [(2, { TaskRt.blank with isOpen := true, pc := 1, stack := List.replicate 16 (false, .kor) })] [0, ilWord 17 (0x600021), 0, 0] ⟨true, false, 10, 3, 0, 0, 100, [], []⟩).put (LSQ.SEQ_STAT_RUNNING 1) 2), by decide +kernel⟩,
    ⟨(1), (2), (0x600021), (false), ((wSeq 1 [(2, { TaskRt.blank with isOpen := true, pc := 1, stack := List.replicate 16 (false, .kor) })] [0, ilWord 18 (0x600021), 0, 0] ⟨true, false, 10, 3, 0, 0, 100, [], []⟩).put (LSQ.SEQ_STAT_RUNNING 1) 2), by decide +kernel⟩,
    ⟨(1), (2), (0x600021), (false), ((wSeq 1 [(2, { TaskRt.blank with isOpen := true, pc := 1, stack := List.replicate 16 (false, .kor) })] [0, ilWord 19 (0x600021), 0, 0] ⟨true, false, 10, 3, 0, 0, 100, [], []⟩).put (LSQ.SEQ_STAT_RUNNING 1) 2), by decide +kernel⟩,
    ⟨(1), (2), (0x600021), (false), ((wSeq 1 [(2, { TaskRt.blank with isOpen := true, pc := 1, stack := List.replicate 16 (false, .kor) })] [0, ilWord 20 (0x600021), 0, 0] ⟨true, false, 10, 3, 0, 0, 100, [], []⟩).put (LSQ.SEQ_STAT_RUNNING 1) 2), by decide +kernel⟩,
    ⟨(1), (2), (0x600021), (false), ((wSeq 1 [(2, { TaskRt.blank with isOpen := true, pc := 1, stack := List.replicate 16 (false, .kor) })] [0, ilWord 21 (0x600021), 0, 0] ⟨true, false, 10, 3, 0, 0, 100, [], []⟩).put (LSQ.SEQ_STAT_RUNNING 1) 2), by decide +kernel⟩,
    ⟨(1), (2), ((wSeq 1 [(2, { TaskRt.blank with isOpen := true, pc := 1, stack := [(true, .kor), (true, .dash)] })] [0, ilWord 24 (0), 0, 0] ⟨true, false, 10, 3, 0, 0, 100, [], []⟩).put (LSQ.SEQ_STAT_RUNNING 1) 2), by decide +kernel⟩,
    ⟨(1), (2), ((wSeq 1 [(2, { TaskRt.blank with isOpen := true, pc := 1 })] [0, ilWord 24 (0), 0, 0] ⟨true, false, 10, 3, 0, 0, 100, [], []⟩).put (LSQ.SEQ_STAT_RUNNING 1) 2), by decide +kernel⟩,
    ⟨(1), (2), ((wSeq 1 [(2, { TaskRt.blank with isOpen := true, pc := 1, stack := [(true, .kor), (true, .dash)] })] [0, ilWord 25 (0), 0, 0] ⟨true, false, 10, 3, 0, 0, 100, [], []⟩).put (LSQ.SEQ_STAT_RUNNING 1) 2), by decide +kernel⟩,
    ⟨(1), (2), ((wSeq 1 [(2, { TaskRt.blank with isOpen := true, pc := 1 })] [0, ilWord 25 (0), 0, 0] ⟨true, false, 10, 3, 0, 0, 100, [], []⟩).put (LSQ.SEQ_STAT_RUNNING 1) 2), by decide +kernel⟩⟩

/-- The hypotheses of each clause of IlEdges are met. -/
theorem witness_IlEdges :
    (∃ (q : Fin 4) (k : Nat) (n : Nat) (e : Edg) (s : State), (s.posted = []) ∧ (n < 8192) ∧ (s.atOp q.val k 32 (BitVec.ofNat 24 n) = true) ∧ ((s.seqOf q.val).edges[n]? = some e)) ∧
    (∃ (q : Fin 4) (k : Nat) (n : Nat) (e : Edg) (s : State), (s.posted = []) ∧ (n < 8192) ∧ (s.atOp q.val k 33 (BitVec.ofNat 24 n) = true) ∧ ((s.seqOf q.val).edges[n]? = some e)) :=
  ⟨⟨(1), (2), (1), (⟨false, true⟩), (({ wS 4 [(LSQ.SEQ_STAT_SCHED_RUN 1, 1), (CLO.AWAKE, 0x20), (CLO.LOCKED, 0x20), (LSQ.SEQ_STAT_RUNNING 1, 2)] with seqs := [(1, { Seq.blank with bank0 := some ⟨1, List.replicate 10 ⟨true, false, 10, 3, 0, 0, 100, [], []⟩, [0, ilWord 32 1, 0], [], [], 0, [], [], []⟩, tasks := [(2, { TaskRt.blank with isOpen := true, pc := 1, acc := true })], edges := [⟨false, false⟩, ⟨false, true⟩] })] } : State)), by decide +kernel⟩,
    ⟨(1), (2), (1), (⟨true, true⟩), (({ wS 4 [(LSQ.SEQ_STAT_SCHED_RUN 1, 1), (CLO.AWAKE, 0x20), (CLO.LOCKED, 0x20), (LSQ.SEQ_STAT_RUNNING 1, 2)] with seqs := [(1, { Seq.blank with bank0 := some ⟨1, List.replicate 10 ⟨true, false, 10, 3, 0, 0, 100, [], []⟩, [0, ilWord 33 1, 0], [], [], 0, [], [], []⟩, tasks := [(2, { TaskRt.blank with isOpen := true, pc := 1 })], edges := [⟨false, false⟩, ⟨true, true⟩] })] } : State)), by decide +kernel⟩⟩

/-- The hypotheses of each clause of IlTimers are met. -/
theorem witness_IlTimers :
    (∃ (q : Fin 4) (k : Nat) (n : Nat) (p : Nat) (m : Tmr) (d : TimerDesc) (i : SeqImage) (s : State), (s.posted = []) ∧ (n < 8192) ∧ (s.atOp q.val k 36 (BitVec.ofNat 24 n) = true) ∧ ((s.seqOf q.val).timers[n]? = some m) ∧ (s.image q.val = some i) ∧ (i.timers[n]? = some d) ∧ (d.ty = 1) ∧ ((match d.slot with | none => some d.pt | some u => ((s.task q.val k).inImg.find? (fun e => e.1 == u)).map (fun e => e.2.value.toNat)) = some p)) ∧
    (∃ (q : Fin 4) (k : Nat) (n : Nat) (p : Nat) (m : Tmr) (d : TimerDesc) (i : SeqImage) (s : State), (s.posted = []) ∧ (n < 8192) ∧ (s.atOp q.val k 37 (BitVec.ofNat 24 n) = true) ∧ ((s.seqOf q.val).timers[n]? = some m) ∧ (s.image q.val = some i) ∧ (i.timers[n]? = some d) ∧ (d.ty = 2) ∧ ((match d.slot with | none => some d.pt | some u => ((s.task q.val k).inImg.find? (fun e => e.1 == u)).map (fun e => e.2.value.toNat)) = some p)) ∧
    (∃ (q : Fin 4) (k : Nat) (n : Nat) (p : Nat) (m : Tmr) (d : TimerDesc) (i : SeqImage) (s : State), (s.posted = []) ∧ (n < 8192) ∧ (s.atOp q.val k 38 (BitVec.ofNat 24 n) = true) ∧ ((s.seqOf q.val).timers[n]? = some m) ∧ (s.image q.val = some i) ∧ (i.timers[n]? = some d) ∧ (d.ty = 3) ∧ ((match d.slot with | none => some d.pt | some u => ((s.task q.val k).inImg.find? (fun e => e.1 == u)).map (fun e => e.2.value.toNat)) = some p)) ∧
    (∃ (tc : BitVec 64) (p : Nat) (m : Tmr), (m.running = false) ∧ (0 < p) ∧ (p < 2 ^ 32)) ∧
    (∃ (tc : BitVec 64) (m : Tmr), (m.running = true)) ∧
    (∃ (tc : BitVec 64) (m : Tmr), (m.running = true)) ∧
    (∃ (tc : BitVec 64) (p : Nat) (m : Tmr), (m.running = false) ∧ (m.seen = true) ∧ (m.inPrev = true)) ∧
    (∃ (tc : BitVec 64) (m : Tmr), (m.running = true) ∧ (m.seen = true) ∧ (m.inPrev = false)) ∧
    (∃ (tc : BitVec 64) (p : Nat) (m : Tmr), (m.running = false) ∧ (m.seen = true) ∧ (m.inPrev = false)) ∧
    (∃ (tc : BitVec 64) (x : Bool) (m : Tmr), (m.running = true) ∧ (m.seen = true) ∧ ((x = false ∨ m.inPrev = true))) :=
  ⟨⟨(1), (2), (0), (5), (Tmr.blank), (⟨1, 5, none⟩), (⟨1, List.replicate 10 ⟨true, false, 10, 3, 0, 0, 100, [], []⟩, [0, ilWord 36 0, 0], [⟨1, 5, none⟩], [], 0, [], [], []⟩), (({ wS 4 [(LSQ.SEQ_STAT_SCHED_RUN 1, 1), (CLO.AWAKE, 0x20), (CLO.LOCKED, 0x20), (LSQ.SEQ_STAT_RUNNING 1, 2)] with seqs := [(1, { Seq.blank with bank0 := some ⟨1, List.replicate 10 ⟨true, false, 10, 3, 0, 0, 100, [], []⟩, [0, ilWord 36 0, 0], [⟨1, 5, none⟩], [], 0, [], [], []⟩, tasks := [(2, { TaskRt.blank with isOpen := true, pc := 1, acc := true })], timers := [Tmr.blank] })] } : State)), by decide +kernel⟩,
    ⟨(1), (2), (0), (5), (Tmr.blank), (⟨2, 5, none⟩), (⟨1, List.replicate 10 ⟨true, false, 10, 3, 0, 0, 100, [], []⟩, [0, ilWord 37 0, 0], [⟨2, 5, none⟩], [], 0, [], [], []⟩), (({ wS 4 [(LSQ.SEQ_STAT_SCHED_RUN 1, 1), (CLO.AWAKE, 0x20), (CLO.LOCKED, 0x20), (LSQ.SEQ_STAT_RUNNING 1, 2)] with seqs := [(1, { Seq.blank with bank0 := some ⟨1, List.replicate 10 ⟨true, false, 10, 3, 0, 0, 100, [], []⟩, [0, ilWord 37 0, 0], [⟨2, 5, none⟩], [], 0, [], [], []⟩, tasks := [(2, { TaskRt.blank with isOpen := true, pc := 1, acc := true })], timers := [Tmr.blank] })] } : State)), by decide +kernel⟩,
    ⟨(1), (2), (0), (5), (Tmr.blank), (⟨3, 5, none⟩), (⟨1, List.replicate 10 ⟨true, false, 10, 3, 0, 0, 100, [], []⟩, [0, ilWord 38 0, 0], [⟨3, 5, none⟩], [], 0, [], [], []⟩), (({ wS 4 [(LSQ.SEQ_STAT_SCHED_RUN 1, 1), (CLO.AWAKE, 0x20), (CLO.LOCKED, 0x20), (LSQ.SEQ_STAT_RUNNING 1, 2)] with seqs := [(1, { Seq.blank with bank0 := some ⟨1, List.replicate 10 ⟨true, false, 10, 3, 0, 0, 100, [], []⟩, [0, ilWord 38 0, 0], [⟨3, 5, none⟩], [], 0, [], [], []⟩, tasks := [(2, { TaskRt.blank with isOpen := true, pc := 1, acc := true })], timers := [Tmr.blank] })] } : State)), by decide +kernel⟩,
    ⟨(5), (3), (Tmr.blank), by decide +kernel⟩,
    ⟨(5), (⟨3, true, true, false, 5, true⟩), by decide +kernel⟩,
    ⟨(4), (⟨3, true, true, false, 5, true⟩), by decide +kernel⟩,
    ⟨(5), (3), (⟨3, false, true, true, 5, true⟩), by decide +kernel⟩,
    ⟨(5), (⟨3, true, false, true, 5, true⟩), by decide +kernel⟩,
    ⟨(5), (3), (⟨3, false, false, false, 5, true⟩), by decide +kernel⟩,
    ⟨(5), (true), (⟨3, true, true, true, 5, true⟩), by decide +kernel⟩⟩

/-- The hypotheses of each clause of IlCounters are met. -/
theorem witness_IlCounters :
    (∃ (q : Fin 4) (k : Nat) (n : Nat) (c : Ctr) (d : CounterDesc) (i : SeqImage) (p : Int) (v : Int) (s : State), (s.posted = []) ∧ (n < 8192) ∧ (s.atOp q.val k 40 (BitVec.ofNat 24 n) = true) ∧ ((s.seqOf q.val).counters[n]? = some c) ∧ (s.image q.val = some i) ∧ (i.counters[n]? = some d) ∧ ((match d.slot with | none => some d.pv.toInt | some u => ((s.task q.val k).inImg.find? (fun e => e.1 == u)).map (fun e => e.2.value.toInt)) = some p) ∧ (v = (if c.seenU && (s.task q.val k).acc && !c.cuPrev then min (c.cv + 1) (2 ^ 31 - 1) else c.cv))) ∧
    (∃ (q : Fin 4) (k : Nat) (n : Nat) (c : Ctr) (d : CounterDesc) (i : SeqImage) (p : Int) (v : Int) (s : State), (s.posted = []) ∧ (n < 8192) ∧ (s.atOp q.val k 41 (BitVec.ofNat 24 n) = true) ∧ ((s.seqOf q.val).counters[n]? = some c) ∧ (s.image q.val = some i) ∧ (i.counters[n]? = some d) ∧ ((match d.slot with | none => some d.pv.toInt | some u => ((s.task q.val k).inImg.find? (fun e => e.1 == u)).map (fun e => e.2.value.toInt)) = some p) ∧ (v = (if c.seenD && (s.task q.val k).acc && !c.cdPrev then max (c.cv - 1) (-(2 ^ 31)) else c.cv))) ∧
    (∃ (q : Fin 4) (k : Nat) (n : Nat) (c : Ctr) (d : CounterDesc) (i : SeqImage) (p : Int) (v : Int) (s : State), (s.posted = []) ∧ (n < 8192) ∧ (s.atOp q.val k 42 (BitVec.ofNat 24 n) = true) ∧ ((s.seqOf q.val).counters[n]? = some c) ∧ (s.image q.val = some i) ∧ (i.counters[n]? = some d) ∧ ((match d.slot with | none => some d.pv.toInt | some u => ((s.task q.val k).inImg.find? (fun e => e.1 == u)).map (fun e => e.2.value.toInt)) = some p) ∧ (v = (if (s.task q.val k).acc then 0 else c.cv))) ∧
    (∃ (q : Fin 4) (k : Nat) (n : Nat) (c : Ctr) (d : CounterDesc) (i : SeqImage) (p : Int) (v : Int) (s : State), (s.posted = []) ∧ (n < 8192) ∧ (s.atOp q.val k 43 (BitVec.ofNat 24 n) = true) ∧ ((s.seqOf q.val).counters[n]? = some c) ∧ (s.image q.val = some i) ∧ (i.counters[n]? = some d) ∧ ((match d.slot with | none => some d.pv.toInt | some u => ((s.task q.val k).inImg.find? (fun e => e.1 == u)).map (fun e => e.2.value.toInt)) = some p) ∧ (v = (if (s.task q.val k).acc then p else c.cv))) :=
  ⟨⟨(1), (2), (0), (⟨2 ^ 31 - 1, 0, false, false, true, false, true, false⟩), (⟨BitVec.ofInt 32 (-5), none⟩), (⟨1, List.replicate 10 ⟨true, false, 10, 3, 0, 0, 100, [], []⟩, [0, ilWord 40 0, 0], [], [⟨BitVec.ofInt 32 (-5), none⟩], 0, [], [], []⟩), (-5), (2 ^ 31 - 1), (({ wS 4 [(LSQ.SEQ_STAT_SCHED_RUN 1, 1), (CLO.AWAKE, 0x20), (CLO.LOCKED, 0x20), (LSQ.SEQ_STAT_RUNNING 1, 2)] with seqs := [(1, { Seq.blank with bank0 := some ⟨1, List.replicate 10 ⟨true, false, 10, 3, 0, 0, 100, [], []⟩, [0, ilWord 40 0, 0], [], [⟨BitVec.ofInt 32 (-5), none⟩], 0, [], [], []⟩, tasks := [(2, { TaskRt.blank with isOpen := true, pc := 1, acc := true })], counters := [⟨2 ^ 31 - 1, 0, false, false, true, false, true, false⟩] })] } : State)), by decide +kernel⟩,
    ⟨(1), (2), (0), (⟨-(2 ^ 31), 0, false, false, true, false, true, true⟩), (⟨BitVec.ofInt 32 (-5), none⟩), (⟨1, List.replicate 10 ⟨true, false, 10, 3, 0, 0, 100, [], []⟩, [0, ilWord 41 0, 0], [], [⟨BitVec.ofInt 32 (-5), none⟩], 0, [], [], []⟩), (-5), (-(2 ^ 31)), (({ wS 4 [(LSQ.SEQ_STAT_SCHED_RUN 1, 1), (CLO.AWAKE, 0x20), (CLO.LOCKED, 0x20), (LSQ.SEQ_STAT_RUNNING 1, 2)] with seqs := [(1, { Seq.blank with bank0 := some ⟨1, List.replicate 10 ⟨true, false, 10, 3, 0, 0, 100, [], []⟩, [0, ilWord 41 0, 0], [], [⟨BitVec.ofInt 32 (-5), none⟩], 0, [], [], []⟩, tasks := [(2, { TaskRt.blank with isOpen := true, pc := 1, acc := true })], counters := [⟨-(2 ^ 31), 0, false, false, true, false, true, true⟩] })] } : State)), by decide +kernel⟩,
    ⟨(1), (2), (0), (⟨9, 0, false, false, true, false, true, true⟩), (⟨BitVec.ofInt 32 (-5), none⟩), (⟨1, List.replicate 10 ⟨true, false, 10, 3, 0, 0, 100, [], []⟩, [0, ilWord 42 0, 0], [], [⟨BitVec.ofInt 32 (-5), none⟩], 0, [], [], []⟩), (-5), (0), (({ wS 4 [(LSQ.SEQ_STAT_SCHED_RUN 1, 1), (CLO.AWAKE, 0x20), (CLO.LOCKED, 0x20), (LSQ.SEQ_STAT_RUNNING 1, 2)] with seqs := [(1, { Seq.blank with bank0 := some ⟨1, List.replicate 10 ⟨true, false, 10, 3, 0, 0, 100, [], []⟩, [0, ilWord 42 0, 0], [], [⟨BitVec.ofInt 32 (-5), none⟩], 0, [], [], []⟩, tasks := [(2, { TaskRt.blank with isOpen := true, pc := 1, acc := true })], counters := [⟨9, 0, false, false, true, false, true, true⟩] })] } : State)), by decide +kernel⟩,
    ⟨(1), (2), (0), (⟨9, 0, false, false, true, false, true, true⟩), (⟨BitVec.ofInt 32 (-5), none⟩), (⟨1, List.replicate 10 ⟨true, false, 10, 3, 0, 0, 100, [], []⟩, [0, ilWord 43 0, 0], [], [⟨BitVec.ofInt 32 (-5), none⟩], 0, [], [], []⟩), (-5), (-5), (({ wS 4 [(LSQ.SEQ_STAT_SCHED_RUN 1, 1), (CLO.AWAKE, 0x20), (CLO.LOCKED, 0x20), (LSQ.SEQ_STAT_RUNNING 1, 2)] with seqs := [(1, { Seq.blank with bank0 := some ⟨1, List.replicate 10 ⟨true, false, 10, 3, 0, 0, 100, [], []⟩, [0, ilWord 43 0, 0], [], [⟨BitVec.ofInt 32 (-5), none⟩], 0, [], [], []⟩, tasks := [(2, { TaskRt.blank with isOpen := true, pc := 1, acc := true })], counters := [⟨9, 0, false, false, true, false, true, true⟩] })] } : State)), by decide +kernel⟩⟩

/-- The hypotheses of each clause of IlJumps are met. -/
theorem witness_IlJumps :
    (∃ (q : Fin 4) (k : Nat) (n : Nat) (s : State), (s.posted = []) ∧ (n < 2 ^ 18) ∧ (s.atOp q.val k 48 (BitVec.ofNat 24 n) = true) ∧ ((s.task q.val k).pc < n) ∧ (n < s.codeEnd q.val k)) ∧
    (∃ (q : Fin 4) (k : Nat) (n : Nat) (s : State), (s.posted = []) ∧ (n < 2 ^ 18) ∧ (s.atOp q.val k 48 (BitVec.ofNat 24 n) = true) ∧ ((n ≤ (s.task q.val k).pc ∨ s.codeEnd q.val k ≤ n))) ∧
    (∃ (q : Fin 4) (k : Nat) (n : Nat) (s : State), (s.posted = []) ∧ (n < 2 ^ 18) ∧ (s.atOp q.val k 48 (BitVec.ofNat 24 n) = true) ∧ ((n ≤ (s.task q.val k).pc ∨ s.codeEnd q.val k ≤ n))) ∧
    (∃ (q : Fin 4) (k : Nat) (n : Nat) (s : State), (s.posted = []) ∧ (n < 2 ^ 18) ∧ (s.atOp q.val k 49 (BitVec.ofNat 24 n) = true) ∧ ((s.task q.val k).pc < n) ∧ (n < s.codeEnd q.val k)) ∧
    (∃ (q : Fin 4) (k : Nat) (n : Nat) (s : State), (s.posted = []) ∧ (n < 2 ^ 18) ∧ (s.atOp q.val k 49 (BitVec.ofNat 24 n) = true) ∧ ((n ≤ (s.task q.val k).pc ∨ s.codeEnd q.val k ≤ n))) ∧
    (∃ (q : Fin 4) (k : Nat) (n : Nat) (s : State), (s.posted = []) ∧ (n < 2 ^ 18) ∧ (s.atOp q.val k 49 (BitVec.ofNat 24 n) = true) ∧ ((n ≤ (s.task q.val k).pc ∨ s.codeEnd q.val k ≤ n))) ∧
    (∃ (q : Fin 4) (k : Nat) (n : Nat) (s : State), (s.posted = []) ∧ (n < 2 ^ 18) ∧ (s.atOp q.val k 50 (BitVec.ofNat 24 n) = true) ∧ ((s.task q.val k).pc < n) ∧ (n < s.codeEnd q.val k)) ∧
    (∃ (q : Fin 4) (k : Nat) (n : Nat) (s : State), (s.posted = []) ∧ (n < 2 ^ 18) ∧ (s.atOp q.val k 50 (BitVec.ofNat 24 n) = true) ∧ ((n ≤ (s.task q.val k).pc ∨ s.codeEnd q.val k ≤ n))) ∧
    (∃ (q : Fin 4) (k : Nat) (n : Nat) (s : State), (s.posted = []) ∧ (n < 2 ^ 18) ∧ (s.atOp q.val k 50 (BitVec.ofNat 24 n) = true) ∧ ((n ≤ (s.task q.val k).pc ∨ s.codeEnd q.val k ≤ n))) :=
  ⟨⟨(1), (2), (3), ((wSeq 1 [(2, { TaskRt.blank with isOpen := true, pc := 1, acc := true })] [0, ilWord 48 (3), 0, 0] ⟨true, false, 10, 3, 0, 0, 100, [], []⟩).put (LSQ.SEQ_STAT_RUNNING 1) 2), by decide +kernel⟩,
    ⟨(1), (2), (1), ((wSeq 1 [(2, { TaskRt.blank with isOpen := true, pc := 1, acc := true })] [0, ilWord 48 (1), 0, 0] ⟨true, false, 10, 3, 0, 0, 100, [], []⟩).put (LSQ.SEQ_STAT_RUNNING 1) 2), by decide +kernel⟩,
    ⟨(1), (2), (4), ((wSeq 1 [(2, { TaskRt.blank with isOpen := true, pc := 1 })] [0, ilWord 48 (4), 0, 0] ⟨true, false, 10, 3, 0, 0, 100, [], []⟩).put (LSQ.SEQ_STAT_RUNNING 1) 2), by decide +kernel⟩,
    ⟨(1), (2), (3), ((wSeq 1 [(2, { TaskRt.blank with isOpen := true, pc := 1, acc := true })] [0, ilWord 49 (3), 0, 0] ⟨true, false, 10, 3, 0, 0, 100, [], []⟩).put (LSQ.SEQ_STAT_RUNNING 1) 2), by decide +kernel⟩,
    ⟨(1), (2), (1), ((wSeq 1 [(2, { TaskRt.blank with isOpen := true, pc := 1, acc := true })] [0, ilWord 49 (1), 0, 0] ⟨true, false, 10, 3, 0, 0, 100, [], []⟩).put (LSQ.SEQ_STAT_RUNNING 1) 2), by decide +kernel⟩,
    ⟨(1), (2), (4), ((wSeq 1 [(2, { TaskRt.blank with isOpen := true, pc := 1 })] [0, ilWord 49 (4), 0, 0] ⟨true, false, 10, 3, 0, 0, 100, [], []⟩).put (LSQ.SEQ_STAT_RUNNING 1) 2), by decide +kernel⟩,
    ⟨(1), (2), (3), ((wSeq 1 [(2, { TaskRt.blank with isOpen := true, pc := 1, acc := true })] [0, ilWord 50 (3), 0, 0] ⟨true, false, 10, 3, 0, 0, 100, [], []⟩).put (LSQ.SEQ_STAT_RUNNING 1) 2), by decide +kernel⟩,
    ⟨(1), (2), (1), ((wSeq 1 [(2, { TaskRt.blank with isOpen := true, pc := 1, acc := true })] [0, ilWord 50 (1), 0, 0] ⟨true, false, 10, 3, 0, 0, 100, [], []⟩).put (LSQ.SEQ_STAT_RUNNING 1) 2), by decide +kernel⟩,
    ⟨(1), (2), (4), ((wSeq 1 [(2, { TaskRt.blank with isOpen := true, pc := 1 })] [0, ilWord 50 (4), 0, 0] ⟨true, false, 10, 3, 0, 0, 100, [], []⟩).put (LSQ.SEQ_STAT_RUNNING 1) 2), by decide +kernel⟩⟩

/-- The hypotheses of each clause of IlCalls are met. -/
theorem witness_IlCalls :
    (∃ (q : Fin 4) (k : Nat) (n : Nat) (b : Nat) (i : SeqImage) (s : State), (s.posted = []) ∧ (n < 65536) ∧ (s.atOp q.val k 52 (BitVec.ofNat 24 n) = true) ∧ (s.image q.val = some i) ∧ (i.fbs[n]? = some b)) ∧
    (∃ (q : Fin 4) (k : Nat) (n : Nat) (b : Nat) (i : SeqImage) (s : State), (s.posted = []) ∧ (n < 65536) ∧ (s.atOp q.val k 53 (BitVec.ofNat 24 n) = true) ∧ (s.image q.val = some i) ∧ (i.fbs[n]? = some b) ∧ ((s.task q.val k).acc = true)) ∧
    (∃ (q : Fin 4) (k : Nat) (n : Nat) (s : State), (s.posted = []) ∧ (n < 65536) ∧ (s.atOp q.val k 53 (BitVec.ofNat 24 n) = true) ∧ ((s.task q.val k).acc = false)) ∧
    (∃ (q : Fin 4) (k : Nat) (n : Nat) (b : Nat) (i : SeqImage) (s : State), (s.posted = []) ∧ (n < 65536) ∧ (s.atOp q.val k 54 (BitVec.ofNat 24 n) = true) ∧ (s.image q.val = some i) ∧ (i.fbs[n]? = some b) ∧ ((s.task q.val k).acc = false)) ∧
    (∃ (q : Fin 4) (k : Nat) (n : Nat) (s : State), (s.posted = []) ∧ (n < 65536) ∧ (s.atOp q.val k 54 (BitVec.ofNat 24 n) = true) ∧ ((s.task q.val k).acc = true)) ∧
    (∃ (q : Fin 4) (k : Fin 10) (eno : Bool) (l : List CalResult) (v : Seq) (s : State), (s.posted = []) ∧ (s.inCal q.val k.val = true) ∧ (s.mono ≤ (s.task q.val k.val).calSince + us (s.task q.val k.val).calBudget) ∧ (s.domRuns q.val = true) ∧ (l.length ≤ 64) ∧ ((s.task q.val k.val).pc < s.codeEnd q.val k.val) ∧ ((s.seqOf q.val).applyResults (s.imgTask q.val k.val).outputs l = some v)) ∧
    (∃ (q : Fin 4) (k : Fin 10) (s : State), (s.posted = []) ∧ (s.inCal q.val k.val = true) ∧ ((s.task q.val k.val).pc < s.codeEnd q.val k.val)) ∧
    (∃ (q : Fin 4) (k : Nat) (w : Word) (s : State), (s.posted = []) ∧ (s.seqLive q.val = true) ∧ (s.ilTask q.val = some k) ∧ (s.ilCode q.val = some w) ∧ (ilUndefined w = true)) ∧
    (∃ (q : Fin 4) (k : Nat) (w : Word) (s : State), (s.posted = []) ∧ (s.seqLive q.val = true) ∧ (s.ilTask q.val = some k) ∧ (s.ilCode q.val = some w) ∧ (ilUndefined w = true)) :=
  ⟨⟨(1), (2), (0), (70), (⟨1, List.replicate 10 ⟨true, false, 10, 3, 0, 0, 100, [], []⟩, [0, ilWord 52 0, 0], [], [], 0, [70], [], []⟩), (({ wS 4 [(LSQ.SEQ_STAT_SCHED_RUN 1, 1), (CLO.AWAKE, 0x20), (CLO.LOCKED, 0x20), (LSQ.SEQ_STAT_RUNNING 1, 2)] with seqs := [(1, { Seq.blank with bank0 := some ⟨1, List.replicate 10 ⟨true, false, 10, 3, 0, 0, 100, [], []⟩, [0, ilWord 52 0, 0], [], [], 0, [70], [], []⟩, tasks := [(2, { TaskRt.blank with isOpen := true, pc := 1 })] })] } : State)), by decide +kernel⟩,
    ⟨(1), (2), (0), (70), (⟨1, List.replicate 10 ⟨true, false, 10, 3, 0, 0, 100, [], []⟩, [0, ilWord 53 0, 0], [], [], 0, [70], [], []⟩), (({ wS 4 [(LSQ.SEQ_STAT_SCHED_RUN 1, 1), (CLO.AWAKE, 0x20), (CLO.LOCKED, 0x20), (LSQ.SEQ_STAT_RUNNING 1, 2)] with seqs := [(1, { Seq.blank with bank0 := some ⟨1, List.replicate 10 ⟨true, false, 10, 3, 0, 0, 100, [], []⟩, [0, ilWord 53 0, 0], [], [], 0, [70], [], []⟩, tasks := [(2, { TaskRt.blank with isOpen := true, pc := 1, acc := true })] })] } : State)), by decide +kernel⟩,
    ⟨(1), (2), (0), (({ wS 4 [(LSQ.SEQ_STAT_SCHED_RUN 1, 1), (CLO.AWAKE, 0x20), (CLO.LOCKED, 0x20), (LSQ.SEQ_STAT_RUNNING 1, 2)] with seqs := [(1, { Seq.blank with bank0 := some ⟨1, List.replicate 10 ⟨true, false, 10, 3, 0, 0, 100, [], []⟩, [0, ilWord 53 0, 0], [], [], 0, [70], [], []⟩, tasks := [(2, { TaskRt.blank with isOpen := true, pc := 1 })] })] } : State)), by decide +kernel⟩,
    ⟨(1), (2), (0), (70), (⟨1, List.replicate 10 ⟨true, false, 10, 3, 0, 0, 100, [], []⟩, [0, ilWord 54 0, 0], [], [], 0, [70], [], []⟩), (({ wS 4 [(LSQ.SEQ_STAT_SCHED_RUN 1, 1), (CLO.AWAKE, 0x20), (CLO.LOCKED, 0x20), (LSQ.SEQ_STAT_RUNNING 1, 2)] with seqs := [(1, { Seq.blank with bank0 := some ⟨1, List.replicate 10 ⟨true, false, 10, 3, 0, 0, 100, [], []⟩, [0, ilWord 54 0, 0], [], [], 0, [70], [], []⟩, tasks := [(2, { TaskRt.blank with isOpen := true, pc := 1 })] })] } : State)), by decide +kernel⟩,
    ⟨(1), (2), (0), (({ wS 4 [(LSQ.SEQ_STAT_SCHED_RUN 1, 1), (CLO.AWAKE, 0x20), (CLO.LOCKED, 0x20), (LSQ.SEQ_STAT_RUNNING 1, 2)] with seqs := [(1, { Seq.blank with bank0 := some ⟨1, List.replicate 10 ⟨true, false, 10, 3, 0, 0, 100, [], []⟩, [0, ilWord 54 0, 0], [], [], 0, [70], [], []⟩, tasks := [(2, { TaskRt.blank with isOpen := true, pc := 1, acc := true })] })] } : State)), by decide +kernel⟩,
    ⟨(1), (2), (true), ([.m 3 7]), (((({ wS 4 [(LSQ.SEQ_STAT_SCHED_RUN 1, 1), (CLO.AWAKE, 0x20), (CLO.LOCKED, 0x20), (LSQ.SEQ_STAT_RUNNING 1, 2)] with seqs := [(1, { Seq.blank with bank0 := some ⟨1, List.replicate 10 ⟨true, false, 10, 3, 0, 0, 100, [], []⟩, [0, ilWord 52 0, 0], [], [], 0, [70], [], []⟩, tasks := [(2, { TaskRt.blank with isOpen := true, pc := 1, calBudget := 70 })] })] } : State)).seqOf 1).setM 3 7), ((({ wS 4 [(LSQ.SEQ_STAT_SCHED_RUN 1, 1), (CLO.AWAKE, 0x20), (CLO.LOCKED, 0x20), (LSQ.SEQ_STAT_RUNNING 1, 2)] with seqs := [(1, { Seq.blank with bank0 := some ⟨1, List.replicate 10 ⟨true, false, 10, 3, 0, 0, 100, [], []⟩, [0, ilWord 52 0, 0], [], [], 0, [70], [], []⟩, tasks := [(2, { TaskRt.blank with isOpen := true, pc := 1, calBudget := 70 })] })] } : State)).put (LSQ.TASK_STAT_STATE 1 2) 5), by decide +kernel⟩,
    ⟨(1), (2), ((({ wS 4 [(LSQ.SEQ_STAT_SCHED_RUN 1, 1), (CLO.AWAKE, 0x20), (CLO.LOCKED, 0x20), (LSQ.SEQ_STAT_RUNNING 1, 2)] with seqs := [(1, { Seq.blank with bank0 := some ⟨1, List.replicate 10 ⟨true, false, 10, 3, 0, 0, 100, [], []⟩, [0, ilWord 52 0, 0], [], [], 0, [70], [], []⟩, tasks := [(2, { TaskRt.blank with isOpen := true, pc := 1, calBudget := 70 })] })] } : State)).put (LSQ.TASK_STAT_STATE 1 2) 5), by decide +kernel⟩,
    ⟨(1), (2), (0x0C000000), ((wSeq 1 [(2, { TaskRt.blank with isOpen := true, pc := 1 })] [0, ilWord 3 (0), 0, 0] ⟨true, false, 10, 3, 0, 0, 100, [], []⟩).put (LSQ.SEQ_STAT_RUNNING 1) 2), by decide +kernel⟩,
    ⟨(1), (2), (0x01000000), (wSeq 1 [(2, { TaskRt.blank with isOpen := true, pc := 1 })] [0, 0x01000000, 0, 0] ⟨true, false, 10, 3, 0, 0, 100, [], []⟩ |>.put (LSQ.SEQ_STAT_RUNNING 1) 2), by decide +kernel⟩⟩

/-- The hypotheses of each clause of TaskCycles are met. -/
theorem witness_TaskCycles :
    (∃ (q : Fin 4) (k : Nat) (s : State), (s.seqLive q.val = true) ∧ (s.ilTask q.val = some k) ∧ (s.ilCode q.val = some (ilWord 0x3F 0))) ∧
    (∃ (q : Fin 4) (k : Fin 8) (s : State), (s.posted = []) ∧ (s.enabled (0x14 + q.val) = true) ∧ (s.schedRun q.val = true) ∧ ((s.seqOf q.val).cyclicOn = true) ∧ ((s.imgTask q.val k.val).present = true) ∧ (s.onGrid q.val k.val s.tku.grid = true) ∧ ((s.task q.val k.val).lastBoundary ≠ some s.tku.ticks) ∧ ((s.task q.val k.val).isOpen = false) ∧ (s.taskSt q.val k.val = tkWAIT)) ∧
    (∃ (q : Fin 4) (k : Fin 8) (s : State), (s.posted = []) ∧ (s.enabled (0x14 + q.val) = true) ∧ (s.schedRun q.val = true) ∧ ((s.seqOf q.val).cyclicOn = true) ∧ ((s.imgTask q.val k.val).present = true) ∧ (s.onGrid q.val k.val s.tku.grid = true) ∧ ((s.task q.val k.val).lastBoundary ≠ some s.tku.ticks) ∧ ((s.task q.val k.val).isOpen = true)) ∧
    (∃ (q : Fin 4) (k : Fin 8) (s : State), (s.posted = []) ∧ (s.enabled (0x14 + q.val) = true) ∧ (s.schedRun q.val = true) ∧ ((s.seqOf q.val).cyclicOn = true) ∧ ((s.imgTask q.val k.val).present = true) ∧ (s.onGrid q.val k.val s.tku.grid = true) ∧ ((s.task q.val k.val).lastBoundary ≠ some s.tku.ticks) ∧ ((s.task q.val k.val).isOpen = true)) ∧
    (∃ (m : Master) (q : Fin 4) (v : BitVec 32) (k : Fin 8) (s : State), (isUser m = false) ∧ (s.posted = []) ∧ (s.guardOf (0x14 + q.val) = none) ∧ (s.schedRun q.val = true) ∧ ((∀ j : Nat, j < 8 → v.toNat.testBit j = true → (s.imgTask q.val j).safety = false)) ∧ (v.toNat.testBit k.val = true) ∧ ((s.imgTask q.val k.val).present = true) ∧ ((s.taskSt q.val k.val = tkFAULT ∨ (s.task q.val k.val).stopped = true))) ∧
    (∃ (m : Master) (q : Fin 4) (v : BitVec 32) (k : Fin 8) (s : State), (isUser m = false) ∧ (s.posted = []) ∧ (s.guardOf (0x14 + q.val) = none) ∧ (v.toNat.testBit k.val = true) ∧ ((s.imgTask q.val k.val).present = true) ∧ ((s.imgTask q.val k.val).safety = true)) ∧
    (∃ (q : Fin 4) (h : Nat) (s : State), (s.posted = []) ∧ ((s.seqOf q.val).startSince = some h)) :=
  ⟨⟨(1), (2), (((wSeq 1 [(2, { TaskRt.blank with isOpen := true, pc := 1 })] [0, 0xFC000000] ⟨true, false, 10, 3, 0, 0, 100, [], [5]⟩).put (LSQ.SEQ_STAT_RUNNING 1) 2).setSlot 5 ⟨9, 0x06120003⟩), by decide +kernel⟩,
    ⟨(1), (2), ((wSeq 1 [(2, TaskRt.blank)] [] ⟨true, false, 10, 3, 0, 0, 100, [], []⟩).put (LSQ.TASK_STAT_STATE 1 2) 1 |>.setSeq 1 { (wSeq 1 [] [] ⟨true, false, 10, 3, 0, 0, 100, [], []⟩).seqOf 1 with cyclicOn := true }), by decide +kernel⟩,
    ⟨(1), (2), ((wSeq 1 [] [] ⟨true, false, 10, 3, 0, 0, 100, [], []⟩).setSeq 1 { (wSeq 1 [(2, { TaskRt.blank with isOpen := true })] [] ⟨true, false, 10, 3, 0, 0, 100, [], []⟩).seqOf 1 with cyclicOn := true }), by decide +kernel⟩,
    ⟨(1), (2), ((wSeq 1 [] [] ⟨true, false, 10, 3, 0, 0, 100, [], []⟩).setSeq 1 { (wSeq 1 [(2, { TaskRt.blank with isOpen := true, consec := 1 })] [] ⟨true, false, 10, 3, 0, 0, 100, [], []⟩).seqOf 1 with cyclicOn := true }), by decide +kernel⟩,
    ⟨(.core 0), (1), (5), (2), ((wSeq 1 [(2, TaskRt.blank)] [] ⟨true, false, 10, 3, 0, 0, 100, [], []⟩).put (LSQ.TASK_STAT_STATE 1 2) 6), by decide +kernel⟩,
    ⟨(.core 0), (1), (5), (2), (wSeq 1 [] [] ⟨true, true, 10, 3, 0, 0, 100, [], []⟩), by decide +kernel⟩,
    ⟨(1), (5), ({ wSeq 1 [] [] ⟨true, false, 0, 0, 0, 0, 100, [], []⟩ with seqs := [(1, { Seq.blank with startSince := some 5, tasks := [(8, { TaskRt.blank with isOpen := true })] })] }), by decide +kernel⟩⟩

/-- The hypotheses of each clause of ProgramLoading are met. -/
theorem witness_ProgramLoading :
    (∃ (m : Master) (q : Fin 4) (s : State), (isUser m = false) ∧ (s.posted = []) ∧ (s.guardOf (0x14 + q.val) = none) ∧ (s.get (LSQ.PROG_LEN q.val) ≠ 0) ∧ (s.get (LSQ.PROG_LEN q.val) ≤ 0x400000) ∧ (s.get (LSQ.PROG_SRC q.val) % 4096 = 0) ∧ (0x80000000 ≤ s.get (LSQ.PROG_SRC q.val)) ∧ (s.get (LSQ.PROG_SRC q.val) + s.get (LSQ.PROG_LEN q.val) ≤ 0x100000000) ∧ (s.get (LSQ.PROG_STAT_INACTIVE q.val) ≠ 3) ∧ (s.on (LSQ.SEQ_STAT_ACT_PENDING q.val) = false) ∧ (s.pfw = false)) ∧
    (∃ (q : Fin 4) (b : ImageBody) (e : Nat) (s : State), (s.posted = []) ∧ (s.get (LSQ.PROG_STAT_INACTIVE q.val) = 3) ∧ (e = s.imageErr q.val (s.bytes (s.get (LSQ.PROG_SRC q.val)) (s.get (LSQ.PROG_LEN q.val))) b)) ∧
    (∃ (m : Master) (q : Fin 4) (i : SeqImage) (s : State), (isUser m = false) ∧ (s.posted = []) ∧ (s.guardOf (0x14 + q.val) = none) ∧ (s.spare q.val = some i) ∧ (s.get (LSQ.PROG_STAT_INACTIVE q.val) = 1) ∧ (s.on (LSQ.SEQ_STAT_ACT_PENDING q.val) = false) ∧ ((∀ o ∈ s.image q.val, sameSafety o i = true)) ∧ ((s.role ≠ roleACTIVE ∨ s.readyStandby = false)) ∧ (s.slotConflict q.val i = false) ∧ (s.schedRun q.val = true)) ∧
    (∃ (m : Master) (q : Fin 4) (i : SeqImage) (s : State), (isUser m = false) ∧ (s.posted = []) ∧ (s.guardOf (0x14 + q.val) = none) ∧ (s.spare q.val = some i) ∧ (s.get (LSQ.PROG_STAT_INACTIVE q.val) = 1) ∧ (s.on (LSQ.SEQ_STAT_ACT_PENDING q.val) = false) ∧ ((∀ o ∈ s.image q.val, sameSafety o i = true)) ∧ ((s.role ≠ roleACTIVE ∨ s.readyStandby = false)) ∧ (s.slotConflict q.val i = false) ∧ (s.schedRun q.val = false)) ∧
    (∃ (m : Master) (q : Fin 4) (i : SeqImage) (o : SeqImage) (s : State), (isUser m = false) ∧ (s.posted = []) ∧ (s.guardOf (0x14 + q.val) = none) ∧ (s.spare q.val = some i) ∧ (s.get (LSQ.PROG_STAT_INACTIVE q.val) = 1) ∧ (s.on (LSQ.SEQ_STAT_ACT_PENDING q.val) = false) ∧ (s.image q.val = some o) ∧ (sameSafety o i = false)) ∧
    (∃ (m : Master) (q : Fin 4) (i : SeqImage) (s : State), (isUser m = false) ∧ (s.posted = []) ∧ (s.guardOf (0x14 + q.val) = none) ∧ (s.spare q.val = some i) ∧ (s.get (LSQ.PROG_STAT_INACTIVE q.val) = 1) ∧ (s.on (LSQ.SEQ_STAT_ACT_PENDING q.val) = false) ∧ ((∀ o ∈ s.image q.val, sameSafety o i = true)) ∧ ((s.role ≠ roleACTIVE ∨ s.readyStandby = false)) ∧ (s.slotConflict q.val i = true)) ∧
    (∃ (q : Fin 4) (h : Nat) (i : SeqImage) (s : State), (s.posted = []) ∧ ((s.seqOf q.val).actSince = some h) ∧ (s.on (LSQ.SEQ_STAT_ACT_PENDING q.val) = true) ∧ (s.tku.snapped = false) ∧ (s.quiet q.val = true) ∧ (s.mono ≤ h + secs 2) ∧ (s.spare q.val = some i)) ∧
    (∃ (q : Fin 4) (h : Nat) (s : State), (s.posted = []) ∧ ((s.seqOf q.val).actSince = some h)) :=
  ⟨⟨(.core 0), (1), (wS 2 [(LSQ.PROG_SRC 1, 0x80000000), (LSQ.PROG_LEN 1, 0x400000)]), by decide +kernel⟩,
    ⟨(1), (⟨true, [], [], [], [], [], 0, [], [], []⟩), (2), (wS 2 [(LSQ.PROG_STAT_INACTIVE 1, 3)]), by decide +kernel⟩,
    ⟨(.core 0), (1), (⟨7, [], [], [], [], 0, [], [], []⟩), ({ wS 4 [(LSQ.PROG_STAT_INACTIVE 1, 1), (LSQ.SEQ_STAT_SCHED_RUN 1, 1)] with seqs := [(1, { Seq.blank with bank1 := some ⟨7, [], [], [], [], 0, [], [], []⟩ })] }), by decide +kernel⟩,
    ⟨(.core 0), (1), (⟨7, [], [], [], [], 0, [], [], []⟩), ({ wS 2 [(LSQ.PROG_STAT_INACTIVE 1, 1)] with seqs := [(1, { Seq.blank with bank1 := some ⟨7, [], [], [], [], 0, [], [], []⟩ })] }), by decide +kernel⟩,
    ⟨(.core 0), (1), (⟨7, [⟨true, true, 10, 0, 0, 0, 0, [], []⟩], [], [], [], 0, [], [], []⟩), (⟨7, [], [], [], [], 0, [], [], []⟩), ({ wS 2 [(LSQ.PROG_STAT_INACTIVE 1, 1)] with seqs := [(1, { Seq.blank with bank0 := some ⟨7, [], [], [], [], 0, [], [], []⟩, bank1 := some ⟨7, [⟨true, true, 10, 0, 0, 0, 0, [], []⟩], [], [], [], 0, [], [], []⟩ })] }), by decide +kernel⟩,
    ⟨(.core 0), (1), (⟨7, [⟨true, false, 10, 0, 0, 0, 0, [], [40]⟩], [], [], [], 0, [], [], []⟩), (({ wS 2 [(LSQ.PROG_STAT_INACTIVE 1, 1)] with seqs := [(1, { Seq.blank with bank1 := some ⟨7, [⟨true, false, 10, 0, 0, 0, 0, [], [40]⟩], [], [], [], 0, [], [], []⟩ })] } : State).setSlot 40 ⟨3, 0x02110000⟩), by decide +kernel⟩,
    ⟨(1), (0), (⟨7, [], [], [], [], 0, [], [], []⟩), ({ wS 4 [(LSQ.PROG_STAT_INACTIVE 1, 1), (LSQ.SEQ_STAT_SCHED_RUN 1, 1), (LSQ.SEQ_STAT_ACT_PENDING 1, 1)] with seqs := [(1, { Seq.blank with bank1 := some ⟨7, [], [], [], [], 0, [], [], []⟩, actSince := some 0 })] }), by decide +kernel⟩,
    ⟨(1), (0), ({ wS 4 [(LSQ.SEQ_STAT_ACT_PENDING 1, 1)] with seqs := [(1, { Seq.blank with actSince := some 0 })] }), by decide +kernel⟩⟩

/-- The hypotheses of each clause of RixStations are met. -/
theorem witness_RixStations :
    (∃ (st : Fin 64) (s : State), (s.rixLive st.val = true)) ∧
    (∃ (st : Fin 64) (f : List (BitVec 8)) (r : BitVec 32) (s : State), (s.rixLive st.val = true) ∧ (s.rixValid st.val f = true) ∧ (((s.rixOf st.val).gotOne = false ∨ 0 < sx 32 ((beAt f 4 4 + 2 ^ 32 - s.get (LSQ.STN_SEQ (st.val / 16) (st.val % 16))) % 2 ^ 32))) ∧ (s.stnSt st.val = 1)) ∧
    (∃ (st : Fin 64) (f : List (BitVec 8)) (r : BitVec 32) (s : State), (s.posted = []) ∧ (s.rixLive st.val = true) ∧ (s.rixValid st.val f = false)) ∧
    (∃ (st : Fin 64) (s : State), (s.posted = []) ∧ (s.rixLive st.val = true) ∧ (s.stnSt st.val = 1)) ∧
    (∃ (st : Fin 64) (s : State), (s.posted = []) ∧ (s.rixLive st.val = true) ∧ ((s.stnSt st.val = 1 ∨ s.stnSt st.val = 2))) ∧
    (∃ (st : Fin 64) (h : Nat) (s : State), (s.posted = []) ∧ (s.enabled (0x14 + st.val / 16) = true) ∧ ((s.rixOf st.val).substTick = some h) ∧ (h < s.tku.ticks)) :=
  ⟨⟨(17), ({ wS 4 [(LSQ.STN_CFG_EN 1 1, 1), (LSQ.STN_CFG_INTERVAL_MS 1 1, 10), (LSQ.SEQ_STAT_SCHED_RUN 1, 1)] with rix := [(17, { Rix.blank with outSeq := 0xFFFFFFFF, lastOut := 5 })] }), by decide +kernel⟩,
    ⟨(17), ([1, 2, 17, 0, 0, 0, 0, 9, 0, 0, 0, 0, 0, 1, 0, 0, 0, 0, 0, 7, 1]), (50), (({ wS 4 [(LSQ.STN_CFG_EN 1 1, 1), (LSQ.STN_CFG_INTERVAL_MS 1 1, 10), (LSQ.SEQ_STAT_SCHED_RUN 1, 1), (LSQ.STN_IN_COUNT 1 1, 1), (LSQ.STN_IN_BASE 1 1, 8191), (LSQ.STN_STAT_STATE 1 1, 1)] with rix := [] } : State).setSlot 8191 ⟨3, 0x02110000⟩), by decide +kernel⟩,
    ⟨(17), ([]), (50), ({ wS 4 [(LSQ.STN_CFG_EN 1 1, 1), (LSQ.SEQ_STAT_SCHED_RUN 1, 1)] with rix := [(17, { Rix.blank with run := 3 })] }), by decide +kernel⟩,
    ⟨(17), ((wS 4 [(LSQ.STN_CFG_EN 1 1, 1), (LSQ.STN_CFG_INTERVAL_MS 1 1, 10), (LSQ.SEQ_STAT_SCHED_RUN 1, 1), (LSQ.STN_IN_COUNT 1 1, 1), (LSQ.STN_IN_BASE 1 1, 40), (LSQ.STN_STAT_STATE 1 1, 1), (LSQ.STN_CNT_LATE_CNT 1 1, 65535)]).setSlot 40 ⟨3, 0x82110000⟩), by decide +kernel⟩,
    ⟨(17), (wS 4 [(LSQ.STN_CFG_EN 1 1, 1), (LSQ.SEQ_STAT_SCHED_RUN 1, 1), (LSQ.STN_STAT_STATE 1 1, 2)]), by decide +kernel⟩,
    ⟨(17), (4), (({ wS 4 [(LSQ.STN_IN_COUNT 1 1, 1), (LSQ.STN_IN_BASE 1 1, 40), (LSQ.STN_TIMING_SUBST_MODE 1 1, 2)] with rix := [(17, { Rix.blank with substTick := some 4 })], tku := { State.reset.tku with ticks := 5 } } : State).setSlot 40 ⟨3, 0x82110000⟩), by decide +kernel⟩⟩

/-- The hypotheses of each clause of Forcing are met. -/
theorem witness_Forcing :
    (∃ (m : Master) (s : State), (isUser m = false) ∧ (s.posted = []) ∧ (s.guardOf 0x14 = none) ∧ (s.forceRefused (s.get (LSQ.FORCE_SEL 0)) = false)) ∧
    (∃ (m : Master) (s : State), (isUser m = false) ∧ (s.posted = []) ∧ (s.guardOf 0x14 = none) ∧ (s.forceRefused (s.get (LSQ.FORCE_SEL 0)) = true)) ∧
    (∃ (m : Master) (s : State), (isUser m = false) ∧ (s.posted = []) ∧ (s.guardOf 0x14 = none)) ∧
    (∃ (m : Master) (s : State), (isUser m = false) ∧ (s.posted = []) ∧ (s.guardOf 0x14 = none)) ∧
    (∃ (m : Master) (s : State), (isUser m = false) ∧ (s.posted = []) ∧ (s.guardOf 0x14 = none)) ∧
    (∃ (h : Nat) (s : State), (s.forceAuth = some h)) ∧
    (∃ (k : Fin 5) (s : State), (s.mstate ≠ stPOWER_ON)) :=
  ⟨⟨(.core 0), (({ wS 4 [(LSQ.FORCE_SEL 0, 9), (LSQ.FORCE_TGT_TARGET 0 9, 40)] with forceAuth := some 100 } : State).setSlot 40 ⟨3, 0x82110000⟩), by decide +kernel⟩,
    ⟨(.core 0), (wS 4 [(LSQ.FORCE_SEL 0, 255)]), by decide +kernel⟩,
    ⟨(.core 0), ({ wS 4 [(LSQ.FORCE_SEL 0, 9)] with forces := [(8, ⟨false, 1⟩), (9, ⟨true, 7⟩)] }), by decide +kernel⟩,
    ⟨(.core 0), ({ wS 4 [(LSQ.FORCE_SEL 0, 9)] with forces := [(8, ⟨false, 1⟩), (9, ⟨true, 7⟩)] }), by decide +kernel⟩,
    ⟨(.core 0), ({ wS 4 [] with forceAuth := some 7 }), by decide +kernel⟩,
    ⟨(7), ({ wS 4 [] with forceAuth := some 7 }), by decide +kernel⟩,
    ⟨(4), (wS 4 []), by decide +kernel⟩⟩

/-- The hypotheses of each clause of LoopCommands are met. -/
theorem witness_LoopCommands :
    (∃ (m : Master) (c : Nat) (s : State), (isUser m = false) ∧ (s.posted = []) ∧ (s.guardOf 0x19 = none) ∧ (c = s.get CTX.CTX_SEL) ∧ (s.cmdOk c 1 = true) ∧ ((s.loop c).aborting = false)) ∧
    (∃ (m : Master) (c : Nat) (s : State), (isUser m = false) ∧ (s.posted = []) ∧ (s.guardOf 0x19 = none) ∧ (c = s.get CTX.CTX_SEL) ∧ (s.loopEn c = true) ∧ (s.loopSt c ≠ lpOPEN) ∧ ((s.loop c).aborting = false)) ∧
    (∃ (m : Master) (c : Nat) (s : State), (isUser m = false) ∧ (s.posted = []) ∧ (s.guardOf 0x19 = none) ∧ (c = s.get CTX.CTX_SEL) ∧ (s.loopEn c = true) ∧ ((s.loopSt c = lpPRIMING ∨ s.loopSt c = lpCLOSED ∨ s.loopSt c = lpCOASTING)) ∧ ((s.loop c).aborting = false)) ∧
    (∃ (m : Master) (c : Nat) (s : State), (isUser m = false) ∧ (s.posted = []) ∧ (s.guardOf 0x19 = none) ∧ (c = s.get CTX.CTX_SEL) ∧ (s.cmdOk c 1 = false)) ∧
    (∃ (m : Master) (c : Nat) (s : State), (isUser m = false) ∧ (s.posted = []) ∧ (s.guardOf 0x19 = none) ∧ (c = s.get CTX.CTX_SEL) ∧ (s.cmdOk c 2 = false)) ∧
    (∃ (m : Master) (c : Nat) (s : State), (isUser m = false) ∧ (s.posted = []) ∧ (s.guardOf 0x19 = none) ∧ (c = s.get CTX.CTX_SEL) ∧ (s.cmdOk c 3 = false)) ∧
    (∃ (m : Master) (v : BitVec 32) (c : Nat) (s : State), (isUser m = false) ∧ (s.posted = []) ∧ (s.guardOf 0x19 = none) ∧ (c = s.get CTX.CTX_SEL) ∧ (s.loopEn c = false) ∧ (v = s.rd (rkey 0x19 c 0x044) ||| 1) ∧ (s.admission c = 0)) ∧
    (∃ (m : Master) (v : BitVec 32) (c : Nat) (s : State), (isUser m = false) ∧ (s.posted = []) ∧ (s.guardOf 0x19 = none) ∧ (c = s.get CTX.CTX_SEL) ∧ (s.loopEn c = false) ∧ (v = s.rd (rkey 0x19 c 0x044) ||| 1) ∧ (s.admission c ≠ 0)) ∧
    (∃ (m : Master) (v : BitVec 32) (c : Nat) (s : State), (isUser m = false) ∧ (s.posted = []) ∧ (s.guardOf 0x19 = none) ∧ (c = s.get CTX.CTX_SEL) ∧ (s.loopEn c = true) ∧ (v = s.rd (rkey 0x19 c 0x044) &&& ~~~1) ∧ (s.loopSt c = lpOPEN)) ∧
    (∃ (m : Master) (v : BitVec 32) (c : Nat) (s : State), (isUser m = false) ∧ (s.posted = []) ∧ (s.guardOf 0x19 = none) ∧ (c = s.get CTX.CTX_SEL) ∧ (s.loopEn c = true) ∧ (v = s.rd (rkey 0x19 c 0x044) &&& ~~~1) ∧ (s.loopSt c ≠ lpOPEN)) ∧
    (∃ (m : Master) (v : BitVec 32) (s : State), (isUser m = false) ∧ (s.posted = []) ∧ (s.guardOf 0x18 = none)) ∧
    (∃ (s : State), (s.posted = []) ∧ (s.enabled 0x18 = true) ∧ (s.lpeQuery ≠ 0)) ∧
    (∃ (m : Master) (a : BitVec 32) (v : BitVec 32) (c : Nat) (s : State), (isUser m = false) ∧ (apertureCtx a.toNat = some c) ∧ (a.toNat % 4 = 0) ∧ (apertureRsv a.toNat = false) ∧ (s.loopSt c = lpOPEN)) ∧
    (∃ (m : Master) (a : BitVec 32) (v : BitVec 32) (c : Nat) (s : State), (isUser m = false) ∧ (apertureCtx a.toNat = some c) ∧ (a.toNat % 4 = 0) ∧ (apertureRsv a.toNat = false) ∧ (s.loopSt c = lpOPEN)) ∧
    (∃ (m : Master) (a : BitVec 32) (v : BitVec 32) (c : Nat) (s : State), (isUser m = false) ∧ (s.posted = []) ∧ (apertureCtx a.toNat = some c) ∧ (a.toNat % 4 = 0) ∧ (s.loopSt c ≠ lpOPEN)) :=
  ⟨⟨(.core 0), (5), (wS 4 [(CTX.CTX_SEL, 5), (CTX.CTX_CFG_EN 5, 1)]), by decide +kernel⟩,
    ⟨(.core 0), (5), (wS 4 [(CTX.CTX_SEL, 5), (CTX.CTX_CFG_EN 5, 1), (CTX.CTX_MODE_STATE 5, 4)]), by decide +kernel⟩,
    ⟨(.core 0), (5), (wS 4 [(CTX.CTX_SEL, 5), (CTX.CTX_CFG_EN 5, 1), (CTX.CTX_MODE_STATE 5, 1)]), by decide +kernel⟩,
    ⟨(.core 0), (5), (wS 4 [(CTX.CTX_SEL, 5)]), by decide +kernel⟩,
    ⟨(.core 0), (5), (wS 4 [(CTX.CTX_SEL, 5), (CTX.CTX_CFG_EN 5, 1)]), by decide +kernel⟩,
    ⟨(.core 0), (5), (wS 4 [(CTX.CTX_SEL, 5), (CTX.CTX_CFG_EN 5, 1), (CTX.CTX_MODE_STATE 5, 4)]), by decide +kernel⟩,
    ⟨(.core 0), ((wS 4 [(CTX.CTX_SEL, 5), (CTX.CTX_DIM_N_STATES 5, 2), (CTX.CTX_DIM_N_MEAS 5, 1), (CTX.CTX_DIM_N_OUT 5, 1), (CTX.CTX_PERIOD_PERIOD 5, 10), (CTX.OUT_SLOT 5 0, 77)]).rd (rkey 0x19 5 0x044) ||| 1), (5), (wS 4 [(CTX.CTX_SEL, 5), (CTX.CTX_DIM_N_STATES 5, 2), (CTX.CTX_DIM_N_MEAS 5, 1), (CTX.CTX_DIM_N_OUT 5, 1), (CTX.CTX_PERIOD_PERIOD 5, 10), (CTX.OUT_SLOT 5 0, 77)]), by decide +kernel⟩,
    ⟨(.core 0), ((wS 4 [(CTX.CTX_SEL, 5), (LPE.ADM_REFUSED_CNT, 255)]).rd (rkey 0x19 5 0x044) ||| 1), (5), (wS 4 [(CTX.CTX_SEL, 5), (LPE.ADM_REFUSED_CNT, 255)]), by decide +kernel⟩,
    ⟨(.core 0), ((wS 4 [(CTX.CTX_SEL, 5), (CTX.CTX_CFG_EN 5, 1)]).rd (rkey 0x19 5 0x044) &&& ~~~1), (5), (wS 4 [(CTX.CTX_SEL, 5), (CTX.CTX_CFG_EN 5, 1)]), by decide +kernel⟩,
    ⟨(.core 0), ((wS 4 [(CTX.CTX_SEL, 5), (CTX.CTX_CFG_EN 5, 1), (CTX.CTX_MODE_STATE 5, 2)]).rd (rkey 0x19 5 0x044) &&& ~~~1), (5), (wS 4 [(CTX.CTX_SEL, 5), (CTX.CTX_CFG_EN 5, 1), (CTX.CTX_MODE_STATE 5, 2)]), by decide +kernel⟩,
    ⟨(.core 0), (250), (wS 4 [(LPE.QUERY_DONE, 1)]), by decide +kernel⟩,
    ⟨({ wS 4 [] with lpeQuery := 250 }), by decide +kernel⟩,
    ⟨(.core 0), (0x501FF63C), (0xFFFFFFFF), (127), (wS 4 []), by decide +kernel⟩,
    ⟨(.dbg), (0x5020023C), (7), (0), (wS 4 []), by decide +kernel⟩,
    ⟨(.core 0), (0x50000000), (7), (0), (wS 4 [(CTX.CTX_MODE_STATE 0, 2)]), by decide +kernel⟩⟩

/-- The hypotheses of each clause of CascadeSlots are met. -/
theorem witness_CascadeSlots :
    (∃ (m : Master) (k : Nat) (s : State), (isUser m = false) ∧ (s.posted = []) ∧ (s.guardOf 0x1B = none) ∧ (k = s.get SLOT.SLOT_SEL) ∧ ((s.casSt k = csEMPTY ∨ s.casSt k = csFAILED))) ∧
    (∃ (k : Fin 16) (e : Nat) (s : State), (s.posted = []) ∧ (s.enabled 0x1A = true) ∧ (s.casSt k.val = csLOADING) ∧ (s.casAborting k.val = false) ∧ (e = s.casLoadErr k.val (s.get (SLOT.LOAD_SRC k.val)) (s.get (SLOT.LOAD_LEN k.val)))) ∧
    (∃ (m : Master) (k : Nat) (s : State), (isUser m = false) ∧ (s.posted = []) ∧ (s.guardOf 0x1B = none) ∧ (k = s.get SLOT.SLOT_SEL) ∧ ((s.casSt k = csLOADED ∨ s.casSt k = csFAILED))) ∧
    (∃ (m : Master) (k : Nat) (s : State), (isUser m = false) ∧ (s.posted = []) ∧ (s.guardOf 0x1B = none) ∧ (k = s.get SLOT.SLOT_SEL) ∧ (s.casHeld k = true)) ∧
    (∃ (m : Master) (k : Nat) (s : State), (isUser m = false) ∧ (s.posted = []) ∧ (s.guardOf 0x1B = none) ∧ (k = s.get SLOT.SLOT_SEL) ∧ (s.casEn k = true)) ∧
    (∃ (m : Master) (k : Nat) (s : State), (isUser m = false) ∧ (s.posted = []) ∧ (s.guardOf 0x1B = none) ∧ (k = s.get SLOT.SLOT_SEL) ∧ (s.casEn k = false)) ∧
    (∃ (m : Master) (k : Nat) (s : State), (isUser m = false) ∧ (s.posted = []) ∧ (s.guardOf 0x1B = none) ∧ (k = s.get SLOT.SLOT_SEL) ∧ (s.casSt k ≠ csEMPTY) ∧ (s.casSt k ≠ csFAILED)) ∧
    (∃ (m : Master) (k : Nat) (s : State), (isUser m = false) ∧ (s.posted = []) ∧ (s.guardOf 0x1B = none) ∧ (k = s.get SLOT.SLOT_SEL) ∧ (s.casSt k ≠ csLOADED) ∧ (s.casSt k ≠ csFAILED)) ∧
    (∃ (m : Master) (k : Nat) (s : State), (isUser m = false) ∧ (s.posted = []) ∧ (s.guardOf 0x1B = none) ∧ (k = s.get SLOT.SLOT_SEL) ∧ (s.casHeld k = false)) ∧
    (∃ (m : Master) (v : BitVec 32) (k : Nat) (s : State), (isUser m = false) ∧ (s.posted = []) ∧ (s.guardOf 0x1B = none) ∧ (k = s.get SLOT.SLOT_SEL) ∧ (s.casEn k = false) ∧ (v = s.rd (rkey 0x1B k 0x044) ||| 1) ∧ (s.casAdmission k = 0)) ∧
    (∃ (m : Master) (v : BitVec 32) (k : Nat) (s : State), (isUser m = false) ∧ (s.posted = []) ∧ (s.guardOf 0x1B = none) ∧ (k = s.get SLOT.SLOT_SEL) ∧ (s.casEn k = false) ∧ (v = s.rd (rkey 0x1B k 0x044) ||| 1) ∧ (s.casAdmission k ≠ 0)) ∧
    (∃ (m : Master) (v : BitVec 32) (k : Nat) (s : State), (isUser m = false) ∧ (s.posted = []) ∧ (s.guardOf 0x1B = none) ∧ (k = s.get SLOT.SLOT_SEL) ∧ (s.casEn k = true) ∧ (v = s.rd (rkey 0x1B k 0x044) &&& ~~~1)) ∧
    (∃ (m : Master) (v : BitVec 32) (k : Nat) (s : State), (isUser m = false) ∧ (s.posted = []) ∧ (s.guardOf 0x1B = none) ∧ (k = s.get SLOT.SLOT_SEL) ∧ (s.casEn k = true) ∧ (v = s.rd (rkey 0x1B k 0x044) &&& ~~~1)) ∧
    (∃ (m : Master) (v : BitVec 32) (s : State), (isUser m = false) ∧ (s.posted = []) ∧ (s.guardOf 0x1A = none)) ∧
    (∃ (s : State), (s.posted = []) ∧ (s.enabled 0x1A = true) ∧ (s.casQuery ≠ 0)) ∧
    (∃ (m : Master) (a : BitVec 32) (v : BitVec 64) (s : State), (isUser m = false) ∧ (0x60000000 ≤ a.toNat) ∧ (a.toNat < 0x61800000) ∧ (a.toNat % 4 = 0) ∧ (s.casOwner (a.toNat - 0x60000000) = none)) ∧
    (∃ (m : Master) (a : BitVec 32) (v : BitVec 64) (k : Nat) (s : State), (isUser m = false) ∧ (s.posted = []) ∧ (0x60000000 ≤ a.toNat) ∧ (a.toNat < 0x61800000) ∧ (a.toNat % 4 = 0) ∧ (s.casOwner (a.toNat - 0x60000000) = some k)) :=
  ⟨⟨(.core 0), (3), (wS 2 [(SLOT.SLOT_SEL, 3), (SLOT.SLOT_STAT_STATE 3, 6), (SLOT.LOAD_LEN 3, 5000)]), by decide +kernel⟩,
    ⟨(3), ((wS 2 [(SLOT.SLOT_STAT_STATE 3, 1)]).casLoadErr 3 0 0), (wS 2 [(SLOT.SLOT_STAT_STATE 3, 1)]), by decide +kernel⟩,
    ⟨(.core 0), (3), (wS 2 [(SLOT.SLOT_SEL, 3), (SLOT.SLOT_STAT_STATE 3, 2)]), by decide +kernel⟩,
    ⟨(.core 0), (3), (wS 4 [(SLOT.SLOT_SEL, 3), (SLOT.SLOT_STAT_STATE 3, 4)]), by decide +kernel⟩,
    ⟨(.core 0), (3), (wS 4 [(SLOT.SLOT_SEL, 3), (SLOT.SLOT_CFG_EN 3, 1)]), by decide +kernel⟩,
    ⟨(.core 0), (3), (wS 4 [(SLOT.SLOT_SEL, 3)]), by decide +kernel⟩,
    ⟨(.core 0), (3), (wS 4 [(SLOT.SLOT_SEL, 3), (SLOT.SLOT_STAT_STATE 3, 2)]), by decide +kernel⟩,
    ⟨(.core 0), (3), (wS 4 [(SLOT.SLOT_SEL, 3), (SLOT.SLOT_STAT_STATE 3, 3)]), by decide +kernel⟩,
    ⟨(.core 0), (3), (wS 4 [(SLOT.SLOT_SEL, 3), (SLOT.SLOT_STAT_STATE 3, 1)]), by decide +kernel⟩,
    ⟨(.core 0), ((wS 2 [(SLOT.SLOT_SEL, 3), (SLOT.SLOT_STAT_STATE 3, 2), (SLOT.SLOT_PERIOD_PERIOD 3, 100), (SLOT.SLOT_DEADLINE 3, 9999), (SLOT.SLOT_ITER_G 3, 1), (SLOT.SLOT_ITER_K 3, 1), (QMG.RING_EP_CONS_CLASS 0, 4), (QMG.RING_EP_CONS_INST 0, 3)]).rd (rkey 0x1B 3 0x044) ||| 1), (3), (wS 2 [(SLOT.SLOT_SEL, 3), (SLOT.SLOT_STAT_STATE 3, 2), (SLOT.SLOT_PERIOD_PERIOD 3, 100), (SLOT.SLOT_DEADLINE 3, 9999), (SLOT.SLOT_ITER_G 3, 1), (SLOT.SLOT_ITER_K 3, 1), (QMG.RING_EP_CONS_CLASS 0, 4), (QMG.RING_EP_CONS_INST 0, 3)]), by decide +kernel⟩,
    ⟨(.core 0), ((wS 2 [(SLOT.SLOT_SEL, 3)]).rd (rkey 0x1B 3 0x044) ||| 1), (3), (wS 2 [(SLOT.SLOT_SEL, 3)]), by decide +kernel⟩,
    ⟨(.core 0), ((wS 4 [(SLOT.SLOT_SEL, 3), (SLOT.SLOT_STAT_STATE 3, 3), (SLOT.SLOT_CFG_EN 3, 1)]).rd (rkey 0x1B 3 0x044) &&& ~~~1), (3), (wS 4 [(SLOT.SLOT_SEL, 3), (SLOT.SLOT_STAT_STATE 3, 3), (SLOT.SLOT_CFG_EN 3, 1)]), by decide +kernel⟩,
    ⟨(.core 0), ((wS 4 [(SLOT.SLOT_SEL, 3), (SLOT.SLOT_STAT_STATE 3, 4), (SLOT.SLOT_CFG_EN 3, 1)]).rd (rkey 0x1B 3 0x044) &&& ~~~1), (3), (wS 4 [(SLOT.SLOT_SEL, 3), (SLOT.SLOT_STAT_STATE 3, 4), (SLOT.SLOT_CFG_EN 3, 1)]), by decide +kernel⟩,
    ⟨(.core 0), (400), (wS 4 [(CAS.QUERY_DONE, 1)]), by decide +kernel⟩,
    ⟨({ wS 4 [] with casQuery := 400 }), by decide +kernel⟩,
    ⟨(.core 0), (0x617FFFFC), (0x1122334455667788), (wS 4 []), by decide +kernel⟩,
    ⟨(.core 0), (0x60000FFC), (5), (3), ({ wS 4 [(SLOT.SLOT_STAT_STATE 3, 2)] with cas := [(3, { CasSlot.blank with size := 4096 })] }), by decide +kernel⟩⟩

/-- The hypotheses of each clause of CascadeSolve are met. -/
theorem witness_CascadeSolve :
    (∃ (ns : Nat) (k : Nat) (s : State), (s.casLive = true) ∧ (s.domReady 9 = true) ∧ (s.casNext (List.range 16) = some k) ∧ ((s.casSlot k).phase = 1)) ∧
    (∃ (ns : Nat) (k : Nat) (s : State), (s.casLive = true) ∧ (s.domReady 9 = true) ∧ (s.casNext (List.range 16) = some k) ∧ ((s.casSlot k).phase = 6) ∧ (s.casEn k = true)) ∧
    (∃ (k : Fin 16) (s : State), (s.posted = []) ∧ (s.casLive = true) ∧ (s.casSt k.val = csLIN) ∧ ((s.casSlot k.val).phase = 3) ∧ (s.casAborting k.val = false)) ∧
    (∃ (k : Fin 16) (s : State), (s.posted = []) ∧ (s.casLive = true) ∧ (s.casSt k.val = csLIN) ∧ (s.casAborting k.val = false)) ∧
    (∃ (k : Fin 16) (s : State), (s.posted = []) ∧ (s.casLive = true) ∧ (s.domReady 9 = true) ∧ (s.casHeld k.val = true) ∧ ((s.casSlot k.val).req = true) ∧ ((s.casSlot k.val).ready = false) ∧ (s.on (SLOT.SLOT_STAT_FACT_BUSY k.val) = false) ∧ (s.casNext (List.range 16) = none) ∧ (s.casAborting k.val = false)) ∧
    (∃ (k : Fin 16) (s : State), (s.posted = []) ∧ (s.casHeld k.val = true) ∧ (s.on (SLOT.SLOT_STAT_FACT_BUSY k.val) = true) ∧ (s.casAborting k.val = false)) :=
  ⟨⟨(500), (3), ({ wS 4 [(CLO.AWAKE, 0x200), (CLO.LOCKED, 0x200), (SLOT.SLOT_STAT_STATE 3, 4)] with cas := [(3, { CasSlot.blank with phase := 1 })] }), by decide +kernel⟩,
    ⟨(500), (3), ({ wS 4 [(CLO.AWAKE, 0x200), (CLO.LOCKED, 0x200), (SLOT.SLOT_STAT_STATE 3, 4), (SLOT.SLOT_CFG_EN 3, 1)] with cas := [(3, { CasSlot.blank with phase := 6 })] }), by decide +kernel⟩,
    ⟨(3), ({ wS 4 [(CLO.AWAKE, 0x200), (CLO.LOCKED, 0x200), (SLOT.SLOT_STAT_STATE 3, 5)] with cas := [(3, { CasSlot.blank with phase := 3, g := 1 })] }), by decide +kernel⟩,
    ⟨(3), ({ wS 4 [(CLO.AWAKE, 0x200), (CLO.LOCKED, 0x200), (SLOT.SLOT_STAT_STATE 3, 5)] with cas := [(3, { CasSlot.blank with phase := 3, g := 1 })] }), by decide +kernel⟩,
    ⟨(3), ({ wS 4 [(CLO.AWAKE, 0x200), (CLO.LOCKED, 0x200), (SLOT.SLOT_STAT_STATE 3, 3)] with cas := [(3, { CasSlot.blank with req := true })] }), by decide +kernel⟩,
    ⟨(3), ({ wS 4 [(SLOT.SLOT_STAT_STATE 3, 3), (SLOT.SLOT_STAT_FACT_BUSY 3, 1)] with cas := [(3, CasSlot.blank)] }), by decide +kernel⟩⟩

/-- The hypotheses of each clause of BankFrames are met. -/
theorem witness_BankFrames :
    (∃ (b : Fin 16) (m : Nat) (f : BankFrame) (s : State), (s.posted = []) ∧ (s.frameMode b.val = some m) ∧ (s.bankLive b.val = true) ∧ (s.enabled (0x20 + b.val) = true) ∧ (f.crcOk = true) ∧ (f.seq = (s.bank b.val).outSeq)) ∧
    (∃ (b : Fin 16) (m : Nat) (f : BankFrame) (s : State), (s.posted = []) ∧ (s.frameMode b.val = some m) ∧ (s.bankLive b.val = true) ∧ (s.enabled (0x20 + b.val) = true) ∧ (f.crcOk = true) ∧ (f.seq = (s.bank b.val).outSeq)) ∧
    (∃ (b : Fin 16) (m : Nat) (f : BankFrame) (s : State), (s.posted = []) ∧ (s.frameMode b.val = some m) ∧ (s.bankLive b.val = true) ∧ (s.enabled (0x20 + b.val) = true) ∧ (f.crcOk = false)) ∧
    (∃ (b : Fin 16) (m : Nat) (f : BankFrame) (s : State), (s.posted = []) ∧ (s.frameMode b.val = some m) ∧ (s.bankLive b.val = true) ∧ (s.enabled (0x20 + b.val) = true) ∧ (f.crcOk = true) ∧ (f.seq ≠ (s.bank b.val).outSeq)) ∧
    (∃ (b : Fin 16) (f : BankFrame) (s : State), (s.bankLive b.val = true) ∧ (s.enabled (0x20 + b.val) = true) ∧ (f.crcOk = true) ∧ (f.seq = (s.bank b.val).inSeq)) ∧
    (∃ (b : Fin 16) (f : BankFrame) (s : State), (s.posted = []) ∧ ((f.crcOk = false ∨ f.seq ≠ (s.bank b.val).inSeq))) ∧
    (∃ (b : Fin 16) (f : BankFrame) (s : State), (s.posted = []) ∧ ((f.crcOk = false ∨ f.seq ≠ (s.bank b.val).inSeq))) ∧
    (∃ (b : Fin 16) (h : Nat) (s : State), (s.posted = []) ∧ ((s.bank b.val).lastOut = some h) ∧ (s.bankLive b.val = true) ∧ (s.on (FB.BANK_STAT_LOGIC_SILENT b.val) = false)) ∧
    (∃ (b : Fin 16) (s : State), (s.mstate ≠ stPOWER_ON) ∧ (s.enabled (0x20 + b.val) = true) ∧ (s.on (FB.BANK_STAT_INPUT_LOST b.val) = false)) ∧
    (∃ (b : Fin 16) (h : Nat) (s : State), (s.posted = []) ∧ ((s.bank b.val).lastDrive = some h) ∧ (s.bankLive b.val = true) ∧ (s.actMode b.val = 2) ∧ (s.on (FB.BANK_STAT_RELEASED b.val) = false)) ∧
    (∃ (ch : Fin 256) (h : Nat) (s : State), (s.posted = []) ∧ ((s.chan ch.val).holdSince = some h) ∧ (s.chLive ch.val = true) ∧ (s.on (FB.CH_CFG_TIMED_SAFE (bk ch.val) (li ch.val)) = true) ∧ (s.outSt ch.val = 1)) :=
  ⟨⟨(3), (0), (⟨0, true⟩), (wS 4 [(RDC.ROLE_DRIVING, 1)]), by decide +kernel⟩,
    ⟨(3), (2), (⟨0xFFFF, true⟩), ({ wS 2 [] with banks := [(3, { Bank.blank with outSeq := 0xFFFF })] }), by decide +kernel⟩,
    ⟨(3), (2), (⟨7, false⟩), (wS 2 [(FB.FRAME_CNT_CRC_ERR_CNT 3, 255)]), by decide +kernel⟩,
    ⟨(3), (2), (⟨7, true⟩), (wS 2 []), by decide +kernel⟩,
    ⟨(3), (⟨0, true⟩), (({ wS 4 [(FB.CH_CFG_EN 3 2, 1), (FB.CH_CFG_TYPE 3 2, 2), (FB.CH_SLOT_SLOT 3 2, 8191)] with chans := [(50, { Chan.blank with cap := true, sampled := true })] } : State).setSlot 8191 ⟨3, 0x01320000⟩), by decide +kernel⟩,
    ⟨(3), (⟨0, false⟩), (wS 4 []), by decide +kernel⟩,
    ⟨(3), (⟨9, true⟩), (wS 4 []), by decide +kernel⟩,
    ⟨(3), (5), ({ wS 4 [] with banks := [(3, { Bank.blank with lastOut := some 5 })] }), by decide +kernel⟩,
    ⟨(3), ((wS 4 [(FB.CH_CFG_EN 3 2, 1), (FB.CH_CFG_TYPE 3 2, 2), (FB.CH_SLOT_SLOT 3 2, 8191)]).setSlot 8191 ⟨3, 0x81320000⟩), by decide +kernel⟩,
    ⟨(3), (5), ({ wS 4 [(FB.BANK_STAT_DRIVE_MODE 3, 2), (FB.BANK_STAT_RELEASED 3, 0), (FB.CH_CFG_TYPE 3 2, 4)] with banks := [(3, { Bank.blank with lastDrive := some 5 })], chans := [(50, { Chan.blank with applied := 1 })] }), by decide +kernel⟩,
    ⟨(50), (5), ({ wS 4 [(FB.CH_CFG_EN 3 2, 1), (FB.CH_CFG_TYPE 3 2, 6), (FB.CH_CFG_TIMED_SAFE 3 2, 1), (FB.CH_STAT_OUT_STATE 3 2, 1), (FB.CH_TS_TS_VALUE 3 2, 4000)] with chans := [(50, { Chan.blank with holdSince := some 5 })] }), by decide +kernel⟩⟩

/-- The hypotheses of each clause of BankSupplies are met. -/
theorem witness_BankSupplies :
    (∃ (b : Fin 16) (mv : Int) (ma : BitVec 16) (s : State), (s.posted = []) ∧ (s.bankLive b.val = true) ∧ (mv < 18500)) ∧
    (∃ (b : Fin 16) (mv : Int) (ma : BitVec 16) (s : State), (s.posted = []) ∧ (s.bankLive b.val = true) ∧ (mv < 18500)) ∧
    (∃ (b : Fin 16) (mv : Int) (ma : BitVec 16) (s : State), (s.posted = []) ∧ (s.bankLive b.val = true) ∧ (31000 < mv)) ∧
    (∃ (b : Fin 16) (mv : BitVec 16) (ma : BitVec 16) (s : State), (s.posted = []) ∧ (s.bankLive b.val = true) ∧ ((s.on (FB.BANK_STAT_FV_LOW b.val) = true → 19000 < mv.toNat)) ∧ ((s.on (FB.BANK_STAT_FV_HIGH b.val) = true → mv.toNat < 30500)) ∧ (18500 ≤ mv.toNat) ∧ (mv.toNat ≤ 31000)) ∧
    (∃ (b : Fin 16) (s : State), (s.posted = []) ∧ ((s.bank b.val).supply = true)) :=
  ⟨⟨(3), (-5), (7), (wS 4 [(FB.CH_CFG_TYPE 3 2, 4), (FB.CH_STAT_RAW 3 2, 1)]), by decide +kernel⟩,
    ⟨(3), (18499), (7), (wS 4 [(FB.BANK_STAT_FV_LOW 3, 1)]), by decide +kernel⟩,
    ⟨(3), (31001), (7), (wS 4 []), by decide +kernel⟩,
    ⟨(3), (19001), (7), (wS 4 [(FB.BANK_STAT_FV_LOW 3, 1)]), by decide +kernel⟩,
    ⟨(3), (wS 4 [(FB.CH_CFG_TYPE 3 2, 4), (FB.FV_MEAS_FV_MV 3, 24000)]), by decide +kernel⟩⟩

/-- The hypotheses of each clause of DigitalChannels are met. -/
theorem witness_DigitalChannels :
    (∃ (ch : Fin 256) (r : Bool) (s : State), (s.posted = []) ∧ (s.chLive ch.val = true) ∧ (isDI (s.chType ch.val) = true) ∧ ((s.chan ch.val).sampled = false)) ∧
    (∃ (ch : Fin 256) (r : Bool) (n : Nat) (c : Nat) (d : Nat) (s : State), (s.posted = []) ∧ (s.chLive ch.val = true) ∧ (isDI (s.chType ch.val) = true) ∧ ((s.chan ch.val).sampled = true) ∧ (s.on (FB.CH_CFG_XCHK_EN (bk ch.val) (li ch.val)) = false) ∧ (n = s.get (FB.CH_FILT_N (bk ch.val) (li ch.val))) ∧ (c = s.get (FB.CH_STAT_FILT_CNT (bk ch.val) (li ch.val))) ∧ (d = (if r then min (c + 1) n else c - 1))) ∧
    (∃ (ch : Fin 256) (r : Bool) (n : Nat) (c : Nat) (d : Nat) (s : State), (s.posted = []) ∧ (s.chLive ch.val = true) ∧ (isDI (s.chType ch.val) = true) ∧ ((s.chan ch.val).sampled = true) ∧ (s.on (FB.CH_CFG_XCHK_EN (bk ch.val) (li ch.val)) = false) ∧ (n = s.get (FB.CH_FILT_N (bk ch.val) (li ch.val))) ∧ (c = s.get (FB.CH_STAT_FILT_CNT (bk ch.val) (li ch.val))) ∧ (d = (if r then min (c + 1) n else c - 1))) ∧
    (∃ (ch : Fin 256) (r : Bool) (n : Nat) (c : Nat) (d : Nat) (s : State), (s.posted = []) ∧ (s.chLive ch.val = true) ∧ (isDI (s.chType ch.val) = true) ∧ ((s.chan ch.val).sampled = true) ∧ (s.on (FB.CH_CFG_XCHK_EN (bk ch.val) (li ch.val)) = false) ∧ (n = s.get (FB.CH_FILT_N (bk ch.val) (li ch.val))) ∧ (c = s.get (FB.CH_STAT_FILT_CNT (bk ch.val) (li ch.val))) ∧ (d = (if r then min (c + 1) n else c - 1))) ∧
    (∃ (ch : Fin 256) (h : Nat) (s : State), (s.posted = []) ∧ (s.chLive ch.val = true) ∧ (s.chType ch.val = 4) ∧ (s.closed ch.val = true) ∧ ((s.chan ch.val).onSince = some h)) ∧
    (∃ (ch : Fin 256) (h : Nat) (s : State), (s.posted = []) ∧ (s.chLive ch.val = true) ∧ (s.chType ch.val = 4) ∧ (s.commandedOn ch.val = true) ∧ (s.on (FB.CH_STAT_SHORT (bk ch.val) (li ch.val)) = true) ∧ ((s.chan ch.val).shortAt = some h) ∧ ((s.chan ch.val).pulse = none)) ∧
    (∃ (ch : Fin 256) (h : Nat) (s : State), (s.posted = []) ∧ (s.chLive ch.val = true) ∧ (s.chType ch.val = 4) ∧ (s.commandedOn ch.val = true) ∧ (s.on (FB.CH_STAT_SHORT (bk ch.val) (li ch.val)) = true) ∧ ((s.chan ch.val).shortAt = some h)) ∧
    (∃ (ch : Fin 256) (x : Bool) (s : State), (s.posted = []) ∧ (s.chLive ch.val = true) ∧ (s.chType ch.val = 4) ∧ (s.on (FB.CH_STAT_SHORT (bk ch.val) (li ch.val)) = false) ∧ ((s.chan ch.val).pulse = none)) ∧
    (∃ (ch : Fin 256) (x : Bool) (s : State), (s.posted = []) ∧ (s.chLive ch.val = true) ∧ (s.chType ch.val = 4) ∧ (s.on (FB.CH_STAT_SHORT (bk ch.val) (li ch.val)) = false) ∧ ((s.chan ch.val).pulse = none) ∧ ((x = true ∨ s.commandedOn ch.val = true)) ∧ ((s.chan ch.val).rbSince = none)) ∧
    (∃ (ch : Fin 256) (x : Bool) (h : Nat) (s : State), (s.posted = []) ∧ (s.chLive ch.val = true) ∧ (s.chType ch.val = 4) ∧ (s.on (FB.CH_STAT_SHORT (bk ch.val) (li ch.val)) = false) ∧ ((s.chan ch.val).pulse = none) ∧ ((x = true ∨ s.commandedOn ch.val = true)) ∧ ((s.chan ch.val).rbSince = some h)) ∧
    (∃ (ch : Fin 256) (x : Bool) (s : State), (s.posted = []) ∧ (s.chLive ch.val = true) ∧ (s.chType ch.val = 4) ∧ ((x = false ∨ s.energised ch.val = false ∨ s.on (FB.CH_CFG_OPEN_LOAD_EN (bk ch.val) (li ch.val)) = false))) ∧
    (∃ (ch : Fin 256) (s : State), (s.posted = []) ∧ (s.chLive ch.val = true) ∧ (s.chType ch.val = 4) ∧ (s.energised ch.val = true) ∧ (s.on (FB.CH_CFG_OPEN_LOAD_EN (bk ch.val) (li ch.val)) = true) ∧ ((s.chan ch.val).olSince = none)) ∧
    (∃ (ch : Fin 256) (h : Nat) (s : State), (s.posted = []) ∧ (s.chLive ch.val = true) ∧ (s.chType ch.val = 4) ∧ (s.energised ch.val = true) ∧ (s.on (FB.CH_CFG_OPEN_LOAD_EN (bk ch.val) (li ch.val)) = true) ∧ ((s.chan ch.val).olSince = some h)) ∧
    (∃ (ch : Fin 256) (a : BitVec 16) (s : State), (s.posted = []) ∧ (s.chLive ch.val = true) ∧ (s.chType ch.val = 3)) ∧
    (∃ (ch : Fin 256) (a : BitVec 16) (s : State), (s.posted = []) ∧ (s.chLive ch.val = true) ∧ (s.chType ch.val = 3)) :=
  ⟨⟨(50), (true), (wS 4 [(FB.CH_CFG_EN 3 2, 1), (FB.CH_CFG_TYPE 3 2, 1), (FB.CH_FILT_N 3 2, 4), (FB.CH_FILT_SAMPLE 3 2, 10)]), by decide +kernel⟩,
    ⟨(50), (true), (4), (3), (4), ({ wS 4 [(FB.CH_CFG_EN 3 2, 1), (FB.CH_CFG_TYPE 3 2, 1), (FB.CH_FILT_N 3 2, 4), (FB.CH_FILT_SAMPLE 3 2, 10), (FB.CH_STAT_FILT_CNT 3 2, 3)] with chans := [(50, { Chan.blank with sampled := true })] }), by decide +kernel⟩,
    ⟨(50), (false), (4), (1), (0), ({ wS 4 [(FB.CH_CFG_EN 3 2, 1), (FB.CH_CFG_TYPE 3 2, 1), (FB.CH_FILT_N 3 2, 4), (FB.CH_FILT_SAMPLE 3 2, 10), (FB.CH_STAT_FILT_CNT 3 2, 1), (FB.CH_STAT_VALUE 3 2, 1)] with chans := [(50, { Chan.blank with sampled := true })] }), by decide +kernel⟩,
    ⟨(50), (false), (4), (0), (0), ({ wS 4 [(FB.CH_CFG_EN 3 2, 1), (FB.CH_CFG_TYPE 3 2, 1), (FB.CH_FILT_N 3 2, 4), (FB.CH_FILT_SAMPLE 3 2, 10)] with chans := [(50, { Chan.blank with sampled := true })] }), by decide +kernel⟩,
    ⟨(50), (5), ({ wS 4 [(FB.CH_CFG_EN 3 2, 1), (FB.CH_CFG_TYPE 3 2, 4), (FB.CH_STAT_OUT_STATE 3 2, 0)] with chans := [(50, { Chan.blank with applied := 1, onSince := some 5 })] }), by decide +kernel⟩,
    ⟨(50), (5), ({ wS 4 [(FB.CH_CFG_EN 3 2, 1), (FB.CH_CFG_TYPE 3 2, 4), (FB.CH_STAT_OUT_STATE 3 2, 0), (FB.CH_STAT_SHORT 3 2, 1)] with chans := [(50, { Chan.blank with applied := 1, shortAt := some 5 })] }), by decide +kernel⟩,
    ⟨(50), (5), ({ wS 4 [(FB.CH_CFG_EN 3 2, 1), (FB.CH_CFG_TYPE 3 2, 4), (FB.CH_STAT_OUT_STATE 3 2, 0), (FB.CH_STAT_SHORT 3 2, 1)] with chans := [(50, { Chan.blank with applied := 1, shortAt := some 5 })] }), by decide +kernel⟩,
    ⟨(50), (true), (wS 4 [(FB.CH_CFG_EN 3 2, 1), (FB.CH_CFG_TYPE 3 2, 4), (FB.CH_STAT_READBACK_ERR 3 2, 1)]), by decide +kernel⟩,
    ⟨(50), (true), (wS 4 [(FB.CH_CFG_EN 3 2, 1), (FB.CH_CFG_TYPE 3 2, 4)]), by decide +kernel⟩,
    ⟨(50), (true), (5), ({ wS 4 [(FB.CH_CFG_EN 3 2, 1), (FB.CH_CFG_TYPE 3 2, 4)] with chans := [(50, { Chan.blank with rbSince := some 5 })] }), by decide +kernel⟩,
    ⟨(50), (true), (wS 4 [(FB.CH_CFG_EN 3 2, 1), (FB.CH_CFG_TYPE 3 2, 4), (FB.CH_CFG_OPEN_LOAD_EN 3 2, 1), (FB.CH_STAT_OPEN_LOAD 3 2, 1)]), by decide +kernel⟩,
    ⟨(50), ({ wS 4 [(FB.CH_CFG_EN 3 2, 1), (FB.CH_CFG_TYPE 3 2, 4), (FB.CH_CFG_OPEN_LOAD_EN 3 2, 1), (FB.CH_STAT_OUT_STATE 3 2, 0)] with chans := [(50, { Chan.blank with applied := 1 })] }), by decide +kernel⟩,
    ⟨(50), (5), ({ wS 4 [(FB.CH_CFG_EN 3 2, 1), (FB.CH_CFG_TYPE 3 2, 4), (FB.CH_CFG_OPEN_LOAD_EN 3 2, 1), (FB.CH_STAT_OUT_STATE 3 2, 0)] with chans := [(50, { Chan.blank with applied := 1, olSince := some 5 })] }), by decide +kernel⟩,
    ⟨(194), (149), (wS 4 [(FB.CH_CFG_EN 12 2, 1), (FB.CH_CFG_TYPE 12 2, 3)]), by decide +kernel⟩,
    ⟨(194), (6000), (wS 4 [(FB.CH_CFG_EN 12 2, 1), (FB.CH_CFG_TYPE 12 2, 3), (FB.CH_STAT_LINE_FAULT 12 2, 1)]), by decide +kernel⟩⟩

/-- The hypotheses of each clause of PulsesAndTrips are met. -/
theorem witness_PulsesAndTrips :
    (∃ (ch : Fin 256) (p : Bool) (s : State), (s.posted = []) ∧ (s.pulseDue ch.val = some p) ∧ (s.energised ch.val = true) ∧ ((s.chan ch.val).pulse = none) ∧ (s.atTime s.tku.base.toNat = true)) ∧
    (∃ (ch : Fin 256) (h : Bool) (w : BitVec 16) (p : Pulse) (s : State), (s.posted = []) ∧ ((s.chan ch.val).pulse = some p) ∧ (p.killed = false)) ∧
    (∃ (ch : Fin 256) (h : Bool) (w : BitVec 16) (p : Pulse) (s : State), (s.posted = []) ∧ ((s.chan ch.val).pulse = some p) ∧ (p.killed = false)) ∧
    (∃ (ch : Fin 256) (h : Bool) (w : BitVec 16) (p : Pulse) (s : State), (s.posted = []) ∧ ((s.chan ch.val).pulse = some p) ∧ (p.killed = true)) ∧
    (∃ (ch : Fin 256) (p : Pulse) (s : State), (s.posted = []) ∧ ((s.chan ch.val).pulse = some p)) ∧
    (∃ (b : Fin 16) (s : State), (s.posted = []) ∧ (s.bankLive b.val = true)) ∧
    (∃ (b : Fin 16) (w : BitVec 16) (q : BitVec 8) (s : State), (s.posted = []) ∧ (s.bankLive b.val = true) ∧ ((s.bank b.val).tripSeq ≠ some q.toNat)) ∧
    (∃ (b : Fin 16) (w : BitVec 16) (c : BitVec 16) (q : BitVec 8) (s : State), (s.posted = []) ∧ (s.bankLive b.val = true) ∧ ((c ≠ ~~~w ∨ (s.bank b.val).tripSeq = some q.toNat))) ∧
    (∃ (b : Fin 16) (w : BitVec 16) (c : BitVec 16) (q : BitVec 8) (s : State), (s.posted = []) ∧ (s.bankLive b.val = true) ∧ ((c ≠ ~~~w ∨ (s.bank b.val).tripSeq = some q.toNat))) ∧
    (∃ (b : Fin 16) (s : State), (s.posted = []) ∧ (s.bankLive b.val = true)) :=
  ⟨⟨(48), (false), ({ wS 4 [(FB.CH_CFG_EN 3 0, 1), (FB.CH_CFG_TYPE 3 0, 4), (FB.CH_CFG_PULSE_EN 3 0, 1), (FB.CH_STAT_OUT_STATE 3 0, 0)] with chans := [(48, { Chan.blank with applied := 1 })] }), by decide +kernel⟩,
    ⟨(48), (true), (0), (⟨false, 5, 300000, false⟩), ({ wS 4 [(FB.CH_CFG_EN 3 0, 1), (FB.CH_CFG_TYPE 3 0, 4)] with chans := [(48, { Chan.blank with pulse := some ⟨false, 5, 300000, false⟩ })] }), by decide +kernel⟩,
    ⟨(48), (false), (0), (⟨true, 5, 300000, false⟩), ({ wS 4 [(FB.CH_CFG_EN 3 0, 1), (FB.CH_CFG_TYPE 3 0, 4)] with chans := [(48, { Chan.blank with failMain := true, pulse := some ⟨true, 5, 300000, false⟩ })] }), by decide +kernel⟩,
    ⟨(48), (true), (0), (⟨false, 5, 300000, true⟩), ({ wS 4 [] with chans := [(48, { Chan.blank with pulse := some ⟨false, 5, 300000, true⟩ })] }), by decide +kernel⟩,
    ⟨(48), (⟨false, 5, 300000, true⟩), ({ wS 4 [] with chans := [(48, { Chan.blank with pulse := some ⟨false, 5, 300000, true⟩ })] }), by decide +kernel⟩,
    ⟨(3), (wS 4 [(FB.CH_CFG_SAFETY 3 2, 1), (FB.CH_CFG_TYPE 3 2, 2), (FB.CH_STAT_VALUE 3 2, 1)]), by decide +kernel⟩,
    ⟨(3), (0xFFFB), (9), (wS 4 [(FB.CH_CFG_SAFETY 3 2, 1), (FB.CH_CFG_TYPE 3 2, 4)]), by decide +kernel⟩,
    ⟨(3), (0xFFFB), (5), (9), (wS 4 []), by decide +kernel⟩,
    ⟨(3), (0xFFFB), (4), (9), ({ wS 4 [] with banks := [(3, { Bank.blank with tripSeq := some 9 })] }), by decide +kernel⟩,
    ⟨(3), (wS 4 [(FB.CH_CFG_SAFETY 3 2, 1), (FB.CH_CFG_TYPE 3 2, 4), (FB.BANK_STAT_TRIP_LINK_OK 3, 1)]), by decide +kernel⟩⟩

/-- The hypotheses of each clause of AnalogueChannels are met. -/
theorem witness_AnalogueChannels :
    (∃ (ch : Fin 256) (h : Nat) (s : State), (s.posted = []) ∧ (s.chLive ch.val = true) ∧ (s.chType ch.val = 5) ∧ (optMin (s.chan ch.val).loSince (optMin (s.chan ch.val).openSince (s.chan ch.val).hiSince) = some h)) ∧
    (∃ (ch : Fin 256) (x : Bool) (s : State), (s.posted = []) ∧ (s.chLive ch.val = true) ∧ (s.chType ch.val = 5) ∧ (s.on (FB.AN_CFG_LOOP_PWR (bk ch.val) (li ch.val)) = true) ∧ (x = s.on (FB.AN_STAT_SUPPLY_LIMIT (bk ch.val) (li ch.val)))) ∧
    (∃ (ch : Fin 256) (x : Bool) (s : State), (s.posted = []) ∧ (s.chLive ch.val = true) ∧ (s.chType ch.val = 5) ∧ (s.on (FB.AN_CFG_LOOP_PWR (bk ch.val) (li ch.val)) = true) ∧ (x ≠ s.on (FB.AN_STAT_SUPPLY_LIMIT (bk ch.val) (li ch.val))) ∧ ((s.chan ch.val).supSince = none)) ∧
    (∃ (ch : Fin 256) (x : Bool) (h : Nat) (s : State), (s.posted = []) ∧ (s.chLive ch.val = true) ∧ (s.chType ch.val = 5) ∧ (s.on (FB.AN_CFG_LOOP_PWR (bk ch.val) (li ch.val)) = true) ∧ (x ≠ s.on (FB.AN_STAT_SUPPLY_LIMIT (bk ch.val) (li ch.val))) ∧ ((s.chan ch.val).supSince = some h)) ∧
    (∃ (ch : Fin 256) (mv : BitVec 16) (s : State), (s.posted = []) ∧ (s.chLive ch.val = true) ∧ (isAO (s.chType ch.val) = true) ∧ (s.outSt ch.val ≠ 3) ∧ (s.canDrive (bk ch.val) = true) ∧ ((s.chan ch.val).complSince = none)) ∧
    (∃ (ch : Fin 256) (mv : BitVec 16) (s : State), (s.posted = []) ∧ (s.bankLive (bk ch.val) = true) ∧ (isAO (s.chType ch.val) = true) ∧ ((s.chan ch.val).complSince ≠ none)) ∧
    (∃ (ch : Fin 256) (h : Nat) (s : State), (s.posted = []) ∧ (s.chLive ch.val = true) ∧ (isAO (s.chType ch.val) = true) ∧ ((s.chan ch.val).complSince = some h) ∧ (s.on (FB.AN_STAT_COMPLIANCE (bk ch.val) (li ch.val)) = true) ∧ (s.on (FB.AN_STAT_COMPL_FAULT (bk ch.val) (li ch.val)) = false) ∧ (s.on (FB.AN_STAT_OPEN_LOOP (bk ch.val) (li ch.val)) = false)) ∧
    (∃ (ch : Fin 256) (h : Nat) (s : State), (s.posted = []) ∧ (s.chLive ch.val = true) ∧ (isAO (s.chType ch.val) = true) ∧ ((s.chan ch.val).complSince = some h) ∧ (s.on (FB.AN_STAT_COMPLIANCE (bk ch.val) (li ch.val)) = true) ∧ (s.on (FB.AN_STAT_COMPL_FAULT (bk ch.val) (li ch.val)) = false) ∧ (s.on (FB.AN_STAT_OPEN_LOOP (bk ch.val) (li ch.val)) = false)) ∧
    (∃ (ch : Fin 256) (h : Nat) (s : State), (s.posted = []) ∧ (s.joins ch.val = true) ∧ (s.get (FB.AN_STAT_JOIN (bk ch.val) (li ch.val)) = 1) ∧ ((s.chan ch.val).joinSince = some h)) ∧
    (∃ (ch : Fin 256) (h : Nat) (s : State), (s.posted = []) ∧ (s.joins ch.val = true) ∧ (s.get (FB.AN_STAT_JOIN (bk ch.val) (li ch.val)) = 2) ∧ ((s.chan ch.val).joinSince = some h)) :=
  ⟨⟨(50), (5), ({ wS 4 [(FB.CH_CFG_EN 3 2, 1), (FB.CH_CFG_TYPE 3 2, 5)] with chans := [(50, { Chan.blank with loSince := some 5, hiSince := some 7000000 })] }), by decide +kernel⟩,
    ⟨(50), (false), ({ wS 4 [(FB.CH_CFG_EN 3 2, 1), (FB.CH_CFG_TYPE 3 2, 5), (FB.AN_CFG_LOOP_PWR 3 2, 1)] with chans := [(50, { Chan.blank with supSince := some 5 })] }), by decide +kernel⟩,
    ⟨(50), (true), (wS 4 [(FB.CH_CFG_EN 3 2, 1), (FB.CH_CFG_TYPE 3 2, 5), (FB.AN_CFG_LOOP_PWR 3 2, 1)]), by decide +kernel⟩,
    ⟨(50), (true), (5), ({ wS 4 [(FB.CH_CFG_EN 3 2, 1), (FB.CH_CFG_TYPE 3 2, 5), (FB.AN_CFG_LOOP_PWR 3 2, 1)] with chans := [(50, { Chan.blank with supSince := some 5 })] }), by decide +kernel⟩,
    ⟨(50), (20000), (wS 4 [(FB.CH_CFG_EN 3 2, 1), (FB.CH_CFG_TYPE 3 2, 6), (FB.CH_STAT_OUT_STATE 3 2, 0)]), by decide +kernel⟩,
    ⟨(50), (20000), ({ wS 4 [(FB.CH_CFG_EN 3 2, 1), (FB.CH_CFG_TYPE 3 2, 7), (FB.AN_STAT_COMPLIANCE 3 2, 1)] with chans := [(50, { Chan.blank with complSince := some 5 })] }), by decide +kernel⟩,
    ⟨(50), (5), ({ wS 4 [(FB.CH_CFG_EN 3 2, 1), (FB.CH_CFG_TYPE 3 2, 6), (FB.AN_STAT_COMPLIANCE 3 2, 1)] with chans := [(50, { Chan.blank with complSince := some 5, applied := 1000000, own := 199999 })] }), by decide +kernel⟩,
    ⟨(50), (5), ({ wS 4 [(FB.CH_CFG_EN 3 2, 1), (FB.CH_CFG_TYPE 3 2, 6), (FB.AN_STAT_COMPLIANCE 3 2, 1)] with chans := [(50, { Chan.blank with complSince := some 5, applied := 1000000, own := 200000 })] }), by decide +kernel⟩,
    ⟨(50), (5), ({ wS 4 [(FB.CH_CFG_EN 3 2, 1), (FB.CH_CFG_TYPE 3 2, 6), (FB.AN_CFG_RED 3 2, 1), (FB.CH_STAT_OUT_STATE 3 2, 0), (FB.AN_STAT_JOIN 3 2, 1)] with chans := [(50, { Chan.blank with total := 99999, joinSince := some 5 })] }), by decide +kernel⟩,
    ⟨(50), (5), ({ wS 4 [(FB.CH_CFG_EN 3 2, 1), (FB.CH_CFG_TYPE 3 2, 6), (FB.AN_CFG_RED 3 2, 1), (FB.CH_STAT_OUT_STATE 3 2, 0), (FB.AN_STAT_JOIN 3 2, 2)] with chans := [(50, { Chan.blank with total := 200001, joinSince := some 5 })] }), by decide +kernel⟩⟩

/-- The hypotheses of each clause of HartTransactions are met. -/
theorem witness_HartTransactions :
    (∃ (b : Fin 16) (r : Nat) (d : Desc) (l : List Byte) (s : State), (s.posted = []) ∧ (s.bankLive b.val = true) ∧ (s.enabled (0x20 + b.val) = true) ∧ (r = s.get (FB.HART_CFG_TX_RING b.val)) ∧ (s.get (QMG.RING_EP_CONS_CLASS r) = epHart) ∧ (s.get (QMG.RING_EP_CONS_INST r) = b.val) ∧ (s.ringHead r = some d) ∧ (bufOk d.buf d.len = true) ∧ (8 ≤ d.len) ∧ (l = s.bytes d.buf d.len) ∧ (setByteAt l 0 < 16) ∧ (4 ≤ setLEAt l 4 2) ∧ (setLEAt l 4 2 ≤ 263) ∧ (8 + setLEAt l 4 2 ≤ d.len) ∧ ((s.chan (16 * b.val + setByteAt l 0)).hart.length < 2)) ∧
    (∃ (ch : Fin 256) (p : Nat) (n : Nat) (r : HartReq) (l : List HartReq) (s : State), (s.posted = []) ∧ (s.modemLive ch.val = true) ∧ ((s.chan ch.val).hart = r :: l) ∧ (r.sentAt = none) ∧ ((r.attempts ≠ 0 ∨ s.hartOk ch.val = true)) ∧ (p = (if r.attempts = 0 then s.get (FB.HART_CFG_PREAMBLE (bk ch.val)) else r.pre)) ∧ (n = (if r.attempts = 0 then s.get (FB.HART_CFG_RETRIES (bk ch.val)) else r.retries))) ∧
    (∃ (ch : Fin 256) (r : HartReq) (l : List HartReq) (s : State), (s.posted = []) ∧ (s.modemLive ch.val = true) ∧ ((s.chan ch.val).hart = r :: l) ∧ (r.sentAt = none) ∧ (r.attempts = 0) ∧ (s.hartOk ch.val = false)) ∧
    (∃ (ch : Fin 256) (ago : Nat) (x : Nat) (f : List (BitVec 8)) (r : HartReq) (l : List HartReq) (s : State), (s.posted = []) ∧ (s.modemLive ch.val = true) ∧ ((s.chan ch.val).hart = r :: l) ∧ (r.sentAt = some x) ∧ (x + ago ≤ s.mono) ∧ (s.mono ≤ x + hartChars 28 + ago)) ∧
    (∃ (ch : Fin 256) (ago : Nat) (x : Nat) (e : HartErr) (f : List (BitVec 8)) (r : HartReq) (l : List HartReq) (s : State), (s.posted = []) ∧ (s.modemLive ch.val = true) ∧ ((s.chan ch.val).hart = r :: l) ∧ (r.sentAt = some x) ∧ (x + ago ≤ s.mono) ∧ ((e ≠ .none ∨ x + hartChars 28 + ago < s.mono))) ∧
    (∃ (ch : Fin 256) (ago : Nat) (x : Nat) (e : HartErr) (f : List (BitVec 8)) (r : HartReq) (l : List HartReq) (s : State), (s.posted = []) ∧ (s.modemLive ch.val = true) ∧ ((s.chan ch.val).hart = r :: l) ∧ (r.sentAt = some x) ∧ (x + ago ≤ s.mono) ∧ ((e ≠ .none ∨ x + hartChars 28 + ago < s.mono))) ∧
    (∃ (ch : Fin 256) (h : Nat) (r : HartReq) (l : List HartReq) (s : State), (s.posted = []) ∧ (s.modemLive ch.val = true) ∧ ((s.chan ch.val).hart = r :: l) ∧ (r.sentAt = some h)) ∧
    (∃ (ch : Fin 256) (ago : Nat) (f : List (BitVec 8)) (s : State), (s.posted = []) ∧ (s.modemLive ch.val = true) ∧ (s.chEn ch.val = true) ∧ (s.hartModem ch.val = true)) :=
  ⟨⟨(3), (5), (⟨0x20001000, 13, 0, false, false, false, false, false, 0, 0, 0⟩), ([2, 1, 7, 0, 5, 0, 0, 0, 1, 2, 3, 4, 5]), ((({ wS 4 [(FB.HART_CFG_TX_RING 3, 5), (QMG.RING_EP_CONS_CLASS 5, 7), (QMG.RING_EP_CONS_INST 5, 3), (QMG.RING_CFG_EN 5, 1), (QMG.RING_BASE 5, 0x20000000), (QMG.RING_PROD_PROD_IDX 5, 1)] with mem := [] } : State).setBytes 0x20001000 [2, 1, 7, 0, 5, 0, 0, 0, 1, 2, 3, 4, 5]).putDesc 5 0 ⟨0x20001000, 13, 0, false, false, false, false, false, 0, 0, 0⟩), by decide +kernel⟩,
    ⟨(50), (5), (1), (⟨false, 7, [2, 0, 0, 0], 1, none, 5, 1⟩), ([]), ({ wS 4 [] with chans := [(50, { Chan.blank with hart := [⟨false, 7, [2, 0, 0, 0], 1, none, 5, 1⟩] })] }), by decide +kernel⟩,
    ⟨(50), (⟨false, 7, [2, 0, 0, 0], 0, none, 5, 1⟩), ([]), ({ wS 2 [] with chans := [(50, { Chan.blank with hart := [⟨false, 7, [2, 0, 0, 0], 0, none, 5, 1⟩] })] }), by decide +kernel⟩,
    ⟨(50), (900), (5), ([6, 0, 0, 0]), (⟨false, 7, [2, 0, 0, 0], 1, some 5, 5, 1⟩), ([]), ({ wS 4 [] with chans := [(50, { Chan.blank with hart := [⟨false, 7, [2, 0, 0, 0], 1, some 5, 5, 1⟩] })], tku := { State.reset.tku with mono := 1000 } }), by decide +kernel⟩,
    ⟨(50), (0), (5), (.carrier), ([]), (⟨false, 7, [2, 0, 0, 0], 1, some 5, 5, 1⟩), ([]), ({ wS 4 [(FB.HART_CFG_RETRIES 3, 1)] with chans := [(50, { Chan.blank with hart := [⟨false, 7, [2, 0, 0, 0], 1, some 5, 5, 1⟩] })], tku := { State.reset.tku with mono := 1000 } }), by decide +kernel⟩,
    ⟨(50), (0), (5), (.frame), ([]), (⟨false, 7, [2, 0, 0, 0], 2, some 5, 5, 1⟩), ([]), ({ wS 4 [(FB.HART_CFG_RETRIES 3, 1)] with chans := [(50, { Chan.blank with hart := [⟨false, 7, [2, 0, 0, 0], 2, some 5, 5, 1⟩] })], tku := { State.reset.tku with mono := 1000 } }), by decide +kernel⟩,
    ⟨(50), (5), (⟨false, 7, [2, 0, 0, 0], 1, some 5, 5, 1⟩), ([]), ({ wS 4 [(FB.HART_CFG_RETRIES 3, 1)] with chans := [(50, { Chan.blank with hart := [⟨false, 7, [2, 0, 0, 0], 1, some 5, 5, 1⟩] })] }), by decide +kernel⟩,
    ⟨(50), (7), ([1]), (wS 4 [(FB.CH_CFG_EN 3 2, 1), (FB.CH_CFG_TYPE 3 2, 6), (FB.AN_CFG_HART_MODE 3 2, 1)]), by decide +kernel⟩⟩

/-- The hypotheses of each clause of PairFaults are met. -/
theorem witness_PairFaults :
    (∃ (u : Fin 8) (k : Nat) (l : CopyOut) (r : CopyOut) (pc : BitVec 32) (s : State), (u.val < 4) ∧ (s.pairLocked u.val = true) ∧ (s.mstate = stRUN) ∧ (k = (if l.addr ≠ r.addr ∨ l.ctrl ≠ r.ctrl then 1 else if l.data ≠ r.data then 2 else if retireSig l.retired ≠ retireSig r.retired then 3 else 0)) ∧ (k ≠ 0)) ∧
    (∃ (u : Fin 8) (k : Nat) (l : CopyOut) (r : CopyOut) (pc : BitVec 32) (s : State), (u.val < 4) ∧ (s.pairLocked u.val = true) ∧ (s.mstate = stRUN) ∧ (k = (if l.addr ≠ r.addr ∨ l.ctrl ≠ r.ctrl then 1 else if l.data ≠ r.data then 2 else if retireSig l.retired ≠ retireSig r.retired then 3 else 0)) ∧ (k ≠ 0)) ∧
    (∃ (u : Fin 8) (l : CopyOut) (r : CopyOut) (pc : BitVec 32) (s : State), (4 ≤ u.val) ∧ (s.lsqLive (u.val - 4) = true) ∧ (s.mstate = stRUN) ∧ ((l.addr ≠ r.addr ∨ l.ctrl ≠ r.ctrl ∨ l.data ≠ r.data))) ∧
    (∃ (u : Fin 8) (l : CopyOut) (r : CopyOut) (pc : BitVec 32) (s : State), (s.posted = []) ∧ (((u.val < 4 ∧ s.on (SCP.PAIR_STAT_HALTED u.val) = true) ∨ l = r))) ∧
    (∃ (u : Fin 8) (l : CopyOut) (r : CopyOut) (pc : BitVec 32) (s : State), (s.posted = []) ∧ (((u.val < 4 ∧ s.on (SCP.PAIR_STAT_HALTED u.val) = true) ∨ l = r))) ∧
    (∃ (u : Fin 8) (r : LaneTest) (pc : BitVec 32) (s : State), (s.posted = []) ∧ (u.val < 4) ∧ (s.pairLocked u.val = true) ∧ ((∀ b ∈ r.lanes1, b = true)) ∧ (r.sum1 = true) ∧ ((∀ b ∈ r.lanes2, b = false)) ∧ (r.sum2 = false)) ∧
    (∃ (u : Fin 8) (r : LaneTest) (pc : BitVec 32) (s : State), (u.val < 4) ∧ (s.pairLocked u.val = true) ∧ (s.mstate = stRUN) ∧ ((false ∈ r.lanes1 ∨ r.sum1 = false ∨ true ∈ r.lanes2 ∨ r.sum2 = true))) ∧
    (∃ (u : Fin 8) (r : LaneTest) (pc : BitVec 32) (s : State), (4 ≤ u.val) ∧ (s.lsqLive (u.val - 4) = true) ∧ (s.mstate = stRUN) ∧ ((false ∈ r.lanes1 ∨ r.sum1 = false ∨ true ∈ r.lanes2 ∨ r.sum2 = true))) ∧
    (∃ (u : Fin 8) (pc : BitVec 32) (a : BitVec 32) (s : State), (u.val < 4) ∧ (s.pairLocked u.val = true) ∧ (s.mstate = stRUN)) ∧
    (∃ (u : Fin 8) (pc : BitVec 32) (a : BitVec 32) (s : State), (4 ≤ u.val) ∧ (s.lsqLive (u.val - 4) = true) ∧ (s.mstate = stRUN)) ∧
    (∃ (p : Fin 4) (k : AgreeKind) (n : BitVec 32) (pc : BitVec 32) (d : BitVec 64) (d1 : Bool) (d3 : Bool) (d4 : Bool) (dt : Nat) (r : Bool) (x : Bool) (per : Nat) (old : Nat) (s : State), (s.pairLocked p.val = true) ∧ (per = s.get WEIR.WEIR_CFG_PERIOD) ∧ (0 < per) ∧ (old = s.get64 (SCP.RETIRED_LO p.val) (SCP.RETIRED_HI p.val))) ∧
    (∃ (p : Fin 4) (k : AgreeKind) (n : BitVec 32) (pc : BitVec 32) (d : BitVec 64) (d1 : Bool) (d3 : Bool) (d4 : Bool) (dt : Nat) (r : Bool) (x : Bool) (per : Nat) (old : Nat) (s : State), (s.pairLocked p.val = true) ∧ (per = s.get WEIR.WEIR_CFG_PERIOD) ∧ (0 < per) ∧ (old = s.get64 (SCP.RETIRED_LO p.val) (SCP.RETIRED_HI p.val))) :=
  ⟨⟨(2), (2), (⟨0x20000000, 1, 2, []⟩), (⟨0x20000000, 1, 3, []⟩), (0x80000010), (wS 4 []), by decide +kernel⟩,
    ⟨(2), (1), (⟨0x20000000, 1, 2, []⟩), (⟨0x20000000, 0, 3, []⟩), (0x80000010), (wS 4 []), by decide +kernel⟩,
    ⟨(6), (⟨0x20000000, 1, 2, []⟩), (⟨0x20000000, 1, 3, []⟩), (0x80000010), (wS 4 []), by decide +kernel⟩,
    ⟨(2), (⟨0x20000000, 1, 2, []⟩), (⟨0x20000000, 1, 3, []⟩), (0x80000010), (wS 5 [(SCP.PAIR_STAT_HALTED 2, 1)]), by decide +kernel⟩,
    ⟨(7), (⟨0x20000000, 1, 2, []⟩), (⟨0x20000000, 1, 2, []⟩), (0x80000010), (wS 4 []), by decide +kernel⟩,
    ⟨(2), (⟨[true, true], true, [false, false], false⟩), (0x80000010), (wS 4 [(SCP.SELFTEST_CNT 2, 0xFFFFFFFF)]), by decide +kernel⟩,
    ⟨(2), (⟨[true, false], true, [false, false], false⟩), (0x80000010), (wS 4 []), by decide +kernel⟩,
    ⟨(5), (⟨[true, false], true, [false, false], false⟩), (0x80000010), (wS 4 []), by decide +kernel⟩,
    ⟨(2), (0x80000010), (0x20000000), (wS 4 []), by decide +kernel⟩,
    ⟨(4), (0x80000010), (0x20000000), (wS 4 []), by decide +kernel⟩,
    ⟨(2), (.period), (9), (7), (6), (true), (false), (false), (2041), (false), (false), ((wS 4 [(SCP.RETIRED_LO 2, 0xFFFFFFFF), (SCP.IRQ_PEND0 2, 5), (WEIR.WEIR_CFG_RETRY, 3), (WEIR.WEIR_CFG_TOL, 255)]).get WEIR.WEIR_CFG_PERIOD), (0xFFFFFFFF), (wS 4 [(SCP.RETIRED_LO 2, 0xFFFFFFFF), (SCP.IRQ_PEND0 2, 5), (WEIR.WEIR_CFG_RETRY, 3), (WEIR.WEIR_CFG_TOL, 255)]), by decide +kernel⟩,
    ⟨(2), (.time), (9), (7), (6), (true), (false), (true), (8), (true), (true), (({ wS 4 [(WEIR.WEIR_CFG_RETRY, 2), (WEIR.WEIR_CFG_TOL, 1)] with pairs := [(2, { Pair.blank with diff := [(4, 1)] })] }).get WEIR.WEIR_CFG_PERIOD), (0), ({ wS 4 [(WEIR.WEIR_CFG_RETRY, 2), (WEIR.WEIR_CFG_TOL, 1)] with pairs := [(2, { Pair.blank with diff := [(4, 1)] })] }), by decide +kernel⟩⟩

/-- The hypotheses of each clause of InterruptsAndMemoryChecks are met. -/
theorem witness_InterruptsAndMemoryChecks :
    (∃ (g : Fin 256) (p : Fin 4) (k : Fin 64) (s : State), (s.posted = []) ∧ (s.irqOut g.val = true) ∧ (s.on (SCP.IRQ_MAP_EN p.val k.val) = true) ∧ (s.get (SCP.IRQ_MAP_PAGE p.val k.val) = g.val) ∧ (s.domRuns p.val = true)) ∧
    (∃ (p : Fin 4) (x : Bool) (s : State), (s.posted = []) ∧ ((x = true → s.isSplit p.val = true)) ∧ (s.domRuns p.val = true)) ∧
    (∃ (c : Fin 8) (d : Bool) (a : BitVec 32) (s : State), (s.posted = []) ∧ (s.mstate ≠ stPOWER_ON)) ∧
    (∃ (k : Fin 6) (a : BitVec 32) (s : State), (s.posted = []) ∧ (s.mstate ≠ stPOWER_ON)) ∧
    (∃ (k : Fin 6) (a : BitVec 32) (h : Fin 8) (pc : BitVec 32) (s : State), (s.posted = []) ∧ (s.mstate ≠ stPOWER_ON) ∧ (s.isSplit (h.val / 2) = true)) ∧
    (∃ (m : EccMem) (a : BitVec 32) (h : Fin 8) (pc : BitVec 32) (s : State), (s.mstate = stRUN) ∧ (s.isSplit (h.val / 2) = false) ∧ (s.on (SCP.PAIR_STAT_HALTED (h.val / 2)) = false)) ∧
    (∃ (m : EccMem) (a : BitVec 32) (g : Fin 256) (pc : BitVec 32) (s : State), (s.mstate ≠ stPOWER_ON)) ∧
    (∃ (k : Fin 6) (a : BitVec 32) (f : ScrubFind) (s : State), (s.posted = []) ∧ (s.mstate ≠ stPOWER_ON) ∧ ((eccRange k.val).1 ≤ a.toNat) ∧ (a.toNat < (eccRange k.val).1 + (eccRange k.val).2) ∧ (a.toNat % 4 = 0) ∧ ((s.scrubOf (.mem k)).pos = (a.toNat - (eccRange k.val).1) / 4)) ∧
    (∃ (k : Fin 6) (a : BitVec 32) (f : ScrubFind) (s : State), (s.posted = []) ∧ (s.mstate ≠ stPOWER_ON) ∧ ((eccRange k.val).1 ≤ a.toNat) ∧ (a.toNat < (eccRange k.val).1 + (eccRange k.val).2) ∧ (a.toNat % 4 = 0) ∧ ((s.scrubOf (.mem k)).pos = (a.toNat - (eccRange k.val).1) / 4)) ∧
    (∃ (c : Fin 8) (d : Bool) (a : BitVec 32) (f : ScrubFind) (s : State), (s.posted = []) ∧ (s.mstate ≠ stPOWER_ON) ∧ (a.toNat % 4 = 0) ∧ ((s.scrubOf (.tcm c d)).pos = (2 * (c.val % 2) + (if d then 1 else 0)) * 2 ^ 16 + a.toNat % 2 ^ 18 / 4)) :=
  ⟨⟨(0x24), (2), (63), (wS 4 [(SCP.IRQ_MAP_EN 2 63, 1), (SCP.IRQ_MAP_PAGE 2 63, 0x24), (HDR.PG_ERR_CNT_LOST 0x24, 1), (HDR.PG_IRQ_EN_EN 0x24, 16)]), by decide +kernel⟩,
    ⟨(2), (false), (wS 4 [(SCP.MTIMECMP_LO 2, 1000)]), by decide +kernel⟩,
    ⟨(5), (true), (0x0103FFFC), (wS 4 [(SCP.TCM_ECC_CE_CNT 2, 0xFFFF)]), by decide +kernel⟩,
    ⟨(5), (0x60000004), (wS 4 []), by decide +kernel⟩,
    ⟨(1), (0x80000004), (5), (7), (wS 4 [(SCP.PAIR_STAT_SPLIT 2, 1)]), by decide +kernel⟩,
    ⟨(.tcm 4 false), (0x80000004), (5), (7), (wS 4 []), by decide +kernel⟩,
    ⟨(.mem 0), (0x20000004), (0x40), (7), (wS 4 []), by decide +kernel⟩,
    ⟨(3), (0x3000FFFC), (.single), ({ wS 4 [] with scrubs := [(3, ⟨(0x3000FFFC - (eccRange 3).1) / 4, 0⟩)] }), by decide +kernel⟩,
    ⟨(1), (0xBFFFFFFC), (.clean), ({ wS 4 [] with scrubs := [(1, ⟨(0xBFFFFFFC - (eccRange 1).1) / 4, 0⟩)] }), by decide +kernel⟩,
    ⟨(5), (true), (0x0103FFFC), (.double), ({ wS 4 [] with scrubs := [(8, ⟨2 ^ 18 - 1, 0⟩)] }), by decide +kernel⟩⟩

/-- The hypotheses of each clause of DebugAccess are met. -/
theorem witness_DebugAccess :
    (∃ (m : Master) (s : State), (isUser m = false) ∧ (s.posted = []) ∧ (s.guardOf 0x90 = none) ∧ (s.dbgAuthOpen = true) ∧ (s.dmi = none)) ∧
    (∃ (m : Master) (s : State), (isUser m = false) ∧ (s.posted = []) ∧ (s.guardOf 0x90 = none) ∧ (s.dbgAuthOpen = true) ∧ (s.dmi = none)) ∧
    (∃ (m : Master) (s : State), (isUser m = false) ∧ (s.posted = []) ∧ (s.guardOf 0x90 = none) ∧ ((s.dbgAuthOpen = false ∨ s.dmi ≠ none))) ∧
    (∃ (m : Master) (s : State), (isUser m = false) ∧ (s.posted = []) ∧ (s.guardOf 0x90 = none) ∧ ((s.dbgAuthOpen = false ∨ s.dmi ≠ none))) ∧
    (∃ (f : Bool) (w : BitVec 32) (a : BitVec 7) (d : Word) (s : State), (s.posted = []) ∧ (s.dmi = some (false, a, d))) ∧
    (∃ (w : BitVec 32) (d : Word) (h : Nat) (s : State), (s.posted = []) ∧ (s.dmi = some (true, 0x10, d)) ∧ (d.getLsbD 31 = true) ∧ (h = bits d 16 10 + 1024 * bits d 6 10) ∧ (h < 8) ∧ (h % 2 = 0) ∧ ((s.role = roleACTIVE ∨ s.role = roleSTANDBY))) ∧
    (∃ (w : BitVec 32) (d : Word) (h : Nat) (s : State), (s.posted = []) ∧ (s.dmi = some (true, 0x10, d)) ∧ (d.getLsbD 31 = true) ∧ (h = bits d 16 10 + 1024 * bits d 6 10) ∧ (h < 8) ∧ (h % 2 = 0) ∧ (s.role = roleSINGLE) ∧ (s.pairSafety (h / 2) = false) ∧ (s.pairLocked (h / 2) = true)) ∧
    (∃ (w : BitVec 32) (d : Word) (h : Nat) (s : State), (s.posted = []) ∧ (s.dmi = some (true, 0x10, d)) ∧ (d.getLsbD 31 = true) ∧ (h = bits d 16 10 + 1024 * bits d 6 10) ∧ (h < 8) ∧ (s.role = roleSINGLE) ∧ (s.pairSafety (h / 2) = false) ∧ (s.isSplit (h / 2) = true)) ∧
    (∃ (p : Fin 4) (k : AgreeKind) (n : BitVec 32) (pc : BitVec 32) (d : BitVec 64) (d1 : Bool) (d4 : Bool) (dt : Nat) (r : Bool) (x : Bool) (h : Nat) (s : State), (s.pairLocked p.val = true) ∧ ((s.pair p.val).haltReq = some h) ∧ (h < 8)) ∧
    (∃ (m : Master) (s : State), (isUser m = false) ∧ (s.posted = []) ∧ (s.guardOf 0x90 = none)) ∧
    (∃ (h : Nat) (s : State), (s.dbgAuth = some h)) :=
  ⟨⟨(.dbg), ({ wS 2 [(DBG.DMI_ADDR, 0x11)] with dbgAuth := some 50 }), by decide +kernel⟩,
    ⟨(.dbg), ({ wS 2 [(DBG.DMI_ADDR, 0x10), (DBG.DMI_WDATA, 1)] with dbgAuth := some 50 }), by decide +kernel⟩,
    ⟨(.dbg), (wS 2 []), by decide +kernel⟩,
    ⟨(.dbg), ({ wS 2 [] with dbgAuth := some 50, dmi := some (false, 0x11, 0) }), by decide +kernel⟩,
    ⟨(false), (0xFFFFFFFF), (0x11), (0), ({ wS 2 [] with dmi := some (false, 0x11, 0) }), by decide +kernel⟩,
    ⟨(0), (0x80040001), (4), ({ wS 4 [(RDC.ROLE_ROLE, 1)] with dmi := some (true, 0x10, 0x80040001) }), by decide +kernel⟩,
    ⟨(0), (0x80040001), (4), ({ wS 4 [] with dmi := some (true, 0x10, 0x80040001) }), by decide +kernel⟩,
    ⟨(0), (0x80050001), (5), ({ wS 4 [(SCP.PAIR_STAT_SPLIT 2, 1)] with dmi := some (true, 0x10, 0x80050001) }), by decide +kernel⟩,
    ⟨(2), (.period), (9), (7), (0), (false), (false), (0), (false), (false), (4), ({ wS 4 [(WEIR.WEIR_CFG_RETRY, 3)] with pairs := [(2, { Pair.blank with haltReq := some 4 })] }), by decide +kernel⟩,
    ⟨(.dbg), (wS 2 []), by decide +kernel⟩,
    ⟨(7), ({ wS 4 [] with dbgAuth := some 7 }), by decide +kernel⟩⟩

/-- The hypotheses of each clause of GauntletVotes are met. -/
theorem witness_GauntletVotes :
    (∃ (h : List Nat) (j : Nat) (s : State), (j < 64)) ∧
    (∃ (v : GntTest) (s : State), (s.posted = []) ∧ (s.gnt.stopped = false) ∧ (stCONFIG ≤ s.mstate) ∧ (s.on GNT.GNT_STAT_SCANNING = false) ∧ (s.gnt.tab = [])) ∧
    (∃ (p : Nat) (s : State), (s.posted = []) ∧ (s.gnt.stopped = false) ∧ (stCONFIG ≤ s.mstate) ∧ (s.on GNT.GNT_STAT_SCANNING = true)) ∧
    (∃ (s : State), (s.posted = []) ∧ (s.gnt.stopped = false) ∧ (stCONFIG ≤ s.mstate) ∧ (s.on GNT.GNT_STAT_SCANNING = true)) ∧
    (∃ (s : State), (s.posted = []) ∧ (s.gnt.stopped = false) ∧ (stCONFIG ≤ s.mstate) ∧ (s.on GNT.GNT_STAT_SCANNING = true) ∧ (s.on GNT.GNT_STAT_FAULT = false)) ∧
    (∃ (j : Fin 64) (g : Fin 4) (k : Nat) (since : Nat) (s : State), (s.posted = []) ∧ (s.gntScans = true) ∧ (s.gnt.discSince.find? (fun e => e.1 == 4 * j.val + g.val) = some (k, since)) ∧ (s.gnt.discOver.contains (4 * j.val + g.val) = false)) ∧
    (∃ (i : Fin 128) (since : Nat) (s : State), (s.posted = []) ∧ (s.gntScans = true) ∧ (psIsReset s.gnt.tab i.val = true) ∧ ((s.gin i.val).zeroSince = some since)) ∧
    (∃ (i : Fin 128) (since : Nat) (s : State), (s.posted = []) ∧ (s.gntScans = true) ∧ ((s.gin i.val).pressSince = some since) ∧ (s.on (GNT.IN_RESET_FAULT i.val) = false)) ∧
    (∃ (s : State), (s.posted = []) ∧ (s.gntScans = true) ∧ (s.on GNT.GNT_STAT_FAULT = false)) ∧
    (∃ (s : State), (s.posted = []) ∧ (s.gntScans = true)) ∧
    (∃ (k : BitVec 16) (s : State), (s.posted = []) ∧ (s.mstate ≠ stPOWER_ON) ∧ (s.gnt.stopped = false) ∧ (7680 ≤ k.toNat) ∧ (k.toNat ≤ 8320)) ∧
    (∃ (k : BitVec 16) (s : State), (s.posted = []) ∧ (s.mstate ≠ stPOWER_ON) ∧ (s.gnt.stopped = false) ∧ (7680 ≤ k.toNat) ∧ (k.toNat ≤ 8320)) ∧
    (∃ (k : BitVec 16) (s : State), (s.posted = []) ∧ (s.mstate ≠ stPOWER_ON) ∧ (s.gnt.stopped = false) ∧ ((k.toNat < 7680 ∨ 8320 < k.toNat)) ∧ (s.on GNT.GNT_STAT_FAULT = false)) ∧
    (∃ (k : BitVec 16) (s : State), (s.posted = []) ∧ (s.mstate ≠ stPOWER_ON) ∧ (s.gnt.stopped = false) ∧ ((k.toNat < 7680 ∨ 8320 < k.toNat)) ∧ (s.on GNT.GNT_STAT_FAULT = false)) ∧
    (∃ (s : State), (s.posted = []) ∧ (s.pfw = false) ∧ (s.mstate ≠ stPOWER_ON)) ∧
    (∃ (s : State), (s.posted = []) ∧ (s.sends = true) ∧ (s.schedRun s.safetySeq = true) ∧ (s.gnt.tab.isEmpty = false)) ∧
    (∃ (since : Nat) (s : State), (s.posted = []) ∧ (s.gnt.stopped = false) ∧ (s.gnt.lastVote = some since) ∧ (s.on GNT.VOTE_STAT_HOLDING = false) ∧ (s.on GNT.VOTE_STAT_EXPIRED = false)) ∧
    (∃ (since : Nat) (s : State), (s.posted = []) ∧ (s.gnt.stopped = false) ∧ (s.gnt.lastVote = some since) ∧ (s.on GNT.VOTE_STAT_HOLDING = true) ∧ (s.on GNT.VOTE_STAT_EXPIRED = false)) :=
  ⟨⟨([3]), (5), (wS 4 [(GNT.PV_LO, 32)]), by decide +kernel⟩,
    ⟨(.passDone), (wS 2 []), by decide +kernel⟩,
    ⟨(1200), (wS 4 [(GNT.GNT_STAT_SCANNING, 1), (GNT.SCAN_CNT, 0xFFFFFFFF)]), by decide +kernel⟩,
    ⟨(wS 4 [(GNT.GNT_STAT_SCANNING, 1), (GNT.SELFTEST_PROGRESS, 998)]), by decide +kernel⟩,
    ⟨(wS 4 [(GNT.GNT_STAT_SCANNING, 1)]), by decide +kernel⟩,
    ⟨(5), (2), (22), (0), ({ wS 4 [(GNT.GNT_STAT_SCANNING, 1), (GNT.GNT_CNT0_DISC_CNT, 7)] with gnt := { Gnt.blank with discSince := [(22, 0)] } }), by decide +kernel⟩,
    ⟨(9), (0), ({ wS 4 [(GNT.GNT_STAT_SCANNING, 1), (GNT.IN_RESET_FAULT 9, 1)] with gnt := { Gnt.blank with tab := List.replicate 0x69 2#8 ++ List.replicate 0x1700 2#8, ins := [(9, { GIn.blank with zeroSince := some 0 })] } }), by decide +kernel⟩,
    ⟨(9), (0), ({ wS 4 [(GNT.GNT_STAT_SCANNING, 1), (GNT.IN_RESET_ARMED 9, 1)] with gnt := { Gnt.blank with ins := [(9, { GIn.blank with pressSince := some 0 })] } }), by decide +kernel⟩,
    ⟨(wS 4 [(GNT.GNT_STAT_SCANNING, 1)]), by decide +kernel⟩,
    ⟨(wS 4 [(GNT.GNT_STAT_SCANNING, 1)]), by decide +kernel⟩,
    ⟨(7680), (wS 2 []), by decide +kernel⟩,
    ⟨(8320), (wS 4 []), by decide +kernel⟩,
    ⟨(7679), (wS 2 []), by decide +kernel⟩,
    ⟨(8321), (wS 4 []), by decide +kernel⟩,
    ⟨(wS 4 []), by decide +kernel⟩,
    ⟨({ wS 4 [(LSQ.SEQ_STAT_SCHED_RUN 0, 1)] with gnt := { Gnt.blank with tab := [1#8], vec := 5#64 } }), by decide +kernel⟩,
    ⟨(0), ({ wS 4 [(GNT.PV_LO, 9)] with gnt := { Gnt.blank with lastVote := some 0 } }), by decide +kernel⟩,
    ⟨(0), ({ wS 4 [(GNT.PV_LO, 9), (GNT.VOTE_STAT_HOLDING, 1)] with gnt := { Gnt.blank with lastVote := some 0 } }), by decide +kernel⟩⟩

/-- The hypotheses of each clause of SafetySetAndSessions are met. -/
theorem witness_SafetySetAndSessions :
    (∃ (m : Master) (s : State), (isUser m = false) ∧ (s.posted = []) ∧ (s.guardOf 0x07 = none) ∧ (s.gnt.stopped = false) ∧ (s.mstate = stCONFIG) ∧ (s.get GNT.PSET_STAT_STATE ≠ 3) ∧ (s.bit SYS.SEAL_SW_MODE 1 = false) ∧ (s.pfw = false) ∧ (s.get GNT.PSET_LEN ≠ 0) ∧ (s.get GNT.PSET_SRC % 4096 = 0) ∧ (0x80000000 ≤ s.get GNT.PSET_SRC) ∧ (s.get GNT.PSET_SRC + s.get GNT.PSET_LEN ≤ 0x100000000)) ∧
    (∃ (m : Master) (s : State), (isUser m = false) ∧ (s.posted = []) ∧ (s.guardOf 0x07 = none) ∧ (s.gnt.stopped = false) ∧ (s.mstate ≠ stCONFIG)) ∧
    (∃ (l : List (BitVec 8)) (s : State), (s.posted = []) ∧ (s.get GNT.PSET_STAT_STATE = 3) ∧ (l = s.bytes (s.get GNT.PSET_SRC) (s.get GNT.PSET_LEN))) ∧
    (∃ (m : Master) (v : BitVec 32) (s : State), (isUser m = false) ∧ (s.posted = []) ∧ (s.guardOf 0x07 = none) ∧ (s.gnt.stopped = false) ∧ (s.get GNT.PSET_STAT_STATE = 1) ∧ (s.on GNT.GNT_STAT_SEAL_MISMATCH = false) ∧ ((s.mstate = stCONFIG ∨ s.mstate = stRUN)) ∧ (s.pfw = false) ∧ (v.toNat = s.get GNT.PSET_SIG) ∧ (s.credLocked 1 = false) ∧ (({ s with resp := .done }.put GNT.CRED_STAT_LAST_PURPOSE 1).credProved 1 (natLE 4 (s.get GNT.PSET_SIG)) = true)) ∧
    (∃ (m : Master) (v : BitVec 32) (s : State), (isUser m = false) ∧ (s.posted = []) ∧ (s.guardOf 0x07 = none) ∧ (s.gnt.stopped = false) ∧ (s.get GNT.PSET_STAT_STATE = 1) ∧ (s.on GNT.GNT_STAT_SEAL_MISMATCH = false) ∧ ((s.mstate = stCONFIG ∨ s.mstate = stRUN)) ∧ (s.pfw = false) ∧ (v.toNat = s.get GNT.PSET_SIG) ∧ (s.credLocked 1 = false) ∧ (({ s with resp := .done }.put GNT.CRED_STAT_LAST_PURPOSE 1).credProved 1 (natLE 4 (s.get GNT.PSET_SIG)) = false)) ∧
    (∃ (m : Master) (v : BitVec 32) (s : State), (isUser m = false) ∧ (s.posted = []) ∧ (s.guardOf 0x07 = none) ∧ (s.gnt.stopped = false) ∧ (1 ≤ v.toNat) ∧ (v.toNat ≤ 5) ∧ (s.pfw = false) ∧ (s.credLocked (0x10 + v.toNat) = false) ∧ (({ s with resp := .done }.put GNT.CRED_STAT_LAST_PURPOSE (0x10 + v.toNat)).credProved (0x10 + v.toNat) (s.words8 GNT.CRED_NEW) = true)) ∧
    (∃ (m : Master) (v : BitVec 32) (s : State), (isUser m = false) ∧ (s.posted = []) ∧ (s.guardOf 0x07 = none) ∧ (s.gnt.stopped = false) ∧ ((v.toNat = 0 ∨ 5 < v.toNat))) ∧
    (∃ (m : Master) (v : BitVec 32) (s : State), (isUser m = false) ∧ (s.posted = []) ∧ (s.guardOf 0x07 = none) ∧ (s.gnt.stopped = false) ∧ ((v.toNat = 0 ∨ 5 < v.toNat))) ∧
    (∃ (p : Fin 32) (s : State), (s.posted = [])) ∧
    (∃ (a : BitVec 8) (c : Bool) (l : Bool) (s : State), (s.posted = []) ∧ (s.mstate ≠ stPOWER_ON) ∧ ((a.toNat ≠ s.get SYS.SEAL_SW_SAFETY_ADDR ∨ b2n c + 2 * b2n l ≠ s.get SYS.SEAL_SW_MODE))) ∧
    (∃ (e : Fin 64) (s : State), (s.posted = []) ∧ (e.val ≠ 0) ∧ (s.isVote e.val = false) ∧ (s.maySend e.val = true) ∧ ((s.sessOf e.val).sending = true)) ∧
    (∃ (e : Fin 64) (f : List (BitVec 8)) (a : BitVec 32) (s : State), (s.posted = []) ∧ (e.val ≠ 0) ∧ (s.enabled 0x06 = true) ∧ (s.on (SSE.SESS_CFG_EN e.val) = true) ∧ (s.on (SSE.SESS_CFG_DIR e.val) = false) ∧ (s.get (SSE.SESS_STAT_STATE e.val) = 2) ∧ (s.mono < (s.sessOf e.val).wdogAt) ∧ (frameEntry f = e.val) ∧ (f.length < s.sessLen e.val + 14)) ∧
    (∃ (e : Fin 64) (f : List (BitVec 8)) (a : BitVec 32) (s : State), (s.posted = []) ∧ (e.val ≠ 0) ∧ (s.enabled 0x06 = true) ∧ (s.on (SSE.SESS_CFG_EN e.val) = false) ∧ (s.get (SSE.SESS_STAT_STATE e.val) = 0) ∧ (frameEntry f = e.val)) ∧
    (∃ (e : Fin 64) (s : State), (s.posted = []) ∧ (s.enabled 0x06 = true) ∧ (s.on (SSE.SESS_CFG_EN e.val) = true) ∧ (s.get (SSE.SESS_STAT_STATE e.val) = 2)) ∧
    (∃ (m : Master) (e : Nat) (s : State), (isUser m = false) ∧ (s.posted = []) ∧ (s.guardOf 0x06 = none) ∧ (e = s.get SSE.SESS_SEL) ∧ (s.get (SSE.SESS_STAT_STATE e) = 3) ∧ (s.sessMode e = 1) ∧ (s.sessRestartN e ≤ s.get (SSE.SESS_STAT_GOOD_RUN e))) ∧
    (∃ (m : Master) (e : Nat) (s : State), (isUser m = false) ∧ (s.posted = []) ∧ (s.guardOf 0x06 = none) ∧ (e = s.get SSE.SESS_SEL) ∧ ((s.get (SSE.SESS_STAT_STATE e) ≠ 3 ∨ s.sessMode e ≠ 1 ∨ s.get (SSE.SESS_STAT_GOOD_RUN e) < s.sessRestartN e))) ∧
    (∃ (m : Master) (v : BitVec 32) (e : Nat) (s : State), (isUser m = false) ∧ (s.posted = []) ∧ (s.guardOf 0x06 = none) ∧ (e = s.get SSE.SESS_SEL) ∧ (s.on (SSE.SESS_CFG_EN e) = false) ∧ (s.on (SSE.SESS_CFG_DIR e) = true) ∧ (v = s.rd (rkey 0x06 e 0x084) ||| 1) ∧ (s.voteInSet e = false) ∧ (s.sessFits e = true)) ∧
    (∃ (m : Master) (v : BitVec 32) (e : Nat) (s : State), (isUser m = false) ∧ (s.posted = []) ∧ (s.guardOf 0x06 = none) ∧ (e = s.get SSE.SESS_SEL) ∧ (s.on (SSE.SESS_CFG_EN e) = false) ∧ (s.on (SSE.SESS_CFG_DIR e) = false) ∧ (v = s.rd (rkey 0x06 e 0x084) ||| 1) ∧ (s.voteInSet e = false) ∧ (s.sessFits e = true) ∧ ((s.sessOut e).any (fun n => s.otherProducer n 3 e) = false)) ∧
    (∃ (m : Master) (v : BitVec 32) (e : Nat) (s : State), (isUser m = false) ∧ (s.posted = []) ∧ (s.guardOf 0x06 = none) ∧ (e = s.get SSE.SESS_SEL) ∧ (s.on (SSE.SESS_CFG_EN e) = true) ∧ (v = s.rd (rkey 0x06 e 0x084) &&& ~~~1) ∧ (s.voteRuns e = false)) ∧
    (∃ (m : Master) (v : BitVec 32) (e : Nat) (s : State), (isUser m = false) ∧ (s.posted = []) ∧ (s.guardOf 0x06 = none) ∧ (e = s.get SSE.SESS_SEL) ∧ (s.on (SSE.SESS_CFG_EN e) = true) ∧ (v = s.rd (rkey 0x06 e 0x084) &&& ~~~1) ∧ (s.voteRuns e = true)) :=
  ⟨⟨(.core 0), (wS 2 [(GNT.PSET_SRC, 0x80000000), (GNT.PSET_LEN, 0x1824)]), by decide +kernel⟩,
    ⟨(.core 0), (wS 4 [(GNT.PSET_SRC, 0x80000000), (GNT.PSET_LEN, 0x1824)]), by decide +kernel⟩,
    ⟨([]), (wS 2 [(GNT.PSET_STAT_STATE, 3)]), by decide +kernel⟩,
    ⟨(.core 0), (7), (wProve (wS 2 [(GNT.PSET_STAT_STATE, 1), (GNT.PSET_SIG, 7), (GNT.CRED_STAT_LAST_PURPOSE, 1)]) 1 (natLE 4 7)), by decide +kernel⟩,
    ⟨(.core 0), (7), (wS 2 [(GNT.PSET_STAT_STATE, 1), (GNT.PSET_SIG, 7)]), by decide +kernel⟩,
    ⟨(.core 0), (5), (wProve (wS 2 [(GNT.CRED_NEW 0, 9), (GNT.CRED_STAT_LAST_PURPOSE, 0x15)]) 0x15 ((wS 2 [(GNT.CRED_NEW 0, 9)]).words8 GNT.CRED_NEW)), by decide +kernel⟩,
    ⟨(.core 0), (6), (wS 2 []), by decide +kernel⟩,
    ⟨(.core 0), (0), (wS 2 []), by decide +kernel⟩,
    ⟨(17), ({ wS 2 [] with credLockTo := [(17, 1000000)] }), by decide +kernel⟩,
    ⟨(255), (true), (false), (wS 4 []), by decide +kernel⟩,
    ⟨(3), ({ wS 4 [(SSE.SESS_CFG_EN 3, 1), (SSE.SESS_CFG_DIR 3, 1), (SSE.SESS_SEQ 3, 0xFFFFFFFF)] with sess := [(3, { Sess.blank with sending := true })] }), by decide +kernel⟩,
    ⟨(3), ([67, 0]), (0), ({ wS 4 [(SSE.SESS_CFG_EN 3, 1), (SSE.SESS_STAT_STATE 3, 2)] with sess := [(3, { Sess.blank with wdogAt := 5 })] }), by decide +kernel⟩,
    ⟨(3), ([67, 0]), (0), (wS 4 []), by decide +kernel⟩,
    ⟨(3), ({ wS 4 [(SSE.SESS_CFG_EN 3, 1), (SSE.SESS_STAT_STATE 3, 2), (SSE.SESS_CNT1_WDOG_CNT 3, 255)] with sess := [(3, { Sess.blank with wdogAt := 5 })] }), by decide +kernel⟩,
    ⟨(.core 0), (3), (wS 4 [(SSE.SESS_SEL, 3), (SSE.SESS_CFG_EN 3, 1), (SSE.SESS_STAT_STATE 3, 3), (SSE.SESS_CFG_RESTART_MODE 3, 1), (SSE.SESS_STAT_GOOD_RUN 3, 20)]), by decide +kernel⟩,
    ⟨(.core 0), (3), (wS 4 [(SSE.SESS_SEL, 3)]), by decide +kernel⟩,
    ⟨(.core 0), ((wS 4 [(SSE.SESS_SEL, 3), (SSE.SESS_LEN_PAYLOAD_LEN 3, 8), (SSE.SESS_CFG_DIR 3, 1), (SSE.SESS_SEQ 3, 9)]).rd (rkey 0x06 3 0x084) ||| 1), (3), (wS 4 [(SSE.SESS_SEL, 3), (SSE.SESS_LEN_PAYLOAD_LEN 3, 8), (SSE.SESS_CFG_DIR 3, 1), (SSE.SESS_SEQ 3, 9)]), by decide +kernel⟩,
    ⟨(.core 0), ((wS 4 [(SSE.SESS_SEL, 3), (SSE.SESS_LEN_PAYLOAD_LEN 3, 8)]).rd (rkey 0x06 3 0x084) ||| 1), (3), (wS 4 [(SSE.SESS_SEL, 3), (SSE.SESS_LEN_PAYLOAD_LEN 3, 8)]), by decide +kernel⟩,
    ⟨(.core 0), ((wS 4 [(SSE.SESS_SEL, 3), (SSE.SESS_CFG_EN 3, 1), (SSE.SESS_STAT_STATE 3, 3)]).rd (rkey 0x06 3 0x084) &&& ~~~1), (3), (wS 4 [(SSE.SESS_SEL, 3), (SSE.SESS_CFG_EN 3, 1), (SSE.SESS_STAT_STATE 3, 3)]), by decide +kernel⟩,
    ⟨(.core 0), ((wS 4 [(SSE.SESS_SEL, 3), (SSE.SESS_CFG_EN 3, 1), (SSE.SESS_STAT_STATE 3, 3), (SSE.SESS_CFG_KIND 3, 1)]).rd (rkey 0x06 3 0x084) &&& ~~~1), (3), (wS 4 [(SSE.SESS_SEL, 3), (SSE.SESS_CFG_EN 3, 1), (SSE.SESS_STAT_STATE 3, 3), (SSE.SESS_CFG_KIND 3, 1)]), by decide +kernel⟩⟩

/-- The hypotheses of each clause of RingsAndEthernet are met. -/
theorem witness_RingsAndEthernet :
    (∃ (m : Master) (v : BitVec 32) (r : Nat) (s : State), (isUser m = false) ∧ (s.posted = []) ∧ (s.guardOf 0x0A = none) ∧ (r = s.get QMG.RING_SEL) ∧ (s.get (QMG.RING_EP_PROD_CLASS r) = epSoft) ∧ (s.get (QMG.RING_CFG_MASTER r) = s.masterNo m) ∧ ((bits v 0 16 + 65536 - s.get (QMG.RING_CONS_CONS_IDX r)) % 65536 ≤ s.ringSize r)) ∧
    (∃ (m : Master) (v : BitVec 32) (r : Nat) (s : State), (isUser m = false) ∧ (s.posted = []) ∧ (s.guardOf 0x0A = none) ∧ (r = s.get QMG.RING_SEL) ∧ (s.get (QMG.RING_EP_PROD_CLASS r) = epSoft) ∧ (s.get (QMG.RING_CFG_MASTER r) = s.masterNo m) ∧ (s.ringSize r < (bits v 0 16 + 65536 - s.get (QMG.RING_CONS_CONS_IDX r)) % 65536) ∧ (bits v 0 16 ≠ s.get (QMG.RING_PROD_PROD_IDX r))) ∧
    (∃ (m : Master) (v : BitVec 32) (r : Nat) (s : State), (isUser m = false) ∧ (s.posted = []) ∧ (s.guardOf 0x0A = none) ∧ (r = s.get QMG.RING_SEL) ∧ (s.get (QMG.RING_EP_CONS_CLASS r) = epSoft) ∧ (s.get (QMG.RING_CFG_MASTER r) = s.masterNo m) ∧ ((s.get (QMG.RING_PROD_PROD_IDX r) + 65536 - bits v 0 16) % 65536 ≤ s.ringSize r)) ∧
    (∃ (m : Master) (v : BitVec 32) (r : Nat) (s : State), (isUser m = false) ∧ (s.posted = []) ∧ (s.guardOf 0x0A = none) ∧ (r = s.get QMG.RING_SEL) ∧ (s.on (QMG.RING_CFG_EN r) = false) ∧ (v = s.rd (rkey 0x0A r 0x050) ||| 1) ∧ (s.ringEnOk r = true)) ∧
    (∃ (m : Master) (v : BitVec 32) (r : Nat) (s : State), (isUser m = false) ∧ (s.posted = []) ∧ (s.guardOf 0x0A = none) ∧ (r = s.get QMG.RING_SEL) ∧ (s.on (QMG.RING_CFG_EN r) = false) ∧ (v = s.rd (rkey 0x0A r 0x050) ||| 1) ∧ (s.ringEnOk r = false)) ∧
    (∃ (m : Master) (v : BitVec 32) (r : Nat) (s : State), (isUser m = false) ∧ (s.posted = []) ∧ (s.guardOf 0x0A = none) ∧ (r = s.get QMG.RING_SEL) ∧ (s.on (QMG.RING_CFG_EN r) = true) ∧ (v = s.rd (rkey 0x0A r 0x050) &&& ~~~1) ∧ (s.get (QMG.RING_EP_CONS_CLASS r) ≠ epSoft) ∧ (s.get (QMG.RING_EP_CONS_CLASS r) ≠ epCan)) ∧
    (∃ (r : Fin 64) (s : State), (s.posted = []) ∧ (s.ringOn r.val = true) ∧ (s.get (QMG.RING_EP_CONS_CLASS r.val) = epSoft) ∧ (s.ringFill r.val ≠ 0) ∧ (s.get (QMG.RING_IRQ_HOLDOFF_US r.val) ≠ 0)) ∧
    (∃ (p : Fin 12) (f : List (BitVec 8)) (a : BitVec 32) (s : State), (s.posted = []) ∧ (s.linksLive = true) ∧ (s.enabled (0x40 + s.ethPage p.val) = true) ∧ (s.linkUp p.val = true)) ∧
    (∃ (p : Fin 12) (f : List (BitVec 8)) (r : Nat) (a : BitVec 32) (s : State), (s.posted = []) ∧ (p.val < 8) ∧ (s.linksLive = true) ∧ (s.enabled (0x40 + p.val) = true) ∧ (s.linkUp p.val = true) ∧ (s.inPrp p.val = false) ∧ (60 ≤ f.length) ∧ (f.length ≤ 1518) ∧ (s.dstOk p.val (ethDst f) = true) ∧ (ptpAt f = none) ∧ (isUdp f = false) ∧ (r = s.get (ETH.RX_RING_DEFAULT_RING p.val)) ∧ (r ≠ 63) ∧ (s.isRxRing p.val r = true) ∧ (s.ringCredit r ≠ 0) ∧ (f.length ≤ s.bufSize r)) ∧
    (∃ (p : Fin 12) (r : Nat) (d : Desc) (s : State), (s.posted = []) ∧ (s.linksLive = true) ∧ (s.enabled (0x40 + p.val) = true) ∧ (s.prpOdd p.val = false) ∧ ((s.eth p.val).hand = none) ∧ ((s.eth p.val).q = []) ∧ (s.pickRing p.val = some r) ∧ (d = s.desc r (s.get (QMG.RING_CONS_CONS_IDX r))) ∧ (14 ≤ d.len) ∧ (d.len ≤ 1518) ∧ (bufOk d.buf d.len = true) ∧ (s.linkUp p.val = true) ∧ (s.badPrpSel p.val d = false)) ∧
    (∃ (p : Fin 12) (r : Nat) (d : Desc) (s : State), (s.posted = []) ∧ (s.linksLive = true) ∧ (s.enabled (0x40 + p.val) = true) ∧ (s.prpOdd p.val = false) ∧ ((s.eth p.val).hand = none) ∧ ((s.eth p.val).q = []) ∧ (s.pickRing p.val = some r) ∧ (d = s.desc r (s.get (QMG.RING_CONS_CONS_IDX r))) ∧ (14 ≤ d.len) ∧ (d.len ≤ 1518) ∧ (bufOk d.buf d.len = true) ∧ (s.linkUp p.val = false)) ∧
    (∃ (p : Fin 12) (a : BitVec 32) (a2 : BitVec 32) (r : Nat) (d : Desc) (s : State), (s.posted = []) ∧ (s.linksLive = true) ∧ (s.linkUp p.val = true) ∧ (s.enabled (0x40 + p.val) = true) ∧ ((s.eth p.val).hand = some (some r)) ∧ (s.ringHead r = some d) ∧ (s.inPrp p.val = false) ∧ (s.oneStep p.val (s.wireFrame p.val (s.bytes d.buf d.len)) = false)) ∧
    (∃ (p : Fin 12) (s : State), (s.posted = []) ∧ (s.linkUp p.val = true) ∧ (s.inPrp p.val = false)) ∧
    (∃ (p : Fin 12) (a : BitVec 2) (s : State), (s.posted = []) ∧ (p.val < 8) ∧ (s.linksLive = true) ∧ (s.enabled (0x40 + s.ethPage p.val) = true)) ∧
    (∃ (p : Fin 12) (a : BitVec 2) (s : State), (s.posted = []) ∧ (8 ≤ p.val) ∧ (p.val < 10) ∧ (s.dev.sfpBad.getLsbD (p.val - 8) = true)) ∧
    (∃ (m : Master) (p : Fin 12) (v : BitVec 32) (s : State), (isUser m = false) ∧ (s.posted = []) ∧ (p.val < 8) ∧ (s.inPrp p.val = false) ∧ (s.guardOf (0x40 + p.val) = none) ∧ (bits v 2 30 = bits (s.rd (rkey (0x40 + p.val) 0 0x040)) 2 30) ∧ (bits v 0 2 ≤ 2) ∧ (bits v 0 2 ≠ s.get (ETH.PORT_CFG_SPEED p.val))) ∧
    (∃ (p : Fin 12) (s : State), (s.posted = []) ∧ (s.linksLive = true) ∧ (s.inPrp p.val = true) ∧ (p.val % 2 = 0) ∧ (s.enabled (0x40 + p.val) = true)) ∧
    (∃ (k : Fin 2) (s : State), (s.posted = [])) ∧
    (∃ (k : Fin 2) (s : State), (s.posted = [])) :=
  ⟨⟨(.core 0), (8), (5), (wS 4 [(QMG.RING_SEL, 5), (QMG.RING_CFG_SIZE_LOG2 5, 3), (QMG.RING_CFG_MASTER 5, 0)]), by decide +kernel⟩,
    ⟨(.core 0), (9), (5), (wS 4 [(QMG.RING_SEL, 5), (QMG.RING_CFG_SIZE_LOG2 5, 3), (QMG.RING_CFG_MASTER 5, 0)]), by decide +kernel⟩,
    ⟨(.core 0), (3), (5), (wS 4 [(QMG.RING_SEL, 5), (QMG.RING_CFG_SIZE_LOG2 5, 3), (QMG.RING_EP_PROD_CLASS 5, 1), (QMG.RING_PROD_PROD_IDX 5, 3)]), by decide +kernel⟩,
    ⟨(.core 0), ((wS 4 [(QMG.RING_SEL, 5), (QMG.RING_BASE 5, 0x20000040), (QMG.RING_EP_CONS_CLASS 5, 3)]).rd (rkey 0x0A 5 0x050) ||| 1), (5), (wS 4 [(QMG.RING_SEL, 5), (QMG.RING_BASE 5, 0x20000040), (QMG.RING_EP_CONS_CLASS 5, 3)]), by decide +kernel⟩,
    ⟨(.core 0), ((wS 4 [(QMG.RING_SEL, 5), (QMG.RING_BASE 5, 0x20000040), (QMG.RING_EP_CONS_CLASS 5, 3), (QMG.RING_EP_CONS_INST 5, 32)]).rd (rkey 0x0A 5 0x050) ||| 1), (5), (wS 4 [(QMG.RING_SEL, 5), (QMG.RING_BASE 5, 0x20000040), (QMG.RING_EP_CONS_CLASS 5, 3), (QMG.RING_EP_CONS_INST 5, 32)]), by decide +kernel⟩,
    ⟨(.core 0), ((wS 4 [(QMG.RING_SEL, 5), (QMG.RING_CFG_EN 5, 1), (QMG.RING_BASE 5, 0x20000040), (QMG.RING_PROD_PROD_IDX 5, 1), (QMG.RING_EP_CONS_CLASS 5, 3)]).rd (rkey 0x0A 5 0x050) &&& ~~~1), (5), (wS 4 [(QMG.RING_SEL, 5), (QMG.RING_CFG_EN 5, 1), (QMG.RING_BASE 5, 0x20000040), (QMG.RING_PROD_PROD_IDX 5, 1), (QMG.RING_EP_CONS_CLASS 5, 3)]), by decide +kernel⟩,
    ⟨(5), ({ wS 4 [(QMG.RING_CFG_EN 5, 1), (QMG.RING_IRQ_WATERMARK 5, 9), (QMG.RING_IRQ_HOLDOFF_US 5, 50), (QMG.RING_PROD_PROD_IDX 5, 1)] with ringPosted := [] }), by decide +kernel⟩,
    ⟨(3), ([1, 2, 3]), (7), (wS 4 [(ETH.PORT_STAT_LINK 3, 1)]), by decide +kernel⟩,
    ⟨(3), (natBE 6 ((wS 4 [(ETH.PORT_STAT_LINK 3, 1), (ETH.RX_RING_DEFAULT_RING 3, 5), (QMG.RING_CFG_EN 5, 1), (QMG.RING_BASE 5, 0x20000040), (QMG.RING_BUF_BASE 5, 0x20001005), (QMG.RING_EP_PROD_CLASS 5, 1), (QMG.RING_EP_PROD_INST 5, 3)]).ethMac 3) ++ List.replicate 54 1), (5), (7), (wS 4 [(ETH.PORT_STAT_LINK 3, 1), (ETH.RX_RING_DEFAULT_RING 3, 5), (QMG.RING_CFG_EN 5, 1), (QMG.RING_BASE 5, 0x20000040), (QMG.RING_BUF_BASE 5, 0x20001005), (QMG.RING_EP_PROD_CLASS 5, 1), (QMG.RING_EP_PROD_INST 5, 3)]), by decide +kernel⟩,
    ⟨(3), (5), (⟨0x20001000, 60, 0, false, false, false, false, false, 0, 0, 0⟩), ((wS 4 [(ETH.PORT_STAT_LINK 3, 1), (QMG.RING_CFG_EN 5, 1), (QMG.RING_BASE 5, 0x20000040), (QMG.RING_EP_CONS_CLASS 5, 1), (QMG.RING_EP_CONS_INST 5, 3), (QMG.RING_PROD_PROD_IDX 5, 1)]).putDesc 5 0 ⟨0x20001000, 60, 0, false, false, false, false, false, 0, 0, 0⟩), by decide +kernel⟩,
    ⟨(3), (5), (⟨0x20001000, 60, 0, false, false, false, false, false, 0, 0, 0⟩), ((wS 4 [(QMG.RING_CFG_EN 5, 1), (QMG.RING_BASE 5, 0x20000040), (QMG.RING_EP_CONS_CLASS 5, 1), (QMG.RING_EP_CONS_INST 5, 3), (QMG.RING_PROD_PROD_IDX 5, 1)]).putDesc 5 0 ⟨0x20001000, 60, 0, false, false, false, false, false, 0, 0, 0⟩), by decide +kernel⟩,
    ⟨(3), (9), (0), (5), (⟨0x20001000, 60, 0, false, false, false, false, false, 0, 0, 0⟩), (((wS 4 [(ETH.PORT_STAT_LINK 3, 1), (QMG.RING_CFG_EN 5, 1), (QMG.RING_BASE 5, 0x20000040), (QMG.RING_EP_CONS_CLASS 5, 1), (QMG.RING_EP_CONS_INST 5, 3), (QMG.RING_PROD_PROD_IDX 5, 1)]).putDesc 5 0 ⟨0x20001000, 60, 0, false, false, false, false, false, 0, 0, 0⟩).setEth 3 { EthPort.blank with hand := some (some 5) }), by decide +kernel⟩,
    ⟨(3), ((wS 4 [(ETH.PORT_STAT_LINK 3, 1)]).setEth 3 { EthPort.blank with hand := some none, q := [[1]] }), by decide +kernel⟩,
    ⟨(3), (2), (wS 4 []), by decide +kernel⟩,
    ⟨(8), (2), ({ wS 4 [] with dev := { (wS 4 []).dev with sfpBad := 1 } }), by decide +kernel⟩,
    ⟨(.core 0), (3), ((((wS 4 [(ETH.PORT_STAT_LINK 3, 1)]).setEth 3 { EthPort.blank with hand := some none, q := [[1]] }).rd (rkey 0x43 0 0x040) &&& ~~~3) ||| 1), ((wS 4 [(ETH.PORT_STAT_LINK 3, 1)]).setEth 3 { EthPort.blank with hand := some none, q := [[1]] }), by decide +kernel⟩,
    ⟨(2), (wS 4 [(ETH.PORT_CFG_PRP_EN 2, 1)]), by decide +kernel⟩,
    ⟨(1), (wS 4 [(ETH.PORT_STAT_LINK 9, 1)]), by decide +kernel⟩,
    ⟨(1), (wS 4 []), by decide +kernel⟩⟩

/-- The hypotheses of each clause of SerialPorts are met. -/
theorem witness_SerialPorts :
    (∃ (n : Fin 32) (d : Desc) (s : State), (s.posted = []) ∧ (s.serLive n.val = true) ∧ (s.serMode n.val ≠ 3) ∧ (s.ser n.val = SerPort.blank) ∧ (s.serHead n.val = some d) ∧ (bufOk d.buf d.len = true)) ∧
    (∃ (n : Fin 32) (d : Desc) (s : State), (s.posted = []) ∧ (s.serLive n.val = true) ∧ (s.serMode n.val = 3) ∧ (s.ser n.val = SerPort.blank) ∧ (s.serHead n.val = some d) ∧ (bufOk d.buf d.len = true)) ∧
    (∃ (n : Fin 32) (st : Stamp) (d : Desc) (s : State), (s.posted = []) ∧ (s.serLive n.val = true) ∧ (s.serMode n.val ≠ 3) ∧ ((s.ser n.val).hand = some st) ∧ (s.serHead n.val = some d)) ∧
    (∃ (n : Fin 32) (st : Stamp) (d : Desc) (s : State), (s.posted = []) ∧ (s.serLive n.val = true) ∧ (s.serMode n.val = 3) ∧ ((s.ser n.val).hand = some st) ∧ (s.serHead n.val = some d)) ∧
    (∃ (n : Fin 32) (l : List (BitVec 8)) (a : BitVec 32) (r : Nat) (s : State), (s.posted = []) ∧ (s.serHears n.val = true) ∧ (s.serMode n.val = 1) ∧ (r = s.serRx n.val) ∧ (s.isSerRx n.val r = true) ∧ (s.ringCredit r ≠ 0)) ∧
    (∃ (n : Fin 32) (l : List (BitVec 8)) (p : Bool) (f : Bool) (b : Bool) (a : BitVec 32) (r : Nat) (s : State), (s.posted = []) ∧ (s.serHears n.val = true) ∧ (s.serMode n.val = 1) ∧ (r = s.serRx n.val) ∧ (s.isSerRx n.val r = true) ∧ (s.ringCredit r ≠ 0)) ∧
    (∃ (n : Fin 32) (l : List (BitVec 8)) (p : Bool) (f : Bool) (b : Bool) (g : Bool) (a : BitVec 32) (s : State), (s.posted = []) ∧ (s.serHears n.val = true) ∧ (s.serMode n.val = 4) ∧ (l.isEmpty = false) ∧ ((l.headD 0).toNat ≠ s.get (SER.SER_MB_SLAVE_ADDR n.val)) ∧ ((l.headD 0).toNat ≠ 0)) ∧
    (∃ (n : Fin 32) (l : List (BitVec 8)) (p : Bool) (f : Bool) (b : Bool) (g : Bool) (a : BitVec 32) (r : Nat) (s : State), (s.posted = []) ∧ (s.serHears n.val = true) ∧ (s.serMode n.val = 4) ∧ (l.isEmpty = false) ∧ ((l.headD 0).toNat = s.get (SER.SER_MB_SLAVE_ADDR n.val)) ∧ (r = s.serRx n.val) ∧ (s.isSerRx n.val r = true) ∧ (s.ringCredit r ≠ 0) ∧ (l.length - 2 ≤ s.bufSize r)) ∧
    (∃ (n : Fin 32) (l : List (BitVec 8)) (tag : Nat) (since : Nat) (p : Bool) (f : Bool) (b : Bool) (g : Bool) (a : BitVec 32) (s : State), (s.posted = []) ∧ (s.serHears n.val = true) ∧ (s.serMode n.val = 3) ∧ (l.isEmpty = false) ∧ ((s.ser n.val).await = some (tag, since))) ∧
    (∃ (n : Fin 32) (tag : Nat) (since : Nat) (s : State), (s.posted = []) ∧ (s.serLive n.val = true) ∧ ((s.ser n.val).await = some (tag, since))) ∧
    (∃ (n : Fin 32) (since : Nat) (s : State), (s.posted = []) ∧ (s.serLive n.val = true) ∧ ((s.ser n.val).turn = some since)) ∧
    (∃ (m : Master) (n : Fin 32) (v : BitVec 32) (s : State), (isUser m = false) ∧ (s.posted = []) ∧ (s.guardOf (0x64 + n.val) = none) ∧ (s.serMode n.val ≠ 0) ∧ (v = s.rd (rkey (0x64 + n.val) 0 0x040) &&& ~~~7)) :=
  ⟨⟨(4), (⟨0x20001000, 3, 0, false, false, false, false, false, 0, 0, 0⟩), ((wS 4 [(SER.SER_CFG_MODE 4, 1), (SER.SER_RING_TX_RING 4, 5), (QMG.RING_CFG_EN 5, 1), (QMG.RING_BASE 5, 0x20000040), (QMG.RING_EP_CONS_CLASS 5, 3), (QMG.RING_EP_CONS_INST 5, 4), (QMG.RING_PROD_PROD_IDX 5, 1)]).putDesc 5 0 ⟨0x20001000, 3, 0, false, false, false, false, false, 0, 0, 0⟩), by decide +kernel⟩,
    ⟨(4), (⟨0x20001000, 3, 0, false, false, false, false, false, 0, 0, 0⟩), ((wS 4 [(SER.SER_CFG_MODE 4, 3), (SER.SER_RING_TX_RING 4, 5), (QMG.RING_CFG_EN 5, 1), (QMG.RING_BASE 5, 0x20000040), (QMG.RING_EP_CONS_CLASS 5, 3), (QMG.RING_EP_CONS_INST 5, 4), (QMG.RING_PROD_PROD_IDX 5, 1)]).putDesc 5 0 ⟨0x20001000, 3, 0, false, false, false, false, false, 0, 0, 0⟩), by decide +kernel⟩,
    ⟨(4), ((7, false)), (⟨0x20001000, 3, 0, false, false, false, false, false, 0, 0, 0⟩), (((wS 4 [(SER.SER_CFG_MODE 4, 1), (SER.SER_RING_TX_RING 4, 5), (QMG.RING_CFG_EN 5, 1), (QMG.RING_BASE 5, 0x20000040), (QMG.RING_EP_CONS_CLASS 5, 3), (QMG.RING_EP_CONS_INST 5, 4), (QMG.RING_PROD_PROD_IDX 5, 1)]).putDesc 5 0 ⟨0x20001000, 3, 0, false, false, false, false, false, 0, 0, 0⟩).setSer 4 ⟨some (7, false), none, none⟩), by decide +kernel⟩,
    ⟨(4), ((7, false)), (⟨0x20001000, 3, 0, false, false, false, false, false, 0, 0, 0⟩), (((wS 4 [(SER.SER_CFG_MODE 4, 3), (SER.SER_RING_TX_RING 4, 5), (QMG.RING_CFG_EN 5, 1), (QMG.RING_BASE 5, 0x20000040), (QMG.RING_EP_CONS_CLASS 5, 3), (QMG.RING_EP_CONS_INST 5, 4), (QMG.RING_PROD_PROD_IDX 5, 1)]).putDesc 5 0 ⟨0x20001000, 3, 0, false, false, false, false, false, 0, 0, 0⟩).setSer 4 ⟨some (7, false), none, none⟩), by decide +kernel⟩,
    ⟨(4), ([1, 2]), (9), (5), (wS 4 [(SER.SER_CFG_MODE 4, 1), (SER.SER_RING_RX_RING 4, 5), (QMG.RING_CFG_EN 5, 1), (QMG.RING_BASE 5, 0x20000040), (QMG.RING_BUF_BASE 5, 0x20001002), (QMG.RING_EP_PROD_CLASS 5, 3), (QMG.RING_EP_PROD_INST 5, 4)]), by decide +kernel⟩,
    ⟨(4), ([1, 2]), (true), (false), (true), (9), (5), (wS 4 [(SER.SER_CFG_MODE 4, 1), (SER.SER_RING_RX_RING 4, 5), (QMG.RING_CFG_EN 5, 1), (QMG.RING_BASE 5, 0x20000040), (QMG.RING_BUF_BASE 5, 0x20001002), (QMG.RING_EP_PROD_CLASS 5, 3), (QMG.RING_EP_PROD_INST 5, 4)]), by decide +kernel⟩,
    ⟨(4), ([9, 1, 2, 3]), (false), (false), (false), (false), (9), (wS 4 [(SER.SER_CFG_MODE 4, 4), (SER.SER_MB_SLAVE_ADDR 4, 5)]), by decide +kernel⟩,
    ⟨(4), ([5, 1, 2, 3]), (false), (false), (false), (false), (9), (5), (wS 4 [(SER.SER_CFG_MODE 4, 4), (SER.SER_MB_SLAVE_ADDR 4, 5), (SER.SER_RING_RX_RING 4, 5), (QMG.RING_CFG_EN 5, 1), (QMG.RING_BASE 5, 0x20000040), (QMG.RING_BUF_BASE 5, 0x20001002), (QMG.RING_EP_PROD_CLASS 5, 3), (QMG.RING_EP_PROD_INST 5, 4)]), by decide +kernel⟩,
    ⟨(4), ([5, 1, 2, 3]), (3), (0), (false), (false), (false), (false), (9), ((wS 4 [(SER.SER_CFG_MODE 4, 3), (SER.SER_RING_TX_RING 4, 5)]).setSer 4 ⟨none, some (3, 0), none⟩), by decide +kernel⟩,
    ⟨(4), (3), (0), ((wS 4 [(SER.SER_CFG_MODE 4, 3), (SER.SER_RING_TX_RING 4, 5), (SER.SER_TIMING_RESP_TIMEOUT_MS 4, 100)]).setSer 4 ⟨none, some (3, 0), none⟩), by decide +kernel⟩,
    ⟨(4), (0), ((wS 4 [(SER.SER_CFG_MODE 4, 3), (SER.SER_RING_TX_RING 4, 5), (SER.SER_TIMING_TURNAROUND_MS 4, 100)]).setSer 4 ⟨none, none, some 0⟩), by decide +kernel⟩,
    ⟨(.core 0), (4), (((wS 4 [(SER.SER_CFG_MODE 4, 1), (SER.SER_RING_TX_RING 4, 5)]).setSer 4 ⟨some (7, false), none, none⟩).rd (rkey 0x68 0 0x040) &&& ~~~7), ((wS 4 [(SER.SER_CFG_MODE 4, 1), (SER.SER_RING_TX_RING 4, 5)]).setSer 4 ⟨some (7, false), none, none⟩), by decide +kernel⟩⟩

/-- The hypotheses of each clause of CanController are met. -/
theorem witness_CanController :
    (∃ (n : Fin 20) (r : Nat) (b : Nat) (d : Desc) (s : State), (s.posted = []) ∧ (r = s.canTx n.val) ∧ (r ≠ 63) ∧ (s.ringOn r = true) ∧ (s.enabled (0x50 + n.val) = true) ∧ (s.get (QMG.RING_EP_CONS_CLASS r) = epCan) ∧ (s.get (QMG.RING_EP_CONS_INST r) = n.val) ∧ ((s.can n.val).flight = []) ∧ (s.ringFill r ≠ 0) ∧ ((s.can n.val).freeTxb = some b) ∧ (d = s.desc r (s.get (QMG.RING_CONS_CONS_IDX r))) ∧ (bufOk d.buf d.len = true) ∧ (s.fetchEnd n.val d (BitVec.ofNat 32 (s.mem32 d.buf)) (BitVec.ofNat 32 (s.mem32 (d.buf + 4))) (sx 32 ((d.stamp + 2 ^ 32 - s.stamp) % 2 ^ 32)) = none)) ∧
    (∃ (n : Fin 20) (r : Nat) (b : Nat) (st : Nat) (d : Desc) (s : State), (s.posted = []) ∧ (r = s.canTx n.val) ∧ (r ≠ 63) ∧ (s.ringOn r = true) ∧ (s.enabled (0x50 + n.val) = true) ∧ (s.get (QMG.RING_EP_CONS_CLASS r) = epCan) ∧ (s.get (QMG.RING_EP_CONS_INST r) = n.val) ∧ ((s.can n.val).flight = []) ∧ (s.ringFill r ≠ 0) ∧ ((s.can n.val).freeTxb = some b) ∧ (d = s.desc r (s.get (QMG.RING_CONS_CONS_IDX r))) ∧ (bufOk d.buf d.len = true) ∧ (s.fetchEnd n.val d (BitVec.ofNat 32 (s.mem32 d.buf)) (BitVec.ofNat 32 (s.mem32 (d.buf + 4))) (sx 32 ((d.stamp + 2 ^ 32 - s.stamp) % 2 ^ 32)) = some st)) ∧
    (∃ (n : Fin 20) (b : Nat) (x : TxBuf) (s : State), (s.posted = []) ∧ (s.canSends n.val = true) ∧ ((s.can n.val).onBus = none) ∧ ((s.can n.val).sseQ = []) ∧ (((s.can n.val).bufs.filter (fun e => s.eligible n.val e.2)).foldl betterBuf none = some (b, x))) ∧
    (∃ (n : Fin 20) (b : Nat) (x : TxBuf) (s : State), (s.posted = []) ∧ ((s.can n.val).onBus = some (b, x))) ∧
    (∃ (n : Fin 20) (b : Nat) (x : TxBuf) (s : State), (s.posted = []) ∧ ((s.can n.val).onBus = some (b, x)) ∧ (x.st = 3) ∧ (x.oneShot = false)) ∧
    (∃ (n : Fin 20) (b : Nat) (x : TxBuf) (s : State), (s.posted = []) ∧ ((s.can n.val).onBus = some (b, x)) ∧ (x.st = 3) ∧ (x.oneShot = true)) ∧
    (∃ (n : Fin 20) (c : Fin 8) (te : BitVec 16) (re : BitVec 8) (s : State), (s.posted = []) ∧ (1 ≤ c.val) ∧ (c.val ≤ 6) ∧ ((s.can n.val).mode ≠ 0) ∧ (s.enabled (0x50 + n.val) = true) ∧ (s.get (CAN.CAN_STAT_ERR_STATE n.val) ≠ 2) ∧ (s.detecting n.val = false) ∧ (te.toNat ≤ 127) ∧ (re.toNat ≤ 127)) ∧
    (∃ (n : Fin 20) (c : Fin 8) (te : BitVec 16) (re : BitVec 8) (s : State), (s.posted = []) ∧ (1 ≤ c.val) ∧ (c.val ≤ 6) ∧ ((s.can n.val).mode ≠ 0) ∧ (s.enabled (0x50 + n.val) = true) ∧ (s.get (CAN.CAN_STAT_ERR_STATE n.val) ≠ 2) ∧ (s.detecting n.val = false) ∧ (255 < te.toNat)) ∧
    (∃ (n : Fin 20) (te : BitVec 16) (re : BitVec 8) (x : Bool) (s : State), (s.posted = []) ∧ (s.canOnline n.val = true)) ∧
    (∃ (m : Master) (n : Fin 20) (s : State), (isUser m = false) ∧ (s.posted = []) ∧ (s.guardOf (0x50 + n.val) = none) ∧ (s.get (CAN.CAN_STAT_ERR_STATE n.val) = 2)) ∧
    (∃ (m : Master) (n : Fin 20) (s : State), (isUser m = false) ∧ (s.posted = []) ∧ (s.guardOf (0x50 + n.val) = none) ∧ (s.get (CAN.CAN_STAT_ERR_STATE n.val) ≠ 2)) ∧
    (∃ (n : Fin 20) (s : State), (s.posted = []) ∧ (s.get (CAN.CAN_STAT_ERR_STATE n.val) = 2) ∧ ((s.can n.val).recovering = true)) ∧
    (∃ (n : Fin 20) (b : Fin 8) (l : BitVec 64) (x : TxBuf) (s : State), (s.posted = []) ∧ ((s.can n.val).buf b.val = some x) ∧ (x.launch = some l) ∧ (x.st = 1)) ∧
    (∃ (n : Fin 20) (b : Fin 8) (l : BitVec 64) (x : TxBuf) (s : State), (s.posted = []) ∧ ((s.can n.val).buf b.val = some x) ∧ (x.launch = some l) ∧ ((x.st = 1 ∨ x.st = 2))) ∧
    (∃ (n : Fin 20) (w0 : BitVec 32) (w1 : BitVec 32) (l : List (BitVec 8)) (a : BitVec 32) (s : State), (s.posted = []) ∧ (s.enabled (0x50 + n.val) = true) ∧ (s.detecting n.val = true) ∧ ((s.can n.val).detGood + 1 < s.get (CAN.DET_CFG_CONFIRM_N n.val))) ∧
    (∃ (n : Fin 20) (w0 : BitVec 32) (w1 : BitVec 32) (l : List (BitVec 8)) (a : BitVec 32) (k : Nat) (r : Nat) (s : State), (s.posted = []) ∧ ((s.can n.val).mode ≠ 0) ∧ (s.enabled (0x50 + n.val) = true) ∧ (s.detecting n.val = false) ∧ (s.canSess n.val w0 w1 = none) ∧ (s.canFilt n.val w0 = some k) ∧ (s.on (CAN.FILT_MASK_RING n.val k) = false) ∧ (r = s.get (CAN.CAN_RING_RX_RING0 n.val)) ∧ (r ≠ 63) ∧ (s.ringOn r = true) ∧ (s.ringCredit r ≠ 0) ∧ (8 + l.length ≤ s.bufSize r)) ∧
    (∃ (n : Fin 20) (w0 : BitVec 32) (w1 : BitVec 32) (l : List (BitVec 8)) (a : BitVec 32) (s : State), (s.posted = []) ∧ ((s.can n.val).mode ≠ 0) ∧ (s.enabled (0x50 + n.val) = true) ∧ (s.detecting n.val = false) ∧ (s.canSess n.val w0 w1 = none) ∧ (s.canFilt n.val w0 = none)) ∧
    (∃ (m : Master) (n : Fin 20) (v : BitVec 32) (s : State), (isUser m = false) ∧ (s.posted = []) ∧ (s.guardOf (0x50 + n.val) = none) ∧ ((s.can n.val).mode = 0) ∧ ((s.can n.val).onBus = none) ∧ (s.get (CAN.CAN_CFG_MODE n.val) = 0) ∧ ((bits v 0 3 = 1 ∨ bits v 0 3 = 2)) ∧ (bits v 3 29 = bits (s.rd (rkey (0x50 + n.val) 0 0x040)) 3 29)) ∧
    (∃ (m : Master) (n : Fin 20) (v : BitVec 32) (s : State), (isUser m = false) ∧ (s.posted = []) ∧ (s.guardOf (0x50 + n.val) = none) ∧ (s.get (CAN.CAN_CFG_MODE n.val) = 0) ∧ (v.getLsbD 31 = false) ∧ (v.getLsbD 23 = false) ∧ (1 ≤ bits v 0 8) ∧ (2 ≤ bits v 8 8) ∧ (1 ≤ bits v 16 7) ∧ (1 ≤ bits v 24 7) ∧ (bits v 24 7 ≤ bits v 16 7) ∧ ((736 * (bits v 0 8 * (1 + bits v 8 8 + bits v 16 7)) * 25 + 1999) / 2000 < 65536)) ∧
    (∃ (m : Master) (n : Fin 20) (v : BitVec 32) (s : State), (isUser m = false) ∧ (s.posted = []) ∧ (s.guardOf (0x50 + n.val) = none) ∧ (s.get (CAN.CAN_CFG_MODE n.val) ≠ 0) ∧ (bits v 0 8 ≠ s.get (CAN.NBT_BRP n.val))) ∧
    (∃ (n : Fin 20) (j : Nat) (s : State), (s.posted = []) ∧ (s.enabled (0x50 + n.val) = true) ∧ (s.detecting n.val = true) ∧ (s.candFrom n.val (s.get (CAN.DET_STAT_CURRENT n.val) + 1) = some j)) :=
  ⟨⟨(4), (5), (0), (⟨0x20001000, 9, 0, false, false, false, false, false, 0, 0, 0⟩), ((((wS 4 [(CAN.CAN_CFG_MODE 4, 1), (CAN.CAN_RING_TX_RING 4, 5), (QMG.RING_CFG_EN 5, 1), (QMG.RING_BASE 5, 0x20000040), (QMG.RING_EP_CONS_CLASS 5, 2), (QMG.RING_EP_CONS_INST 5, 4), (QMG.RING_PROD_PROD_IDX 5, 1)]).putDesc 5 0 ⟨0x20001000, 9, 0, false, false, false, false, false, 0, 0, 0⟩).setLE 0x20001004 4 1).setCan 4 { CanCtl.blank with mode := 1 }), by decide +kernel⟩,
    ⟨(4), (5), (0), (6), (⟨0x20001000, 9, 0, false, false, false, false, false, 0, 0, 0⟩), ((wS 4 [(CAN.CAN_RING_TX_RING 4, 5), (QMG.RING_CFG_EN 5, 1), (QMG.RING_BASE 5, 0x20000040), (QMG.RING_EP_CONS_CLASS 5, 2), (QMG.RING_EP_CONS_INST 5, 4), (QMG.RING_PROD_PROD_IDX 5, 1)]).putDesc 5 0 ⟨0x20001000, 9, 0, false, false, false, false, false, 0, 0, 0⟩), by decide +kernel⟩,
    ⟨(4), (2), (⟨0, 0, 0, [], none, false, 0, 0, 0, 2, 0, false, 0, false⟩), ((wS 4 [(CAN.CAN_CFG_MODE 4, 1), (RDC.ROLE_ROLE, 0)]).setCan 4 { CanCtl.blank with mode := 1, bufs := [(2, ⟨0, 0, 0, [], none, false, 0, 0, 0, 2, 0, false, 0, false⟩)] }), by decide +kernel⟩,
    ⟨(4), (2), (⟨0, 0, 0, [], none, false, 0, 0, 0, 3, 0, false, 1, false⟩), ((wS 4 [(CAN.CAN_CFG_MODE 4, 1), (CAN.CAN_STAT_TEC 4, 7)]).setCan 4 { CanCtl.blank with mode := 1, bufs := [(2, ⟨0, 0, 0, [], none, false, 0, 0, 0, 3, 0, false, 1, false⟩)] }), by decide +kernel⟩,
    ⟨(4), (2), (⟨0, 0, 0, [], none, false, 0, 0, 0, 3, 0, false, 1, false⟩), ((wS 4 [(CAN.CAN_CFG_MODE 4, 1)]).setCan 4 { CanCtl.blank with mode := 1, bufs := [(2, ⟨0, 0, 0, [], none, false, 0, 0, 0, 3, 0, false, 1, false⟩)] }), by decide +kernel⟩,
    ⟨(4), (2), (⟨0, 0, 0, [], none, true, 0, 0, 0, 3, 0, false, 1, false⟩), ((wS 4 [(CAN.CAN_CFG_MODE 4, 1)]).setCan 4 { CanCtl.blank with mode := 1, bufs := [(2, ⟨0, 0, 0, [], none, true, 0, 0, 0, 3, 0, false, 1, false⟩)] }), by decide +kernel⟩,
    ⟨(4), (3), (127), (127), ((wS 4 [(CAN.CAN_CFG_MODE 4, 1)]).setCan 4 { CanCtl.blank with mode := 1 }), by decide +kernel⟩,
    ⟨(4), (3), (256), (127), ((wS 4 [(CAN.CAN_CFG_MODE 4, 1), (CAN.CAN_STAT_ERR_STATE 4, 1)]).setCan 4 { CanCtl.blank with mode := 1 }), by decide +kernel⟩,
    ⟨(4), (0), (0), (false), ((wS 4 [(CAN.CAN_CFG_MODE 4, 1), (CAN.CAN_STAT_SYNCED 4, 1)]).setCan 4 { CanCtl.blank with mode := 1 }), by decide +kernel⟩,
    ⟨(.core 0), (4), (wS 4 [(CAN.CAN_STAT_ERR_STATE 4, 2)]), by decide +kernel⟩,
    ⟨(.core 0), (4), (wS 4 []), by decide +kernel⟩,
    ⟨(4), ((wS 4 [(CAN.CAN_STAT_ERR_STATE 4, 2), (CAN.CAN_STAT_TEC 4, 255)]).setCan 4 { CanCtl.blank with recovering := true }), by decide +kernel⟩,
    ⟨(4), (2), (1000), (⟨0, 0, 0, [], some 1000, false, 0, 1, 0, 1, 0, false, 0, false⟩), ((wS 4 [(CAN.CAN_CFG_MODE 4, 1)]).setCan 4 { CanCtl.blank with mode := 1, bufs := [(2, ⟨0, 0, 0, [], some 1000, false, 0, 1, 0, 1, 0, false, 0, false⟩)] }), by decide +kernel⟩,
    ⟨(4), (2), (1000), (⟨0, 0, 0, [], some 1000, false, 0, 1, 0, 2, 0, false, 0, false⟩), ((wS 4 [(CAN.CAN_CFG_MODE 4, 1)]).setCan 4 { CanCtl.blank with mode := 1, bufs := [(2, ⟨0, 0, 0, [], some 1000, false, 0, 1, 0, 2, 0, false, 0, false⟩)] }), by decide +kernel⟩,
    ⟨(4), (0), (0), ([]), (9), ((wS 4 [(CAN.CAN_CFG_MODE 4, 3), (CAN.DET_STAT_SEARCHING 4, 1), (CAN.DET_CFG_CONFIRM_N 4, 3)]).setCan 4 { CanCtl.blank with mode := 3 }), by decide +kernel⟩,
    ⟨(4), (0), (0), ([1]), (9), (3), (5), ((wS 4 [(CAN.CAN_CFG_MODE 4, 1), (CAN.FILT_ID_EN 4 3, 1), (CAN.CAN_RING_RX_RING0 4, 5), (QMG.RING_CFG_EN 5, 1), (QMG.RING_BASE 5, 0x20000040), (QMG.RING_BUF_BASE 5, 0x20001001), (QMG.RING_EP_PROD_CLASS 5, 2), (QMG.RING_EP_PROD_INST 5, 4)]).setCan 4 { CanCtl.blank with mode := 1 }), by decide +kernel⟩,
    ⟨(4), (0), (0), ([1]), (9), ((wS 4 [(CAN.CAN_CFG_MODE 4, 1)]).setCan 4 { CanCtl.blank with mode := 1 }), by decide +kernel⟩,
    ⟨(.core 0), (4), (((wS 4 []).rd (rkey 0x54 0 0x040) &&& ~~~7) ||| 2), (wS 4 []), by decide +kernel⟩,
    ⟨(.core 0), (4), (0x02030201), (wS 4 []), by decide +kernel⟩,
    ⟨(.core 0), (4), (0x02030202), (wS 4 [(CAN.CAN_CFG_MODE 4, 1)]), by decide +kernel⟩,
    ⟨(4), (1), ((wS 4 [(CAN.CAN_CFG_MODE 4, 3), (CAN.DET_STAT_SEARCHING 4, 1), (CAN.CAND_NBT_EN 4 1, 1), (CAN.DET_STAT_CURRENT 4, 3), (CAN.DET_STAT_PASSES 4, 2)]).setCan 4 { CanCtl.blank with mode := 3 }), by decide +kernel⟩⟩

/-- The hypotheses of each clause of LeasesAndRecords are met. -/
theorem witness_LeasesAndRecords :
    (∃ (k : Fin 13) (l : List (BitVec 8)) (a : BitVec 32) (s : State), (s.posted = []) ∧ (s.takes k.val l 0 1 = true) ∧ (s.on RDC.ROLE_LAPSED = false) ∧ (s.rdc.awaitPeer = none)) ∧
    (∃ (w : Fin 8) (l : List (BitVec 8)) (a : BitVec 32) (n : Nat) (s : State), (s.posted = []) ∧ (s.takes (5 + w.val) l (w.val + 2) 2 = true) ∧ (n = s.get (RDC.WM_CFG_STATION w.val)) ∧ ((s.leaseOf n).holder = some w.val) ∧ (s.mono < (s.leaseOf n).until_) ∧ ((s.leaseOf n).last = some w.val) ∧ (s.dutyOld = true) ∧ (s.duty = true) ∧ (s.pathUp (5 + w.val) = true)) ∧
    (∃ (w : Fin 8) (v : Nat) (l : List (BitVec 8)) (a : BitVec 32) (n : Nat) (s : State), (s.posted = []) ∧ (s.takes (5 + w.val) l (w.val + 2) 2 = true) ∧ (n = s.get (RDC.WM_CFG_STATION w.val)) ∧ ((s.leaseOf n).holder = some v) ∧ (v ≠ w.val) ∧ (s.mono < (s.leaseOf n).until_)) ∧
    (∃ (l : List (BitVec 8)) (a : BitVec 32) (q : Nat) (since : Nat) (s : State), (s.posted = []) ∧ (s.takes 4 l 1 3 = true) ∧ (s.rdc.reqs.find? (fun e => e.1 == (recOf l).arg) = some (q, since)) ∧ (s.role = roleACTIVE) ∧ (s.on RDC.ROLE_LAPSED = false)) ∧
    (∃ (l : List (BitVec 8)) (a : BitVec 32) (q : Nat) (since : Nat) (s : State), (s.posted = []) ∧ (s.takes 4 l 1 3 = true) ∧ (s.rdc.reqs.find? (fun e => e.1 == (recOf l).arg) = some (q, since)) ∧ (s.mstate = stRUN) ∧ (s.role = roleSTANDBY) ∧ (s.mono < since + ms 20) ∧ (s.rdc.everCkpt = true)) ∧
    (∃ (l : List (BitVec 8)) (a : BitVec 32) (s : State), (s.posted = []) ∧ (s.takes 4 l 1 4 = true)) ∧
    (∃ (k : Fin 13) (l : List (BitVec 8)) (a : BitVec 32) (s : State), (s.posted = []) ∧ (s.takes k.val l 0 5 = true) ∧ (s.mstate = stRUN) ∧ (s.role = roleSTANDBY) ∧ (s.unexpired s.rdc.witUntil = false) ∧ (s.reqPending = false)) ∧
    (∃ (k : Fin 13) (l : List (BitVec 8)) (a : BitVec 32) (s : State), (s.posted = []) ∧ (s.takes k.val l 0 5 = true) ∧ ((s.mstate ≠ stRUN ∨ s.role ≠ roleSTANDBY ∨ s.unexpired s.rdc.witUntil = true ∨ s.reqPending = true))) ∧
    (∃ (k : Fin 13) (l : List (BitVec 8)) (a : BitVec 32) (q : Nat) (since : Nat) (s : State), (s.posted = []) ∧ (s.takes k.val l 0 6 = true) ∧ (s.rdc.peerReqs.find? (fun e => e.1 == (recOf l).arg) = some (q, since))) ∧
    (∃ (w : Fin 8) (l : List (BitVec 8)) (a : BitVec 32) (n : Nat) (s : State), (s.posted = []) ∧ (s.takes (5 + w.val) l (w.val + 2) 7 = true) ∧ (n = s.get (RDC.WM_CFG_STATION w.val)) ∧ ((s.leaseOf n).holder = some w.val) ∧ (s.mono < (s.leaseOf n).until_)) ∧
    (∃ (k : Fin 13) (l : List (BitVec 8)) (a : BitVec 32) (e : Nat) (s : State), (s.posted = []) ∧ (s.takes k.val l 0 7 = true) ∧ (s.rdc.signUntil = some e)) ∧
    (∃ (k : Fin 13) (l : List (BitVec 8)) (a : BitVec 32) (s : State), (s.posted = []) ∧ (s.takes k.val l 0 8 = true) ∧ (s.on RDC.REVERT_STAT_WANTED = false)) ∧
    (∃ (k : Fin 13) (l : List (BitVec 8)) (a : BitVec 32) (d : BitVec 32) (s : State), (s.posted = []) ∧ (k.val < 2) ∧ (s.takes k.val l 0 9 = true) ∧ (s.role ≠ roleSTANDBY)) ∧
    (∃ (k : Fin 13) (l : List (BitVec 8)) (a : BitVec 32) (x : TimeEx) (s : State), (s.posted = []) ∧ (k.val < 2) ∧ (s.takes k.val l 0 10 = true) ∧ (s.rdc.timeEx = some x) ∧ (x.seq = (recOf l).arg) ∧ (s.mono ≤ x.sentAt + ms 10)) ∧
    (∃ (k : Fin 13) (l : List (BitVec 8)) (a : BitVec 32) (x : TimeEx) (y : BitVec 32 × BitVec 32 × Nat) (s : State), (s.posted = []) ∧ (k.val < 2) ∧ (s.takes k.val l 0 11 = true) ∧ (s.rdc.timeEx = some x) ∧ (x.resp = some y) ∧ (y.2.2 = (recOf l).arg) ∧ (s.mono ≤ x.sentAt + ms 10)) ∧
    (∃ (v : BitVec 32) (s : State), (s.posted = []) ∧ (s.enabled 0x05 = true) ∧ (s.mstate = stRUN) ∧ (s.redundant = true) ∧ (s.role = roleSTANDBY)) ∧
    (∃ (x : TimeEx) (s : State), (s.posted = []) ∧ (s.enabled 0x05 = true) ∧ (s.rdc.timeEx = some x)) ∧
    (∃ (s : State), (s.posted = []) ∧ (s.enabled 0x05 = true) ∧ (s.runOrSafe = true) ∧ (s.redundant = true) ∧ ((∀ j : Nat, j < 8 → s.on (RDC.WM_CFG_EN j) = false))) ∧
    (∃ (k : Fin 15) (x : Nat × Nat) (s : State), (s.posted = []) ∧ (s.enabled 0x05 = true) ∧ (k.val < 5) ∧ (s.rdc.linkAt.find? (fun e => e.1 == k.val) = some x)) ∧
    (∃ (s : State), (s.posted = []) ∧ (s.enabled 0x05 = true) ∧ (s.mstate = stRUN) ∧ (s.redundant = true) ∧ (s.role = roleACTIVE)) ∧
    (∃ (s : State), (s.posted = []) ∧ (s.enabled 0x05 = true) ∧ ((s.untilMono (s.rdc.lastReq + ms 1)).mayAsk = true)) ∧
    (∃ (s : State), (s.posted = []) ∧ (s.enabled 0x05 = true) ∧ (s.mstate = stRUN) ∧ (s.redundant = true) ∧ (s.role = roleACTIVE) ∧ (s.on RDC.ROLE_LAPSED = false)) ∧
    (∃ (e : Nat) (s : State), (s.posted = []) ∧ (s.enabled 0x05 = true) ∧ (s.rdc.signUntil = some e)) ∧
    (∃ (n : Fin 256) (w : Fin 8) (e : Nat) (q : Nat) (s : State), (s.posted = []) ∧ (s.enabled 0x05 = true) ∧ ((s.leaseOf n.val).holder = none) ∧ ((s.leaseOf n.val).ended = some e) ∧ ((s.leaseOf n.val).last = some w.val) ∧ (s.on (RDC.WM_CFG_EN w.val) = true) ∧ (s.get (RDC.WM_CFG_STATION w.val) = n.val) ∧ ((s.wm w.val).pend = some q)) ∧
    (∃ (e : Nat) (s : State), (s.posted = []) ∧ (s.enabled 0x05 = true) ∧ (s.rdc.dutyAt = some e)) ∧
    (∃ (n : Fin 256) (u : Fin 8) (v : Fin 8) (e : Nat) (s : State), (s.posted = []) ∧ (s.enabled 0x05 = true) ∧ (s.on (RDC.WM_CFG_EN u.val) = true) ∧ (s.on (RDC.WM_CFG_EN v.val) = true) ∧ (s.get (RDC.WM_CFG_STATION u.val) = n.val) ∧ (s.get (RDC.WM_CFG_STATION v.val) = n.val) ∧ (s.on (RDC.WM_CFG_MEMBER u.val) = false) ∧ (s.on (RDC.WM_CFG_MEMBER v.val) = true) ∧ ((∀ j : Nat, j < 8 → s.get (RDC.WM_CFG_STATION j) = n.val → s.on (RDC.WM_CFG_EN j) = true → (s.wm j).firstReq = some e))) :=
  ⟨⟨(0), (wRec (wStn 1 [] Rdc.blank) ([1, 9, 0, 1] ++ natLE 4 7 ++ natLE 4 0 ++ natLE 4 0)), (9), (wStn 1 [] Rdc.blank), by decide +kernel⟩,
    ⟨(3), ([2, 4, 0, 1] ++ natLE 4 7 ++ natLE 4 0 ++ natLE 4 0), (9), (9), (wStn 0 [(RDC.WM_CFG_EN 3, 1), (RDC.WM_CFG_PATH 3, 1), (RDC.WM_CFG_STATION 3, 9)] { Rdc.blank with dutyAt := some 0, linkAt := [(8, 49999999)], leases := [(9, ⟨some 3, 90000000, none, some 3, none⟩)] } |>.untilMono 50000000), by decide +kernel⟩,
    ⟨(3), (5), ([2, 4, 0, 1] ++ natLE 4 7 ++ natLE 4 0 ++ natLE 4 0), (9), (9), (wStn 0 [(RDC.WM_CFG_EN 3, 1), (RDC.WM_CFG_PATH 3, 1), (RDC.WM_CFG_STATION 3, 9)] { Rdc.blank with dutyAt := some 0, leases := [(9, ⟨some 5, 90000000, none, some 5, none⟩)] } |>.untilMono 50000000), by decide +kernel⟩,
    ⟨([3, 0, 0, 1] ++ natLE 4 7 ++ natLE 4 5 ++ natLE 4 0), (9), (5), (0), (wStn 1 [(RDC.STN_CFG_WIT_PATH, 1)] { Rdc.blank with reqs := [(5, 0)] }), by decide +kernel⟩,
    ⟨([3, 0, 0, 1] ++ natLE 4 7 ++ natLE 4 5 ++ natLE 4 0), (9), (5), (0), (wStn 2 [(RDC.STN_CFG_WIT_PATH, 1)] { Rdc.blank with reqs := [(5, 0)], everCkpt := true }), by decide +kernel⟩,
    ⟨([4, 0, 0, 1] ++ natLE 4 7 ++ natLE 4 0 ++ natLE 4 0), (9), (wStn 1 [(RDC.STN_CFG_WIT_PATH, 1)] { Rdc.blank with reqs := [(5, 0)] }), by decide +kernel⟩,
    ⟨(1), (wRec (wStn 2 [] Rdc.blank) ([5, 0, 0, 1] ++ natLE 4 7 ++ natLE 4 0 ++ natLE 4 0)), (9), (wStn 2 [] Rdc.blank), by decide +kernel⟩,
    ⟨(1), (wRec (wStn 2 [] { Rdc.blank with witUntil := some 5 }) ([5, 0, 0, 1] ++ natLE 4 7 ++ natLE 4 0 ++ natLE 4 0)), (9), (wStn 2 [] { Rdc.blank with witUntil := some 5 }), by decide +kernel⟩,
    ⟨(1), (wRec (wStn 1 [] { Rdc.blank with peerReqs := [(5, 0)] }) ([6, 0, 0, 1] ++ natLE 4 7 ++ natLE 4 5 ++ natLE 4 0)), (9), (5), (0), (wStn 1 [] { Rdc.blank with peerReqs := [(5, 0)] }), by decide +kernel⟩,
    ⟨(3), ([7, 0, 0, 1] ++ natLE 4 7 ++ natLE 4 0 ++ natLE 4 0), (9), (9), (wStn 0 [(RDC.WM_CFG_EN 3, 1), (RDC.WM_CFG_PATH 3, 1), (RDC.WM_CFG_STATION 3, 9)] { Rdc.blank with leases := [(9, ⟨some 3, 90000000, none, some 3, none⟩)] }), by decide +kernel⟩,
    ⟨(0), (wRec (wStn 2 [] { Rdc.blank with signUntil := some 50 }) ([7, 0, 0, 1] ++ natLE 4 7 ++ natLE 4 0 ++ natLE 4 0)), (9), (50), (wStn 2 [] { Rdc.blank with signUntil := some 50 }), by decide +kernel⟩,
    ⟨(0), (wRec (wStn 2 [] Rdc.blank) ([8, 0, 0, 1] ++ natLE 4 7 ++ natLE 4 0 ++ natLE 4 0)), (9), (wStn 2 [] Rdc.blank), by decide +kernel⟩,
    ⟨(0), (wRec (wStn 1 [] Rdc.blank) ([9, 0, 0, 1] ++ natLE 4 7 ++ natLE 4 0 ++ natLE 4 0)), (9), (11), (wStn 1 [] Rdc.blank), by decide +kernel⟩,
    ⟨(1), (wRec (wStn 2 [] { Rdc.blank with timeEx := some ⟨5, 0, 3, none⟩ }) ([10, 0, 0, 1] ++ natLE 4 7 ++ natLE 4 5 ++ natLE 4 77)), (9), (⟨5, 0, 3, none⟩), (wStn 2 [] { Rdc.blank with timeEx := some ⟨5, 0, 3, none⟩ }), by decide +kernel⟩,
    ⟨(1), (wRec (wStn 2 [] { Rdc.blank with timeEx := some ⟨5, 0, 3, some (1, 2, 6)⟩ }) ([11, 0, 0, 1] ++ natLE 4 7 ++ natLE 4 6 ++ natLE 4 77)), (9), (⟨5, 0, 3, some (1, 2, 6)⟩), ((1, 2, 6)), (wStn 2 [] { Rdc.blank with timeEx := some ⟨5, 0, 3, some (1, 2, 6)⟩ }), by decide +kernel⟩,
    ⟨(9), (wStn 2 [] Rdc.blank), by decide +kernel⟩,
    ⟨(⟨5, 0, 3, none⟩), (wStn 2 [] { Rdc.blank with timeEx := some ⟨5, 0, 3, none⟩ }), by decide +kernel⟩,
    ⟨(wStn 1 [] Rdc.blank), by decide +kernel⟩,
    ⟨(4), ((4, 7)), (wStn 1 [] { Rdc.blank with linkAt := [(4, 7)] }), by decide +kernel⟩,
    ⟨(wStn 1 [] Rdc.blank), by decide +kernel⟩,
    ⟨(wStn 2 [] Rdc.blank), by decide +kernel⟩,
    ⟨(wStn 1 [(RDC.ROLE_DRIVING, 1)] Rdc.blank), by decide +kernel⟩,
    ⟨(50), (wStn 2 [] { Rdc.blank with signUntil := some 50 }), by decide +kernel⟩,
    ⟨(9), (3), (50), (7), (wStn 0 [(RDC.WM_CFG_EN 3, 1), (RDC.WM_CFG_PATH 3, 1), (RDC.WM_CFG_STATION 3, 9)] { Rdc.blank with leases := [(9, ⟨none, 50, some 50, some 3, none⟩)], wm := [(3, ⟨none, 4, some 7, some 0, some 0⟩)] }), by decide +kernel⟩,
    ⟨(50), (wStn 0 [] { Rdc.blank with dutyAt := some 50 }), by decide +kernel⟩,
    ⟨(9), (3), (4), (50), (wStn 0 [(RDC.WM_CFG_EN 3, 1), (RDC.WM_CFG_STATION 3, 9), (RDC.WM_CFG_EN 4, 1), (RDC.WM_CFG_STATION 4, 9), (RDC.WM_CFG_MEMBER 4, 1)] { Rdc.blank with wm := [(3, ⟨none, 4, none, some 50, some 50⟩), (4, ⟨none, 4, none, some 50, some 50⟩)] }), by decide +kernel⟩⟩

/-- The hypotheses of each clause of HandoverAndSluice are met. -/
theorem witness_HandoverAndSluice :
    (∃ (m : Master) (s : State), (isUser m = false) ∧ (s.posted = []) ∧ (s.guardOf 0x05 = none) ∧ (s.readyStandby = true) ∧ (s.handoverOn = false)) ∧
    (∃ (m : Master) (s : State), (isUser m = false) ∧ (s.posted = []) ∧ (s.guardOf 0x05 = none) ∧ ((s.readyStandby = false ∨ s.handoverOn = true))) ∧
    (∃ (h : BitVec 64) (c : Nat) (s : State), (s.posted = []) ∧ (s.enabled 0x05 = true) ∧ (s.rdc.handover = some (h, c)) ∧ (s.mstate = stRUN) ∧ (s.role = roleACTIVE) ∧ ((∀ j : Nat, j < 4 → s.quiet j = true))) ∧
    (∃ (e : Nat) (s : State), (s.posted = []) ∧ (s.enabled 0x05 = true) ∧ (s.rdc.awaitPeer = some e) ∧ (s.pwr.restartAfter = 1)) ∧
    (∃ (e : Nat) (s : State), (s.posted = []) ∧ (s.enabled 0x05 = true) ∧ (s.rdc.readySince = some e) ∧ (s.preferred = true) ∧ (s.ready = true)) ∧
    (∃ (s : State), (s.posted = []) ∧ (s.enabled 0x05 = true) ∧ (s.revertOk = true)) ∧
    (∃ (s : State), (s.posted = []) ∧ (s.enabled 0x05 = true) ∧ (s.revertOk = false)) ∧
    (∃ (m : Master) (s : State), (isUser m = false) ∧ (s.posted = []) ∧ (s.guardOf 0x05 = none) ∧ (s.credLocked 5 = false) ∧ (s.credProved 5 [] = true)) ∧
    (∃ (m : Master) (s : State), (isUser m = false) ∧ (s.posted = []) ∧ (s.guardOf 0x05 = none) ∧ (s.credLocked 5 = false) ∧ (s.credProved 5 [] = true)) ∧
    (∃ (m : Master) (s : State), (isUser m = false) ∧ (s.posted = []) ∧ (s.guardOf 0x05 = none) ∧ ((s.credLocked 5 = true ∨ s.credProved 5 [] = false))) ∧
    (∃ (m : Master) (w : Fin 8) (v : BitVec 32) (s : State), (isUser m = false) ∧ (s.posted = []) ∧ (s.guardOf 0x05 = none) ∧ (s.on (RDC.WM_CFG_EN w.val) = false) ∧ (v = s.rd (rkey 0x05 0 (0x800 + 32 * w.val)) ||| 1) ∧ (s.wmTaken w.val = false)) ∧
    (∃ (m : Master) (w : Fin 8) (v : BitVec 32) (s : State), (isUser m = false) ∧ (s.posted = []) ∧ (s.guardOf 0x05 = none) ∧ (s.on (RDC.WM_CFG_EN w.val) = false) ∧ (v = s.rd (rkey 0x05 0 (0x800 + 32 * w.val)) ||| 1) ∧ (s.wmTaken w.val = true)) ∧
    (∃ (m : Master) (w : Fin 8) (n : Nat) (v : BitVec 32) (s : State), (isUser m = false) ∧ (s.posted = []) ∧ (s.guardOf 0x05 = none) ∧ (s.on (RDC.WM_CFG_EN w.val) = true) ∧ (v = s.rd (rkey 0x05 0 (0x800 + 32 * w.val)) &&& ~~~1) ∧ (n = s.get (RDC.WM_CFG_STATION w.val))) ∧
    (∃ (l : List (BitVec 8)) (s : State), (s.posted = []) ∧ (s.enabled 0x0C = true) ∧ (s.mstate = stRUN) ∧ (s.role = roleSTANDBY) ∧ (sluiceOk l = false)) ∧
    (∃ (l : List (BitVec 8)) (q : Nat) (s : State), (s.posted = []) ∧ (s.enabled 0x0C = true) ∧ (s.mstate = stRUN) ∧ (s.role = roleSTANDBY) ∧ (sluiceOk l = true) ∧ (leNat ((l.drop 2).take 1) = 3) ∧ (s.slu.rxSeq = some q) ∧ (leNat ((l.drop 8).take 4) = nextSeq q) ∧ (q < 2 ^ 32 - 1) ∧ ((s.slu.adv = true ∨ s.slu.fullEnd = true))) ∧
    (∃ (s : State), (s.posted = []) ∧ (s.slcSends = true) ∧ (s.on SLC.SLC_STAT_FULL_BUSY = false) ∧ (s.tku.base.toNat / 1000000000 ≠ s.slu.fullSecond)) ∧
    (∃ (s : State), (s.posted = []) ∧ (s.slcSends = true) ∧ (s.on SLC.SLC_STAT_FULL_BUSY = true)) ∧
    (∃ (e : Nat) (s : State), (s.posted = []) ∧ (s.slu.ckptAt = some e)) ∧
    (∃ (s : State), (s.posted = []) ∧ (s.on SLC.SLC_STAT_RESTORING = true) ∧ (s.mstate = stRUN) ∧ (s.role = roleACTIVE)) :=
  ⟨⟨(.core 0), (wStn 1 [] { Rdc.blank with witUntil := some 90000000, linkAt := [(0, 0), (13, 0)], hbAt := some 0, hbFlags := 6 }), by decide +kernel⟩,
    ⟨(.core 0), (wStn 2 [] Rdc.blank), by decide +kernel⟩,
    ⟨(1000), (2), (wStn 1 [] { Rdc.blank with handover := some (1000, 2) }), by decide +kernel⟩,
    ⟨(50), ({ wStn 2 [(SYS.REQ_STAT_HANDOVER_PENDING, 1)] { Rdc.blank with awaitPeer := some 50 } with pwr := { State.reset.pwr with restartAfter := 1 } }), by decide +kernel⟩,
    ⟨(50), (wReady), by decide +kernel⟩,
    ⟨(wStn 1 [(RDC.STN_CFG_MEMBER, 1), (RDC.REVERT_CFG_REVERT_EN, 1)] { Rdc.blank with witUntil := some 90000000, linkAt := [(0, 0), (13, 0)], hbAt := some 0, hbFlags := 70 }), by decide +kernel⟩,
    ⟨(wStn 1 [] Rdc.blank), by decide +kernel⟩,
    ⟨(.core 0), (wProve ((wStn 1 [] Rdc.blank).put GNT.CRED_STAT_LAST_PURPOSE 5) 5 []), by decide +kernel⟩,
    ⟨(.core 0), (wProve ((wStn 1 [(RDC.REVERT_STAT_INHIBITED, 1)] Rdc.blank).put GNT.CRED_STAT_LAST_PURPOSE 5) 5 []), by decide +kernel⟩,
    ⟨(.core 0), ({ wStn 1 [] Rdc.blank with credLockTo := [(5, 7)] }), by decide +kernel⟩,
    ⟨(.core 0), (3), ((wS 4 [(RDC.WM_CFG_STATION 3, 9)]).rd (rkey 0x05 0 (0x800 + 32 * 3)) ||| 1), (wS 4 [(RDC.WM_CFG_STATION 3, 9)]), by decide +kernel⟩,
    ⟨(.core 0), (3), ((wS 4 [(RDC.WM_CFG_EN 2, 1)]).rd (rkey 0x05 0 (0x800 + 32 * 3)) ||| 1), (wS 4 [(RDC.WM_CFG_EN 2, 1)]), by decide +kernel⟩,
    ⟨(.core 0), (3), (9), (({ wS 4 [(RDC.WM_CFG_EN 3, 1), (RDC.WM_CFG_STATION 3, 9)] with rdc := { Rdc.blank with leases := [(9, ⟨some 3, 90000000, none, some 3, none⟩)] } }).rd (rkey 0x05 0 (0x800 + 32 * 3)) &&& ~~~1), ({ wS 4 [(RDC.WM_CFG_EN 3, 1), (RDC.WM_CFG_STATION 3, 9)] with rdc := { Rdc.blank with leases := [(9, ⟨some 3, 90000000, none, some 3, none⟩)] } }), by decide +kernel⟩,
    ⟨([1, 2]), (wStn 2 [] Rdc.blank), by decide +kernel⟩,
    ⟨(sluiceRec 3 0 6 0 0 []), (5), ({ wStn 2 [] Rdc.blank with slu := { Slu.blank with rxSeq := some 5, fullEnd := true, stage := [(65536, [1])] } }), by decide +kernel⟩,
    ⟨({ wStn 1 [] Rdc.blank with slu := { Slu.blank with fullSecond := 7 } }), by decide +kernel⟩,
    ⟨({ wStn 1 [(SLC.SLC_STAT_FULL_BUSY, 1)] Rdc.blank with slu := { Slu.blank with fullFrom := some 7 } }), by decide +kernel⟩,
    ⟨(50), ({ wStn 2 [] Rdc.blank with slu := { Slu.blank with ckptAt := some 50 } }), by decide +kernel⟩,
    ⟨(wStn 1 [(SLC.SLC_STAT_RESTORING, 1)] Rdc.blank), by decide +kernel⟩⟩

/-- The hypotheses of each clause of PowerAndStart are met. -/
theorem witness_PowerAndStart :
    (∃ (v : BitVec 16) (f : BitVec 16) (s : State), (s.posted = []) ∧ (mainsGood v.toNat f.toNat = false) ∧ (s.on PSU.FEED_STAT_MAINS_OK = true)) ∧
    (∃ (v : BitVec 16) (f : BitVec 16) (s : State), (s.posted = []) ∧ (mainsGood v.toNat f.toNat = false) ∧ (s.on PSU.FEED_STAT_MAINS_OK = true)) ∧
    (∃ (v : BitVec 16) (f : BitVec 16) (s : State), (s.posted = []) ∧ (mainsGood v.toNat f.toNat = true)) ∧
    (∃ (v : BitVec 16) (f : BitVec 16) (s : State), (s.posted = []) ∧ (mainsGood v.toNat f.toNat = true)) ∧
    (∃ (v : BitVec 16) (i : BitVec 16) (s : State), (s.posted = []) ∧ (auxGood v.toNat = false) ∧ (s.on PSU.FEED_STAT_AUX_OK = true)) ∧
    (∃ (v : BitVec 16) (i : BitVec 16) (s : State), (s.posted = []) ∧ (auxGood v.toNat = true)) ∧
    (∃ (b : BitVec 16) (s : State), (s.posted = []) ∧ (s.mstate ≠ stPOWER_ON) ∧ (s.pfw = false) ∧ (b.toNat < s.get PSU.PF_THRESH)) ∧
    (∃ (b : BitVec 16) (s : State), (s.posted = []) ∧ (s.pfw = true) ∧ (s.get PSU.PF_THRESH + 200 < b.toNat)) ∧
    (∃ (b : BitVec 16) (s : State), (s.posted = []) ∧ (s.pfw = true) ∧ (b.toNat ≤ s.get PSU.PF_THRESH + 200)) ∧
    (∃ (s : State), (s.posted = []) ∧ (Regs.wf s.regs = true) ∧ (s.mstate ≠ stPOWER_ON)) ∧
    (∃ (r : Fin 7) (s : State), (s.posted = []) ∧ (s.pfw = false) ∧ (r.val < 6) ∧ ((s.mstate = stCONFIG ∨ s.mstate = stRUN))) ∧
    (∃ (r : Fin 7) (s : State), (s.posted = []) ∧ (s.pfw = false) ∧ (r.val < 6) ∧ ((s.mstate = stCONFIG ∨ s.mstate = stRUN))) ∧
    (∃ (b : BitVec 16) (s : State), (s.posted = []) ∧ (s.mstate = stPOWER_ON) ∧ (s.get PSU.PF_THRESH + 200 < b.toNat)) ∧
    (∃ (b : BitVec 16) (s : State), (s.posted = []) ∧ (s.mstate = stPOWER_ON) ∧ (b.toNat ≤ s.get PSU.PF_THRESH + 200)) ∧
    (∃ (a : List (Fin 8192 × Fin 8)) (n : Nat) (s : State), (s.posted = []) ∧ (s.mstate = stBOOT) ∧ (n = s.get SYS.BOOT_SELECT_IMAGE) ∧ ((s.nand n).good = true)) ∧
    (∃ (a : List (Fin 8192 × Fin 8)) (s : State), (s.posted = []) ∧ (s.mstate = stBOOT) ∧ (s.dev.imgA.good = false) ∧ (s.dev.imgB.good = false)) ∧
    (∃ (s : State), (s.posted = []) ∧ (s.mstate = stSTARTUP) ∧ (s.redundant = false)) ∧
    (∃ (s : State), (s.posted = []) ∧ (s.mstate = stSTARTUP) ∧ (s.redundant = true)) ∧
    (∃ (s : State), (s.posted = []) ∧ (s.mstate = stSTARTUP)) ∧
    (∃ (s : State), (s.posted = []) ∧ (s.pfw = false) ∧ (s.pwr.pressedAt = none)) ∧
    (∃ (n : Nat) (e : Nat) (s : State), (s.posted = []) ∧ (s.pwr.pressedAt = some e) ∧ (s.pfw = false) ∧ (s.on CLO.BUTTON_STUCK = false) ∧ (n < 100)) ∧
    (∃ (n : Nat) (e : Nat) (s : State), (s.posted = []) ∧ (s.pwr.pressedAt = some e) ∧ (s.pfw = false) ∧ (s.on CLO.BUTTON_STUCK = false) ∧ (3000 ≤ n) ∧ (n < 10000) ∧ (s.role ≠ roleACTIVE) ∧ (s.mstate ≠ stPOWER_ON)) ∧
    (∃ (n : Nat) (e : Nat) (s : State), (s.posted = []) ∧ (s.pwr.pressedAt = some e) ∧ (s.pfw = false) ∧ (s.on CLO.BUTTON_STUCK = false) ∧ (3000 ≤ n) ∧ (n < 10000) ∧ (s.role ≠ roleACTIVE) ∧ (s.mstate ≠ stPOWER_ON)) ∧
    (∃ (e : Nat) (s : State), (s.posted = []) ∧ (s.pwr.pressedAt = some e) ∧ (s.pfw = false) ∧ (s.on CLO.BUTTON_STUCK = false)) ∧
    (∃ (s : State), (s.posted = []) ∧ (s.on CLO.BUTTON_STUCK = true) ∧ (s.pwr.pressedAt = none)) ∧
    (∃ (s : State), (s.posted = []) ∧ (s.mstate = stSAFE) ∧ (s.get PSU.AUTO_RESTART_DELAY_S ≠ 0) ∧ (s.autoCount < s.get PSU.AUTO_RESTART_LIMIT)) ∧
    (∃ (s : State), (s.posted = []) ∧ (s.get PSU.AUTO_RESTART_DELAY_S = 0)) :=
  ⟨⟨(0), (0), (wS 4 [(PSU.FEED_STAT_MAINS_OK, 1), (PSU.FEED_STAT_AUX_OK, 1)]), by decide +kernel⟩,
    ⟨(2801), (5000), (wS 4 [(PSU.FEED_STAT_MAINS_OK, 1)]), by decide +kernel⟩,
    ⟨(801), (4500), (wS 4 []), by decide +kernel⟩,
    ⟨(2800), (6500), (wS 4 [(PSU.FEED_STAT_AUX_OK, 1)]), by decide +kernel⟩,
    ⟨(17500), (5), (wS 4 [(PSU.FEED_STAT_AUX_OK, 1)]), by decide +kernel⟩,
    ⟨(17501), (5), (wS 4 []), by decide +kernel⟩,
    ⟨(2849), (wS 4 [(MPL.MPL_STAT_CAP_BUSY, 1)]), by decide +kernel⟩,
    ⟨(3051), (wS 4 [(PSU.FEED_STAT_PFW, 1)]), by decide +kernel⟩,
    ⟨(3050), (wS 4 [(PSU.FEED_STAT_PFW, 1)]), by decide +kernel⟩,
    ⟨({ wS 4 [] with mem := [] }), by decide +kernel⟩,
    ⟨(5), (wS 4 []), by decide +kernel⟩,
    ⟨(0), (wS 2 []), by decide +kernel⟩,
    ⟨(3051), (wP []), by decide +kernel⟩,
    ⟨(3050), (wP []), by decide +kernel⟩,
    ⟨([]), (0), (wP [(SYS.MODULE_STATE_STATE, 1)]), by decide +kernel⟩,
    ⟨([]), ({ wP [(SYS.MODULE_STATE_STATE, 1)] with dev := { State.reset.dev with imgA := ⟨false, 0, 0⟩ } }), by decide +kernel⟩,
    ⟨(wP [(SYS.MODULE_STATE_STATE, 3)]), by decide +kernel⟩,
    ⟨(wP [(SYS.MODULE_STATE_STATE, 3), (RDC.STN_CFG_REDUNDANT, 1)]), by decide +kernel⟩,
    ⟨(wP [(SYS.MODULE_STATE_STATE, 3)]), by decide +kernel⟩,
    ⟨(wS 4 []), by decide +kernel⟩,
    ⟨(99), (0), ({ wS 4 [(CLO.BUTTON_PRESSED, 1)] with pwr := { State.reset.pwr with pressedAt := some 0 } }), by decide +kernel⟩,
    ⟨(3000), (0), ({ wS 4 [(CLO.BUTTON_PRESSED, 1)] with pwr := { State.reset.pwr with pressedAt := some 0 } }), by decide +kernel⟩,
    ⟨(9999), (0), ({ wS 5 [(CLO.BUTTON_PRESSED, 1)] with pwr := { State.reset.pwr with pressedAt := some 0 } }), by decide +kernel⟩,
    ⟨(0), ({ wS 4 [(CLO.BUTTON_PRESSED, 1)] with pwr := { State.reset.pwr with pressedAt := some 0 } }), by decide +kernel⟩,
    ⟨(wS 4 [(CLO.BUTTON_STUCK, 1)]), by decide +kernel⟩,
    ⟨(wS 5 [(PSU.AUTO_RESTART_DELAY_S, 10)]), by decide +kernel⟩,
    ⟨(wS 5 [(PSU.AUTO_RESTART_DELAY_S, 0)]), by decide +kernel⟩⟩

/-- The hypotheses of each clause of RecorderAndPlanner are met. -/
theorem witness_RecorderAndPlanner :
    (∃ (s : State), (s.posted = []) ∧ (s.enabled 0x08 = true) ∧ (s.on CIS.CIS_STAT_SAMPLING = true) ∧ (s.cis.hours < s.ops / 3600) ∧ (s.ops / 86400 ≤ s.cis.days)) ∧
    (∃ (i : Nat) (k : CisTrk) (s : State), (s.posted = []) ∧ (s.enabled 0x08 = true) ∧ (s.on CIS.CIS_STAT_SAMPLING = true) ∧ (s.cis.hours < s.ops / 3600) ∧ (s.ops / 86400 ≤ s.cis.days) ∧ (s.cis.trks = [(i, k)]) ∧ (s.cisRing = none)) ∧
    (∃ (s : State), (s.posted = []) ∧ (s.enabled 0x08 = true) ∧ (s.on CIS.CIS_STAT_SAMPLING = true) ∧ (s.cis.days < s.ops / 86400)) ∧
    (∃ (m : Master) (s : State), (isUser m = false) ∧ (s.posted = []) ∧ (s.guardOf 0x08 = none)) ∧
    (∃ (k : CisCkpt) (s : State), (s.posted = []) ∧ (s.cis.flush = some k) ∧ (s.cis.clear = none) ∧ (s.cis.ckA = none)) ∧
    (∃ (k : CisCkpt) (a : CisCkpt) (b : CisCkpt) (s : State), (s.posted = []) ∧ (s.cis.flush = some k) ∧ (s.cis.clear = none) ∧ (s.cis.ckA = some a) ∧ (s.cis.ckB = some b) ∧ (b.seq ≤ a.seq)) ∧
    (∃ (m : Master) (s : State), (isUser m = false) ∧ (s.posted = []) ∧ (s.guardOf 0x08 = none) ∧ (s.credLocked 4 = false) ∧ (s.credProved 4 [] = true) ∧ (s.pfw = false) ∧ (s.get CIS.CLEAR_SCOPE_STORES ≠ 0) ∧ (s.get64 CIS.CLEAR_TRK_LO CIS.CLEAR_TRK_HI ≠ 0) ∧ (s.on CIS.CIS_STAT_LOG_FULL = false) ∧ (s.cis.flush = none) ∧ (s.cis.clear = none) ∧ (s.get CIS.LOG_COUNT < 2048)) ∧
    (∃ (m : Master) (s : State), (isUser m = false) ∧ (s.posted = []) ∧ (s.guardOf 0x08 = none) ∧ ((s.credLocked 4 = true ∨ s.credProved 4 [] = false))) ∧
    (∃ (m : Master) (i : Nat) (v : BitVec 32) (s : State), (isUser m = false) ∧ (s.posted = []) ∧ (s.guardOf 0x08 = none) ∧ (i = s.get CIS.TRK_SEL) ∧ (s.on (CIS.TRK_CFG_EN i) = false) ∧ (v = s.rd (rkey 0x08 i 0x074) ||| 1) ∧ (s.trkOk i = true)) ∧
    (∃ (m : Master) (i : Nat) (v : BitVec 32) (s : State), (isUser m = false) ∧ (s.posted = []) ∧ (s.guardOf 0x08 = none) ∧ (i = s.get CIS.TRK_SEL) ∧ (s.on (CIS.TRK_CFG_EN i) = false) ∧ (v = s.rd (rkey 0x08 i 0x074) ||| 1) ∧ (s.trkOk i = false)) ∧
    (∃ (m : Master) (i : Nat) (k : CisTrk) (v : BitVec 32) (s : State), (isUser m = false) ∧ (s.posted = []) ∧ (s.guardOf 0x08 = none) ∧ (i = s.get CIS.TRK_SEL) ∧ (s.on (CIS.TRK_CFG_EN i) = true) ∧ (v = s.rd (rkey 0x08 i 0x074) &&& ~~~1) ∧ (s.cis.trks.find? (fun e => e.1 == i) = some (i, k))) ∧
    (∃ (r : Nat) (q : CisRec) (s : State), (s.posted = []) ∧ (s.enabled 0x08 = true) ∧ (s.cisRing = some r) ∧ (s.nextExport = some q) ∧ (s.ringCredit r = 0)) ∧
    (∃ (r : Nat) (q : CisRec) (s : State), (s.posted = []) ∧ (s.enabled 0x08 = true) ∧ (s.cisRing = some r) ∧ (s.nextExport = some q) ∧ (s.ringCredit r ≠ 0)) ∧
    (∃ (k : Fin 77) (v : Int) (refs : List Int) (s : State), (s.posted = []) ∧ (s.enabled 0x02 = true) ∧ (28 ≤ k.val) ∧ (k.val < 60)) ∧
    (∃ (k : Fin 77) (v : Int) (refs : List Int) (s : State), (s.posted = []) ∧ (s.enabled 0x02 = true) ∧ (28 ≤ k.val) ∧ (k.val < 60)) ∧
    (∃ (k : Fin 77) (v : Int) (a : Int) (b : Int) (c : Int) (s : State), (s.posted = []) ∧ (s.enabled 0x02 = true) ∧ (10 ≤ k.val) ∧ (k.val < 26) ∧ (apart a b = false) ∧ (apart a c = false) ∧ (apart b c = false)) ∧
    (∃ (k : Fin 77) (v : Int) (a : Int) (b : Int) (c : Int) (s : State), (s.posted = []) ∧ (s.enabled 0x02 = true) ∧ (10 ≤ k.val) ∧ (k.val < 26) ∧ (apart a b = false) ∧ (apart a c = false) ∧ (apart b c = false)) ∧
    (∃ (m : Master) (s : State), (isUser m = false) ∧ (s.posted = []) ∧ (s.guardOf 0x02 = none) ∧ ((∀ d : Nat, d < 10 → s.qualifies d (s.mon d).worst.head? = false))) ∧
    (∃ (m : Master) (d : Fin 10) (s : State), (isUser m = false) ∧ (s.posted = []) ∧ (s.guardOf 0x02 = none) ∧ ((∀ e : Nat, e < 10 → e ≠ d.val → s.qualifies e (s.mon e).worst.head? = false)) ∧ (s.qualifies d.val (s.mon d.val).worst.head? = true) ∧ (s.replanErr d.val = 0)) ∧
    (∃ (m : Master) (s : State), (isUser m = false) ∧ (s.posted = []) ∧ (s.guardOf 0x02 = none) ∧ (s.on MPL.MPL_STAT_CAP_BUSY = false) ∧ (s.pfw = false)) ∧
    (∃ (m : Master) (s : State), (isUser m = false) ∧ (s.posted = []) ∧ (s.guardOf 0x02 = none) ∧ (s.on MPL.MPL_STAT_CAP_BUSY = true)) ∧
    (∃ (c : BitVec 16) (p : Nat) (s : State), (s.posted = []) ∧ (s.enabled 0x02 = true) ∧ (s.on MPL.MPL_STAT_CAP_BUSY = true) ∧ (s.pfw = false) ∧ (pfThresh c.toNat = some p)) ∧
    (∃ (d : Fin 10) (s : State), (s.posted = []) ∧ (s.enabled 0x02 = true) ∧ (s.bit MPL.GRADE_STAT_PENDING d.val = true) ∧ (s.get (CLO.DOM_STAT_GRADE d.val) < maxGrade d.val) ∧ (s.gradeGap d.val = true)) ∧
    (∃ (d : Fin 10) (s : State), (s.posted = []) ∧ (s.enabled 0x02 = true) ∧ (s.bit MPL.GRADE_STAT_PENDING d.val = true) ∧ (s.get (CLO.DOM_STAT_GRADE d.val) < maxGrade d.val) ∧ (s.gradeGap d.val = true)) ∧
    (∃ (d : Fin 10) (s : State), (s.posted = []) ∧ (s.gradeGap d.val = false)) ∧
    (∃ (d : Fin 10) (b : Nat) (e : Nat) (s : State), (s.posted = []) ∧ (s.enabled 0x02 = true) ∧ (s.mpl.pend.find? (fun x => x.1 == d.val) = some (d.val, (b, e))) ∧ (b + secs 60 ≤ s.mono)) ∧
    (∃ (f : Nat) (s : State), (s.posted = []) ∧ (s.enabled 0x02 = true) ∧ (s.mpl.learnFrom = some f) ∧ (s.on MPL.MPL_STAT_LEARNING = true) ∧ (f + 259200 ≤ s.ops)) ∧
    (∃ (b : Fin 16) (med : Int) (s : State), (s.posted = []) ∧ (s.enabled 0x02 = true) ∧ (s.mpl.recal.find? (fun e => e.1 == b.val) = none)) :=
  ⟨⟨({ wS 4 [(CIS.CIS_STAT_SAMPLING, 1), (CLO.OP_SECONDS, 7200)] with cis := { Cis.blank with hours := 1 } }), by decide +kernel⟩,
    ⟨(5), (wTrk), ({ wS 4 [(CIS.CIS_STAT_SAMPLING, 1), (CLO.OP_SECONDS, 7200)] with cis := { Cis.blank with hours := 1, trks := [(5, wTrk)] } }), by decide +kernel⟩,
    ⟨({ wS 4 [(CIS.CIS_STAT_SAMPLING, 1), (CLO.OP_SECONDS, 86400), (PNL.DAY_USED_UPDATES, 9)] with cis := { Cis.blank with hours := 23 } }), by decide +kernel⟩,
    ⟨(.core 0), ({ wS 4 [] with cis := { Cis.blank with trks := [(5, wTrk)] } }), by decide +kernel⟩,
    ⟨(⟨3, 77, [(5, wTrk)]⟩), ({ wS 4 [(CIS.CIS_STAT_FLUSH_BUSY, 1)] with cis := { Cis.blank with flush := some ⟨3, 77, [(5, wTrk)]⟩ } }), by decide +kernel⟩,
    ⟨(⟨3, 77, []⟩), (⟨2, 70, []⟩), (⟨1, 60, []⟩), ({ wS 4 [(CIS.CIS_STAT_FLUSH_BUSY, 1)] with cis := { Cis.blank with flush := some ⟨3, 77, []⟩, ckA := some ⟨2, 70, []⟩, ckB := some ⟨1, 60, []⟩ } }), by decide +kernel⟩,
    ⟨(.core 0), (wProve ((wP [(SYS.MODULE_STATE_STATE, 4), (CIS.CLEAR_SCOPE_STORES, 1), (CIS.CLEAR_TRK_LO, 32)]).put GNT.CRED_STAT_LAST_PURPOSE 4) 4 []), by decide +kernel⟩,
    ⟨(.core 0), ({ wS 4 [(CIS.CLEAR_SCOPE_STORES, 1), (CIS.CLEAR_TRK_LO, 32)] with credLockTo := [(4, 7)] }), by decide +kernel⟩,
    ⟨(.core 0), (5), ((wS 4 [(CIS.TRK_SEL, 5), (CIS.TRK_CFG_NBINS 5, 2), (CIS.TRK_WIDTH 5, 10)]).rd (rkey 0x08 5 0x074) ||| 1), (wS 4 [(CIS.TRK_SEL, 5), (CIS.TRK_CFG_NBINS 5, 2), (CIS.TRK_WIDTH 5, 10)]), by decide +kernel⟩,
    ⟨(.core 0), (5), ((wS 4 [(CIS.TRK_SEL, 5), (CIS.TRK_CFG_NBINS 5, 2), (CIS.TRK_WIDTH 5, 0)]).rd (rkey 0x08 5 0x074) ||| 1), (wS 4 [(CIS.TRK_SEL, 5), (CIS.TRK_CFG_NBINS 5, 2), (CIS.TRK_WIDTH 5, 0)]), by decide +kernel⟩,
    ⟨(.core 0), (5), (wTrk), (({ wS 4 [(CIS.TRK_SEL, 5), (CIS.TRK_CFG_EN 5, 1), (CIS.TRK_CFG_NBINS 5, 2)] with cis := { Cis.blank with trks := [(5, wTrk)] } }).rd (rkey 0x08 5 0x074) &&& ~~~1), ({ wS 4 [(CIS.TRK_SEL, 5), (CIS.TRK_CFG_EN 5, 1), (CIS.TRK_CFG_NBINS 5, 2)] with cis := { Cis.blank with trks := [(5, wTrk)] } }), by decide +kernel⟩,
    ⟨(5), (⟨0x71200000, 72, 1, 5, 9⟩), ({ wS 4 [(SYS.FEAT_ACTIVE 0, 128), (CIS.CIS_CFG_EXPORT_RING, 5), (QMG.RING_CFG_EN 5, 1), (QMG.RING_BASE 5, 0x20000040), (QMG.RING_EP_PROD_CLASS 5, 6), (QMG.RING_PROD_PROD_IDX 5, 65535)] with cis := { Cis.blank with recs := [⟨0x71200000, 72, 1, 5, 9⟩] } }), by decide +kernel⟩,
    ⟨(5), (⟨0x71200000, 72, 1, 5, 9⟩), ({ wS 4 [(SYS.FEAT_ACTIVE 0, 128), (CIS.CIS_CFG_EXPORT_RING, 5), (QMG.RING_CFG_EN 5, 1), (QMG.RING_BASE 5, 0x20000040), (QMG.RING_EP_PROD_CLASS 5, 6)] with cis := { Cis.blank with recs := [⟨0x71200000, 72, 1, 5, 9⟩] } }), by decide +kernel⟩,
    ⟨(28), (-5), ([]), (wS 4 []), by decide +kernel⟩,
    ⟨(59), (1000), ([1]), (wS 4 [(MPL.MPL_STAT_LEARNING, 1)]), by decide +kernel⟩,
    ⟨(10), (0), (1000), (1200), (1500), (wS 4 []), by decide +kernel⟩,
    ⟨(25), (0), (1000), (1000), (1000), (wS 4 [(MPL.RECAL_EXCLUDED 15, 2)]), by decide +kernel⟩,
    ⟨(.core 0), (wS 4 [(MPL.GRADE_STAT_PENDING, 4)]), by decide +kernel⟩,
    ⟨(.core 0), (2), ({ wS 4 [(MPL.MPL_STAT_BASELINE_OK, 1), (MPL.GRADE_FLOOR, 0x600), (CLO.DOM_STAT_FREQ_MHZ 2, 600), (MPL.MON_VAL 2, 10000)] with mpl := { Mpl.blank with mons := [(2, ⟨[10], none, 0, 0, none, none, 0⟩)] } }), by decide +kernel⟩,
    ⟨(.core 0), (wS 4 []), by decide +kernel⟩,
    ⟨(.core 0), (wS 4 [(MPL.MPL_STAT_CAP_BUSY, 1)]), by decide +kernel⟩,
    ⟨(10000), (2250), (wS 4 [(MPL.MPL_STAT_CAP_BUSY, 1)]), by decide +kernel⟩,
    ⟨(9), (wS 4 [(MPL.GRADE_STAT_PENDING, 0x200), (CLO.DOM_STAT_GRADE 9, 1), (MPL.GRADE_STAT_BLOCKED, 0x200)]), by decide +kernel⟩,
    ⟨(4), (wS 4 [(MPL.GRADE_STAT_PENDING, 16)]), by decide +kernel⟩,
    ⟨(9), (wS 4 [(MPL.GRADE_STAT_PENDING, 0x200), (SLOT.SLOT_STAT_STATE 0, csLOADING)]), by decide +kernel⟩,
    ⟨(3), (0), (0), ({ wS 4 [] with mpl := { Mpl.blank with pend := [(3, (0, 0))] }, tku := { State.reset.tku with mono := 60000000000 } }), by decide +kernel⟩,
    ⟨(0), ({ wS 4 [(MPL.MPL_STAT_LEARNING, 1), (CLO.OP_SECONDS, 259200)] with mpl := { Mpl.blank with learnFrom := some 0 } }), by decide +kernel⟩,
    ⟨(7), (-12), (wS 4 []), by decide +kernel⟩⟩

/-- The hypotheses of each clause of FrontPanel are met. -/
theorem witness_FrontPanel :
    (∃ (x : Int) (s : State), (s.posted = []) ∧ (s.mstate ≠ stPOWER_ON) ∧ (s.enabled 0x09 = true) ∧ (s.on PNL.PNL_STAT_UPDATING = false) ∧ (s.get PNL.PNL_STAT_STEP = 0) ∧ (s.pfw = false) ∧ (s.pnl.refresh = true) ∧ ((s.panelTemp x).on PNL.PNL_STAT_HELD = false)) ∧
    (∃ (x : Int) (s : State), (s.posted = []) ∧ (s.mstate ≠ stPOWER_ON) ∧ (s.enabled 0x09 = true) ∧ (s.on PNL.PNL_STAT_UPDATING = false) ∧ (s.get PNL.PNL_STAT_STEP = 0) ∧ (s.pfw = false) ∧ (s.pnl.refresh = true) ∧ ((s.panelTemp x).on PNL.PNL_STAT_HELD = false)) ∧
    (∃ (x : Int) (s : State), (s.posted = []) ∧ (s.mstate ≠ stPOWER_ON) ∧ (s.enabled 0x09 = true) ∧ (s.on PNL.PNL_STAT_UPDATING = false) ∧ (s.get PNL.PNL_STAT_STEP = 0) ∧ (s.pfw = false) ∧ (s.pnl.refresh = false) ∧ (s.pnl.bootClear = false) ∧ (s.on PNL.PNL_STAT_CLEANUP_PENDING = false) ∧ (s.on PNL.PNL_STAT_UPD_OPEN = false) ∧ ((s.panelTemp x).exemptChange = false) ∧ (s.pnl.shown ≠ some (s.panelTemp x).compose) ∧ (s.budgetOut = false) ∧ (s.pnl.lastEnd.elim 0 (fun e => e + ms (s.get PNL.PNL_CFG_HOLDOFF_MS)) ≤ s.mono) ∧ ((s.panelTemp x).on PNL.PNL_STAT_HELD = false) ∧ (s.get PNL.DAY_USED_UPDATES < 0xFFFF)) ∧
    (∃ (x : Int) (s : State), (s.posted = []) ∧ ((s.pfw = true ∨ (s.panelTemp x).on PNL.PNL_STAT_HELD = true)) ∧ (s.on PNL.PNL_STAT_UPDATING = false)) ∧
    (∃ (x : Int) (s : State), (s.posted = []) ∧ ((s.pfw = true ∨ (s.panelTemp x).on PNL.PNL_STAT_HELD = true)) ∧ (s.on PNL.PNL_STAT_UPDATING = false)) ∧
    (∃ (x : Int) (s : State), (s.posted = []) ∧ (s.mstate ≠ stPOWER_ON) ∧ (s.get PNL.PNL_STAT_STEP = 1) ∧ ((s.panelTemp x).on PNL.PNL_STAT_HELD = false)) ∧
    (∃ (x : Int) (s : State), (s.posted = []) ∧ (s.mstate ≠ stPOWER_ON) ∧ (s.get PNL.PNL_STAT_STEP = 1) ∧ ((s.panelTemp x).on PNL.PNL_STAT_HELD = true)) ∧
    (∃ (x : Int) (g : PnlImg) (s : State), (s.posted = []) ∧ (s.mstate ≠ stPOWER_ON) ∧ (s.get PNL.PNL_STAT_STEP = 2) ∧ (s.pnl.target = some g)) ∧
    (∃ (x : Int) (g : PnlImg) (s : State), (s.posted = []) ∧ (s.mstate ≠ stPOWER_ON) ∧ (s.get PNL.PNL_STAT_STEP = 3) ∧ (s.pnl.target = some g)) ∧
    (∃ (s : State), (s.posted = []) ∧ (s.mstate ≠ stPOWER_ON) ∧ (s.blinking = true) ∧ (s.on PNL.PNL_STAT_UPDATING = false) ∧ (s.on PNL.PNL_STAT_UPD_OPEN = false)) ∧
    (∃ (s : State), (s.posted = []) ∧ ((s.blinking = false ∨ s.on PNL.PNL_STAT_UPDATING = true))) ∧
    (∃ (o : BitVec 16) (s : State), (s.posted = []) ∧ (s.mstate ≠ stPOWER_ON) ∧ (s.enabled 0x09 = true)) ∧
    (∃ (o : BitVec 16) (s : State), (s.posted = []) ∧ (s.mstate ≠ stPOWER_ON) ∧ (s.enabled 0x09 = true)) ∧
    (∃ (o : BitVec 16) (s : State), (s.posted = []) ∧ (s.mstate ≠ stPOWER_ON) ∧ (s.enabled 0x09 = true)) ∧
    (∃ (s : State), (s.posted = []) ∧ (s.mstate ≠ stPOWER_ON) ∧ (s.enabled 0x09 = true)) ∧
    (∃ (s : State), (s.posted = []) ∧ (s.mstate ≠ stPOWER_ON) ∧ (s.enabled 0x09 = true)) ∧
    (∃ (s : State), (s.posted = []) ∧ (s.mstate ≠ stPOWER_ON) ∧ (s.enabled 0x09 = true)) ∧
    (∃ (m : Master) (s : State), (isUser m = false) ∧ (s.posted = []) ∧ (s.guardOf 0x09 = none) ∧ (s.pfw = false)) ∧
    (∃ (m : Master) (s : State), (isUser m = false) ∧ (s.posted = []) ∧ (s.guardOf 0x09 = none) ∧ (s.pfw = true)) ∧
    (∃ (m : Master) (s : State), (isUser m = false) ∧ (s.posted = []) ∧ (s.guardOf 0x09 = none) ∧ (s.lampOn = false)) ∧
    (∃ (m : Master) (e : Nat) (s : State), (isUser m = false) ∧ (s.posted = []) ∧ (s.guardOf 0x09 = none) ∧ (s.pnl.lamp = some e) ∧ (s.mono < e + secs 2)) ∧
    (∃ (e : Nat) (s : State), (s.posted = []) ∧ (s.mstate ≠ stPOWER_ON) ∧ (s.pnl.lamp = some e)) :=
  ⟨⟨(250), ({ wS 4 [(PNL.PNL_TEMP_BAND, 5)] with pnl := { Pnl.blank with refresh := true } }), by decide +kernel⟩,
    ⟨(-190), ({ wS 5 [(PNL.PNL_TEMP_BAND, 0), (PNL.PNL_STAT_CLEANUP_PENDING, 1)] with pnl := { Pnl.blank with refresh := true } }), by decide +kernel⟩,
    ⟨(250), ({ wS 4 [(PNL.PNL_TEMP_BAND, 5), (PNL.DAY_USED_UPDATES, 249)] with pnl := { Pnl.blank with shown := some { (wS 4 [(PNL.PNL_TEMP_BAND, 5)]).compose with faults := [] } } }), by decide +kernel⟩,
    ⟨(-211), ({ wS 4 [(PNL.PNL_TEMP_BAND, 1)] with pnl := { Pnl.blank with refresh := true } }), by decide +kernel⟩,
    ⟨(250), ({ wS 4 [(PSU.FEED_STAT_PFW, 1)] with pnl := { Pnl.blank with refresh := true } }), by decide +kernel⟩,
    ⟨(250), ({ wS 4 [(PNL.PNL_TEMP_BAND, 5), (PNL.PNL_TEMP_LATCHED, 5), (PNL.PNL_STAT_STEP, 1), (PNL.PNL_STAT_UPDATING, 1)] with pnl := Pnl.blank }), by decide +kernel⟩,
    ⟨(601), ({ wS 4 [(PNL.PNL_TEMP_BAND, 9), (PNL.PNL_TEMP_LATCHED, 8), (PNL.PNL_STAT_STEP, 1), (PNL.PNL_STAT_UPD_OPEN, 1)] with pnl := Pnl.blank }), by decide +kernel⟩,
    ⟨(250), (⟨[1], [2], [3], [4], [5]⟩), ({ wS 4 [(PNL.PNL_TEMP_BAND, 5), (PNL.PNL_TEMP_LATCHED, 5), (PNL.PNL_STAT_STEP, 2), (PNL.PNL_STAT_UPDATING, 1)] with pnl := { Pnl.blank with target := some ⟨[1], [2], [3], [4], [5]⟩ } }), by decide +kernel⟩,
    ⟨(250), (⟨[1], [2], [3], [4], [5]⟩), ({ wS 4 [(PNL.PNL_TEMP_BAND, 5), (PNL.PNL_TEMP_LATCHED, 5), (PNL.PNL_STAT_STEP, 3), (PNL.PNL_STAT_UPDATING, 1)] with pnl := { Pnl.blank with target := some ⟨[1], [2], [3], [4], [5]⟩ } }), by decide +kernel⟩,
    ⟨({ wS 5 [(PNL.PNL_TEMP_BAND, 5)] with pnl := Pnl.blank }), by decide +kernel⟩,
    ⟨({ wS 4 [(PNL.PNL_STAT_UPDATING, 1)] with pnl := Pnl.blank }), by decide +kernel⟩,
    ⟨(2001), (wS 4 []), by decide +kernel⟩,
    ⟨(49), (wS 4 [(PNL.PNL_STAT_CRACK, 1)]), by decide +kernel⟩,
    ⟨(2000), (wS 4 [(PNL.PNL_STAT_CRACK, 1), (PNL.PNL_STAT_LOOP_LOST, 1)]), by decide +kernel⟩,
    ⟨({ wS 4 [(PNL.PNL_STAT_FRAME_ERR, 1)] with pnl := { Pnl.blank with bad := true } }), by decide +kernel⟩,
    ⟨({ wS 4 [(PNL.PNL_CNT_FRAME_ERR_CNT, 254)] with pnl := { Pnl.blank with bad := true } }), by decide +kernel⟩,
    ⟨(wS 4 [(PNL.PNL_CNT_FRAME_ERR_CNT, 255)]), by decide +kernel⟩,
    ⟨(.core 0), (wS 4 []), by decide +kernel⟩,
    ⟨(.core 0), (wS 4 [(PSU.FEED_STAT_PFW, 1)]), by decide +kernel⟩,
    ⟨(.core 0), (wS 4 []), by decide +kernel⟩,
    ⟨(.core 0), (7), ({ wS 4 [] with pnl := { Pnl.blank with lamp := some 7 } }), by decide +kernel⟩,
    ⟨(7), ({ wS 4 [] with pnl := { Pnl.blank with lamp := some 7 } }), by decide +kernel⟩⟩

end Sys2Proof.Tests
end

/-! # Register pages

The rules of R36, R42, R43 and R55: the error counters of a page header, the shadows of a multi-word value and the feature commit. First
the laws of the operations that these commands use, each stated once; then the statements. -/

section
/-! ### Addresses, pages and keys -/

namespace Sys2Proof.Machine

/-- The page map ends at page 0x90 (R32). -/
theorem pageKind_lt {p : Nat} (h : (pageKind p).isSome = true) : p < 0x91 := by
  by_contra hp
  have hn : pageKind p = none := by
    unfold pageKind
    simp (disch := omega) only [if_neg]
  rw [hn] at h
  cases h

/-- An address of a page fits a 32-bit operand. -/
theorem pageAddr_toNat {p off : Nat} (hp : p < 0x91) (ho : off < 4096) :
    (BitVec.ofNat 32 (pageAddr p off)).toNat = pageAddr p off := by
  rw [BitVec.toNat_ofNat, Nat.mod_eq_of_lt]
  unfold pageAddr
  omega

/-- Two words of one page and unit at different offsets have different keys. -/
theorem rkey_ne {p u o o' : Nat} (h : o ≠ o') : rkey p u o ≠ rkey p u o' := by unfold rkey; omega

/-- Two words of one page and master at different offsets have different shadows. -/
theorem shKey_inj {m p o o' : Nat} (h : shKey m p o = shKey m p o') : o = o' := by unfold shKey rkey at h; omega

/-! ### Error counters -/

theorem get_wr_key (s : State) (k : Nat) (v : Word) (f : Fld) (h : f.key ≠ k) : (s.wr k v).get f = s.get f := by
  unfold State.get
  rw [rd_wr_other _ _ h]

/-- A counter that counts saturates at its largest value (R40). -/
theorem get_bump_same (s : State) (f : Fld) (h : f.lo + f.w ≤ 32) :
    (s.bump f).get f = min (s.get f + 1) (2 ^ f.w - 1) := by
  have hw : 0 < 2 ^ f.w := Nat.two_pow_pos _
  unfold State.bump
  rw [get_put_same _ _ _ h, Nat.mod_eq_of_lt (by omega)]

theorem rd_errAddr (s : State) (p off cause m : Nat) {k : Nat} (h : k ≠ rkey p 0 0x024) :
    (s.errAddr p off cause m).rd k = s.rd k := by
  unfold State.errAddr
  rw [rd_put_key _ _ _ _ h, rd_put_key _ _ _ _ h, rd_put_key _ _ _ _ h]

theorem get_errAddr (s : State) (p off cause m : Nat) {f : Fld} (h : f.key ≠ rkey p 0 0x024) :
    (s.errAddr p off cause m).get f = s.get f := by
  unfold State.get
  rw [rd_errAddr s p off cause m h]

/-- A refusal that is recorded and counted in an 8-bit counter of PG_ERR_CNT (R35, R36). -/
theorem get_bump_errAddr (s : State) (p off cause m lo : Nat) (h : lo + 8 ≤ 32) :
    ((s.errAddr p off cause m).bump ⟨rkey p 0 0x028, lo, 8⟩).get ⟨rkey p 0 0x028, lo, 8⟩ =
      min (s.get ⟨rkey p 0 0x028, lo, 8⟩ + 1) 0xFF := by
  rw [get_bump_same _ _ h, get_errAddr _ _ _ _ _ (rkey_ne (by decide))]
  rfl

theorem get_lost_LOST (s : State) (p off cause m : Nat) :
    (s.lost p off cause m).get (HDR.PG_ERR_CNT_LOST p) = min (s.get (HDR.PG_ERR_CNT_LOST p) + 1) 0xFF :=
  get_bump_errAddr s p off cause m 24 (by decide)

theorem get_badAccess_ACCESS (s : State) (p off cause m : Nat) :
    (s.badAccess p off cause m).get (HDR.PG_ERR_CNT_ACCESS p) = min (s.get (HDR.PG_ERR_CNT_ACCESS p) + 1) 0xFF :=
  get_bump_errAddr s p off cause m 16 (by decide)

theorem get_badGuard_GUARD (s : State) (p off cause m : Nat) :
    (s.badGuard p off cause m).get (HDR.PG_ERR_CNT_GUARD p) = min (s.get (HDR.PG_ERR_CNT_GUARD p) + 1) 0xFF :=
  get_bump_errAddr s p off cause m 8 (by decide)

/-- A word that holds neither PG_ERR_ADDR nor PG_ERR_CNT is left alone by a counted refusal. -/
theorem rd_lost (s : State) (p off cause m : Nat) {k : Nat} (h : k ≠ rkey p 0 0x024) (h' : k ≠ rkey p 0 0x028) :
    (s.lost p off cause m).rd k = s.rd k := by
  unfold State.lost State.bump
  rw [rd_put_key _ _ _ _ h', rd_errAddr _ _ _ _ _ h]

theorem get_lost_other (s : State) (p off cause m : Nat) {f : Fld} (h : f.key ≠ rkey p 0 0x024) (h' : f.key ≠ rkey p 0 0x028) :
    (s.lost p off cause m).get f = s.get f := by
  unfold State.get
  rw [rd_lost s p off cause m h h']

theorem get_lost_CAUSE (s : State) (p off cause m : Nat) :
    (s.lost p off cause m).get (HDR.PG_ERR_ADDR_CAUSE p) = cause % 16 := by
  unfold State.lost State.bump State.errAddr
  rw [get_put_key _ _ _ _ (rkey_ne (by decide)), get_put_bits _ _ _ _ (by decide : 16 + 5 ≤ 32) (.inr (by decide : 12 + 4 ≤ 16)),
    get_put_same _ _ _ (by decide : 12 + 4 ≤ 32)]
  rfl

@[simp] theorem lost_posted (s : State) (p off cause m : Nat) : (s.lost p off cause m).posted = s.posted := rfl

/-! ### A write of PG_ERR_CNT (R36) -/

theorem get_loadCnt_same (s : State) (f : Fld) (n : Nat) (h : f.lo + f.w ≤ 32) (hn : n < 2 ^ f.w) :
    (s.loadCnt f n).get f = if n = 0xFF then s.get f else n := by
  unfold State.loadCnt
  split
  · rfl
  · rw [get_put_same _ _ _ h, Nat.mod_eq_of_lt hn]

theorem get_loadCnt_bits (s : State) (f g : Fld) (n : Nat) (hf : f.lo + f.w ≤ 32) (h : f.lo + f.w ≤ g.lo ∨ g.lo + g.w ≤ f.lo) :
    (s.loadCnt f n).get g = s.get g := by
  unfold State.loadCnt
  split
  · rfl
  · exact get_put_bits _ _ _ _ hf h

theorem rd_loadCnt (s : State) (f : Fld) (n : Nat) {k : Nat} (h : k ≠ f.key) : (s.loadCnt f n).rd k = s.rd k := by
  unfold State.loadCnt
  split
  · rfl
  · exact rd_put_key _ _ _ _ h

theorem loadCnt_posted (s : State) (f : Fld) (n : Nat) : (s.loadCnt f n).posted = s.posted := by
  unfold State.loadCnt
  split <;> rfl

/-- A write of PG_ERR_CNT that breaks no guarded write loads its three counters one after the other. -/
theorem errCntWrite_unbroken (s : State) (p : Nat) (v : Word) :
    s.errCntWrite p v false = ((s.loadCnt (HDR.PG_ERR_CNT_LOST p) (bits v 24 8)).loadCnt (HDR.PG_ERR_CNT_ACCESS p) (bits v 16 8)).loadCnt
      (HDR.PG_ERR_CNT_GUARD p) (bits v 8 8) := rfl

theorem errCntWrite_LOST (s : State) (p : Nat) (v : Word) :
    (s.errCntWrite p v false).get (HDR.PG_ERR_CNT_LOST p) =
      if bits v 24 8 = 0xFF then s.get (HDR.PG_ERR_CNT_LOST p) else bits v 24 8 := by
  rw [errCntWrite_unbroken, get_loadCnt_bits _ _ _ _ (by decide : 8 + 8 ≤ 32) (.inl (by decide : 8 + 8 ≤ 24)),
    get_loadCnt_bits _ _ _ _ (by decide : 16 + 8 ≤ 32) (.inl (by decide : 16 + 8 ≤ 24)),
    get_loadCnt_same _ _ _ (by decide : 24 + 8 ≤ 32) (bits_lt v 24 8)]

theorem errCntWrite_ACCESS (s : State) (p : Nat) (v : Word) :
    (s.errCntWrite p v false).get (HDR.PG_ERR_CNT_ACCESS p) =
      if bits v 16 8 = 0xFF then s.get (HDR.PG_ERR_CNT_ACCESS p) else bits v 16 8 := by
  rw [errCntWrite_unbroken, get_loadCnt_bits _ _ _ _ (by decide : 8 + 8 ≤ 32) (.inl (by decide : 8 + 8 ≤ 16)),
    get_loadCnt_same _ _ _ (by decide : 16 + 8 ≤ 32) (bits_lt v 16 8),
    get_loadCnt_bits _ _ _ _ (by decide : 24 + 8 ≤ 32) (.inr (by decide : 16 + 8 ≤ 24))]

theorem errCntWrite_GUARD (s : State) (p : Nat) (v : Word) :
    (s.errCntWrite p v false).get (HDR.PG_ERR_CNT_GUARD p) =
      if bits v 8 8 = 0xFF then s.get (HDR.PG_ERR_CNT_GUARD p) else bits v 8 8 := by
  rw [errCntWrite_unbroken, get_loadCnt_same _ _ _ (by decide : 8 + 8 ≤ 32) (bits_lt v 8 8),
    get_loadCnt_bits _ _ _ _ (by decide : 16 + 8 ≤ 32) (.inr (by decide : 8 + 8 ≤ 16)),
    get_loadCnt_bits _ _ _ _ (by decide : 24 + 8 ≤ 32) (.inr (by decide : 8 + 8 ≤ 24))]

theorem errCntWrite_rd (s : State) (p : Nat) (v : Word) {k : Nat} (h : k ≠ rkey p 0 0x028) :
    (s.errCntWrite p v false).rd k = s.rd k := by
  rw [errCntWrite_unbroken, rd_loadCnt _ _ _ h, rd_loadCnt _ _ _ h, rd_loadCnt _ _ _ h]

theorem errCntWrite_posted (s : State) (p : Nat) (v : Word) : (s.errCntWrite p v false).posted = s.posted := by
  rw [errCntWrite_unbroken, loadCnt_posted, loadCnt_posted, loadCnt_posted]

/-! ### Plain writes of the driver -/

/-- The state in which an accepted access acts: the master is answered. -/
def State.answered (s : State) : State := { s with resp := .done }

@[simp] theorem answered_posted (s : State) : s.answered.posted = s.posted := rfl
@[simp] theorem answered_mstate (s : State) : s.answered.mstate = s.mstate := rfl
@[simp] theorem answered_get (s : State) (f : Fld) : s.answered.get f = s.get f := rfl
@[simp] theorem answered_rd (s : State) (k : Nat) : s.answered.rd k = s.rd k := rfl

/-- A write outside the guarded windows, with no guarded write open on the page and the supply of GNT standing. -/
theorem pageWrite_plain {s : State} {p off : Nat} (v : Word) (m : Nat) (hg : s.guardOf p = none)
    (hs : p ≠ 0x07 ∨ s.gnt.stopped = false) (ho : off < 0x400 ∨ 0x800 ≤ off) :
    s.pageWrite p off v m = s.plainWrite p off v m false := by
  have hgnt : ¬ (p = 0x07 ∧ s.gnt.stopped = true) := by
    rintro ⟨h7, hstop⟩
    rcases hs with h | h
    · exact h h7
    · rw [h] at hstop; cases hstop
  have hval : ¬ guardValue off = true := by
    unfold guardValue
    rw [Bool.and_eq_true, decide_eq_true_eq, decide_eq_true_eq]
    omega
  unfold State.pageWrite
  dsimp only
  rw [guardExpire_none hg, if_neg hgnt, if_neg (by omega), if_neg hval, guardBreak_none hg, hg]
  rfl

/-- A driver's write outside the guarded windows of an assigned page. -/
theorem cmdWrite_plain {s : State} {m : Master} {p off : Nat} (v : BitVec 32) (hu : isUser m = false)
    (hp : (pageKind p).isSome = true) (hs : p ≠ 0x07 ∨ s.gnt.stopped = false) (ho : off < 0x400 ∨ 0x800 ≤ off ∧ off < 4096)
    (h4 : off % 4 = 0) (hg : s.guardOf p = none) :
    s.cmdWrite m p off v = s.answered.plainWrite p off v (s.masterNo m) false := by
  rw [cmdWrite_page s m v hu hp (pageKind_lt hp) (by omega) h4]
  exact pageWrite_plain (s := s.answered) v _ hg hs (by omega)

/-- A write of PG_ERR_CNT by the driver (R36). -/
theorem cmdWrite_errCnt {s : State} {m : Master} {p : Nat} (v : BitVec 32) (hu : isUser m = false)
    (hp : (pageKind p).isSome = true) (hs : p ≠ 0x07 ∨ s.gnt.stopped = false) (hg : s.guardOf p = none) :
    s.cmdWrite m p 0x028 v = s.answered.errCntWrite p v false := by
  rw [cmdWrite_plain v hu hp hs (by omega) (by decide) hg]
  rfl

/-! ### R36 -/

/-- Settles O15: the write loads the three counters of PG_ERR_CNT in turn, whose bits lie apart, and each count saturates. -/
theorem errorCounterWrite : Obligations.ErrorCounterWrite := by
  unfold Obligations.ErrorCounterWrite
  refine ⟨fun m p v s hu hq hp hs hg => ?_,
    fun s p off cause m => ⟨get_lost_LOST s p off cause m, get_badAccess_ACCESS s p off cause m, get_badGuard_GUARD s p off cause m⟩⟩
  have hw := cmdWrite_errCnt v hu hp hs hg
  have hq' : (s.cmdWrite m p.val 0x028 v).posted = [] := by rw [hw, errCntWrite_posted, answered_posted, hq]
  have hcnt : rkey p.val 0 0x028 % 4096 ≠ 0x010 := by rw [rkey_mod]; decide
  refine ⟨(s.cmdWrite m p.val 0x028 v).settle s, rfl, ?_, ?_, ?_, fun k hk h10 => ?_⟩
  · rw [settle_get s hq' hcnt, hw, errCntWrite_LOST, answered_get]
  · rw [settle_get s hq' hcnt, hw, errCntWrite_ACCESS, answered_get]
  · rw [settle_get s hq' hcnt, hw, errCntWrite_GUARD, answered_get]
  · rw [settle_rd s hq' h10, hw, errCntWrite_rd _ _ _ hk, answered_rd]

end Sys2Proof.Machine
end

section
/-! ### The feature commit (R55, R467) -/

namespace Sys2Proof.Machine

/-- What a feature commit does to feature word `k`: FEAT_ACTIVE takes the AND of DEV_FEAT and DRV_FEAT. -/
def State.activateFeature (s : State) (k : Nat) : State :=
  s.put (SYS.FEAT_ACTIVE k) (s.get (SYS.DEV_FEAT k) &&& s.get (SYS.DRV_FEAT k))

/-- Some mandatory bit is clear in DRV_FEAT. -/
def State.mandMissing (s : State) : Bool :=
  (List.range 8).any (fun k => s.get (SYS.FEAT_MAND k) &&& s.get (SYS.DRV_FEAT k) != s.get (SYS.FEAT_MAND k))

theorem featCommit_refused {s : State} (m : Nat) (h : s.mstate ≠ stCONFIG) : s.featCommit 1 m = s.lost 0x00 0x400 4 m := by
  unfold State.featCommit
  rw [if_neg (by decide), if_pos h]

theorem featCommit_accepted {s : State} (m : Nat) (h : s.mstate = stCONFIG) :
    s.featCommit 1 m = (((List.range 8).foldl State.activateFeature s).put SYS.MODULE_STATE_FEAT_COMMITTED 1).putB
      SYS.MODULE_STATE_MAND_MISSING ((List.range 8).foldl State.activateFeature s).mandMissing := by
  unfold State.featCommit
  rw [if_neg (by decide), if_neg (not_not.2 h)]
  rfl

/-- Activating feature words leaves every word below FEAT_ACTIVE0 alone: DEV_FEAT, FEAT_MAND and DRV_FEAT are among them. -/
theorem rd_activateFeatures (l : List Nat) (s : State) {k : Nat} (h : k < 0x0D0) :
    (l.foldl State.activateFeature s).rd k = s.rd k := by
  induction l generalizing s with
  | nil => rfl
  | cons i t ih =>
    have hk : k ≠ (SYS.FEAT_ACTIVE i).key := by unfold SYS.FEAT_ACTIVE rkey; dsimp only; omega
    rw [List.foldl_cons, ih]
    exact rd_put_key _ _ _ _ hk

theorem get_activateFeatures (l : List Nat) (s : State) {f : Fld} (h : f.key < 0x0D0) :
    (l.foldl State.activateFeature s).get f = s.get f := by
  unfold State.get
  rw [rd_activateFeatures l s h]

theorem activateFeatures_posted (l : List Nat) (s : State) : (l.foldl State.activateFeature s).posted = s.posted := by
  induction l generalizing s with
  | nil => rfl
  | cons i t ih => rw [List.foldl_cons, ih]; rfl

theorem DEV_FEAT_key_lt {i : Nat} (h : i < 8) : (SYS.DEV_FEAT i).key < 0x0D0 := by
  unfold SYS.DEV_FEAT rkey; dsimp only; omega

theorem FEAT_MAND_key_lt {i : Nat} (h : i < 8) : (SYS.FEAT_MAND i).key < 0x0D0 := by
  unfold SYS.FEAT_MAND rkey; dsimp only; omega

theorem DRV_FEAT_key_lt {i : Nat} (h : i < 8) : (SYS.DRV_FEAT i).key < 0x0D0 := by
  unfold SYS.DRV_FEAT rkey; dsimp only; omega

theorem FEAT_ACTIVE_key_range {i : Nat} (h : i < 8) : 0x0D0 ≤ (SYS.FEAT_ACTIVE i).key ∧ (SYS.FEAT_ACTIVE i).key < 0x0F0 := by
  unfold SYS.FEAT_ACTIVE rkey; dsimp only; omega

theorem get_activateFeature_same (s : State) (k : Nat) :
    (s.activateFeature k).get (SYS.FEAT_ACTIVE k) = s.get (SYS.DEV_FEAT k) &&& s.get (SYS.DRV_FEAT k) := by
  have hlt : s.get (SYS.DEV_FEAT k) &&& s.get (SYS.DRV_FEAT k) < 2 ^ 32 := Nat.and_lt_two_pow _ (bits_lt _ _ _)
  unfold State.activateFeature
  rw [get_put_same _ _ _ (by decide : 0 + 32 ≤ 32)]
  exact Nat.mod_eq_of_lt hlt

/-- Each activated feature word holds the AND of the words as they stood before (R55). -/
theorem get_FEAT_ACTIVE_activateFeatures (l : List Nat) (s : State) {k : Nat} (hk : k ∈ l) (h8 : k < 8) :
    (l.foldl State.activateFeature s).get (SYS.FEAT_ACTIVE k) = s.get (SYS.DEV_FEAT k) &&& s.get (SYS.DRV_FEAT k) := by
  induction l using List.reverseRecOn with
  | nil => cases hk
  | append_singleton t i ih =>
    rw [List.foldl_concat]
    by_cases hi : k = i
    · rw [hi] at h8 ⊢
      rw [get_activateFeature_same, get_activateFeatures t s (DEV_FEAT_key_lt h8), get_activateFeatures t s (DRV_FEAT_key_lt h8)]
    · have hne : (SYS.FEAT_ACTIVE k).key ≠ (SYS.FEAT_ACTIVE i).key := rkey_ne (by omega)
      have hmem : k ∈ t := by
        rcases List.mem_append.1 hk with h | h
        · exact h
        · exact absurd (List.mem_singleton.1 h) hi
      rw [← ih hmem]
      exact get_put_key _ _ _ _ hne

theorem mandMissing_iff (s : State) : s.mandMissing = true ↔
    ∃ k, k < 8 ∧ s.get (SYS.FEAT_MAND k) &&& s.get (SYS.DRV_FEAT k) ≠ s.get (SYS.FEAT_MAND k) := by
  unfold State.mandMissing
  simp only [List.any_eq_true, List.mem_range, bne_iff_ne]

/-- Whether a mandatory bit is missing depends on FEAT_MAND and DRV_FEAT alone. -/
theorem mandMissing_congr {s t : State} (hm : ∀ k, k < 8 → t.get (SYS.FEAT_MAND k) = s.get (SYS.FEAT_MAND k))
    (hd : ∀ k, k < 8 → t.get (SYS.DRV_FEAT k) = s.get (SYS.DRV_FEAT k)) : t.mandMissing = s.mandMissing := by
  rw [Bool.eq_iff_iff, mandMissing_iff, mandMissing_iff]
  refine exists_congr fun k => and_congr_right fun hk => ?_
  rw [hm k hk, hd k hk]

theorem get_putB_same (s : State) (f : Fld) (b : Bool) (h : f.lo + f.w ≤ 32) (hw : 0 < f.w) : (s.putB f b).get f = b2n b := by
  have hb : b2n b < 2 ^ f.w := lt_of_le_of_lt (by cases b <;> decide : b2n b ≤ 1) (Nat.one_lt_two_pow hw.ne')
  unfold State.putB
  rw [get_put_same _ _ _ h, Nat.mod_eq_of_lt hb]

theorem b2n_eq_one (b : Bool) : b2n b = 1 ↔ b = true := by cases b <;> decide

/-- A commit of 1 in CONFIG sets FEAT_COMMITTED whatever mandatory bits are missing (R55). -/
theorem get_featCommit_COMMITTED {s : State} (m : Nat) (h : s.mstate = stCONFIG) :
    (s.featCommit 1 m).get SYS.MODULE_STATE_FEAT_COMMITTED = 1 := by
  rw [featCommit_accepted m h]
  unfold State.putB
  rw [get_put_bits _ _ _ _ (by decide) (.inr (by decide)), get_put_same _ _ _ (by decide)]
  rfl

theorem get_featCommit_MISSING {s : State} (m : Nat) (h : s.mstate = stCONFIG) :
    (s.featCommit 1 m).get SYS.MODULE_STATE_MAND_MISSING = b2n s.mandMissing := by
  rw [featCommit_accepted m h, get_putB_same _ _ _ (by decide) (by decide),
    mandMissing_congr (fun _ hk => get_activateFeatures _ s (FEAT_MAND_key_lt hk)) (fun _ hk => get_activateFeatures _ s (DRV_FEAT_key_lt hk))]

/-- A commit of 1 in CONFIG leaves every field alone but FEAT_ACTIVE and the two flags of MODULE_STATE. -/
theorem get_featCommit_below {s : State} (m : Nat) (h : s.mstate = stCONFIG) {f : Fld} (hf : f.key < 0x0D0)
    (h48 : f.key ≠ 0x048 ∨ f.lo + f.w ≤ 9) : (s.featCommit 1 m).get f = s.get f := by
  rw [featCommit_accepted m h]
  unfold State.putB
  rcases h48 with hk | hb
  · rw [get_put_key _ _ _ _ hk, get_put_key _ _ _ _ hk, get_activateFeatures _ _ hf]
  · rw [get_put_bits _ _ _ _ (by decide) (.inr (hb.trans (by decide))), get_put_bits _ _ _ _ (by decide) (.inr hb),
      get_activateFeatures _ _ hf]

theorem get_featCommit_ACTIVE {s : State} (m : Nat) (h : s.mstate = stCONFIG) {k : Nat} (hk : k < 8) :
    (s.featCommit 1 m).get (SYS.FEAT_ACTIVE k) = s.get (SYS.DEV_FEAT k) &&& s.get (SYS.DRV_FEAT k) := by
  have h48 : (SYS.FEAT_ACTIVE k).key ≠ 0x048 := by have := FEAT_ACTIVE_key_range hk; omega
  rw [featCommit_accepted m h]
  unfold State.putB
  rw [get_put_key _ _ _ _ h48, get_put_key _ _ _ _ h48, get_FEAT_ACTIVE_activateFeatures _ _ (List.mem_range.2 hk) hk]

theorem featCommit_posted (s : State) (m : Nat) : (s.featCommit 1 m).posted = s.posted := by
  by_cases h : s.mstate = stCONFIG
  · rw [featCommit_accepted m h, State.putB, put_posted, put_posted, activateFeatures_posted]
  · rw [featCommit_refused m h, lost_posted]

/-! ### The judgement of a guarded write (R467) -/

/-- The state in which a guarded command is judged: no cause is shown in PG_ERR_ADDR. -/
def State.unjudged (s : State) (p : Nat) : State := s.put (HDR.PG_ERR_ADDR_CAUSE p) 0

/-- A command that leaves a cause was refused: nothing more happens. -/
theorem guardCommit_refused {s : State} {p off : Nat} {v : Word} {m : Nat}
    (h : ((s.unjudged p).guarded p off (v &&& grdMask p off).toNat m).get (HDR.PG_ERR_ADDR_CAUSE p) ≠ 0) :
    s.guardCommit p off v m = (s.unjudged p).guarded p off (v &&& grdMask p off).toNat m := by
  unfold State.guardCommit
  exact if_pos (.inl h)

/-- A command that leaves no cause and enters no BOOT was accepted: its value stays in the register (R48). -/
theorem guardCommit_accepted {s : State} {p off : Nat} {v : Word} {m : Nat}
    (h : ((s.unjudged p).guarded p off (v &&& grdMask p off).toNat m).get (HDR.PG_ERR_ADDR_CAUSE p) = 0)
    (hb : ((s.unjudged p).guarded p off (v &&& grdMask p off).toNat m).mstate ≠ stBOOT) :
    s.guardCommit p off v m = (((s.unjudged p).guarded p off (v &&& grdMask p off).toNat m).put (HDR.PG_ERR_ADDR_CAUSE p)
      (s.get (HDR.PG_ERR_ADDR_CAUSE p))).wr (rkey p 0 off) (v &&& grdMask p off) := by
  unfold State.guardCommit
  exact if_neg (not_or.2 ⟨not_not.2 h, fun hc => hb hc.1⟩)

theorem get_unjudged (s : State) (p : Nat) {f : Fld} (h : f.key ≠ rkey p 0 0x024) : (s.unjudged p).get f = s.get f :=
  get_put_key _ _ _ _ h

theorem unjudged_mstate (s : State) (p : Nat) : (s.unjudged p).mstate = s.mstate :=
  get_unjudged s p (by unfold SYS.MODULE_STATE_STATE rkey; dsimp only; omega)

theorem unjudged_mandMissing (s : State) : (s.unjudged 0x00).mandMissing = s.mandMissing :=
  mandMissing_congr (fun _ _ => get_unjudged s 0x00 (rkey_ne (by omega))) (fun _ _ => get_unjudged s 0x00 (rkey_ne (by omega)))

/-- FEAT_COMMIT is a guarded write of its register (R45, R55). -/
theorem cmdGuard_featCommit {s : State} {m : Master} (hu : isUser m = false) (hg : s.guardOf 0x00 = none) :
    s.cmdGuard m 0x00 0x400 1 = s.answered.guardCommit 0x00 0x400 1 (s.masterNo m) :=
  cmdGuard_commits s m 1 hu rfl (by decide) (by decide) (by decide) (by decide) (by decide) (.inl (by decide)) hg

/-- The guarded register at offset 0x400 of SYS is FEAT_COMMIT, all of its bits defined. -/
theorem guarded_featCommit (s : State) (m : Nat) :
    s.guarded 0x00 0x400 ((1 : Word) &&& grdMask 0x00 0x400).toNat m = s.featCommit 1 m := by
  rw [show ((1 : Word) &&& grdMask 0x00 0x400).toNat = 1 by decide]
  rfl

/-- FEAT_COMMIT of 1 outside CONFIG (R55, R467). -/
theorem guardCommit_featCommit_refused {s : State} (m : Nat) (h : s.mstate ≠ stCONFIG) :
    s.guardCommit 0x00 0x400 1 m = (s.unjudged 0x00).lost 0x00 0x400 4 m := by
  have hs : (s.unjudged 0x00).mstate ≠ stCONFIG := by rwa [unjudged_mstate]
  have he : (s.unjudged 0x00).guarded 0x00 0x400 ((1 : Word) &&& grdMask 0x00 0x400).toNat m =
      (s.unjudged 0x00).lost 0x00 0x400 4 m := by rw [guarded_featCommit, featCommit_refused m hs]
  rw [guardCommit_refused (by rw [he, get_lost_CAUSE]; decide), he]

/-- FEAT_COMMIT of 1 in CONFIG: every field but those of PG_ERR_ADDR and FEAT_COMMIT reads as the commit left it. -/
theorem get_guardCommit_featCommit {s : State} (m : Nat) (h : s.mstate = stCONFIG) {f : Fld} (h24 : f.key ≠ rkey 0x00 0 0x024)
    (h400 : f.key ≠ rkey 0x00 0 0x400) : (s.guardCommit 0x00 0x400 1 m).get f = ((s.unjudged 0x00).featCommit 1 m).get f := by
  have hs : (s.unjudged 0x00).mstate = stCONFIG := by rwa [unjudged_mstate]
  have hst : ((s.unjudged 0x00).featCommit 1 m).mstate = stCONFIG := by
    rw [State.mstate, get_featCommit_below m hs (by decide) (.inr (by decide))]
    exact hs
  have hc : ((s.unjudged 0x00).featCommit 1 m).get (HDR.PG_ERR_ADDR_CAUSE 0x00) = 0 := by
    rw [get_featCommit_below m hs (by decide) (.inl (by decide))]
    exact get_put_same _ _ _ (by decide)
  rw [guardCommit_accepted (by rw [guarded_featCommit, hc]) (by rw [guarded_featCommit, hst]; decide), guarded_featCommit,
    get_wr_key _ _ _ _ h400, get_put_key _ _ _ _ h24]

theorem guardCommit_featCommit_posted (s : State) (m : Nat) : (s.guardCommit 0x00 0x400 1 m).posted = s.posted := by
  have h : ((s.unjudged 0x00).guarded 0x00 0x400 ((1 : Word) &&& grdMask 0x00 0x400).toNat m).posted = s.posted := by
    rw [guarded_featCommit, featCommit_posted]
    rfl
  unfold State.guardCommit
  dsimp only
  split
  · exact h
  · exact h

/-- The next state of FEAT_COMMIT of 1 in CONFIG: outside PG_STAT, PG_ERR_ADDR and FEAT_COMMIT it is what the commit left. -/
theorem get_settle_featCommit {s : State} {m : Master} (hu : isUser m = false) (hq : s.posted = []) (hg : s.guardOf 0x00 = none)
    (hcfg : s.mstate = stCONFIG) (f : Fld) (h10 : f.key % 4096 ≠ 0x010) (h24 : f.key ≠ rkey 0x00 0 0x024)
    (h400 : f.key ≠ rkey 0x00 0 0x400) :
    ((s.cmdGuard m 0x00 0x400 1).settle s).get f = ((s.answered.unjudged 0x00).featCommit 1 (s.masterNo m)).get f := by
  have hw := cmdGuard_featCommit hu hg
  have hq' : (s.cmdGuard m 0x00 0x400 1).posted = [] := by rw [hw, guardCommit_featCommit_posted, answered_posted, hq]
  rw [settle_get s hq' h10, hw, get_guardCommit_featCommit (s := s.answered) _ hcfg h24 h400]

/-- The next state of FEAT_COMMIT of 1 outside CONFIG: a counted refusal. -/
theorem get_settle_featCommit_refused {s : State} {m : Master} (hu : isUser m = false) (hq : s.posted = [])
    (hg : s.guardOf 0x00 = none) (hcfg : s.mstate ≠ stCONFIG) (f : Fld) (h10 : f.key % 4096 ≠ 0x010) :
    ((s.cmdGuard m 0x00 0x400 1).settle s).get f = ((s.answered.unjudged 0x00).lost 0x00 0x400 4 (s.masterNo m)).get f := by
  have hw := cmdGuard_featCommit hu hg
  have hq' : (s.cmdGuard m 0x00 0x400 1).posted = [] := by rw [hw, guardCommit_featCommit_posted, answered_posted, hq]
  rw [settle_get s hq' h10, hw, guardCommit_featCommit_refused (s := s.answered) _ hcfg]

/-! ### R55 -/

/-- Settles O19: the guarded write commits its value, which `featCommit` accepts in CONFIG and refuses elsewhere. -/
theorem featureCommit : Obligations.FeatureCommit := by
  unfold Obligations.FeatureCommit
  refine ⟨fun m s hu hq hg hcfg => ?_, fun m s hu hq hg hcfg => ?_⟩
  · have hs : (s.answered.unjudged 0x00).mstate = stCONFIG := by rw [unjudged_mstate, answered_mstate, hcfg]
    have hget := get_settle_featCommit hu hq hg hcfg
    refine ⟨(s.cmdGuard m 0x00 0x400 1).settle s, rfl, ?_, fun k hk => ?_, ?_, ?_⟩
    · rw [State.mstate, hget _ (by decide) (by decide) (by decide), get_featCommit_below _ hs (by decide) (.inr (by decide))]
      exact hs
    · obtain ⟨hge, hlt⟩ := FEAT_ACTIVE_key_range hk
      rw [hget _ (by omega) (by unfold rkey; omega) (by unfold rkey; omega), get_featCommit_ACTIVE _ hs hk,
        get_unjudged _ _ (rkey_ne (by omega)), get_unjudged _ _ (rkey_ne (by omega)), answered_get, answered_get]
    · rw [hget _ (by decide) (by decide) (by decide), get_featCommit_COMMITTED _ hs]
    · rw [hget _ (by decide) (by decide) (by decide), get_featCommit_MISSING _ hs, unjudged_mandMissing, b2n_eq_one]
      exact mandMissing_iff s
  · have hget := get_settle_featCommit_refused hu hq hg hcfg
    refine ⟨(s.cmdGuard m 0x00 0x400 1).settle s, rfl, fun k hk => ?_, ?_⟩
    · obtain ⟨hge, hlt⟩ := FEAT_ACTIVE_key_range hk
      rw [hget _ (by omega), get_lost_other _ _ _ _ _ (by unfold rkey; omega) (by unfold rkey; omega),
        get_unjudged _ _ (by unfold rkey; omega), answered_get]
    · rw [hget _ (by decide), get_lost_LOST, get_unjudged _ _ (by decide), answered_get]

end Sys2Proof.Machine
end

section
/-! ### Where the words of multi-word values lie (R42, R43) -/

namespace Sys2Proof.Machine

/-- A row of a page table that holds a LAT field lies in the block part of its page and outside the guarded windows. -/
def Row.latPlaced (r : Row) : Bool :=
  r.ty != .lat || (decide (0x044 ≤ r.base) && decide (r.base + r.stride * (r.count - 1) < 0x400)) ||
    (decide (0x808 ≤ r.base) && decide (r.base + r.stride * (r.count - 1) < 0x1000))

/-- The offsets at which a LAT field can lie. -/
def latOffset (off : Nat) : Prop := 0x044 ≤ off ∧ off < 0x400 ∨ 0x808 ≤ off ∧ off < 0x1000

theorem rows_latPlaced (k : Kind) : k.rows.all Row.latPlaced = true := by cases k <;> decide +kernel

theorem rowsHDR_no_lat : rowsHDR.any (fun r => r.ty == .lat) = false := by decide

theorem rowsQMG_no_lat : rowsQMG.any (fun r => r.ty == .lat) = false := by decide

/-- A row that reaches offset `off` reaches no offset past its last entry. -/
theorem Row.has_bounds {r : Row} {off : Nat} (h : r.has off = true) :
    r.base ≤ off ∧ off ≤ r.base + r.stride * (r.count - 1) := by
  unfold Row.has at h
  split at h
  · have : off = r.base := by simpa using h
    omega
  · next hs =>
    simp only [Bool.and_eq_true, decide_eq_true_eq, beq_iff_eq] at h
    obtain ⟨⟨hb, hm⟩, hc⟩ := h
    have hq : (off - r.base) / r.stride ≤ r.count - 1 := by omega
    have hd : off - r.base = r.stride * ((off - r.base) / r.stride) := (Nat.mul_div_cancel' (Nat.dvd_of_mod_eq_zero hm)).symm
    have := Nat.mul_le_mul_left r.stride hq
    omega

/-- A row at an offset of a page is one of the header's or of the page's table, and reaches the offset. -/
theorem mem_rowsAt {p off : Nat} {r : Row} (h : r ∈ rowsAt p off) :
    r ∈ rowsHDR ∨ ∃ k, pageKind p = some k ∧ r ∈ k.rows ∧ r.has off = true := by
  unfold rowsAt at h
  split at h
  · cases h
  · next k hk =>
    split at h
    · exact .inl (List.mem_filter.1 h).1
    · obtain ⟨hr, hh⟩ := List.mem_filter.1 h
      exact .inr ⟨k, hk, hr, (Bool.and_eq_true _ _ ▸ hh).1⟩

/-- A LAT field lies in the table of its page, and the Queue manager has none. -/
theorem isLat_row {p off : Nat} (h : isLat p off = true) :
    ∃ k r, pageKind p = some k ∧ k ≠ .qmg ∧ r ∈ k.rows ∧ r.has off = true ∧ r.ty = .lat := by
  obtain ⟨r, hr, ht⟩ := List.any_eq_true.1 h
  rcases mem_rowsAt hr with hh | ⟨k, hk, hrow, hhas⟩
  · exact absurd (List.any_eq_true.2 ⟨r, hh, ht⟩) (by rw [rowsHDR_no_lat]; decide)
  · refine ⟨k, r, hk, ?_, hrow, hhas, by simpa using ht⟩
    rintro rfl
    exact absurd (List.any_eq_true.2 ⟨r, hrow, ht⟩) (by show ¬ rowsQMG.any _ = true; rw [rowsQMG_no_lat]; decide)

theorem isLat_offset {p off : Nat} (h : isLat p off = true) : latOffset off := by
  obtain ⟨k, r, -, -, hr, hhas, ht⟩ := isLat_row h
  obtain ⟨hlo, hhi⟩ := Row.has_bounds hhas
  have hp := List.all_eq_true.1 (rows_latPlaced k) r hr
  unfold Row.latPlaced at hp
  simp only [ht, bne_self_eq_false, Bool.false_or, Bool.or_eq_true, Bool.and_eq_true, decide_eq_true_eq] at hp
  unfold latOffset
  omega

theorem isLat_page {p off : Nat} (h : isLat p off = true) : p ≠ 0x0A := by
  obtain ⟨k, -, hk, hq, -⟩ := isLat_row h
  rintro rfl
  exact hq (Option.some.inj hk).symm

/-- A word with words behind it is a low word. -/
theorem latsOf_ne_nil {p off : Nat} (h : latsOf p off ≠ []) : isLat p off = false ∧ isLat p (off + 4) = true := by
  unfold latsOf at h
  split at h
  · exact absurd rfl h
  · next h4 => simpa using h4

/-- The words behind a low word: the next one or two, each a LAT word. -/
theorem mem_latsOf {p off o : Nat} (h : o ∈ latsOf p off) : isLat p o = true := by
  have h4 := (latsOf_ne_nil (List.ne_nil_of_mem h)).2
  unfold latsOf at h
  split at h
  · cases h
  · split at h
    · next h8 =>
      rcases List.mem_pair.1 h with rfl | rfl
      · exact h4
      · exact h8
    · rw [List.mem_singleton.1 h]
      exact h4

theorem latsOf_nodup (p off : Nat) : (off :: latsOf p off).Nodup := by
  unfold latsOf
  split
  · simp
  · split <;> simp

/-! ### The read shadow (R42) -/

@[simp] theorem rsh_setRsh_same (s : State) (k : Nat) (v : Word) : (s.setRsh k v).rsh k = v := mapGet_set_same _ _ _

theorem rsh_setRsh_other (s : State) {j k : Nat} (v : Word) (h : j ≠ k) : (s.setRsh k v).rsh j = s.rsh j :=
  mapGet_set_other _ _ h

/-- No register shows a read shadow. -/
@[simp] theorem regWord_setRsh (s : State) (k : Nat) (v : Word) (p off : Nat) : (s.setRsh k v).regWord p off = s.regWord p off := rfl

/-- What the latch of R42 copies of the word at `o` of the value at `off`: nothing of a WO value, which reads 0. -/
def State.latchWord (s : State) (p off o : Nat) : Word :=
  if (rowsAt p off).any (fun r => r.ty == .wo) then 0 else s.regWord p o

/-- The latch copies all its words as they stand in one cycle. -/
theorem rsh_latch (s : State) (m p off : Nat) (l : List Nat) {o : Nat} (h : o ∈ l) :
    (s.latch m p off l).rsh (shKey m p o) = s.latchWord p off o := by
  suffices hall : ∀ (l : List Nat) (s : State), (s.latch m p off l).rsh (shKey m p o) =
      if o ∈ l then s.latchWord p off o else s.rsh (shKey m p o) by rw [hall, if_pos h]
  intro l
  induction l with
  | nil => intro s; rfl
  | cons a t ih =>
    intro s
    have hw : ∀ v, (s.setRsh (shKey m p a) v).latchWord p off o = s.latchWord p off o := fun v => by
      rw [State.latchWord, regWord_setRsh, State.latchWord]
    rw [State.latch, ih, hw]
    by_cases ha : o = a
    · subst ha
      rw [rsh_setRsh_same, if_pos List.mem_cons_self]
      exact ite_self _
    · rw [rsh_setRsh_other _ _ (fun hk => ha (shKey_inj hk))]
      simp only [List.mem_cons, ha, false_or]

/-! ### The write shadow (R43) -/

@[simp] theorem wsh_setWsh_same (s : State) (k : Nat) (v : Option Word) : (s.setWsh k v).wsh k = v := mapGet_set_same _ _ _

theorem wsh_setWsh_other (s : State) {j k : Nat} (v : Option Word) (h : j ≠ k) : (s.setWsh k v).wsh j = s.wsh j :=
  mapGet_set_other _ _ h

@[simp] theorem setWsh_rd (s : State) (k j : Nat) (v : Option Word) : (s.setWsh k v).rd j = s.rd j := rfl

@[simp] theorem setWsh_posted (s : State) (k : Nat) (v : Option Word) : (s.setWsh k v).posted = s.posted := rfl

theorem wsh_emptyWsh (s : State) (m p o : Nat) (l : List Nat) :
    (s.emptyWsh m p l).wsh (shKey m p o) = if o ∈ l then none else s.wsh (shKey m p o) := by
  induction l generalizing s with
  | nil => rfl
  | cons a t ih =>
    rw [State.emptyWsh, ih]
    by_cases ha : o = a
    · subst ha
      rw [wsh_setWsh_same, if_pos List.mem_cons_self]
      exact ite_self _
    · rw [wsh_setWsh_other _ _ (fun hk => ha (shKey_inj hk))]
      simp only [List.mem_cons, ha, false_or]

@[simp] theorem emptyWsh_rd (s : State) (m p k : Nat) (l : List Nat) : (s.emptyWsh m p l).rd k = s.rd k := by
  induction l generalizing s with
  | nil => rfl
  | cons a t ih => rw [State.emptyWsh, ih, setWsh_rd]

@[simp] theorem emptyWsh_posted (s : State) (m p : Nat) (l : List Nat) : (s.emptyWsh m p l).posted = s.posted := by
  induction l generalizing s with
  | nil => rfl
  | cons a t ih => rw [State.emptyWsh, ih, setWsh_posted]

/-! ### The words that a low-word write commits (R43) -/

@[simp] theorem wrWords_wsh (s : State) (p u k : Nat) (l : List (Nat × Word)) : (s.wrWords p u l).wsh k = s.wsh k := by
  induction l generalizing s with
  | nil => rfl
  | cons e t ih => rw [State.wrWords, ih]; rfl

@[simp] theorem wrWords_posted (s : State) (p u : Nat) (l : List (Nat × Word)) : (s.wrWords p u l).posted = s.posted := by
  induction l generalizing s with
  | nil => rfl
  | cons e t ih => rw [State.wrWords, ih, wr_posted]

theorem rd_wrWords_other (s : State) (p u : Nat) (l : List (Nat × Word)) {o : Nat} (h : o ∉ l.map Prod.fst) :
    (s.wrWords p u l).rd (rkey p u o) = s.rd (rkey p u o) := by
  induction l generalizing s with
  | nil => rfl
  | cons e t ih =>
    obtain ⟨hne, ht⟩ := not_or.1 (List.mem_cons.not.1 h)
    rw [State.wrWords, ih _ ht, rd_wr_other _ _ (rkey_ne hne)]

/-- Words at different offsets all stand after they are written in turn. -/
theorem rd_wrWords_mem (s : State) (p u : Nat) {l : List (Nat × Word)} (hl : (l.map Prod.fst).Nodup) {e : Nat × Word} (h : e ∈ l) :
    (s.wrWords p u l).rd (rkey p u e.1) = e.2 := by
  induction l generalizing s with
  | nil => cases h
  | cons a t ih =>
    obtain ⟨hnot, ht⟩ := List.nodup_cons.1 hl
    rw [State.wrWords]
    rcases List.mem_cons.1 h with rfl | h
    · rw [rd_wrWords_other _ _ _ _ hnot, rd_wr_same]
    · exact ih _ ht h

/-- What the word at `o` behind a low word takes: its write shadow where one is held, else what it holds. -/
def State.commitWord (s : State) (m p u o : Nat) : Word :=
  match s.wsh (shKey m p o) with
  | some w => w &&& wordMask p o
  | none => s.rd (rkey p u o)

/-- The words of a multi-word value as a write of `v` to its low word leaves them. -/
def State.commitWords (s : State) (m p off : Nat) (v : Word) : List (Nat × Word) :=
  (off, v &&& wordMask p off) :: (latsOf p off).map (fun o => (o, s.commitWord m p (s.unitOf p off) o))

theorem commitWords_nodup (s : State) (m p off : Nat) (v : Word) : ((s.commitWords m p off v).map Prod.fst).Nodup := by
  have h : (s.commitWords m p off v).map Prod.fst = off :: latsOf p off := by
    simp [State.commitWords, Function.comp_def]
  rw [h]
  exact latsOf_nodup p off

theorem mem_commitWords_low (s : State) (m p off : Nat) (v : Word) : (off, v &&& wordMask p off) ∈ s.commitWords m p off v :=
  List.mem_cons_self

theorem mem_commitWords_high (s : State) (m p off : Nat) (v : Word) {o : Nat} (h : o ∈ latsOf p off) :
    (o, s.commitWord m p (s.unitOf p off) o) ∈ s.commitWords m p off v :=
  List.mem_cons_of_mem _ (List.mem_map_of_mem h)

/-- The servo's offset register takes commands only: it is no RW value. -/
theorem servoOffset_not_writable : (rowsAt 0x04 0x060).any (fun r => r.ty == .rw || r.ty == .rwh) = false := by decide

/-- A low-word write that is not refused: the shadows are emptied, and the words are written unless each stands already. -/
theorem groupWrite_accepted {s : State} {p off : Nat} {v : Word} {m : Nat}
    (hty : (rowsAt p off).any (fun r => r.ty == .rw || r.ty == .rwh) = true)
    (hc : s.groupCause p off v (s.commitWords m p off v) = 0) :
    s.groupWrite p off v m =
      if (s.commitWords m p off v).all (fun e => e.2 == s.rd (rkey p (s.unitOf p off) e.1)) then s.emptyWsh m p (latsOf p off)
      else (s.emptyWsh m p (latsOf p off)).wrWords p (s.unitOf p off) (s.commitWords m p off v) := by
  have h60 : ¬ (p = 0x04 ∧ off = 0x060) := by
    rintro ⟨rfl, rfl⟩
    rw [servoOffset_not_writable] at hty
    cases hty
  unfold State.groupWrite
  dsimp only
  rw [if_neg h60, hty]
  show (if (!true || (s.commitWords m p off v).all _) = true then _
    else if s.groupCause p off v (s.commitWords m p off v) = 4 then _
    else if s.groupCause p off v (s.commitWords m p off v) = 7 then _ else _) = _
  rw [hc, Bool.not_true, Bool.false_or, if_neg (by decide : ¬ 0 = 4), if_neg (by decide : ¬ 0 = 7)]
  rfl

theorem rd_groupWrite {s : State} {p off : Nat} {v : Word} {m : Nat}
    (hty : (rowsAt p off).any (fun r => r.ty == .rw || r.ty == .rwh) = true)
    (hc : s.groupCause p off v (s.commitWords m p off v) = 0) {e : Nat × Word} (he : e ∈ s.commitWords m p off v) :
    (s.groupWrite p off v m).rd (rkey p (s.unitOf p off) e.1) = e.2 := by
  rw [groupWrite_accepted hty hc]
  split
  · next hall =>
    rw [emptyWsh_rd]
    exact (eq_of_beq (List.all_eq_true.1 hall e he)).symm
  · exact rd_wrWords_mem _ _ _ (commitWords_nodup s m p off v) he

theorem wsh_groupWrite {s : State} {p off : Nat} {v : Word} {m : Nat}
    (hty : (rowsAt p off).any (fun r => r.ty == .rw || r.ty == .rwh) = true)
    (hc : s.groupCause p off v (s.commitWords m p off v) = 0) {o : Nat} (ho : o ∈ latsOf p off) :
    (s.groupWrite p off v m).wsh (shKey m p o) = none := by
  rw [groupWrite_accepted hty hc]
  split
  · rw [wsh_emptyWsh, if_pos ho]
  · rw [wrWords_wsh, wsh_emptyWsh, if_pos ho]

theorem groupWrite_posted {s : State} {p off : Nat} {v : Word} {m : Nat}
    (hty : (rowsAt p off).any (fun r => r.ty == .rw || r.ty == .rwh) = true)
    (hc : s.groupCause p off v (s.commitWords m p off v) = 0) : (s.groupWrite p off v m).posted = s.posted := by
  rw [groupWrite_accepted hty hc]
  split
  · exact emptyWsh_posted _ _ _ _
  · rw [wrWords_posted, emptyWsh_posted]

/-! ### Reads and writes of the driver -/

/-- A write outside the header's commands and the ring indices goes to the words of multi-word values or to fields. -/
theorem plainWrite_block {s : State} {p off : Nat} (v : Word) (m : Nat) (broke : Bool) (ho : 0x040 ≤ off) (hp : p ≠ 0x0A) :
    s.plainWrite p off v m broke = if isLat p off then s.setWsh (shKey m p off) (some v)
      else if latsOf p off ≠ [] then s.groupWrite p off v m else s.fieldsWrite p off v m := by
  unfold State.plainWrite
  rw [if_neg (by omega), if_neg (by omega), if_neg (by omega), if_neg (fun h => hp h.1), if_neg (fun h => hp h.1)]

theorem cmdWrite_high {s : State} {m : Master} {p off : Nat} (v : BitVec 32) (hu : isUser m = false)
    (hp : (pageKind p).isSome = true) (hs : p ≠ 0x07 ∨ s.gnt.stopped = false) (h4 : off % 4 = 0) (hl : isLat p off = true)
    (hg : s.guardOf p = none) :
    s.cmdWrite m p off v = s.answered.setWsh (shKey (s.masterNo m) p off) (some v) := by
  have ho : latOffset off := isLat_offset hl
  unfold latOffset at ho
  rw [cmdWrite_plain v hu hp hs (by omega) h4 hg, plainWrite_block _ _ _ (by omega) (isLat_page hl), if_pos hl]

theorem cmdWrite_low {s : State} {m : Master} {p off : Nat} (v : BitVec 32) (hu : isUser m = false)
    (hp : (pageKind p).isSome = true) (hs : p ≠ 0x07 ∨ s.gnt.stopped = false) (ho4 : off < 4096) (h4 : off % 4 = 0)
    (hl : latsOf p off ≠ []) (hg : s.guardOf p = none) :
    s.cmdWrite m p off v = s.answered.groupWrite p off v (s.masterNo m) := by
  obtain ⟨hlow, hhigh⟩ := latsOf_ne_nil hl
  have ho : latOffset (off + 4) := isLat_offset hhigh
  unfold latOffset at ho
  rw [cmdWrite_plain v hu hp hs (by omega) h4 hg, plainWrite_block _ _ _ (by omega) (isLat_page hhigh),
    if_neg (by rw [hlow]; decide), if_pos hl]

/-- The state that answers a read with the word `w`. -/
def State.replied (s : State) (w : Word) : State := { s with resp := .data (w.setWidth 64) }

@[simp] theorem replied_rsh (s : State) (w : Word) (k : Nat) : (s.replied w).rsh k = s.rsh k := rfl

/-- A driver's 32-bit read of a page, not from user mode. -/
theorem masterRead_page (s : State) (m : Master) {p off : Nat} (hu : isUser m = false)
    (hp : (pageKind p).isSome = true) (ho : off < 4096) (h4 : off % 4 = 0) :
    s.masterRead m (pageAddr p off) 4 =
      (s.pageRead p off (s.masterNo m) true).1.replied (s.pageRead p off (s.masterNo m) true).2 := by
  have ha : pageAddr p off % 4 = 0 := by unfold pageAddr; omega
  have hm : pageAddr p off % 4096 = off := by unfold pageAddr; omega
  have hb : s.barred m (pageAddr p off) 4 = false := by unfold State.barred; rw [hu]; rfl
  have hw : ∀ w : Word, BitVec.ofNat 64 (w.toNat / 2 ^ (8 * 0) % 2 ^ (8 * 4)) = w.setWidth 64 := by
    intro w
    apply BitVec.eq_of_toNat_eq
    have := w.isLt
    simp only [BitVec.toNat_ofNat, BitVec.toNat_setWidth]
    omega
  unfold State.masterRead
  rw [if_neg (by rw [hb]; decide)]
  unfold State.busRead
  dsimp only
  rw [regionOf_page _ hp (pageKind_lt hp) ho, if_pos (show wordRegion (.page p) = true from rfl), if_neg (not_not.2 ha),
    if_neg (by decide), Nat.div_mul_cancel (Nat.dvd_of_mod_eq_zero ha), ha, hw]
  unfold State.wordRead
  dsimp only
  rw [hm]
  rfl

theorem pageRead_low {s : State} {p off m : Nat} (hg : s.guardOf p = none) (ho : ¬ (0x600 ≤ off ∧ off < 0x800))
    (hl : latsOf p off ≠ []) (hf : showsFree p off = false) :
    s.pageRead p off m true = (s.latch m p off (latsOf p off), s.shown p off) := by
  unfold State.pageRead
  dsimp only
  rw [guardExpire_none hg, if_neg ho, if_neg (by rw [(latsOf_ne_nil hl).1]; decide), hf]
  rfl

/-! ### R42 and R43 -/

theorem exec_lowWordRead_page {m : Master} {p off : Nat} {s : State} (hp : p < 0x91) (ho : off < 4096) :
    exec (.lowWordRead m (BitVec.ofNat 32 (pageAddr p off)) 4) s = .next ((s.masterRead m (pageAddr p off) 4).settle s) := by
  show Host.Outcome.next ((s.masterRead m (BitVec.ofNat 32 (pageAddr p off)).toNat 4).settle s) = _
  rw [pageAddr_toNat hp ho]

/-- A bus write at a page address given as a 32-bit operand is the driver's write of that word. -/
theorem masterWrite_operand (s : State) (m : Master) {p off : Nat} (v : BitVec 32) (hp : p < 0x91) (ho : off < 4096) :
    s.masterWrite m (BitVec.ofNat 32 (pageAddr p off)).toNat 4 (v.setWidth 64) = s.cmdWrite m p off v := by
  rw [pageAddr_toNat hp ho]
  rfl

theorem exec_highWordWrite_page {m : Master} {p off : Nat} {v : BitVec 32} {s : State} (hp : p < 0x91) (ho : off < 4096) :
    exec (.highWordWrite m (BitVec.ofNat 32 (pageAddr p off)) v) s = .next ((s.cmdWrite m p off v).settle s) :=
  congrArg (fun t => Host.Outcome.next (State.settle t s)) (masterWrite_operand s m v hp ho)

theorem exec_lowWordWrite_page {m : Master} {p off : Nat} {v : BitVec 32} {s : State} (hp : p < 0x91) (ho : off < 4096) :
    exec (.lowWordWrite m (BitVec.ofNat 32 (pageAddr p off)) v) s = .next ((s.cmdWrite m p off v).settle s) :=
  congrArg (fun t => Host.Outcome.next (State.settle t s)) (masterWrite_operand s m v hp ho)

@[simp] theorem settle_rsh (s old : State) (k : Nat) : (s.settle old).rsh k = s.rsh k := by
  unfold State.rsh
  rw [settle_rshadow]

@[simp] theorem settle_wsh (s old : State) (k : Nat) : (s.settle old).wsh k = s.wsh k := by
  unfold State.wsh
  rw [settle_wshadow]

/-- After a low-word read the read shadow holds what the latch copied of each word behind it (R42). -/
theorem rsh_lowWordRead {m : Master} {p off : Nat} {s t : State} (hu : isUser m = false) (hp : (pageKind p).isSome = true)
    (hw : off < 0x600 ∨ 0x800 ≤ off) (ho : off < 4096) (h4 : off % 4 = 0) (hl : latsOf p off ≠ []) (hf : showsFree p off = false)
    (hg : s.guardOf p = none) (ht : exec (.lowWordRead m (BitVec.ofNat 32 (pageAddr p off)) 4) s = .next t) {o : Nat}
    (hmem : o ∈ latsOf p off) : t.rsh (shKey (s.masterNo m) p o) = s.latchWord p off o := by
  rw [exec_lowWordRead_page (pageKind_lt hp) ho] at ht
  cases ht
  rw [settle_rsh, masterRead_page s m hu hp ho h4, pageRead_low hg (by omega) hl hf, replied_rsh, rsh_latch _ _ _ _ _ hmem]

/-- The state after reset, but the high word of SERVO_OFFSET holds 1, as a write of an offset of 2 ^ 32 ns leaves it. -/
def servoOffsetHeld : State := State.reset.wr (rkey 0x04 0 0x064) 1

theorem servoOffset_latches_zero : servoOffsetHeld.latchWord 0x04 0x060 0x064 = 0 := if_pos (by decide)

theorem servoOffset_high_holds_one : servoOffsetHeld.regWord 0x04 0x064 = 1 := by decide +kernel

/-- Refutes O12: the statement asks whether the word latched is itself WO. The high word of SERVO_OFFSET is a LAT word and holds 1
here, but the WO type of the whole value is that of its low word, and so the read of that word latches 0. -/
theorem not_lowWordReadLatches : ¬ Obligations.LowWordReadLatches := by
  unfold Obligations.LowWordReadLatches
  rintro ⟨hlow, -⟩
  have hl : latsOf 0x04 0x060 = [0x064] := by decide
  have hne : latsOf 0x04 0x060 ≠ [] := by rw [hl]; decide
  have hmem : 0x064 ∈ latsOf 0x04 0x060 := by rw [hl]; decide
  obtain ⟨t, ht, -, hlat⟩ := hlow (.core 0) 0x04 0x060 servoOffsetHeld rfl rfl (by decide) (by decide) (by decide) (by decide) hne
    rfl rfl
  have hzero := rsh_lowWordRead rfl rfl (by decide) (by decide) (by decide) hne rfl rfl ht hmem
  have hone := hlat 0x064 hmem
  rw [hzero, servoOffset_latches_zero, if_neg (by decide), servoOffset_high_holds_one] at hone
  exact absurd hone (by decide)

/-- Settles O13: a high-word write waits in the shadow, and a low-word write commits what the shadow holds. -/
theorem multiWordWrite : Obligations.MultiWordWrite := by
  unfold Obligations.MultiWordWrite
  refine ⟨fun m p off v s hu hq hp h91 hs ho h4 hl hg => ?_, fun m p off v s hu hq hp h91 hs ho h4 hl hg hty _ hc => ?_⟩
  · have hw := cmdWrite_high v hu hp hs h4 hl hg
    have hq' : (s.cmdWrite m p off v).posted = [] := by rw [hw, setWsh_posted, answered_posted, hq]
    refine ⟨_, exec_highWordWrite_page h91 ho, ?_, fun k hk => ?_⟩
    · rw [settle_wsh, hw, wsh_setWsh_same]
    · rw [settle_rd s hq' hk, hw, setWsh_rd, answered_rd]
  · have hw := cmdWrite_low v hu hp hs ho h4 hl hg
    have hc' : s.answered.groupCause p off v (s.answered.commitWords (s.masterNo m) p off v) = 0 := hc
    have hq' : (s.cmdWrite m p off v).posted = [] := by rw [hw, groupWrite_posted hty hc', answered_posted, hq]
    have hoff : 0x040 ≤ off := by
      have hlat : latOffset (off + 4) := isLat_offset (latsOf_ne_nil hl).2
      unfold latOffset at hlat
      omega
    have hkey : ∀ o, 0x040 ≤ o → o < 4096 → rkey p (s.unitOf p off) o % 4096 ≠ 0x010 := fun o hlo hhi => by
      rw [rkey_mod]
      omega
    refine ⟨_, exec_lowWordWrite_page h91 ho, ?_, fun o hmem => ⟨?_, ?_⟩⟩
    · rw [settle_rd s hq' (hkey off hoff ho), hw]
      exact rd_groupWrite hty hc' (mem_commitWords_low _ _ _ _ _)
    · rw [settle_wsh, hw, wsh_groupWrite hty hc' hmem]
    · have hlat : latOffset o := isLat_offset (mem_latsOf hmem)
      unfold latOffset at hlat
      rw [settle_rd s hq' (hkey o (by omega) (by omega)), hw]
      exact rd_groupWrite hty hc' (mem_commitWords_high _ _ _ _ _ hmem)

end Sys2Proof.Machine
end
